-- ==== Sys2Proof/Word.lean ====
section
/-!
DEFINITION. The word types of the Adeopor (R4, R45, R116, R127) and the one shape of table the model uses.
-/
set_option Elab.async false
namespace Sys2Proof

/-- A byte of memory. -/
abbrev Byte := BitVec 8
/-- A 32-bit word: one vector lane, one slot word. -/
abbrev W32 := BitVec 32
/-- A 64-bit word: a scalar register, a predicate, a Ducat-64 value. -/
abbrev W64 := BitVec 64
/-- A vector register: lane `i` is bits `32i+31:32i` (R8). -/
abbrev Vec := BitVec 2048
/-- The 4 KiB of a tile slot: byte `i` is bits `8i+7:8i` (R169). -/
abbrev TileBits := BitVec 32768
/-- One accumulator: element `(m, n)` is 40 bits at `40(32m+n)` (R127, R177). -/
abbrev AccBits := BitVec 40960
/-- A table from numbers to entries, sorted by key without repeats. -/
abbrev Tbl (α : Type) := List (Nat × α)

end Sys2Proof
end

