-- ==== Sys2Proof/Syntax.lean ====
section
/-!
DEFINITION. The one syntax tree: a constructor for every row of the opcode table. A slot operation carries the
fields of its word as the table lays them out. An event row of a core's engines carries which engine and entry it is; a
request of the host, the runtimes, the management controller or the outside world brings its operands in a `Request`.
-/
set_option Elab.async false
namespace Sys2Proof

/-- A firmware image as a loader hands it over: its digest, version word, security version, and how its two
signatures and keys verify (R397, R401). -/
structure FwImage where
  digest : BitVec 384
  version : W32
  svn : BitVec 16
  fetched : Bool
  rsaOk : Bool
  slhOk : Bool
  keyRevoked : Bool
  deriving DecidableEq, Repr

/-- The images that can be updated in service (R397). -/
inductive FwKind where
  | boot | runtime | vault | mint | routines
  deriving DecidableEq, Repr

/-- What a master other than a context asks of its address space. -/
inductive AccessKind where
  | read | write | atomicAdd
  deriving DecidableEq, Repr

/-- One access: address, bytes (1 to 64), the bytes written (little-endian), and whether the data is poisoned. -/
structure Access where
  kind : AccessKind
  addr : Nat
  size : Nat
  data : BitVec 512
  poison : Bool
  deriving DecidableEq, Repr

/-- A grant of frames (R391, R415): `shared` names the partitions of a shared grant, none an exclusive one. `owner` is the core of CP
frames, none where the launch that maps them fixes it (R466). `mloc` is the MLOC of the first frame, none where the frames are not
installed yet. -/
structure GrantReq where
  part : Nat
  frame : Nat
  count : Nat
  shared : Option (List Nat)
  hostOpen : Bool
  coh : Nat
  owner : Option Nat
  compressed : Bool
  r16 : Option Nat
  mloc : Option Nat
  zero : Bool
  deriving DecidableEq, Repr

/-- The assignment of a granted mailbox to a task (R385). -/
structure MailboxAssign where
  launch : Nat
  number : Nat
  taskSends : Bool
  hart : Nat
  deriving DecidableEq, Repr

/-- A storage error as its detector sees it (R440, R443). -/
inductive SoftErr where
  /-- corrected, in structure `struct` at `place`, charged to a partition or to none -/
  | corrected (struct place addr : Nat) (part : Option Nat)
  /-- an uncorrectable error in a memory sector of device-physical space -/
  | poisonDp (struct sector : Nat)
  /-- an uncorrectable error in one stored chunk of a compressed line, numbered from the first of its run -/
  | poisonChunk (line chunk : Nat)
  /-- an uncorrectable error in the metadata of a compressed line -/
  | poisonMeta (line : Nat)
  /-- an uncorrectable error in a scratch sector of a context -/
  | poisonScratch (ctx sector : Nat)
  /-- an uncorrectable error in the cluster SRAM of a group -/
  | poisonCsram (group sector : Nat)
  /-- an uncorrectable error in a sector of a core's tile store -/
  | poisonTile (core slot sector : Nat)
  /-- an uncorrectable error in the own state of one context: 1 to 4 -/
  | internalCtx (struct ctx : Nat)
  /-- an uncorrectable error in the state of a core pair (microstore, 5) -/
  | internalPair (pr : Nat)
  /-- an uncorrectable error in the schedule store of a die's Mint (6) -/
  | internalMint (die : Nat)
  /-- an uncorrectable error in the cache or stash tags of a die (7) -/
  | internalDie (die : Nat)
  /-- an uncorrectable error in a Vault's frame map walker cache (7) -/
  | internalVault (v : Nat)
  deriving DecidableEq, Repr

/-- The parts that training at boot finds in service (R15, R30): Florin dies, HBM4E stacks, LPDDR-6 packages. -/
structure Parts where
  florinok : W64
  memhbm : BitVec 16
  memlp : W64
  deriving DecidableEq, Repr

/-- What a Walvo flit that reaches a port carries (R445, R453): a remote master's request, served by its own event; the other end's
count of the flits it has; its request for a replay from a flit on; or the answer to the request sent in flit `n`. -/
inductive FlitBody where
  | request
  | ack (n : Nat)
  | replay (n : Nat)
  | answer (n : Nat) (value : BitVec 512) (poison : Bool)
  deriving DecidableEq, Repr

/-- What one rank brings to a collective: its bytes, and which of their 64-byte sectors are poisoned (R441, R455). -/
structure RankData where
  bytes : List Byte
  poison : List Nat
  deriving DecidableEq, Repr

/-- The operands of the requests that reach the module from its host, its runtimes, its management controller and the
outside world, one constructor for each such row of the table that has operands. -/
inductive Request where
  | none
  | qtailWrite (vf : Fin 1024) (q : Fin 16) (tail : W32)
  | qcfgWrite (vf : Fin 1024) (q : Fin 16) (val : W64)
  | shareWrite (vf : Fin 1024) (val : W64)
  | pwrctlWrite (val : W64)
  | registerWrite (fn : Option (Fin 1024)) (off : Nat) (bytes : Nat) (val : W64)
  | registerRead (fn : Option (Fin 1024)) (off : Nat) (bytes : Nat)
  | launchAccept (vf : Fin 1024) (q : Fin 16) (hostDesc : BitVec 512)
  | groupPlace (die : Fin 64) (launch : Nat)
  | collectiveStart (vf : Fin 1024) (q : Fin 16) (hostDesc : BitVec 512)
  | collectiveComplete (k : Nat) (ranks : List RankData) (lost : List Nat)
  | treasuryClose (external : List (Nat × Nat))
  | handleRegister (part : Fin 512) (h : BitVec 24) (base : Nat) (len : Nat)
  | handleRemove (part : Fin 512) (h : BitVec 24)
  | mintMicrocodeReplace (die : Fin 64) (fw : FwImage)
  | mailboxSeqWrite (ctx : Fin 16384) (m : Fin 16) (val : W64)
  | generalCoreAccess (hart : Fin 32) (a : Access)
  | hostMemoryRequest (vf : Option (Fin 1024)) (a : Access)
  | remoteRequest (node : Nat) (tag : Nat) (a : Access)
  | walvoFlitReceive (port : Fin 32) (crcOk : Bool) (seqno : Nat) (body : FlitBody)
  | portDown (port : Fin 32)
  | vaultLineWrite (line : Nat) (off : Nat) (data : List Byte)
  | frameService (ctx : Fin 16384) (entry : Option W64)
  | ratio (part : Fin 512) (frame : Nat) (count : Nat) (r16 : Nat)
  | donate (part : Fin 512) (frame : Nat) (count : Nat)
  | withdraw (part : Fin 512) (frame : Nat) (count : Nat)
  | demote (part : Fin 512) (frame : Nat) (count : Nat)
  | zeroFrames (part : Fin 512) (frame : Nat) (count : Nat)
  | promote (part : Fin 512) (frame : Nat) (size : Fin 3)
  | splitPage (part : Fin 512) (frame : Nat)
  | classChange (part : Fin 512) (frame : Nat) (count : Nat) (coh : Fin 3) (owner : Fin 4096)
  | frameGrant (req : GrantReq)
  | grantRevoke (frame : Nat) (count : Nat)
  | partitionCreate (part : Fin 512) (clusters : List Nat) (vfs : List Nat) (harts : List Nat) (pool : Nat)
  | partitionReset (part : Fin 512)
  | clusterDrain (cl : Fin 512)
  | spareSubstitution (cl : Fin 512)
  | firmwareUpdate (img : FwKind) (fw : FwImage)
  | vaultFirmwareReplace (v : Fin 16) (fw : FwImage)
  | inspection (ctx : Fin 16384) (pa : Nat)
  | watchdogIntervalSet (part : Fin 512) (ms : Nat)
  | vfWeightSet (vf : Fin 1024) (w : Nat)
  | exportWindowSet (base : Nat) (len : Nat) (part : Fin 512)
  | demotionTargetSet (v : Fin 16) (on : Bool)
  | vaultViewSet (part : Fin 512) (on : Bool)
  | mailboxGrant (n : Fin 1024) (part : Fin 512) (assign : Option MailboxAssign)
  | microstoreImageLoad (cl : Fin 512) (task : Nat) (words : List W64) (entries : List W64)
  | bucketTableLoad (die : Fin 64) (table : List W64) (rows : List (BitVec 128))
  | moduleReset (parts : Parts) (stages : List FwImage)
  | throttleStep (power : Nat) (tmax : Nat) (tin : Nat)
  | patrolScrub (sector : Nat) (err : Option Bool)
  | softError (e : SoftErr)
  | negotiateAlgorithms (sha384 : Bool) (p384 : Bool)
  | getCertificate (slot : Nat)
  | challenge (nonce : Nat)
  | getMeasurements (block : Nat) (nonce : Nat)
  | spdmUnsupportedRequest (code : BitVec 8)
  | portRetrainComplete (port : Fin 32)
  | nodeIdAssign (node : BitVec 22) (dpos : Option (BitVec 12)) (domain : List Nat)
  | communicatorSet (comm : W32) (ranks : List Nat)
  | mintSetLoad (die : Fin 64) (launch : Nat) (members : List Nat) (pool : List Nat) (tpp : Nat)
  | promotionBuildComplete (v : Fin 16)
  deriving DecidableEq, Repr

/-- The instructions, micro-operations and events of spec/opcode_table.json, one constructor a row. -/
inductive Instr where
  /-- NOP (R84): C-slot no-operation that does nothing. -/
  | nop (e : BitVec 1)
  /-- ADD (R331): Adds two scalar registers modulo 2^64, or as 32 bits sign-extended with .w. -/
  | add (e : BitVec 1) (g : BitVec 3) (d : BitVec 6) (a : BitVec 6) (b : BitVec 6) (f : BitVec 3)
  /-- SUB (R331): Subtracts two scalar registers modulo 2^64, or as 32 bits with .w. -/
  | sub (e : BitVec 1) (g : BitVec 3) (d : BitVec 6) (a : BitVec 6) (b : BitVec 6) (f : BitVec 3)
  /-- AND (R331): Bitwise AND of two scalar registers. -/
  | and (e : BitVec 1) (g : BitVec 3) (d : BitVec 6) (a : BitVec 6) (b : BitVec 6)
  /-- OR (R331): Bitwise OR of two scalar registers. -/
  | or (e : BitVec 1) (g : BitVec 3) (d : BitVec 6) (a : BitVec 6) (b : BitVec 6)
  /-- XOR (R331): Bitwise XOR of two scalar registers. -/
  | xor (e : BitVec 1) (g : BitVec 3) (d : BitVec 6) (a : BitVec 6) (b : BitVec 6)
  /-- ANDN (R331): Computes a AND NOT b. -/
  | andn (e : BitVec 1) (g : BitVec 3) (d : BitVec 6) (a : BitVec 6) (b : BitVec 6)
  /-- SHL (R331): Shifts a scalar left by the low bits of b. -/
  | shl (e : BitVec 1) (g : BitVec 3) (d : BitVec 6) (a : BitVec 6) (b : BitVec 6) (f : BitVec 3)
  /-- SHR (R331): Shifts a scalar right, filling zeros. -/
  | shr (e : BitVec 1) (g : BitVec 3) (d : BitVec 6) (a : BitVec 6) (b : BitVec 6) (f : BitVec 3)
  /-- SAR (R331): Shifts a scalar right arithmetically. -/
  | sar (e : BitVec 1) (g : BitVec 3) (d : BitVec 6) (a : BitVec 6) (b : BitVec 6) (f : BitVec 3)
  /-- ROT (R331): Rotates a scalar left by the low bits of b. -/
  | rot (e : BitVec 1) (g : BitVec 3) (d : BitVec 6) (a : BitVec 6) (b : BitVec 6) (f : BitVec 3)
  /-- MUL (R331): Multiplies two scalars, giving the low, high signed, high unsigned or 32-bit product. -/
  | mul (e : BitVec 1) (g : BitVec 3) (d : BitVec 6) (a : BitVec 6) (b : BitVec 6) (f : BitVec 3)
  /-- DIV (R332): Divides or takes the remainder, signed or unsigned, with fixed results for division by zero and overflow. -/
  | div (e : BitVec 1) (g : BitVec 3) (d : BitVec 6) (a : BitVec 6) (b : BitVec 6) (f : BitVec 3)
  /-- MIN (R331): Takes the lesser of two scalars, signed or unsigned. -/
  | min (e : BitVec 1) (g : BitVec 3) (d : BitVec 6) (a : BitVec 6) (b : BitVec 6) (f : BitVec 3)
  /-- MAX (R331): Takes the greater of two scalars, signed or unsigned. -/
  | max (e : BitVec 1) (g : BitVec 3) (d : BitVec 6) (a : BitVec 6) (b : BitVec 6) (f : BitVec 3)
  /-- BITC (R333): Counts leading or trailing zeros or ones, or reverses bits or bytes of a scalar. -/
  | bitc (e : BitVec 1) (g : BitVec 3) (d : BitVec 6) (a : BitVec 6) (f : BitVec 3)
  /-- ADDI (R334): Adds a 9-bit signed immediate to a scalar. -/
  | addi (e : BitVec 1) (g : BitVec 3) (d : BitVec 6) (a : BitVec 6) (i : BitVec 9)
  /-- ANDI (R334): ANDs a scalar with a 9-bit signed immediate. -/
  | andi (e : BitVec 1) (g : BitVec 3) (d : BitVec 6) (a : BitVec 6) (i : BitVec 9)
  /-- ORI (R334): ORs a scalar with a 9-bit signed immediate. -/
  | ori (e : BitVec 1) (g : BitVec 3) (d : BitVec 6) (a : BitVec 6) (i : BitVec 9)
  /-- XORI (R334): XORs a scalar with a 9-bit signed immediate. -/
  | xori (e : BitVec 1) (g : BitVec 3) (d : BitVec 6) (a : BitVec 6) (i : BitVec 9)
  /-- SHLI (R334): Shifts a scalar left by an immediate amount. -/
  | shli (e : BitVec 1) (g : BitVec 3) (d : BitVec 6) (a : BitVec 6) (i : BitVec 6)
  /-- SHRI (R334): Shifts a scalar right logically by an immediate amount. -/
  | shri (e : BitVec 1) (g : BitVec 3) (d : BitVec 6) (a : BitVec 6) (i : BitVec 6)
  /-- SARI (R334): Shifts a scalar right arithmetically by an immediate amount. -/
  | sari (e : BitVec 1) (g : BitVec 3) (d : BitVec 6) (a : BitVec 6) (i : BitVec 6)
  /-- MULI (R334): Multiplies a scalar by a 9-bit signed immediate. -/
  | muli (e : BitVec 1) (g : BitVec 3) (d : BitVec 6) (a : BitVec 6) (i : BitVec 9)
  /-- LI (R69): Loads a sign-extended 15-bit immediate into a scalar. -/
  | li (e : BitVec 1) (g : BitVec 3) (d : BitVec 6) (i : BitVec 15)
  /-- LIS (R69): Shifts a scalar left by 15 bits and places a 15-bit immediate below. -/
  | lis (e : BitVec 1) (g : BitVec 3) (d : BitVec 6) (i : BitVec 15)
  /-- ADDPC (R335): Lands the bundle address plus a displacement in bundles in a scalar. -/
  | addpc (e : BitVec 1) (g : BitVec 3) (d : BitVec 6) (i : BitVec 15)
  /-- CMP (R336): Compares two scalars signed and writes all ones or all zeros to a predicate. -/
  | cmp (e : BitVec 1) (g : BitVec 3) (p : BitVec 7) (a : BitVec 6) (b : BitVec 6) (c : BitVec 2)
  /-- CMPU (R336): Compares two scalars unsigned or by AND into a predicate. -/
  | cmpu (e : BitVec 1) (g : BitVec 3) (p : BitVec 7) (a : BitVec 6) (b : BitVec 6) (c : BitVec 2)
  /-- CMPI (R337): Compares a scalar with a scaled 6-bit immediate into a predicate. -/
  | cmpi (e : BitVec 1) (g : BitVec 3) (p : BitVec 7) (a : BitVec 6) (i : BitVec 6) (c : BitVec 2)
  /-- PFROM (R336): Copies a scalar's 64 bits into a predicate. -/
  | pfrom (e : BitVec 1) (g : BitVec 3) (p : BitVec 7) (a : BitVec 6)
  /-- BR (R339): Branches to a bundle displacement. -/
  | br (e : BitVec 1) (g : BitVec 3) (d : BitVec 21)
  /-- CALL (R339): Lands the return address in b7 and branches. -/
  | call (e : BitVec 1) (g : BitVec 3) (d : BitVec 21)
  /-- BRB (R339): Branches to the address in a branch-target register. -/
  | brb (e : BitVec 1) (g : BitVec 3) (k : BitVec 3)
  /-- RET (R339): Branches to the address in b7. -/
  | ret (e : BitVec 1) (g : BitVec 3)
  /-- LBT (R339): Lands a computed branch target in a branch-target register without branching. -/
  | lbt (e : BitVec 1) (g : BitVec 3) (k : BitVec 3) (d : BitVec 18)
  /-- MOVB (R339): Moves a scalar into a branch-target register or back. -/
  | movb (e : BitVec 1) (g : BitVec 3) (k : BitVec 3) (s : BitVec 6) (f : BitVec 3)
  /-- LOOP (R340): Decrements a counter and branches while it is not zero. -/
  | loop (e : BitVec 1) (g : BitVec 3) (c : BitVec 6) (i : BitVec 15)
  /-- CSRD (R341): Lands the value of a CSR in a scalar. -/
  | csrd (e : BitVec 1) (g : BitVec 3) (r : BitVec 12) (s : BitVec 6)
  /-- CSWR (R341): Writes a scalar to a CSR at commit, checking writability. -/
  | cswr (e : BitVec 1) (g : BitVec 3) (r : BitVec 12) (s : BitVec 6)
  /-- MPSET (R344): Lands a scalar in a matrix parameter register. -/
  | mpset (e : BitVec 1) (g : BitVec 3) (m : BitVec 3) (s : BitVec 6)
  /-- TCSET (R344): Lands a scalar in a tile header register. -/
  | tcset (e : BitVec 1) (g : BitVec 3) (t : BitVec 5) (s : BitVec 6)
  /-- TCGET (R344): Lands a tile header in a scalar. -/
  | tcget (e : BitVec 1) (g : BitVec 3) (t : BitVec 5) (s : BitVec 6)
  /-- YIELD (R348): Passes issue to the next ready context and takes a pending pre-emption. -/
  | yield (e : BitVec 1) (g : BitVec 3)
  /-- EXIT (R349): Ends the context, releasing its handles, streams, banks, units and barrier participation. -/
  | exit (e : BitVec 1) (g : BitVec 3)
  /-- TRAP (R351): Takes trap cause 0x11 after its bundle commits. -/
  | trap (e : BitVec 1) (g : BitVec 3) (c : BitVec 21)
  /-- SYSC (R351): Takes trap cause 0x12 after its bundle commits. -/
  | sysc (e : BitVec 1) (g : BitVec 3) (c : BitVec 21)
  /-- BREAK (R351): Takes trap cause 0x13 after its bundle commits. -/
  | brk (e : BitVec 1) (g : BitVec 3) (c : BitVec 21)
  /-- GROW (R347): Atomically raises the task's group count at the command processor and returns the old count or all ones. -/
  | grow (e : BitVec 1) (g : BitVec 3) (d : BitVec 6) (a : BitVec 6)
  /-- BAR (R345): Arrives on a barrier slot, completing the phase when every participant has arrived. -/
  | bar (e : BitVec 1) (g : BitVec 3) (n : BitVec 5)
  /-- BAR_W (R345): Waits on a barrier slot until its phase passes the context's ticket. -/
  | barW (e : BitVec 1) (g : BitVec 3) (n : BitVec 5)
  /-- BAR_AW (R345): Arrives on and then waits on a barrier slot in one bundle. -/
  | barAw (e : BitVec 1) (g : BitVec 3) (n : BitVec 5)
  /-- RFE (R352): Returns from the handler, landing handler results and replaying the held snapshot at TRAPPC. -/
  | rfe (e : BitVec 1) (g : BitVec 3)
  /-- SAVEC (R353): Writes the masked parts of context state to a save area. -/
  | savec (e : BitVec 1) (g : BitVec 3) (m : BitVec 7) (s : BitVec 6)
  /-- LOADC (R353): Reads the masked parts of context state from a save area. -/
  | loadc (e : BitVec 1) (g : BitVec 3) (m : BitVec 7) (s : BitVec 6)
  /-- HDR_T (R90): Condition-tree header that tests a predicate quad, chooses a leaf and branches, gating the other slots by path tags. -/
  | hdrT (e : BitVec 1) (h : BitVec 3) (q : BitVec 5) (b : BitVec 3) (x : BitVec 3) (y : BitVec 3) (z : BitVec 3)
  /-- VADD (R145): Adds vector lanes with wrap or saturation. -/
  | vadd (q : BitVec 1) (g : BitVec 3) (d : BitVec 5) (a : BitVec 5) (b : BitVec 5) (m : BitVec 6)
  /-- VSUB (R145): Subtracts vector lanes with wrap or saturation. -/
  | vsub (q : BitVec 1) (g : BitVec 3) (d : BitVec 5) (a : BitVec 5) (b : BitVec 5) (m : BitVec 6)
  /-- VMUL (R145): Multiplies vector lanes giving low or high bits. -/
  | vmul (q : BitVec 1) (g : BitVec 3) (d : BitVec 5) (a : BitVec 5) (b : BitVec 5) (m : BitVec 6)
  /-- VMIN (R145): Takes the lesser of lanes, signed or unsigned. -/
  | vmin (q : BitVec 1) (g : BitVec 3) (d : BitVec 5) (a : BitVec 5) (b : BitVec 5) (m : BitVec 6)
  /-- VMAX (R145): Takes the greater of lanes, signed or unsigned. -/
  | vmax (q : BitVec 1) (g : BitVec 3) (d : BitVec 5) (a : BitVec 5) (b : BitVec 5) (m : BitVec 6)
  /-- VAND (R145): Bitwise AND of lanes. -/
  | vand (q : BitVec 1) (g : BitVec 3) (d : BitVec 5) (a : BitVec 5) (b : BitVec 5)
  /-- VOR (R145): Bitwise OR of lanes. -/
  | vor (q : BitVec 1) (g : BitVec 3) (d : BitVec 5) (a : BitVec 5) (b : BitVec 5)
  /-- VXOR (R145): Bitwise XOR of lanes. -/
  | vxor (q : BitVec 1) (g : BitVec 3) (d : BitVec 5) (a : BitVec 5) (b : BitVec 5)
  /-- VSHL (R145): Shifts lanes left. -/
  | vshl (q : BitVec 1) (g : BitVec 3) (d : BitVec 5) (a : BitVec 5) (b : BitVec 5)
  /-- VSHR (R145): Shifts lanes right logically. -/
  | vshr (q : BitVec 1) (g : BitVec 3) (d : BitVec 5) (a : BitVec 5) (b : BitVec 5)
  /-- VSAR (R145): Shifts lanes right arithmetically. -/
  | vsar (q : BitVec 1) (g : BitVec 3) (d : BitVec 5) (a : BitVec 5) (b : BitVec 5)
  /-- VADDS (R145): Adds a scalar to every lane, integer or FP32. -/
  | vadds (q : BitVec 1) (g : BitVec 3) (d : BitVec 5) (a : BitVec 5) (s : BitVec 6) (m : BitVec 5)
  /-- VMULS (R145): Multiplies every lane by a scalar, integer or FP32. -/
  | vmuls (q : BitVec 1) (g : BitVec 3) (d : BitVec 5) (a : BitVec 5) (s : BitVec 6) (m : BitVec 5)
  /-- VLI (R145): Loads a sign-extended immediate into every lane. -/
  | vli (q : BitVec 1) (g : BitVec 3) (d : BitVec 5) (i : BitVec 11)
  /-- VFADD (R146): Adds FP32 lanes with round to nearest even. -/
  | vfadd (q : BitVec 1) (g : BitVec 3) (d : BitVec 5) (a : BitVec 5) (b : BitVec 5)
  /-- VFSUB (R146): Subtracts FP32 lanes. -/
  | vfsub (q : BitVec 1) (g : BitVec 3) (d : BitVec 5) (a : BitVec 5) (b : BitVec 5)
  /-- VFMUL (R146): Multiplies FP32 lanes. -/
  | vfmul (q : BitVec 1) (g : BitVec 3) (d : BitVec 5) (a : BitVec 5) (b : BitVec 5)
  /-- VFMA (R147): Fused multiply-add of FP32 lanes rounded once. -/
  | vfma (q : BitVec 1) (g : BitVec 3) (d : BitVec 5) (a : BitVec 5) (b : BitVec 5) (c : BitVec 5) (m : BitVec 1)
  /-- VFMIN (R148): FP32 minimum with NaN ignored or propagated. -/
  | vfmin (q : BitVec 1) (g : BitVec 3) (d : BitVec 5) (a : BitVec 5) (b : BitVec 5) (m : BitVec 6)
  /-- VFMAX (R148): FP32 maximum with NaN ignored or propagated. -/
  | vfmax (q : BitVec 1) (g : BitVec 3) (d : BitVec 5) (a : BitVec 5) (b : BitVec 5) (m : BitVec 6)
  /-- VFRCP (R149): Correctly rounded FP32 reciprocal. -/
  | vfrcp (q : BitVec 1) (g : BitVec 3) (d : BitVec 5) (a : BitVec 5)
  /-- VFRSQ (R149): Correctly rounded FP32 reciprocal square root. -/
  | vfrsq (q : BitVec 1) (g : BitVec 3) (d : BitVec 5) (a : BitVec 5)
  /-- VFEXP2 (R149): Correctly rounded FP32 power of two. -/
  | vfexp2 (q : BitVec 1) (g : BitVec 3) (d : BitVec 5) (a : BitVec 5)
  /-- VFLOG2 (R149): Correctly rounded FP32 base-2 logarithm. -/
  | vflog2 (q : BitVec 1) (g : BitVec 3) (d : BitVec 5) (a : BitVec 5)
  /-- VCVT (R150): Converts lanes between integer and IEEE formats. -/
  | vcvt (q : BitVec 1) (g : BitVec 3) (d : BitVec 5) (a : BitVec 5) (m : BitVec 6)
  /-- VFCLASS (R151): Writes a class mask for each FP32 lane or Ducat element. -/
  | vfclass (q : BitVec 1) (g : BitVec 3) (d : BitVec 5) (a : BitVec 5) (m : BitVec 6)
  /-- VDADD (R152): Adds Ducat-64 elements with range check. -/
  | vdadd (q : BitVec 1) (g : BitVec 3) (d : BitVec 5) (a : BitVec 5) (b : BitVec 5) (m : BitVec 6)
  /-- VDMUL (R152): Multiplies Ducat-64 elements with range check. -/
  | vdmul (q : BitVec 1) (g : BitVec 3) (d : BitVec 5) (a : BitVec 5) (b : BitVec 5)
  /-- VDMAX (R152): Takes the greater or lesser of Ducat-64 elements. -/
  | vdmax (q : BitVec 1) (g : BitVec 3) (d : BitVec 5) (a : BitVec 5) (b : BitVec 5) (m : BitVec 6)
  /-- VDCVT (R153): Converts between Ducat-32, Ducat-64 and FP32 lanes. -/
  | vdcvt (q : BitVec 1) (g : BitVec 3) (d : BitVec 5) (a : BitVec 5) (m : BitVec 3)
  /-- VDSCL (R154): Scales Ducat-64 elements by an exact power of two. -/
  | vdscl (q : BitVec 1) (g : BitVec 3) (d : BitVec 5) (a : BitVec 5) (s : BitVec 6)
  /-- VPERM (R155): Permutes lanes or bytes by a control vector. -/
  | vperm (q : BitVec 1) (g : BitVec 3) (d : BitVec 5) (a : BitVec 5) (b : BitVec 5) (m : BitVec 6)
  /-- VNIB (R156): Unpacks 64 nibbles into lanes, optionally signed or as FP32. -/
  | vnib (q : BitVec 1) (g : BitVec 3) (d : BitVec 5) (a : BitVec 5) (m : BitVec 5)
  /-- VSHUF (R157): Interleaves or separates lanes of two vectors. -/
  | vshuf (q : BitVec 1) (g : BitVec 3) (d : BitVec 5) (a : BitVec 5) (b : BitVec 5) (m : BitVec 6)
  /-- VBCAST (R158): Broadcasts a scalar into every lane or lane pair. -/
  | vbcast (q : BitVec 1) (g : BitVec 3) (d : BitVec 5) (s : BitVec 6) (m : BitVec 5)
  /-- VMOVS (R158): Moves one lane or lane pair into a scalar. -/
  | vmovs (q : BitVec 1) (g : BitVec 3) (d : BitVec 6) (a : BitVec 5) (l : BitVec 6) (m : BitVec 4)
  /-- VINS (R158): Slides lanes and inserts a scalar at one end. -/
  | vins (q : BitVec 1) (g : BitVec 3) (d : BitVec 5) (a : BitVec 5) (s : BitVec 6) (m : BitVec 5)
  /-- VIOTA (R158): Writes lane indices or counts of guard bits below. -/
  | viota (q : BitVec 1) (g : BitVec 3) (d : BitVec 5) (m : BitVec 6)
  /-- VMOV (R158): Copies a vector register. -/
  | vmov (q : BitVec 1) (g : BitVec 3) (d : BitVec 5) (a : BitVec 5)
  /-- VRED (R159): Reduces elements in a fixed pairwise tree into lane 0. -/
  | vred (q : BitVec 1) (g : BitVec 3) (d : BitVec 5) (a : BitVec 5) (m : BitVec 6)
  /-- VSCAN (R159): Computes an inclusive scan over elements in fixed levels. -/
  | vscan (q : BitVec 1) (g : BitVec 3) (d : BitVec 5) (a : BitVec 5) (m : BitVec 6)
  /-- VCMP (R160): Compares integer lanes into predicate bits. -/
  | vcmp (q : BitVec 1) (g : BitVec 3) (p : BitVec 7) (a : BitVec 5) (b : BitVec 5) (c : BitVec 4)
  /-- VFCMP (R161): Compares FP32 lanes or Ducat elements into predicate bits. -/
  | vfcmp (q : BitVec 1) (g : BitVec 3) (p : BitVec 7) (a : BitVec 5) (b : BitVec 5) (c : BitVec 4)
  /-- PAND (R162): ANDs two predicates. -/
  | pand (q : BitVec 1) (g : BitVec 3) (p : BitVec 7) (a : BitVec 7) (b : BitVec 7)
  /-- POR (R162): ORs two predicates. -/
  | por (q : BitVec 1) (g : BitVec 3) (p : BitVec 7) (a : BitVec 7) (b : BitVec 7)
  /-- PXOR (R162): XORs two predicates. -/
  | pxor (q : BitVec 1) (g : BitVec 3) (p : BitVec 7) (a : BitVec 7) (b : BitVec 7)
  /-- PANDN (R162): Computes pa AND NOT pb. -/
  | pandn (q : BitVec 1) (g : BitVec 3) (p : BitVec 7) (a : BitVec 7) (b : BitVec 7)
  /-- PCNT (R163): Counts, or finds the first or last, set bit of a guarded predicate. -/
  | pcnt (q : BitVec 1) (g : BitVec 3) (d : BitVec 6) (a : BitVec 7) (m : BitVec 8)
  /-- VQDEQ (R164): Dequantises Q8A or Q4A codes to FP32 with scale and zero point. -/
  | vqdeq (q : BitVec 1) (g : BitVec 3) (d : BitVec 5) (a : BitVec 5) (b : BitVec 5) (m : BitVec 2)
  /-- VQNT (R165): Quantises FP32 lanes to Q8A or Q4A codes. -/
  | vqnt (q : BitVec 1) (g : BitVec 3) (d : BitVec 5) (a : BitVec 5) (b : BitVec 5) (m : BitVec 2)
  /-- VRNG (R166): Computes the keyed counter-based generator per lane. -/
  | vrng (q : BitVec 1) (g : BitVec 3) (d : BitVec 5) (a : BitVec 5) (b : BitVec 5) (m : BitVec 6)
  /-- MCALL (R184): Checks and queues a matrix routine call on an open accumulator. -/
  | mcall (g : BitVec 3) (r : BitVec 7) (a : BitVec 2)
  /-- BCH (R188): Opens a chain on an accumulator. -/
  | bch (g : BitVec 3) (a : BitVec 3)
  /-- ECH (R188): Closes a chain, leaving the accumulator HELD. -/
  | ech (g : BitVec 3) (a : BitVec 3)
  /-- MDRAIN (R188): Queues a drain of an accumulator region into a tile with conversion. -/
  | mdrain (g : BitVec 3) (a : BitVec 3) (t : BitVec 5) (n : BitVec 5) (m : BitVec 5)
  /-- MZERO (R188): Queues zeroing of an accumulator. -/
  | mzero (g : BitVec 3) (a : BitVec 3)
  /-- MSPILL (R188): Queues an exact spill of half an accumulator into an FP32G tile. -/
  | mspill (g : BitVec 3) (a : BitVec 3) (t : BitVec 5) (h : BitVec 1)
  /-- MFILL (R188): Queues an exact fill of half an accumulator from an FP32G tile. -/
  | mfill (g : BitVec 3) (a : BitVec 3) (t : BitVec 5) (h : BitVec 1)
  /-- MPWR (R193): Writes a tile into 512 words of the task's microprogram store. -/
  | mpwr (g : BitVec 3) (t : BitVec 5)
  /-- MPWR_TAB (R193): Writes routine-table entries from a tile. -/
  | mpwrTab (g : BitVec 3) (t : BitVec 5)
  /-- MPRD (R193): Reads 512 microstore words into a tile. -/
  | mprd (g : BitVec 3) (t : BitVec 5)
  /-- MPRD_TAB (R193): Reads routine-table entries into a tile. -/
  | mprdTab (g : BitVec 3) (t : BitVec 5)
  /-- TZERO (R173): Queues writing the format's zero into a tile. -/
  | tzero (g : BitVec 3) (d : BitVec 5) (m : BitVec 6)
  /-- TCOPY (R174): Queues a view-to-view tile copy with conversion. -/
  | tcopy (g : BitVec 3) (d : BitVec 5) (a : BitVec 5)
  /-- TV2T (R175): Queues a raw write of a vector into 256 bytes of a tile. -/
  | tv2t (g : BitVec 3) (d : BitVec 5) (a : BitVec 5) (i : BitVec 5)
  /-- TT2V (R176): Reads 256 raw tile bytes into a vector once the tile is full. -/
  | tt2v (g : BitVec 3) (d : BitVec 5) (a : BitVec 5) (i : BitVec 5)
  /-- CKLEAF (R209): Evaluates leaf records of a circuit into the node store. -/
  | ckleaf (g : BitVec 3) (t : BitVec 5) (r : BitVec 5) (c : BitVec 5)
  /-- CKNODE (R209): Evaluates sum and product records into the node store. -/
  | cknode (g : BitVec 3) (t : BitVec 5) (r : BitVec 5) (c : BitVec 5)
  /-- CKBACK (R210): Runs the reverse pass of the mode: derivatives or argmax traceback. -/
  | ckback (g : BitVec 3) (t : BitVec 5) (r : BitVec 5) (c : BitVec 5)
  /-- CKDIV (R212): Lands a record's node value, or its lane ratio in CON mode, in a scalar. -/
  | ckdiv (g : BitVec 3) (t : BitVec 5) (r : BitVec 5) (d : BitVec 6)
  /-- CKSAMP (R211): Draws one sample top-down over the circuit. -/
  | cksamp (g : BitVec 3) (t : BitVec 5) (r : BitVec 5) (c : BitVec 5)
  /-- IXWALK (R215): Queues a walk of a bitmap into a coordinate list from a cursor. -/
  | ixwalk (g : BitVec 3) (d : BitVec 5) (a : BitVec 5) (b : BitVec 5)
  /-- IXSPLIT (R216): Queues a split of a coordinate count into balanced part starts. -/
  | ixsplit (g : BitVec 3) (d : BitVec 5) (a : BitVec 5) (p : BitVec 6)
  /-- ASORT (R221): Queues a sort of 64 key-value entries. -/
  | asort (g : BitVec 3) (d : BitVec 5) (a : BitVec 5) (b : BitVec 5) (m : BitVec 6)
  /-- AMRG (R221): Merges tile entries into a candidate register, keeping the best 64. -/
  | amrg (g : BitVec 3) (k : BitVec 2) (t : BitVec 5) (s : BitVec 6)
  /-- CREAD (R221): Writes a candidate register's entries to a tile and its count to a scalar. -/
  | cread (g : BitVec 3) (k : BitVec 2) (t : BitVec 5) (s : BitVec 6)
  /-- CCLR (R221): Clears a candidate register and sets its key type. -/
  | cclr (g : BitVec 3) (k : BitVec 2) (m : BitVec 2)
  /-- CSAMP (R222): Draws one value from a candidate register. -/
  | csamp (g : BitVec 3) (k : BitVec 2) (s : BitVec 6)
  /-- CLPUSH (R226): Pushes a stream's sorted entries into the Clearing network, spilling runs as needed. -/
  | clpush (g : BitVec 3) (a : BitVec 5) (n : BitVec 4)
  /-- CLPULL (R228): Emits keys below the frontier with summed values into a tile, closing the session when done. -/
  | clpull (g : BitVec 3) (d : BitVec 5)
  /-- CLSEAL (R226): Seals a stream of the Clearing session. -/
  | clseal (g : BitVec 3) (n : BitVec 4)
  /-- CLCFG (R225): Opens a Clearing session from a configuration tile. -/
  | clcfg (g : BitVec 3) (a : BitVec 5)
  /-- CLCFG_END (R225): Closes the group's Clearing session and discards its entries. -/
  | clcfgEnd (g : BitVec 3)
  /-- LDD (R285): Loads a doubleword. -/
  | ldd (q : BitVec 1) (g : BitVec 3) (d : BitVec 6) (b : BitVec 6) (c : BitVec 4) (f : BitVec 5)
  /-- LDW (R285): Loads a sign-extended word. -/
  | ldw (q : BitVec 1) (g : BitVec 3) (d : BitVec 6) (b : BitVec 6) (c : BitVec 4) (f : BitVec 5)
  /-- LDWU (R285): Loads a zero-extended word. -/
  | ldwu (q : BitVec 1) (g : BitVec 3) (d : BitVec 6) (b : BitVec 6) (c : BitVec 4) (f : BitVec 5)
  /-- LDH (R285): Loads a sign-extended half. -/
  | ldh (q : BitVec 1) (g : BitVec 3) (d : BitVec 6) (b : BitVec 6) (c : BitVec 4) (f : BitVec 5)
  /-- LDHU (R285): Loads a zero-extended half. -/
  | ldhu (q : BitVec 1) (g : BitVec 3) (d : BitVec 6) (b : BitVec 6) (c : BitVec 4) (f : BitVec 5)
  /-- LDB (R285): Loads a sign-extended byte. -/
  | ldb (q : BitVec 1) (g : BitVec 3) (d : BitVec 6) (b : BitVec 6) (c : BitVec 4) (f : BitVec 5)
  /-- LDBU (R285): Loads a zero-extended byte. -/
  | ldbu (q : BitVec 1) (g : BitVec 3) (d : BitVec 6) (b : BitVec 6) (c : BitVec 4) (f : BitVec 5)
  /-- STD (R285): Stores a doubleword. -/
  | std (g : BitVec 3) (d : BitVec 6) (b : BitVec 6) (c : BitVec 4) (f : BitVec 5)
  /-- STW (R285): Stores a word. -/
  | stw (g : BitVec 3) (d : BitVec 6) (b : BitVec 6) (c : BitVec 4) (f : BitVec 5)
  /-- STH (R285): Stores a half. -/
  | sth (g : BitVec 3) (d : BitVec 6) (b : BitVec 6) (c : BitVec 4) (f : BitVec 5)
  /-- STB (R285): Stores a byte. -/
  | stb (g : BitVec 3) (d : BitVec 6) (b : BitVec 6) (c : BitVec 4) (f : BitVec 5)
  /-- VLD (R287): Loads 256 bytes into a vector under a lane mask. -/
  | vld (q : BitVec 1) (g : BitVec 3) (d : BitVec 5) (b : BitVec 6) (c : BitVec 4) (f : BitVec 6)
  /-- VST (R287): Stores a vector's active lanes. -/
  | vst (g : BitVec 3) (d : BitVec 5) (b : BitVec 6) (c : BitVec 4) (f : BitVec 6)
  /-- LDDP (R286): Loads a doubleword and post-increments the base. -/
  | lddp (q : BitVec 1) (g : BitVec 3) (d : BitVec 6) (b : BitVec 6) (c : BitVec 4) (f : BitVec 5)
  /-- VLDP (R287): Loads a vector and post-increments the base. -/
  | vldp (q : BitVec 1) (g : BitVec 3) (d : BitVec 5) (b : BitVec 6) (c : BitVec 4) (f : BitVec 6)
  /-- VSTP (R287): Stores a vector and post-increments the base. -/
  | vstp (g : BitVec 3) (d : BitVec 5) (b : BitVec 6) (c : BitVec 4) (f : BitVec 6)
  /-- TLD (R290): Starts a bulk load of a tile's view from memory. -/
  | tld (g : BitVec 3) (t : BitVec 5) (b : BitVec 6) (c : BitVec 4)
  /-- TST (R290): Starts a bulk store of a full tile's view to memory. -/
  | tst (g : BitVec 3) (t : BitVec 5) (b : BitVec 6) (c : BitVec 4)
  /-- TGATH (R291): Starts a gather of memory rows by index into a tile. -/
  | tgath (g : BitVec 3) (t : BitVec 5) (b : BitVec 6) (c : BitVec 4) (i : BitVec 5) (v : BitVec 1)
  /-- TSCAT (R291): Starts a scatter of tile rows to indexed memory rows. -/
  | tscat (g : BitVec 3) (t : BitVec 5) (b : BitVec 6) (c : BitVec 4) (i : BitVec 5) (v : BitVec 1)
  /-- TSCADD (R292): Starts near-memory addition of tile rows into indexed memory rows. -/
  | tscadd (g : BitVec 3) (t : BitVec 5) (b : BitVec 6) (c : BitVec 4) (i : BitVec 5) (v : BitVec 1)
  /-- AADD (R293): Atomic 64-bit add returning the old value. -/
  | aadd (g : BitVec 3) (d : BitVec 6) (b : BitVec 6) (s : BitVec 6) (o : BitVec 3)
  /-- AADDW (R293): Atomic 32-bit add returning the old value. -/
  | aaddw (g : BitVec 3) (d : BitVec 6) (b : BitVec 6) (s : BitVec 6) (o : BitVec 3)
  /-- AFADD (R293): Atomic FP32 add returning the old value. -/
  | afadd (g : BitVec 3) (d : BitVec 6) (b : BitVec 6) (s : BitVec 6) (o : BitVec 3)
  /-- ADADD (R293): Atomic Ducat-64 add returning the old value. -/
  | adadd (g : BitVec 3) (d : BitVec 6) (b : BitVec 6) (s : BitVec 6) (o : BitVec 3)
  /-- AMAX (R293): Atomic signed maximum. -/
  | amax (g : BitVec 3) (d : BitVec 6) (b : BitVec 6) (s : BitVec 6) (o : BitVec 3)
  /-- AMIN (R293): Atomic signed minimum. -/
  | amin (g : BitVec 3) (d : BitVec 6) (b : BitVec 6) (s : BitVec 6) (o : BitVec 3)
  /-- AOR (R293): Atomic OR. -/
  | aor (g : BitVec 3) (d : BitVec 6) (b : BitVec 6) (s : BitVec 6) (o : BitVec 3)
  /-- AAND (R293): Atomic AND. -/
  | aand (g : BitVec 3) (d : BitVec 6) (b : BitVec 6) (s : BitVec 6) (o : BitVec 3)
  /-- AXCHG (R293): Atomic exchange. -/
  | axchg (g : BitVec 3) (d : BitVec 6) (b : BitVec 6) (s : BitVec 6) (o : BitVec 3)
  /-- ACAS (R293): Atomic compare-and-swap. -/
  | acas (g : BitVec 3) (d : BitVec 6) (b : BitVec 6) (s : BitVec 6) (o : BitVec 3)
  /-- FENCE (R297): Places an ordering marker behind earlier accesses of the masked classes. -/
  | fence (g : BitVec 3) (m : BitVec 16) (k : BitVec 5)
  /-- WAITM (R299): Blocks until a watched doubleword satisfies a condition. -/
  | waitm (g : BitVec 3) (a : BitVec 6) (b : BitVec 6) (c : BitVec 6) (f : BitVec 3)
  /-- CPY (R300): Queues a memory copy on the cluster copy engine. -/
  | cpy (g : BitVec 3) (a : BitVec 6) (b : BitVec 6) (c : BitVec 6)
  /-- CPY_ZERO (R300): Queues a zero-fill of a memory range on the copy engine. -/
  | cpyZero (g : BitVec 3) (a : BitVec 6) (c : BitVec 6)
  /-- CPYQ (R300): Queues a copy that feeds a stream register. -/
  | cpyq (g : BitVec 3) (n : BitVec 6) (b : BitVec 6) (c : BitVec 6)
  /-- QPOP (R303): Pops the next element of a stream into a scalar. -/
  | qpop (g : BitVec 3) (n : BitVec 3) (d : BitVec 6)
  /-- QPOP_BIND (R304): Binds a stream as consumer of a cluster SRAM ring. -/
  | qpopBind (g : BitVec 3) (n : BitVec 3) (d : BitVec 6)
  /-- QSTAT (R305): Lands a stream's state in a scalar. -/
  | qstat (g : BitVec 3) (n : BitVec 3) (d : BitVec 6)
  /-- SBAR (R298): Stalls until earlier bulk operations of the masked classes complete. -/
  | sbar (g : BitVec 3) (m : BitVec 16) (k : BitVec 5)
  /-- RINV (R306): Purges non-coherent copies of a range in a scope, then counts on a barrier object. -/
  | rinv (g : BitVec 3) (a : BitVec 6) (b : BitVec 6) (c : BitVec 6) (f : BitVec 3)
  /-- RFLUSH (R306): Writes back dirty SC bytes of a range in a scope, then counts on a barrier object. -/
  | rflush (g : BitVec 3) (a : BitVec 6) (b : BitVec 6) (c : BitVec 6) (f : BitVec 3)
  /-- RESV (R307): Binds a range as a tensor handle with a residency priority. -/
  | resv (g : BitVec 3) (h : BitVec 6) (b : BitVec 6) (c : BitVec 6) (f : BitVec 3)
  /-- RREL (R307): Releases a tensor handle. -/
  | rrel (g : BitVec 3) (h : BitVec 6)
  /-- RREL_ALL (R307): Releases all tensor handles of the context. -/
  | rrelAll (g : BitVec 3)
  /-- MOVP (R308): Writes a scalar to an operand port of a transform unit, taking ownership. -/
  | movp (g : BitVec 3) (p : BitVec 8) (s : BitVec 6)
  /-- MOVFP (R308): Lands a transform-unit port value or status word in a scalar. -/
  | movfp (g : BitVec 3) (p : BitVec 8) (s : BitVec 6)
  /-- QPUSH (R304): Pushes a scalar into the ring a stream produces. -/
  | qpush (g : BitVec 3) (n : BitVec 3) (d : BitVec 6)
  /-- QPUSH_BIND (R304): Binds a stream as producer of a cluster SRAM ring. -/
  | qpushBind (g : BitVec 3) (n : BitVec 3) (d : BitVec 6)
  /-- DECODE (R319): Trigger that starts a nibble-block decode into a tile. -/
  | xfuDecode (g : BitVec 3) (u : BitVec 3) (s : BitVec 6)
  /-- ZORDER (R321): Trigger that starts a Z-order relayout copy in memory. -/
  | xfuZorder (g : BitVec 3) (u : BitVec 3) (s : BitVec 6)
  /-- UNZ (R321): Trigger that starts the inverse Z-order relayout. -/
  | xfuUnz (g : BitVec 3) (u : BitVec 3) (s : BitVec 6)
  /-- COPY (R321): Trigger that starts a raw copy from memory into a tile slot. -/
  | xfuCopy (g : BitVec 3) (u : BitVec 3) (s : BitVec 6)
  /-- UNPACK4 (R321): Trigger that starts a table expansion of 4-bit codes into a tile. -/
  | xfuUnpack4 (g : BitVec 3) (u : BitVec 3) (s : BitVec 6)
  /-- SAVE (R325): Trigger that writes the unit's decoder state to memory. -/
  | xfuSave (g : BitVec 3) (u : BitVec 3) (s : BitVec 6)
  /-- LOAD (R325): Trigger that restores decoder state from memory. -/
  | xfuLoad (g : BitVec 3) (u : BitVec 3) (s : BitVec 6)
  /-- ABORT (R322): Trigger that ends the running operation at once with ERR 7. -/
  | xfuAbort (g : BitVec 3) (u : BitVec 3) (s : BitVec 6)
  /-- MICRO_NOP (R191): Micro-op that does nothing. -/
  | microNop (pr : Fin 2048) (e : BitVec 1)
  /-- FETA (R191): Micro-op that fetches 32 K indices of the A operand into FA. -/
  | feta (pr : Fin 2048) (e : BitVec 1) (sel : BitVec 3) (x : BitVec 1)
  /-- FETB (R191): Micro-op that fetches 32 K indices of the B operand into FB. -/
  | fetb (pr : Fin 2048) (e : BitVec 1) (sel : BitVec 3) (x : BitVec 1)
  /-- MAC (R191): Micro-op that adds the exact k-step product into the accumulator with one rounding. -/
  | mac (pr : Fin 2048) (e : BitVec 1)
  /-- MACQ (R191): Micro-op that forms exact sums of code-activation products and activations. -/
  | macq (pr : Fin 2048) (e : BitVec 1)
  /-- ZPC (R191): Micro-op that applies scale and zero-point correction and adds into the accumulator. -/
  | zpc (pr : Fin 2048) (e : BitVec 1)
  /-- ZACC (R191): Micro-op that zeroes the call's accumulator region. -/
  | zacc (pr : Fin 2048) (e : BitVec 1)
  /-- DRN (R191): Micro-op that drains the region into a selected tile. -/
  | drn (pr : Fin 2048) (e : BitVec 1) (sel : BitVec 3)
  /-- SETK (R191): Micro-op that sets the step count and resets the K index. -/
  | setk (pr : Fin 2048) (e : BitVec 1) (imm : BitVec 16) (m : BitVec 1)
  /-- MICRO_LOOP (R191): Micro-op that counts down steps, advances K and branches. -/
  | microLoop (pr : Fin 2048) (e : BitVec 1) (target : BitVec 9)
  /-- BRZ (R191): Micro-op that branches when the step count is zero. -/
  | brz (pr : Fin 2048) (e : BitVec 1) (target : BitVec 9)
  /-- WAITT (R191): Micro-op that waits until earlier MAC and ZPC have committed. -/
  | waitt (pr : Fin 2048) (e : BitVec 1)
  /-- SIGT (R191): Micro-op that sets a written tile full. -/
  | sigt (pr : Fin 2048) (e : BitVec 1) (sel : BitVec 3)
  /-- XPV (R191): Micro-op that selects the active scale half. -/
  | xpv (pr : Fin 2048) (e : BitVec 1) (h : BitVec 1)
  /-- MICRO_WORD_LIMIT (R192): A call reaching 65,536 executed micro-words ends and sets CUTA or CUTB. -/
  | microWordLimit (pr : Fin 2048)
  /-- ARRAY_WINDOW (R178): A 32-cycle array window in MODE 0 ends and passes array time to the other core. -/
  | arrayWindow (pr : Fin 2048)
  /-- ARRAY_OP_START (R186): The array starts the next queued operation of a core when its time allows. -/
  | arrayOpStart (pr : Fin 2048) (coreB : Bool)
  /-- ARRAY_OP_COMPLETE (R188): An array operation such as a drain or spill finishes and its tile goes full. -/
  | arrayOpComplete (pr : Fin 2048)
  /-- TILE_UNIT_OP_COMPLETE (R172): A queued tile-unit operation finishes writing its tile, which goes full. -/
  | tileUnitOpComplete (core : Fin 4096)
  /-- INDEX_ENGINE_COMPLETE (R214): An IXWALK or IXSPLIT finishes and its destination tiles go full. -/
  | indexEngineComplete (core : Fin 4096)
  /-- ASORT_COMPLETE (R221): A queued sort finishes and its destination tile goes full. -/
  | asortComplete (core : Fin 4096)
  /-- TILE_LOAD_COMPLETE (R290): A TLD or TGATH writes its last byte and the tile goes full, with any poison reported at the next boundary. -/
  | tileLoadComplete (core : Fin 4096) (k : Fin 8)
  /-- BULK_STORE_COMPLETE (R257): A TST, TSCAT or TSCADD completes its last sector transfer. -/
  | bulkStoreComplete (core : Fin 4096) (k : Fin 8)
  /-- COPY_COMPLETE (R301): A copy engine copy makes its last sector visible. -/
  | copyComplete (cl : Fin 512) (k : Fin 32)
  /-- STREAM_ELEMENT_ARRIVE (R302): An element of a copy feeding a stream arrives in its buffer. -/
  | streamElementArrive (ctx : Fin 16384) (q : Fin 8)
  /-- FENCE_RETIRE (R297): A fence marker retires once everything ahead of it has performed or completed. -/
  | fenceRetire (ctx : Fin 16384)
  /-- RANGE_OP_COMPLETE (R306): An RINV or RFLUSH completes and adds 1 to its barrier object with release order. -/
  | rangeOpComplete (ctx : Fin 16384)
  /-- XFU_OP_END (R316): A transform-unit operation ends, updating DONE, ERR and NOUT and filling its tile. -/
  | xfuOpEnd (cl : Fin 512) (u : Fin 4)
  /-- MEMORY_DATA_RETURN (R284): Outstanding load data returns, ending an in-place stall. -/
  | memoryDataReturn (ctx : Fin 16384) (cycles : Nat)
  /-- RESULT_LAND (R54): An exposed-latency result lands at the start of its due bundle and its pending bit clears. -/
  | resultLand (ctx : Fin 16384)
  /-- CK_TAG_CLEAR (R205): A CK instruction's scratch pending tags clear at their due bundle. -/
  | ckTagClear (ctx : Fin 16384)
  /-- TILE_STATUS_VALID (R139): A tile's status word becomes VALID six bundles after the tile went full. -/
  | tileStatusValid (ctx : Fin 16384) (t : Fin 32)
  /-- WATCHDOG (R438): A context's watchdog count reaches WDINT and cause 0x15 is taken. -/
  | watchdog (ctx : Fin 16384)
  /-- ARBMODE_WRITE (R179): A write to ARBMODE stalls until both array queues empty and is accepted only if all accumulators are IDLE. -/
  | arbmodeWrite (ctx : Fin 16384) (val : W64)
  /-- LAUNCH_START (R278): A launch whose handle dependences have completed becomes a ready task after SC flushes and invalidations. -/
  | launchStart (launch : Nat)
  /-- GROUP_COMPLETE (R349): A group completes once all contexts have exited and their bulk operations completed. -/
  | groupComplete (group : Nat)
  /-- LAUNCH_COMPLETE (R279): A launch completes and its completion record and sequence numbers are written. -/
  | launchComplete (launch : Nat)
  /-- PREEMPT_STOP (R372): A pre-empted context stops at its next bundle boundary and its state is saved. -/
  | preemptStop (ctx : Fin 16384)
  /-- GROUP_RESUME (R374): A pre-empted group resumes on its cores, displacing higher groups if needed. -/
  | groupResume (group : Nat)
  /-- MINT_ROW_SEND (R377): The Mint sends the next row of the chosen schedule down its tree. -/
  | mintRowSend (die : Fin 64)
  /-- STREAM_HOLD_RELEASE (R64): The blocking condition ends and the held Mint set continues. -/
  | streamHoldRelease (die : Fin 64)
  /-- MINT_ITERATION_BOUNDARY (R379): At an iteration boundary the Mint retires requests, picks a bucket and gives pages. -/
  | mintIterationBoundary (die : Fin 64)
  /-- HELD_WRITE_APPLY (R421): Writes held for lack of Reserve chunks are applied in arrival order once chunks free. -/
  | heldWriteApply (v : Fin 16)
  /-- BALLOON_PASS (R418): The Balloon engine runs a pass of donation, compaction and demotion. -/
  | balloonPass (v : Fin 16)
  /-- FRAME_RESTORE (R242): A Vault finishes restoring a demoted frame and the stalled probe proceeds. -/
  | frameRestore (frame : Nat)
  /-- HDR_X (R87): W0 header form 0 that lends negated or extended guards, operand extensions and atomic scopes to the other three slots. -/
  | hdrX (e : BitVec 1) (l1 : BitVec 7) (l2 : BitVec 7) (l3 : BitVec 7)
  /-- UNASSIGNED_OPCODE (R99): A slot carrying an opcode from an ill cell of its map raises the illegal-encoding trap, cause 0x01, at decode. -/
  | unassignedOpcode (slot : Fin 4) (w : W32)
  /-- INSTRUCTION_FETCH_FAULT (R236): A bundle that issue would fetch next has no X right, lies outside every entry or in the local window, or is poisoned, and the context is frozen or trapped at that bundle. -/
  | instructionFetchFault (ctx : Fin 16384)
  /-- VNOP (R84): V-slot no-operation. -/
  | vnop
  /-- XNOP (R84): X-slot no-operation. -/
  | xnop
  /-- MNOP (R84): M-slot no-operation. -/
  | mnop
  /-- QTAIL_WRITE (R451): The host writes a queue's TAIL, accepted if within capacity, else ERR is set. -/
  | qtailWrite
  /-- QCFG_WRITE (R450): The host configures a queue; clearing EN empties it and clears ERR. -/
  | qcfgWrite
  /-- SHARE_WRITE (R449): The host sets a VF's energy share, ignored if the sum would exceed 65,536. -/
  | shareWrite
  /-- PWRCTL_WRITE (R458): The host sets the module power allowance. -/
  | pwrctlWrite
  /-- REGISTER_WRITE (R12): A write to a register without behaviour of its own stores its writable fields. -/
  | registerWrite
  /-- LAUNCH_ACCEPT (R358): The command processor reads and checks a launch descriptor and its handle list. -/
  | launchAccept
  /-- GROUP_PLACE (R361): A die dispatcher places the next group index on a cluster, checking its tables and energy admission. -/
  | groupPlace
  /-- COLLECTIVE_START (R454): A collective descriptor is accepted and starts once its handles allow. -/
  | collectiveStart
  /-- COLLECTIVE_COMPLETE (R455): A collective's result reaches DST and its completion record is written. -/
  | collectiveComplete
  /-- QUANTUM_BOUNDARY (R367): At each 50 µs quantum the spent test runs, pre-emptions are decided and deficits gain. -/
  | quantumBoundary
  /-- TREASURY_CLOSE (R368): Every 100 µs the Treasury credits, debits and clamps each VF's account. -/
  | treasuryClose
  /-- HANDLE_REGISTER (R277): The partition runtime registers a buffer handle with the command processor. -/
  | handleRegister
  /-- HANDLE_REMOVE (R277): The runtime removes a buffer handle when its buffer is freed. -/
  | handleRemove
  /-- MINT_MICROCODE_REPLACE (R399): Mint microcode is replaced between iterations. -/
  | mintMicrocodeReplace
  /-- MAILBOX_SEQ_WRITE (R386): A task store to SEQ of a sending mailbox raises the mailbox interrupt at its hart. -/
  | mailboxSeqWrite
  /-- GENERAL_CORE_ACCESS (R25): A general core accesses its physical space, checked against grants and windows. -/
  | generalCoreAccess
  /-- HOST_MEMORY_REQUEST (R448): A host CXL.mem or VF request to device memory is checked against host grants. -/
  | hostMemoryRequest
  /-- REMOTE_REQUEST (R453): A remote Walvo master's request is checked against the export window. -/
  | remoteRequest
  /-- WALVO_FLIT_RECEIVE (R445): A Walvo port receives a flit, checking CRC and sequence and requesting replay. -/
  | walvoFlitReceive
  /-- PORT_DOWN (R445): A port not retrained within 10 ms is marked down and its requests complete with errors. -/
  | portDown
  /-- VAULT_LINE_WRITE (R411): A Vault processes a write to a compressed line whole, reclassing and reallocating its run. -/
  | vaultLineWrite
  /-- FRAME_SERVICE (R431): The runtime installs or refuses a frame for a context waiting on cause 0x08. -/
  | frameService
  /-- RATIO (R415): Vault request setting the compression ratio of frames. -/
  | ratio
  /-- DONATE (R422): Vault request marking frames reclaimable. -/
  | donate
  /-- WITHDRAW (R422): Vault request unmarking donated frames not yet taken. -/
  | withdraw
  /-- DEMOTE (R422): Vault request demoting named frames at once. -/
  | demote
  /-- ZERO (R422): Vault request setting every line of frames to zero and freeing their runs. -/
  | zeroFrames
  /-- PROMOTE (R423): Vault request to build a large page over a range. -/
  | promote
  /-- SPLIT (R422): Vault request breaking a large page into 64 KiB frames. -/
  | splitPage
  /-- CLASS_CHANGE (R247): Runtime request changing a region's coherence class with writeback and purge. -/
  | classChange
  /-- FRAME_GRANT (R391): The management controller grants frames exclusively or shared to partitions. -/
  | frameGrant
  /-- GRANT_REVOKE (R391): The management controller revokes a grant after writeback and purge. -/
  | grantRevoke
  /-- PARTITION_CREATE (R389): The management controller creates a partition or changes its clusters. -/
  | partitionCreate
  /-- PARTITION_RESET (R395): A partition reset stops, discards and zeroes the partition's state and ends its launches. -/
  | partitionReset
  /-- CLUSTER_DRAIN (R398): A cluster is closed to placement until it runs and holds no group. -/
  | clusterDrain
  /-- SPARE_SUBSTITUTION (R21): A drained logical cluster is moved to the die's spare, advancing TOPOSEQ. -/
  | spareSubstitution
  /-- FIRMWARE_UPDATE (R397): An image update in service is verified, measured and applied. -/
  | firmwareUpdate
  /-- VAULT_FIRMWARE_REPLACE (R400): A Vault engine's firmware is replaced at a request boundary. -/
  | vaultFirmwareReplace
  /-- INSPECTION (R447): The management controller writes a frozen context's state to a runtime buffer. -/
  | inspection
  /-- WATCHDOG_INTERVAL_SET (R438): The management controller sets a partition's watchdog interval. -/
  | watchdogIntervalSet
  /-- VF_WEIGHT_SET (R365): The partition runtime sets a VF's scheduling weight. -/
  | vfWeightSet
  /-- EXPORT_WINDOW_SET (R453): The management port sets the export window and its admitted partition. -/
  | exportWindowSet
  /-- DEMOTION_TARGET_SET (R418): The management controller configures a Vault's demotion target. -/
  | demotionTargetSet
  /-- VAULT_VIEW_SET (R424): The physical function driver gives or withdraws a partition's Vault view. -/
  | vaultViewSet
  /-- MAILBOX_GRANT (R385): Mailboxes are granted to a partition and assigned to a task. -/
  | mailboxGrant
  /-- MICROSTORE_IMAGE_LOAD (R189): Tuiral loads a task's microstore image into a cluster's arrays. -/
  | microstoreImageLoad
  /-- BUCKET_TABLE_LOAD (R378): Tuiral loads the Mint's bucket table and schedule store, refused if malformed. -/
  | bucketTableLoad
  /-- MODULE_RESET (R401): The boot ROM verifies, measures and runs each boot stage after reset. -/
  | moduleReset
  /-- RUNTIME_READY (R404): The runtime reports ready, clearing the failed-start count. -/
  | runtimeReady
  /-- BOOT_TIMEOUT (R404): The runtime has not reported ready 120 s after reset, counting a failed start. -/
  | bootTimeout
  /-- THERMAL_RESET (R458): At 115 °C or supply out of range the module resets and counts a failed start. -/
  | thermalReset
  /-- THROTTLE_STEP (R458): Each millisecond over the power or temperature limit the clock steps down, or back up when clear. -/
  | throttleStep
  /-- PATROL_SCRUB (R440): Patrol scrubbers read and correct each DRAM location once in 24 hours. -/
  | patrolScrub
  /-- SOFT_ERROR (R440): A storage error is detected, corrected or poisoned, and reported. -/
  | softError
  /-- GET_VERSION (R403): SPDM request for supported versions. -/
  | getVersion
  /-- GET_CAPABILITIES (R403): SPDM request for capabilities. -/
  | getCapabilities
  /-- NEGOTIATE_ALGORITHMS (R403): SPDM request negotiating SHA-384 and ECDSA P-384. -/
  | negotiateAlgorithms
  /-- GET_DIGESTS (R403): SPDM request for certificate chain digests. -/
  | getDigests
  /-- GET_CERTIFICATE (R403): SPDM request for a certificate chain. -/
  | getCertificate
  /-- CHALLENGE (R403): SPDM challenge signed with the alias key. -/
  | challenge
  /-- GET_MEASUREMENTS (R403): SPDM request for signed measurement blocks. -/
  | getMeasurements
  /-- SPDM_UNSUPPORTED_REQUEST (R403): Any other SPDM request receives the error UnsupportedRequest. -/
  | spdmUnsupportedRequest
  /-- PORT_RETRAIN_COMPLETE (R445): A Walvo port that retrained after 16 failed replays comes back up and replays its unacknowledged flits. -/
  | portRetrainComplete
  /-- NODE_ID_ASSIGN (R31): The fabric manager assigns the module's node identifier and its load-store domain position, leaving the not-yet-assigned state. -/
  | nodeIdAssign
  /-- COMMUNICATOR_SET (R454): The fabric manager sets a communicator, an ordered set of DPOS ranks, that collective descriptors name. -/
  | communicatorSet
  /-- MINT_SET_LOAD (R376): The partition runtime binds a die's Mint set to a task, binding each member core's stream context and granting the KV pool with its TPP. -/
  | mintSetLoad
  /-- PROMOTION_BUILD_COMPLETE (R423): The promotion engine finishes copying the frames of a large page and rewrites their entries with SIZE 1 or 2, releasing accesses stalled on sectors in transit. -/
  | promotionBuildComplete
  deriving DecidableEq, Repr

end Sys2Proof
end

