-- ==== Sys2Proof/WellFormed.lean ====
section
/-!
DEFINITION. Which operand values are encodings of the manual: the checks of one slot word that raise cause 0x01 at decode
when they fail (R85, R90 to R92, R329, R342, R144, R208, R220, R294, R296, R299, R300, R306 to R308). Checks over a whole
bundle or group (R100, R101) stand with the bundle.
-/
set_option Elab.async false
namespace Sys2Proof

/-- The CSR numbers of R342. -/
def csrListed (r : Nat) : Bool :=
  r ≤ 0x004 || (0x010 ≤ r && r ≤ 0x015) || r == 0x020 || (0x030 ≤ r && r ≤ 0x04F) || (0x050 ≤ r && r ≤ 0x056)
    || (0x060 ≤ r && r ≤ 0x062) || r == 0x070 || r == 0x071 || (0x080 ≤ r && r ≤ 0x082) || r == 0x100 || r == 0x101

/-- The leaves a tree shape can choose (R91). -/
def shapeLeaves : Nat → List Nat
  | 0 => [0, 4]
  | 1 => [0, 1, 4]
  | 2 => [0, 1, 2, 4]
  | 3 => [0, 1, 2, 3, 4]
  | 4 => [0, 1, 2, 3]
  | 5 => [0, 1, 2, 3, 4]
  | 6 => [0, 1, 2, 3]
  | _ => []

/-- A path tag is 7 or names a leaf its shape can choose (R92). -/
def tagLegal (shape tag : Nat) : Bool := tag == 7 || (shapeLeaves shape).contains tag

/-- The encoding checks of one slot operation. An operation not named has no illegal operand value. -/
def Instr.wf (i : Instr) : Bool :=
  match i with
  | .add _ _ _ _ _ f => decide (f.toNat ≤ 1)
  | .sub _ _ _ _ _ f => decide (f.toNat ≤ 1)
  | .shl _ _ _ _ _ f => decide (f.toNat ≤ 1)
  | .shr _ _ _ _ _ f => decide (f.toNat ≤ 1)
  | .sar _ _ _ _ _ f => decide (f.toNat ≤ 1)
  | .rot _ _ _ _ _ f => decide (f.toNat ≤ 1)
  | .mul _ _ _ _ _ f => decide (f.toNat ≤ 3)
  | .div _ _ _ _ _ f => decide (f.toNat ≤ 3)
  | .min _ _ _ _ _ f => decide (f.toNat ≤ 1)
  | .max _ _ _ _ _ f => decide (f.toNat ≤ 1)
  | .bitc _ _ _ _ f => decide (f.toNat ≤ 4)
  | .movb _ _ _ _ f => decide (f.toNat ≤ 1)
  | .csrd _ _ r _ => decide (csrListed r.toNat)
  | .cswr _ _ r _ => decide (csrListed r.toNat)
  | .savec _ _ m _ => decide (m ≠ 0)
  | .loadc _ _ m _ => decide (m ≠ 0)
  | .hdrT _ h _ _ x y z => decide (h ≠ 7 ∧ tagLegal h.toNat x.toNat ∧ tagLegal h.toNat y.toNat ∧ tagLegal h.toNat z.toNat)
  | .vadd _ _ _ _ _ m => decide (m.toNat ≤ 2)
  | .vsub _ _ _ _ _ m => decide (m.toNat ≤ 2)
  | .vmul _ _ _ _ _ m => decide (m.toNat ≤ 2)
  | .vmin _ _ _ _ _ m => decide (m.toNat ≤ 1)
  | .vmax _ _ _ _ _ m => decide (m.toNat ≤ 1)
  | .vadds _ _ _ _ _ m => decide (m.toNat ≤ 1)
  | .vmuls _ _ _ _ _ m => decide (m.toNat ≤ 1)
  | .vfmin _ _ _ _ _ m => decide (m.toNat ≤ 1)
  | .vfmax _ _ _ _ _ m => decide (m.toNat ≤ 1)
  | .vcvt _ _ _ _ m => decide (m.toNat ≤ 9)
  | .vfclass _ _ _ _ m => decide (m.toNat ≤ 1)
  | .vdadd _ _ _ _ _ m => decide (m.toNat ≤ 1)
  | .vdmax _ _ _ _ _ m => decide (m.toNat ≤ 1)
  | .vperm _ _ _ _ _ m => decide (m.toNat ≤ 1)
  | .vshuf _ _ _ _ _ m => decide (m.toNat ≤ 3)
  | .vbcast _ _ _ _ m => decide (m.toNat ≤ 1)
  | .vmovs _ _ _ _ l m => decide (m.toNat ≤ 2 ∧ (m = 2 → l.toNat % 2 = 0))
  | .vins _ _ _ _ _ m => decide (m.toNat ≤ 3)
  | .viota _ _ _ m => decide (m.toNat ≤ 1)
  | .vred _ _ _ _ m => decide (m.toNat ≤ 7)
  | .vscan _ _ _ _ m => decide (m.toNat ≤ 7)
  | .vcmp _ _ _ _ _ c => decide (c.toNat ≤ 7)
  | .pcnt _ _ _ _ m => decide (m.toNat ≤ 2)
  | .vrng _ _ _ _ _ m => decide (m.toNat ≤ 1)
  | .bch _ a => decide (a.toNat ≤ 3)
  | .ech _ a => decide (a.toNat ≤ 3)
  | .mdrain _ a _ _ _ => decide (a.toNat ≤ 3)
  | .mzero _ a => decide (a.toNat ≤ 3)
  | .mspill _ a _ _ => decide (a.toNat ≤ 3)
  | .mfill _ a _ _ => decide (a.toNat ≤ 3)
  | .tzero _ _ m => decide (m.toNat ≤ 1)
  | .tv2t _ _ _ i => decide (i.toNat ≤ 15)
  | .tt2v _ _ _ i => decide (i.toNat ≤ 15)
  | .ckleaf _ _ r c => decide (r.toNat + c.toNat + 1 ≤ 32)
  | .cknode _ _ r c => decide (r.toNat + c.toNat + 1 ≤ 32)
  | .ckback _ _ r c => decide (r.toNat + c.toNat + 1 ≤ 32)
  | .cksamp _ _ r c => decide (r.toNat + c.toNat + 1 ≤ 32)
  | .ixwalk _ d a b => decide (d ≠ a ∧ d ≠ b ∧ a ≠ b)
  | .asort _ _ _ _ m => decide (m.toNat ≤ 2)
  | .cclr _ _ m => decide (m.toNat ≤ 2)
  | .tgath _ t _ _ i _ => decide (i ≠ t)
  | .aadd _ _ _ _ o => decide (o.toNat ≤ 3)
  | .aaddw _ _ _ _ o => decide (o.toNat ≤ 3)
  | .afadd _ _ _ _ o => decide (o.toNat ≤ 3)
  | .adadd _ _ _ _ o => decide (o.toNat ≤ 3)
  | .amax _ _ _ _ o => decide (o.toNat ≤ 3)
  | .amin _ _ _ _ o => decide (o.toNat ≤ 3)
  | .aor _ _ _ _ o => decide (o.toNat ≤ 3)
  | .aand _ _ _ _ o => decide (o.toNat ≤ 3)
  | .axchg _ _ _ _ o => decide (o.toNat ≤ 3)
  | .acas _ _ _ _ o => decide (o.toNat ≤ 3)
  | .fence _ m k => decide (m ≠ 0 ∧ k.toNat ≤ 5)
  | .waitm _ a _ _ f => decide (f.toNat ≤ 4 ∧ (f = 1 ∨ f = 2 ∨ a = 0))
  | .cpyq _ n _ _ => decide (n.toNat ≤ 7)
  | .sbar _ m k => decide (m ≠ 0 ∧ k.toNat ≤ 5)
  | .rinv _ _ _ c f => decide (f.toNat ≤ 5 ∧ c ≠ 0)
  | .rflush _ _ _ c f => decide (f.toNat ≤ 5 ∧ c ≠ 0)
  | .resv _ h _ _ _ => decide (h.toNat ≤ 15)
  | .rrel _ h => decide (h.toNat ≤ 15)
  | .movp _ p _ => decide (p.toNat < 128 ∧ p.toNat % 32 < 16)
  | .movfp _ p _ => decide (p.toNat < 128 ∧ p.toNat % 32 < 24)
  | .xfuDecode _ u _ => decide (u.toNat ≤ 3)
  | .xfuZorder _ u _ => decide (u.toNat ≤ 3)
  | .xfuUnz _ u _ => decide (u.toNat ≤ 3)
  | .xfuCopy _ u _ => decide (u.toNat ≤ 3)
  | .xfuUnpack4 _ u _ => decide (u.toNat ≤ 3)
  | .xfuSave _ u _ => decide (u.toNat ≤ 3)
  | .xfuLoad _ u _ => decide (u.toNat ≤ 3)
  | .xfuAbort _ u _ => decide (u.toNat ≤ 3)
  | _ => true

end Sys2Proof
end

