-- ==== Sys2Proof/Decode.lean ====
section
/-!
DEFINITION. Decoding of slot words, micro-words and bundles (R76 to R99, R190, R191), total on any bits and refusing by
name, and after it the encoder, written from the same field maps.
-/
set_option Elab.async false
namespace Sys2Proof

/-- Why a slot word is no instruction. Each raises cause 0x01 (R12, R85, R99). -/
inductive DecodeError where
  /-- the opcode is an empty cell of its slot's map (R99) -/
  | unassignedOpcode
  /-- a bit the form does not use is not zero (R84, R85) -/
  | reservedField
  /-- a field holds a value its form does not assign (R85) -/
  | illegalValue
  deriving DecidableEq, Repr

/-- The slot of a word: its position in the bundle fixes its class (R77). -/
inductive Slot where
  | c | v | x | m
  deriving DecidableEq, Repr

/-- Bits `lo + n - 1 : lo` of a word. -/
def fld {k : Nat} (w : BitVec k) (lo n : Nat) : BitVec n := w.extractLsb' lo n

/-- A field placed at bit `lo` of a slot word. -/
def put {n : Nat} (x : BitVec n) (lo : Nat) : W32 := x.setWidth 32 <<< lo


/-- MOVP and the operations its trigger ports start: port bits 7:5 name the unit, bits 4:0 the port (R308, R313). -/
def movpRow (w : W32) : Option Instr :=
  match (fld w 13 5).toNat with
  | 16 => some (.xfuDecode (fld w 21 3) (fld w 18 3) (fld w 7 6))
  | 17 => some (.xfuZorder (fld w 21 3) (fld w 18 3) (fld w 7 6))
  | 18 => some (.xfuUnz (fld w 21 3) (fld w 18 3) (fld w 7 6))
  | 19 => some (.xfuCopy (fld w 21 3) (fld w 18 3) (fld w 7 6))
  | 20 => some (.xfuUnpack4 (fld w 21 3) (fld w 18 3) (fld w 7 6))
  | 21 => some (.xfuSave (fld w 21 3) (fld w 18 3) (fld w 7 6))
  | 22 => some (.xfuLoad (fld w 21 3) (fld w 18 3) (fld w 7 6))
  | 23 => some (.xfuAbort (fld w 21 3) (fld w 18 3) (fld w 7 6))
  | _ => some (.movp (fld w 21 3) (fld w 13 8) (fld w 7 6))

/-- The row of the C map a word falls in, with its fields (R99): W0, opcode bits 30:24. -/
def rowC (w : W32) : Option Instr :=
  match (fld w 24 7).toNat with
  | 0x00 => some (.nop (fld w 31 1))
  | 0x01 => some (.add (fld w 31 1) (fld w 21 3) (fld w 15 6) (fld w 9 6) (fld w 3 6) (fld w 0 3))
  | 0x02 => some (.sub (fld w 31 1) (fld w 21 3) (fld w 15 6) (fld w 9 6) (fld w 3 6) (fld w 0 3))
  | 0x03 => some (.and (fld w 31 1) (fld w 21 3) (fld w 15 6) (fld w 9 6) (fld w 3 6))
  | 0x04 => some (.or (fld w 31 1) (fld w 21 3) (fld w 15 6) (fld w 9 6) (fld w 3 6))
  | 0x05 => some (.xor (fld w 31 1) (fld w 21 3) (fld w 15 6) (fld w 9 6) (fld w 3 6))
  | 0x06 => some (.andn (fld w 31 1) (fld w 21 3) (fld w 15 6) (fld w 9 6) (fld w 3 6))
  | 0x07 => some (.shl (fld w 31 1) (fld w 21 3) (fld w 15 6) (fld w 9 6) (fld w 3 6) (fld w 0 3))
  | 0x08 => some (.shr (fld w 31 1) (fld w 21 3) (fld w 15 6) (fld w 9 6) (fld w 3 6) (fld w 0 3))
  | 0x09 => some (.sar (fld w 31 1) (fld w 21 3) (fld w 15 6) (fld w 9 6) (fld w 3 6) (fld w 0 3))
  | 0x0a => some (.rot (fld w 31 1) (fld w 21 3) (fld w 15 6) (fld w 9 6) (fld w 3 6) (fld w 0 3))
  | 0x0b => some (.mul (fld w 31 1) (fld w 21 3) (fld w 15 6) (fld w 9 6) (fld w 3 6) (fld w 0 3))
  | 0x0c => some (.div (fld w 31 1) (fld w 21 3) (fld w 15 6) (fld w 9 6) (fld w 3 6) (fld w 0 3))
  | 0x0d => some (.min (fld w 31 1) (fld w 21 3) (fld w 15 6) (fld w 9 6) (fld w 3 6) (fld w 0 3))
  | 0x0e => some (.max (fld w 31 1) (fld w 21 3) (fld w 15 6) (fld w 9 6) (fld w 3 6) (fld w 0 3))
  | 0x0f => some (.bitc (fld w 31 1) (fld w 21 3) (fld w 15 6) (fld w 9 6) (fld w 0 3))
  | 0x10 => some (.addi (fld w 31 1) (fld w 21 3) (fld w 15 6) (fld w 9 6) (fld w 0 9))
  | 0x11 => some (.andi (fld w 31 1) (fld w 21 3) (fld w 15 6) (fld w 9 6) (fld w 0 9))
  | 0x12 => some (.ori (fld w 31 1) (fld w 21 3) (fld w 15 6) (fld w 9 6) (fld w 0 9))
  | 0x13 => some (.xori (fld w 31 1) (fld w 21 3) (fld w 15 6) (fld w 9 6) (fld w 0 9))
  | 0x14 => some (.shli (fld w 31 1) (fld w 21 3) (fld w 15 6) (fld w 9 6) (fld w 0 6))
  | 0x15 => some (.shri (fld w 31 1) (fld w 21 3) (fld w 15 6) (fld w 9 6) (fld w 0 6))
  | 0x16 => some (.sari (fld w 31 1) (fld w 21 3) (fld w 15 6) (fld w 9 6) (fld w 0 6))
  | 0x17 => some (.muli (fld w 31 1) (fld w 21 3) (fld w 15 6) (fld w 9 6) (fld w 0 9))
  | 0x18 => some (.li (fld w 31 1) (fld w 21 3) (fld w 15 6) (fld w 0 15))
  | 0x19 => some (.lis (fld w 31 1) (fld w 21 3) (fld w 15 6) (fld w 0 15))
  | 0x1a => some (.addpc (fld w 31 1) (fld w 21 3) (fld w 15 6) (fld w 0 15))
  | 0x20 => some (.cmp (fld w 31 1) (fld w 21 3) (fld w 14 7) (fld w 8 6) (fld w 2 6) (fld w 0 2))
  | 0x21 => some (.cmpu (fld w 31 1) (fld w 21 3) (fld w 14 7) (fld w 8 6) (fld w 2 6) (fld w 0 2))
  | 0x22 => some (.cmpi (fld w 31 1) (fld w 21 3) (fld w 14 7) (fld w 8 6) (fld w 2 6) (fld w 0 2))
  | 0x23 => some (.pfrom (fld w 31 1) (fld w 21 3) (fld w 14 7) (fld w 8 6))
  | 0x30 => some (.br (fld w 31 1) (fld w 21 3) (fld w 0 21))
  | 0x31 => some (.call (fld w 31 1) (fld w 21 3) (fld w 0 21))
  | 0x32 => some (.brb (fld w 31 1) (fld w 21 3) (fld w 18 3))
  | 0x33 => some (.ret (fld w 31 1) (fld w 21 3))
  | 0x34 => some (.lbt (fld w 31 1) (fld w 21 3) (fld w 18 3) (fld w 0 18))
  | 0x35 => some (.movb (fld w 31 1) (fld w 21 3) (fld w 9 3) (fld w 3 6) (fld w 0 3))
  | 0x36 => some (.loop (fld w 31 1) (fld w 21 3) (fld w 15 6) (fld w 0 15))
  | 0x40 => some (.csrd (fld w 31 1) (fld w 21 3) (fld w 9 12) (fld w 3 6))
  | 0x41 => some (.cswr (fld w 31 1) (fld w 21 3) (fld w 9 12) (fld w 3 6))
  | 0x42 => some (.mpset (fld w 31 1) (fld w 21 3) (fld w 9 3) (fld w 3 6))
  | 0x43 => some (.tcset (fld w 31 1) (fld w 21 3) (fld w 9 5) (fld w 3 6))
  | 0x44 => some (.tcget (fld w 31 1) (fld w 21 3) (fld w 9 5) (fld w 3 6))
  | 0x45 => some (.yield (fld w 31 1) (fld w 21 3))
  | 0x46 => some (.exit (fld w 31 1) (fld w 21 3))
  | 0x47 => some (.trap (fld w 31 1) (fld w 21 3) (fld w 0 21))
  | 0x48 => some (.sysc (fld w 31 1) (fld w 21 3) (fld w 0 21))
  | 0x49 => some (.brk (fld w 31 1) (fld w 21 3) (fld w 0 21))
  | 0x4a => some (.grow (fld w 31 1) (fld w 21 3) (fld w 15 6) (fld w 9 6))
  | 0x4b => if fld w 0 3 = 0 then some (.bar (fld w 31 1) (fld w 21 3) (fld w 9 5)) else if fld w 0 3 = 1 then some (.barW (fld w 31 1) (fld w 21 3) (fld w 9 5)) else if fld w 0 3 = 2 then some (.barAw (fld w 31 1) (fld w 21 3) (fld w 9 5)) else none
  | 0x4c => some (.rfe (fld w 31 1) (fld w 21 3))
  | 0x4d => some (.savec (fld w 31 1) (fld w 21 3) (fld w 9 7) (fld w 3 6))
  | 0x4e => some (.loadc (fld w 31 1) (fld w 21 3) (fld w 9 7) (fld w 3 6))
  | 0x7f => if fld w 23 1 = 0 then some (.hdrX (fld w 31 1) (fld w 14 7) (fld w 7 7) (fld w 0 7)) else some (.hdrT (fld w 31 1) (fld w 20 3) (fld w 15 5) (fld w 12 3) (fld w 9 3) (fld w 6 3) (fld w 3 3))
  | _ => none

/-- The row of the V map a word falls in, with its fields (R99): W1, opcode bits 31:25. -/
def rowV (w : W32) : Option Instr :=
  match (fld w 25 7).toNat with
  | 0x00 => some (.vnop)
  | 0x01 => some (.vadd (fld w 24 1) (fld w 21 3) (fld w 16 5) (fld w 11 5) (fld w 6 5) (fld w 0 6))
  | 0x02 => some (.vsub (fld w 24 1) (fld w 21 3) (fld w 16 5) (fld w 11 5) (fld w 6 5) (fld w 0 6))
  | 0x03 => some (.vmul (fld w 24 1) (fld w 21 3) (fld w 16 5) (fld w 11 5) (fld w 6 5) (fld w 0 6))
  | 0x04 => some (.vmin (fld w 24 1) (fld w 21 3) (fld w 16 5) (fld w 11 5) (fld w 6 5) (fld w 0 6))
  | 0x05 => some (.vmax (fld w 24 1) (fld w 21 3) (fld w 16 5) (fld w 11 5) (fld w 6 5) (fld w 0 6))
  | 0x06 => some (.vand (fld w 24 1) (fld w 21 3) (fld w 16 5) (fld w 11 5) (fld w 6 5))
  | 0x07 => some (.vor (fld w 24 1) (fld w 21 3) (fld w 16 5) (fld w 11 5) (fld w 6 5))
  | 0x08 => some (.vxor (fld w 24 1) (fld w 21 3) (fld w 16 5) (fld w 11 5) (fld w 6 5))
  | 0x09 => some (.vshl (fld w 24 1) (fld w 21 3) (fld w 16 5) (fld w 11 5) (fld w 6 5))
  | 0x0a => some (.vshr (fld w 24 1) (fld w 21 3) (fld w 16 5) (fld w 11 5) (fld w 6 5))
  | 0x0b => some (.vsar (fld w 24 1) (fld w 21 3) (fld w 16 5) (fld w 11 5) (fld w 6 5))
  | 0x0c => some (.vadds (fld w 24 1) (fld w 21 3) (fld w 16 5) (fld w 11 5) (fld w 5 6) (fld w 0 5))
  | 0x0d => some (.vmuls (fld w 24 1) (fld w 21 3) (fld w 16 5) (fld w 11 5) (fld w 5 6) (fld w 0 5))
  | 0x0e => some (.vli (fld w 24 1) (fld w 21 3) (fld w 16 5) (fld w 0 11))
  | 0x10 => some (.vfadd (fld w 24 1) (fld w 21 3) (fld w 16 5) (fld w 11 5) (fld w 6 5))
  | 0x11 => some (.vfsub (fld w 24 1) (fld w 21 3) (fld w 16 5) (fld w 11 5) (fld w 6 5))
  | 0x12 => some (.vfmul (fld w 24 1) (fld w 21 3) (fld w 16 5) (fld w 11 5) (fld w 6 5))
  | 0x13 => some (.vfma (fld w 24 1) (fld w 21 3) (fld w 16 5) (fld w 11 5) (fld w 6 5) (fld w 1 5) (fld w 0 1))
  | 0x14 => some (.vfmin (fld w 24 1) (fld w 21 3) (fld w 16 5) (fld w 11 5) (fld w 6 5) (fld w 0 6))
  | 0x15 => some (.vfmax (fld w 24 1) (fld w 21 3) (fld w 16 5) (fld w 11 5) (fld w 6 5) (fld w 0 6))
  | 0x16 => some (.vfrcp (fld w 24 1) (fld w 21 3) (fld w 16 5) (fld w 11 5))
  | 0x17 => some (.vfrsq (fld w 24 1) (fld w 21 3) (fld w 16 5) (fld w 11 5))
  | 0x18 => some (.vfexp2 (fld w 24 1) (fld w 21 3) (fld w 16 5) (fld w 11 5))
  | 0x19 => some (.vflog2 (fld w 24 1) (fld w 21 3) (fld w 16 5) (fld w 11 5))
  | 0x1a => some (.vcvt (fld w 24 1) (fld w 21 3) (fld w 16 5) (fld w 11 5) (fld w 0 6))
  | 0x1b => some (.vfclass (fld w 24 1) (fld w 21 3) (fld w 16 5) (fld w 11 5) (fld w 0 6))
  | 0x20 => some (.vdadd (fld w 24 1) (fld w 21 3) (fld w 16 5) (fld w 11 5) (fld w 6 5) (fld w 0 6))
  | 0x21 => some (.vdmul (fld w 24 1) (fld w 21 3) (fld w 16 5) (fld w 11 5) (fld w 6 5))
  | 0x22 => some (.vdmax (fld w 24 1) (fld w 21 3) (fld w 16 5) (fld w 11 5) (fld w 6 5) (fld w 0 6))
  | 0x23 => some (.vdcvt (fld w 24 1) (fld w 21 3) (fld w 16 5) (fld w 11 5) (fld w 0 3))
  | 0x24 => some (.vdscl (fld w 24 1) (fld w 21 3) (fld w 16 5) (fld w 11 5) (fld w 5 6))
  | 0x30 => some (.vperm (fld w 24 1) (fld w 21 3) (fld w 16 5) (fld w 11 5) (fld w 6 5) (fld w 0 6))
  | 0x31 => some (.vnib (fld w 24 1) (fld w 21 3) (fld w 16 5) (fld w 11 5) (fld w 0 5))
  | 0x32 => some (.vshuf (fld w 24 1) (fld w 21 3) (fld w 16 5) (fld w 11 5) (fld w 6 5) (fld w 0 6))
  | 0x33 => some (.vbcast (fld w 24 1) (fld w 21 3) (fld w 16 5) (fld w 5 6) (fld w 0 5))
  | 0x34 => some (.vmovs (fld w 24 1) (fld w 21 3) (fld w 15 6) (fld w 10 5) (fld w 4 6) (fld w 0 4))
  | 0x35 => some (.vins (fld w 24 1) (fld w 21 3) (fld w 16 5) (fld w 11 5) (fld w 5 6) (fld w 0 5))
  | 0x36 => some (.viota (fld w 24 1) (fld w 21 3) (fld w 16 5) (fld w 0 6))
  | 0x37 => some (.vmov (fld w 24 1) (fld w 21 3) (fld w 16 5) (fld w 11 5))
  | 0x38 => some (.vred (fld w 24 1) (fld w 21 3) (fld w 16 5) (fld w 11 5) (fld w 0 6))
  | 0x39 => some (.vscan (fld w 24 1) (fld w 21 3) (fld w 16 5) (fld w 11 5) (fld w 0 6))
  | 0x3a => some (.vcmp (fld w 24 1) (fld w 21 3) (fld w 14 7) (fld w 9 5) (fld w 4 5) (fld w 0 4))
  | 0x3b => some (.vfcmp (fld w 24 1) (fld w 21 3) (fld w 14 7) (fld w 9 5) (fld w 4 5) (fld w 0 4))
  | 0x3c => some (.pand (fld w 24 1) (fld w 21 3) (fld w 14 7) (fld w 7 7) (fld w 0 7))
  | 0x3d => some (.por (fld w 24 1) (fld w 21 3) (fld w 14 7) (fld w 7 7) (fld w 0 7))
  | 0x3e => some (.pxor (fld w 24 1) (fld w 21 3) (fld w 14 7) (fld w 7 7) (fld w 0 7))
  | 0x3f => some (.pandn (fld w 24 1) (fld w 21 3) (fld w 14 7) (fld w 7 7) (fld w 0 7))
  | 0x40 => some (.pcnt (fld w 24 1) (fld w 21 3) (fld w 15 6) (fld w 8 7) (fld w 0 8))
  | 0x48 => some (.vqdeq (fld w 24 1) (fld w 21 3) (fld w 16 5) (fld w 11 5) (fld w 6 5) (fld w 0 2))
  | 0x49 => some (.vqnt (fld w 24 1) (fld w 21 3) (fld w 16 5) (fld w 11 5) (fld w 6 5) (fld w 0 2))
  | 0x4a => some (.vrng (fld w 24 1) (fld w 21 3) (fld w 16 5) (fld w 11 5) (fld w 6 5) (fld w 0 6))
  | _ => none

/-- The row of the X map a word falls in, with its fields (R99): W2, opcode bits 31:25. -/
def rowX (w : W32) : Option Instr :=
  match (fld w 25 7).toNat with
  | 0x00 => some (.xnop)
  | 0x01 => some (.mcall (fld w 21 3) (fld w 14 7) (fld w 0 2))
  | 0x02 => some (.bch (fld w 21 3) (fld w 18 3))
  | 0x03 => some (.ech (fld w 21 3) (fld w 18 3))
  | 0x04 => some (.mdrain (fld w 21 3) (fld w 18 3) (fld w 13 5) (fld w 5 5) (fld w 0 5))
  | 0x05 => some (.mzero (fld w 21 3) (fld w 18 3))
  | 0x06 => some (.mspill (fld w 21 3) (fld w 18 3) (fld w 13 5) (fld w 0 1))
  | 0x07 => some (.mfill (fld w 21 3) (fld w 18 3) (fld w 13 5) (fld w 0 1))
  | 0x08 => if fld w 0 3 = 0 then some (.mpwr (fld w 21 3) (fld w 13 5)) else if fld w 0 3 = 1 then some (.mpwrTab (fld w 21 3) (fld w 13 5)) else none
  | 0x09 => if fld w 0 3 = 0 then some (.mprd (fld w 21 3) (fld w 13 5)) else if fld w 0 3 = 1 then some (.mprdTab (fld w 21 3) (fld w 13 5)) else none
  | 0x10 => some (.tzero (fld w 21 3) (fld w 16 5) (fld w 0 6))
  | 0x11 => some (.tcopy (fld w 21 3) (fld w 16 5) (fld w 11 5))
  | 0x12 => some (.tv2t (fld w 21 3) (fld w 16 5) (fld w 11 5) (fld w 6 5))
  | 0x13 => some (.tt2v (fld w 21 3) (fld w 16 5) (fld w 11 5) (fld w 6 5))
  | 0x20 => some (.ckleaf (fld w 21 3) (fld w 16 5) (fld w 11 5) (fld w 6 5))
  | 0x21 => some (.cknode (fld w 21 3) (fld w 16 5) (fld w 11 5) (fld w 6 5))
  | 0x22 => some (.ckback (fld w 21 3) (fld w 16 5) (fld w 11 5) (fld w 6 5))
  | 0x23 => some (.ckdiv (fld w 21 3) (fld w 16 5) (fld w 11 5) (fld w 0 6))
  | 0x24 => some (.cksamp (fld w 21 3) (fld w 16 5) (fld w 11 5) (fld w 6 5))
  | 0x25 => some (.ixwalk (fld w 21 3) (fld w 16 5) (fld w 11 5) (fld w 6 5))
  | 0x26 => some (.ixsplit (fld w 21 3) (fld w 16 5) (fld w 11 5) (fld w 0 6))
  | 0x30 => some (.asort (fld w 21 3) (fld w 16 5) (fld w 11 5) (fld w 6 5) (fld w 0 6))
  | 0x31 => some (.amrg (fld w 21 3) (fld w 19 2) (fld w 14 5) (fld w 8 6))
  | 0x32 => some (.cread (fld w 21 3) (fld w 19 2) (fld w 14 5) (fld w 8 6))
  | 0x33 => some (.cclr (fld w 21 3) (fld w 19 2) (fld w 0 2))
  | 0x34 => some (.csamp (fld w 21 3) (fld w 19 2) (fld w 8 6))
  | 0x38 => some (.clpush (fld w 21 3) (fld w 11 5) (fld w 0 4))
  | 0x39 => some (.clpull (fld w 21 3) (fld w 16 5))
  | 0x3a => some (.clseal (fld w 21 3) (fld w 0 4))
  | 0x3b => if fld w 0 3 = 0 then some (.clcfg (fld w 21 3) (fld w 11 5)) else if fld w 0 3 = 1 then some (.clcfgEnd (fld w 21 3)) else none
  | _ => none

/-- The row of the M map a word falls in, with its fields (R99): W3, opcode bits 31:25. -/
def rowM (w : W32) : Option Instr :=
  match (fld w 25 7).toNat with
  | 0x00 => some (.mnop)
  | 0x01 => some (.ldd (fld w 24 1) (fld w 21 3) (fld w 15 6) (fld w 9 6) (fld w 5 4) (fld w 0 5))
  | 0x02 => some (.ldw (fld w 24 1) (fld w 21 3) (fld w 15 6) (fld w 9 6) (fld w 5 4) (fld w 0 5))
  | 0x03 => some (.ldwu (fld w 24 1) (fld w 21 3) (fld w 15 6) (fld w 9 6) (fld w 5 4) (fld w 0 5))
  | 0x04 => some (.ldh (fld w 24 1) (fld w 21 3) (fld w 15 6) (fld w 9 6) (fld w 5 4) (fld w 0 5))
  | 0x05 => some (.ldhu (fld w 24 1) (fld w 21 3) (fld w 15 6) (fld w 9 6) (fld w 5 4) (fld w 0 5))
  | 0x06 => some (.ldb (fld w 24 1) (fld w 21 3) (fld w 15 6) (fld w 9 6) (fld w 5 4) (fld w 0 5))
  | 0x07 => some (.ldbu (fld w 24 1) (fld w 21 3) (fld w 15 6) (fld w 9 6) (fld w 5 4) (fld w 0 5))
  | 0x08 => some (.std (fld w 21 3) (fld w 15 6) (fld w 9 6) (fld w 5 4) (fld w 0 5))
  | 0x09 => some (.stw (fld w 21 3) (fld w 15 6) (fld w 9 6) (fld w 5 4) (fld w 0 5))
  | 0x0a => some (.sth (fld w 21 3) (fld w 15 6) (fld w 9 6) (fld w 5 4) (fld w 0 5))
  | 0x0b => some (.stb (fld w 21 3) (fld w 15 6) (fld w 9 6) (fld w 5 4) (fld w 0 5))
  | 0x0c => some (.vld (fld w 24 1) (fld w 21 3) (fld w 16 5) (fld w 10 6) (fld w 6 4) (fld w 0 6))
  | 0x0d => some (.vst (fld w 21 3) (fld w 16 5) (fld w 10 6) (fld w 6 4) (fld w 0 6))
  | 0x0e => some (.lddp (fld w 24 1) (fld w 21 3) (fld w 15 6) (fld w 9 6) (fld w 5 4) (fld w 0 5))
  | 0x0f => some (.vldp (fld w 24 1) (fld w 21 3) (fld w 16 5) (fld w 10 6) (fld w 6 4) (fld w 0 6))
  | 0x10 => some (.vstp (fld w 21 3) (fld w 16 5) (fld w 10 6) (fld w 6 4) (fld w 0 6))
  | 0x14 => some (.tld (fld w 21 3) (fld w 16 5) (fld w 10 6) (fld w 6 4))
  | 0x15 => some (.tst (fld w 21 3) (fld w 16 5) (fld w 10 6) (fld w 6 4))
  | 0x16 => some (.tgath (fld w 21 3) (fld w 16 5) (fld w 10 6) (fld w 6 4) (fld w 1 5) (fld w 0 1))
  | 0x17 => some (.tscat (fld w 21 3) (fld w 16 5) (fld w 10 6) (fld w 6 4) (fld w 1 5) (fld w 0 1))
  | 0x18 => some (.tscadd (fld w 21 3) (fld w 16 5) (fld w 10 6) (fld w 6 4) (fld w 1 5) (fld w 0 1))
  | 0x20 => some (.aadd (fld w 21 3) (fld w 15 6) (fld w 9 6) (fld w 3 6) (fld w 0 3))
  | 0x21 => some (.aaddw (fld w 21 3) (fld w 15 6) (fld w 9 6) (fld w 3 6) (fld w 0 3))
  | 0x22 => some (.afadd (fld w 21 3) (fld w 15 6) (fld w 9 6) (fld w 3 6) (fld w 0 3))
  | 0x23 => some (.adadd (fld w 21 3) (fld w 15 6) (fld w 9 6) (fld w 3 6) (fld w 0 3))
  | 0x24 => some (.amax (fld w 21 3) (fld w 15 6) (fld w 9 6) (fld w 3 6) (fld w 0 3))
  | 0x25 => some (.amin (fld w 21 3) (fld w 15 6) (fld w 9 6) (fld w 3 6) (fld w 0 3))
  | 0x26 => some (.aor (fld w 21 3) (fld w 15 6) (fld w 9 6) (fld w 3 6) (fld w 0 3))
  | 0x27 => some (.aand (fld w 21 3) (fld w 15 6) (fld w 9 6) (fld w 3 6) (fld w 0 3))
  | 0x28 => some (.axchg (fld w 21 3) (fld w 15 6) (fld w 9 6) (fld w 3 6) (fld w 0 3))
  | 0x29 => some (.acas (fld w 21 3) (fld w 15 6) (fld w 9 6) (fld w 3 6) (fld w 0 3))
  | 0x30 => some (.fence (fld w 21 3) (fld w 5 16) (fld w 0 5))
  | 0x31 => some (.waitm (fld w 21 3) (fld w 15 6) (fld w 9 6) (fld w 3 6) (fld w 0 3))
  | 0x38 => if fld w 0 3 = 0 then some (.cpy (fld w 21 3) (fld w 15 6) (fld w 9 6) (fld w 3 6)) else if fld w 0 3 = 1 then some (.cpyZero (fld w 21 3) (fld w 15 6) (fld w 3 6)) else none
  | 0x39 => some (.cpyq (fld w 21 3) (fld w 15 6) (fld w 9 6) (fld w 3 6))
  | 0x3a => if fld w 0 3 = 0 then some (.qpop (fld w 21 3) (fld w 18 3) (fld w 12 6)) else if fld w 0 3 = 1 then some (.qpopBind (fld w 21 3) (fld w 18 3) (fld w 12 6)) else none
  | 0x3b => some (.qstat (fld w 21 3) (fld w 18 3) (fld w 12 6))
  | 0x3c => some (.sbar (fld w 21 3) (fld w 5 16) (fld w 0 5))
  | 0x3d => some (.rinv (fld w 21 3) (fld w 15 6) (fld w 9 6) (fld w 3 6) (fld w 0 3))
  | 0x3e => some (.rflush (fld w 21 3) (fld w 15 6) (fld w 9 6) (fld w 3 6) (fld w 0 3))
  | 0x3f => some (.resv (fld w 21 3) (fld w 15 6) (fld w 9 6) (fld w 3 6) (fld w 0 3))
  | 0x40 => if fld w 0 3 = 0 then some (.rrel (fld w 21 3) (fld w 15 6)) else if fld w 0 3 = 1 then some (.rrelAll (fld w 21 3)) else none
  | 0x48 => movpRow w
  | 0x49 => some (.movfp (fld w 21 3) (fld w 13 8) (fld w 7 6))
  | 0x4a => if fld w 0 3 = 0 then some (.qpush (fld w 21 3) (fld w 18 3) (fld w 12 6)) else if fld w 0 3 = 1 then some (.qpushBind (fld w 21 3) (fld w 18 3) (fld w 12 6)) else none
  | _ => none

/-- The word of a slot operation, from the field maps (R78, R79, R87, R90, R95 to R98). Event rows have no word. -/
def encode (i : Instr) : W32 :=
  match i with
  | .nop e => 0x00000000 ||| put e 31
  | .add e g d a b f => 0x01000000 ||| put e 31 ||| put g 21 ||| put d 15 ||| put a 9 ||| put b 3 ||| put f 0
  | .sub e g d a b f => 0x02000000 ||| put e 31 ||| put g 21 ||| put d 15 ||| put a 9 ||| put b 3 ||| put f 0
  | .and e g d a b => 0x03000000 ||| put e 31 ||| put g 21 ||| put d 15 ||| put a 9 ||| put b 3
  | .or e g d a b => 0x04000000 ||| put e 31 ||| put g 21 ||| put d 15 ||| put a 9 ||| put b 3
  | .xor e g d a b => 0x05000000 ||| put e 31 ||| put g 21 ||| put d 15 ||| put a 9 ||| put b 3
  | .andn e g d a b => 0x06000000 ||| put e 31 ||| put g 21 ||| put d 15 ||| put a 9 ||| put b 3
  | .shl e g d a b f => 0x07000000 ||| put e 31 ||| put g 21 ||| put d 15 ||| put a 9 ||| put b 3 ||| put f 0
  | .shr e g d a b f => 0x08000000 ||| put e 31 ||| put g 21 ||| put d 15 ||| put a 9 ||| put b 3 ||| put f 0
  | .sar e g d a b f => 0x09000000 ||| put e 31 ||| put g 21 ||| put d 15 ||| put a 9 ||| put b 3 ||| put f 0
  | .rot e g d a b f => 0x0a000000 ||| put e 31 ||| put g 21 ||| put d 15 ||| put a 9 ||| put b 3 ||| put f 0
  | .mul e g d a b f => 0x0b000000 ||| put e 31 ||| put g 21 ||| put d 15 ||| put a 9 ||| put b 3 ||| put f 0
  | .div e g d a b f => 0x0c000000 ||| put e 31 ||| put g 21 ||| put d 15 ||| put a 9 ||| put b 3 ||| put f 0
  | .min e g d a b f => 0x0d000000 ||| put e 31 ||| put g 21 ||| put d 15 ||| put a 9 ||| put b 3 ||| put f 0
  | .max e g d a b f => 0x0e000000 ||| put e 31 ||| put g 21 ||| put d 15 ||| put a 9 ||| put b 3 ||| put f 0
  | .bitc e g d a f => 0x0f000000 ||| put e 31 ||| put g 21 ||| put d 15 ||| put a 9 ||| put f 0
  | .addi e g d a i => 0x10000000 ||| put e 31 ||| put g 21 ||| put d 15 ||| put a 9 ||| put i 0
  | .andi e g d a i => 0x11000000 ||| put e 31 ||| put g 21 ||| put d 15 ||| put a 9 ||| put i 0
  | .ori e g d a i => 0x12000000 ||| put e 31 ||| put g 21 ||| put d 15 ||| put a 9 ||| put i 0
  | .xori e g d a i => 0x13000000 ||| put e 31 ||| put g 21 ||| put d 15 ||| put a 9 ||| put i 0
  | .shli e g d a i => 0x14000000 ||| put e 31 ||| put g 21 ||| put d 15 ||| put a 9 ||| put i 0
  | .shri e g d a i => 0x15000000 ||| put e 31 ||| put g 21 ||| put d 15 ||| put a 9 ||| put i 0
  | .sari e g d a i => 0x16000000 ||| put e 31 ||| put g 21 ||| put d 15 ||| put a 9 ||| put i 0
  | .muli e g d a i => 0x17000000 ||| put e 31 ||| put g 21 ||| put d 15 ||| put a 9 ||| put i 0
  | .li e g d i => 0x18000000 ||| put e 31 ||| put g 21 ||| put d 15 ||| put i 0
  | .lis e g d i => 0x19000000 ||| put e 31 ||| put g 21 ||| put d 15 ||| put i 0
  | .addpc e g d i => 0x1a000000 ||| put e 31 ||| put g 21 ||| put d 15 ||| put i 0
  | .cmp e g p a b c => 0x20000000 ||| put e 31 ||| put g 21 ||| put p 14 ||| put a 8 ||| put b 2 ||| put c 0
  | .cmpu e g p a b c => 0x21000000 ||| put e 31 ||| put g 21 ||| put p 14 ||| put a 8 ||| put b 2 ||| put c 0
  | .cmpi e g p a i c => 0x22000000 ||| put e 31 ||| put g 21 ||| put p 14 ||| put a 8 ||| put i 2 ||| put c 0
  | .pfrom e g p a => 0x23000000 ||| put e 31 ||| put g 21 ||| put p 14 ||| put a 8
  | .br e g d => 0x30000000 ||| put e 31 ||| put g 21 ||| put d 0
  | .call e g d => 0x31000000 ||| put e 31 ||| put g 21 ||| put d 0
  | .brb e g k => 0x32000000 ||| put e 31 ||| put g 21 ||| put k 18
  | .ret e g => 0x33000000 ||| put e 31 ||| put g 21
  | .lbt e g k d => 0x34000000 ||| put e 31 ||| put g 21 ||| put k 18 ||| put d 0
  | .movb e g k s f => 0x35000000 ||| put e 31 ||| put g 21 ||| put k 9 ||| put s 3 ||| put f 0
  | .loop e g c i => 0x36000000 ||| put e 31 ||| put g 21 ||| put c 15 ||| put i 0
  | .csrd e g r s => 0x40000000 ||| put e 31 ||| put g 21 ||| put r 9 ||| put s 3
  | .cswr e g r s => 0x41000000 ||| put e 31 ||| put g 21 ||| put r 9 ||| put s 3
  | .mpset e g m s => 0x42000000 ||| put e 31 ||| put g 21 ||| put m 9 ||| put s 3
  | .tcset e g t s => 0x43000000 ||| put e 31 ||| put g 21 ||| put t 9 ||| put s 3
  | .tcget e g t s => 0x44000000 ||| put e 31 ||| put g 21 ||| put t 9 ||| put s 3
  | .yield e g => 0x45000000 ||| put e 31 ||| put g 21
  | .exit e g => 0x46000000 ||| put e 31 ||| put g 21
  | .trap e g c => 0x47000000 ||| put e 31 ||| put g 21 ||| put c 0
  | .sysc e g c => 0x48000000 ||| put e 31 ||| put g 21 ||| put c 0
  | .brk e g c => 0x49000000 ||| put e 31 ||| put g 21 ||| put c 0
  | .grow e g d a => 0x4a000000 ||| put e 31 ||| put g 21 ||| put d 15 ||| put a 9
  | .bar e g n => 0x4b000000 ||| put e 31 ||| put g 21 ||| put n 9
  | .barW e g n => 0x4b000001 ||| put e 31 ||| put g 21 ||| put n 9
  | .barAw e g n => 0x4b000002 ||| put e 31 ||| put g 21 ||| put n 9
  | .rfe e g => 0x4c000000 ||| put e 31 ||| put g 21
  | .savec e g m s => 0x4d000000 ||| put e 31 ||| put g 21 ||| put m 9 ||| put s 3
  | .loadc e g m s => 0x4e000000 ||| put e 31 ||| put g 21 ||| put m 9 ||| put s 3
  | .hdrT e h q b x y z => 0x7f800000 ||| put e 31 ||| put h 20 ||| put q 15 ||| put b 12 ||| put x 9 ||| put y 6 ||| put z 3
  | .vnop => 0x00000000
  | .vadd q g d a b m => 0x02000000 ||| put q 24 ||| put g 21 ||| put d 16 ||| put a 11 ||| put b 6 ||| put m 0
  | .vsub q g d a b m => 0x04000000 ||| put q 24 ||| put g 21 ||| put d 16 ||| put a 11 ||| put b 6 ||| put m 0
  | .vmul q g d a b m => 0x06000000 ||| put q 24 ||| put g 21 ||| put d 16 ||| put a 11 ||| put b 6 ||| put m 0
  | .vmin q g d a b m => 0x08000000 ||| put q 24 ||| put g 21 ||| put d 16 ||| put a 11 ||| put b 6 ||| put m 0
  | .vmax q g d a b m => 0x0a000000 ||| put q 24 ||| put g 21 ||| put d 16 ||| put a 11 ||| put b 6 ||| put m 0
  | .vand q g d a b => 0x0c000000 ||| put q 24 ||| put g 21 ||| put d 16 ||| put a 11 ||| put b 6
  | .vor q g d a b => 0x0e000000 ||| put q 24 ||| put g 21 ||| put d 16 ||| put a 11 ||| put b 6
  | .vxor q g d a b => 0x10000000 ||| put q 24 ||| put g 21 ||| put d 16 ||| put a 11 ||| put b 6
  | .vshl q g d a b => 0x12000000 ||| put q 24 ||| put g 21 ||| put d 16 ||| put a 11 ||| put b 6
  | .vshr q g d a b => 0x14000000 ||| put q 24 ||| put g 21 ||| put d 16 ||| put a 11 ||| put b 6
  | .vsar q g d a b => 0x16000000 ||| put q 24 ||| put g 21 ||| put d 16 ||| put a 11 ||| put b 6
  | .vadds q g d a s m => 0x18000000 ||| put q 24 ||| put g 21 ||| put d 16 ||| put a 11 ||| put s 5 ||| put m 0
  | .vmuls q g d a s m => 0x1a000000 ||| put q 24 ||| put g 21 ||| put d 16 ||| put a 11 ||| put s 5 ||| put m 0
  | .vli q g d i => 0x1c000000 ||| put q 24 ||| put g 21 ||| put d 16 ||| put i 0
  | .vfadd q g d a b => 0x20000000 ||| put q 24 ||| put g 21 ||| put d 16 ||| put a 11 ||| put b 6
  | .vfsub q g d a b => 0x22000000 ||| put q 24 ||| put g 21 ||| put d 16 ||| put a 11 ||| put b 6
  | .vfmul q g d a b => 0x24000000 ||| put q 24 ||| put g 21 ||| put d 16 ||| put a 11 ||| put b 6
  | .vfma q g d a b c m => 0x26000000 ||| put q 24 ||| put g 21 ||| put d 16 ||| put a 11 ||| put b 6 ||| put c 1 ||| put m 0
  | .vfmin q g d a b m => 0x28000000 ||| put q 24 ||| put g 21 ||| put d 16 ||| put a 11 ||| put b 6 ||| put m 0
  | .vfmax q g d a b m => 0x2a000000 ||| put q 24 ||| put g 21 ||| put d 16 ||| put a 11 ||| put b 6 ||| put m 0
  | .vfrcp q g d a => 0x2c000000 ||| put q 24 ||| put g 21 ||| put d 16 ||| put a 11
  | .vfrsq q g d a => 0x2e000000 ||| put q 24 ||| put g 21 ||| put d 16 ||| put a 11
  | .vfexp2 q g d a => 0x30000000 ||| put q 24 ||| put g 21 ||| put d 16 ||| put a 11
  | .vflog2 q g d a => 0x32000000 ||| put q 24 ||| put g 21 ||| put d 16 ||| put a 11
  | .vcvt q g d a m => 0x34000000 ||| put q 24 ||| put g 21 ||| put d 16 ||| put a 11 ||| put m 0
  | .vfclass q g d a m => 0x36000000 ||| put q 24 ||| put g 21 ||| put d 16 ||| put a 11 ||| put m 0
  | .vdadd q g d a b m => 0x40000000 ||| put q 24 ||| put g 21 ||| put d 16 ||| put a 11 ||| put b 6 ||| put m 0
  | .vdmul q g d a b => 0x42000000 ||| put q 24 ||| put g 21 ||| put d 16 ||| put a 11 ||| put b 6
  | .vdmax q g d a b m => 0x44000000 ||| put q 24 ||| put g 21 ||| put d 16 ||| put a 11 ||| put b 6 ||| put m 0
  | .vdcvt q g d a m => 0x46000000 ||| put q 24 ||| put g 21 ||| put d 16 ||| put a 11 ||| put m 0
  | .vdscl q g d a s => 0x48000000 ||| put q 24 ||| put g 21 ||| put d 16 ||| put a 11 ||| put s 5
  | .vperm q g d a b m => 0x60000000 ||| put q 24 ||| put g 21 ||| put d 16 ||| put a 11 ||| put b 6 ||| put m 0
  | .vnib q g d a m => 0x62000000 ||| put q 24 ||| put g 21 ||| put d 16 ||| put a 11 ||| put m 0
  | .vshuf q g d a b m => 0x64000000 ||| put q 24 ||| put g 21 ||| put d 16 ||| put a 11 ||| put b 6 ||| put m 0
  | .vbcast q g d s m => 0x66000000 ||| put q 24 ||| put g 21 ||| put d 16 ||| put s 5 ||| put m 0
  | .vmovs q g d a l m => 0x68000000 ||| put q 24 ||| put g 21 ||| put d 15 ||| put a 10 ||| put l 4 ||| put m 0
  | .vins q g d a s m => 0x6a000000 ||| put q 24 ||| put g 21 ||| put d 16 ||| put a 11 ||| put s 5 ||| put m 0
  | .viota q g d m => 0x6c000000 ||| put q 24 ||| put g 21 ||| put d 16 ||| put m 0
  | .vmov q g d a => 0x6e000000 ||| put q 24 ||| put g 21 ||| put d 16 ||| put a 11
  | .vred q g d a m => 0x70000000 ||| put q 24 ||| put g 21 ||| put d 16 ||| put a 11 ||| put m 0
  | .vscan q g d a m => 0x72000000 ||| put q 24 ||| put g 21 ||| put d 16 ||| put a 11 ||| put m 0
  | .vcmp q g p a b c => 0x74000000 ||| put q 24 ||| put g 21 ||| put p 14 ||| put a 9 ||| put b 4 ||| put c 0
  | .vfcmp q g p a b c => 0x76000000 ||| put q 24 ||| put g 21 ||| put p 14 ||| put a 9 ||| put b 4 ||| put c 0
  | .pand q g p a b => 0x78000000 ||| put q 24 ||| put g 21 ||| put p 14 ||| put a 7 ||| put b 0
  | .por q g p a b => 0x7a000000 ||| put q 24 ||| put g 21 ||| put p 14 ||| put a 7 ||| put b 0
  | .pxor q g p a b => 0x7c000000 ||| put q 24 ||| put g 21 ||| put p 14 ||| put a 7 ||| put b 0
  | .pandn q g p a b => 0x7e000000 ||| put q 24 ||| put g 21 ||| put p 14 ||| put a 7 ||| put b 0
  | .pcnt q g d a m => 0x80000000 ||| put q 24 ||| put g 21 ||| put d 15 ||| put a 8 ||| put m 0
  | .vqdeq q g d a b m => 0x90000000 ||| put q 24 ||| put g 21 ||| put d 16 ||| put a 11 ||| put b 6 ||| put m 0
  | .vqnt q g d a b m => 0x92000000 ||| put q 24 ||| put g 21 ||| put d 16 ||| put a 11 ||| put b 6 ||| put m 0
  | .vrng q g d a b m => 0x94000000 ||| put q 24 ||| put g 21 ||| put d 16 ||| put a 11 ||| put b 6 ||| put m 0
  | .xnop => 0x00000000
  | .mcall g r a => 0x02000000 ||| put g 21 ||| put r 14 ||| put a 0
  | .bch g a => 0x04000000 ||| put g 21 ||| put a 18
  | .ech g a => 0x06000000 ||| put g 21 ||| put a 18
  | .mdrain g a t n m => 0x08000000 ||| put g 21 ||| put a 18 ||| put t 13 ||| put n 5 ||| put m 0
  | .mzero g a => 0x0a000000 ||| put g 21 ||| put a 18
  | .mspill g a t h => 0x0c000000 ||| put g 21 ||| put a 18 ||| put t 13 ||| put h 0
  | .mfill g a t h => 0x0e000000 ||| put g 21 ||| put a 18 ||| put t 13 ||| put h 0
  | .mpwr g t => 0x10000000 ||| put g 21 ||| put t 13
  | .mpwrTab g t => 0x10000001 ||| put g 21 ||| put t 13
  | .mprd g t => 0x12000000 ||| put g 21 ||| put t 13
  | .mprdTab g t => 0x12000001 ||| put g 21 ||| put t 13
  | .tzero g d m => 0x20000000 ||| put g 21 ||| put d 16 ||| put m 0
  | .tcopy g d a => 0x22000000 ||| put g 21 ||| put d 16 ||| put a 11
  | .tv2t g d a i => 0x24000000 ||| put g 21 ||| put d 16 ||| put a 11 ||| put i 6
  | .tt2v g d a i => 0x26000000 ||| put g 21 ||| put d 16 ||| put a 11 ||| put i 6
  | .ckleaf g t r c => 0x40000000 ||| put g 21 ||| put t 16 ||| put r 11 ||| put c 6
  | .cknode g t r c => 0x42000000 ||| put g 21 ||| put t 16 ||| put r 11 ||| put c 6
  | .ckback g t r c => 0x44000000 ||| put g 21 ||| put t 16 ||| put r 11 ||| put c 6
  | .ckdiv g t r d => 0x46000000 ||| put g 21 ||| put t 16 ||| put r 11 ||| put d 0
  | .cksamp g t r c => 0x48000000 ||| put g 21 ||| put t 16 ||| put r 11 ||| put c 6
  | .ixwalk g d a b => 0x4a000000 ||| put g 21 ||| put d 16 ||| put a 11 ||| put b 6
  | .ixsplit g d a p => 0x4c000000 ||| put g 21 ||| put d 16 ||| put a 11 ||| put p 0
  | .asort g d a b m => 0x60000000 ||| put g 21 ||| put d 16 ||| put a 11 ||| put b 6 ||| put m 0
  | .amrg g k t s => 0x62000000 ||| put g 21 ||| put k 19 ||| put t 14 ||| put s 8
  | .cread g k t s => 0x64000000 ||| put g 21 ||| put k 19 ||| put t 14 ||| put s 8
  | .cclr g k m => 0x66000000 ||| put g 21 ||| put k 19 ||| put m 0
  | .csamp g k s => 0x68000000 ||| put g 21 ||| put k 19 ||| put s 8
  | .clpush g a n => 0x70000000 ||| put g 21 ||| put a 11 ||| put n 0
  | .clpull g d => 0x72000000 ||| put g 21 ||| put d 16
  | .clseal g n => 0x74000000 ||| put g 21 ||| put n 0
  | .clcfg g a => 0x76000000 ||| put g 21 ||| put a 11
  | .clcfgEnd g => 0x76000001 ||| put g 21
  | .mnop => 0x00000000
  | .ldd q g d b c f => 0x02000000 ||| put q 24 ||| put g 21 ||| put d 15 ||| put b 9 ||| put c 5 ||| put f 0
  | .ldw q g d b c f => 0x04000000 ||| put q 24 ||| put g 21 ||| put d 15 ||| put b 9 ||| put c 5 ||| put f 0
  | .ldwu q g d b c f => 0x06000000 ||| put q 24 ||| put g 21 ||| put d 15 ||| put b 9 ||| put c 5 ||| put f 0
  | .ldh q g d b c f => 0x08000000 ||| put q 24 ||| put g 21 ||| put d 15 ||| put b 9 ||| put c 5 ||| put f 0
  | .ldhu q g d b c f => 0x0a000000 ||| put q 24 ||| put g 21 ||| put d 15 ||| put b 9 ||| put c 5 ||| put f 0
  | .ldb q g d b c f => 0x0c000000 ||| put q 24 ||| put g 21 ||| put d 15 ||| put b 9 ||| put c 5 ||| put f 0
  | .ldbu q g d b c f => 0x0e000000 ||| put q 24 ||| put g 21 ||| put d 15 ||| put b 9 ||| put c 5 ||| put f 0
  | .std g d b c f => 0x10000000 ||| put g 21 ||| put d 15 ||| put b 9 ||| put c 5 ||| put f 0
  | .stw g d b c f => 0x12000000 ||| put g 21 ||| put d 15 ||| put b 9 ||| put c 5 ||| put f 0
  | .sth g d b c f => 0x14000000 ||| put g 21 ||| put d 15 ||| put b 9 ||| put c 5 ||| put f 0
  | .stb g d b c f => 0x16000000 ||| put g 21 ||| put d 15 ||| put b 9 ||| put c 5 ||| put f 0
  | .vld q g d b c f => 0x18000000 ||| put q 24 ||| put g 21 ||| put d 16 ||| put b 10 ||| put c 6 ||| put f 0
  | .vst g d b c f => 0x1a000000 ||| put g 21 ||| put d 16 ||| put b 10 ||| put c 6 ||| put f 0
  | .lddp q g d b c f => 0x1c000000 ||| put q 24 ||| put g 21 ||| put d 15 ||| put b 9 ||| put c 5 ||| put f 0
  | .vldp q g d b c f => 0x1e000000 ||| put q 24 ||| put g 21 ||| put d 16 ||| put b 10 ||| put c 6 ||| put f 0
  | .vstp g d b c f => 0x20000000 ||| put g 21 ||| put d 16 ||| put b 10 ||| put c 6 ||| put f 0
  | .tld g t b c => 0x28000000 ||| put g 21 ||| put t 16 ||| put b 10 ||| put c 6
  | .tst g t b c => 0x2a000000 ||| put g 21 ||| put t 16 ||| put b 10 ||| put c 6
  | .tgath g t b c i v => 0x2c000000 ||| put g 21 ||| put t 16 ||| put b 10 ||| put c 6 ||| put i 1 ||| put v 0
  | .tscat g t b c i v => 0x2e000000 ||| put g 21 ||| put t 16 ||| put b 10 ||| put c 6 ||| put i 1 ||| put v 0
  | .tscadd g t b c i v => 0x30000000 ||| put g 21 ||| put t 16 ||| put b 10 ||| put c 6 ||| put i 1 ||| put v 0
  | .aadd g d b s o => 0x40000000 ||| put g 21 ||| put d 15 ||| put b 9 ||| put s 3 ||| put o 0
  | .aaddw g d b s o => 0x42000000 ||| put g 21 ||| put d 15 ||| put b 9 ||| put s 3 ||| put o 0
  | .afadd g d b s o => 0x44000000 ||| put g 21 ||| put d 15 ||| put b 9 ||| put s 3 ||| put o 0
  | .adadd g d b s o => 0x46000000 ||| put g 21 ||| put d 15 ||| put b 9 ||| put s 3 ||| put o 0
  | .amax g d b s o => 0x48000000 ||| put g 21 ||| put d 15 ||| put b 9 ||| put s 3 ||| put o 0
  | .amin g d b s o => 0x4a000000 ||| put g 21 ||| put d 15 ||| put b 9 ||| put s 3 ||| put o 0
  | .aor g d b s o => 0x4c000000 ||| put g 21 ||| put d 15 ||| put b 9 ||| put s 3 ||| put o 0
  | .aand g d b s o => 0x4e000000 ||| put g 21 ||| put d 15 ||| put b 9 ||| put s 3 ||| put o 0
  | .axchg g d b s o => 0x50000000 ||| put g 21 ||| put d 15 ||| put b 9 ||| put s 3 ||| put o 0
  | .acas g d b s o => 0x52000000 ||| put g 21 ||| put d 15 ||| put b 9 ||| put s 3 ||| put o 0
  | .fence g m k => 0x60000000 ||| put g 21 ||| put m 5 ||| put k 0
  | .waitm g a b c f => 0x62000000 ||| put g 21 ||| put a 15 ||| put b 9 ||| put c 3 ||| put f 0
  | .cpy g a b c => 0x70000000 ||| put g 21 ||| put a 15 ||| put b 9 ||| put c 3
  | .cpyZero g a c => 0x70000001 ||| put g 21 ||| put a 15 ||| put c 3
  | .cpyq g n b c => 0x72000000 ||| put g 21 ||| put n 15 ||| put b 9 ||| put c 3
  | .qpop g n d => 0x74000000 ||| put g 21 ||| put n 18 ||| put d 12
  | .qpopBind g n d => 0x74000001 ||| put g 21 ||| put n 18 ||| put d 12
  | .qstat g n d => 0x76000000 ||| put g 21 ||| put n 18 ||| put d 12
  | .sbar g m k => 0x78000000 ||| put g 21 ||| put m 5 ||| put k 0
  | .rinv g a b c f => 0x7a000000 ||| put g 21 ||| put a 15 ||| put b 9 ||| put c 3 ||| put f 0
  | .rflush g a b c f => 0x7c000000 ||| put g 21 ||| put a 15 ||| put b 9 ||| put c 3 ||| put f 0
  | .resv g h b c f => 0x7e000000 ||| put g 21 ||| put h 15 ||| put b 9 ||| put c 3 ||| put f 0
  | .rrel g h => 0x80000000 ||| put g 21 ||| put h 15
  | .rrelAll g => 0x80000001 ||| put g 21
  | .movp g p s => 0x90000000 ||| put g 21 ||| put p 13 ||| put s 7
  | .movfp g p s => 0x92000000 ||| put g 21 ||| put p 13 ||| put s 7
  | .qpush g n d => 0x94000000 ||| put g 21 ||| put n 18 ||| put d 12
  | .qpushBind g n d => 0x94000001 ||| put g 21 ||| put n 18 ||| put d 12
  | .xfuDecode g u s => 0x90020000 ||| put g 21 ||| put u 18 ||| put s 7
  | .xfuZorder g u s => 0x90022000 ||| put g 21 ||| put u 18 ||| put s 7
  | .xfuUnz g u s => 0x90024000 ||| put g 21 ||| put u 18 ||| put s 7
  | .xfuCopy g u s => 0x90026000 ||| put g 21 ||| put u 18 ||| put s 7
  | .xfuUnpack4 g u s => 0x90028000 ||| put g 21 ||| put u 18 ||| put s 7
  | .xfuSave g u s => 0x9002a000 ||| put g 21 ||| put u 18 ||| put s 7
  | .xfuLoad g u s => 0x9002c000 ||| put g 21 ||| put u 18 ||| put s 7
  | .xfuAbort g u s => 0x9002e000 ||| put g 21 ||| put u 18 ||| put s 7
  | .hdrX e l1 l2 l3 => 0x7F000000 ||| put e 31 ||| put l1 14 ||| put l2 7 ||| put l3 0
  | .unassignedOpcode _ w => w
  | _ => 0

/-- Rows by slot. -/
def rowOf (s : Slot) (w : W32) : Option Instr :=
  match s with
  | .c => rowC w
  | .v => rowV w
  | .x => rowX w
  | .m => rowM w

/-- A slot word decodes to the row its opcode names when every bit the row does not use is zero and every field holds an
assigned value. -/
def decodeSlot (s : Slot) (w : W32) : Except DecodeError Instr :=
  match rowOf s w with
  | none => .error .unassignedOpcode
  | some i =>
    if encode i ≠ w then .error .reservedField
    else if i.wf then .ok i
    else .error .illegalValue

/-- The four slot words of a bundle, W0 in bits 31:0 (R76). -/
def slotWord (b : BitVec 128) (s : Slot) : W32 :=
  match s with
  | .c => fld b 0 32
  | .v => fld b 32 32
  | .x => fld b 64 32
  | .m => fld b 96 32

/-- The first slot, in the order W0 to W3, whose map gives the word a meaning. The table numbers a row's bits within its
slot word and does not say the slot (log 7). -/
def slotOfTableWord (w : W32) : Option (Slot × Instr) :=
  match decodeSlot .c w with
  | .ok i => some (.c, i)
  | .error _ =>
    match decodeSlot .v w with
    | .ok i => some (.v, i)
    | .error _ =>
      match decodeSlot .x w with
      | .ok i => some (.x, i)
      | .error _ =>
        match decodeSlot .m w with
        | .ok i => some (.m, i)
        | .error _ => none

/-- The instruction of a word of the opcode table. -/
def decodeTableWord (nbits w : Nat) : Option Instr :=
  (slotOfTableWord (BitVec.ofNat 32 (w % 2 ^ nbits))).map (·.2)

/-- A micro-word as the micro-operation of array `pr` (R190, R191). None where OP is unassigned: the routine ends. -/
def decodeMicro (pr : Fin 2048) (w : W64) : Option Instr :=
  let e := fld w 57 1
  match (fld w 58 6).toNat with
  | 0x00 => some (.microNop pr e)
  | 0x01 => some (.feta pr e (fld w 0 3) (fld w 3 1))
  | 0x02 => some (.fetb pr e (fld w 0 3) (fld w 3 1))
  | 0x03 => some (.mac pr e)
  | 0x04 => some (.macq pr e)
  | 0x05 => some (.zpc pr e)
  | 0x06 => some (.zacc pr e)
  | 0x07 => some (.drn pr e (fld w 0 3))
  | 0x08 => some (.setk pr e (fld w 0 16) (fld w 16 1))
  | 0x09 => some (.microLoop pr e (fld w 0 9))
  | 0x0A => some (.brz pr e (fld w 0 9))
  | 0x0B => some (.waitt pr e)
  | 0x0C => some (.sigt pr e (fld w 0 3))
  | 0x0D => some (.xpv pr e (fld w 0 1))
  | _ => none

end Sys2Proof
end

