-- ==== Sys2Proof/Config.lean ====
section
/-!
DEFINITION. What an implementation fixes and the free values: constants without a body, of which nothing can be proved
but that they are what they are (log 3, 4, 5, 6).
-/
set_option Elab.async false
namespace Sys2Proof.Config

/-- Cycles a step takes beyond its one issue cycle: stalls, transfers and arbitration, which the manual leaves to timing
(R14, R233). Applied to the free-value counter of the state (log 3). -/
opaque stepTime : Nat → Nat
/-- Symbols a DECODE has expanded when a pre-emption suspends it: anywhere in its run (R324; log 4). -/
opaque decodeProgress : Nat → Nat
/-- Nibbles that the history of a decoder state holds after LOAD, at most 128: the layout of R323 does not record it
(log 13). -/
opaque loadedHistory : Nat → Nat
/-- The device secret (R403; log 5). -/
opaque deviceSecret : BitVec 384
/-- The one-way derivation of a stage's compound identifier from the secret of the layer below and the stage's measurement, of the
device key pair from the device secret, and of the alias key pair from the last identifier (R403; log 5): its arguments are the layer,
the secret and the measurement. -/
opaque diceDerive : Nat → BitVec 384 → BitVec 384 → BitVec 384
/-- The answer of the SPDM responder, whose bytes the manual leaves to DICE certificates and signatures (R403; log 5): applied
to the request code, its parameter, the nonce, the digest of what is signed or certified, and the key that signs. -/
opaque spdmAnswer : Nat → Nat → Nat → BitVec 384 → BitVec 384 → BitVec 384
/-- Digest of the boot ROM and the fuse settings of the running part, with which measurement block 1 is extended (R402; log 5). -/
opaque romMeasurement : BitVec 384
/-- Energy coefficients in nJ of one activity, calibrated at boot (R369; log 6): 0 bundle, 1 array k-step, 2 CTU record,
3 tile transfer, 4 SRAM access. -/
opaque energyNJ : Nat → Nat
/-- The part's serial number (R27; log 6). -/
opaque serial : W64
/-- Die stepping and board revision less 1: the registers count from 1, and 0x00 is not produced (R28; log 6). -/
opaque stepping : Fin 255
opaque boardRev : Fin 255
/-- The channel a copy is queued on, applied to the free-value counter: the manual does not say which of the eight (R18, R301; log 53). -/
opaque copyChannel : Nat → Fin 8
/-- The fused minimum security version of each image (R401; log 6). -/
opaque minSvn : Nat → BitVec 16
/-- ADDR of the routine-table entries that firmware loads, 0 to 5, within block 0 (R183; log 6). -/
opaque routineAddr : Nat → BitVec 9
/-- Digest of a partition configuration (its number, clusters, VFs, general cores and save pool) as measurement block 7 takes it
(R402; log 5). -/
opaque configDigest : List (List Nat) → BitVec 384
/-- Where the promotion engine builds a large page: the machine address of a 2 MiB unit (R423; log 6). -/
opaque promoteBase : Nat → BitVec 17
/-- The DRAM row in which a kibibyte of machine memory lies, and the kibibytes of a row, both by MLOC: the manual gives no layout of rows
(R446; log 72). -/
opaque dramRow : Nat → Nat
opaque rowUnits : Nat → List Nat
/-- Where a frame that leaves a bad row is moved to: an MLOC (R446; log 72). -/
opaque movedTo : Nat → Nat
/-- The Walvo port through which requests to a position of the load-store domain go (R445, R453; log 71). -/
opaque walvoPort : Nat → Fin 32
/-- Which context of a core a Mint set binds as its stream context (R60; log 6). -/
opaque streamContext : Nat → Fin 4

end Sys2Proof.Config
end

