-- ==== Sys2Proof/Machine/Bits.lean ====
section
/-!
DEFINITION. Tables, byte memories, bit fields and lanes: the helpers every meaning uses (R4, R8).
-/
set_option Elab.async false
namespace Sys2Proof.Machine

variable {α : Type}

/-- The entry of key `k`, or the default the table stands for. -/
def tget (d : α) : Tbl α → Nat → α
  | [], _ => d
  | (j, x) :: t, k => if j = k then x else tget d t k

/-- The table with entry `v` for key `k`. -/
def tset : Tbl α → Nat → α → Tbl α
  | [], k, v => [(k, v)]
  | (j, x) :: t, k, v => if k < j then (k, v) :: (j, x) :: t else if k = j then (k, v) :: t else (j, x) :: tset t k v

/-- The table without key `k`. -/
def tdel : Tbl α → Nat → Tbl α
  | [], _ => []
  | (j, x) :: t, k => if j = k then t else (j, x) :: tdel t k

/-- `x` before the first element it may stand before. -/
def insertBy (le : α → α → Bool) (x : α) : List α → List α
  | [] => [x]
  | y :: l => if le x y then x :: y :: l else y :: insertBy le x l

/-- A list in the order of `le`, equal elements in the order they had. -/
def sortBy (le : α → α → Bool) (l : List α) : List α := l.foldr (insertBy le) []

/-- The entry of key `k`, when listed. -/
def tfind : Tbl α → Nat → Option α
  | [], _ => none
  | (j, x) :: t, k => if j = k then some x else tfind t k

/-- A byte of memory; an unlisted address reads as zero (log 1). -/
def readByte : List Host.Cell → Nat → Byte
  | [], _ => 0
  | (j, x) :: m, a => if j = a then x else readByte m a

/-- A byte written, keeping the canonical form: addresses rising, no zero listed. -/
def writeByte : List Host.Cell → Nat → Byte → List Host.Cell
  | [], a, b => if b = 0 then [] else [(a, b)]
  | (j, x) :: m, a, b =>
    if a < j then (if b = 0 then (j, x) :: m else (a, b) :: (j, x) :: m)
    else if a = j then (if b = 0 then m else (a, b) :: m)
    else (j, x) :: writeByte m a b

/-- Every address listed is above `lo`, they rise, and no listed byte is zero. -/
def memWfFrom : Nat → List Host.Cell → Bool
  | _, [] => true
  | lo, (a, b) :: m => decide (lo ≤ a) && b != 0 && memWfFrom (a + 1) m

/-- The canonical form of a byte memory. -/
def memWf (m : List Host.Cell) : Bool := memWfFrom 0 m

/-- `n` bytes from `a` upward. -/
def readBytes (m : List Host.Cell) (a : Nat) : Nat → List Byte
  | 0 => []
  | n + 1 => readByte m a :: readBytes m (a + 1) n

/-- Bytes written from `a` upward. -/
def writeBytes (m : List Host.Cell) (a : Nat) : List Byte → List Host.Cell
  | [] => m
  | b :: bs => writeBytes (writeByte m a b) (a + 1) bs

/-- The little-endian value of bytes (R4). -/
def leNat : List Byte → Nat
  | [] => 0
  | b :: bs => b.toNat + 256 * leNat bs

/-- The `n` low bytes of a value, little-endian. -/
def leBytes : Nat → Nat → List Byte
  | 0, _ => []
  | n + 1, x => BitVec.ofNat 8 x :: leBytes n (x / 256)

/-- A doubleword of memory. -/
def readDw (m : List Host.Cell) (a : Nat) : W64 := BitVec.ofNat 64 (leNat (readBytes m a 8))

/-- A doubleword written. -/
def writeDw (m : List Host.Cell) (a : Nat) (x : W64) : List Host.Cell := writeBytes m a (leBytes 8 x.toNat)

/-- Bits `lo + n - 1 : lo` (R4). -/
def bits {k : Nat} (x : BitVec k) (lo n : Nat) : BitVec n := x.extractLsb' lo n

/-- One bit as a truth value. -/
def bit {k : Nat} (x : BitVec k) (i : Nat) : Bool := x.getLsbD i

/-- `x` with bits `lo + w - 1 : lo` replaced. -/
def setBits {n w : Nat} (d : BitVec n) (lo : Nat) (x : BitVec w) : BitVec n :=
  (d &&& ~~~(((BitVec.allOnes w).setWidth n) <<< lo)) ||| (x.setWidth n <<< lo)

/-- `sext(x, n)` of R8 at 64 bits. -/
def sext64 {n : Nat} (x : BitVec n) : W64 := x.signExtend 64

/-- `zext(x, n)` of R8 at 64 bits. -/
def zext64 {n : Nat} (x : BitVec n) : W64 := x.setWidth 64

/-- `sat(x, lo, hi)` of R8. -/
def sat (x lo hi : Int) : Int := if x < lo then lo else if hi < x then hi else x

/-- A value whose `n` parts of `w` bits are given from the lowest. -/
def packNat (w : Nat) (f : Nat → Nat) : Nat → Nat
  | 0 => 0
  | n + 1 => packNat w f n + (f n % 2 ^ w) * 2 ^ (w * n)

/-- `lane(v, i)` (R8). -/
def lane (v : Vec) (i : Nat) : W32 := v.extractLsb' (32 * i) 32

/-- The vector whose lane `i` is `f i`. -/
def vecOf (f : Nat → W32) : Vec := BitVec.ofNat 2048 (packNat 32 (fun i => (f i).toNat) 64)

/-- Ducat-64 element `i`: lanes `2i` and `2i+1` (R116). -/
def elem (v : Vec) (i : Nat) : W64 := v.extractLsb' (64 * i) 64

/-- The vector whose element `i` is `f i`. -/
def vecOfElems (f : Nat → W64) : Vec := BitVec.ofNat 2048 (packNat 64 (fun i => (f i).toNat) 32)

/-- The predicate whose bit `i` is `f i`. -/
def predOf (f : Nat → Bool) : W64 := BitVec.ofNat 64 (packNat 1 (fun i => (f i).toNat) 64)

/-- Lanes of `x` where the mask is 1, of `old` elsewhere (R70). -/
def mergeLanes (mask : W64) (old x : Vec) : Vec := vecOf fun i => if bit mask i then lane x i else lane old i

/-- Byte `i` of a tile slot. -/
def tileByte (d : TileBits) (i : Nat) : Byte := d.extractLsb' (8 * i) 8

/-- The tile slot whose bytes are given from byte 0; bytes not given are zero. -/
def tileOfBytes (bs : List Byte) : TileBits := BitVec.ofNat 32768 (leNat bs)

/-- `n` bytes of a tile slot from byte `a`. -/
def tileBytes (d : TileBits) (a n : Nat) : List Byte := leBytes n (d.extractLsb' (8 * a) (8 * n)).toNat

/-- Number of 1 bits of the low `n` bits. -/
def popNat (x : Nat) : Nat → Nat
  | 0 => 0
  | n + 1 => (if x.testBit n then 1 else 0) + popNat x n

/-- Least `i < n` that satisfies `f`, searching upward from `i0` with `n` trials. -/
def leastFrom (f : Nat → Bool) (i0 : Nat) : Nat → Option Nat
  | 0 => none
  | n + 1 => if f i0 then some i0 else leastFrom f (i0 + 1) n

/-- Greatest `i < n` that satisfies `f`. -/
def greatestBelow (f : Nat → Bool) : Nat → Option Nat
  | 0 => none
  | n + 1 => if f n then some n else greatestBelow f n

/-- Ceiling division. -/
def ceilDiv (a b : Nat) : Nat := (a + b - 1) / b

end Sys2Proof.Machine
end

