-- ==== Sys2Proof/Machine/Num.lean ====
section
/-!
DEFINITION. The arithmetic promise (R115 to R139): exact values, rounding, the IEEE-style formats, Ducat-64 and Ducat-32,
integer conversions, and the correctly rounded functions of R149.
-/
set_option Elab.async false
namespace Sys2Proof.Machine

/-! ## Exact values and rounding -/

/-- A value of a binary format: NaN, an infinity, or `±m × 2^e` exactly (`m = 0` is a signed zero). -/
inductive FpVal where
  | nan (neg : Bool)
  | inf (neg : Bool)
  | fin (neg : Bool) (m : Nat) (e : Int)
  deriving DecidableEq, Repr

/-- Number of significant bits of `m`. -/
def bitLen (m : Nat) : Nat := if m = 0 then 0 else Nat.log2 m + 1

/-- `m / 2^sh` to nearest, ties to even; `sticky` says that a nonzero part below `m` was dropped (`rne`, R8). -/
def shiftRne (m : Nat) (sticky : Bool) (sh : Nat) : Nat :=
  if sh = 0 then m
  else
    let q := m / 2 ^ sh
    let r := m % 2 ^ sh
    let half := 2 ^ (sh - 1)
    if half < r || (r == half && (sticky || q % 2 == 1)) then q + 1 else q

/-- `m × 2^e` in units of `2^u`, to nearest with ties to even. -/
def toUnits (m : Nat) (e : Int) (sticky : Bool) (u : Int) : Nat :=
  if u ≤ e then m * 2 ^ (e - u).toNat else shiftRne m sticky (u - e).toNat

/-- `m × 2^e` as a signed integer in units of `2^u`, for `u ≤ e`. -/
def signedAt (neg : Bool) (m : Nat) (e u : Int) : Int :=
  let x : Int := (m * 2 ^ (e - u).toNat : Nat)
  if neg then -x else x

/-- An exact sum kept as an integer in units of `2^e`. -/
structure ExSum where
  num : Int
  e : Int
  deriving DecidableEq, Repr

/-- The exact sum of two exact sums. -/
def ExSum.add (a b : ExSum) : ExSum :=
  if a.e ≤ b.e then { num := a.num + b.num * 2 ^ (b.e - a.e).toNat, e := a.e }
  else { num := a.num * 2 ^ (a.e - b.e).toNat + b.num, e := b.e }

/-! ## IEEE-style formats (R125 to R127) -/

/-- A binary format: exponent bits and fraction bits, with bias `2^(eb-1) - 1`. -/
structure Fmt where
  eb : Nat
  fb : Nat
  deriving DecidableEq, Repr

def fp32 : Fmt := ⟨8, 23⟩
def bf16 : Fmt := ⟨8, 7⟩
def fp16 : Fmt := ⟨5, 10⟩
def fp32g : Fmt := ⟨8, 31⟩

def Fmt.bias (F : Fmt) : Nat := 2 ^ (F.eb - 1) - 1
def Fmt.expMask (F : Fmt) : Nat := 2 ^ F.eb - 1

/-- The bits of a sign, an exponent field and a fraction. -/
def Fmt.pack (F : Fmt) (neg : Bool) (rest : Nat) : Nat := (if neg then 2 ^ (F.eb + F.fb) else 0) + rest

/-- The canonical NaN with a sign: quiet, payload zero but for the top fraction bit (R125 to R127). -/
def Fmt.qnan (F : Fmt) (neg : Bool) : Nat := F.pack neg (F.expMask * 2 ^ F.fb + 2 ^ (F.fb - 1))

def Fmt.infBits (F : Fmt) (neg : Bool) : Nat := F.pack neg (F.expMask * 2 ^ F.fb)

/-- The value of an encoding. -/
def Fmt.decode (F : Fmt) (x : Nat) : FpVal :=
  let neg := x.testBit (F.eb + F.fb)
  let e := x / 2 ^ F.fb % 2 ^ F.eb
  let f := x % 2 ^ F.fb
  if e = F.expMask then (if f = 0 then .inf neg else .nan neg)
  else if e = 0 then .fin neg f (1 - (F.bias : Int) - F.fb)
  else .fin neg (2 ^ F.fb + f) ((e : Int) - F.bias - F.fb)

/-- `±m × 2^e` (plus a dropped part when `sticky`) rounded into the format: the encoding, and whether a finite value
became an infinity (R130). What lies between half the smallest subnormal and the whole of it rounds up to it: gradual underflow, and not
the zero of R130's other clause (log 54). -/
def Fmt.round (F : Fmt) (neg : Bool) (m : Nat) (e : Int) (sticky : Bool) : Nat × Bool :=
  if m = 0 then (F.pack neg 0, false)
  else
    let top : Int := e + bitLen m - 1
    let emin : Int := 1 - (F.bias : Int)
    let base : Int := if emin ≤ top then top else emin
    let q := toUnits m e sticky (base - F.fb)
    let rest := if emin ≤ top then ((top + F.bias).toNat - 1) * 2 ^ F.fb + q else q
    if F.expMask * 2 ^ F.fb ≤ rest then (F.infBits neg, true) else (F.pack neg rest, false)

/-- A value narrowed into the format, a NaN to the canonical NaN with its sign (R130). -/
def Fmt.encode (F : Fmt) (v : FpVal) : Nat × Bool :=
  match v with
  | .nan neg => (F.qnan neg, false)
  | .inf neg => (F.infBits neg, false)
  | .fin neg m e => F.round neg m e false

/-- The exact sum of two finite values, with the sign of an exact zero under round to nearest (R125). -/
def finAdd (n1 : Bool) (m1 : Nat) (e1 : Int) (n2 : Bool) (m2 : Nat) (e2 : Int) : FpVal :=
  let u := min e1 e2
  let t := signedAt n1 m1 e1 u + signedAt n2 m2 e2 u
  if t = 0 then .fin (n1 && n2) 0 0 else .fin (decide (t < 0)) t.natAbs u

/-- Exact IEEE addition of two values that are no NaN; the canonical NaN for opposite infinities. -/
def FpVal.add (a b : FpVal) : FpVal :=
  match a, b with
  | .nan s, _ => .nan s
  | _, .nan s => .nan s
  | .inf x, .inf y => if x = y then .inf x else .nan false
  | .inf x, .fin .. => .inf x
  | .fin .., .inf y => .inf y
  | .fin n1 m1 e1, .fin n2 m2 e2 => finAdd n1 m1 e1 n2 m2 e2

/-- Exact IEEE multiplication; the canonical NaN for zero by infinity. -/
def FpVal.mul (a b : FpVal) : FpVal :=
  match a, b with
  | .nan s, _ => .nan s
  | _, .nan s => .nan s
  | .inf x, .inf y => .inf (x != y)
  | .inf x, .fin y m _ => if m = 0 then .nan false else .inf (x != y)
  | .fin x m _, .inf y => if m = 0 then .nan false else .inf (x != y)
  | .fin n1 m1 e1, .fin n2 m2 e2 => .fin (n1 != n2) (m1 * m2) (e1 + e2)

def FpVal.neg : FpVal → FpVal
  | .nan s => .nan (!s)
  | .inf s => .inf (!s)
  | .fin s m e => .fin (!s) m e

def FpVal.isNan : FpVal → Bool
  | .nan _ => true
  | _ => false

/-- Order of values that are no NaN, ±0 equal: negative, zero or positive difference. -/
def FpVal.cmp (a b : FpVal) : Int :=
  match a, b with
  | .nan _, _ => 0
  | _, .nan _ => 0
  | .inf x, .inf y => (if x then -1 else 1) - (if y then -1 else 1)
  | .inf x, .fin .. => if x then -1 else 1
  | .fin .., .inf y => if y then 1 else -1
  | .fin n1 m1 e1, .fin n2 m2 e2 => let u := min e1 e2; signedAt n1 m1 e1 u - signedAt n2 m2 e2 u

/-! ## FP32 operations (R125, R146 to R149) -/

def f32 (x : W32) : FpVal := fp32.decode x.toNat
def toF32 (v : FpVal) : W32 := BitVec.ofNat 32 (fp32.encode v).1
def isNan32 (x : W32) : Bool := (f32 x).isNan
/-- A NaN operand, quieted (R125). -/
def quiet32 (x : W32) : W32 := x ||| 0x00400000
def canonNan32 : W32 := 0x7FC00000

/-- A result of two operands: the first NaN in operand order quieted, 0x7FC0_0000 where the operation makes the NaN. -/
def binF32 (op : FpVal → FpVal → FpVal) (a b : W32) : W32 :=
  if isNan32 a then quiet32 a
  else if isNan32 b then quiet32 b
  else
    match op (f32 a) (f32 b) with
    | .nan _ => canonNan32
    | v => toF32 v

/-- VFADD, VFSUB, VFMUL of one lane (R146). -/
def fadd (a b : W32) : W32 := binF32 FpVal.add a b
def fsub (a b : W32) : W32 := binF32 (fun x y => x.add y.neg) a b
def fmul (a b : W32) : W32 := binF32 FpVal.mul a b

/-- VFMA of one lane: one rounding of the exact product and sum (R147). -/
def ffma (negProduct : Bool) (a b c : W32) : W32 :=
  if isNan32 a then quiet32 a
  else if isNan32 b then quiet32 b
  else if isNan32 c then quiet32 c
  else
    let p := (f32 a).mul (f32 b)
    let p := if negProduct then p.neg else p
    match p with
    | .nan _ => canonNan32
    | p => match p.add (f32 c) with
      | .nan _ => canonNan32
      | v => toF32 v

/-- Order of FP32 values with −0 below +0 (R148). -/
def flt148 (a b : W32) : Bool :=
  let c := (f32 a).cmp (f32 b)
  c < 0 || (c == 0 && bit a 31 && !bit b 31)

/-- VFMIN and VFMAX of one lane (R148). -/
def fminmax (isMax propagate : Bool) (a b : W32) : W32 :=
  if propagate then
    if isNan32 a then quiet32 a else if isNan32 b then quiet32 b
    else if isMax then (if flt148 a b then b else a) else (if flt148 b a then b else a)
  else if isNan32 a then (if isNan32 b then quiet32 a else b)
  else if isNan32 b then a
  else if isMax then (if flt148 a b then b else a) else (if flt148 b a then b else a)

/-- The relations of VFCMP: 0 eq, 1 ne, 2 lt, 3 le, 4 gt, 5 ge, 6 un, 7 ord, from NaN and the sign of the difference
(R161). -/
def relation (cc : Nat) (nan : Bool) (c : Int) : Bool :=
  match cc with
  | 0 => !nan && c == 0
  | 1 => nan || c != 0
  | 2 => !nan && decide (c < 0)
  | 3 => !nan && decide (c ≤ 0)
  | 4 => !nan && decide (0 < c)
  | 5 => !nan && decide (0 ≤ c)
  | 6 => nan
  | _ => !nan

def fcmp32 (cc : Nat) (a b : W32) : Bool := relation cc (isNan32 a || isNan32 b) ((f32 a).cmp (f32 b))

/-- The class mask of VFCLASS (R151). -/
def fclass32 (a : W32) : W32 :=
  let s := bit a 31
  match f32 a with
  | .inf _ => if s then 1 else 0x80
  | .nan _ => if bit a 22 then 0x200 else 0x100
  | .fin _ m _ =>
    if m = 0 then (if s then 8 else 0x10)
    else if m < 2 ^ 23 then (if s then 4 else 0x20)
    else (if s then 2 else 0x40)

/-- The floor of the square root, one bit at a time. -/
def isqrtBits (n : Nat) : Nat → Nat → Nat
  | 0, r => r
  | k + 1, r => if (r + 2 ^ k) * (r + 2 ^ k) ≤ n then isqrtBits n k (r + 2 ^ k) else isqrtBits n k r

/-- VFRCP of one lane: 1/a correctly rounded (R149). -/
def frcp (a : W32) : W32 :=
  match f32 a with
  | .nan _ => quiet32 a
  | .inf s => BitVec.ofNat 32 (fp32.pack s 0)
  | .fin s m e =>
    if m = 0 then BitVec.ofNat 32 (fp32.infBits s)
    else BitVec.ofNat 32 (fp32.round s (2 ^ 80 / m) (-80 - e) (2 ^ 80 % m != 0)).1

/-- VFRSQ of one lane: 1/√a correctly rounded (R149). -/
def frsq (a : W32) : W32 :=
  match f32 a with
  | .nan _ => quiet32 a
  | .inf s => if s then canonNan32 else 0
  | .fin s m e =>
    if m = 0 then BitVec.ofNat 32 (fp32.infBits s)
    else if s then canonNan32
    else
      let odd := e % 2 != 0
      let m' := if odd then 2 * m else m
      let e' := if odd then e - 1 else e
      let n := 2 ^ 160 / m'
      let r := isqrtBits n 82 0
      BitVec.ofNat 32 (fp32.round false r (-80 - e' / 2) (r * r * m' != 2 ^ 160)).1

/-- Fixed-point one of the transcendental series: 256 fraction bits, far beyond what any FP32 case needs (log 8). -/
def fxOne : Nat := 2 ^ 256

/-- `2 × Σ z^(2k+1)/(2k+1)`, the logarithm of `(1+z)/(1-z)`, in fixed point: `p` is the current odd power. -/
def lnSeries (z2 : Nat) : Nat → Nat → Nat → Nat → Nat
  | 0, _, _, acc => 2 * acc
  | n + 1, k, p, acc => lnSeries z2 n (k + 2) (p * z2 / fxOne) (acc + p / k)

/-- ln 2 = ln((1 + 1/3)/(1 − 1/3)). -/
def fxLn2 : Nat := lnSeries (fxOne / 9) 90 1 (fxOne / 3) 0

/-- `Σ x^k/k!` in fixed point. -/
def expSeries (x : Nat) : Nat → Nat → Nat → Nat → Nat
  | 0, _, _, acc => acc
  | n + 1, k, t, acc => expSeries x n (k + 1) (t * x / (k * fxOne)) (acc + t)

/-- VFEXP2 of one lane: 2^a correctly rounded (R149; log 8). -/
def fexp2 (a : W32) : W32 :=
  match f32 a with
  | .nan _ => quiet32 a
  | .inf s => if s then 0 else BitVec.ofNat 32 (fp32.infBits false)
  | .fin s m e =>
    if m = 0 then 0x3F800000
    else if !s && decide (8 ≤ e + bitLen m) then BitVec.ofNat 32 (fp32.infBits false)
    else if s && decide (9 ≤ e + bitLen m) then 0
    else
      -- a in units of 2^-149
      let x : Int := signedAt s m e (-149)
      let i : Int := x / 2 ^ 149
      let f : Nat := (x % 2 ^ 149).toNat
      if f = 0 then BitVec.ofNat 32 (fp32.round false 1 i false).1
      else
        let y := f * 2 ^ 107 * fxLn2 / fxOne
        BitVec.ofNat 32 (fp32.round false (expSeries y 80 1 fxOne 0) (i - 256) true).1

/-- VFLOG2 of one lane: log2 a correctly rounded (R149; log 8). -/
def flog2 (a : W32) : W32 :=
  match f32 a with
  | .nan _ => quiet32 a
  | .inf s => if s then canonNan32 else a
  | .fin s m e =>
    if m = 0 then BitVec.ofNat 32 (fp32.infBits true)
    else if s then canonNan32
    else
      let l := bitLen m - 1
      let n : Int := e + l
      if m = 2 ^ l then
        BitVec.ofNat 32 (fp32.round (decide (n < 0)) n.natAbs 0 false).1
      else
        let z := (m - 2 ^ l) * fxOne / (m + 2 ^ l)
        let r : Int := n * fxOne + ((lnSeries (z * z / fxOne) 170 1 z 0 * fxOne / fxLn2 : Nat) : Int)
        BitVec.ofNat 32 (fp32.round (decide (r < 0)) r.natAbs (-256) true).1

/-! ## Conversions (R130, R150) -/

/-- Rounded to an integer, ties to even, then saturated; the flag is OVF (R130). -/
def toIntSat (v : FpVal) (lo hi : Int) : Int × Bool :=
  match v with
  | .nan _ => (0, false)
  | .inf s => (if s then lo else hi, true)
  | .fin s m e =>
    let q : Int := (toUnits m e false 0 : Nat)
    let q := if s then -q else q
    (sat q lo hi, decide (q < lo ∨ hi < q))

/-- An integer as an exact value; an exact zero is +0. -/
def ofInt (x : Int) : FpVal := .fin (decide (x < 0)) x.natAbs 0

/-- VCVT of one lane (R150). -/
def vcvtLane (mod : Nat) (a : W32) : W32 :=
  match mod with
  | 0 => toF32 (ofInt a.toInt)
  | 1 => toF32 (ofInt a.toNat)
  | 2 => BitVec.ofInt 32 (toIntSat (f32 a) (-2147483648) 2147483647).1
  | 3 => BitVec.ofInt 32 (toIntSat (f32 a) 0 4294967295).1
  | 4 => BitVec.ofNat 32 (bf16.encode (f32 a)).1
  | 5 => toF32 (bf16.decode (a.toNat % 65536))
  | 6 => BitVec.ofNat 32 (fp16.encode (f32 a)).1
  | 7 => toF32 (fp16.decode (a.toNat % 65536))
  | 8 => BitVec.ofInt 32 (toIntSat (f32 a) (-128) 127).1
  | _ => BitVec.ofInt 32 (toIntSat (f32 a) 0 255).1

/-! ## Ducat-64 and Ducat-32 (R116 to R124) -/

/-- A Ducat value: NaN keeps its word. A normal value is `(−1)^s × m × 2^(e−32)` with `2^32 ≤ m < 2^33`. -/
inductive Dk where
  | nan (w : W64)
  | inf (neg : Bool)
  | zero (neg : Bool)
  | num (neg : Bool) (e : Int) (m : Nat)
  deriving DecidableEq, Repr

def dkCanonNan : W64 := 0x4000000080000000
def dkOne : W64 := 0
def dkZero : W64 := 0x4000000000000000
def dkNegZero : W64 := 0xC000000000000000

/-- The value of a Ducat-64 word (R116, R117). -/
def dk (w : W64) : Dk :=
  let e := (bits w 32 31)
  let f := (bits w 0 32).toNat
  let s := bit w 63
  if e = 0x40000000 then (if f = 0 then .zero s else if f = 1 then .inf s else .nan w)
  else .num s e.toInt (2 ^ 32 + f)

def dkZeroS (s : Bool) : W64 := if s then dkNegZero else dkZero
def dkInfS (s : Bool) : W64 := if s then 0xC000000000000001 else 0x4000000000000001

/-- Bounds of the Ducat-64 exponent (R116). -/
def dkEmax : Int := 2 ^ 30 - 1

/-- A nonzero exact value `±m × 2^x`, plus a dropped part when `sticky`, rounded to 33 bits. An exponent out of range is
an error: true above, false below (R121). -/
def dkRound (neg : Bool) (m : Nat) (x : Int) (sticky : Bool) : Except Bool W64 :=
  let l := bitLen m
  let q := if l ≤ 33 then m * 2 ^ (33 - l) else shiftRne m sticky (l - 33)
  let e : Int := x + l - 1
  let carry := q = 2 ^ 33
  let e := if carry then e + 1 else e
  let q := if carry then 2 ^ 32 else q
  if dkEmax < e then .error true
  else if e < -dkEmax then .error false
  else .ok ((if neg then 0x8000000000000000 else 0) ||| ((BitVec.ofInt 31 e).setWidth 64 <<< 32) ||| BitVec.ofNat 64 (q - 2 ^ 32))

/-- x × y (R118). -/
def dkMul (x y : W64) : Except Bool W64 :=
  match dk x, dk y with
  | .nan w, _ => .ok w
  | _, .nan w => .ok w
  | .zero _, .inf _ => .ok dkCanonNan
  | .inf _, .zero _ => .ok dkCanonNan
  | .zero a, .zero b => .ok (dkZeroS (a != b))
  | .zero a, .num b _ _ => .ok (dkZeroS (a != b))
  | .num a _ _, .zero b => .ok (dkZeroS (a != b))
  | .inf a, .inf b => .ok (dkInfS (a != b))
  | .inf a, .num b _ _ => .ok (dkInfS (a != b))
  | .num a _ _, .inf b => .ok (dkInfS (a != b))
  | .num a e m, .num b f n => dkRound (a != b) (m * n) (e + f - 64) false

/-- The sum of two normal values whose exponents are within 100 of each other or replaced so: a smaller operand far below
contributes only to sticky (R119). -/
def dkAddNum (a : Bool) (e : Int) (m : Nat) (b : Bool) (f : Int) (n : Nat) : Except Bool W64 :=
  -- the larger exponent first
  let (a, e, m, b, f, n) := if f ≤ e then (a, e, m, b, f, n) else (b, f, n, a, e, m)
  let (f, n) := if f < e - 100 then (e - 100, 1) else (f, n)
  let t := signedAt a m e f + signedAt b n f f
  if t = 0 then .ok dkZero else dkRound (decide (t < 0)) t.natAbs (f - 32) false

/-- x + y (R119). -/
def dkAdd (x y : W64) : Except Bool W64 :=
  match dk x, dk y with
  | .nan w, _ => .ok w
  | _, .nan w => .ok w
  | .inf a, .inf b => .ok (if a = b then dkInfS a else dkCanonNan)
  | .inf a, _ => .ok (dkInfS a)
  | _, .inf b => .ok (dkInfS b)
  | .zero a, .zero b => .ok (dkZeroS (a && b))
  | .zero _, .num .. => .ok y
  | .num .., .zero _ => .ok x
  | .num a e m, .num b f n => dkAddNum a e m b f n

/-- n ÷ d by the table of R212. -/
def dkDiv (x y : W64) : Except Bool W64 :=
  match dk x, dk y with
  | .nan w, _ => .ok w
  | _, .nan w => .ok w
  | .inf _, .inf _ => .ok dkCanonNan
  | .zero _, .zero _ => .ok dkCanonNan
  | _, .zero _ => .ok dkCanonNan
  | .inf a, .num b _ _ => .ok (dkInfS (a != b))
  | .zero a, .inf b => .ok (dkZeroS (a != b))
  | .num a _ _, .inf b => .ok (dkZeroS (a != b))
  | .zero a, .num b _ _ => .ok (dkZeroS (a != b))
  | .num a e m, .num b f n => dkRound (a != b) (m * 2 ^ 80 / n) (e - f - 80) (m * 2 ^ 80 % n != 0)

/-- Sign of x − y for values that are no NaN, ±0 equal (R122). -/
def Dk.cmp (a b : Dk) : Int :=
  let key : Dk → Int × Int × Int := fun d =>
    match d with
    | .nan _ => (0, 0, 0)
    | .zero _ => (0, 0, 0)
    | .inf s => if s then (-2, 0, 0) else (2, 0, 0)
    | .num s e m => if s then (-1, -e, -(m : Int)) else (1, e, m)
  let x := key a
  let y := key b
  if x.1 ≠ y.1 then x.1 - y.1 else if x.2.1 ≠ y.2.1 then x.2.1 - y.2.1 else x.2.2 - y.2.2

def Dk.isNan : Dk → Bool
  | .nan _ => true
  | _ => false

def Dk.isZero : Dk → Bool
  | .zero _ => true
  | _ => false

/-- VDMAX and its `.min` of one element (R152). -/
def dkMinMax (isMax : Bool) (x y : W64) : W64 :=
  if (dk x).isNan then x else if (dk y).isNan then y
  else
    let c := (dk x).cmp (dk y)
    if isMax then (if c < 0 then y else x) else (if 0 < c then y else x)

def dkMax (x y : W64) : W64 := dkMinMax true x y

def dkRel (cc : Nat) (x y : W64) : Bool :=
  relation cc ((dk x).isNan || (dk y).isNan) ((dk x).cmp (dk y))

/-- The class mask of VFCLASS.dk (R151): SNAN bit 8 is never set. -/
def dkClass (x : W64) : W32 :=
  match dk x with
  | .nan _ => 0x200
  | .inf s => if s then 1 else 0x80
  | .zero s => if s then 8 else 0x10
  | .num s _ _ => if s then 2 else 0x40

/-- Ducat-32 widened, exactly (R123, R124). -/
def dk32Widen (x : W32) : W64 :=
  let e := bits x 16 15
  let f := bits x 0 16
  let s : W64 := (bits x 31 1).setWidth 64 <<< 63
  if e = 0x4000 then
    if f = 0 then s ||| dkZero
    else if f = 1 then s ||| 0x4000000000000001
    else s ||| dkZero ||| (f.setWidth 64 <<< 16)
  else s ||| ((e.signExtend 31).setWidth 64 <<< 32) ||| (f.setWidth 64 <<< 16)

/-- Ducat-64 narrowed to Ducat-32 (R124); an exponent out of range is an error. -/
def dk32Narrow (x : W64) : Except Bool W32 :=
  let s : W32 := (bits x 63 1).setWidth 32 <<< 31
  match dk x with
  | .zero _ => .ok (s ||| 0x40000000)
  | .inf _ => .ok (s ||| 0x40000001)
  | .nan w =>
    let f := bits w 16 16
    let f := if f = 0 ∨ f = 1 then f ||| 0x8000 else f
    .ok (s ||| 0x40000000 ||| f.setWidth 32)
  | .num _ e m =>
    let q := shiftRne m false 16
    let carry := q = 2 ^ 17
    let e := if carry then e + 1 else e
    let q := if carry then 2 ^ 16 else q
    if 2 ^ 14 - 1 < e then .error true
    else if e < -(2 ^ 14 - 1) then .error false
    else .ok (s ||| ((BitVec.ofInt 15 e).setWidth 32 <<< 16) ||| BitVec.ofNat 32 (q - 2 ^ 16))

/-- An IEEE value as Ducat-64: exact (R130). Every IEEE exponent lies within the Ducat range. -/
def dkOfFp (v : FpVal) : W64 :=
  match v with
  | .nan s => (if s then 0x8000000000000000 else 0) ||| dkCanonNan
  | .inf s => dkInfS s
  | .fin s m e => if m = 0 then dkZeroS s else (dkRound s m e false).toOption.getD dkCanonNan

/-- A Ducat-64 value as an exact value for narrowing into an IEEE format. Magnitudes beyond any IEEE range are replaced by
ones that give the same infinity or zero (R130). -/
def dkToFp (x : W64) : FpVal :=
  match dk x with
  | .nan w => .nan (bit w 63)
  | .inf s => .inf s
  | .zero s => .fin s 0 0
  | .num s e m => .fin s m ((if 2000 < e then 2000 else if e < -2000 then -2000 else e) - 32)

/-- The exact integer as Ducat-64. -/
def dkOfNat (n : Nat) : W64 := if n = 0 then dkZero else (dkRound false n 0 false).toOption.getD dkCanonNan

/-- x × 2^k exactly (R154). -/
def dkScale (x : W64) (k : Int) : Except Bool W64 :=
  match dk x with
  | .num s e m =>
    let e := e + k
    if dkEmax < e then .error true else if e < -dkEmax then .error false
    else .ok ((if s then 0x8000000000000000 else 0) ||| ((BitVec.ofInt 31 e).setWidth 64 <<< 32) ||| BitVec.ofNat 64 (m - 2 ^ 32))
  | _ => .ok x

/-! ## Trees and scans (R134 to R136) -/

/-- One level of the pairwise tree: neighbours combined, the lower index first. -/
def treeLevel {β : Type} (op : β → β → β) : List β → List β
  | a :: b :: t => op a b :: treeLevel op t
  | l => l

/-- The pairwise tree of R134 over a list whose length is a power of two: `n` levels. -/
def treeFold {β : Type} (op : β → β → β) : Nat → List β → List β
  | 0, l => l
  | n + 1, l => treeFold op n (treeLevel op l)

/-- One level of the inclusive scan of R135 with distance `d`. -/
def scanLevel {β : Type} (op : β → β → β) (d : Nat) (l : List β) : List β :=
  l.take d ++ (l.zip (l.drop d)).map (fun p => op p.1 p.2)

/-- The inclusive scan of R135: levels `d`, `2d`, …, `n` of them. -/
def scanFold {β : Type} (op : β → β → β) : Nat → Nat → List β → List β
  | 0, _, l => l
  | n + 1, d, l => scanFold op n (2 * d) (scanLevel op d l)

/-- A level of the tree of R136: absent entries pass their partner through. -/
def treeLevelOpt {β ε : Type} (op : β → β → Except ε β) : List (Option β) → Except ε (List (Option β))
  | a :: b :: t => do
    let x ← match a, b with
      | none, b => pure b
      | a, none => pure a
      | some x, some y => (op x y).map some
    let r ← treeLevelOpt op t
    pure (x :: r)
  | l => pure l

/-- The fixed tree over child positions (R136): `n` levels over `2^n` positions. -/
def treeFoldOpt {β ε : Type} (op : β → β → Except ε β) : Nat → List (Option β) → Except ε (List (Option β))
  | 0, l => pure l
  | n + 1, l => do treeFoldOpt op n (← treeLevelOpt op l)

/-! ## The counter-based generator (R166) -/

def rotl32 (x : W32) (n : Nat) : W32 := (x <<< n) ||| (x >>> (32 - n))

/-- Rotations of the ten rounds. -/
def rngRot : List Nat := [7, 19, 11, 24, 5, 28, 14, 9, 21, 3]

/-- Rounds `j` upward over the rotations left: the pair (x, y). -/
def rngRounds (k : Nat → W32) : Nat → List Nat → W32 × W32 → W32 × W32
  | _, [], p => p
  | j, r :: rs, (x, y) =>
    let x := x + y
    let y := rotl32 y r ^^^ x
    let p := if j % 2 = 1 then
        let h := (j + 1) / 2
        (x + k (h % 3), y + k ((h + 1) % 3) + BitVec.ofNat 32 h)
      else (x, y)
    rngRounds k (j + 1) rs p

/-- The two words of the generator for a key and two counters. -/
def rng (key : W64) (a b : W32) : W32 × W32 :=
  let k0 := bits key 0 32
  let k1 := bits key 32 32
  let k2 : W32 := k0 ^^^ k1 ^^^ 0x5A3C96E1
  let k : Nat → W32 := fun i => if i = 0 then k0 else if i = 1 then k1 else k2
  rngRounds k 0 rngRot (a + k0, b + k1)

end Sys2Proof.Machine
end

