-- ==== Sys2Proof/Machine/State.lean ====
section
/-!
DEFINITION. The state of the module as plain data: everything the manual gives it (INVENTORY.md, State), the reasons a
step can stop, and the state right after reset. A table (`Tbl`) that lists no entry for a key stands for the entry's
stated default: a register file listing nothing holds zeros (R362).
-/
set_option Elab.async false
namespace Sys2Proof.Machine

/-- Why the machine stops: it has no reason to. Every trap and freeze of a context is a next state, and every misuse has a fate
(R11), so that nothing raises one of these. -/
inductive Fault where
  deriving DecidableEq, Repr

/-- Why an instruction has no meaning here. -/
inductive Refusal where
  /-- The instruction has no meaning yet. Raised by an arm of `exec`. Safe. -/
  | notModelled (mnemonic : String)
  deriving DecidableEq, Repr

/-- Bytes by address, in canonical form: addresses strictly rising, no zero byte listed. -/
abbrev Memory := List Host.Cell

/-- What a blocked context waits for, with the codes of R439. A TT2V that waits for its tile (`tileRead`, the code of an empty
tile) holds an entry of the tile unit's queue (R172). -/
inductive Wait where
  | emptyTile | tileRead | emptyStream | fullQueue | waitm | bar
  deriving DecidableEq, Repr

/-- What a context is doing (R40, R41, R373, R393, R431). -/
inductive Run where
  | idle | ready | blocked (w : Wait) | frozen (cause : Nat) | frameWait | saved | exited
  deriving DecidableEq, Repr

/-- The destination of an exposed-latency result (R46, R432). A CK instruction in flight (R207, R433) counts as one and
records its opcode, record count, node size, lowest and highest tagged scratch offset and the absolute bundles at which
the tags of its records clear. -/
inductive Dest where
  | s (n : Nat) | v (n : Nat) | p (n : Nat) | b (n : Nat) | mp (n : Nat) | tc (n : Nat)
  | ck (op count z lo hi : Nat) (clears : List Nat)
  deriving DecidableEq, Repr

/-- A result in flight: it lands at the start of bundle `due` of its context (R54). -/
structure Flight where
  dest : Dest
  val : Vec
  mask : W64
  due : Nat
  squash : Bool
  poison : Option W64
  deriving DecidableEq, Repr

/-- A snapshot entry (R432). `info` is the TRAPINFO a poisoned value raises; `squash` is the Q bit, which a replayed result
keeps (R426) and a loaded one has not. -/
structure Snap where
  kind : Nat
  index : Nat
  dist : Nat
  poison : Bool
  mask : W64
  val : Vec
  info : W64
  squash : Bool
  deriving DecidableEq, Repr

/-- A name that a bundle reads or writes, for R100 and R101. -/
inductive Name where
  | s (n : Nat) | v (n : Nat) | p (n : Nat) | b (n : Nat) | mp (n : Nat) | tc (n : Nat) | csr (n : Nat)
  | tile (n : Nat) | stream (n : Nat) | cand (n : Nat) | bank (n : Nat)
  deriving DecidableEq, Repr

/-- Where the bytes of an access stand: device-physical memory seen from a segment's base through a view (R240), a context's
scratch, a group's cluster SRAM, the Mint window of a context's die. -/
inductive Place where
  | dp (base : Nat) (lay : Bool) (off : Nat)
  | scratch (g off : Nat)
  | csram (grp off : Nat)
  | mint (g off : Nat)
  deriving DecidableEq, Repr

/-- One sector of an access, translated. -/
structure Sector where
  va : Nat
  n : Nat
  place : Place
  coh : Option Nat
  demoted : Option Nat
  deriving DecidableEq, Repr

/-- A candidate register (R218). Entry `i` is key in bits 31:0 and value in bits 63:32. -/
structure Cand where
  count : Nat
  ty : Nat
  entries : List W64
  deriving DecidableEq, Repr

/-- A copy that feeds a stream: the sectors its engine has not read yet (R302), its class and its place in program order. -/
structure StreamCopy where
  src : List Sector
  oc : Nat
  seq : Nat
  deriving DecidableEq, Repr

/-- A stream register's binding (R302, R304). -/
inductive Binding where
  | unbound
  | copies
  | consumer (off : Nat) (lcap : Nat)
  | producer (off : Nat) (lcap : Nat)
  deriving DecidableEq, Repr

/-- A stream register: its binding, the copies still to deliver, and the arrived elements (at most 64). -/
structure Stream where
  binding : Binding
  pending : List StreamCopy
  arrived : List (W64 × Option W64)
  deriving DecidableEq, Repr

/-- A tensor handle (R248): virtual base, length, priority. -/
structure Handle where
  base : Nat
  len : Nat
  prio : Nat
  deriving DecidableEq, Repr

/-- A line of a stash or die cache (R233, R248, R249): line number of device-physical space, valid sectors, the handle
(owning context and number) that binds it, its priority and the moment of its last touch. -/
structure Line where
  line : Nat
  sectors : BitVec 8
  handle : Option (Nat × Nat)
  prio : Nat
  touch : Nat
  deriving DecidableEq, Repr

/-- A fence marker that has not retired (R297): class mask, scope, and its place in the program order of the context's memory
operations. -/
structure FenceMark where
  mask : BitVec 16
  scope : Nat
  seq : Nat
  deriving DecidableEq, Repr

/-- A range operation under way (R306): the barrier object to raise, the frame that holds it, which is pinned (R238), and the
operation's place in program order. -/
structure RangeOp where
  flush : Bool
  base : Nat
  len : Nat
  scope : Nat
  object : Nat
  seq : Nat
  deriving DecidableEq, Repr

/-- What has been issued and does not perform before something earlier has (R255, R262, R297): a store of bytes, a push into a ring
(R304), an arrival on a barrier slot, an EXIT's leaving of the participants (R346). -/
inductive Late where
  | store (l : List (Place × List Byte))
  | push (grp off lcap : Nat) (val : W64)
  | arrive (bar : Nat)
  | leave
  deriving DecidableEq, Repr

/-- A delayed operation with its class and its place in program order. -/
structure Delayed where
  oc : Nat
  seq : Nat
  act : Late
  deriving DecidableEq, Repr

/-- A saved bank: its number, the states of its two accumulators, and their elements. -/
abbrev Bank := Nat × Nat × Nat × AccBits × AccBits

/-- A running operation of a transform unit (R312, R324): trigger, context, class, the slot it fills and with what, and the
results it ends with. Of a DECODE it keeps the header, the block, the code lengths, how many nibbles are carried in, where it starts or
goes on (payload bits consumed, nibbles produced, and all nibbles so far, the most recent first), and the decoder state a failure
leaves. -/
structure XfuJob where
  op : Nat
  ctx : Nat
  oc : Nat
  slot : Option Nat
  newData : TileBits
  status : BitVec 3
  zeroStatus : BitVec 3
  err : Nat
  nout : Nat
  valid : Bool
  lens : BitVec 68
  hist : BitVec 512
  histLen : Nat
  blk : List Byte := []
  hdr : W64 := 0
  runLens : BitVec 68 := 0
  carried : Nat := 0
  pos : Nat := 0
  ndone : Nat := 0
  nibs : List Nat := []
  oldLens : BitVec 68 := 0
  oldHist : BitVec 512 := 0
  oldLen : Nat := 0
  seq : Nat := 0
  frames : List Nat := []
  deriving DecidableEq, Repr

/-- A transform unit (R309 to R325): `wrote` says that the owner wrote an operand port since its last trigger; `histLen` is
how many nibbles the history holds. -/
structure Xfu where
  ports : Tbl W64
  group : Option Nat
  owner : Option Nat
  wrote : Bool
  job : Option XfuJob
  op : Nat
  err : Nat
  done : BitVec 16
  nout : Nat
  valid : Bool
  lens : BitVec 68
  hist : BitVec 512
  histLen : Nat
  deriving DecidableEq, Repr

/-- One hardware context (R45, R342, R362). A register not listed holds zero. `heldWrites` are the names written before the point at
which a handler returns, within its group (R51, R102); `memSeq` numbers memory operations in program order; `refills` and
`unitRefills` are the banks and units a resumed context has yet to get back (R181, R324); `holdBar` is the slot a `bar.aw` waits
at, `heldBar` that of an interrupted program; `stalled` says that its bundle was offered and stalls in place (R43); `watch` is the cycle
from which the watchdog counts (R438). -/
structure Ctx where
  run : Run
  pc : W64
  sregs : Tbl W64
  vregs : Tbl Vec
  pregs : Tbl W64
  bregs : Tbl W64
  mpregs : Tbl W64
  tcregs : Tbl W64
  flights : List Flight
  bundles : Nat
  groupWrites : List Name
  heldWrites : List Name
  qmr : BitVec 3
  evbase : BitVec 19
  nodebase : BitVec 19
  deroff : BitVec 23
  ckseq : W32
  rngkey : W64
  sampcfg : W64
  sampctr : W64
  faultmask : BitVec 4
  trapcause : BitVec 8
  hm : Bool
  trappc : W64
  trapinfo : W64
  trapvec : W64
  savebase : W64
  snapshot : List Snap
  stream : Bool
  vf : Nat
  part : Nat
  group : Nat
  launch : Nat
  program : Nat
  tileBase : Nat
  tileCount : Nat
  scratchSize : Nat
  stashSize : Nat
  scratch : Memory
  scratchPoison : List Nat
  tags : Tbl (Nat × Nat)
  heldTags : Tbl (Nat × Nat)
  cands : Tbl Cand
  streams : Tbl Stream
  handles : Tbl Handle
  swt : Tbl (BitVec 256)
  stash : List Line
  tickets : Tbl Nat
  holdBar : Option Nat
  heldBar : Option Nat
  memSeq : Nat
  fences : List FenceMark
  ranges : List RangeOp
  delayed : List Delayed
  refills : List Bank
  unitRefills : List (Nat × Xfu)
  stalled : Bool
  preempt : Bool
  boundaryPoison : List W64
  boundaryFreeze : Option W64
  watch : Nat
  deriving DecidableEq, Repr

/-- A tile slot (R74, R138, R139). `writers` counts the operations that still have to write it; `validAt` is the
bundle of the owning context at which VALID becomes 1; `poison` lists the poisoned 64-byte sectors of the slot (R440). -/
structure Tile where
  data : TileBits
  full : Bool
  nan : Bool
  inf : Bool
  ovf : Bool
  validAt : Nat
  valid : Bool
  writers : Nat
  poison : List Nat
  deriving DecidableEq, Repr

/-- An operation queued in a core's engine (tile unit, tile transfers, index engine, Assay unit): its effects on data are
made when it issues; `writes` are the slots that go full when it completes, with status bits NAN, INF, OVF; `frames` it pins (R238). -/
structure Job where
  ctx : Nat
  op : Nat
  oc : Nat
  writes : List (Nat × BitVec 3)
  poison : List W64
  seq : Nat := 0
  frames : List Nat := []
  deriving DecidableEq, Repr

/-- A core (R19): tile store, the context that holds issue and whether it passes it on (R42), and the engine queues. -/
structure Core where
  tiles : Tbl Tile
  issuing : Nat
  passing : Bool
  tileQ : List Job
  xferQ : List Job
  indexQ : List Job
  assayQ : List Job
  deriving DecidableEq, Repr

/-- An operation in a core's array queue (R186, R188). A tile of a call is its selector, slot, header and captured
contents; `mark` is a BCH or ECH that changes no element. -/
inductive ArrOp where
  | call (ctx acc n : Nat) (mps : List W64) (tiles : List (Nat × Nat × W64 × TileBits)) (scaleA scaleB : Option Vec) (entry : W64)
  | mark (ctx : Nat)
  | clear (ctx acc : Nat)
  | drain (ctx acc slot : Nat) (hdr : W64) (m n : Nat)
  | spill (ctx acc slot : Nat) (hdr : W64) (hi : Bool)
  | fill (ctx acc : Nat) (hdr : W64) (data : TileBits) (hi : Bool)
  | storeWrite (ctx addr : Nat) (data : TileBits)
  | tabWrite (ctx first count : Nat) (data : TileBits)
  | storeRead (ctx addr slot : Nat) (hdr : W64)
  | tabRead (ctx first count slot : Nat) (hdr : W64)
  deriving DecidableEq, Repr

/-- A micro-program call under way (R191): operands, micro-PC, K index, step count, executed words, the fetch buffers with
their shapes and group size, and the active scale half. A fetched element is its format code and bits, 32 K indices to a
row or column. `qa` and `qb` are the buffers as the last MACQ saw them, of which SQX and SX are the exact sums. `wr` are the
slots of WR that are not full yet, `stat` the status of what was written to each. -/
structure MicroRun where
  ctx : Nat
  acc : Nat
  mps : List W64
  tiles : List (Nat × Nat × W64 × TileBits)
  scaleA : Option Vec
  scaleB : Option Vec
  upc : Nat
  kidx : Nat
  kcnt : BitVec 16
  words : Nat
  faRows : Nat
  fa : List (Nat × W64)
  fbCols : Nat
  fb : List (Nat × W64)
  fbGrp : Nat
  qa : List (Nat × W64)
  qb : List (Nat × W64)
  half : BitVec 1
  wr : List Nat
  stat : Tbl (BitVec 3)
  deriving DecidableEq, Repr

/-- The matrix array of a core pair (R177 to R196). Accumulator states: 0 IDLE, 1 OPEN, 2 HELD. `owners` maps a bank to
the context that owns it. `windowB`: the running window is core B's (MODE 0). -/
structure MArray where
  acc : Tbl AccBits
  accState : Tbl Nat
  owners : Tbl Nat
  mode : BitVec 2
  cutA : Bool
  cutB : Bool
  windowB : Bool
  queueA : List ArrOp
  queueB : List ArrOp
  current : Option (Bool × ArrOp)
  micro : Option MicroRun
  store : Tbl W64
  table : Tbl W64
  deriving DecidableEq, Repr

/-- An entry of the Clearing network: key, value, stream, order of arrival (R226). -/
structure ClrEntry where
  key : W64
  val : W32
  stream : Nat
  seq : Nat
  deriving DecidableEq, Repr

/-- A Clearing session (R223 to R230): the spill area's virtual base, the frames it is pinned in, and which of them are
seen through a Z view. -/
structure Session where
  group : Nat
  spill : Option Nat
  pinned : List Nat
  zview : List Bool
  kind : Nat
  mask : BitVec 16
  sealed : BitVec 16
  pushed : BitVec 16
  last : Tbl W64
  buf : List ClrEntry
  runs : Tbl (List ClrEntry)
  spills : Nat
  nextSeq : Nat
  deriving DecidableEq, Repr

/-- A copy in the cluster's copy engine: the channel it is queued on and its place in its context's program order (R301). -/
structure CopyJob where
  ctx : Nat
  oc : Nat
  stream : Option Nat
  channel : Nat
  seq : Nat
  frames : List Nat := []
  deriving DecidableEq, Repr

/-- A cluster (R18). `frozenChannels` are the channels of its copy engine that stopped (R393). `gainDue` is the VF for which the last
quantum boundary pre-empted groups, whose gains come once it has been served (R365, R367). -/
structure Cluster where
  part : Option Nat
  closed : Bool
  image : Option Nat
  session : Option Session
  copies : List CopyJob
  frozenChannels : List Nat
  xfus : Tbl Xfu
  deficits : Tbl Int
  gainDue : Option Nat
  csramUsed : Nat
  barsUsed : Nat
  deriving DecidableEq, Repr

/-- A barrier slot (R345): its phase and the core programs that have arrived. -/
structure BarSlot where
  phase : Nat
  arrived : List Nat
  deriving DecidableEq, Repr

/-- A group on a cluster (R58, R345, R370, R373): the context of each core program, the programs that have not exited,
cluster SRAM allocation, barrier slots and units. `loanFrom` are the groups whose given-up contexts or units it holds;
`unitState` keeps the units that it gave up and that are lent (R373). -/
structure Group where
  launch : Nat
  index : Nat
  cluster : Nat
  members : Tbl Nat
  live : List Nat
  csramSize : Nat
  csram : Memory
  csramPoison : List Nat
  bars : Nat
  slots : Tbl BarSlot
  units : List Nat
  unitState : Tbl Xfu
  estimate : Nat
  metered : Nat
  loanFrom : List Nat
  done : Bool
  deriving DecidableEq, Repr

/-- A context saved by pre-emption or waiting for frame service (R372, R431): what the core and cluster keep reserved stays in
its record; its area in the save pool (none once it has been read back), the context number it left, the banks it owned (number,
both states, both accumulators) and the units it owned. -/
structure Saved where
  ctx : Ctx
  home : Nat
  area : Option Nat
  banks : List Bank
  units : List (Nat × Xfu)
  deriving DecidableEq, Repr

/-- The Mint's request table entry (R383). -/
structure MintReq where
  active : Bool
  prio : Nat
  tokens : Nat
  pages : List Nat
  deriving DecidableEq, Repr

/-- A die's Mint set (R376 to R387). `members` are the stream contexts, a saved one (R387) under a number of no hardware context. `occ` to `bucketIter` are what the registers show of the iteration started last (R381);
`evicting` is the mark of the boundary under way, and `waiting` holds while that boundary waits for an admission (R379). `row` is the
next row to send, `first` the iteration's first; `late` counts the cycles since the last row was sent, in which the lower levels of the
tree execute theirs (R61). -/
structure Mint where
  launch : Nat
  members : List Nat
  table : Tbl W64
  rows : Tbl (BitVec 128)
  row : Nat
  rowsLeft : Nat
  first : Nat
  late : Nat
  hold : Bool
  stopped : Bool
  pool : List Nat
  tpp : Nat
  reqs : Tbl MintReq
  accept : Tbl W64
  drafts : Tbl Memory
  occ : Nat
  act : BitVec 8
  draft : Nat
  bucketOcc : Nat
  bucketD : Nat
  shrunk : Bool
  evict : Bool
  bucketIter : W32
  iter : W32
  running : Bool
  waiting : Bool
  evicting : Bool
  deriving DecidableEq, Repr

/-- A Florin die: its Mint set, the logical cluster its dispatcher used last, its die cache, whether its Mint is closed to placement
(R443), and the draft slots and request table of a die whose Mint has no set (R382). -/
structure Die where
  mint : Option Mint
  microcode : W32
  lastCluster : Nat
  cache : List Line
  mintClosed : Bool
  drafts : Tbl Memory
  reqs : Tbl MintReq
  deriving DecidableEq, Repr

/-- How a request from outside the clusters completed: not yet, its data (with poison), done, Unsupported Request, a
link-level error completion, or an SPDM response and its digest (R27, R393, R403, R442). -/
inductive Answer where
  | none
  | data (size : Nat) (value : BitVec 512) (poison : Bool)
  | done
  | unsupported
  | refused
  | spdm (code : BitVec 8) (value : BitVec 384)
  deriving DecidableEq, Repr

/-- Where a held write is from (R421): a context, a general core, or the host or a remote master; of the last two, how the access
completes once the write is applied. -/
inductive Source where
  | ctx (g : Nat) | hart (h : Nat) (answer : Answer) | door (answer : Answer)
  deriving DecidableEq, Repr

/-- A write a Vault holds because its Reserve is empty (R421), with the source that stalls for it and the cycle since when, its bytes
standing in memory already; or
because its line's metadata is bad (R412): then its bytes are not applied, and stand here. -/
structure HeldWrite where
  src : Option Source
  line : Nat
  off : Nat
  data : List Byte
  since : Nat
  deriving DecidableEq, Repr

/-- A Vault's compressed pool, quotas, Balloon engine and counters (R406 to R425). Runs are first-chunk numbers; list `c`
holds free runs of `c` chunks, list 8 also the 8-chunk runs of the ranges `fresh`, taken after its own. The Reserve is a list of
ranges of 8-chunk runs. A range is its first chunk and the chunk after its last. `chunks` is where chunk numbers end; `step` is the
Balloon engine's step in progress, 0 when it is idle; `borrowers` maps each partition that has borrowed from the Reserve to the line of
its last borrow; `stuck` are writes held at lines of bad metadata (R412); `building` are the large pages the promotion engine is asked
for, in order (R422). -/
structure Vault where
  chunks : Nat
  vcap : Nat
  lists : Tbl (List Nat)
  fresh : List (Nat × Nat)
  reserve : List (Nat × Nat)
  target : Nat
  lineMeta : Tbl W64
  metaBlocks : Tbl Nat
  ratio : Tbl Nat
  frameOwner : Tbl Nat
  used : Tbl Nat
  realloc : Tbl Nat
  prdraw : Tbl Nat
  pdemot : Tbl Nat
  vrdraw : Nat
  donated : List Nat
  taken : List Nat
  demotionTarget : Bool
  demoted : List Nat
  exhausted : Bool
  step : Nat
  borrowers : List (Nat × Nat)
  outOfSpace : List Nat
  held : List HeldWrite
  stuck : List HeldWrite
  touch : Tbl Nat
  building : List (Nat × Nat)
  firmware : W32
  deriving DecidableEq, Repr

/-- A partition (R389 to R395). -/
structure Part where
  present : Bool
  wdint : Nat
  nextTask : W32
  vaultView : Bool
  pool : Nat
  reports : List (BitVec 256)
  deriving DecidableEq, Repr

/-- The grant of a frame (R391). -/
structure Grant where
  owner : Option Nat
  sharers : List Nat
  hostOpen : Bool
  deriving DecidableEq, Repr

/-- A buffer handle of a partition (R277). -/
structure BufHandle where
  base : Nat
  len : Nat
  writer : Option Nat
  readers : List Nat
  seqno : W32
  deriving DecidableEq, Repr

/-- A kernel object as Tuiral loads it: entries, resources in the units of `.resources` (KiB, nJ), microstore image (R113, R356). -/
structure Kobj where
  entries : List (Nat × W64)
  tiles : Nat
  scratch : Nat
  stash : Nat
  csram : Nat
  bars : Nat
  xfu : Nat
  energy : Nat
  image : Option (List W64 × List W64)
  deriving DecidableEq, Repr

/-- Where a launch stands. -/
inductive LaunchState where
  | waiting | ready | ended
  deriving DecidableEq, Repr

/-- A launch (R356 to R363). -/
structure Launch where
  part : Nat
  vf : Nat
  kobj : Nat
  gcount : Nat
  glimit : Nat
  args : W64
  swtb : Nat
  hlist : Nat
  handles : List (Nat × Nat)
  waits : List Nat
  prio : Nat
  record : Nat
  taskid : W32
  state : LaunchState
  next : Nat
  exited : Nat
  status : Nat
  swtIdx : Nat
  swtCp : Nat
  preempts : Nat
  cyc : Nat
  energyNJ : Nat
  deriving DecidableEq, Repr

/-- A command queue of a virtual function (R450). -/
structure Queue where
  base : W64
  cfg : W64
  tail : W32
  head : W32
  err : Bool
  deriving DecidableEq, Repr

/-- A virtual function (R365, R368, R390). -/
structure Vf where
  part : Option Nat
  weight : Nat
  share : Nat
  balance : Int
  meter : Nat
  remainder : Nat
  deriving DecidableEq, Repr

/-- A collective under way (R454). -/
structure Collective where
  part : Nat
  op : Nat
  ty : Nat
  bytes : Nat
  comm : W32
  src : Nat
  dst : Nat
  record : Nat
  handles : List (Nat × Nat)
  hlist : Nat
  waits : List Nat
  done : Bool
  deriving DecidableEq, Repr

/-- A mailbox (R385). -/
structure Mailbox where
  part : Option Nat
  launch : Option Nat
  number : Nat
  bytes : Memory
  deriving DecidableEq, Repr

/-- A general core of the Counting House (R392); `answer` is how its last access completed, none while it is under way. -/
structure Hart where
  part : Option Nat
  frozen : Option Nat
  interrupt : Bool
  answer : Answer
  deriving DecidableEq, Repr

/-- A request of a general core to another module that has not completed (R445, R453): the flit that carries it, the core, its
partition, the access. -/
structure PortReq where
  flit : Nat
  hart : Nat
  part : Nat
  access : Access
  deriving DecidableEq, Repr

/-- A Walvo port (R445): 0 up, 1 retraining, 2 down. `expect`, `fails`, `replay` and `delivered` are its receiver's. `sent` numbers the
flits it sends, `buffer` is its replay buffer of flits not acknowledged, at most 256, `resent` counts those it sent again, and
`flight` are the requests in flight. -/
structure Port where
  state : Nat
  expect : Nat
  fails : Nat
  replay : Bool
  delivered : Nat
  sent : Nat
  buffer : List Nat
  resent : Nat
  flight : List PortReq
  deriving DecidableEq, Repr

/-- The module's registers and boot state (R27 to R36, R401 to R405, R449, R458, R459). `swapping` is the cluster that is being moved to
a spare (R35); `quanta` counts the quantum boundaries past (R365); `domain` are the positions of its load-store domain (R31, R453);
`spdmSession` says that the management port's session is authenticated (R403, R456). -/
structure Regs where
  florinok : W64
  memhbm : BitVec 16
  memlp : W64
  dpsizeGiB : Nat
  node : BitVec 22
  dpos : BitVec 12
  dv : Bool
  domain : List Nat
  fwver : Tbl W32
  toposeq : W64
  clmap : Tbl W64
  stage : Nat
  starting : Bool
  ready : Bool
  mini : Bool
  fails : Nat
  reason : Nat
  svn : BitVec 16
  updated : Bool
  measure : Tbl (BitVec 384)
  power : Nat
  allow : Nat
  clock : Nat
  throttled : Bool
  tmax : Nat
  tin : Nat
  exportBase : Nat
  exportLen : Nat
  exportPart : Option Nat
  swapping : Option Nat
  quanta : Nat
  spdmVersion : Nat
  spdmNegotiated : Bool
  spdmSession : Bool
  deriving DecidableEq, Repr

/-- What moves next when it is not the current context: an event of the table, or issue of another core. -/
inductive Move where
  | event (i : Instr) (req : Request)
  | core (n : Fin 4096)
  deriving DecidableEq, Repr

/-- The whole machine. `cur` is the context that issues next, by global number 4 x core + context. `agenda` and `tick`
are the model's own (log 1, 3): which agent moves next, and the counter of free values. `request` holds the operands of
the request being served, `answer` how the last one completed. `saves` maps 8 x group + core program. `tails` are the writes of queue tails
not used up yet: cycle, 16 x VF + queue, value (R358). `rowErrors` and `sramErrors` are the corrected errors of the last 24 hours by DRAM
row and by cluster, with their cycles; `retireDue` are rows to retire at their next revocation, `retired` those out of use (R446).
`unowned` are the CP frames whose core the launch that maps them has yet to fix (R466). -/
structure State where
  cur : Nat
  cycles : W64
  agenda : List Move
  request : Request
  answer : Answer
  tick : Nat
  ctxs : Tbl Ctx
  cores : Tbl Core
  arrays : Tbl MArray
  clusters : Tbl Cluster
  dies : Tbl Die
  groups : Tbl Group
  saves : Tbl Saved
  launches : Tbl Launch
  nextLaunch : Nat
  nextGroup : Nat
  kobjs : Tbl Kobj
  mem : Memory
  poison : List Nat
  frames : Tbl W64
  grants : Tbl Grant
  vaults : Tbl Vault
  parts : Tbl Part
  vfs : Tbl Vf
  queues : Tbl Queue
  tails : List (W64 × Nat × W32)
  bufHandles : Tbl BufHandle
  comms : Tbl (List Nat)
  collectives : Tbl Collective
  mailboxes : Tbl Mailbox
  harts : Tbl Hart
  refusedNodes : List (Nat × Nat)
  ports : Tbl Port
  errors : List (BitVec 256)
  violations : List (BitVec 256)
  rowErrors : List (Nat × W64)
  sramErrors : List (Nat × W64)
  retireDue : List Nat
  retired : List Nat
  unowned : List Nat
  regs : Regs
  deriving DecidableEq, Repr

/-- Context-resident default: an unplaced context with the dispatch values of R362. -/
def Ctx.initial : Ctx where
  run := .idle
  pc := 0
  sregs := []
  vregs := []
  pregs := []
  bregs := []
  mpregs := []
  tcregs := []
  flights := []
  bundles := 0
  groupWrites := []
  heldWrites := []
  qmr := 0
  evbase := 0
  nodebase := 0
  deroff := 0
  ckseq := 0
  rngkey := 0
  sampcfg := 0
  sampctr := 0
  faultmask := 0
  trapcause := 0
  hm := false
  trappc := 0
  trapinfo := 0
  trapvec := 0
  savebase := 0
  snapshot := []
  stream := false
  vf := 0
  part := 0
  group := 0
  launch := 0
  program := 0
  tileBase := 0
  tileCount := 0
  scratchSize := 0
  stashSize := 0
  scratch := []
  scratchPoison := []
  tags := []
  heldTags := []
  cands := []
  streams := []
  handles := []
  swt := []
  stash := []
  tickets := []
  holdBar := none
  heldBar := none
  memSeq := 0
  fences := []
  ranges := []
  delayed := []
  refills := []
  unitRefills := []
  stalled := false
  preempt := false
  boundaryPoison := []
  boundaryFreeze := none
  watch := 0

/-- A tile slot as a dispatch leaves it: zero bytes, full, status 0x18 (R362). -/
def Tile.initial : Tile :=
  { data := 0, full := true, nan := false, inf := false, ovf := false, validAt := 0, valid := true, writers := 0, poison := [] }

def Core.initial : Core := { tiles := [], issuing := 0, passing := false, tileQ := [], xferQ := [], indexQ := [], assayQ := [] }

/-- An array whose accumulators are IDLE, with zero elements (log 2), ARBMODE 0 and no task image. -/
def MArray.initial : MArray :=
  { acc := [], accState := [], owners := [], mode := 0, cutA := false, cutB := false, windowB := false, queueA := [],
    queueB := [], current := none, micro := none, store := [], table := [] }

def Xfu.initial : Xfu :=
  { ports := [], group := none, owner := none, wrote := false, job := none, op := 0, err := 0, done := 0, nout := 0,
    valid := false, lens := 0, hist := 0, histLen := 0 }

def Cluster.initial : Cluster :=
  { part := none, closed := false, image := none, session := none, copies := [], frozenChannels := [], xfus := [],
    deficits := [], gainDue := none, csramUsed := 0, barsUsed := 0 }

/-- The dispatcher's last cluster is 7, so that its first placement tries cluster 0 (R361; log 2). -/
def Die.initial : Die := { mint := none, microcode := 0, lastCluster := 7, cache := [], mintClosed := false, drafts := [], reqs := [] }

def Group.initial : Group :=
  { launch := 0, index := 0, cluster := 0, members := [], live := [], csramSize := 0, csram := [],
    csramPoison := [], bars := 0, slots := [], units := [], unitState := [], estimate := 0, metered := 0, loanFrom := [], done := false }

def Cand.initial : Cand := { count := 0, ty := 0, entries := [] }
def Stream.initial : Stream := { binding := .unbound, pending := [], arrived := [] }
def BarSlot.initial : BarSlot := { phase := 0, arrived := [] }
def MintReq.initial : MintReq := { active := false, prio := 0, tokens := 0, pages := [] }

/-- A Vault with four packages present and nothing placed: 2^32 chunks, of which the Reserve holds RT = 2^26 (R407, R416). Which
chunks the Reserve holds, and their order, is log 2. -/
def Vault.initial : Vault :=
  { chunks := 0x100000000, vcap := 0x100000000, lists := [], fresh := [(0x4000000, 0x100000000)], reserve := [(0, 0x4000000)], target := 0x4000000, lineMeta := [], metaBlocks := [], ratio := [], frameOwner := [],
    used := [], realloc := [], prdraw := [], pdemot := [], vrdraw := 0, donated := [], taken := [], demotionTarget := false,
    demoted := [], exhausted := false, step := 0, borrowers := [], outOfSpace := [], held := [], stuck := [],
    touch := [], building := [], firmware := 0 }

/-- WDINT defaults to 2,000 ms (R438); no Vault view (R424). -/
def Part.initial : Part := { present := false, wdint := 2000, nextTask := 0, vaultView := false, pool := 0, reports := [] }
def Grant.initial : Grant := { owner := none, sharers := [], hostOpen := false }
def Queue.initial : Queue := { base := 0, cfg := 0, tail := 0, head := 0, err := false }
/-- Weight 1 and share 0 until they are set (log 2). -/
def Vf.initial : Vf := { part := none, weight := 1, share := 0, balance := 0, meter := 0, remainder := 0 }
def Mailbox.initial : Mailbox := { part := none, launch := none, number := 0, bytes := [] }
def Hart.initial : Hart := { part := none, frozen := none, interrupt := false, answer := .none }
def Port.initial : Port :=
  { state := 0, expect := 0, fails := 0, replay := false, delivered := 0, sent := 0, buffer := [], resent := 0, flight := [] }

/-- The registers after reset: boot has run no stage (STAGE 0), every part is in service, the node identifier is not yet
assigned (R31), TOPOSEQ starts at 0 (R35). Part counts, the spare (physical cluster 8) and the power allowance are log 2. -/
def Regs.initial : Regs :=
  { florinok := 0xFFFFFFFFFFFFFFFF, memhbm := 0xFFFF, memlp := 0xFFFFFFFFFFFFFFFF, dpsizeGiB := 10240, node := 0x3FFFFF,
    dpos := 0, dv := false, domain := [], fwver := [], toposeq := 0, clmap := [], stage := 0, starting := false, ready := false, mini := false, fails := 0,
    reason := 0, svn := 0, updated := false, measure := [], power := 0, allow := 6400, clock := 3000, throttled := false,
    tmax := 0, tin := 0, exportBase := 0, exportLen := 0, exportPart := none, swapping := none, quanta := 0, spdmVersion := 0, spdmNegotiated := false,
    spdmSession := false }

/-- The machine right after module reset: nothing placed, nothing granted, no frame present. -/
def State.reset : State :=
  { cur := 0, cycles := 0, agenda := [], request := .none, answer := .none, tick := 0, ctxs := [], cores := [], arrays := [], clusters := [], dies := [],
    groups := [], saves := [], launches := [], nextLaunch := 0, nextGroup := 0, kobjs := [], mem := [], poison := [], frames := [],
    grants := [], vaults := [], parts := [], vfs := [], queues := [], tails := [], bufHandles := [], comms := [], collectives := [],
    mailboxes := [], harts := [], refusedNodes := [], ports := [], errors := [], violations := [], rowErrors := [], sramErrors := [], retireDue := [],
    retired := [], unowned := [], regs := Regs.initial }

end Sys2Proof.Machine
end

