-- ==== Sys2Proof/Machine/Ops.lean ====
section
/-!
DEFINITION. The named operations over the state: reading and changing its tables, registers and results in flight, tiles,
engine queues, passing issue, taking a trap and returning from it, and freezing.
-/
set_option Elab.async false
namespace Sys2Proof.Machine

/-! ## Tables of the machine -/

def State.ctx (s : State) (g : Nat) : Ctx := tget Ctx.initial s.ctxs g
def State.setCtx (s : State) (g : Nat) (c : Ctx) : State := { s with ctxs := tset s.ctxs g c }
def State.modCtx (s : State) (g : Nat) (f : Ctx → Ctx) : State := s.setCtx g (f (s.ctx g))

def State.core (s : State) (k : Nat) : Core := tget Core.initial s.cores k
def State.setCore (s : State) (k : Nat) (c : Core) : State := { s with cores := tset s.cores k c }
def State.modCore (s : State) (k : Nat) (f : Core → Core) : State := s.setCore k (f (s.core k))

def State.array (s : State) (k : Nat) : MArray := tget MArray.initial s.arrays k
def State.setArray (s : State) (k : Nat) (a : MArray) : State := { s with arrays := tset s.arrays k a }
def State.modArray (s : State) (k : Nat) (f : MArray → MArray) : State := s.setArray k (f (s.array k))

def State.cluster (s : State) (k : Nat) : Cluster := tget Cluster.initial s.clusters k
def State.setCluster (s : State) (k : Nat) (c : Cluster) : State := { s with clusters := tset s.clusters k c }
def State.modCluster (s : State) (k : Nat) (f : Cluster → Cluster) : State := s.setCluster k (f (s.cluster k))

def State.die (s : State) (k : Nat) : Die := tget Die.initial s.dies k
def State.modDie (s : State) (k : Nat) (f : Die → Die) : State := { s with dies := tset s.dies k (f (s.die k)) }

def State.group (s : State) (k : Nat) : Group := tget Group.initial s.groups k
def State.modGroup (s : State) (k : Nat) (f : Group → Group) : State := { s with groups := tset s.groups k (f (s.group k)) }

def State.vault (s : State) (k : Nat) : Vault := tget Vault.initial s.vaults k
def State.modVault (s : State) (k : Nat) (f : Vault → Vault) : State := { s with vaults := tset s.vaults k (f (s.vault k)) }

def State.part (s : State) (k : Nat) : Part := tget Part.initial s.parts k
def State.modPart (s : State) (k : Nat) (f : Part → Part) : State := { s with parts := tset s.parts k (f (s.part k)) }

def State.vf (s : State) (k : Nat) : Vf := tget Vf.initial s.vfs k
def State.modVf (s : State) (k : Nat) (f : Vf → Vf) : State := { s with vfs := tset s.vfs k (f (s.vf k)) }

def State.frame (s : State) (f : Nat) : W64 := tget 0 s.frames f
def State.setFrame (s : State) (f : Nat) (e : W64) : State := { s with frames := tset s.frames f e }
def State.modFrame (s : State) (f : Nat) (g : W64 → W64) : State := s.setFrame f (g (s.frame f))
def State.grant (s : State) (f : Nat) : Grant := tget Grant.initial s.grants f
def State.mailbox (s : State) (n : Nat) : Mailbox := tget Mailbox.initial s.mailboxes n
def State.hart (s : State) (h : Nat) : Hart := tget Hart.initial s.harts h
def State.modHart (s : State) (h : Nat) (f : Hart → Hart) : State := { s with harts := tset s.harts h (f (s.hart h)) }
def State.port (s : State) (n : Nat) : Port := tget Port.initial s.ports n
def State.modPort (s : State) (n : Nat) (f : Port → Port) : State := { s with ports := tset s.ports n (f (s.port n)) }

/-- Apply `f` to the numbers of a list in order. -/
def State.each (s : State) (l : List Nat) (f : Nat → State → State) : State := l.foldl (fun s n => f n s) s

/-! ## Numbering: context = 4 × core + number, eight cores a cluster, eight clusters a die, four dies a Vault (R18, R44) -/

def coreOf (g : Nat) : Nat := g / 4
def pairOf (g : Nat) : Nat := g / 8
def clusterOf (g : Nat) : Nat := g / 32
def dieOf (g : Nat) : Nat := g / 256

/-! ## Registers and results in flight (R45, R46, R54 to R56) -/

def Ctx.s (c : Ctx) (n : BitVec 6) : W64 := if n = 0 then 0 else tget 0 c.sregs n.toNat
def Ctx.v (c : Ctx) (n : BitVec 5) : Vec := tget 0 c.vregs n.toNat
def Ctx.p (c : Ctx) (n : Nat) : W64 := if n = 0 then BitVec.allOnes 64 else tget 0 c.pregs n
def Ctx.b (c : Ctx) (n : Nat) : W64 := tget 0 c.bregs n
def Ctx.mp (c : Ctx) (n : Nat) : W64 := tget 0 c.mpregs n
def Ctx.tc (c : Ctx) (n : Nat) : W64 := tget 0 c.tcregs n

/-- A value written into a register under a lane or bit mask; s0 and p0 discard writes (R45, R70). -/
def Ctx.write (c : Ctx) (d : Dest) (v : Vec) (mask : W64) : Ctx :=
  match d with
  | .s n => if n = 0 then c else { c with sregs := tset c.sregs n (v.setWidth 64) }
  | .v n => { c with vregs := tset c.vregs n (if mask = BitVec.allOnes 64 then v else mergeLanes mask (tget 0 c.vregs n) v) }
  | .p n => if n = 0 then c else
      { c with pregs := tset c.pregs n ((v.setWidth 64 &&& mask) ||| (tget 0 c.pregs n &&& ~~~mask)) }
  | .b n => { c with bregs := tset c.bregs n (v.setWidth 64) }
  | .mp n => { c with mpregs := tset c.mpregs n (v.setWidth 64) }
  | .tc n => { c with tcregs := tset c.tcregs n (v.setWidth 64) }
  | .ck .. => c

/-- The destination a name stands for in the pending check. -/
def Dest.isName (d : Dest) (n : Name) : Bool :=
  match d, n with
  | .s i, .s j => i == j && i != 0
  | .v i, .v j => i == j
  | .p i, .p j => i == j && i != 0
  | .b i, .b j => i == j
  | .mp i, .mp j => i == j
  | .tc i, .tc j => i == j
  | _, _ => false

/-- A name is pending while a result in flight targets it (R46). -/
def Ctx.pending (c : Ctx) (n : Name) : Bool := c.flights.any fun f => f.dest.isName n

/-- `land(reg, val, d)` of R8 under a mask, with its Q bit and poison: due `lat` bundles after this one. A result for s0 or
p0 is in flight too; it never makes them pending and its write is discarded (R45, R46, R285). -/
def Ctx.land (c : Ctx) (d : Dest) (v : Vec) (mask : W64) (lat : Nat) (squash : Bool) (poison : Option W64) : Ctx :=
  { c with flights := c.flights ++
    [{ dest := d, val := v, mask := mask, due := c.bundles + lat, squash := squash, poison := poison }] }

def Ctx.landS (c : Ctx) (d : BitVec 6) (x : W64) (lat : Nat) : Ctx :=
  c.land (.s d.toNat) (x.setWidth 2048) (BitVec.allOnes 64) lat false none
def Ctx.landP (c : Ctx) (p : BitVec 7) (x mask : W64) (lat : Nat) (q : Bool) : Ctx :=
  c.land (.p p.toNat) (x.setWidth 2048) mask lat q none
def Ctx.landV (c : Ctx) (d : BitVec 5) (x : Vec) (mask : W64) (lat : Nat) (q : Bool) : Ctx :=
  c.land (.v d.toNat) x mask lat q none

/-- A result lands at the start of its bundle unless it is poisoned (R54, R429). -/
def Flight.lands (f : Flight) (j : Nat) : Bool := decide (f.due ≤ j) && f.poison.isNone

/-- Every result due by the next bundle lands, in issue order, so the later issued one wins (R55). -/
def Ctx.landDue (c : Ctx) : Ctx :=
  let due := c.flights.filter (·.lands c.bundles)
  let c' := due.foldl (fun c f => c.write f.dest f.val f.mask) c
  { c' with flights := c.flights.filter (fun f => !f.lands c.bundles) }

/-- Scratch tags that are due clear (R205). -/
def Ctx.clearTags (c : Ctx) : Ctx := { c with tags := c.tags.filter (fun t => decide (c.bundles < t.2.1)) }

/-- What happens at the start of a bundle. -/
def Ctx.deliver (c : Ctx) : Ctx := c.landDue.clearTags

/-- A taken branch in bundle `j` discards every squashable result due later (R82). -/
def Ctx.squashAfter (c : Ctx) (j : Nat) : Ctx :=
  { c with flights := c.flights.filter (fun f => !(f.squash && decide (j < f.due))) }

/-! ## What a slot answers -/

/-- Why a slot does not commit: a pending operand (R103, order 4), a trap of its issue checks, a trap of the checks made
while it stalls (R41), a block, or a stall in place with what ends it. -/
inductive Stop where
  | early
  | trap (cause : Nat) (info : W64)
  | late (cause : Nat) (info : W64)
  | block (w : Wait)
  | stall (f : State → State)

/-- What a slot does when its bundle commits. -/
structure Commit where
  act : State → State := id
  target : Option W64 := none
  post : Option (Nat × W64) := none
  yield : Bool := false
  exit : Bool := false
  rfe : Bool := false

/-- A check that gives a value or stops the slot. -/
abbrev Chk (α : Type) := Except Stop α

/-- The answer of a slot at issue: it reads the state, and commits nothing itself (R10). -/
abbrev Issue := Chk Commit

def Chk.need (b : Bool) (st : Stop) : Chk Unit := if b then .ok () else .error st

/-- A commit that changes the issuing context only. -/
def commitCtx (g : Nat) (f : Ctx → Ctx) : Issue := .ok { act := fun s => s.modCtx g f }
def commit (f : State → State) : Issue := .ok { act := f }

/-! ## Tiles (R48, R74, R139) -/

/-- The physical slot of `ti`; cause 0x0D, TRAPINFO 0x11, at or above the tile count (R48, R195). -/
def Ctx.slot (c : Ctx) (t : Nat) : Chk Nat := if t < c.tileCount then .ok (c.tileBase + t) else .error (.trap 0x0D 0x11)

def Core.tile (k : Core) (slot : Nat) : Tile := tget Tile.initial k.tiles slot
def Core.setTile (k : Core) (slot : Nat) (t : Tile) : Core := { k with tiles := tset k.tiles slot t }
def State.tile (s : State) (k slot : Nat) : Tile := (s.core k).tile slot
def State.modTile (s : State) (k slot : Nat) (f : Tile → Tile) : State :=
  s.modCore k fun c => c.setTile slot (f (c.tile slot))

/-- A writer issues that replaces the sectors `l` of a slot whole: the slot goes empty, its status clears, its writers are counted, and
the poison of those sectors is gone (R74, R139, R441). -/
def Tile.issueWrite (l : List Nat) (t : Tile) : Tile :=
  { t with full := false, valid := false, nan := false, inf := false, ovf := false, writers := t.writers + 1
           poison := t.poison.filter fun x => !l.contains x }

/-- A writer issues whose bytes and status are known at issue; they are seen when the slot goes full. -/
def Tile.write (t : Tile) (l : List Nat) (d : TileBits) (st : BitVec 3) : Tile :=
  { t.issueWrite l with data := d, nan := bit st 0, inf := bit st 1, ovf := bit st 2 }

/-- Sectors of a slot become poisoned (R441). -/
def Tile.spoil (t : Tile) (l : List Nat) : Tile := { t with poison := t.poison ++ l.filter fun x => !t.poison.contains x }

/-- The bytes and status of a writer that computes them after it issued. -/
def Tile.late (t : Tile) (d : TileBits) (st : BitVec 3) : Tile :=
  { t with data := d, nan := bit st 0, inf := bit st 1, ovf := bit st 2 }

/-- A writer has written its last byte; the slot is full when none is left, VALID six bundles on (R139). -/
def Tile.finish (t : Tile) (j : Nat) : Tile :=
  if t.writers ≤ 1 then { t with writers := 0, full := true, validAt := j + 6 } else { t with writers := t.writers - 1 }

/-- Every slot goes full in turn; `j` is the next bundle of the owner. -/
def Core.finish (k : Core) (j : Nat) (slots : List Nat) : Core :=
  slots.foldl (fun k n => k.setTile n ((k.tile n).finish j)) k

/-- The slot's contents when it is full; an empty one blocks (R41). -/
def fullTile (s : State) (g slot : Nat) : Chk TileBits :=
  let t := s.tile (coreOf g) slot
  if t.full then .ok t.data else .error (.block .emptyTile)

/-- The TRAPINFO that names sector `x` of tile slot `slot`: its offset in the tile store with bits 62 and 47 set (log 27). -/
def tileInfo (slot x : Nat) : W64 := BitVec.ofNat 64 (4096 * slot + 64 * x + 2 ^ 47 + 2 ^ 62)

/-- The sectors that `n` bytes from the start of a slot touch. -/
def firstSectors (n : Nat) : List Nat := List.range ((n + 63) / 64)

/-- The first poisoned sector of `l` in a slot, as TRAPINFO. -/
def tilePoison (s : State) (k slot : Nat) (l : List Nat) : Option W64 :=
  (l.find? fun x => (s.tile k slot).poison.contains x).map (tileInfo slot)

/-- The slot's contents as an operand of an engine that reads the sectors `l`: when it is full, and unless one of them is poisoned, which
is cause 0x14 before commit (R426, R442; log 27). -/
def cleanSectors (s : State) (g slot : Nat) (l : List Nat) : Chk TileBits := do
  let d ← fullTile s g slot
  match tilePoison s (coreOf g) slot l with
  | some info => .error (.late 0x14 info)
  | none => .ok d

/-- The same of an engine that reads the first `n` bytes. -/
def cleanTile (s : State) (g slot n : Nat) : Chk TileBits := cleanSectors s g slot (firstSectors n)

/-! ## Passing issue (R40, R42) -/

/-- A context that can take the issue slot without being asked what it waits for. -/
def Run.isReady : Run → Bool
  | .ready => true
  | _ => false

/-- The four contexts of a core in the order issue passes from `g`: ascending after it, wrapping, itself last (R42, R348). -/
def passOrder (g : Nat) : List Nat := [1, 2, 3, 4].map fun d => 4 * coreOf g + (g + d) % 4

/-- The core of `g` passes issue: the next step offers it to the first ready context after `g` (R42). -/
def passIssue (g : Nat) (s : State) : State := s.modCore (coreOf g) fun k => { k with passing := true }

/-! ## Reports (R394, R444) -/

/-- A 32-byte record of four doublewords. -/
def record32 (a b c d : W64) : BitVec 256 := d ++ c ++ b ++ a

/-- The violation record of R394. -/
def violationRecord (kind cause part who : Nat) (addr now : W64) : BitVec 256 :=
  record32 (BitVec.ofNat 64 (kind + 256 * cause + 65536 * part)) (BitVec.ofNat 64 who) addr now

/-- A record into a partition runtime's report ring. -/
def report (part : Nat) (r : BitVec 256) (s : State) : State := s.modPart part fun p => { p with reports := p.reports ++ [r] }

/-- A violation record, to the partition runtime's ring and the management controller (R394). -/
def violation (kind cause part who : Nat) (addr : W64) (s : State) : State :=
  let r := violationRecord kind cause part who addr s.cycles
  { report part r s with violations := s.violations ++ [r] }

/-- An error record; a consumption or freeze is copied to the partition's ring (R444). -/
def errorRecord (sev struct : Nat) (part : Option Nat) (place : Nat) (addr : W64) (s : State) : State :=
  let r := record32 (BitVec.ofNat 64 (sev + 16 * struct + 4096 * part.getD 0x1FF)) (BitVec.ofNat 64 place) addr s.cycles
  let s := { s with errors := s.errors ++ [r] }
  match part with
  | some p => if sev = 2 ∨ sev = 3 then report p r s else s
  | none => s

/-- A line of a cache holds the sector. -/
def Line.holds (l : Line) (pa : Nat) : Bool := l.line == pa / 512 && bit l.sectors (pa / 64 % 8)

/-- The storage a poison TRAPINFO names, as R444 codes it: the tile store, private or cluster SRAM, the stash or die cache the context
reads the sector from, a compressed pool, LPDDR-6 or HBM4E. -/
def poisonStruct (g : Nat) (info : W64) (s : State) : Nat :=
  let e := s.frame (info.toNat / 65536)
  if bit info 62 && bit info 47 then 8
  else if bit info 62 then (if (s.ctx g).scratchPoison.contains ((bits info 0 48).toNat / 64) then 9 else 10)
  else if (s.ctx g).stash.any (·.holds info.toNat) then 11
  else if (s.die (dieOf g)).cache.any (·.holds info.toNat) then 12
  else if bit e 1 then 15
  else if bit e 37 then 14 else 13

/-- A consumption of poisoned data by a context is reported (R442, R444). -/
def consumed (g : Nat) (info : W64) (s : State) : State :=
  errorRecord 2 (poisonStruct g info s) (some (s.ctx g).part) g info s

/-! ## The Mint stops (R387) -/

def Run.isFrozen (r : Run) : Bool :=
  match r with
  | .frozen _ => true
  | _ => false

/-- A freeze is taken: a pre-emption that was pending is dropped (R396). -/
def Ctx.freeze (c : Ctx) (cause : Nat) : Ctx := { c with run := .frozen cause, preempt := false }

/-- A context that was to freeze for space at its next boundary has frozen for another cause: the space gets its own record (R420). -/
def spaceRecord (g : Nat) (s : State) : State :=
  match (s.ctx g).boundaryFreeze with
  | some pa => violation 0 0x0A (s.ctx g).part g pa (s.modCtx g fun c => { c with boundaryFreeze := none })
  | none => s

/-- A context freezes with `cause`, and its record carries `first` and an address (R393, R394). -/
def freezeCtx (g cause first : Nat) (info : W64) (s : State) : State :=
  spaceRecord g (violation 0 first (s.ctx g).part g info (s.modCtx g fun c => c.freeze cause))

/-- The number that stands for a saved context where hardware contexts are numbered: that of none. -/
def savedNumber (key : Nat) : Nat := 16385 + key

/-- A saved member of a Mint set freezes where it is, with cause 0x0C, and is reported (R387). -/
def freezeSaved (key : Nat) (s : State) : State :=
  match tfind s.saves key with
  | some x => if x.ctx.run.isFrozen then s
    else violation 0 0x0C x.ctx.part x.home 0 { s with saves := tset s.saves key { x with ctx := x.ctx.freeze 0x0C } }
  | none => s

/-- The members of a die's Mint set stop: every stream context is frozen and reported, a saved one too, the others than `g` with cause
0x0C; STATUS of every active request becomes 3 and its pages return to the pool. -/
def stopMint (d g cause : Nat) (info : W64) (s : State) : State :=
  match (s.die d).mint with
  | none => s
  | some m =>
    let active := (List.range 8).filter fun r => (tget MintReq.initial m.reqs r).active
    let back := active.foldl (fun l r => l ++ (tget MintReq.initial m.reqs r).pages) []
    let drafts := active.foldl (fun t r => tset t r (writeBytes (tget [] t r) 16 (leBytes 8 3))) m.drafts
    let reqs := active.foldl (fun t r => tset t r { tget MintReq.initial t r with pages := [] }) m.reqs
    let s := s.modDie d fun x => { x with mint := some { m with stopped := true, running := false, hold := false,
                                                                reqs := reqs, drafts := drafts, pool := m.pool ++ back } }
    let s := s.each (m.members.filter fun h => h != g && decide (h < 16384) && (s.ctx h).stream && !(s.ctx h).run.isFrozen) fun h s => freezeCtx h 0x0C 0x0C 0 s
    let s := s.each ((m.members.filter (16384 < ·)).map (· - 16385)) freezeSaved
    if m.members.contains g then freezeCtx g cause cause info s else s

/-! ## Taking a trap (R427 to R431) -/

/-- Causes whose fate is a freeze, whatever TRAPVEC holds (R428). -/
def freezes (cause : Nat) (info : W64) : Bool :=
  cause == 0x04 || cause == 0x05 || cause == 0x0A || cause == 0x0C || (cause == 0x14 && bit info 63)

/-- The snapshot kind and index of a destination (R432). -/
def Dest.code (d : Dest) : Nat × Nat :=
  match d with
  | .s n => (0, n)
  | .v n => (1, n)
  | .p n => (2, n)
  | .b n => (3, n)
  | .mp n => (4, n)
  | .tc n => (5, n)
  | .ck .. => (6, 0)

/-- The value part of a CK instruction's entry (R433). -/
def ckValue (op count z lo hi : Nat) (dists : List Nat) : Vec :=
  BitVec.ofNat 2048 (op + 256 * count + 65536 * z + 2 ^ 64 * lo + 2 ^ 128 * hi
    + 2 ^ 256 * packNat 8 (fun i => dists.getD i 0) 32)

/-- A result in flight as an entry, `j` being the next bundle. -/
def Flight.snap (f : Flight) (j : Nat) : Snap :=
  let (k, n) := f.dest.code
  let v := match f.dest with
    | .ck op count z lo hi clears => ckValue op count z lo hi (clears.map (· - j))
    | _ => f.val
  { kind := k, index := n, dist := f.due - j, poison := f.poison.isSome, mask := f.mask, val := v, info := f.poison.getD 0,
    squash := f.squash }

/-- The snapshot the hardware takes at a boundary: results not landed, in issue order (R427). -/
def Ctx.snapshotNow (c : Ctx) : List Snap := (c.flights.filter fun f => !f.lands c.bundles).map (·.snap c.bundles)

/-- The context stops at its boundary: results in flight go into the snapshot, pending bits clear, and the CTU tags are
suspended with their remaining distances (R427, R433). -/
def Ctx.stopIssue (c : Ctx) : Ctx :=
  { c with stalled := false, snapshot := c.snapshotNow, flights := [], heldTags := c.tags.map fun t => (t.1, t.2.1 - c.bundles, t.2.2), tags := [] }

/-- The second cause of a freeze in handler mode, after the record with the first (R354, R396, R420; log 23): a record of its own, which
for space goes to the management controller too. -/
def secondCause (g cause : Nat) (info : W64) (s : State) : State :=
  if cause = 0x0A then violation 0 cause (s.ctx g).part g info s
  else report (s.ctx g).part (violationRecord 0 cause (s.ctx g).part g info s.cycles) s

/-- TAKING A TRAP (R427, R428, R354, R387). `pc` is TRAPPC, `mask` FAULTMASK. In handler mode every cause freezes, the first trap's
registers stay, and the report carries both causes, the first in its violation record (R354, R396; log 23). Otherwise the registers
are saved, HM is set, and the next bundle is at TRAPVEC, unless the cause freezes or TRAPVEC is 0; cause 0x08 with TRAPVEC 0 waits for
the runtime. The names written so far in the interrupted group, and its wait at a barrier slot, are held until the handler returns
(R51, R102, R345). Poison consumed is
reported. -/
def enterTrap (g cause : Nat) (info : W64) (mask : BitVec 4) (pc : W64) (s : State) : State :=
  let s := if cause = 0x14 ∧ !bit info 63 then consumed g info s else s
  let c := s.ctx g
  if c.hm then
    secondCause g cause info
      (if c.stream then stopMint (dieOf g) g c.trapcause.toNat c.trapinfo s else freezeCtx g cause c.trapcause.toNat c.trapinfo s)
  else
    let c := c.stopIssue
    let c := { c with trapcause := BitVec.ofNat 8 cause, hm := true, trappc := pc, trapinfo := info, faultmask := mask,
                      heldWrites := c.groupWrites, groupWrites := [], heldBar := c.holdBar, holdBar := none }
    if c.stream then stopMint (dieOf g) g cause info (s.setCtx g c)
    else if freezes cause info || (decide (c.trapvec = 0) && cause != 0x08) then
      freezeCtx g cause cause info (s.setCtx g c)
    else if c.trapvec = 0 then s.setCtx g { c with run := .frameWait }
    else s.setCtx g { c with run := .ready, pc := c.trapvec }

/-- A trap of the bundle at the context's pc; a context that stops issuing passes issue (R40, R42). -/
def takeTrap (g cause : Nat) (info : W64) (mask : BitVec 4) (s : State) : State :=
  let s := enterTrap g cause info mask (s.ctx g).pc s
  if (s.ctx g).run.isReady then s else passIssue g s

/-! ## Returning (R352, R434) -/

/-- The destination of an entry that is no CK entry. -/
def Snap.dest (e : Snap) : Dest :=
  match e.kind with
  | 0 => .s e.index
  | 1 => .v e.index
  | 2 => .p e.index
  | 3 => .b e.index
  | 4 => .mp e.index
  | 5 => .tc e.index
  | _ => .ck (e.val.toNat % 256) (e.val.toNat / 256 % 256) (e.val.toNat / 65536 % 256) (e.val.toNat / 2 ^ 64 % 2 ^ 64)
      (e.val.toNat / 2 ^ 128 % 2 ^ 64) []

/-- An entry replayed, its distance counted from bundle `j` (R434). -/
def Snap.flight (e : Snap) (j : Nat) : Flight :=
  let d := match e.dest with
    | .ck op count z lo hi _ =>
      .ck op count z lo hi ((List.range count).map fun i => j + e.val.toNat / 2 ^ (256 + 8 * i) % 256)
    | d => d
  { dest := d, val := e.val, mask := e.mask, due := j + e.dist, squash := e.squash, poison := if e.poison then some e.info else none }

/-- The distance at which a held tag of record `r` clears on replay, from the CK entries of the snapshot that cover word
`w` (R433): its own distance when an entry still gives it, else the largest one given. -/
def heldDist (snap : List Snap) (w r dist : Nat) : Option Nat :=
  let ds := snap.filterMap fun e =>
    let d := e.val.toNat / 2 ^ (256 + 8 * r) % 256
    if e.kind == 6 && decide (e.val.toNat / 2 ^ 64 % 2 ^ 64 ≤ 8 * w) && decide (8 * w ≤ e.val.toNat / 2 ^ 128 % 2 ^ 64)
      && d != 0 then some d else none
  if ds.isEmpty then none else if ds.contains dist then some dist else some (ds.foldl max 0)

/-- The held snapshot is replayed: pending bits set again, tags the array still holds re-armed at the distances of their
records, all counted from the next bundle. -/
def Ctx.replay (c : Ctx) : Ctx :=
  let j := c.bundles
  { c with flights := c.snapshot.map (·.flight j), snapshot := [], heldTags := []
           tags := c.heldTags.filterMap fun t => (heldDist c.snapshot t.1 t.2.2 t.2.1).map fun d => (t.1, j + d, t.2.2) }

/-- RFE (R352) at cycle `now`: results the handler issued land in issue order, its tags clear, HM clears, the snapshot is replayed,
the next bundle is at TRAPPC within its group and its wait (R51, R102, R345), and the watchdog count starts anew (R438). -/
def Ctx.rfe (c : Ctx) (now : Nat) : Ctx :=
  let c' := c.flights.foldl (fun c f => c.write f.dest f.val f.mask) c
  { c' with flights := [], tags := [], hm := false, pc := c.trappc, groupWrites := c.heldWrites, heldWrites := []
            holdBar := c.heldBar, heldBar := none, watch := now }.replay

/-! ## Engine queues -/

/-- The oldest operation of a queue completes: its tiles go full, and poison it met waits for the boundary, where it is cause 0x14 at
its first sector; the other sectors are reported (R290, R429, R442). -/
def finishJob (k : Nat) (j : Job) (s : State) : State :=
  let c := s.ctx j.ctx
  let s := s.modCore k fun q => q.finish c.bundles (j.writes.map (·.1))
  match j.poison with
  | [] => s
  | p :: l => (l.foldl (fun s p => consumed j.ctx p s) s).modCtx j.ctx fun c => { c with boundaryPoison := c.boundaryPoison ++ [p] }

def popTileQ (k : Nat) (s : State) : State :=
  match (s.core k).tileQ with
  | [] => s
  | j :: q => finishJob k j (s.modCore k fun c => { c with tileQ := q })
def popIndexQ (k : Nat) (s : State) : State :=
  match (s.core k).indexQ with
  | [] => s
  | j :: q => finishJob k j (s.modCore k fun c => { c with indexQ := q })
def popAssayQ (k : Nat) (s : State) : State :=
  match (s.core k).assayQ with
  | [] => s
  | j :: q => finishJob k j (s.modCore k fun c => { c with assayQ := q })
/-- Tile transfers complete in no fixed order (R257): entry `i` completes. -/
def popXferQ (k i : Nat) (s : State) : State :=
  match (s.core k).xferQ[i]? with
  | none => s
  | some j => finishJob k j (s.modCore k fun c => { c with xferQ := c.xferQ.eraseIdx i })

/-- Free values draw on the counter `tick`, which each use advances (log 3). -/
def State.bump (s : State) : State := { s with tick := s.tick + 1 }

/-! ## Charging and metering (R364, R369) -/

def State.modLaunch (s : State) (k : Nat) (f : Launch → Launch) : State :=
  match tfind s.launches k with
  | some l => { s with launches := tset s.launches k (f l) }
  | none => s

/-- `n` core-cycles charged to the VF of a context on its cluster, and to its launch (R364, R365). -/
def charge (g n : Nat) (s : State) : State :=
  let c := s.ctx g
  if (tfind s.launches c.launch).isNone then s
  else (s.modLaunch c.launch fun l => { l with cyc := l.cyc + n }).modCluster (clusterOf g) fun x =>
    { x with deficits := tset x.deficits c.vf (tget 0 x.deficits c.vf - (n : Int)) }

/-- `n` nJ metered for a context: its launch, its group and its VF (R369). -/
def meter (g n : Nat) (s : State) : State :=
  let c := s.ctx g
  if (tfind s.launches c.launch).isNone || n == 0 then s
  else
    let s := s.modLaunch c.launch fun l => { l with energyNJ := l.energyNJ + n }
    (s.modGroup c.group fun x => { x with metered := x.metered + n }).modVf c.vf fun v => { v with meter := v.meter + n }

end Sys2Proof.Machine
end

