-- ==== Sys2Proof/Machine/Pool.lean ====
section
/-!
DEFINITION. The compressed pool of a Vault: the line format, allocation and freeing of runs, quotas and the Reserve
(R406 to R417, R421). Data itself stands in `State.mem` as it reads; a Vault keeps each line's metadata and chunks.
-/
set_option Elab.async false
namespace Sys2Proof.Machine

/-! ## Frame map entries (R241) -/

def frP (e : W64) : Bool := bit e 0
def frC (e : W64) : Bool := bit e 1
def frD (e : W64) : Bool := bit e 2
def frSize (e : W64) : Nat := (bits e 3 2).toNat
def frCoh (e : W64) : Nat := (bits e 5 2).toNat
def frPin (e : W64) : Bool := bit e 7
/-- MLOC's Vault and tier: machine address bits 42:39 and bit 38. -/
def frVault (e : W64) : Nat := (bits e 38 4).toNat
def frTier (e : W64) : Bool := bit e 37
def frOwner (e : W64) : Nat := (bits e 42 12).toNat

/-- A map error (R241, R243, R406). Bits 15:10 of the machine address are one only where the frame is present (log 58). -/
def frError (e : W64) : Bool :=
  (!frP e && (frC e || frD e)) || frSize e == 3 || (frSize e != 0 && frC e) || frCoh e == 3 || bit e 8
    || (frP e && !frC e && bits e 9 6 != 0) || (frC e && !frTier e) || bits e 54 10 != 0

/-! ## The line format (R408 to R410) -/

/-- The eight doublewords of a sector. -/
def sectorWords (bs : List Byte) : List W64 :=
  (List.range 8).map fun k => BitVec.ofNat 64 (leNat ((bs.drop (8 * k)).take 8))

/-- Every difference from the first doubleword fits `w` bits, signed. -/
def deltasFit (w : Nat) (xs : List W64) : Bool :=
  xs.all fun x => (x - xs.headD 0) == ((x - xs.headD 0).setWidth w).signExtend 64

/-- The lowest class that represents a sector exactly (R409). -/
def sectorClass (xs : List W64) : Nat :=
  if xs.all (· == 0) then 0
  else if xs.all (· == xs.headD 0) then 1
  else if deltasFit 8 xs then 2
  else if deltasFit 16 xs then 3
  else if deltasFit 32 xs then 4
  else 5

/-- Delta width of classes 2 to 4 in bytes. -/
def classDelta : Nat → Nat
  | 2 => 1
  | 3 => 2
  | _ => 4

/-- Payload bytes of a class (R409). -/
def classBytes : Nat → Nat
  | 0 => 0
  | 1 => 8
  | 2 => 16
  | 3 => 24
  | 4 => 40
  | _ => 64

/-- The payload of a sector in its class (R409). -/
def sectorPayload (c : Nat) (xs : List W64) : List Byte :=
  match c with
  | 0 => []
  | 1 => leBytes 8 (xs.headD 0).toNat
  | 5 => xs.flatMap fun x => leBytes 8 x.toNat
  | c => leBytes 8 (xs.headD 0).toNat ++ xs.flatMap fun x => leBytes (classDelta c) (x - xs.headD 0).toNat

/-- The doublewords a payload stands for (R409). -/
def sectorUnpack (c : Nat) (bs : List Byte) : List W64 :=
  let x0 := BitVec.ofNat 64 (leNat (bs.take 8))
  match c with
  | 0 => List.replicate 8 0
  | 1 => List.replicate 8 x0
  | 5 => sectorWords bs
  | c => (List.range 8).map fun k =>
      x0 + (BitVec.ofNat (8 * classDelta c) (leNat ((bs.drop (8 + classDelta c * k)).take (classDelta c)))).signExtend 64

/-- The classes of a line's eight sectors. -/
def lineClasses (bs : List Byte) : List Nat := (List.range 8).map fun i => sectorClass (sectorWords (bs.drop (64 * i)))

/-- Chunks of a line with these classes (R410). -/
def lineSize (cs : List Nat) : Nat := ceilDiv (cs.foldl (fun n c => n + classBytes c) 0) 64

/-- The metadata doubleword (R408). -/
def lineWord (cs : List Nat) (run : Nat) : W64 :=
  BitVec.ofNat 64 (packNat 4 (fun i => cs.getD i 0) 8 + if cs.all (· == 0) then 0 else run * 2 ^ 32)

/-- The bytes of a line's run: payloads in sector order, padded with zeros (R410). -/
def linePayload (bs : List Byte) : List Byte :=
  let p := (List.range 8).flatMap fun i =>
    let xs := sectorWords (bs.drop (64 * i))
    sectorPayload (sectorClass xs) xs
  p ++ List.replicate (64 * lineSize (lineClasses bs) - p.length) 0

/-- Size and run that a metadata doubleword records. -/
def wordClasses (w : W64) : List Nat := (List.range 8).map fun i => (bits w (4 * i) 4).toNat
def wordSize (w : W64) : Nat := lineSize (wordClasses w)
def wordRun (w : W64) : Nat := (bits w 32 32).toNat

/-- A line's metadata is a data error: a class from 6 to 15, or a run past the end of the pool (R408, R412). -/
def Vault.badLine (v : Vault) (line : Nat) : Bool :=
  let w := tget 0 v.lineMeta line
  (wordClasses w).any (6 ≤ ·) || (wordSize w != 0 && decide (v.chunks < wordRun w + wordSize w))

/-! ## Chunks, quotas and the Reserve (R413 to R417) -/

def Vault.list (v : Vault) (c : Nat) : List Nat := tget [] v.lists c
def Vault.setList (v : Vault) (c : Nat) (l : List Nat) : Vault := { v with lists := tset v.lists c l }
def Vault.usedBy (v : Vault) (p : Nat) : Nat := tget 0 v.used p
def tinc (t : Tbl Nat) (k n : Nat) : Tbl Nat := tset t k (tget 0 t k + n)
def tdec (t : Tbl Nat) (k n : Nat) : Tbl Nat := tset t k (tget 0 t k - n)

/-- Chunks in a list of ranges, and the first 8-chunk run of one. -/
def rangeSize (l : List (Nat × Nat)) : Nat := l.foldl (fun n r => n + (r.2 - r.1)) 0
def takeRun : List (Nat × Nat) → Option (Nat × List (Nat × Nat))
  | [] => none
  | r :: l => some (r.1, if r.1 + 8 < r.2 then (r.1 + 8, r.2) :: l else l)

/-- Chunks on the free lists. -/
def Vault.free (v : Vault) : Nat := v.lists.foldl (fun n e => n + e.1 * e.2.length) (rangeSize v.fresh)
/-- Chunks in the Reserve. -/
def Vault.reserved (v : Vault) : Nat := rangeSize v.reserve

/-- A freed run goes to the list of its size (R414). -/
def Vault.freeRun (v : Vault) (run n : Nat) : Vault := if n = 0 then v else v.setList n (v.list n ++ [run])

/-- Expected chunks of a compressed frame granted at R16 (R415). -/
def expected (r16 : Nat) : Nat := 16 + ceilDiv (1024 * 16) r16

/-- QUOTA of a partition: the sum of E over its compressed frames on the Vault. -/
def Vault.quota (v : Vault) (p : Nat) : Nat :=
  v.ratio.foldl (fun n e => if tfind v.frameOwner e.1 = some p then n + expected e.2 else n) 0
/-- QUOTA summed over all partitions. -/
def Vault.quotas (v : Vault) : Nat := v.ratio.foldl (fun n e => n + expected e.2) 0
/-- OVER (R417). -/
def Vault.over (v : Vault) : Nat := v.used.foldl (fun n e => n + (e.2 - v.quota e.1)) 0
/-- SLACK (R417). -/
def Vault.slack (v : Vault) : Nat := v.vcap - v.target - v.quotas

/-- The head run of list `c`, and the Vault without it. -/
def Vault.takeHead (v : Vault) (c : Nat) : Option (Nat × Vault) :=
  match v.list c with
  | r :: rs => some (r, v.setList c rs)
  | [] => if c = 8 then (takeRun v.fresh).map fun t => (t.1, { v with fresh := t.2 }) else none

/-- The smallest nonempty list from `n` upward. -/
def Vault.listFrom (v : Vault) (n : Nat) : Option Nat := leastFrom (fun c => (v.takeHead c).isSome) n (9 - n)

/-- A run of `n` chunks from the free lists (R413): the head of the smallest nonempty list, its remainder freed. -/
def Vault.takeList (v : Vault) (n : Nat) : Option (Nat × Vault) :=
  match v.listFrom n with
  | none => none
  | some c => (v.takeHead c).map fun t => (t.1, t.2.freeRun (t.1 + n) (c - n))

/-- A draw of one 8-chunk run of the Reserve, its rest freed (R416). -/
def Vault.draw (v : Vault) (n p : Nat) : Option (Nat × Vault) :=
  (takeRun v.reserve).map fun t =>
    (t.1, { v with reserve := t.2, prdraw := tinc v.prdraw p 8, vrdraw := v.vrdraw + 8 }.freeRun (t.1 + n) (8 - n))

/-- Ranges without the chunks of `[lo, hi)`. -/
def cutRanges (l : List (Nat × Nat)) (lo hi : Nat) : List (Nat × Nat) :=
  (l.flatMap fun r => [(r.1, min r.2 lo), (max r.1 hi, r.2)]).filter fun r => decide (r.1 < r.2)

/-- The free chunks of `[lo, lo + n)` leave the lists; none unless all of it is free. -/
def Vault.takeRange (v : Vault) (lo n : Nat) : Option Vault :=
  let inside (c r : Nat) : Bool := decide (lo ≤ r ∧ r + c ≤ lo + n)
  let rest := cutRanges v.fresh lo (lo + n)
  let got := v.lists.foldl (fun k e => k + e.1 * (e.2.filter (inside e.1)).length) (rangeSize v.fresh - rangeSize rest)
  if got = n then some { v with fresh := rest, lists := v.lists.map fun e => (e.1, e.2.filter fun r => !inside e.1 r) } else none

/-- The least multiple of 16 that is at least `a`. -/
def up16 (a : Nat) : Nat := (a + 15) / 16 * 16

/-- 16 free chunks, 1 KiB aligned (R406). -/
def Vault.listBlock (v : Vault) : Option (Nat × Vault) :=
  match v.fresh.find? fun r => decide (up16 r.1 + 16 ≤ r.2) with
  | some r => (v.takeRange (up16 r.1) 16).map fun w => (up16 r.1, w)
  | none => match (v.list 8).find? fun b => b % 16 == 0 && (v.list 8).contains (b + 8) with
    | some b => (v.takeRange b 16).map fun w => (b, w)
    | none => none

/-- Two runs of the Reserve side by side, 1 KiB aligned (R416). -/
def Vault.drawBlock (v : Vault) (p : Nat) : Option (Nat × Vault) :=
  (v.reserve.find? fun r => decide (up16 r.1 + 16 ≤ r.2)).map fun r =>
    (up16 r.1, { v with reserve := cutRanges v.reserve (up16 r.1) (up16 r.1 + 16), prdraw := tinc v.prdraw p 16, vrdraw := v.vrdraw + 16 })

/-- An allocation that leaves USED of `p` at `used'` (R413, R417): `take` from the free lists unless it is a borrow past SLACK, else
`draw` from the Reserve. The answer tells whether a borrow drew from the Reserve. None: the Reserve holds no run (R421). -/
def Vault.allocateBy (v : Vault) (p used' : Nat) (take draw : Option (Nat × Vault)) : Option (Nat × Bool × Vault) :=
  let v' := { v with used := tset v.used p used' }
  let borrow := decide (v.quota p < used')
  match (if !borrow || decide (v'.over ≤ v'.slack) then take else none) with
  | some (r, w) => some (r, false, { w with used := tset w.used p used' })
  | none => draw.map fun t => (t.1, borrow, { t.2 with used := tset t.2.used p used' })

/-- allocate(n, p) for a line whose old run of `m` chunks is freed after (R411, R413, R417). -/
def Vault.allocate (v : Vault) (n m p : Nat) : Option (Nat × Bool × Vault) :=
  v.allocateBy p (v.usedBy p + n - m) (v.takeList n) (v.draw n p)

/-- A metadata block is allocated as data is (R406, R413, R417). -/
def Vault.takeBlock (v : Vault) (p : Nat) : Option (Nat × Bool × Vault) :=
  v.allocateBy p (v.usedBy p + 16) v.listBlock (v.drawBlock p)

/-- A borrow of `p` for a line drew from the Reserve: its line is the last one (R418, R420). -/
def Vault.addBorrow (v : Vault) (p line : Nat) (borrowed : Bool) : Vault :=
  if borrowed then { v with borrowers := v.borrowers.filter (·.1 ≠ p) ++ [(p, line)] } else v

/-- What a write of a line did: applied, or held for lack of Reserve chunks (R421). -/
inductive LineWrite where
  | done (v : Vault)
  | held
  deriving DecidableEq, Repr

/-- A Vault processes a write to a line whole (R411): `bs` are the line's bytes with the written ones merged in. -/
def Vault.writeLine (v : Vault) (line p : Nat) (bs : List Byte) : LineWrite :=
  let cs := lineClasses bs
  let n := lineSize cs
  let w := tget 0 v.lineMeta line
  let m := wordSize w
  if n = m then .done { v with lineMeta := tset v.lineMeta line (lineWord cs (wordRun w)) }
  else if n = 0 then
    .done ({ v with lineMeta := tset v.lineMeta line 0, used := tdec v.used p m, realloc := tinc v.realloc p 1 }.freeRun (wordRun w) m)
  else
    match v.allocate n m p with
    | none => .held
    | some (r, borrowed, v) =>
      .done (({ v with lineMeta := tset v.lineMeta line (lineWord cs r), realloc := tinc v.realloc p 1 }.freeRun (wordRun w) m).addBorrow
        p line borrowed)

/-- The Vault and owner of a compressed frame. -/
def State.lineHome (s : State) (line : Nat) : Option (Nat × Nat) :=
  let e := s.frame (line / 128)
  if frP e && frC e then
    let v := frVault e
    some (v, (tfind (s.vault v).frameOwner (line / 128)).getD 0)
  else none

/-- Channel `ch` of a cluster's copy engine stops with a cause; its other channels go on (R393, R394). -/
def freezeChannel (cl ch cause part : Nat) (addr : W64) (s : State) : State :=
  let c := s.cluster cl
  if c.frozenChannels.contains ch then s
  else violation 1 cause part (8 * cl + ch) addr (s.modCluster cl fun c => { c with frozenChannels := c.frozenChannels ++ [ch] })

/-- The channels that work for a partition, cluster by cluster. -/
def State.channelsOf (s : State) (p : Nat) : List (Nat × Nat) :=
  s.clusters.flatMap fun c => if c.2.part = some p then ((c.2.copies.map (·.channel)).dedup).map fun ch => (c.1, ch) else []

/-- Frozen for another cause than space. -/
def Run.frozenElse (r : Run) : Bool :=
  match r with
  | .frozen c => c != 0x0A
  | _ => false

/-- The Balloon engine is exhausted while OVER exceeds SLACK: every partition over its quota that has borrowed from the Reserve is
out of space, and its contexts freeze at their next boundary, its copy channels at once; one that a violation has frozen already gets
the space's record beside its own (R420, R393). -/
def decideSpace (v : Nat) (s : State) : State :=
  let vt := s.vault v
  let out := vt.borrowers.filter fun b => decide (vt.quota b.1 < vt.usedBy b.1) && !vt.outOfSpace.contains b.1
  if !vt.exhausted || decide (vt.over ≤ vt.slack) then s
  else out.foldl (fun s b =>
    if (s.vault v).outOfSpace.contains b.1 then s
    else
      let pa : W64 := BitVec.ofNat 64 (512 * b.2)
      let mark (c : Ctx) : Ctx :=
        if c.part = b.1 && c.run != .idle && !c.run.isFrozen then { c with boundaryFreeze := some (c.boundaryFreeze.getD pa) } else c
      let frozen := (s.ctxs.filter fun c => c.2.part == b.1 && c.2.run.frozenElse).map (·.1)
        ++ (s.saves.filter fun x => x.2.ctx.part == b.1 && x.2.ctx.run.frozenElse).map fun x => x.2.home
      let cs : Tbl Ctx := s.ctxs.map fun c => (c.1, mark c.2)
      let sv : Tbl Saved := s.saves.map fun x => (x.1, { x.2 with ctx := mark x.2.ctx })
      let s := s.each frozen fun g s => violation 0 0x0A b.1 g pa s
      (s.channelsOf b.1).foldl (fun s c => freezeChannel c.1 c.2 0x0A b.1 pa s)
        (({ s with ctxs := cs, saves := sv } : State).modVault v fun vt => { vt with outOfSpace := vt.outOfSpace ++ [b.1] })) s

/-- A write waits for chunks: it is reported, and the Balloon engine runs until chunks free (R421). -/
def holdWrite (v line p : Nat) (s : State) : State :=
  errorRecord 4 15 (some p) (8 * v + 7) (BitVec.ofNat 64 (512 * line))
    (s.modVault v fun vt => { vt with held := vt.held ++ [{ src := none, line := line, off := 0, data := [], since := s.cycles.toNat }], exhausted := false })

/-- The Balloon engine has a reason to run (R418, R421). -/
def Vault.wants (v : Vault) : Bool :=
  decide (v.reserved < v.target) || decide (v.free < 2 ^ 20) || v.borrowers.any (fun b => decide (v.quota b.1 < v.usedBy b.1)) || !v.held.isEmpty

/-- A partition back within its quota has no borrow left, and an engine with nothing to do is idle (R420, R425). -/
def Vault.rest (v : Vault) : Vault :=
  let v := { v with borrowers := v.borrowers.filter fun b => decide (v.quota b.1 < v.usedBy b.1) }
  if v.wants then v else { v with exhausted := false, step := 0 }

/-- A frame of a Vault is touched (R418; by which accesses: log 50). -/
def Vault.touched (v : Vault) (f now : Nat) : Vault := { v with touch := tset v.touch f now }

/-- A write that leaves a line in another number of chunks, but none, needs a run of its own (R411, R413). -/
def Vault.needsRun (v : Vault) (line : Nat) (bs : List Byte) : Bool :=
  let n := lineSize (lineClasses bs)
  n != wordSize (tget 0 v.lineMeta line) && n != 0

/-- The Vault takes note of bytes just written into a line of a compressed frame (R411). A write it must hold is recorded
(R421), and from then on every later write of the Vault that needs chunks. A demoted frame has no chunks: its lines take theirs
when it is restored (R419). -/
def noteLine (line : Nat) (s : State) : State :=
  match s.lineHome line with
  | none => s
  | some (v, p) =>
    let vt := s.vault v
    let bs := readBytes s.mem (512 * line) 512
    if frD (s.frame (line / 128)) then s
    else if !vt.held.isEmpty && vt.needsRun line bs then holdWrite v line p s
    else
      match vt.writeLine line p bs with
      | .done vt' => decideSpace v (s.modVault v fun _ => vt'.rest.touched (line / 128) s.tick)
      | .held => holdWrite v line p s

/-- Notes for every line that `n` bytes from device-physical `a` touch. -/
def noteLines (a n : Nat) (s : State) : State :=
  if n = 0 then s
  else ((List.range ((a + n - 1) / 512 + 1 - a / 512)).map (· + a / 512)).foldl (fun s l => noteLine l s) s

/-! ## Demoted frames (R242, R419) -/

/-- A compressed frame's metadata block at chunk `b` of Vault `v`, in MLOC (R241, R406). -/
def setMloc (e : W64) (v b : Nat) : W64 := (e &&& ~~~(0x1FFFFFFFF#64 <<< 9)) ||| BitVec.ofNat 64 ((v * 2 ^ 29 + 2 ^ 28 + b / 16) * 2 ^ 9)

/-- A compressed frame takes a metadata block and a run for every line that needs one, as writes of its partition (R413, R415, R417,
R419). None when the pool cannot serve it. -/
def Vault.takeIn (v : Vault) (mem : Memory) (f p : Nat) : Option (Nat × Vault) :=
  match v.takeBlock p with
  | none => none
  | some (b, borrowed, v) =>
    ((List.range 128).foldl (fun (acc : Option Vault) j =>
      match acc with
      | none => none
      | some vt => match vt.writeLine (128 * f + j) p (readBytes mem (65536 * f + 512 * j) 512) with
        | .done vt => some vt
        | .held => none) (some ({ v with metaBlocks := tset v.metaBlocks f b }.addBorrow p (128 * f) borrowed))).map fun v => (b, v)

/-! ## Held writes end (R421, R438) -/

/-- A Vault holds a write of the source, which stalls in place. -/
def State.holdsFor (s : State) (x : Source) : Bool := s.vaults.any fun v => v.2.held.any fun h => h.src == some x

/-- A source that stalled since a cycle goes on: a context's watchdog has not run meanwhile (R438), another's access completes. -/
def wake (x : Source) (since : Nat) (s : State) : State :=
  match x with
  | .ctx g => s.modCtx g fun c => { c with watch := c.watch + (s.cycles.toNat - max since c.watch) }
  | .hart h a => s.modHart h fun c => { c with answer := a }
  | .door a => { s with answer := a }

/-- Held writes of a Vault have been applied, or have lost their line: their sources go on once no write of theirs is held. -/
def releaseHeld (v : Nat) (gone : HeldWrite → Bool) (s : State) : State :=
  let out := (s.vault v).held.filter gone
  let s := s.modVault v fun vt => { vt with held := vt.held.filter fun h => !gone h }
  (out.filterMap (·.src)).dedup.foldl (fun s x =>
    let since := (out.filter fun h => h.src == some x).foldl (fun n h => min n h.since) s.cycles.toNat
    let carry (h : HeldWrite) : HeldWrite := if h.src = some x then { h with since := min h.since since } else h
    if s.holdsFor x then { s with vaults := s.vaults.map fun w => (w.1, { w.2 with held := w.2.held.map carry }) }
    else wake x since s) s

/-- A Vault no longer holds writes to the lines of a frame: its contents are gone, or are whole elsewhere. -/
def dropHeld (v f : Nat) (s : State) : State :=
  releaseHeld v (fun h => h.line / 128 == f) (s.modVault v fun vt => { vt with stuck := vt.stuck.filter fun h => decide (h.line / 128 ≠ f) })

/-- A Vault restores a demoted frame if its pool serves it; its allocations may be borrows (R419, R420), but of a partition out of space
none from the Reserve (R421). Writes held for its lines are among what it takes in. -/
def restoreNow (f : Nat) (s : State) : Option State :=
  let e := s.frame f
  let v := frVault e
  let p := (tfind (s.vault v).frameOwner f).getD 0
  match (s.vault v).takeIn s.mem f p with
  | none => none
  | some (b, vt) =>
    if vt.reserved < (s.vault v).reserved && (s.vault v).outOfSpace.contains p then none
    else some (decideSpace v (releaseHeld v (fun h => h.line / 128 == f)
      ((s.modVault v fun _ => { vt with demoted := vt.demoted.filter (· ≠ f) }.rest.touched f s.tick).setFrame f (setMloc (e &&& ~~~4#64) v b))))

/-- A demoted frame is restored, or stays demoted and the access keeps stalling: its partition is out of space and the Reserve would have
to serve it; or the Reserve is empty, or writes before it are held, and it is held as they are, and reported (R421). -/
def restoreFrame (f : Nat) (s : State) : State :=
  let v := frVault (s.frame f)
  let vt := s.vault v
  let p := (tfind vt.frameOwner f).getD 0
  match (if vt.held.isEmpty then restoreNow f s else none) with
  | some t => t
  | none =>
    if vt.outOfSpace.contains p || vt.held.any (fun h => h.line == 128 * f) then s else holdWrite v (128 * f) p s

/-! ## What the chunks hold (R408, R410) -/

/-- The bytes of a line's run, as its classes store what memory reads. -/
def State.runBytes (s : State) (line : Nat) : List Byte := linePayload (readBytes s.mem (512 * line) 512)

/-- The 64 bytes of chunk `c` of a Vault's pool: a part of a line's run, or of a frame's metadata block; none of a free one. -/
def State.chunk (s : State) (v c : Nat) : List Byte :=
  let vt := s.vault v
  match vt.lineMeta.find? fun l => decide (wordRun l.2 ≤ c ∧ c < wordRun l.2 + wordSize l.2) with
  | some l => ((s.runBytes l.1).drop (64 * (c - wordRun l.2))).take 64
  | none => match vt.metaBlocks.find? fun b => decide (b.2 ≤ c ∧ c < b.2 + 16) with
    | some b => (List.range 8).flatMap fun i => leBytes 8 (tget 0 vt.lineMeta (128 * b.1 + 8 * (c - b.2) + i)).toNat
    | none => []

end Sys2Proof.Machine
end

