-- ==== Sys2Proof/Machine/Memory.lean ====
section
/-!
DEFINITION. Memory as a context reaches it: the local window (R65, R66), the Mint window (R382, R386), the Segment Window
Table with its views (R234 to R240), the frame map probe (R241 to R243), reading and writing with poison (R441, R442), and
the checks of R282 over the sectors of an access. Every access performs when it issues (log 10).
-/
set_option Elab.async false
namespace Sys2Proof.Machine

/-! ## Segment Window Table entries (R234) -/

def swV (e : BitVec 256) : Bool := bit e 41
def swBase (e : BitVec 256) : Nat := (bits e 0 41).toNat * 65536
def swLen (e : BitVec 256) : Nat := ((bits e 48 32).toNat + 1) * 65536
def swPhys (e : BitVec 256) : Nat := (bits e 80 32).toNat * 65536
def swRights (e : BitVec 256) : BitVec 4 := bits e 112 4
def swCoh (e : BitVec 256) : Nat := (bits e 116 2).toNat
def swComp (e : BitVec 256) : Nat := (bits e 118 2).toNat
def swLay (e : BitVec 256) : Bool := bit e 120
def swPrio (e : BitVec 256) : Nat := (bits e 121 3).toNat
def swVf (e : BitVec 256) : Nat := (bits e 124 10).toNat

/-- The Z-order view of an offset: 16-byte granules of a 4 KiB block, row and column bits interleaved (R240). -/
def zview (o : Nat) : Nat :=
  let m := (List.range 4).foldl (fun m i => m + (if o.testBit (8 + i) then 2 ^ (5 + 2 * i) else 0)
    + (if o.testBit (4 + i) then 2 ^ (4 + 2 * i) else 0)) 0
  o / 4096 * 4096 + m + o % 16

def viewOf (lay : Bool) (o : Nat) : Nat := if lay then zview o else o

/-- The place `i` bytes further on. -/
def Place.plus (p : Place) (i : Nat) : Place :=
  match p with
  | .dp b lay off => .dp b lay (off + i)
  | .scratch g off => .scratch g (off + i)
  | .csram k off => .csram k (off + i)
  | .mint g off => .mint g (off + i)

/-- What an access asks of an entry (R236). `c` asks for the right of a store and is no store of the context: a store of the copy
engine, whose meeting with a spill area is found at the Vault (R392), and CLCFG's translation of its own area (R225). -/
inductive Right where
  | r | w | a | x | c
  deriving DecidableEq, Repr

def Right.ok (k : Right) (rights : BitVec 4) : Bool :=
  match k with
  | .r => bit rights 0
  | .w | .c => bit rights 1
  | .a => bit rights 0 && bit rights 1 && bit rights 2
  | .x => bit rights 3

/-! ## The Mint window (R382 to R386) -/

/-- MINTOCC, MINTDRAFT and MINTBUCKET (R381). -/
def Mint.occReg (m : Mint) : W64 := BitVec.ofNat 64 (m.occ + 256 * m.act.toNat)
def Mint.draftReg (m : Mint) : W64 := BitVec.ofNat 64 m.draft
def Mint.bucketReg (m : Mint) : W64 :=
  BitVec.ofNat 64 (m.bucketOcc + 16 * m.bucketD + 256 * m.shrunk.toNat + 512 * m.evict.toNat + 2 ^ 32 * m.bucketIter.toNat)

/-- A request-table entry as it reads (R383). -/
def MintReq.entry (q : MintReq) : BitVec 256 :=
  BitVec.ofNat 256 (q.active.toNat + 2 * (q.prio % 8) + 2 ^ 32 * (q.tokens % 2 ^ 32) + 2 ^ 64 * (q.pages.length % 65536))

/-- The Mint of the context's die, when it serves the context's task. -/
def State.mintOf (s : State) (g : Nat) : Option Mint :=
  match (s.die (dieOf g)).mint with
  | some m => if m.launch = (s.ctx g).launch then some m else none
  | none => none

/-- The global number of task mailbox `m` of a launch (R385). -/
def State.taskMailbox (s : State) (launch m : Nat) : Option Nat :=
  (s.mailboxes.find? fun e => e.2.launch == some launch && e.2.number == m).map (·.1)

/-- A byte of a Mint's own part of the window. -/
def Mint.byte (m : Mint) (off : Nat) : Byte :=
  if off < 0x20 then
    let w := match off / 8 with
      | 0 => m.occReg
      | 1 => m.draftReg
      | 2 => m.bucketReg
      | _ => m.bucketIter.setWidth 64
    w.extractLsb' (8 * (off % 8)) 8
  else if 0x40 ≤ off ∧ off < 0x140 then
    (tget MintReq.initial m.reqs ((off - 0x40) / 32)).entry.extractLsb' (8 * ((off - 0x40) % 32)) 8
  else if 0x140 ≤ off ∧ off < 0x180 then (tget 0 m.accept ((off - 0x140) / 8)).extractLsb' (8 * (off % 8)) 8
  else if 0x8000 ≤ off then readByte (tget [] m.drafts ((off - 0x8000) / 0x1000)) (off % 0x1000)
  else 0

/-- A byte of the window as a context of the task reads it. -/
def mintByte (s : State) (g off : Nat) : Byte :=
  if 0x4000 ≤ off ∧ off < 0x8000 then
    match s.taskMailbox (s.ctx g).launch ((off - 0x4000) / 0x400) with
    | some n => readByte (s.mailbox n).bytes (off % 0x400)
    | none => 0
  else match s.mintOf g with
    | some m => m.byte off
    | none => 0

/-- DIR of a mailbox: the task sends (R385). -/
def Mailbox.taskSends (m : Mailbox) : Bool := bit (readByte m.bytes 16) 0
def Mailbox.hart (m : Mailbox) : Nat := leNat (readBytes m.bytes 16 2) / 16 % 64

/-- A mailbox exists for the offset, or the access is outside the mailboxes (R386). -/
def mintReadOk (s : State) (g off : Nat) : Bool :=
  if 0x4000 ≤ off ∧ off < 0x8000 then (s.taskMailbox (s.ctx g).launch ((off - 0x4000) / 0x400)).isSome else true

/-- The rights of a store of `n` bytes by a task context (R382, R386). -/
def mintStoreOk (s : State) (g off n oc : Nat) : Bool :=
  if 0x140 ≤ off ∧ off + n ≤ 0x180 then (s.ctx g).stream && oc == 15
  else if 0x4000 ≤ off ∧ off < 0x8000 then
    match s.taskMailbox (s.ctx g).launch ((off - 0x4000) / 0x400) with
    | none => false
    | some k =>
      let o := off % 0x400
      if (s.mailbox k).taskSends then decide (o + n ≤ 8) || decide (64 ≤ o) else decide (8 ≤ o ∧ o + n ≤ 16)
  else false

/-- A store of a task context that its rights allow. A store to SEQ of a sending mailbox raises the interrupt of its
general core (R386). -/
def mintStore (g off : Nat) (bs : List Byte) (s : State) : State :=
  if off < 0x180 then
    let put (t : Tbl W64) (b : Byte × Nat) : Tbl W64 :=
      let o := off + b.2 - 0x140
      tset t (o / 8) (setBits (tget 0 t (o / 8)) (8 * (o % 8)) b.1)
    s.modDie (dieOf g) fun d => { d with mint := d.mint.map fun m => { m with accept := bs.zipIdx.foldl put m.accept } }
  else
    match s.taskMailbox (s.ctx g).launch ((off - 0x4000) / 0x400) with
    | none => s
    | some k =>
      let m := s.mailbox k
      let s := { s with mailboxes := tset s.mailboxes k { m with bytes := writeBytes m.bytes (off % 0x400) bs } }
      if m.taskSends && decide (off % 0x400 < 8) then
        { s with harts := tset s.harts m.hart { tget Hart.initial s.harts m.hart with interrupt := true } }
      else s

/-! ## Translation (R236 to R243) -/

/-- DPSIZE in bytes (R23, R29). -/
def State.dpBytes (s : State) : Nat := s.regs.dpsizeGiB * 2 ^ 30

/-- The probe of the frame that holds device-physical `pa` (R242, R243, R412): a cause, or the frame to restore. -/
def probe (s : State) (pa : Nat) : Except (Nat × W64) (Option Nat) :=
  let f := pa / 65536
  let e := s.frame f
  if s.dpBytes ≤ pa then .error (0x08, BitVec.ofNat 64 pa)
  else if frError e then .error (0x14, BitVec.ofNat 64 (pa / 64 * 64))
  else if !frP e then .error (0x08, BitVec.ofNat 64 pa)
  else if frD e then .ok (some f)
  else if frC e && (s.vault (frVault e)).badLine (pa / 512) then
    .error (0x14, BitVec.ofNat 64 (pa / 64 * 64))
  else .ok none

/-- The valid entry that holds `n` bytes at `va` (R236). -/
def Ctx.entryFor (c : Ctx) (va n : Nat) : Option (BitVec 256) :=
  (c.swt.find? fun e => swV e.2 && decide (swBase e.2 ≤ va) && decide (va + n ≤ swBase e.2 + swLen e.2)).map (·.2)

/-- Bits 63:57 zero and bits 56:48 all ones: the local window (R65). -/
def inWindow (va : Nat) : Bool := va / 2 ^ 48 == 0x1FF

/-- The bytes of the window (R65, R66); `parts` are the offsets and lengths in the access that it touches. -/
def windowPlace (s : State) (g va n : Nat) (parts : List (Nat × Nat)) (k : Right) (oc : Nat) : Except (Nat × W64) Place :=
  let c := s.ctx g
  let o := va % 2 ^ 32
  let miss : Except (Nat × W64) Place := .error (0x04, BitVec.ofNat 64 va)
  let bad : Except (Nat × W64) Place := .error (0x05, BitVec.ofNat 64 va)
  if k = .x then miss else
  match va / 2 ^ 32 % 65536 with
  | 0 => if o + n ≤ c.scratchSize then .ok (.scratch g o) else miss
  | 1 => if o + n ≤ (s.group c.group).csramSize then .ok (.csram c.group o) else miss
  | 2 => if 65536 < o + n then miss
    else if !mintReadOk s g o then bad
    else if k = .r || parts.all (fun t => mintStoreOk s g (o + t.1) t.2 oc) then .ok (.mint g o) else bad
  | _ => miss

/-- A byte of an open Clearing session's spill area: a store of any other master is a violation (R225). Views move bytes
within blocks of 4 KiB only. -/
def spillAt (s : State) (pa : Nat) : Bool :=
  s.clusters.any fun c => match c.2.session with
    | some x => match x.spill with
      | some base => x.pinned.zipIdx.any fun f =>
          f.1 == pa / 65536 && decide (base ≤ (base / 65536 + f.2) * 65536 + pa % 65536 / 4096 * 4096)
            && decide ((base / 65536 + f.2) * 65536 + pa % 65536 / 4096 * 4096 < base + 2 ^ 24)
      | none => false
    | none => false

/-- `vtr` for one aligned sector of an access that touches `parts` of it: the first check of R236 that fails, as cause and TRAPINFO. -/
def xlateParts (s : State) (g va n : Nat) (parts : List (Nat × Nat)) (k : Right) (oc : Nat) : Except (Nat × W64) Sector :=
  if inWindow va then
    (windowPlace s g va n parts k oc).map fun p => { va := va, n := n, place := p, coh := none, demoted := none }
  else if 2 ^ 57 ≤ va then .error (0x04, BitVec.ofNat 64 va)
  else match (s.ctx g).entryFor va n with
    | none => .error (0x04, BitVec.ofNat 64 va)
    | some e =>
      if !k.ok (swRights e) then .error (0x05, BitVec.ofNat 64 va)
      else
        let o := va - swBase e
        match probe s (swPhys e + viewOf (swLay e) o) with
        | .error x => .error x
        | .ok d =>
          if (k = .w || k = .a) && spillAt s (swPhys e + o) then .error (0x05, BitVec.ofNat 64 va)
          else .ok { va := va, n := n, place := .dp (swPhys e) (swLay e) o, coh := some (swCoh e), demoted := d }

/-- `vtr` for one aligned sector of an access that touches all of it. -/
def xlate (s : State) (g va n : Nat) (k : Right) (oc : Nat) : Except (Nat × W64) Sector := xlateParts s g va n [(0, n)] k oc

/-! ## Bytes -/

/-- Device-physical address of byte `i` of a place. -/
def dpByte (base : Nat) (lay : Bool) (off i : Nat) : Nat := base + viewOf lay (off + i)

/-- The bytes of a place. -/
def readPlace (s : State) (p : Place) (n : Nat) : List Byte :=
  match p with
  | .dp base false off => readBytes s.mem (base + off) n
  | .dp base true off => (List.range n).map fun i => readByte s.mem (dpByte base true off i)
  | .scratch g off => readBytes (s.ctx g).scratch off n
  | .csram k off => readBytes (s.group k).csram off n
  | .mint g off => (List.range n).map fun i => mintByte s g (off + i)

/-- Bits of TRAPINFO for a poisoned sector (R442): device-physical, or a local offset with bit 62. -/
def localInfo (off : Nat) : W64 := BitVec.ofNat 64 (off / 64 * 64 + 2 ^ 62)

/-- The lowest poisoned sector `n` bytes of a place touch, as TRAPINFO (R441, R442). -/
def poisonAt (s : State) (p : Place) (n : Nat) : Option W64 :=
  let idx := List.range n
  match p with
  | .dp base lay off =>
    if s.poison.isEmpty then none
    else (idx.find? fun i => s.poison.contains (dpByte base lay off i / 64)).map fun i =>
      BitVec.ofNat 64 (dpByte base lay off i / 64 * 64)
  | .scratch g off =>
    if (s.ctx g).scratchPoison.isEmpty then none
    else (idx.find? fun i => (s.ctx g).scratchPoison.contains ((off + i) / 64)).map fun i => localInfo (off + i)
  | .csram k off =>
    if (s.group k).csramPoison.isEmpty then none
    else (idx.find? fun i => (s.group k).csramPoison.contains ((off + i) / 64)).map fun i => localInfo (off + i)
  | .mint .. => none

/-- Bytes written to device-physical memory that the probe has found in order; the Vault notes compressed lines (R411). A write of a
whole sector clears its poison (R441). -/
def writeDp (a : Nat) (bs : List Byte) (s : State) : State :=
  let s := { s with mem := writeBytes s.mem a bs
                    poison := s.poison.filter fun x => !decide (a ≤ 64 * x ∧ 64 * x + 64 ≤ a + bs.length) }
  noteLines a bs.length s

/-- A line with bad metadata among those that `n` bytes from device-physical `a` touch (R412). -/
def badLineAt (s : State) (a n : Nat) : Option (Nat × Nat × Nat) :=
  ((List.range ((a + n - 1) / 512 + 1 - a / 512)).map (· + a / 512)).findSome? fun l =>
    match s.lineHome l with
    | some (v, p) => if !frD (s.frame (l / 128)) && (s.vault v).badLine l then some (l, v, p) else none
    | none => none

/-- Bytes written by an agent that makes no probe of its own, such as a write-back: a demoted frame is restored first (R419), and a
write to a line with bad metadata is held and reported, its bytes not applied (R412). -/
def writeBack (a : Nat) (bs : List Byte) (s : State) : State :=
  if bs.isEmpty then s
  else
    let fs := (((List.range ((a + bs.length - 1) / 65536 + 1 - a / 65536)).map (· + a / 65536)).filter fun f =>
      frP (s.frame f) && frD (s.frame f))
    let s := fs.foldl (fun s f => restoreFrame f s) s
    match badLineAt s a bs.length with
    | some (l, v, p) =>
      errorRecord 1 15 (some p) (8 * v + 7) (BitVec.ofNat 64 (512 * l)) (s.modVault v fun vt =>
        { vt with stuck := vt.stuck ++ [{ src := none, line := a / 512, off := a % 512, data := bs, since := s.cycles.toNat }] })
    | none => writeDp a bs s

/-- Bytes written to a place. A write through a Z view lies within one line and reaches its Vault whole (R240, R411). -/
def writePlace (p : Place) (bs : List Byte) (s : State) : State :=
  let whole (off : Nat) : Bool := decide (off % 64 = 0 ∧ bs.length = 64)
  match p with
  | .dp base false off => writeDp (base + off) bs s
  | .dp base true off =>
    noteLines (dpByte base true off 0 / 512 * 512) (min 1 bs.length)
      { s with mem := bs.zipIdx.foldl (fun m b => writeByte m (dpByte base true off b.2) b.1) s.mem }
  | .scratch g off => s.modCtx g fun c => { c with
      scratch := writeBytes c.scratch off bs
      scratchPoison := if whole off then c.scratchPoison.filter (· ≠ off / 64) else c.scratchPoison }
  | .csram k off => s.modGroup k fun c => { c with
      csram := writeBytes c.csram off bs
      csramPoison := if whole off then c.csramPoison.filter (· ≠ off / 64) else c.csramPoison }
  | .mint g off => mintStore g off bs s

/-- The sectors `n` bytes of a place touch become poisoned (R441). -/
def poisonPlace (p : Place) (n : Nat) (s : State) : State :=
  let add (l : List Nat) (x : Nat) : List Nat := if l.contains x then l else l ++ [x]
  match p with
  | .dp base lay off => { s with poison := (List.range n).foldl (fun l i => add l (dpByte base lay off i / 64)) s.poison }
  | .scratch g off => s.modCtx g fun c =>
      { c with scratchPoison := (List.range n).foldl (fun l i => add l ((off + i) / 64)) c.scratchPoison }
  | .csram k off => s.modGroup k fun c =>
      { c with csramPoison := (List.range n).foldl (fun l i => add l ((off + i) / 64)) c.csramPoison }
  | .mint .. => s

/-! ## The checks of R282 over an access -/

/-- `[va, va + n)` cut at 64-byte sectors. -/
def pieces (va n : Nat) : List (Nat × Nat) :=
  if n = 0 then []
  else (List.range ((va + n - 1) / 64 + 1 - va / 64)).map fun k =>
    let lo := if k = 0 then va else (va / 64 + k) * 64
    (lo, min (va + n) ((va / 64 + k + 1) * 64) - lo)

/-- A scratch word that `n` bytes touch carries a CK pending tag (R205). -/
def Ctx.tagged (c : Ctx) (off n : Nat) : Bool := c.tags.any fun t => decide (off / 8 ≤ t.1 ∧ t.1 ≤ (off + n - 1) / 8)

def Sector.tagged (s : State) (x : Sector) : Bool :=
  match x.place with
  | .scratch g off => (s.ctx g).tagged off x.n
  | _ => false

/-- The fault of the lowest address among those of several sectors, each with a number that goes by its exact address. -/
def lowestFault (rs : List (Nat × Except (Nat × W64) Sector)) : Option (Nat × W64) :=
  (rs.foldl (fun (acc : Option (Nat × Nat × W64)) r =>
    match r.2 with
    | .ok _ => acc
    | .error x => match acc with
      | some (va, y) => if r.1 < va then some (r.1, x) else some (va, y)
      | none => some (r.1, x)) none).map (·.2)

/-- The sector of the lowest virtual address that satisfies `f`. -/
def lowestVa (f : Sector → Bool) (l : List Sector) : Option Nat :=
  l.foldl (fun acc x => if f x then (match acc with | some va => some (min va x.va) | none => some x.va) else acc) none

/-- Rows 4 to 6 of R282 over the sectors of an access as they translate, then the stall that restores a demoted frame. `tag` says
that a sector meets a pending tag, `bad` is the frame class the form does not allow. -/
def checkSectors (rs : List (Nat × Except (Nat × W64) Sector)) (tag : Sector → Bool) (bad : Option Nat → Bool) : Chk (List Sector) :=
  match lowestFault rs with
  | some (cause, info) => .error (.trap cause info)
  | none =>
    let secs := rs.filterMap fun r => r.2.toOption
    if secs.any tag then .error (.trap 0x03 0)
    else match lowestVa (fun x => bad x.coh) secs with
      | some va => .error (.trap 0x09 (BitVec.ofNat 64 va))
      | none => match secs.findSome? (·.demoted) with
        | some f => .error (.stall (restoreFrame f))
        | none => .ok secs

/-- Sectors translated, each with the right it needs. -/
def xlates (s : State) (g : Nat) (ps : List (Nat × Nat × Right)) (oc : Nat) : List (Nat × Except (Nat × W64) Sector) :=
  ps.map fun p => (p.1, xlate s g p.1 p.2.1 p.2.2 oc)

/-- The checks of an access, each sector with the right it needs. -/
def accessR (s : State) (g : Nat) (ps : List (Nat × Nat × Right)) (oc : Nat) (bad : Option Nat → Bool) : Chk (List Sector) :=
  checkSectors (xlates s g ps oc) (·.tagged s) bad

/-- A base that is not a multiple of `n` fails row 4 of R282 at its own address. -/
def misaligned (va n : Nat) : List (Nat × Except (Nat × W64) Sector) :=
  if va % n = 0 then [] else [(va, .error (0x06, BitVec.ofNat 64 va))]

/-- The checks of an access of one right. -/
def access (s : State) (g : Nat) (ps : List (Nat × Nat)) (k : Right) (oc : Nat) (bad : Option Nat → Bool) : Chk (List Sector) :=
  accessR s g (ps.map fun p => (p.1, p.2, k)) oc bad

/-- Every frame class is allowed. -/
def anyClass (_ : Option Nat) : Bool := false

/-- A misaligned address raises cause 0x06 (R236). -/
def aligned (va n : Nat) : Chk Unit := Chk.need (va % n == 0) (.trap 0x06 (BitVec.ofNat 64 va))

/-- A plain access of up to 64 aligned bytes. -/
def access1 (s : State) (g va n : Nat) (k : Right) (oc : Nat) : Chk Sector := do
  aligned va n
  let l ← access s g [(va, n)] k oc anyClass
  match l with
  | x :: _ => .ok x
  | [] => .error (.trap 0x04 (BitVec.ofNat 64 va))

/-- The device-physical frames sectors lie in; a view moves bytes within a block of 4 KiB only (R238, R240). -/
def framesOf (l : List Sector) : List Nat :=
  (l.filterMap fun x => match x.place with
    | .dp base _ off => some ((base + off) / 65536)
    | _ => none).dedup

/-- A frame read is touched, as one written is (R418). -/
def touchFrame (f : Nat) (s : State) : State :=
  let e := s.frame f
  if frP e && frC e then s.modVault (frVault e) (·.touched f s.tick) else s
def touchRead (l : List Sector) (s : State) : State := s.each (framesOf l) touchFrame

/-- The bytes of all sectors in order. -/
def readSectors (s : State) (l : List Sector) : List Byte := l.flatMap fun x => readPlace s x.place x.n

/-- Every poisoned sector among the bytes of sectors, as TRAPINFO. -/
def poisonsOf (s : State) (l : List Sector) : List W64 :=
  if (l.findSome? fun x => poisonAt s x.place x.n).isNone then []
  else (l.flatMap fun x => (List.range x.n).filterMap fun i => poisonAt s (x.place.plus i) 1).dedup

/-- The first poison among sectors. -/
def poisonOf (s : State) (l : List Sector) : Option W64 := l.findSome? fun x => poisonAt s x.place x.n

/-- Bytes written over the sectors in order. -/
def writeSectors : List Sector → List Byte → State → State
  | [], _, s => s
  | x :: l, bs, s => writeSectors l (bs.drop x.n) (writePlace x.place (bs.take x.n) s)

end Sys2Proof.Machine
end

