-- ==== Sys2Proof/Machine/Operands.lean ====
section
/-!
DEFINITION. Every operand form: guards and lent fields (R78 to R92), wide immediates and offsets (R89), names read and
written (R100, R101), tile headers and their views (R167 to R171), and the conversions between formats (R130).
-/
set_option Elab.async false
namespace Sys2Proof.Machine

/-! ## Guards and lent fields -/

/-- Where a slot issues: its context, its guard field, and what a header lends it (R88, R89, R92): guard extension and
negation, the operand extension when the bundle carries HDR.X, and whether its path tag lets it execute. -/
structure Env where
  g : Nat
  gd : BitVec 3 := 0
  gh : BitVec 3 := 0
  neg : Bool := false
  x : Option (BitVec 3) := none
  go : Bool := true
  deriving DecidableEq, Repr

/-- The guard predicate's number. -/
def Env.guardIndex (e : Env) : Nat := 8 * e.gh.toNat + e.gd.toNat

/-- `guard(g)` of R8: the guard as a lane mask (R80, R88); all zeros when the path tag is not the chosen leaf (R92). -/
def Env.mask (e : Env) (s : State) : W64 :=
  if !e.go then 0 else if e.neg then ~~~(s.ctx e.g).p e.guardIndex else (s.ctx e.g).p e.guardIndex

/-- A slot whose guard is false does nothing at all (R9). -/
def nothing : Issue := .ok {}

/-- The offset of an MA form in units of its access size (R89). -/
def Env.off5 (e : Env) (o : BitVec 5) : Int := match e.x with | none => o.toInt | some x => (x ++ o).toInt
/-- The offset of an MV form in units of 256 bytes. -/
def Env.off6 (e : Env) (o : BitVec 6) : Int := match e.x with | none => o.toInt | some x => (x ++ o).toInt
/-- The immediate of VLI. -/
def Env.imm11 (e : Env) (i : BitVec 11) : Int := match e.x with | none => i.toInt | some x => (x ++ i).toInt
/-- The value of `base + n` in 64 bits, as a register takes it. -/
def addOff (base : W64) (n : Int) : W64 := base + BitVec.ofInt 64 n
/-- The address `base + n`, which is not narrowed (R7): at or above 2^64 it stands as it is, in no entry. One below 0 is in none either;
it stands as its 64 bits, which TRAPINFO shows. -/
def addrOff (base : W64) (n : Int) : Nat :=
  if (base.toNat : Int) + n < 0 then (addOff base n).toNat else ((base.toNat : Int) + n).toNat

/-! ## Tile headers (R167 to R171) -/

/-- A tile header read as its fields. -/
structure Hdr where
  fmt : Nat
  rows : Nat
  cols : Nat
  z : Bool
  t : Bool
  grp : Nat
  stride : Nat
  deriving DecidableEq, Repr

def Hdr.of (w : W64) : Hdr :=
  { fmt := (bits w 0 4).toNat, rows := (bits w 4 6).toNat + 1, cols := (bits w 10 7).toNat + 1, z := bit w 17, t := bit w 18,
    grp := (bits w 19 2).toNat, stride := (bits w 32 32).toNat }

/-- Element width in bits (R129). -/
def fmtBits : Nat → Nat
  | 0 => 32
  | 1 => 16
  | 2 => 16
  | 3 => 8
  | 4 => 8
  | 5 => 32
  | 6 => 8
  | 7 => 4
  | 8 => 64
  | 9 => 64
  | 10 => 32
  | 11 => 32
  | 12 => 64
  | 13 => 1024
  | _ => 128

/-- The least power of two at least rows, cols and 4 (R169). -/
def Hdr.pad (h : Hdr) : Nat :=
  let n := max h.rows h.cols
  if n ≤ 4 then 4 else if n ≤ 8 then 8 else if n ≤ 16 then 16 else if n ≤ 32 then 32 else if n ≤ 64 then 64 else 128

/-- A header is valid (R168). -/
def hdrValid (w : W64) : Bool :=
  let h := Hdr.of w
  let q := h.fmt == 6 || h.fmt == 7
  h.fmt != 15 && bits w 21 11 == 0 && (q == (h.grp != 0)) && !(h.fmt == 7 && h.cols % 2 == 1)
    && decide (h.rows * h.cols * fmtBits h.fmt ≤ 32768)
    && (!h.z || decide (h.pad * h.pad * fmtBits h.fmt ≤ 32768))
    && !(h.t && (h.fmt == 7 || h.fmt == 12 || h.fmt == 13 || h.fmt == 14))

/-- Interleaved bits: 2i+1 of the row part, 2i of the column part. -/
def zinter (r c : Nat) : Nat :=
  (List.range 6).foldl (fun n i => n + (if r.testBit i then 2 ^ (2 * i + 1) else 0) + (if c.testBit i then 2 ^ (2 * i) else 0)) 0

/-- Element index of stored position `(m, n)` of a tile with `cols` columns (R169). -/
def elemIndex (z : Bool) (cols m n : Nat) : Nat :=
  if z then 16 * zinter (m / 4) (n / 4) + 4 * (m % 4) + n % 4 else m * cols + n

/-- Element index of view position `(m, n)` (R170). -/
def Hdr.index (h : Hdr) (m n : Nat) : Nat := if h.t then elemIndex h.z h.rows n m else elemIndex h.z h.cols m n

/-- Bits of the element at index `i`. -/
def elemAt (d : TileBits) (fmt i : Nat) : Nat := (d.extractLsb' (fmtBits fmt * i) (fmtBits fmt)).toNat

/-- The element at a view position. -/
def Hdr.get (h : Hdr) (d : TileBits) (m n : Nat) : Nat := elemAt d h.fmt (h.index m n)

/-- The element of the view in row-major order at `k` (R170). -/
def Hdr.getRow (h : Hdr) (d : TileBits) (k : Nat) : Nat := h.get d (k / h.cols) (k % h.cols)

/-- Elements of the view. -/
def Hdr.count (h : Hdr) : Nat := h.rows * h.cols

/-- The tile with the element of index `i` replaced. -/
def setElem (d : TileBits) (fmt i x : Nat) : TileBits := setBits d (fmtBits fmt * i) (BitVec.ofNat (fmtBits fmt) x)

/-- The format's zero (R173). -/
def fmtZero : Nat → Nat
  | 9 => 0x4000000000000000
  | 10 => 0x40000000
  | _ => 0

/-- Every element written through the view, Z padding as the format's zero (R169); other bytes keep their values. -/
def Hdr.fill (h : Hdr) (old : TileBits) (f : Nat → Nat → Nat) : TileBits :=
  let base := if h.z then (List.range (h.pad * h.pad)).foldl (fun d i => setElem d h.fmt i (fmtZero h.fmt)) old else old
  (List.range h.count).foldl (fun d k => setElem d h.fmt (h.index (k / h.cols) (k % h.cols)) (f (k / h.cols) (k % h.cols))) base

/-- Bytes of the slot image: the whole view, with its padding under Z (R169, R313). -/
def Hdr.image (h : Hdr) : Nat := (if h.z then h.pad * h.pad else h.count) * fmtBits h.fmt / 8
/-- The sectors of a slot that a writer of the whole view replaces whole (R441). -/
def Hdr.sectors (h : Hdr) : List Nat := List.range (h.image / 64)
/-- Sectors of a slot that hold element `i`. -/
def elemSectors (fmt i : Nat) : List Nat :=
  let w := fmtBits fmt
  (List.range (max 1 (w / 512))).map fun k => (w * i / 512) + k
/-- The sectors of the first `n` elements of the view. -/
def viewSectors (h : Hdr) (n : Nat) : List Nat :=
  ((List.range n).flatMap fun i => elemSectors h.fmt (h.index (i / h.cols) (i % h.cols))).dedup
/-- The sectors every byte of which belongs to one of these elements. -/
def wholeSectors (fmt : Nat) (idx : List Nat) : List Nat :=
  (List.range 64).filter fun x => (List.range (512 / min 512 (fmtBits fmt))).all fun k => idx.contains ((512 * x) / fmtBits fmt + k)

/-- Row length of the view in bytes, `cols × width` (R289). -/
def Hdr.rowLen (h : Hdr) : Nat := h.cols * fmtBits h.fmt / 8
/-- min(width, 16), with width 1 for Q4A (R289). -/
def Hdr.unit (h : Hdr) : Nat := min (max 1 (fmtBits h.fmt / 8)) 16

/-- Rows 0x11 and 0x12 of R195 for the tiles an instruction names: every index, then every header. -/
def tileOperands (s : State) (g : Nat) (ts : List Nat) : Chk (List (Nat × Hdr)) := do
  let c := s.ctx g
  Chk.need (ts.all (· < c.tileCount)) (.trap 0x0D 0x11)
  Chk.need (ts.all fun t => hdrValid (c.tc t)) (.trap 0x0D 0x12)
  .ok (ts.map fun t => (c.tileBase + t, Hdr.of (c.tc t)))

/-- One tile operand. -/
def tileOperand (s : State) (g : Nat) (t : BitVec 5) : Chk (Nat × Hdr) := do
  Chk.need (t.toNat < (s.ctx g).tileCount) (.trap 0x0D 0x11)
  Chk.need (hdrValid ((s.ctx g).tc t.toNat)) (.trap 0x0D 0x12)
  .ok ((s.ctx g).tileBase + t.toNat, Hdr.of ((s.ctx g).tc t.toNat))

/-! ## Conversions between tile formats (R130) -/

/-- The value of an element of a format that has one. -/
def elemVal (fmt x : Nat) : FpVal :=
  match fmt with
  | 0 => fp32.decode x
  | 1 => bf16.decode x
  | 2 => fp16.decode x
  | 3 => ofInt (BitVec.ofNat 8 x).toInt
  | 4 => ofInt x
  | 5 => ofInt (BitVec.ofNat 32 x).toInt
  | 8 => fp32g.decode (x % 2 ^ 40)
  | _ => dkToFp (BitVec.ofNat 64 x)

/-- The pairs R130 lists, source then destination, equal formats aside. -/
def convPair (a d : Nat) : Bool :=
  match a with
  | 0 => d == 8 || d == 9 || d == 1 || d == 2 || d == 5 || d == 3 || d == 4
  | 1 => d == 0 || d == 8 || d == 9 || d == 5 || d == 3 || d == 4
  | 2 => d == 0 || d == 8 || d == 9 || d == 5 || d == 3 || d == 4
  | 3 => d == 0 || d == 8
  | 4 => d == 0 || d == 8
  | 5 => d == 0 || d == 8
  | 8 => d == 0 || d == 1 || d == 2 || d == 5 || d == 3 || d == 4
  | 9 => d == 0 || d == 1 || d == 2 || d == 10
  | 10 => d == 9
  | _ => false

/-- An exact value narrowed into a format, with OVF (R130, R137). -/
def narrow (d : Nat) (v : FpVal) : Nat × Bool :=
  match d with
  | 0 => fp32.encode v
  | 1 => bf16.encode v
  | 2 => fp16.encode v
  | 8 => fp32g.encode v
  | 9 => ((dkOfFp v).toNat, false)
  | 3 => let r := toIntSat v (-128) 127; ((BitVec.ofInt 8 r.1).toNat, r.2)
  | 4 => let r := toIntSat v 0 255; ((BitVec.ofInt 8 r.1).toNat, r.2)
  | _ => let r := toIntSat v (-2147483648) 2147483647; ((BitVec.ofInt 32 r.1).toNat, r.2)

/-- One element converted; the error is a Ducat-range fault, above the range when true (R121, R124). Between equal formats the bits are
copied as they stand, of FP32G all 64 (R174; log 54). -/
def convElem (a d x : Nat) : Except Bool (Nat × Bool) :=
  if a = d then .ok (x, false)
  else if a = 9 ∧ d = 10 then (dk32Narrow (BitVec.ofNat 64 x)).map fun y => (y.toNat, false)
  else if a = 10 then .ok ((dk32Widen (BitVec.ofNat 32 x)).toNat, false)
  else .ok (narrow d (elemVal a x))

end Sys2Proof.Machine
end

