-- ==== Sys2Proof/Machine/Flags.lean ====
section
/-!
DEFINITION. Every flag computation: tile status (R138, R139), FAULTMASK (R343), and the predicates of scalar compares (R336).
-/
set_option Elab.async false
namespace Sys2Proof.Machine

/-! ## Tile status -/

/-- An element is a NaN of a format that has one (R138). -/
def elemNan (fmt x : Nat) : Bool :=
  match fmt with
  | 0 => (fp32.decode x).isNan
  | 1 => (bf16.decode x).isNan
  | 2 => (fp16.decode x).isNan
  | 8 => (fp32g.decode (x % 2 ^ 40)).isNan
  | 9 => (dk (BitVec.ofNat 64 x)).isNan
  | 10 => (dk (dk32Widen (BitVec.ofNat 32 x))).isNan
  | _ => false

def FpVal.isInf : FpVal → Bool
  | .inf _ => true
  | _ => false

def Dk.isInf : Dk → Bool
  | .inf _ => true
  | _ => false

/-- An element is an infinity of a format that has one (R138). -/
def elemInf (fmt x : Nat) : Bool :=
  match fmt with
  | 0 => (fp32.decode x).isInf
  | 1 => (bf16.decode x).isInf
  | 2 => (fp16.decode x).isInf
  | 8 => (fp32g.decode (x % 2 ^ 40)).isInf
  | 9 => (dk (BitVec.ofNat 64 x)).isInf
  | 10 => (dk (dk32Widen (BitVec.ofNat 32 x))).isInf
  | _ => false

/-- Status bits NAN, INF, OVF of the elements written. -/
def statusBits (nan inf ovf : Bool) : BitVec 3 := BitVec.ofNat 3 (nan.toNat + 2 * inf.toNat + 4 * ovf.toNat)

/-- Status of a writer that wrote the elements at these indices. -/
def statusOf (fmt : Nat) (d : TileBits) (idx : List Nat) (ovf : Bool) : BitVec 3 :=
  statusBits (idx.any fun i => elemNan fmt (elemAt d fmt i)) (idx.any fun i => elemInf fmt (elemAt d fmt i)) ovf

/-- Indices of every element of the view. -/
def Hdr.indices (h : Hdr) : List Nat := (List.range h.count).map fun k => h.index (k / h.cols) (k % h.cols)

/-- Status of a writer of the whole view. -/
def Hdr.status (h : Hdr) (d : TileBits) (ovf : Bool) : BitVec 3 := statusOf h.fmt d h.indices ovf

/-- tsN as CSRD reads it before bundle `j` issues (R138, R139). -/
def Tile.status (t : Tile) (j : Nat) : W64 :=
  let valid := t.full && (t.valid || decide (t.validAt ≤ j))
  BitVec.ofNat 64 ((valid && t.nan).toNat + 2 * (valid && t.inf).toNat + 4 * (valid && t.ovf).toNat + 8 * t.full.toNat
    + 16 * valid.toNat)

/-! ## FAULTMASK -/

/-- Bit `i` marks slot Wi (R103). -/
def slotMask (l : List Nat) : BitVec 4 := l.foldl (fun m i => m ||| (1#4 <<< i)) 0

/-! ## Scalar compares -/

/-- All ones when the relation holds, all zeros when not (R336). -/
def allOr (b : Bool) : W64 := if b then BitVec.allOnes 64 else 0

/-- CMP and CMPI: eq, ne, lt, le, signed. -/
def cmpRel (cc : BitVec 2) (a b : W64) : Bool :=
  match cc.toNat with
  | 0 => a == b
  | 1 => a != b
  | 2 => a.slt b
  | _ => a.sle b

/-- CMPU: ltu, leu, any, none. -/
def cmpuRel (cc : BitVec 2) (a b : W64) : Bool :=
  match cc.toNat with
  | 0 => a.ult b
  | 1 => a.ule b
  | 2 => a &&& b != 0
  | _ => a &&& b == 0

end Sys2Proof.Machine
end

