-- ==== Sys2Proof/Machine/Names.lean ====
section
/-!
DEFINITION. The names an operation reads and writes (R100, R101): what the same-bundle rule, the group rule and the
pending check are about.
-/
set_option Elab.async false
namespace Sys2Proof.Machine

/-- The CSRs of the control block (R436). -/
def controlCsrs : List Nat :=
  [0x050, 0x051, 0x052, 0x053, 0x010, 0x011, 0x012, 0x013, 0x014, 0x015, 0x100, 0x101, 0x055, 0x056, 0x062]

/-- Tests a shape reads (R91). -/
def shapeTests : Nat → List Nat
  | 0 => [0]
  | 1 => [0, 1]
  | 2 => [0, 1, 2]
  | 3 => [0, 1, 2, 3]
  | 4 => [0, 1, 2]
  | 5 => [0, 1, 2, 3]
  | _ => [0, 1]

/-- Every name that the parts of a SAVEC or LOADC mask hold (R101, R353, R435). -/
def partNames (m : BitVec 7) : List Name :=
  (if bit m 0 then (List.range 64).map .s ++ (List.range 32).map .v ++ (List.range 8).map .b ++ (List.range 8).map .mp
      ++ controlCsrs.map .csr else [])
    ++ (if bit m 1 then (List.range 128).map .p else [])
    ++ (if bit m 2 then (List.range 32).map .tc ++ (List.range 32).map fun i => .csr (0x030 + i) else [])
    ++ (if bit m 3 then [.csr 0x054] else [])
    ++ (if bit m 4 then (List.range 4).map .cand else [])
    ++ (if bit m 5 then [.bank 0, .bank 1] else [])

/-- Names an operation reads beside its guard: registers, implicit reads, and the header of each tile a tile field names (R101). -/
def readNames (i : Instr) : List Name :=
  match i with
  | .add _ _ _ a b _ => [.s a.toNat, .s b.toNat]
  | .sub _ _ _ a b _ => [.s a.toNat, .s b.toNat]
  | .and _ _ _ a b => [.s a.toNat, .s b.toNat]
  | .or _ _ _ a b => [.s a.toNat, .s b.toNat]
  | .xor _ _ _ a b => [.s a.toNat, .s b.toNat]
  | .andn _ _ _ a b => [.s a.toNat, .s b.toNat]
  | .shl _ _ _ a b _ => [.s a.toNat, .s b.toNat]
  | .shr _ _ _ a b _ => [.s a.toNat, .s b.toNat]
  | .sar _ _ _ a b _ => [.s a.toNat, .s b.toNat]
  | .rot _ _ _ a b _ => [.s a.toNat, .s b.toNat]
  | .mul _ _ _ a b _ => [.s a.toNat, .s b.toNat]
  | .div _ _ _ a b _ => [.s a.toNat, .s b.toNat]
  | .min _ _ _ a b _ => [.s a.toNat, .s b.toNat]
  | .max _ _ _ a b _ => [.s a.toNat, .s b.toNat]
  | .bitc _ _ _ a _ => [.s a.toNat]
  | .addi _ _ _ a _ => [.s a.toNat]
  | .andi _ _ _ a _ => [.s a.toNat]
  | .ori _ _ _ a _ => [.s a.toNat]
  | .xori _ _ _ a _ => [.s a.toNat]
  | .shli _ _ _ a _ => [.s a.toNat]
  | .shri _ _ _ a _ => [.s a.toNat]
  | .sari _ _ _ a _ => [.s a.toNat]
  | .muli _ _ _ a _ => [.s a.toNat]
  | .lis _ _ d _ => [.s d.toNat]
  | .cmp _ _ _ a b _ => [.s a.toNat, .s b.toNat]
  | .cmpu _ _ _ a b _ => [.s a.toNat, .s b.toNat]
  | .cmpi _ _ _ a _ _ => [.s a.toNat]
  | .pfrom _ _ _ a => [.s a.toNat]
  | .brb _ _ k => [.b k.toNat]
  | .ret _ _ => [.b 7]
  | .movb _ _ k s f => if f = 0 then [.s s.toNat] else [.b k.toNat]
  | .loop _ _ c _ => [.s c.toNat]
  | .csrd _ _ r _ => [.csr r.toNat]
  | .cswr _ _ _ s => [.s s.toNat]
  | .mpset _ _ _ s => [.s s.toNat]
  | .tcset _ _ _ s => [.s s.toNat]
  | .tcget _ _ t _ => [.tc t.toNat]
  | .grow _ _ _ a => [.s a.toNat]
  | .rfe _ _ => [.csr 0x052]
  | .savec _ _ m s => (if s = 0 then .csr 0x056 else .s s.toNat) :: partNames m
  | .loadc _ _ _ s => [if s = 0 then .csr 0x056 else .s s.toNat]
  | .vadd _ _ _ a b _ => [.v a.toNat, .v b.toNat]
  | .vsub _ _ _ a b _ => [.v a.toNat, .v b.toNat]
  | .vmul _ _ _ a b _ => [.v a.toNat, .v b.toNat]
  | .vmin _ _ _ a b _ => [.v a.toNat, .v b.toNat]
  | .vmax _ _ _ a b _ => [.v a.toNat, .v b.toNat]
  | .vand _ _ _ a b => [.v a.toNat, .v b.toNat]
  | .vor _ _ _ a b => [.v a.toNat, .v b.toNat]
  | .vxor _ _ _ a b => [.v a.toNat, .v b.toNat]
  | .vshl _ _ _ a b => [.v a.toNat, .v b.toNat]
  | .vshr _ _ _ a b => [.v a.toNat, .v b.toNat]
  | .vsar _ _ _ a b => [.v a.toNat, .v b.toNat]
  | .vadds _ _ _ a s _ => [.v a.toNat, .s s.toNat]
  | .vmuls _ _ _ a s _ => [.v a.toNat, .s s.toNat]
  | .vfadd _ _ _ a b => [.v a.toNat, .v b.toNat]
  | .vfsub _ _ _ a b => [.v a.toNat, .v b.toNat]
  | .vfmul _ _ _ a b => [.v a.toNat, .v b.toNat]
  | .vfma _ _ _ a b c _ => [.v a.toNat, .v b.toNat, .v c.toNat]
  | .vfmin _ _ _ a b _ => [.v a.toNat, .v b.toNat]
  | .vfmax _ _ _ a b _ => [.v a.toNat, .v b.toNat]
  | .vfrcp _ _ _ a => [.v a.toNat]
  | .vfrsq _ _ _ a => [.v a.toNat]
  | .vfexp2 _ _ _ a => [.v a.toNat]
  | .vflog2 _ _ _ a => [.v a.toNat]
  | .vcvt _ _ _ a _ => [.v a.toNat]
  | .vfclass _ _ _ a _ => [.v a.toNat]
  | .vdadd _ _ _ a b _ => [.v a.toNat, .v b.toNat]
  | .vdmul _ _ _ a b => [.v a.toNat, .v b.toNat]
  | .vdmax _ _ _ a b _ => [.v a.toNat, .v b.toNat]
  | .vdcvt _ _ _ a _ => [.v a.toNat]
  | .vdscl _ _ _ a s => [.v a.toNat, .s s.toNat]
  | .vperm _ _ _ a b _ => [.v a.toNat, .v b.toNat]
  | .vnib _ _ _ a _ => [.v a.toNat]
  | .vshuf _ _ _ a b _ => [.v a.toNat, .v b.toNat]
  | .vbcast _ _ _ s _ => [.s s.toNat]
  | .vmovs _ _ _ a _ _ => [.v a.toNat]
  | .vins _ _ _ a s _ => [.v a.toNat, .s s.toNat]
  | .vmov _ _ _ a => [.v a.toNat]
  | .vred _ _ _ a _ => [.v a.toNat]
  | .vscan _ _ _ a _ => [.v a.toNat]
  | .vcmp _ _ _ a b _ => [.v a.toNat, .v b.toNat]
  | .vfcmp _ _ _ a b _ => [.v a.toNat, .v b.toNat]
  | .pand _ _ _ a b => [.p a.toNat, .p b.toNat]
  | .por _ _ _ a b => [.p a.toNat, .p b.toNat]
  | .pxor _ _ _ a b => [.p a.toNat, .p b.toNat]
  | .pandn _ _ _ a b => [.p a.toNat, .p b.toNat]
  | .pcnt _ _ _ a _ => [.p a.toNat]
  | .vqdeq _ _ _ a b _ => [.v a.toNat, .v b.toNat]
  | .vqnt _ _ _ a b _ => [.v a.toNat, .v b.toNat]
  | .vrng _ _ _ a b _ => [.v a.toNat, .v b.toNat, .csr 0x014]
  | .mcall _ _ _ => [.mp 0, .mp 1, .mp 2, .mp 3, .mp 4, .mp 5, .mp 6, .mp 7]
  | .mdrain _ _ t _ _ => [.tc t.toNat]
  | .mspill _ _ t _ => [.tc t.toNat]
  | .mfill _ _ t _ => [.tile t.toNat, .tc t.toNat]
  | .mpwr _ t => [.tile t.toNat, .tc t.toNat, .mp 7]
  | .mpwrTab _ t => [.tile t.toNat, .tc t.toNat, .mp 7]
  | .mprd _ t => [.tc t.toNat, .mp 7]
  | .mprdTab _ t => [.tc t.toNat, .mp 7]
  | .tzero _ d _ => [.tc d.toNat]
  | .tcopy _ d a => [.tc d.toNat, .tile a.toNat, .tc a.toNat]
  | .tv2t _ d a _ => [.tc d.toNat, .v a.toNat]
  | .tt2v _ _ a _ => [.tile a.toNat, .tc a.toNat]
  | .ckleaf _ t _ _ => [.tile t.toNat, .tc t.toNat, .csr 0x010, .csr 0x011, .csr 0x012, .csr 0x013, .csr 0x100]
  | .cknode _ t _ _ => [.tile t.toNat, .tc t.toNat, .csr 0x010, .csr 0x011, .csr 0x012, .csr 0x013, .csr 0x100]
  | .ckback _ t _ _ => [.tile t.toNat, .tc t.toNat, .csr 0x010, .csr 0x011, .csr 0x012, .csr 0x013, .csr 0x100]
  | .ckdiv _ t _ _ => [.tile t.toNat, .tc t.toNat, .csr 0x010, .csr 0x011, .csr 0x012, .csr 0x013, .csr 0x100]
  | .cksamp _ t _ _ => [.tile t.toNat, .tc t.toNat, .csr 0x010, .csr 0x011, .csr 0x012, .csr 0x013, .csr 0x100, .csr 0x014]
  | .ixwalk _ d a b => [.tc d.toNat, .tile a.toNat, .tc a.toNat, .tile b.toNat, .tc b.toNat]
  | .ixsplit _ d a _ => [.tc d.toNat, .tile a.toNat, .tc a.toNat]
  | .asort _ d a b _ => [.tc d.toNat, .tile a.toNat, .tc a.toNat, .tile b.toNat, .tc b.toNat]
  | .amrg _ _ t s => [.tile t.toNat, .tc t.toNat, .s s.toNat]
  | .cread _ k t _ => [.cand k.toNat, .tc t.toNat]
  | .csamp _ k _ => [.cand k.toNat, .csr 0x015, .csr 0x101, .csr 0x014]
  | .clpush _ a _ => [.tile a.toNat, .tc a.toNat]
  | .clpull _ d => [.tc d.toNat]
  | .clcfg _ a => [.tile a.toNat, .tc a.toNat]
  | .ldd _ _ _ b _ _ => [.s b.toNat]
  | .ldw _ _ _ b _ _ => [.s b.toNat]
  | .ldwu _ _ _ b _ _ => [.s b.toNat]
  | .ldh _ _ _ b _ _ => [.s b.toNat]
  | .ldhu _ _ _ b _ _ => [.s b.toNat]
  | .ldb _ _ _ b _ _ => [.s b.toNat]
  | .ldbu _ _ _ b _ _ => [.s b.toNat]
  | .std _ d b _ _ => [.s d.toNat, .s b.toNat]
  | .stw _ d b _ _ => [.s d.toNat, .s b.toNat]
  | .sth _ d b _ _ => [.s d.toNat, .s b.toNat]
  | .stb _ d b _ _ => [.s d.toNat, .s b.toNat]
  | .vld _ _ _ b _ _ => [.s b.toNat]
  | .vst _ d b _ _ => [.v d.toNat, .s b.toNat]
  | .lddp _ _ _ b _ _ => [.s b.toNat]
  | .vldp _ _ _ b _ _ => [.s b.toNat]
  | .vstp _ d b _ _ => [.v d.toNat, .s b.toNat]
  | .tld _ t b _ => [.s b.toNat, .tc t.toNat]
  | .tst _ t b _ => [.s b.toNat, .tile t.toNat, .tc t.toNat]
  | .tgath _ t b _ i _ => [.s b.toNat, .tc t.toNat, .tile i.toNat, .tc i.toNat]
  | .tscat _ t b _ i _ => [.s b.toNat, .tile t.toNat, .tc t.toNat, .tile i.toNat, .tc i.toNat]
  | .tscadd _ t b _ i _ => [.s b.toNat, .tile t.toNat, .tc t.toNat, .tile i.toNat, .tc i.toNat]
  | .aadd _ _ b s _ => [.s b.toNat, .s s.toNat]
  | .aaddw _ _ b s _ => [.s b.toNat, .s s.toNat]
  | .afadd _ _ b s _ => [.s b.toNat, .s s.toNat]
  | .adadd _ _ b s _ => [.s b.toNat, .s s.toNat]
  | .amax _ _ b s _ => [.s b.toNat, .s s.toNat]
  | .amin _ _ b s _ => [.s b.toNat, .s s.toNat]
  | .aor _ _ b s _ => [.s b.toNat, .s s.toNat]
  | .aand _ _ b s _ => [.s b.toNat, .s s.toNat]
  | .axchg _ _ b s _ => [.s b.toNat, .s s.toNat]
  | .acas _ d b s _ => [.s d.toNat, .s b.toNat, .s s.toNat]
  | .waitm _ a b c _ => [.s b.toNat, .s c.toNat, .s a.toNat]
  | .cpy _ a b c => [.s a.toNat, .s b.toNat, .s c.toNat]
  | .cpyZero _ a c => [.s a.toNat, .s c.toNat]
  | .cpyq _ _ b c => [.s b.toNat, .s c.toNat]
  | .qpop _ n _ => [.stream n.toNat]
  | .qpopBind _ _ d => [.s d.toNat]
  | .qstat _ n _ => [.stream n.toNat]
  | .rinv _ a b c _ => [.s a.toNat, .s b.toNat, .s c.toNat]
  | .rflush _ a b c _ => [.s a.toNat, .s b.toNat, .s c.toNat]
  | .resv _ _ b c _ => [.s b.toNat, .s c.toNat]
  | .movp _ _ s => [.s s.toNat]
  | .qpush _ _ d => [.s d.toNat]
  | .qpushBind _ _ d => [.s d.toNat]
  | .xfuDecode _ _ s => [.s s.toNat]
  | .xfuZorder _ _ s => [.s s.toNat]
  | .xfuUnz _ _ s => [.s s.toNat]
  | .xfuCopy _ _ s => [.s s.toNat]
  | .xfuUnpack4 _ _ s => [.s s.toNat]
  | .xfuSave _ _ s => [.s s.toNat]
  | .xfuLoad _ _ s => [.s s.toNat]
  | .xfuAbort _ _ s => [.s s.toNat]
  | _ => []

/-- Names an operation writes, counting implicit writes (R100). -/
def writeNames (i : Instr) : List Name :=
  match i with
  | .add _ _ d _ _ _ => [.s d.toNat]
  | .sub _ _ d _ _ _ => [.s d.toNat]
  | .and _ _ d _ _ => [.s d.toNat]
  | .or _ _ d _ _ => [.s d.toNat]
  | .xor _ _ d _ _ => [.s d.toNat]
  | .andn _ _ d _ _ => [.s d.toNat]
  | .shl _ _ d _ _ _ => [.s d.toNat]
  | .shr _ _ d _ _ _ => [.s d.toNat]
  | .sar _ _ d _ _ _ => [.s d.toNat]
  | .rot _ _ d _ _ _ => [.s d.toNat]
  | .mul _ _ d _ _ _ => [.s d.toNat]
  | .div _ _ d _ _ _ => [.s d.toNat]
  | .min _ _ d _ _ _ => [.s d.toNat]
  | .max _ _ d _ _ _ => [.s d.toNat]
  | .bitc _ _ d _ _ => [.s d.toNat]
  | .addi _ _ d _ _ => [.s d.toNat]
  | .andi _ _ d _ _ => [.s d.toNat]
  | .ori _ _ d _ _ => [.s d.toNat]
  | .xori _ _ d _ _ => [.s d.toNat]
  | .shli _ _ d _ _ => [.s d.toNat]
  | .shri _ _ d _ _ => [.s d.toNat]
  | .sari _ _ d _ _ => [.s d.toNat]
  | .muli _ _ d _ _ => [.s d.toNat]
  | .li _ _ d _ => [.s d.toNat]
  | .lis _ _ d _ => [.s d.toNat]
  | .addpc _ _ d _ => [.s d.toNat]
  | .cmp _ _ p _ _ _ => [.p p.toNat]
  | .cmpu _ _ p _ _ _ => [.p p.toNat]
  | .cmpi _ _ p _ _ _ => [.p p.toNat]
  | .pfrom _ _ p _ => [.p p.toNat]
  | .call _ _ _ => [.b 7]
  | .lbt _ _ k _ => [.b k.toNat]
  | .movb _ _ k s f => if f = 0 then [.b k.toNat] else [.s s.toNat]
  | .loop _ _ c _ => [.s c.toNat]
  | .csrd _ _ _ s => [.s s.toNat]
  | .cswr _ _ r _ => [.csr r.toNat]
  | .mpset _ _ m _ => [.mp m.toNat]
  | .tcset _ _ t _ => [.tc t.toNat]
  | .tcget _ _ _ s => [.s s.toNat]
  | .grow _ _ d _ => [.s d.toNat]
  | .loadc _ _ m _ => partNames m
  | .vadd _ _ d _ _ _ => [.v d.toNat]
  | .vsub _ _ d _ _ _ => [.v d.toNat]
  | .vmul _ _ d _ _ _ => [.v d.toNat]
  | .vmin _ _ d _ _ _ => [.v d.toNat]
  | .vmax _ _ d _ _ _ => [.v d.toNat]
  | .vand _ _ d _ _ => [.v d.toNat]
  | .vor _ _ d _ _ => [.v d.toNat]
  | .vxor _ _ d _ _ => [.v d.toNat]
  | .vshl _ _ d _ _ => [.v d.toNat]
  | .vshr _ _ d _ _ => [.v d.toNat]
  | .vsar _ _ d _ _ => [.v d.toNat]
  | .vadds _ _ d _ _ _ => [.v d.toNat]
  | .vmuls _ _ d _ _ _ => [.v d.toNat]
  | .vli _ _ d _ => [.v d.toNat]
  | .vfadd _ _ d _ _ => [.v d.toNat]
  | .vfsub _ _ d _ _ => [.v d.toNat]
  | .vfmul _ _ d _ _ => [.v d.toNat]
  | .vfma _ _ d _ _ _ _ => [.v d.toNat]
  | .vfmin _ _ d _ _ _ => [.v d.toNat]
  | .vfmax _ _ d _ _ _ => [.v d.toNat]
  | .vfrcp _ _ d _ => [.v d.toNat]
  | .vfrsq _ _ d _ => [.v d.toNat]
  | .vfexp2 _ _ d _ => [.v d.toNat]
  | .vflog2 _ _ d _ => [.v d.toNat]
  | .vcvt _ _ d _ _ => [.v d.toNat]
  | .vfclass _ _ d _ _ => [.v d.toNat]
  | .vdadd _ _ d _ _ _ => [.v d.toNat]
  | .vdmul _ _ d _ _ => [.v d.toNat]
  | .vdmax _ _ d _ _ _ => [.v d.toNat]
  | .vdcvt _ _ d _ _ => [.v d.toNat]
  | .vdscl _ _ d _ _ => [.v d.toNat]
  | .vperm _ _ d _ _ _ => [.v d.toNat]
  | .vnib _ _ d _ _ => [.v d.toNat]
  | .vshuf _ _ d _ _ _ => [.v d.toNat]
  | .vbcast _ _ d _ _ => [.v d.toNat]
  | .vmovs _ _ d _ _ _ => [.s d.toNat]
  | .vins _ _ d _ _ _ => [.v d.toNat]
  | .viota _ _ d _ => [.v d.toNat]
  | .vmov _ _ d _ => [.v d.toNat]
  | .vred _ _ d _ _ => [.v d.toNat]
  | .vscan _ _ d _ _ => [.v d.toNat]
  | .vcmp _ _ p _ _ _ => [.p p.toNat]
  | .vfcmp _ _ p _ _ _ => [.p p.toNat]
  | .pand _ _ p _ _ => [.p p.toNat]
  | .por _ _ p _ _ => [.p p.toNat]
  | .pxor _ _ p _ _ => [.p p.toNat]
  | .pandn _ _ p _ _ => [.p p.toNat]
  | .pcnt _ _ d _ _ => [.s d.toNat]
  | .vqdeq _ _ d _ _ _ => [.v d.toNat]
  | .vqnt _ _ d _ _ _ => [.v d.toNat]
  | .vrng _ _ d _ _ _ => [.v d.toNat]
  | .mcall _ _ a => [.bank (a.toNat / 2)]
  | .bch _ a => [.bank (a.toNat / 2)]
  | .ech _ a => [.bank (a.toNat / 2)]
  | .mdrain _ a t _ _ => [.bank (a.toNat / 2), .tile t.toNat]
  | .mzero _ a => [.bank (a.toNat / 2)]
  | .mspill _ a t _ => [.bank (a.toNat / 2), .tile t.toNat]
  | .mfill _ a _ _ => [.bank (a.toNat / 2)]
  | .mprd _ t => [.tile t.toNat]
  | .mprdTab _ t => [.tile t.toNat]
  | .tzero _ d _ => [.tile d.toNat]
  | .tcopy _ d _ => [.tile d.toNat]
  | .tv2t _ d _ _ => [.tile d.toNat]
  | .tt2v _ d _ _ => [.v d.toNat]
  | .ckdiv _ _ _ d => [.s d.toNat]
  | .ixwalk _ d _ b => [.tile d.toNat, .tile b.toNat]
  | .ixsplit _ d _ _ => [.tile d.toNat]
  | .asort _ d _ _ _ => [.tile d.toNat]
  | .amrg _ k _ _ => [.cand k.toNat]
  | .cread _ _ t s => [.tile t.toNat, .s s.toNat]
  | .cclr _ k _ => [.cand k.toNat]
  | .csamp _ _ s => [.s s.toNat]
  | .clpull _ d => [.tile d.toNat]
  | .ldd _ _ d _ _ _ => [.s d.toNat]
  | .ldw _ _ d _ _ _ => [.s d.toNat]
  | .ldwu _ _ d _ _ _ => [.s d.toNat]
  | .ldh _ _ d _ _ _ => [.s d.toNat]
  | .ldhu _ _ d _ _ _ => [.s d.toNat]
  | .ldb _ _ d _ _ _ => [.s d.toNat]
  | .ldbu _ _ d _ _ _ => [.s d.toNat]
  | .vld _ _ d _ _ _ => [.v d.toNat]
  | .lddp _ _ d b _ _ => [.s d.toNat, .s b.toNat]
  | .vldp _ _ d b _ _ => [.v d.toNat, .s b.toNat]
  | .vstp _ _ b _ _ => [.s b.toNat]
  | .tld _ t _ _ => [.tile t.toNat]
  | .tgath _ t _ _ _ _ => [.tile t.toNat]
  | .aadd _ d _ _ _ => [.s d.toNat]
  | .aaddw _ d _ _ _ => [.s d.toNat]
  | .afadd _ d _ _ _ => [.s d.toNat]
  | .adadd _ d _ _ _ => [.s d.toNat]
  | .amax _ d _ _ _ => [.s d.toNat]
  | .amin _ d _ _ _ => [.s d.toNat]
  | .aor _ d _ _ _ => [.s d.toNat]
  | .aand _ d _ _ _ => [.s d.toNat]
  | .axchg _ d _ _ _ => [.s d.toNat]
  | .acas _ d _ _ _ => [.s d.toNat]
  | .cpyq _ n _ _ => [.stream n.toNat]
  | .qpop _ n d => [.s d.toNat, .stream n.toNat]
  | .qpopBind _ n _ => [.stream n.toNat]
  | .qstat _ _ d => [.s d.toNat]
  | .movfp _ _ s => [.s s.toNat]
  | .qpush _ n _ => [.stream n.toNat]
  | .qpushBind _ n _ => [.stream n.toNat]
  | _ => []

/-- Writes to s0 and p0 are discarded, and they are never pending: no names for the rules (R100). -/
def Name.counts (n : Name) : Bool := n != .s 0 && n != .p 0

/-- A name of the group rule (R101); tiles, streams, candidates and banks are scoreboarded. -/
def Name.grouped (n : Name) : Bool :=
  match n with
  | .tile _ => false
  | .stream _ => false
  | .cand _ => false
  | .bank _ => false
  | _ => true

/-- The names an operation reads with `rd` when its guard is true. MCALL checks its own in the order of R184, SAVEC and
LOADC read their address alone, and VMOVS reads only when its lane's mask bit is 1 (R142). -/
def pendingNames (i : Instr) (mask : W64) : List Name :=
  match i with
  | .mcall .. => []
  | .savec _ _ _ s => [.s s.toNat]
  | .vmovs _ _ _ a l _ => if bit mask l.toNat then [.v a.toNat] else []
  | i => readNames i

/-- The exposed-latency results an operation puts in flight (R53, R56): its written registers, and one entry for a CK
instruction (R207), whether or not it writes a word (log 55). A VMOVS whose lane is masked off does nothing (R142). -/
def exposed (i : Instr) (mask : W64) : Nat :=
  match i with
  | .loadc .. => 0
  | .vmovs _ _ _ _ l _ => if bit mask l.toNat then 1 else 0
  | .ckleaf .. => 1
  | .cknode .. => 1
  | .ckback .. => 1
  | .cksamp .. => 1
  | i => ((writeNames i).filter fun n => n.grouped && (match n with | .csr _ => false | _ => true)).length

/-- Operations guarded by a lane mask: every W1 operation, and the vector loads and stores (R80). -/
def laneForm (slot : Nat) (i : Instr) : Bool :=
  slot == 1 || (match i with | .vld .. => true | .vst .. => true | .vldp .. => true | .vstp .. => true | _ => false)

/-- Operations whose commit returns the watchdog count to 0 (R438). -/
def resetsWatchdog (i : Instr) : Bool :=
  match i with
  | .std .. | .stw .. | .sth .. | .stb .. | .vst .. | .vstp .. => true
  | .aadd .. | .aaddw .. | .afadd .. | .adadd .. | .amax .. | .amin .. | .aor .. | .aand .. | .axchg .. | .acas .. => true
  | .tld .. | .tst .. | .tgath .. | .tscat .. | .tscadd .. | .cpy .. | .cpyZero .. | .cpyq .. => true
  | .cswr .. | .bar .. | .barAw .. | .qpush .. | .grow .. | .clpush .. | .clseal .. | .exit .. | .rfe .. => true
  | .xfuDecode .. | .xfuZorder .. | .xfuUnz .. | .xfuCopy .. | .xfuUnpack4 .. | .xfuSave .. | .xfuLoad .. | .xfuAbort .. => true
  | _ => false

/-- Energy of an operation in nJ, by the activities of R369: CTU records, each of which reaches scratch, tile transfers, and one SRAM
access for every other operation that reaches scratch, cluster SRAM or a cache (log 6). -/
def opEnergy (i : Instr) : Nat :=
  match i with
  | .ckleaf _ _ _ n => (n.toNat + 1) * (Config.energyNJ 2 + Config.energyNJ 4)
  | .cknode _ _ _ n => (n.toNat + 1) * (Config.energyNJ 2 + Config.energyNJ 4)
  | .ckback _ _ _ n => (n.toNat + 1) * (Config.energyNJ 2 + Config.energyNJ 4)
  | .cksamp _ _ _ n => (n.toNat + 1) * (Config.energyNJ 2 + Config.energyNJ 4)
  | .ckdiv .. => Config.energyNJ 2 + Config.energyNJ 4
  | .tld .. | .tst .. | .tgath .. | .tscat .. | .tscadd .. => Config.energyNJ 3
  | .ldd .. | .ldw .. | .ldwu .. | .ldh .. | .ldhu .. | .ldb .. | .ldbu .. | .std .. | .stw .. | .sth .. | .stb .. => Config.energyNJ 4
  | .lddp .. | .vld .. | .vst .. | .vldp .. | .vstp .. => Config.energyNJ 4
  | .aadd .. | .aaddw .. | .afadd .. | .adadd .. | .amax .. | .amin .. | .aor .. | .aand .. | .axchg .. | .acas .. => Config.energyNJ 4
  | .cpy .. | .cpyZero .. | .cpyq .. | .qpop .. | .qpush .. | .waitm .. | .savec .. | .loadc .. | .rinv .. | .rflush .. => Config.energyNJ 4
  | .xfuDecode .. | .xfuZorder .. | .xfuUnz .. | .xfuCopy .. | .xfuUnpack4 .. | .xfuSave .. | .xfuLoad .. => Config.energyNJ 4
  | _ => 0

/-- Branch forms, illegal in a streamed bundle (R63), and the other forms R350 names. -/
def slipsStream (i : Instr) : Bool :=
  match i with
  | .br .. | .call .. | .brb .. | .ret .. | .loop .. | .hdrT .. => true
  | .yield .. | .exit .. | .grow .. | .barW .. | .barAw .. | .trap .. | .sysc .. | .brk .. | .rfe .. | .savec .. | .loadc .. => true
  | _ => false

end Sys2Proof.Machine
end

