-- ==== Sys2Proof/Machine/Leave.lean ====
section
/-!
DEFINITION. Leaving: barrier slots and their participants (R345, R346), closing a Clearing session (R223), and what EXIT does
(R349).
-/
set_option Elab.async false
namespace Sys2Proof.Machine

/-! ## Barrier slots -/

def Group.slot (x : Group) (n : Nat) : BarSlot := tget BarSlot.initial x.slots n

/-- The phase completes when every participant has arrived (R345). -/
def Group.barCheck (x : Group) (n : Nat) : Group :=
  let b := x.slot n
  if !b.arrived.isEmpty && x.live.all (b.arrived.contains ·) then
    { x with slots := tset x.slots n { phase := b.phase + 1, arrived := [] } }
  else x

/-- Core program `j` arrives on a slot. -/
def Group.arrive (x : Group) (n j : Nat) : Group :=
  let b := x.slot n
  { x with slots := tset x.slots n { b with arrived := b.arrived ++ [j] } }.barCheck n

/-- Core program `j` leaves the participants of every slot (R346). -/
def Group.leave (x : Group) (j : Nat) : Group :=
  let x := { x with live := x.live.filter (· ≠ j),
                    slots := x.slots.map fun e => (e.1, { e.2 with arrived := e.2.arrived.filter (· ≠ j) }) }
  if x.live.isEmpty then x else (List.range x.bars).foldl Group.barCheck x

/-- A context has arrived in the current phase of a slot and the phase has not passed its ticket: it waits (R345). -/
def barWaits (s : State) (g n : Nat) : Bool :=
  match tfind (s.ctx g).tickets n with
  | none => false
  | some t => decide (((s.group (s.ctx g).group).slot n).phase ≤ t)

/-! ## The Clearing session -/

/-- Bit 7 of frame map entries. -/
def setPins (fs : List Nat) (on : Bool) (s : State) : State :=
  s.each fs fun f s => s.setFrame f (if on then s.frame f ||| 0x80 else s.frame f &&& ~~~0x80#64)

/-- The session of a cluster closes: its entries are discarded and its spill frames no longer pinned, but for those that another open
session's spill area holds (R223, R225). -/
def closeSession (cl : Nat) (s : State) : State :=
  match (s.cluster cl).session with
  | none => s
  | some x =>
    let s := s.modCluster cl fun c => { c with session := none }
    let others := s.clusters.flatMap fun c => match c.2.session with | some y => y.pinned | none => []
    setPins (x.pinned.filter fun f => !others.contains f) false s

/-! ## EXIT -/

/-- The owner of a bank leaves: both accumulators are IDLE, contents retained, and the bank is free (R180). -/
def MArray.release (a : MArray) (bank : Nat) : MArray :=
  { a with accState := tset (tset a.accState (2 * bank) 0) (2 * bank + 1) 0, owners := tdel a.owners bank }

/-- Every bank of an array a context owns. -/
def MArray.releaseAll (a : MArray) (g : Nat) : MArray :=
  [0, 1].foldl (fun a b => if tfind a.owners b = some g then a.release b else a) a

/-- Ownership of a transform unit ends at its owner's EXIT, once a running operation has ended (R311). -/
def Xfu.leave (x : Xfu) (g : Nat) : Xfu := if x.owner = some g && x.job.isNone then { x with owner := none, wrote := false } else x

/-- A context leaves the participants of its group; with the last one the group's Clearing session closes (R223, R346). -/
def leaveGroup (g : Nat) (s : State) : State :=
  let grp := (s.ctx g).group
  let s := s.modGroup grp fun x => x.leave (s.ctx g).program
  if (s.group grp).live.isEmpty && ((s.cluster (clusterOf g)).session.map (·.group)) == some grp then closeSession (clusterOf g) s else s

/-- What EXIT ends at once (R349): results in flight are discarded, handles, streams, banks and units released; copies that fed a
stream complete without it. The core passes issue. -/
def endCtx (g : Nat) (s : State) : State :=
  let s := s.modCtx g fun c => { c with run := .exited, flights := [], tags := [], handles := [], streams := [],
                                        preempt := false, holdBar := none, heldBar := none }
  let s := s.modArray (pairOf g) fun a => a.releaseAll g
  let s := s.modCluster (clusterOf g) fun c => { c with
    xfus := c.xfus.map fun e => (e.1, e.2.leave g)
    copies := c.copies.map fun j => if j.ctx == g then { j with stream := none } else j }
  passIssue g s

end Sys2Proof.Machine
end

