-- ==== Sys2Proof/Machine/Order.lean ====
section
/-!
DEFINITION. Order inside one context (R253 to R257, R262, R297): the transform units' and the copy engine's operations under way,
streams they feed (R302), fence markers, and what has been issued and waits to perform. A plain access performs when it issues, unless
something earlier holds it: then a store, a push or an arrival waits in the context's list, and every other access stalls in place
(log 10, 36).
-/
set_option Elab.async false
namespace Sys2Proof.Machine

/-! ## Units -/

def Cluster.xfu (c : Cluster) (u : Nat) : Xfu := tget Xfu.initial c.xfus u
def State.xfu (s : State) (cl u : Nat) : Xfu := (s.cluster cl).xfu u
def State.modXfu (s : State) (cl u : Nat) (f : Xfu → Xfu) : State :=
  s.modCluster cl fun c => { c with xfus := tset c.xfus u (f (c.xfu u)) }

/-- The context still places work in the machine: it has not left. -/
def Run.left : Run → Bool
  | .exited => true
  | .idle => true
  | _ => false

/-- The running operation ends (R311, R316, R320): tile, status and ownership, which a frozen owner keeps. -/
def xfuEnd (cl u : Nat) (s : State) : State :=
  let x := s.xfu cl u
  match x.job with
  | none => s
  | some j =>
    let c := s.ctx j.ctx
    let s := match j.slot with
      | some slot => s.modTile (coreOf j.ctx) slot fun t => (t.late j.newData j.status).finish c.bundles
      | none => s
    s.modXfu cl u fun x => { x with
      job := none, err := j.err, done := x.done + 1, nout := if j.op = 0 then j.nout else x.nout, valid := j.valid, lens := j.lens,
      hist := j.hist, histLen := j.histLen, wrote := false
      owner := if c.run.isFrozen || (x.wrote && !c.run.left) then x.owner else none }

/-! ## The copy engine and streams (R301, R302) -/

def Ctx.stream' (c : Ctx) (q : Nat) : Stream := tget Stream.initial c.streams q
def Ctx.setStream (c : Ctx) (q : Nat) (x : Stream) : Ctx := { c with streams := tset c.streams q x }

/-- Copy `i` of the engine completes, unless its channel is frozen (R393, R420). -/
def copyEnd (cl i : Nat) (s : State) : State :=
  s.modCluster cl fun c => match c.copies[i]? with
    | some j => if c.frozenChannels.contains j.channel then c else { c with copies := c.copies.eraseIdx i }
    | none => c

/-- The 8-byte elements of a sector with its poison, in address order. -/
def sectorElems (bs : List Byte) (p : Option W64) : List (W64 × Option W64) :=
  (List.range (bs.length / 8)).map fun i => (BitVec.ofNat 64 (leNat ((bs.drop (8 * i)).take 8)), p)

/-- The engine reads the next sector of the copies that feed a stream, when its buffer of 64 elements has room for it and the copy's
channel runs (R302); a poisoned one is reported (R442). With its last sector the copy completes. -/
def streamArrive (g q : Nat) (s : State) : State :=
  let cl := clusterOf g
  let t := (s.ctx g).stream' q
  match t.pending with
  | [] => s
  | p :: ps =>
    match p.src, (s.cluster cl).copies.findIdx? fun j => j.ctx == g && j.stream == some q && j.seq == p.seq with
    | x :: xs, some i =>
      if decide (64 < t.arrived.length + x.n / 8)
          || ((s.cluster cl).copies[i]?.any fun j => (s.cluster cl).frozenChannels.contains j.channel) then s
      else
        let bad := poisonAt s x.place x.n
        let es := sectorElems (readPlace s x.place x.n) bad
        let s := match bad with | some info => consumed g info s | none => s
        let s := s.modCtx g fun c => c.setStream q { t with
          arrived := t.arrived ++ es, pending := if xs.isEmpty then ps else { p with src := xs } :: ps }
        if xs.isEmpty then copyEnd cl i s else s
    | _, _ => s

/-! ## Program order -/

/-- Operations of a context that are numbered take the next number. -/
def Ctx.nextSeq (c : Ctx) : Ctx := { c with memSeq := c.memSeq + 1 }

/-- Every class. -/
def allClasses : BitVec 16 := BitVec.allOnes 16

/-- A transfer, a copy or a transform operation of the context, of a class in `m` and numbered below `q`, has not completed. -/
def bulkBefore (g : Nat) (m : BitVec 16) (q : Nat) (s : State) : Bool :=
  let on (ctx oc seq : Nat) : Bool := ctx == g && bit m oc && decide (seq < q)
  (s.core (coreOf g)).xferQ.any (fun j => on j.ctx j.oc j.seq)
    || (s.cluster (clusterOf g)).copies.any (fun j => on j.ctx j.oc j.seq)
    || (s.cluster (clusterOf g)).xfus.any fun x => match x.2.job with | some j => on j.ctx j.oc j.seq | none => false

/-- A bulk operation of the context in the classes has not completed. -/
def bulkPending (g : Nat) (m : BitVec 16) (s : State) : Bool := bulkBefore g m (s.ctx g).memSeq s

/-- An operation of the context in the classes, numbered below `q`, has not completed or not performed. -/
def earlier (g : Nat) (m : BitVec 16) (q : Nat) (s : State) : Bool :=
  bulkBefore g m q s || (s.ctx g).delayed.any fun d => bit m d.oc && decide (d.seq < q)

/-- What a marker waits for: everything earlier of its classes, of every class with bit 15 set (R297). -/
def FenceMark.classes (f : FenceMark) : BitVec 16 := if bit f.mask 15 then allClasses else f.mask

/-- The classes a marker makes a later access of class `oc` wait for (R256, R297): of its own classes, until it retires. -/
def FenceMark.waits (f : FenceMark) (oc : Nat) : BitVec 16 :=
  if bit f.mask oc then f.classes else if bit f.mask 15 then 1#16 <<< 15 else 0

/-- A marker holds an access of class `oc` numbered `q`. -/
def fenceHolds (g oc q : Nat) (s : State) : Bool :=
  (s.ctx g).fences.any fun f => decide (f.seq < q) && earlier g (f.waits oc) f.seq s

/-- Two places share a byte; through a Z view, a block of 4 KiB. -/
def Place.meets (p : Place) (n : Nat) (q : Place) (m : Nat) : Bool :=
  let cross (a n b m : Nat) : Bool := decide (a < b + m ∧ b < a + n) && n != 0 && m != 0
  match p, q with
  | .dp b false o, .dp b' false o' => cross (b + o) n (b' + o') m
  | .dp b _ o, .dp b' _ o' => (b + o) / 4096 == (b' + o') / 4096
  | .scratch g o, .scratch g' o' => g == g' && cross o n o' m
  | .csram g o, .csram g' o' => g == g' && cross o n o' m
  | .mint g o, .mint g' o' => g == g' && cross o n o' m
  | _, _ => false

/-- What has not performed yet touches a byte of a place. -/
def Late.meets (l : Late) (p : Place) (n : Nat) : Bool :=
  match l with
  | .store w => w.any fun x => x.1.meets x.2.length p n
  | .push grp off lcap _ => (Place.csram grp off).meets (64 + 8 * 2 ^ lcap) p n
  | .arrive _ => false
  | .leave => false

/-- An access of class `oc` to these places comes after one of its class, or of a shared byte, that has not performed. -/
def behindLate (ds : List Delayed) (oc : Nat) (ps : List (Place × Nat)) : Bool :=
  ds.any fun d => d.oc == oc || ps.any fun x => d.act.meets x.1 x.2

/-- A byte of the places has yet to be read by a copy that feeds a stream of the context (R254). -/
def meetsUnread (g : Nat) (ps : List (Place × Nat)) (s : State) : Bool :=
  (s.ctx g).streams.any fun t => t.2.pending.any fun p => p.src.any fun x => ps.any fun y => x.place.meets x.n y.1 y.2

def Sector.spans (l : List Sector) : List (Place × Nat) := l.map fun x => (x.place, x.n)

/-! ## Held writes (R421) -/

/-- The writes a Vault had to hold while a source took the machine from `s` to `t` are that source's. -/
def claimFor (x : Source) (s t : State) : State :=
  if t.vaults = s.vaults then t
  else { t with vaults := t.vaults.map fun v =>
      (v.1, { v.2 with held := v.2.held.zipIdx.map fun h =>
        if (s.vault v.1).held.length ≤ h.2 && h.1.src.isNone then { h.1 with src := some x } else h.1 }) }

/-- The same of context `g`. -/
def claimHeld (g : Nat) (s t : State) : State := claimFor (.ctx g) s t

/-- A hardware context is given to another program: writes that Vaults hold of its last one are no longer its. -/
def dropClaims (g : Nat) (s : State) : State :=
  { s with vaults := s.vaults.map fun v => (v.1, { v.2 with held := v.2.held.map fun h => if h.src = some (.ctx g) then { h with src := none } else h }) }

/-- A Vault holds a write of the context: it stalls in place (R421). -/
def heldByVault (s : State) (g : Nat) : Bool := s.holdsFor (.ctx g)

/-! ## What waits to perform -/

def ringSlot (off lcap : Nat) (n : W64) : Nat := off + 64 + 8 * (n.toNat % 2 ^ lcap)
/-- The counts of a ring (R304). -/
def ringTail (s : State) (grp off : Nat) : W64 := readDw (s.group grp).csram off
def ringHead (s : State) (grp off : Nat) : W64 := readDw (s.group grp).csram (off + 8)
/-- A doubleword of the group's cluster SRAM written. -/
def ringWrite (grp off : Nat) (x : W64) (s : State) : State := writePlace (.csram grp off) (leBytes 8 x.toNat) s

/-- Bytes stored place by place. -/
def writePlaces (l : List (Place × List Byte)) (s : State) : State := l.foldl (fun s x => writePlace x.1 x.2 s) s

/-- What was issued performs. -/
def performLate (g : Nat) (l : Late) (s : State) : State :=
  match l with
  | .store w => writePlaces w s
  | .push grp off lcap x =>
    let tail := ringTail s grp off
    ringWrite grp off (tail + 1) (ringWrite grp (ringSlot off lcap tail) x s)
  | .arrive n =>
    let c := s.ctx g
    s.modGroup c.group fun x => if x.live.contains c.program then x.arrive n c.program else x
  | .leave => leaveGroup g (s.modCtx g fun c => { c with fences := [] })

/-- Whether an operation releases: it waits for everything earlier (R255, R262, R304, R346). -/
def Delayed.releases (d : Delayed) : Bool :=
  match d.act with
  | .store _ => d.oc == 15
  | _ => true

/-- A push finds room in its ring when it performs (R304). -/
def Late.fits (l : Late) (s : State) : Bool :=
  match l with
  | .push grp off lcap _ => decide ((ringTail s grp off - ringHead s grp off).toNat < 2 ^ lcap)
  | _ => true

/-- A waiting operation can perform. -/
def lateReady (g : Nat) (d : Delayed) (s : State) : Bool :=
  let before := (s.ctx g).delayed.filter fun e => decide (e.seq < d.seq)
  !fenceHolds g d.oc d.seq s && d.act.fits s
    && (if d.releases then !bulkBefore g allClasses d.seq s && before.isEmpty
        else match d.act with
          | .store w => !behindLate before d.oc (w.map fun x => (x.1, x.2.length))
          | _ => true)

/-- Everything that can perform does, in program order. -/
def drainLate (g : Nat) (s : State) : State :=
  (s.ctx g).delayed.foldl (fun s d =>
    if lateReady g d s then
      claimHeld g s (performLate g d.act (s.modCtx g fun c => { c with delayed := c.delayed.filter fun e => e.seq ≠ d.seq }))
    else s) s

/-- An operation joins the list, and performs at once if nothing holds it. -/
def issueLate (g oc : Nat) (l : Late) (s : State) : State :=
  drainLate g (s.modCtx g fun c => ({ c with delayed := c.delayed ++ [{ oc := oc, seq := c.memSeq, act := l }] } : Ctx).nextSeq)

/-- A store of class `oc` must wait. -/
def storeHeld (g oc : Nat) (ps : List (Place × Nat)) (s : State) : Bool :=
  fenceHolds g oc (s.ctx g).memSeq s || behindLate (s.ctx g).delayed oc ps || (oc == 15 && earlier g allClasses (s.ctx g).memSeq s)

/-- A plain store of class `oc`: at once, or when what holds it is gone (R253 to R256, R297). -/
def putStores (g oc : Nat) (l : List (Place × List Byte)) (s : State) : State :=
  if storeHeld g oc (l.map fun x => (x.1, x.2.length)) s then issueLate g oc (.store l) s else writePlaces l s

/-! ## Bulk operations come to their end -/

/-- One of the context's bulk operations in the classes comes to its end, or one sector nearer to it. -/
def bulkProgress (g : Nat) (m : BitVec 16) (s : State) : State :=
  let cl := clusterOf g
  let runs (j : CopyJob) : Bool := j.ctx == g && bit m j.oc && !(s.cluster cl).frozenChannels.contains j.channel
  match (s.core (coreOf g)).xferQ.findIdx? fun j => j.ctx == g && bit m j.oc with
  | some i => popXferQ (coreOf g) i s
  | none =>
    match (s.cluster cl).xfus.find? fun x => match x.2.job with | some j => j.ctx == g && bit m j.oc | none => false with
    | some x => xfuEnd cl x.1 s
    | none =>
      match (s.cluster cl).copies.findIdx? fun j => runs j && j.stream.isNone with
      | some i => copyEnd cl i s
      | none =>
        match (s.cluster cl).copies.find? runs with
        | some j => streamArrive g (j.stream.getD 0) s
        | none => s

/-- A context that stalls for the sake of order comes nearer to the end of its wait. -/
def orderProgress (g : Nat) (s : State) : State := drainLate g (bulkProgress g allClasses s)

/-- An access of class `oc` to these places performs in its order, or stalls in place until it can (R43, R253 to R257, R297): it waits for
copies that have yet to read a byte of its own. -/
def inOrderAt (s : State) (g oc : Nat) (ps : List (Place × Nat)) : Chk Unit :=
  Chk.need (!fenceHolds g oc (s.ctx g).memSeq s && !behindLate (s.ctx g).delayed oc ps && !meetsUnread g ps s) (.stall (orderProgress g))

/-- The same of translated sectors. -/
def inOrder (s : State) (g oc : Nat) (l : List Sector) : Chk Unit := inOrderAt s g oc (Sector.spans l)

/-- A plain store waits in place only for copies that have yet to read its bytes (R254). -/
def storeInOrder (s : State) (g : Nat) (l : List Sector) : Chk Unit :=
  Chk.need (!meetsUnread g (Sector.spans l) s) (.stall (orderProgress g))

/-- A release that returns a value, and an operation that comes after every earlier one, stall in place until all have performed and
completed (R255, R353). -/
def afterAll (s : State) (g : Nat) : Chk Unit :=
  Chk.need (!earlier g allClasses (s.ctx g).memSeq s) (.stall (orderProgress g))

/-- Every earlier access has performed and every earlier bulk operation completed, but for copies that wait for room in a stream (R353;
log 36). -/
def accessesDone (s : State) (g : Nat) : Chk Unit :=
  let c := s.cluster (clusterOf g)
  Chk.need ((s.ctx g).delayed.isEmpty && !((s.core (coreOf g)).xferQ.any fun j => j.ctx == g)
    && !(c.copies.any fun j => j.ctx == g && j.stream.isNone)
    && !(c.xfus.any fun x => match x.2.job with | some j => j.ctx == g | none => false)) (.stall (orderProgress g))

/-! ## EXIT -/

/-- EXIT ends the context (R349); it leaves the participants once its accesses have been acknowledged (R346). -/
def exitCtx (g : Nat) (s : State) : State := issueLate g 15 .leave (endCtx g s)

end Sys2Proof.Machine
end

