-- ==== Sys2Proof/Machine/Issue.lean ====
section
/-!
DEFINITION. Issue of the slots of one bundle: pending operands, issue checks, blocks and stalls in their order (R41, R103,
R282), then commit of all slots or none (R10, R50), landing, branches and squashing (R54, R55, R82).
-/
set_option Elab.async false
namespace Sys2Proof.Machine

/-- A slot about to issue: its number, its operation, its environment and what it does. -/
structure SlotOp where
  n : Nat
  instr : Instr
  env : Env
  issue : Env → State → Issue

/-- The guard is true: some lane of a lane mask, bit 0 otherwise (R80). A header has no guard. -/
def SlotOp.active (o : SlotOp) (s : State) : Bool :=
  let m := o.env.mask s
  if laneForm o.n o.instr then m != 0 else bit m 0

/-- The guard predicate is pending (R80). -/
def SlotOp.guardPending (o : SlotOp) (s : State) : Bool :=
  o.env.go && (s.ctx o.env.g).pending (.p (o.env.guardIndex))

/-- An operand of an active slot is pending (R54, R103). -/
def SlotOp.operandPending (o : SlotOp) (s : State) : Bool :=
  (pendingNames o.instr (o.env.mask s)).any (s.ctx o.env.g).pending

/-- The watchdog count returns to 0 (R438): it is kept as the cycle from which it counts. -/
def resetWatch (g : Nat) (s : State) : State := s.modCtx g fun c => { c with watch := s.cycles.toNat }

/-- Time passes with a step: one cycle of issue and whatever stalls and transfers take (R14; log 3). -/
def passTime (s : State) : State :=
  { s with cycles := s.cycles + 1 + BitVec.ofNat 64 (Config.stepTime s.tick), tick := s.tick + 1 }

/-- Time in which a context issues or stalls is charged to its VF (R364). -/
def spendTime (g : Nat) (s : State) : State := passTime (charge g (1 + Config.stepTime s.tick) s)

/-- Energy of a committed bundle (R369). -/
def bundleEnergy (l : List Instr) : Nat := l.foldl (fun n i => n + opEnergy i) (Config.energyNJ 0)

/-- A blocked bundle is not issued and does not advance the bundle count; the core passes issue (R41, R42). -/
def blockCtx (g : Nat) (w : Wait) (s : State) : State :=
  passIssue g (s.modCtx g fun c => { c with run := .blocked w, stalled := false })

/-- A bundle stalls in place while `f` brings what it waits for nearer: it has been offered, and issue does not pass (R43). -/
def stallCtx (g : Nat) (f : State → State) (s : State) : State :=
  spendTime g ((f s).modCtx g fun c => { c with stalled := true })

/-- The result of every active slot. -/
abbrev Results := List (SlotOp × Issue)

def Results.early (rs : Results) : List Nat :=
  rs.filterMap fun r => match r.2 with | .error .early => some r.1.n | _ => none
/-- Every slot that fails an issue check, with its cause and TRAPINFO. -/
def Results.traps (rs : Results) : List (Nat × Nat × W64) :=
  rs.filterMap fun r => match r.2 with | .error (.trap c i) => some (r.1.n, c, i) | _ => none
/-- What the bundle waits for: that of a TT2V on an empty tile, which holds a queue entry (R172), before another slot's. -/
def Results.block (rs : Results) : Option Wait :=
  let ws := rs.filterMap fun r => match r.2 with | .error (.block w) => some w | _ => none
  if ws.contains .tileRead then some .tileRead else ws.head?
def Results.stall (rs : Results) : Option (State → State) :=
  rs.findSome? fun r => match r.2 with | .error (.stall f) => some f | _ => none
/-- A check made while stalling: an atomic, which stands in W3, is sent only after every other check (R294; log 12). -/
def Results.late (rs : Results) : Option (Nat × Nat × W64) :=
  rs.findSome? fun r => match r.2 with | .error (.late c i) => some (r.1.n, c, i) | _ => none
def Results.commits (rs : Results) : List Commit :=
  rs.filterMap fun r => match r.2 with | .ok c => some c | .error _ => none

/-- All slots commit (R50): their effects, the squash of a taken branch, the bundle count, the next bundle, the names the
group has written, and the results due. Effects fold in slot order, so that a store in W3 to bytes that a CK instruction of its bundle
writes lasts (log 66). A trap of the committed bundle is taken at the boundary after it (R351, R429). -/
def commitBundle (g : Nat) (stop : Bool) (writes : List Name) (rs : Results) (s : State) : State :=
  let cs := rs.commits
  let j := (s.ctx g).bundles
  let blocked := !(s.ctx g).run.isReady
  let s := claimHeld g s (cs.foldl (fun s c => c.act s) s)
  let target := cs.findSome? (·.target)
  let rfe := cs.any (·.rfe)
  let c := s.ctx g
  let c := if target.isSome then c.squashAfter j else c
  let c := { c with run := .ready, stalled := false, bundles := j + 1, pc := target.getD (c.pc + 16),
                    groupWrites := if stop || target.isSome then [] else c.groupWrites ++ writes }
  let c := if rfe then c.rfe s.cycles.toNat else c
  let c := c.deliver
  let s := meter g (bundleEnergy (rs.map (·.1.instr))) (spendTime g (s.setCtx g c))
  let s := if blocked || rs.any (fun r => resetsWatchdog r.1.instr) then resetWatch g s else s
  let s := match cs.findSome? (·.post) with
    | none => s
    | some (cause, info) =>
      match c.boundaryFreeze with
      | some pa => takeTrap g 0x0A pa 0 (s.modCtx g fun c => { c with boundaryFreeze := none })
      | none => takeTrap g cause info 0 s
  if cs.any (·.exit) then exitCtx g s
  else if cs.any (·.yield) then passIssue g s
  else s

/-- Results in flight once the active slots have issued (R56). -/
def inFlight (g : Nat) (act : List SlotOp) (s : State) : Nat :=
  (s.ctx g).flights.length + act.foldl (fun n o => n + exposed o.instr (o.env.mask s)) 0

/-- Issue of the slots of a bundle in context `g`: the first of a pending operand, a fault, the in-flight limit (R56), a
block, a stall and a late check decides; otherwise all slots commit. Every slot that fails an issue check is marked in FAULTMASK, and
the lowest gives the cause (R8; log 16); at the in-flight limit every active slot is marked (log 55). -/
def issueOps (g : Nat) (stop : Bool) (writes : List Name) (ops : List SlotOp) (s : State) : State :=
  let act := ops.filter (·.active s)
  let rs : Results := act.map fun o => (o, o.issue o.env s)
  let early := (ops.filter (·.guardPending s)).map (·.n) ++ (act.filter (·.operandPending s)).map (·.n) ++ rs.early
  if !early.isEmpty then takeTrap g 0x03 0 (slotMask early) s
  else match rs.traps with
    | (_, cause, info) :: _ => takeTrap g cause info (slotMask (rs.traps.map (·.1))) s
    | [] =>
      if 48 < inFlight g act s then
        takeTrap g 0x03 1 (slotMask (act.map (·.n))) s
      else match rs.block with
        | some w => blockCtx g w s
        | none => match rs.stall with
          | some f => stallCtx g f s
          | none => match rs.late with
            | some (n, cause, info) => takeTrap g cause info (slotMask [n]) s
            | none => commitBundle g stop writes rs s

/-- The slots would block now (R41): what keeps a blocked context from being ready. -/
def wouldBlock (g : Nat) (ops : List SlotOp) (s : State) : Bool :=
  let act := ops.filter (·.active s)
  let rs : Results := act.map fun o => (o, o.issue o.env s)
  let early := (ops.filter (·.guardPending s)).map (·.n) ++ (act.filter (·.operandPending s)).map (·.n) ++ rs.early
  early.isEmpty && rs.traps.isEmpty && decide (inFlight g act s ≤ 48) && rs.block.isSome

/-! ## Checks on a bundle and its group (R100, R101, R103) -/

/-- Names of the group rule an operation reads beside its guard: of HDR.T its tests and every target it can choose (R101). -/
def groupReads (i : Instr) : List Name :=
  match i with
  | .hdrT _ h q b _ _ _ =>
    (shapeTests h.toNat).map (fun t => .p (4 * q.toNat + t)) ++ ((shapeLeaves h.toNat).filter (· < 4)).map fun l => .b ((b.toNat + l) % 8)
  | i => readNames i

/-- Names of the group rule a slot reads, its guard among them, and those it writes. -/
def SlotOp.reads (o : SlotOp) : List Name :=
  (.p o.env.guardIndex :: groupReads o.instr).filter fun n => n.counts && n.grouped
def SlotOp.writes (o : SlotOp) : List Name := (writeNames o.instr).filter Name.counts

/-- The number of times a name is written in a bundle. -/
def writtenIn (ops : List SlotOp) (n : Name) : Nat := (ops.flatMap (·.writes)).count n

/-- Slots that write a name the bundle writes more than once (R100). -/
def conflicts (ops : List SlotOp) : List Nat :=
  (ops.filter fun o => o.writes.any fun n => decide (1 < writtenIn ops n)).map (·.n)

/-- RFE stands alone in its bundle (R352). -/
def rfeBeside (ops : List SlotOp) : List Nat :=
  if (ops.any fun o => match o.instr with | .rfe .. => true | _ => false) && decide (1 < ops.length) then ops.map (·.n) else []

/-- Slots that read or write a name an earlier bundle of the group writes (R51, R101). -/
def dependents (ws : List Name) (ops : List SlotOp) : List Nat :=
  (ops.filter fun o => (o.reads ++ o.writes).any ws.contains).map (·.n)

/-- Slots whose operation has no place in a streamed bundle (R63, R350). -/
def slips (g : Nat) (ops : List SlotOp) (s : State) : List Nat :=
  if (s.ctx g).stream then (ops.filter fun o => slipsStream o.instr).map (·.n) else []

/-- Issue of a bundle whose operations are `ops` and whose words `bad` are illegal: the lowest cause of R103, or `issueOps`. -/
def issueSlots (g : Nat) (stop : Bool) (bad : List Nat) (ops : List SlotOp) (s : State) : State :=
  let bad := bad ++ conflicts ops ++ rfeBeside ops
  let slip := slips g ops s
  let dep := dependents (s.ctx g).groupWrites ops
  if !bad.isEmpty then takeTrap g 0x01 0 (slotMask bad) s
  else if !slip.isEmpty then takeTrap g 0x0C 0 (slotMask slip) s
  else if !dep.isEmpty then takeTrap g 0x02 0 (slotMask dep) s
  else issueOps g stop ((ops.flatMap (·.writes)).filter Name.grouped) ops s

/-- Issue of one operation alone in its bundle, the other slots being no-operations, in the context that holds issue. -/
def runSlot (n : Nat) (stop : BitVec 1) (guard : BitVec 3) (i : Instr) (f : Env → State → Issue) (s : State) :
    Host.Outcome State Fault Refusal :=
  .next (issueSlots s.cur (stop == 1) [] [{ n := n, instr := i, env := { g := s.cur, gd := guard }, issue := f }] s)

/-- A bundle of four no-operations (R84). -/
def runNop (stop : BitVec 1) (s : State) : Host.Outcome State Fault Refusal := .next (issueSlots s.cur (stop == 1) [] [] s)

end Sys2Proof.Machine
end

