-- ==== Sys2Proof/Machine/Array.lean ====
section
/-!
DEFINITION. The matrix array of a core pair: exact sums of k-steps (R133), the firmware routines (R185), the queued
operations (R188, R193), and the micro-sequencer (R190 to R192). An operation's effects are made when the array runs it.
-/
set_option Elab.async false
namespace Sys2Proof.Machine

/-! ## Exact sums -/

/-- A list kept in descending order of the value's top bit, a term added. -/
def insertTerm (t : Bool × Nat × Int) : List (Bool × Nat × Int) → List (Bool × Nat × Int)
  | [] => [t]
  | u :: l => if u.2.2 + bitLen u.2.1 ≤ t.2.2 + bitLen t.2.1 then t :: u :: l else u :: insertTerm t l

/-- The sum of terms in descending order, as an integer and its unit. Where a term's top lies far below the unit of a
nonzero sum so far, the terms left (fewer than 256) cannot reach it: they count as one unit 64 bits down, of their sign. -/
def sumDesc : Int × Int → List (Bool × Nat × Int) → Int × Int
  | acc, [] => acc
  | (a, e), t :: l =>
    let next : Int × Int :=
      if a = 0 then (signedAt t.1 t.2.1 t.2.2 t.2.2, t.2.2)
      else
        let u := min e t.2.2
        (a * 2 ^ (e - u).toNat + signedAt t.1 t.2.1 t.2.2 u, u)
    if a ≠ 0 ∧ t.2.2 + bitLen t.2.1 + 16 < e - 64 then
      let r := (sumDesc (signedAt t.1 t.2.1 t.2.2 t.2.2, t.2.2) l).1
      (a * 2 ^ 64 + (if r < 0 then -1 else if 0 < r then 1 else 0), e - 64)
    else sumDesc next l

/-- The finite terms of a list that are not zero. -/
def finiteTerms (ts : List FpVal) : List (Bool × Nat × Int) :=
  ts.filterMap fun t => match t with | .fin n m e => if m = 0 then none else some (n, m, e) | _ => none

def FpVal.isNegZero : FpVal → Bool
  | .fin true 0 _ => true
  | _ => false

/-- The exact sum of terms, for one rounding (R133): NaN for a NaN or infinities of both signs, an infinity of one sign,
else the sum; an exact zero is −0 when every term is −0, +0 otherwise. A sum far below every format stays nonzero. -/
def exactSum (ts : List FpVal) : FpVal :=
  let neg := ts.any fun t => t == .inf true
  let pos := ts.any fun t => t == .inf false
  if ts.any (·.isNan) || (neg && pos) then .nan false
  else if neg || pos then .inf neg
  else
    let r := sumDesc (0, 0) ((finiteTerms ts).foldl (fun l t => insertTerm t l) [])
    if r.1 = 0 then .fin (!ts.isEmpty && ts.all (·.isNegZero)) 0 0
    else if r.2 + bitLen r.1.natAbs < -600 then .fin (decide (r.1 < 0)) 1 (-600)
    else .fin (decide (r.1 < 0)) r.1.natAbs r.2

/-- fp32g(acc + p), p the exact sum of the step's terms (R133); a zero p of an integer or quantised step is +0. -/
def accStep (signedZero : Bool) (acc : Nat) (ts : List FpVal) : Nat :=
  let s := exactSum (fp32g.decode acc :: ts)
  match s with
  | .nan _ => fp32g.qnan false
  | .fin true 0 _ => if signedZero then (fp32g.encode s).1 else 0
  | s => (fp32g.encode s).1

/-! ## Accumulators -/

def accAt (a : AccBits) (m n : Nat) : Nat := (a.extractLsb' (40 * (32 * m + n)) 40).toNat
def accOf (f : Nat → Nat → Nat) : AccBits := BitVec.ofNat 40960 (packNat 40 (fun i => f (i / 32) (i % 32)) 1024)
/-- The elements of a region changed, in view of their old values. -/
def accRegion (a : AccBits) (r0 c0 m n : Nat) (f : Nat → Nat → Nat → Nat) : AccBits :=
  accOf fun i j => if r0 ≤ i ∧ i < r0 + m ∧ c0 ≤ j ∧ j < c0 + n then f (i - r0) (j - c0) (accAt a i j) else accAt a i j
def MArray.accBits (a : MArray) (k : Nat) : AccBits := tget 0 a.acc k
def MArray.setAcc (a : MArray) (k : Nat) (x : AccBits) : MArray := { a with acc := tset a.acc k x }

/-! ## Matrix parameters (R182) -/

def mpTile (mps : List W64) (sel : Nat) : Nat :=
  match sel with
  | 0 => (bits (mps.getD 0 0) 0 5).toNat
  | 1 => (bits (mps.getD 1 0) 0 5).toNat
  | 2 => (bits (mps.getD 2 0) 0 5).toNat
  | 3 => (bits (mps.getD 5 0) 16 5).toNat
  | _ => (bits (mps.getD 6 0) 0 5).toNat
def mpK (mps : List W64) : Nat := (bits (mps.getD 3 0) 0 16).toNat
def mpSig (mps : List W64) : BitVec 1 := bits (mps.getD 4 0) 8 1
def mpV2 (mps : List W64) : Bool := bit (mps.getD 4 0) 24
def mpKoff (mps : List W64) : Nat := (bits (mps.getD 4 0) 25 2).toNat
def mpRow (mps : List W64) : Nat := (bits (mps.getD 5 0) 0 5).toNat
def mpCol (mps : List W64) : Nat := (bits (mps.getD 5 0) 8 5).toNat

/-! ## Elements and scale entries -/

/-- The exact value of a fetched element; formats the array cannot multiply decode as +0 (R191). -/
def fetchVal (fmt : Nat) (x : W64) : FpVal :=
  match fmt with
  | 6 => ofInt (x.setWidth 8).toInt
  | 7 => ofInt (x.setWidth 4).toNat
  | 9 => match dk x with
    | .nan _ => .nan false
    | .inf s => .inf s
    | .zero s => .fin s 0 0
    | .num s e m => .fin s m (e - 32)
  | 10 => match dk (dk32Widen (x.setWidth 32)) with
    | .nan _ => .nan false
    | .inf s => .inf s
    | .zero s => .fin s 0 0
    | .num s e m => .fin s m (e - 32)
  | 11 => ofInt x.toNat
  | 12 => .fin false 0 0
  | 13 => .fin false 0 0
  | 14 => .fin false 0 0
  | _ => elemVal fmt x.toNat

/-- Scale and zero point of a lane (R132). -/
def scaleEntry (v : Vec) (l : Nat) : FpVal × Int :=
  (fp16.decode (lane v l).toNat, ((lane v l).extractLsb' 16 8).toInt)

/-- Group size of a header's GRP. -/
def grpSize (g : Nat) : Nat := if g = 0 then 0 else 16 * 2 ^ g

/-- s × (q − z) × x (R131, R133). -/
def quantTerm (s : FpVal) (z : Int) (q x : FpVal) : FpVal := (s.mul (q.add (ofInt (-z)))).mul x

/-- The entry `e` of the 128, from the vector of the half it lies in; none where it is not supplied. -/
def entryOf (sig : BitVec 1) (va vb : Option Vec) (e : Nat) : Option (FpVal × Int) :=
  (if e / 64 = sig.toNat then va else if e / 64 = 1 - sig.toNat then vb else none).map fun v => scaleEntry v (e % 64)

/-! ## Firmware routines (R185) -/

/-- Terms of k-step `t` of routines 0 to 4 at output (m, n). -/
def routineTerms (n : Nat) (mps : List W64) (ha hb : Hdr) (da db : TileBits) (va vb : Option Vec) (t i j : Nat) : List FpVal :=
  (List.range 32).map fun u =>
    let k := 32 * t + u
    let a := fetchVal ha.fmt (BitVec.ofNat 64 (ha.get da i k))
    let b := fetchVal hb.fmt (BitVec.ofNat 64 (if n = 1 then hb.get db j k else hb.get db k j))
    if n = 2 ∨ n = 3 then
      let e := (32 * mpKoff mps + k) / grpSize hb.grp * hb.cols + j
      let sz := (entryOf (mpSig mps) va vb e).getD (.fin false 0 0, 0)
      quantTerm sz.1 sz.2 b a
    else a.mul b

/-- A firmware routine run to its end: its k-steps commit in ascending order (R186). -/
def runRoutine (n : Nat) (mps : List W64) (tiles : List (Nat × Nat × W64 × TileBits)) (va vb : Option Vec) (acc : AccBits) : AccBits :=
  if n = 5 then
    match tiles with
    | (_, _, h, d) :: _ =>
      let h := Hdr.of h
      accRegion acc (mpRow mps) (mpCol mps) h.rows h.cols fun i j x =>
        accStep true x [fetchVal h.fmt (BitVec.ofNat 64 (h.get d i j))]
    | [] => acc
  else
    match tiles with
    | (_, _, h0, da) :: (_, _, h1, db) :: _ =>
      let ha := Hdr.of h0
      let hb := Hdr.of h1
      (List.range (mpK mps / 32)).foldl (fun acc t =>
        accRegion acc (mpRow mps) (mpCol mps) ha.rows (if n = 1 then hb.rows else hb.cols) fun i j x =>
          accStep (decide (n ≤ 1)) x (routineTerms n mps ha hb da db va vb t i j)) acc
    | _ => acc

/-! ## The routine table (R183, R189) -/

/-- The defined bits of an entry; reserved ones are ignored on write and read as zero. -/
def entryMask : W64 := 0x7FFFF87FF
/-- An entry that firmware loads. -/
def firmwareEntry (n : Nat) : W64 :=
  let mk (rd sc af bf : Nat) : W64 :=
    BitVec.ofNat 64 ((Config.routineAddr n).toNat + 0x8000 + rd * 2 ^ 16 + sc * 2 ^ 26 + af * 2 ^ 27 + bf * 2 ^ 31)
  match n with
  | 0 => mk 3 0 15 15
  | 1 => mk 3 0 15 15
  | 2 => mk 3 1 1 6
  | 3 => mk 3 1 1 7
  | 4 => mk 3 0 3 3
  | _ => mk 4 0 15 15

/-- The entry as the array holds it. -/
def MArray.entry (a : MArray) (n : Nat) : W64 := if n ≤ 5 then firmwareEntry n else if n < 32 then 0 else tget 0 a.table n
def entValid (e : W64) : Bool := bit e 15
def entAddr (e : W64) : Nat := (bits e 0 11).toNat
def entRd (e : W64) (sel : Nat) : Bool := bit e (16 + sel)
def entWr (e : W64) (sel : Nat) : Bool := bit e (21 + sel)
def entSc (e : W64) : Bool := bit e 26
def entAf (e : W64) : Nat := (bits e 27 4).toNat
def entBf (e : W64) : Nat := (bits e 31 4).toNat

/-! ## Tiles an array operation writes -/

/-- Formats a drain can write (R137). -/
def drainFmt (f : Nat) : Bool := f ≤ 5 || f == 8

/-- The elements `(i, j)` with `i < m` and `j < n` drained into a tile: contents and status (R188). -/
def drainInto (old : TileBits) (h : Hdr) (acc : AccBits) (m0 n0 m n : Nat) : TileBits × BitVec 3 :=
  let conv (i j : Nat) : Nat × Bool := narrow h.fmt (fp32g.decode (accAt acc (m0 + i) (n0 + j)))
  let raw (i j : Nat) : Nat × Bool := if h.fmt = 8 then (accAt acc (m0 + i) (n0 + j), false) else conv i j
  let ks := (List.range (m * n)).map fun k => (k / n, k % n)
  let whole := m == h.rows && n == h.cols
  let base := if whole then h.fill old fun i j => (raw i j).1
    else ks.foldl (fun d p => setElem d h.fmt (h.index p.1 p.2) (raw p.1 p.2).1) old
  (base, statusOf h.fmt base (ks.map fun p => h.index p.1 p.2) (ks.any fun p => (raw p.1 p.2).2))

/-- A tile of a context's core written by the array, which then goes full. -/
def arrayWrite (g slot : Nat) (f : TileBits → TileBits × BitVec 3) (s : State) : State :=
  let j := (s.ctx g).bundles
  s.modTile (coreOf g) slot fun t => (t.late (f t.data).1 (f t.data).2).finish j

/-! ## Running an operation -/

/-- 512 words of the store, little-endian. -/
def storeWords (d : TileBits) (n : Nat) : List W64 := (List.range n).map fun i => d.extractLsb' (64 * i) 64
def tileOfWords (ws : List W64) : TileBits := BitVec.ofNat 32768 (packNat 64 (fun i => (ws.getD i 0).toNat) ws.length)
/-- The words of a list written into a table from `first`. -/
def putWords (t : Tbl W64) (first : Nat) (ws : List W64) : Tbl W64 := (ws.zipIdx).foldl (fun t w => tset t (first + w.2) w.1) t

/-- The micro-program of a call starts (R191). -/
def startMicro (ctx acc : Nat) (mps : List W64) (tiles : List (Nat × Nat × W64 × TileBits)) (va vb : Option Vec) (e : W64) : MicroRun :=
  { ctx := ctx, acc := acc, mps := mps, tiles := tiles, scaleA := va, scaleB := vb, upc := entAddr e, kidx := 0, kcnt := 0,
    words := 0, faRows := 0, fa := [], fbCols := 0, fb := [], fbGrp := 0, qa := [], qb := [], half := mpSig mps,
    wr := ((tiles.filter fun t => entWr e t.1).map (·.2.1)).dedup, stat := [] }

/-- The effects of an operation as it ends; a call of a task's routine is the micro-sequencer's. `mprd.tab` leaves the tile's bytes past its
entries as they are, and its status is over the bytes written (R193; log 65). -/
def runArrOp (pr : Nat) (o : ArrOp) (s : State) : State :=
  match o with
  | .call _ acc n mps tiles va vb _ => s.modArray pr fun a => a.setAcc acc (runRoutine n mps tiles va vb (a.accBits acc))
  | .mark _ => s
  | .clear _ acc => s.modArray pr fun a => a.setAcc acc 0
  | .drain g acc slot hdr m n =>
    arrayWrite g slot (fun d => drainInto d (Hdr.of hdr) ((s.array pr).accBits acc) m n (Hdr.of hdr).rows (Hdr.of hdr).cols) s
  | .spill g acc slot hdr hi =>
    let h := Hdr.of hdr
    arrayWrite g slot (fun d =>
      let d := h.fill d fun i j => accAt ((s.array pr).accBits acc) ((if hi then 16 else 0) + i) j
      (d, h.status d false)) s
  | .fill _ acc hdr data hi =>
    s.modArray pr fun a => a.setAcc acc (accRegion (a.accBits acc) (if hi then 16 else 0) 0 16 32 fun i j _ =>
      (Hdr.of hdr).get data i j % 2 ^ 40)
  | .storeWrite _ addr data => s.modArray pr fun a => { a with store := putWords a.store addr (storeWords data 512) }
  | .tabWrite _ first count data =>
    s.modArray pr fun a => { a with table := putWords a.table first ((storeWords data count).map (· &&& entryMask)) }
  | .storeRead g addr slot hdr =>
    let ws := (List.range 512).map fun i => tget 0 (s.array pr).store (addr + i)
    arrayWrite g slot (fun _ => (tileOfWords ws, (Hdr.of hdr).status (tileOfWords ws) false)) s
  | .tabRead g first count slot hdr =>
    let ws := (List.range count).map fun i => (s.array pr).entry (first + i)
    arrayWrite g slot (fun d =>
      let d := setBits d 0 (BitVec.ofNat (64 * count) (tileOfWords ws).toNat)
      (d, statusOf (Hdr.of hdr).fmt d ((Hdr.of hdr).indices.filter fun i => decide (fmtBits (Hdr.of hdr).fmt * i < 64 * count)) false)) s

/-! ## The queues (R178, R186, R194, R196) -/

/-- Operations of a core that have not ended, the running one among them: it keeps its queue entry until it ends (log 56). -/
def MArray.count (a : MArray) (coreB : Bool) : Nat :=
  (if coreB then a.queueB else a.queueA).length + (match a.current with | some (b, _) => (b == coreB).toNat | none => 0)

def MArray.idle (a : MArray) : Bool := a.queueA.isEmpty && a.queueB.isEmpty && a.current.isNone

/-- The oldest operation of a core's queue starts. In MODE 0 it starts only in its core's window. -/
def arrayStart (pr : Nat) (coreB : Bool) (s : State) : State :=
  let a := s.array pr
  if a.current.isSome || (a.mode == 0 && a.windowB != coreB) then s
  else match (if coreB then a.queueB else a.queueA) with
    | [] => s
    | o :: q =>
      let micro := match o with
        | .call g acc n mps tiles va vb e => if 32 ≤ n then some (startMicro g acc mps tiles va vb e) else none
        | _ => none
      s.modArray pr fun a => { a with current := some (coreB, o), micro := micro,
                                      queueA := if coreB then a.queueA else q, queueB := if coreB then q else a.queueB }

/-- The k-steps a firmware routine runs: KCNT / 32, and one of routine 5, which ignores KCNT (R185). -/
def routineSteps (n : Nat) (mps : List W64) : Nat := if n = 5 then 1 else ceilDiv (mpK mps) 32

/-- The operation that runs, unless a micro-program does, ends with its effects and the energy of its k-steps (R369). -/
def arrayEnd (pr : Nat) (s : State) : State :=
  let a := s.array pr
  match a.current with
  | none => s
  | some (_, o) =>
    if a.micro.isSome then s
    else
      let s := (runArrOp pr o s).modArray pr fun a => { a with current := none }
      match o with
      | .call g _ n mps _ _ _ _ => meter g (routineSteps n mps * Config.energyNJ 1) s
      | _ => s

/-- The next window begins (R178). -/
def arrayNextWindow (pr : Nat) (s : State) : State := s.modArray pr fun a => { a with windowB := !a.windowB }

/-! ## The micro-sequencer (R190 to R192) -/

/-- A micro-program ends: every tile of WR that is not full goes full with the status of what was written to it. -/
def microFinish (pr : Nat) (s : State) : State :=
  match (s.array pr).micro with
  | none => s
  | some m =>
    let s := s.each m.wr fun slot s => arrayWrite m.ctx slot (fun d => (d, tget 0 m.stat slot)) s
    s.modArray pr fun a => { a with micro := none, current := none }

/-- A micro-operation ran: the next word, or the end of the routine after a word with E, past its block, or at the
65,536th word, which sets CUTA or CUTB (R192); a 65,536th word that ends the routine itself sets neither (log 65). -/
def microNext (pr : Nat) (e : BitVec 1) (target : Option (BitVec 9)) (f : MicroRun → MicroRun) (s : State) : State :=
  match (s.array pr).micro with
  | none => s
  | some m =>
    let m := f m
    let last := m.upc % 512 == 511
    let m' := { m with words := m.words + 1, upc := match target with | some t => m.upc / 512 * 512 + t.toNat | none => m.upc + 1 }
    let s := s.modArray pr fun a => { a with micro := some m' }
    if e == 1 || (last && target.isNone) then microFinish pr s else s

/-- The word limit of a call: the routine ends and its core's CUT bit is set (R192). -/
def microCut (pr : Nat) (s : State) : State :=
  match (s.array pr).micro with
  | none => s
  | some m =>
    if m.words < 65536 then s
    else microFinish pr (s.modArray pr fun a =>
      if coreOf m.ctx % 2 = 1 then { a with cutB := true } else { a with cutA := true })

/-- The tile a selector names, when the call took it (R190, R191), with its contents as the call issued: a fetch after a drain into the
same tile reads those (log 56). -/
def MicroRun.tile (m : MicroRun) (sel : Nat) : Option (Nat × Hdr × TileBits) :=
  (m.tiles.find? fun t => t.1 == sel).map fun t => (t.2.1, Hdr.of t.2.2.1, t.2.2.2)

/-- An element of a tile for a fetch buffer; indices past the tile read as +0. -/
def fetchElem (h : Hdr) (d : TileBits) (m n : Nat) : Nat × W64 :=
  if m < h.rows ∧ n < h.cols then (h.fmt, BitVec.ofNat 64 (h.get d m n)) else (0, 0)

/-- FETA: rows of 32 K indices; with X, columns of the tile. A selector that names no tile reads as +0, in 32 rows (R191; log 31). -/
def MicroRun.feta (m : MicroRun) (sel : Nat) (x : Bool) : MicroRun :=
  match m.tile sel with
  | none => { m with faRows := 32, fa := List.replicate 1024 (0, 0) }
  | some (_, h, d) =>
    let rows := min 32 (if x then h.cols else h.rows)
    { m with faRows := rows, fa := (List.range (32 * rows)).map fun i =>
        if x then fetchElem h d (m.kidx + i % 32) (i / 32) else fetchElem h d (i / 32) (m.kidx + i % 32) }

/-- FETB: columns of 32 K indices; with X, rows of the tile. A selector that names no tile reads as +0, in 32 columns. -/
def MicroRun.fetb (m : MicroRun) (sel : Nat) (x : Bool) : MicroRun :=
  match m.tile sel with
  | none => { m with fbCols := 32, fb := List.replicate 1024 (0, 0), fbGrp := 0 }
  | some (_, h, d) =>
    let cols := min 32 (if x then h.rows else h.cols)
    { m with fbCols := cols, fbGrp := h.grp, fb := (List.range (32 * cols)).map fun i =>
        if x then fetchElem h d (i / 32) (m.kidx + i % 32) else fetchElem h d (m.kidx + i % 32) (i / 32) }

/-- Element `i` of row or column `r` of a buffer. -/
def bufVal (b : List (Nat × W64)) (r i : Nat) : FpVal :=
  match b[32 * r + i]? with
  | some x => fetchVal x.1 x.2
  | none => .fin false 0 0

/-- The call's region, bounded to 32 × 32. -/
def MicroRun.region (m : MicroRun) (acc : AccBits) (f : Nat → Nat → Nat → Nat) : AccBits :=
  accRegion acc (mpRow m.mps) (mpCol m.mps) m.faRows m.fbCols f

/-- MAC: one k-step over the buffers. -/
def MicroRun.mac (m : MicroRun) (acc : AccBits) : AccBits :=
  m.region acc fun i j x => accStep true x ((List.range 32).map fun k => (bufVal m.fa i k).mul (bufVal m.fb j k))

/-- ZPC: the correction step of the sums that the last MACQ took (R191), whose terms are those of R133. Where FB holds a format without
integer codes, q is the element's decoded value (log 65). -/
def MicroRun.zpc (m : MicroRun) (acc : AccBits) : AccBits :=
  m.region acc fun i j x =>
    let grp := grpSize m.fbGrp
    let e := (if grp = 0 then 0 else (32 * mpKoff m.mps + m.kidx) / grp) * m.fbCols + j
    let v := if m.half = mpSig m.mps then m.scaleA else m.scaleB
    let sz : FpVal × Int := if e / 64 = m.half.toNat then (v.map fun v => scaleEntry v (e % 64)).getD (.fin false 0 0, 0)
      else (.fin false 0 0, 0)
    accStep false x ((List.range 32).map fun k => quantTerm sz.1 sz.2 (bufVal m.qb j k) (bufVal m.qa i k))

/-- DRN: the region drained into the selected tile as MDRAIN does, if the call took the tile and its format can be drained (R191; log
31). A tile that is not empty for this call takes the bytes and their status as it stands. -/
def microDrain (pr : Nat) (m : MicroRun) (sel : Nat) (s : State) : State :=
  match m.tile sel with
  | none => s
  | some (slot, h, _) =>
    if !drainFmt h.fmt then s
    else
      let rows := min h.rows (min m.faRows (32 - mpRow m.mps))
      let cols := min h.cols (min m.fbCols (32 - mpCol m.mps))
      let old := (s.tile (coreOf m.ctx) slot).data
      let r := drainInto old h ((s.array pr).accBits m.acc) (mpRow m.mps) (mpCol m.mps) rows cols
      let st := tget 0 m.stat slot ||| r.2
      let idx := (List.range (rows * cols)).map fun k => h.index (k / cols) (k % cols)
      let s := s.modTile (coreOf m.ctx) slot fun t =>
        let t := { t with poison := if t.poison.isEmpty then [] else t.poison.filter fun x => !(wholeSectors h.fmt idx).contains x }
        if m.wr.contains slot then { t with data := r.1 } else t.late r.1 st
      s.modArray pr fun a => { a with micro := a.micro.map fun m => { m with stat := tset m.stat slot st } }

/-- SIGT: the selected tile goes full now, if it is in WR. -/
def microSignal (pr : Nat) (m : MicroRun) (sel : Nat) (s : State) : State :=
  match m.tile sel with
  | none => s
  | some (slot, _, _) =>
    if !m.wr.contains slot then s
    else
      let s := arrayWrite m.ctx slot (fun d => (d, tget 0 m.stat slot)) s
      s.modArray pr fun a => { a with micro := a.micro.map fun m => { m with wr := m.wr.filter (· ≠ slot) } }

/-- A change of the accumulator of the running call. -/
def microAcc (pr : Nat) (f : MicroRun → AccBits → AccBits) (s : State) : State :=
  match (s.array pr).micro with
  | none => s
  | some m => s.modArray pr fun a => a.setAcc m.acc (f m (a.accBits m.acc))

/-- What a micro-operation does beside moving to the next word. -/
def microTile (pr : Nat) (f : MicroRun → State → State) (s : State) : State :=
  match (s.array pr).micro with
  | none => s
  | some m => f m s

/-- Where no micro-program runs on the array, or it reached the word limit, a micro-operation does not execute. -/
def microReady (pr : Nat) (s : State) : Bool :=
  match (s.array pr).micro with
  | none => false
  | some m => decide (m.words < 65536)

end Sys2Proof.Machine
end

