-- ==== Sys2Proof/Machine/Micro.lean ====
section
/-!
DEFINITION. The micro-operations one by one (R191) and the array's progress: the next micro-word, the end of the running
operation, or the start of the next one (R178, R192, R194).
-/
set_option Elab.async false
namespace Sys2Proof.Machine

/-- A micro-operation of array `pr` that changes the sequencer only. -/
def microSeq (pr : Nat) (e : BitVec 1) (f : MicroRun → MicroRun) (s : State) : State :=
  if microReady pr s then microNext pr e none f s else s

def doMicroNop (pr : Nat) (e : BitVec 1) (s : State) : State := microSeq pr e id s
def doFeta (pr : Nat) (e : BitVec 1) (sel : BitVec 3) (x : BitVec 1) (s : State) : State :=
  microSeq pr e (·.feta sel.toNat (x == 1)) s
def doFetb (pr : Nat) (e : BitVec 1) (sel : BitVec 3) (x : BitVec 1) (s : State) : State :=
  microSeq pr e (·.fetb sel.toNat (x == 1)) s
/-- Energy of one k-step of the running call (R369). -/
def microMeter (pr : Nat) (s : State) : State :=
  match (s.array pr).micro with
  | some m => meter m.ctx (Config.energyNJ 1) s
  | none => s
def doMac (pr : Nat) (e : BitVec 1) (s : State) : State :=
  if microReady pr s then microNext pr e none id (microAcc pr MicroRun.mac (microMeter pr s)) else s
/-- MACQ takes the operands of the exact sums SQX and SX. -/
def doMacq (pr : Nat) (e : BitVec 1) (s : State) : State :=
  if microReady pr s then microNext pr e none (fun m => { m with qa := m.fa, qb := m.fb }) (microMeter pr s) else s
def doZpc (pr : Nat) (e : BitVec 1) (s : State) : State :=
  if microReady pr s then microNext pr e none id (microAcc pr MicroRun.zpc s) else s
def doZacc (pr : Nat) (e : BitVec 1) (s : State) : State :=
  if microReady pr s then microNext pr e none id (microAcc pr (fun m a => m.region a fun _ _ _ => 0) s) else s
def doDrn (pr : Nat) (e : BitVec 1) (sel : BitVec 3) (s : State) : State :=
  if microReady pr s then microNext pr e none id (microTile pr (fun m => microDrain pr m sel.toNat) s) else s
def doSetk (pr : Nat) (e : BitVec 1) (imm : BitVec 16) (m : BitVec 1) (s : State) : State :=
  microSeq pr e (fun r => { r with kcnt := if m = 1 then BitVec.ofNat 16 (mpK r.mps / 32) else imm, kidx := 0 }) s
/-- LOOP counts down, advances the K index, and branches while the count is not 0. -/
def doMicroLoop (pr : Nat) (e : BitVec 1) (target : BitVec 9) (s : State) : State :=
  if microReady pr s then
    let go := match (s.array pr).micro with | some m => m.kcnt - 1 != 0 | none => false
    microNext pr e (if go then some target else none) (fun m => { m with kcnt := m.kcnt - 1, kidx := m.kidx + 32 }) s
  else s
def doBrz (pr : Nat) (e : BitVec 1) (target : BitVec 9) (s : State) : State :=
  if microReady pr s then
    let go := match (s.array pr).micro with | some m => m.kcnt == 0 | none => false
    microNext pr e (if go then some target else none) id s
  else s
/-- WAITT: every earlier MAC and ZPC has committed, since each commits as it runs. -/
def doWaitt (pr : Nat) (e : BitVec 1) (s : State) : State := microSeq pr e id s
def doSigt (pr : Nat) (e : BitVec 1) (sel : BitVec 3) (s : State) : State :=
  if microReady pr s then microNext pr e none id (microTile pr (fun m => microSignal pr m sel.toNat) s) else s
def doXpv (pr : Nat) (e : BitVec 1) (h : BitVec 1) (s : State) : State :=
  microSeq pr e (fun m => { m with half := if h = 0 then mpSig m.mps else ~~~(mpSig m.mps) }) s

/-- A decoded micro-word runs. -/
def runMicro (i : Instr) (s : State) : State :=
  match i with
  | .microNop p e => doMicroNop p e s
  | .feta p e sel x => doFeta p e sel x s
  | .fetb p e sel x => doFetb p e sel x s
  | .mac p e => doMac p e s
  | .macq p e => doMacq p e s
  | .zpc p e => doZpc p e s
  | .zacc p e => doZacc p e s
  | .drn p e sel => doDrn p e sel s
  | .setk p e imm m => doSetk p e imm m s
  | .microLoop p e t => doMicroLoop p e t s
  | .brz p e t => doBrz p e t s
  | .waitt p e => doWaitt p e s
  | .sigt p e sel => doSigt p e sel s
  | .xpv p e h => doXpv p e h s
  | _ => s

/-- The next micro-word of array `pr`; an unassigned OP ends the routine before its word (R190). -/
def microStep (pr : Nat) (s : State) : State :=
  match (s.array pr).micro with
  | none => s
  | some m =>
    if 65536 ≤ m.words then microCut pr s
    else match decodeMicro (Fin.ofNat 2048 pr) (tget 0 (s.array pr).store m.upc) with
      | none => microFinish pr s
      | some i => runMicro i s

/-- One step of the array of pair `pr`: the micro-program, the end of the running operation, or the next start; where only
the other core has work in MODE 0, its window begins. -/
def arrayProgress (pr : Nat) (s : State) : State :=
  let a := s.array pr
  if a.micro.isSome then microStep pr s
  else if a.current.isSome then arrayEnd pr s
  else if a.mode == 0 then
    if !(if a.windowB then a.queueB else a.queueA).isEmpty then arrayStart pr a.windowB s
    else if !(if a.windowB then a.queueA else a.queueB).isEmpty then arrayNextWindow pr s
    else s
  else if !a.queueA.isEmpty then arrayStart pr false s
  else arrayStart pr true s

/-- The array of a pair has an operation that has not ended. -/
def MArray.busy (a : MArray) : Bool := !a.idle

end Sys2Proof.Machine
end

