-- ==== Sys2Proof/Machine/Transform.lean ====
section
/-!
DEFINITION. The transform units (R309 to R325) and the nibble-block codec. An operation reads its sources and writes its
memory destination when it issues; its tile and status change when it ends.
-/
set_option Elab.async false
namespace Sys2Proof.Machine

/-! ## Units -/

/-- The status word (R316); `susp` says that a saved context of the group has a suspended DECODE on the unit. -/
def Xfu.status (x : Xfu) (susp : Bool) : W64 :=
  BitVec.ofNat 64 ((x.job.isSome || susp).toNat + 2 * x.owner.isSome.toNat
    + (match x.owner with | some g => 4 * (coreOf g % 8) + 32 * (g % 4) | none => 0)
    + 2 ^ 8 * (x.op % 8) + 2 ^ 12 * (x.err % 16) + 2 ^ 16 * x.done.toNat + 2 ^ 32 * (x.nout % 2 ^ 14))

/-- A suspended DECODE of the group on unit `u` waits to go on (R324). -/
def State.suspended (s : State) (grp u : Nat) : Bool :=
  let holds (l : List (Nat × Xfu)) : Bool := l.any fun y => y.1 == u && y.2.job.isSome
  s.saves.any (fun x => x.2.ctx.group == grp && holds x.2.units) || s.ctxs.any fun c => c.2.group == grp && holds c.2.unitRefills

/-! ## Writers of a slot (R74, R101) -/

/-- An operation that will write the slot of its context's core. -/
def ArrOp.writes (o : ArrOp) (slot : Nat) : Option Nat :=
  match o with
  | .call g _ _ _ tiles _ _ e => if tiles.any fun t => t.2.1 == slot && entWr e t.1 then some g else none
  | .drain g _ t _ _ _ => if t = slot then some g else none
  | .spill g _ t _ _ => if t = slot then some g else none
  | .storeRead g _ t _ => if t = slot then some g else none
  | .tabRead g _ _ t _ => if t = slot then some g else none
  | _ => none

/-- The array has yet to write a slot of core `k`. -/
def MArray.willWrite (a : MArray) (k slot : Nat) : Bool :=
  let ops := a.queueA ++ a.queueB ++ (match a.current with | some (_, o) => [o] | none => [])
  ops.any fun o => match o.writes slot with | some g => coreOf g == k | none => false

/-- A unit of the cluster that has yet to write a slot of core `k`. -/
def Cluster.willWrite (c : Cluster) (k slot : Nat) : Option Nat :=
  (c.xfus.find? fun e => match e.2.job with | some j => j.slot == some slot && coreOf j.ctx == k | none => false).map (·.1)

/-- A writer of the array stalls until the units have written the slot. -/
def unitSlot (s : State) (g slot : Nat) : Chk Unit :=
  match (s.cluster (clusterOf g)).willWrite (coreOf g) slot with
  | some u => .error (.stall (xfuEnd (clusterOf g) u))
  | none => .ok ()

/-- Writers of one tile act in program order (R101): a writer whose bytes are known at issue stalls until the array and the
units have written the slot. -/
def ownSlot (s : State) (g slot : Nat) : Chk Unit :=
  if (s.array (pairOf g)).willWrite (coreOf g) slot then .error (.stall (arrayProgress (pairOf g)))
  else unitSlot s g slot

/-! ## The codec (R317 to R319) -/

def lenOf (lens : BitVec 68) (sym : Nat) : Nat := (bits lens (4 * sym) 4).toNat
/-- Symbols present. -/
def presentSyms (lens : BitVec 68) : List Nat := (List.range 17).filter fun c => lenOf lens c != 0

/-- The lengths form a complete code, or a single symbol has length 1 (R318). -/
def lensOk (lens : BitVec 68) : Bool :=
  match presentSyms lens with
  | [] => false
  | [c] => lenOf lens c == 1
  | l => l.foldl (fun n c => n + 2 ^ (15 - lenOf lens c)) 0 == 2 ^ 15

/-- Canonical codes: length, code, symbol (R318). -/
def canonCodes (lens : BitVec 68) : List (Nat × Nat × Nat) :=
  ((List.range 15).foldl (fun (acc : Nat × List (Nat × Nat × Nat)) l0 =>
    let r := ((List.range 17).filter fun c => lenOf lens c == l0 + 1).foldl (fun (a : Nat × List (Nat × Nat × Nat)) c =>
      (a.1 + 1, a.2 ++ [(l0 + 1, a.1, c)])) acc
    (2 * r.1, r.2)) (0, [])).2

/-- Bit `i` of the payload. -/
def payBit (blk : List Byte) (i : Nat) : Nat := (bit (blk.getD (16 + i / 8) 0) (i % 8)).toNat
/-- `raw(k)` at a position: the first bit is bit 0. -/
def rawBits (blk : List Byte) (pos : Nat) : Nat → Nat
  | 0 => 0
  | k + 1 => rawBits blk pos k + 2 ^ k * payBit blk (pos + k)

/-- A code matched at `pos`: its symbol and the next position, or the error. `l` bits of value `v` have been read. -/
def matchCode (blk : List Byte) (codes : List (Nat × Nat × Nat)) (pbits : Nat) : Nat → Nat → Nat → Nat → Except Nat (Nat × Nat)
  | 0, _, _, _ => .error 2
  | f + 1, l, v, pos =>
    if pbits ≤ pos then .error 4
    else
      let v := 2 * v + payBit blk pos
      match codes.find? fun c => c.1 == l + 1 && c.2.1 == v with
      | some c => .ok (c.2.2, pos + 1)
      | none => if codes.all fun c => c.1 ≤ l + 1 then .error 2 else matchCode blk codes pbits f (l + 1) v (pos + 1)

/-- Decoding under way: payload bits consumed, nibbles produced, and the nibbles so far, the most recent first, with the
carried history below them. -/
structure NibSt where
  pos : Nat
  n : Nat
  out : List Nat
  deriving DecidableEq, Repr

/-- `l` nibbles copied from distance `d`, overlap repeating. -/
def copyNibs (d : Nat) : Nat → List Nat → List Nat
  | 0, out => out
  | l + 1, out => copyNibs d l (out.getD (d - 1) 0 :: out)

/-- One symbol (R319). -/
def decodeSymbol (blk : List Byte) (codes : List (Nat × Nat × Nat)) (pbits total w : Nat) (st : NibSt) : Except Nat NibSt :=
  match matchCode blk codes pbits 15 0 0 st.pos with
  | .error e => .error e
  | .ok (sym, pos) =>
    if sym < 16 then .ok { pos := pos, n := st.n + 1, out := sym :: st.out }
    else if pbits < pos + 12 then .error 4
    else
      let d := 1 + rawBits blk pos 7
      let l := 3 + rawBits blk (pos + 7) 5
      if st.n + w < d then .error 3
      else if total < st.n + l then .error 4
      else .ok { pos := pos + 12, n := st.n + l, out := copyNibs d l st.out }

/-- Symbols decoded until `total` nibbles are out, at most `fuel` of them: the state reached and the error, if any. -/
def decodeSymbols (blk : List Byte) (codes : List (Nat × Nat × Nat)) (pbits total w : Nat) : Nat → NibSt → NibSt × Option Nat
  | 0, st => (st, none)
  | f + 1, st =>
    if total ≤ st.n then (st, none)
    else match decodeSymbol blk codes pbits total w st with
      | .error e => (st, some e)
      | .ok st => decodeSymbols blk codes pbits total w f st

/-- The header of a block (R317). -/
def blkHeader (blk : List Byte) : BitVec 128 := BitVec.ofNat 128 (leNat (blk.take 16))

/-- The nibbles of a history, the most recent first. -/
def histNibs (hist : BitVec 512) (len : Nat) : List Nat := ((List.range (min len 128)).map fun i => (bits hist (4 * i) 4).toNat).reverse
/-- A history of nibbles given most recent first: the last 128, oldest in the lowest bits. -/
def histOf (out : List Nat) : BitVec 512 :=
  let l := (out.take 128).reverse
  BitVec.ofNat 512 (packNat 4 (fun i => l.getD i 0) 128)

/-- Bytes of `n` nibbles, given most recent first. -/
def nibBytes (out : List Nat) (n : Nat) : TileBits :=
  let l := (out.take n).reverse
  BitVec.ofNat 32768 (packNat 4 (fun i => l.getD i 0) n)

/-- What a DECODE ends with: ERR and the nibbles, most recent first. -/
structure DecodeEnd where
  err : Nat
  out : List Nat
  deriving DecidableEq, Repr

/-- The effective lengths: the table's under TBL, else the header's. -/
def effLens (blk : List Byte) (tbl : Option (List Byte)) : BitVec 68 :=
  match tbl with
  | some t => BitVec.ofNat 68 (leNat (t.take 9))
  | none => (blkHeader blk).setWidth 68

/-- A DECODE of a block whose header is in order goes on from `st` to its end, for a slot image of `size` bytes and `w` nibbles carried
in (R319). -/
def decodeFrom (blk : List Byte) (lens : BitVec 68) (size w : Nat) (st : NibSt) : DecodeEnd :=
  let h := blkHeader blk
  let nnib := (bits h 68 13).toNat
  let pbits := (bits h 81 16).toNat
  let r := decodeSymbols blk (canonCodes lens) pbits (nnib + 1) w (nnib + 1) st
  match r.2 with
  | some e => { err := e, out := [] }
  | none =>
    if r.1.pos ≠ pbits then { err := 4, out := [] }
    else
      let bytes := leBytes size (nibBytes r.1.out (2 * size)).toNat
      if bytes.foldl (fun n b => n + b.toNat) 0 % 65536 ≠ (bits h 97 16).toNat then { err := 5, out := [] }
      else { err := 0, out := r.1.out }

/-- A DECODE run to its end for a slot image of `size` bytes (R317 to R319). -/
def decodeRun (blk : List Byte) (tbl : Option (List Byte)) (size : Nat) (cont valid : Bool) (hist : BitVec 512) (histLen : Nat) :
    DecodeEnd :=
  let h := blkHeader blk
  let nnib := (bits h 68 13).toNat
  let pbits := (bits h 81 16).toNat
  let lens := effLens blk tbl
  if (tbl.isSome && (bits h 0 68) != 0) || nnib + 1 != 2 * size || decide (8 * (blk.length - 16) < pbits) || bits h 113 13 != 0
      || bits h 126 2 != 1 || !lensOk lens then { err := 1, out := [] }
  else if cont && !valid then { err := 8, out := [] }
  else
    let w := if cont then min 128 histLen else 0
    decodeFrom blk lens size w { pos := 0, n := 0, out := if cont then histNibs hist w else [] }

/-! ## Trigger checks (R312 to R314) -/

def Xfu.port (x : Xfu) (p : Nat) : Nat := (tget 0 x.ports p).toNat

/-- The unit of the group's numbering; 0x0B with TRAPINFO 0x07 when the group does not hold it. -/
def unitOf (s : State) (g u : Nat) : Chk Nat :=
  match (s.group (s.ctx g).group).units[u]? with
  | some n => .ok n
  | none => .error (.trap 0x0B 7)

/-- A port value outside its limits: 0x06 with the value. -/
def portCheck (ok : Bool) (v : Nat) : Chk Unit := Chk.need ok (.trap 0x06 (BitVec.ofNat 64 v))

/-- OPTS: CONT and TBL only where the trigger takes them; reserved bits zero. -/
def optsCheck (x : Xfu) (decode : Bool) : Chk Unit :=
  let o := tget 0 x.ports 4
  portCheck (o &&& 0xFFFFFFFFFFFFFF0C#64 == 0 && (decode || o &&& 3#64 == 0)) o.toNat

def Xfu.oc (x : Xfu) : Nat := x.port 4 / 16 % 16
def Xfu.cont (x : Xfu) : Bool := (x.port 4).testBit 0
def Xfu.tbl (x : Xfu) : Bool := (x.port 4).testBit 1

/-- DTILE's tile: its index, slot and header. -/
def dtile (s : State) (g : Nat) (x : Xfu) : Chk (Nat × Hdr) := do
  let t := x.port 2 % 32
  let c := s.ctx g
  Chk.need (!c.pending (.tc t)) .early
  Chk.need (t < c.tileCount) (.trap 0x0D 0x11)
  Chk.need (hdrValid (c.tc t)) (.trap 0x0D 0x12)
  .ok (c.tileBase + t, Hdr.of (c.tc t))

/-- Two ranges share a byte. -/
def overlap (a n b m : Nat) : Bool := decide (a < b + m ∧ b < a + n) && n != 0 && m != 0

def rangePieces (va n : Nat) (k : Right) : List (Nat × Nat × Right) := (pieces va n).map fun p => (p.1, p.2, k)

/-- Sectors of the first `n` bytes and the rest. -/
def splitSecs (l : List Sector) (va n : Nat) : List Sector := l.filter fun x => decide (va ≤ x.va ∧ x.va < va + n)

/-- Bytes of a source before its first poisoned sector. -/
def cleanLen (s : State) (l : List Sector) : Nat := ((l.takeWhile fun x => (poisonAt s x.place x.n).isNone).map (·.n)).sum

/-- A job with the unit's decoder state unchanged. -/
def Xfu.keep (x : Xfu) (op g : Nat) (err : Nat) : XfuJob :=
  { op := op, ctx := g, oc := x.oc, slot := none, newData := 0, status := 0, zeroStatus := 0, err := err, nout := 0, valid := x.valid,
    lens := x.lens, hist := x.hist, histLen := x.histLen }

/-- A trigger that passed its checks: waits for the owner, the running operation and its order, then starts (R311, R312, R315). `l`
are the sectors it accesses, `whole` the slot sectors it replaces. -/
def startXfu (e : Env) (cl n : Nat) (x : Xfu) (op : Nat) (j : XfuJob) (l : List Sector) (whole : List Nat)
    (p : Option W64) (f : State → State) (s : State) : Issue := do
  Chk.need (x.owner.all (· == e.g)) (.block .fullQueue)
  Chk.need x.job.isNone (.block .fullQueue)
  match j.slot with
  | some slot => ownSlot s e.g slot
  | none => .ok ()
  inOrder s e.g x.oc l
  commit fun s =>
    let s := touchRead l s
    let s := match p with
      | some info => consumed e.g info (f s)
      | none => f s
    let s := match j.slot with
      | some slot => s.modTile (coreOf e.g) slot (Tile.issueWrite whole)
      | none => s
    (s.modXfu cl n fun x => { x with job := some { j with frames := framesOf l, seq := (s.ctx e.g).memSeq }
                                     op := op, owner := some e.g, wrote := false }).modCtx e.g Ctx.nextSeq

/-! ## The triggers -/

/-- A DECODE ends so (R319, R320): its slot image with zeros after it and the new decoder state, or 4,096 zero bytes and no valid state. -/
def XfuJob.decoded (j : XfuJob) (r : DecodeEnd) : XfuJob :=
  let h := Hdr.of j.hdr
  let data := if r.err = 0 then nibBytes r.out (2 * h.image) else 0
  { j with
    newData := data, status := h.status data false, zeroStatus := h.status 0 false, err := r.err
    nout := if r.err = 0 then 2 * h.image else 0, valid := r.err = 0, lens := if r.err = 0 then j.runLens else j.oldLens
    hist := if r.err = 0 then histOf r.out else j.oldHist, histLen := if r.err = 0 then min 128 r.out.length else j.oldLen }

/-- Where a DECODE stands. -/
def XfuJob.at (j : XfuJob) : NibSt := { pos := j.pos, n := j.ndone, out := j.nibs }

/-- A fault of the header, of CONT or of the source ends the DECODE before its first symbol. -/
def XfuJob.early (j : XfuJob) : Bool := j.err == 1 || j.err == 6 || j.err == 8

/-- DECODE (R317 to R320). -/
def issueXfuDecode (e : Env) (u : BitVec 3) (_ : BitVec 6) (s : State) : Issue := do
  let cl := clusterOf e.g
  let n ← unitOf s e.g u.toNat
  let x := s.xfu cl n
  let (slot, h) ← dtile s e.g x
  optsCheck x true
  portCheck (x.port 2 / 32 == 0) (x.port 2)
  portCheck (x.port 0 % 64 == 0) (x.port 0)
  portCheck (x.port 5 % 64 == 0 && decide (64 ≤ x.port 5 ∧ x.port 5 ≤ 16384)) (x.port 5)
  portCheck (!x.tbl || x.port 3 % 16 == 0) (x.port 3)
  portCheck (!x.tbl || !overlap (x.port 0) (x.port 5) (x.port 3) 16) (x.port 3)
  let l ← accessR s e.g (rangePieces (x.port 0) (x.port 5) .r ++ (if x.tbl then rangePieces (x.port 3) 16 .r else [])) x.oc anyClass
  let src := l.take (x.port 5 / 64)
  let blk := readSectors s src
  let tbl := if x.tbl then some (readSectors s (l.drop (x.port 5 / 64))) else none
  let r := if (poisonOf s l).isSome then { err := 6, out := [] } else decodeRun blk tbl h.image x.cont x.valid x.hist x.histLen
  let w := if x.cont then min 128 x.histLen else 0
  let j : XfuJob := { x.keep 0 e.g r.err with
    slot := some slot, hdr := (s.ctx e.g).tc (x.port 2 % 32), blk := blk, runLens := effLens blk tbl, carried := w
    nibs := if x.cont then histNibs x.hist w else [], oldLens := x.lens, oldHist := x.hist, oldLen := x.histLen }
  startXfu e cl n x 0 (j.decoded r) l (List.range 64) (poisonOf s l) id s

/-- The granules of 16 bytes of a 4 KiB-blocked range moved by ZORDER or UNZ: destination offset and bytes (R321). -/
def granules (un : Bool) (src : List Byte) (clean : Nat) : List (Nat × List Byte) :=
  (List.range (src.length / 16)).filterMap fun i =>
    let o := 16 * i
    let src0 := if un then zview o else o
    let dst0 := if un then o else zview o
    if src0 + 16 ≤ clean then some (dst0, (src.drop src0).take 16) else none

/-- ZORDER and UNZ: whole sectors when the source is clean, else the granules before the first poisoned sector (R320). -/
def zmove (un : Bool) (dst : List Sector) (va : Nat) (src : List Byte) (clean : Nat) (s : State) : State :=
  let gs := granules un src clean
  if clean = src.length then
    let out := gs.foldl (fun m g => writeBytes m g.1 g.2) []
    writeSectors dst (readBytes out 0 src.length) s
  else gs.foldl (fun s g =>
    match dst.find? fun x => decide (x.va ≤ va + g.1 ∧ va + g.1 < x.va + x.n) with
    | some x => match x.place with
      | .dp b lay off => writePlace (.dp b lay (off + (va + g.1 - x.va))) g.2 s
      | .scratch k off => writePlace (.scratch k (off + (va + g.1 - x.va))) g.2 s
      | .csram k off => writePlace (.csram k (off + (va + g.1 - x.va))) g.2 s
      | .mint .. => s
    | none => s) s

/-- ZORDER and UNZ share their checks. -/
def issueZ (e : Env) (u : BitVec 3) (op : Nat) (un : Bool) (s : State) : Issue := do
  let cl := clusterOf e.g
  let n ← unitOf s e.g u.toNat
  let x := s.xfu cl n
  optsCheck x false
  portCheck (x.port 0 % 4096 == 0) (x.port 0)
  portCheck (x.port 1 % 4096 == 0 && decide (4096 ≤ x.port 1 ∧ x.port 1 ≤ 262144)) (x.port 1)
  portCheck (x.port 6 % 4096 == 0) (x.port 6)
  portCheck (!overlap (x.port 0) (x.port 1) (x.port 6) (x.port 1)) (x.port 6)
  let l ← accessR s e.g (rangePieces (x.port 0) (x.port 1) .r ++ rangePieces (x.port 6) (x.port 1) .w) x.oc anyClass
  let src := l.take (x.port 1 / 64)
  let dst := l.drop (x.port 1 / 64)
  let bs := readSectors s src
  let clean := cleanLen s src
  startXfu e cl n x op (x.keep op e.g (if clean < x.port 1 then 6 else 0)) l [] (poisonOf s src) (zmove un dst (x.port 6) bs clean) s

def issueXfuZorder (e : Env) (u : BitVec 3) (_ : BitVec 6) (s : State) : Issue := issueZ e u 1 false s
def issueXfuUnz (e : Env) (u : BitVec 3) (_ : BitVec 6) (s : State) : Issue := issueZ e u 2 true s

/-- Status of a writer of the first `n` bytes of the slot. -/
def Hdr.statusBelow (h : Hdr) (d : TileBits) (n : Nat) : BitVec 3 :=
  statusOf h.fmt d (h.indices.filter fun i => decide (fmtBits h.fmt * i < 8 * n)) false

/-- COPY into the first bytes of a slot (R321). -/
def issueXfuCopy (e : Env) (u : BitVec 3) (_ : BitVec 6) (s : State) : Issue := do
  let cl := clusterOf e.g
  let n ← unitOf s e.g u.toNat
  let x := s.xfu cl n
  let (slot, h) ← dtile s e.g x
  optsCheck x false
  portCheck (x.port 2 / 32 == 0) (x.port 2)
  portCheck (x.port 0 % 64 == 0) (x.port 0)
  portCheck (x.port 1 % 64 == 0 && decide (64 ≤ x.port 1 ∧ x.port 1 ≤ 4096)) (x.port 1)
  let l ← accessR s e.g (rangePieces (x.port 0) (x.port 1) .r) x.oc anyClass
  let clean := cleanLen s l
  let d := setBits (s.tile (coreOf e.g) slot).data 0 (BitVec.ofNat (8 * clean) (leNat ((readSectors s l).take clean)))
  startXfu e cl n x 3 { x.keep 3 e.g (if clean < x.port 1 then 6 else 0) with
    slot := some slot, newData := d, status := h.statusBelow d clean, zeroStatus := h.status 0 false } l (List.range (clean / 64)) (poisonOf s l) id s

/-- Formats UNPACK4 can write (R313). -/
def unpackFmt (f : Nat) : Bool := f ≤ 5 || f == 11

/-- UNPACK4: each nibble of the codes selects an entry of the table (R321). -/
def issueXfuUnpack4 (e : Env) (u : BitVec 3) (_ : BitVec 6) (s : State) : Issue := do
  let cl := clusterOf e.g
  let n ← unitOf s e.g u.toNat
  let x := s.xfu cl n
  let (slot, h) ← dtile s e.g x
  Chk.need (unpackFmt h.fmt) (.trap 0x0D 0x13)
  Chk.need (h.count % 2 == 0) (.trap 0x0D 0x14)
  optsCheck x false
  portCheck (x.port 2 / 32 == 0) (x.port 2)
  portCheck (x.port 0 % 64 == 0) (x.port 0)
  portCheck (x.port 3 % 64 == 0) (x.port 3)
  let len := h.count / 2
  let wid := fmtBits h.fmt / 8
  portCheck (!overlap (x.port 0) len (x.port 3) (16 * wid)) (x.port 3)
  let l ← accessR s e.g (rangePieces (x.port 0) len .r ++ rangePieces (x.port 3) (16 * wid) .r) x.oc anyClass
  let src := l.take (pieces (x.port 0) len).length
  let tab := l.drop (pieces (x.port 0) len).length
  let codes := leNat (readSectors s src)
  let table := leNat (readSectors s tab)
  let clean := if (poisonOf s tab).isSome then 0 else cleanLen s src
  let elem (k : Nat) : Nat := table / 2 ^ (8 * wid * (codes / 2 ^ (4 * k) % 16)) % 2 ^ (8 * wid)
  let old := (s.tile (coreOf e.g) slot).data
  let idx := (List.range (2 * clean)).map fun k => (h.index (k / h.cols) (k % h.cols), elem k)
  let d := if clean = len then h.fill old fun i j => elem (i * h.cols + j) else idx.foldl (fun d p => setElem d h.fmt p.1 p.2) old
  startXfu e cl n x 4 { x.keep 4 e.g (if clean < len then 6 else 0) with
    slot := some slot, newData := d, status := statusOf h.fmt d (idx.map (·.1)) false, zeroStatus := h.status 0 false } l
    (if clean = len then h.sectors else wholeSectors h.fmt (idx.map (·.1))) (poisonOf s l) id s

/-! ## Decoder state (R323, R325) -/

/-- The 4,224 bytes of a unit's state; `u` is its number in the group's numbering. -/
def Xfu.image (x : Xfu) (u : Nat) (susp : Bool) (bitpos ndone : Nat) (buf : TileBits) : List Byte :=
  leBytes 8 (x.port 0) ++ leBytes 8 (x.port 1) ++ leBytes 8 (x.port 3) ++ leBytes 8 (x.port 6) ++ leBytes 2 (x.port 5)
    ++ leBytes 1 (x.port 2) ++ leBytes 1 (x.port 4) ++ leBytes 4 bitpos ++ leBytes 2 ndone
    ++ leBytes 1 (x.valid.toNat + 2 * susp.toNat + 4 * (u % 4)) ++ leBytes 1 x.err ++ leBytes 9 x.lens.toNat ++ leBytes 11 0
    ++ leBytes 64 x.hist.toNat ++ leBytes 4096 buf.toNat

/-- SAVE writes the state at SRC, and keeps it (R325). -/
def issueXfuSave (e : Env) (u : BitVec 3) (_ : BitVec 6) (s : State) : Issue := do
  let cl := clusterOf e.g
  let n ← unitOf s e.g u.toNat
  let x := s.xfu cl n
  optsCheck x false
  portCheck (x.port 0 % 64 == 0) (x.port 0)
  let l ← accessR s e.g (rangePieces (x.port 0) 4224 .w) x.oc anyClass
  startXfu e cl n x 5 (x.keep 5 e.g 0) l [] none (writeSectors l (x.image u.toNat false 0 0 0)) s

/-- LOAD restores VALID, LENS and HIST, refusing reserved bits (ERR 1) and a suspended state (ERR 8) (R325). -/
def issueXfuLoad (e : Env) (u : BitVec 3) (_ : BitVec 6) (s : State) : Issue := do
  let cl := clusterOf e.g
  let n ← unitOf s e.g u.toNat
  let x := s.xfu cl n
  optsCheck x false
  portCheck (x.port 0 % 64 == 0) (x.port 0)
  let l ← accessR s e.g (rangePieces (x.port 0) 4224 .r) x.oc anyClass
  let bs := readSectors s l
  let flags := (bs.getD 42 0)
  let bad := flags.toNat / 16 ≠ 0 || ((bs.drop 53).take 11).any (· != 0)
  let err := if (poisonOf s l).isSome then 6 else if bad then 1 else if bit flags 1 then 8 else 0
  let j := x.keep 6 e.g err
  let j := if err = 0 then { j with valid := bit flags 0, lens := BitVec.ofNat 68 (leNat ((bs.drop 44).take 9)),
                                    hist := BitVec.ofNat 512 (leNat ((bs.drop 64).take 64)),
                                    histLen := min 128 (Config.loadedHistory s.tick) }
    else if err = 6 then j else { j with valid := false }
  startXfu e cl n x 6 j l [] (poisonOf s l) State.bump s

/-- A running operation aborted: ERR 7, a tile destination written as zeros (R322). -/
def XfuJob.abort (j : XfuJob) (x : Xfu) : XfuJob :=
  { j with newData := 0, status := j.zeroStatus, err := 7, nout := 0, valid := if j.op = 0 then false else x.valid, lens := x.lens,
           hist := x.hist, histLen := x.histLen }

/-- A tile destination of a running operation loses its poison: it is written whole (R320, R322, R441). -/
def cleanSlot (x : Xfu) (s : State) : State :=
  match x.job with
  | some j => match j.slot with
    | some slot => s.modTile (coreOf j.ctx) slot fun t => { t with poison := [] }
    | none => s
  | none => s

/-- ABORT (R322): ends a running operation at once; on an idle unit it does nothing. Of R139's j for the tile it fills, the model takes the
aborting bundle itself (log 64). -/
def issueXfuAbort (e : Env) (u : BitVec 3) (_ : BitVec 6) (s : State) : Issue := do
  let cl := clusterOf e.g
  let n ← unitOf s e.g u.toNat
  let x := s.xfu cl n
  Chk.need (x.owner.all (· == e.g)) (.block .fullQueue)
  if x.job.isNone then nothing
  else commit fun s => xfuEnd cl n (cleanSlot (s.xfu cl n) (s.modXfu cl n fun x => { x with job := x.job.map (·.abort x) }))

/-! ## Transport moves (R308, R310) -/

/-- MOVP to an operand port. -/
def issueMovp (e : Env) (p : BitVec 8) (v : BitVec 6) (s : State) : Issue := do
  let cl := clusterOf e.g
  let n ← unitOf s e.g (p.toNat / 32)
  Chk.need ((s.xfu cl n).owner.all (· == e.g)) (.block .fullQueue)
  let w := (s.ctx e.g).s v
  commit fun s => s.modXfu cl n fun x => { x with ports := tset x.ports (p.toNat % 32) w, owner := some e.g, wrote := true }

/-- MOVFP of an operand port or of the status word. -/
def issueMovfp (e : Env) (p : BitVec 8) (d : BitVec 6) (s : State) : Issue := do
  let n ← unitOf s e.g (p.toNat / 32)
  let x := s.xfu (clusterOf e.g) n
  let w := if p.toNat % 32 < 16 then tget 0 x.ports (p.toNat % 32) else x.status (s.suspended (s.ctx e.g).group n)
  commitCtx e.g fun c => c.landS d w 2

end Sys2Proof.Machine
end

