-- ==== Sys2Proof/Machine/Tile.lean ====
section
/-!
DEFINITION. The tile instructions TZERO, TCOPY, TV2T and TT2V (R172 to R176), run by the core's tile unit.
-/
set_option Elab.async false
namespace Sys2Proof.Machine

/-- A queue of `n` entries with room; a full one blocks (R41). -/
def queueRoom (q : List Job) (n : Nat) : Chk Unit := Chk.need (q.length < n) (.block .fullQueue)

/-- An entry of the tile unit's queue: the slots it will fill, with their status. -/
def tileEntry (g : Nat) (writes : List (Nat × BitVec 3)) : Job :=
  { ctx := g, op := 0, oc := 0, writes := writes, poison := [] }

/-- An operation of the tile unit that writes a slot: empty at issue, full when it completes. `whole` are the sectors it replaces. -/
def tileJob (e : Env) (slot : Nat) (whole : List Nat) (d : TileBits) (st : BitVec 3) (s : State) : State :=
  let s := s.modTile (coreOf e.g) slot (·.write whole d st)
  s.modCore (coreOf e.g) fun k => { k with tileQ := k.tileQ ++ [tileEntry e.g [(slot, st)]] }

/-- The tile unit's queue has an entry: a TT2V of another context that waits on an empty tile holds its own (R172). -/
def tileRoom (s : State) (g : Nat) : Chk Unit :=
  let waiting := (passOrder g).filter fun h => h != g && (s.ctx h).run == .blocked .tileRead
  Chk.need ((s.core (coreOf g)).tileQ.length + waiting.length < 8) (.block .fullQueue)

/-- TZERO: every element the format's zero, or all 4,096 bytes zero (R173). -/
def issueTzero (e : Env) (d : BitVec 5) (m : BitVec 6) (s : State) : Issue := do
  let (slot, h) ← tileOperand s e.g d
  tileRoom s e.g
  ownSlot s e.g slot
  let data := if m = 0 then h.fill 0 fun _ _ => fmtZero h.fmt else 0
  commit (tileJob e slot (if m = 0 then h.sectors else List.range 64) data 0)

/-- The elements of tile A converted into D's format, row-major; the view index of the lowest element that left the
Ducat-32 range and whether it lay above it. -/
def tcopyElems (ha hd : Hdr) (a : TileBits) : Except (Nat × Bool) (List (Nat × Bool)) :=
  (List.range ha.count).foldl (fun acc k =>
    match acc with
    | .error x => .error x
    | .ok l => match convElem ha.fmt hd.fmt (ha.getRow a k) with
      | .ok r => .ok (l ++ [r])
      | .error hi => .error (k, hi)) (.ok [])

/-- The sectors of tile D that elements of poisoned sectors of A go to (R441). -/
def tcopyPoison (t : Tile) (ha hd : Hdr) : List Nat :=
  if t.poison.isEmpty then []
  else ((List.range ha.count).flatMap fun k =>
    ((elemSectors ha.fmt (ha.index (k / ha.cols) (k % ha.cols))).zip (elemSectors hd.fmt (hd.index (k / hd.cols) (k % hd.cols)))).filterMap
      fun x => if t.poison.contains x.1 then some x.2 else none).dedup

/-- Every poisoned sector of a slot below `n` bytes is consumed, and reported (R442). -/
def consumedTile (g slot n : Nat) (t : Tile) (s : State) : State :=
  (t.poison.filter fun x => decide (64 * x < n)).foldl (fun s x => consumed g (tileInfo slot x) s) s

/-- TCOPY between equal shapes, bit-exact or converting (R174); poison goes with the data (R441; log 27). -/
def issueTcopy (e : Env) (d a : BitVec 5) (s : State) : Issue := do
  let l ← tileOperands s e.g [d.toNat, a.toNat]
  match l with
  | [(sd, hd), (sa, ha)] =>
    Chk.need (ha.fmt == hd.fmt || convPair ha.fmt hd.fmt) (.trap 0x0D 0x13)
    Chk.need (ha.rows == hd.rows && ha.cols == hd.cols) (.trap 0x0D 0x14)
    let data ← fullTile s e.g sa
    match tcopyElems ha hd data with
    | .error (k, hi) => .error (.trap 0x07 (BitVec.ofNat 64 (hi.toNat + 65536 * k)))
    | .ok xs =>
      tileRoom s e.g
      ownSlot s e.g sd
      let src := s.tile (coreOf e.g) sa
      let out := hd.fill (s.tile (coreOf e.g) sd).data fun i j => (xs.getD (i * hd.cols + j) (0, false)).1
      commit fun s =>
        let s := tileJob e sd hd.sectors out (hd.status out (xs.any (·.2))) (consumedTile e.g sa ha.image src s)
        if src.poison.isEmpty then s else s.modTile (coreOf e.g) sd (·.spoil (tcopyPoison src ha hd))
  | _ => nothing

/-- TV2T: 256 raw bytes of a vector into piece `i` of the slot (R175). -/
def issueTv2t (e : Env) (d a i : BitVec 5) (s : State) : Issue := do
  let (slot, h) ← tileOperand s e.g d
  tileRoom s e.g
  ownSlot s e.g slot
  let out := setBits (s.tile (coreOf e.g) slot).data (2048 * i.toNat) ((s.ctx e.g).v a)
  let idx := h.indices.filter fun k => decide (2048 * i.toNat ≤ fmtBits h.fmt * k ∧ fmtBits h.fmt * k < 2048 * (i.toNat + 1))
  commit (tileJob e slot ((List.range 4).map (4 * i.toNat + ·)) out (statusOf h.fmt out idx false))

/-- TT2V: piece `i` of a full tile's slot, landed in a vector after 4 bundles (R176). It takes its queue entry, and holds it while
it waits on an empty tile (R172). A poisoned sector goes with the result, as with a load (R442; log 27). -/
def issueTt2v (e : Env) (d a i : BitVec 5) (s : State) : Issue := do
  let (slot, _) ← tileOperand s e.g a
  if (s.ctx e.g).run == .blocked .tileRead then .ok () else tileRoom s e.g
  let t := s.tile (coreOf e.g) slot
  Chk.need t.full (.block .tileRead)
  let bad := (List.range 4).find? fun k => t.poison.contains (4 * i.toNat + k)
  commitCtx e.g fun c => c.land (.v d.toNat) (t.data.extractLsb' (2048 * i.toNat) 2048) (BitVec.allOnes 64) 4 false
    (bad.map fun k => tileInfo slot (4 * i.toNat + k))

end Sys2Proof.Machine
end

