-- ==== Sys2Proof/Machine/Matrix.lean ====
section
/-!
DEFINITION. Issue of the matrix instructions: the checks of R195 in their order, accumulator states and bank ownership
(R178, R180), calls (R182 to R185), accumulator instructions (R187, R188) and the microprogram store (R189, R193).
-/
set_option Elab.async false
namespace Sys2Proof.Machine

/-! ## Arbitration and ownership (R178, R180) -/

/-- The issuing core is core B of its pair. -/
def isB (g : Nat) : Bool := coreOf g % 2 == 1

/-- A core may name an accumulator under ARBMODE; cause 0x0B, TRAPINFO 0x01. -/
def accAvail (a : MArray) (g acc : Nat) : Chk Unit :=
  Chk.need (match a.mode.toNat with
    | 0 => (acc / 2 == 1) == isB g
    | 1 => !isB g
    | _ => isB g) (.trap 0x0B 1)

/-- The excluded core of a solo mode may run no matrix operation. -/
def coreAvail (a : MArray) (g : Nat) : Chk Unit :=
  Chk.need (!(a.mode == 1 && isB g) && !(a.mode == 2 && !isB g)) (.trap 0x0B 1)

/-- An operation of a context that does not own an owned bank blocks (R180). -/
def bankFree (a : MArray) (g acc : Nat) : Chk Unit :=
  Chk.need ((tfind a.owners (acc / 2)).all (· == g)) (.block .fullQueue)

/-- The core's array queue has a free entry of its eight (R196). -/
def arrayRoom (a : MArray) (g : Nat) : Chk Unit := Chk.need (a.count (isB g) < 8) (.block .fullQueue)

def MArray.state (a : MArray) (acc : Nat) : Nat := tget 0 a.accState acc

/-- An accumulator's state changes: leaving IDLE on a free bank makes the context its owner; both IDLE free the bank. -/
def MArray.move (a : MArray) (g acc st : Nat) : MArray :=
  let a := { a with accState := tset a.accState acc st }
  let b := acc / 2
  if a.state (2 * b) = 0 ∧ a.state (2 * b + 1) = 0 then { a with owners := tdel a.owners b }
  else { a with owners := tset a.owners b g }

def MArray.push (a : MArray) (g : Nat) (o : ArrOp) : MArray :=
  if isB g then { a with queueB := a.queueB ++ [o] } else { a with queueA := a.queueA ++ [o] }

/-- States: IDLE 0, OPEN 1, HELD 2. The next state of MZERO and MFILL, and of MDRAIN and MSPILL (R180). -/
def afterFill (st : Nat) : Nat := if st = 1 then 1 else 2
def afterDrain (st : Nat) : Nat := if st = 1 then 1 else 0

/-! ## BCH, ECH, MZERO -/

def issueBch (e : Env) (acc : BitVec 3) (s : State) : Issue := do
  let a := s.array (pairOf e.g)
  let k := acc.toNat
  accAvail a e.g k
  bankFree a e.g k
  Chk.need (a.state k != 1) (.trap 0x0B 2)
  arrayRoom a e.g
  commit fun s => s.modArray (pairOf e.g) fun a =>
    (a.push e.g (if a.state k = 0 then .clear e.g k else .mark e.g)).move e.g k 1

def issueEch (e : Env) (acc : BitVec 3) (s : State) : Issue := do
  let a := s.array (pairOf e.g)
  let k := acc.toNat
  accAvail a e.g k
  bankFree a e.g k
  Chk.need (a.state k == 1) (.trap 0x0B 3)
  arrayRoom a e.g
  commit fun s => s.modArray (pairOf e.g) fun a => (a.push e.g (.mark e.g)).move e.g k 2

def issueMzero (e : Env) (acc : BitVec 3) (s : State) : Issue := do
  let a := s.array (pairOf e.g)
  let k := acc.toNat
  accAvail a e.g k
  bankFree a e.g k
  arrayRoom a e.g
  commit fun s => s.modArray (pairOf e.g) fun a => (a.push e.g (.clear e.g k)).move e.g k (afterFill (a.state k))

/-! ## Moving accumulators through tiles (R188) -/

/-- The slot goes empty and the operation, which replaces the sectors `whole` of it, queues. -/
def arrayEmit (g slot : Nat) (whole : List Nat) (o : ArrOp) (f : MArray → MArray) (s : State) : State :=
  (s.modTile (coreOf g) slot (Tile.issueWrite whole)).modArray (pairOf g) fun a => f (a.push g o)

def issueMdrain (e : Env) (acc : BitVec 3) (t n m : BitVec 5) (s : State) : Issue := do
  let a := s.array (pairOf e.g)
  let k := acc.toNat
  accAvail a e.g k
  let (slot, h) ← tileOperand s e.g t
  Chk.need (drainFmt h.fmt) (.trap 0x0D 0x13)
  Chk.need (m.toNat + h.rows ≤ 32 ∧ n.toNat + h.cols ≤ 32) (.trap 0x0D 0x14)
  bankFree a e.g k
  arrayRoom a e.g
  unitSlot s e.g slot
  let hdr := (s.ctx e.g).tc t.toNat
  commit (arrayEmit e.g slot h.sectors (.drain e.g k slot hdr m.toNat n.toNat) fun a => a.move e.g k (afterDrain (a.state k)))

/-- The tile of MSPILL and MFILL: FP32G, 16 rows, 32 columns, Z = 0, T = 0. -/
def spillTile (s : State) (g : Nat) (t : BitVec 5) : Chk (Nat × Hdr) := do
  let (slot, h) ← tileOperand s g t
  Chk.need (h.fmt == 8) (.trap 0x0D 0x13)
  Chk.need (h.rows == 16 && h.cols == 32 && !h.z && !h.t) (.trap 0x0D 0x14)
  .ok (slot, h)

def issueMspill (e : Env) (acc : BitVec 3) (t : BitVec 5) (hi : BitVec 1) (s : State) : Issue := do
  let a := s.array (pairOf e.g)
  let k := acc.toNat
  accAvail a e.g k
  let (slot, h) ← spillTile s e.g t
  bankFree a e.g k
  arrayRoom a e.g
  unitSlot s e.g slot
  let hdr := (s.ctx e.g).tc t.toNat
  commit (arrayEmit e.g slot h.sectors (.spill e.g k slot hdr (hi == 1)) fun a => a.move e.g k (afterDrain (a.state k)))

def issueMfill (e : Env) (acc : BitVec 3) (t : BitVec 5) (hi : BitVec 1) (s : State) : Issue := do
  let a := s.array (pairOf e.g)
  let k := acc.toNat
  accAvail a e.g k
  let (slot, _) ← spillTile s e.g t
  bankFree a e.g k
  let data ← cleanTile s e.g slot 4096
  arrayRoom a e.g
  let hdr := (s.ctx e.g).tc t.toNat
  commit fun s => s.modArray (pairOf e.g) fun a =>
    (a.push e.g (.fill e.g k hdr data (hi == 1))).move e.g k (afterFill (a.state k))

/-! ## The microprogram store (R189, R193) -/

/-- The context's task owns the image of its cluster. -/
def ownsImage (s : State) (g : Nat) : Bool := (s.cluster (clusterOf g)).image == some (s.ctx g).launch

def mAddr (w : W64) : Nat := (bits w 0 11).toNat
def tEnt (w : W64) : Nat := (bits w 16 7).toNat
def tCnt (w : W64) : Nat := (bits w 24 7).toNat

/-- MADDR begins one of the task's blocks. -/
def maddrOk (w : W64) : Bool := mAddr w == 512 || mAddr w == 1024 || mAddr w == 1536
def tabOk (w : W64) (lo : Nat) : Bool := decide (lo ≤ tEnt w ∧ 1 ≤ tCnt w ∧ tEnt w + tCnt w ≤ 128)

/-- The checks that MPWR, MPRD and their `.tab` forms share; the tile describes exactly 4,096 bytes. -/
def storeChecks (s : State) (g : Nat) (t : BitVec 5) (ok : Bool) : Chk (Nat × Hdr) := do
  coreAvail (s.array (pairOf g)) g
  Chk.need (ownsImage s g && ok) (.trap 0x0B 5)
  let (slot, h) ← tileOperand s g t
  Chk.need (h.count * fmtBits h.fmt == 32768) (.trap 0x0D 0x14)
  .ok (slot, h)

def issueMpwr (e : Env) (t : BitVec 5) (s : State) : Issue := do
  let w := (s.ctx e.g).mp 7
  let (slot, _) ← storeChecks s e.g t (maddrOk w)
  let data ← cleanTile s e.g slot 4096
  arrayRoom (s.array (pairOf e.g)) e.g
  commit fun s => s.modArray (pairOf e.g) fun a => a.push e.g (.storeWrite e.g (mAddr w) data)

/-- Every written entry with VALID has ADDR at or above 512: row 0x05, so it comes before the rows of the tile once the tile is full. -/
def tabData (d : TileBits) (n : Nat) : Bool := (storeWords d n).all fun x => !entValid x || decide (512 ≤ entAddr x)

def issueMpwrTab (e : Env) (t : BitVec 5) (s : State) : Issue := do
  let w := (s.ctx e.g).mp 7
  let c := s.ctx e.g
  let tile := s.tile (coreOf e.g) (c.tileBase + t.toNat)
  let (slot, _) ← storeChecks s e.g t
    (tabOk w 32 && !(decide (t.toNat < c.tileCount) && tile.full && !tabData tile.data (tCnt w)))
  let data ← cleanTile s e.g slot (8 * tCnt w)
  arrayRoom (s.array (pairOf e.g)) e.g
  commit fun s => s.modArray (pairOf e.g) fun a => a.push e.g (.tabWrite e.g (tEnt w) (tCnt w) data)

def issueMprd (e : Env) (t : BitVec 5) (s : State) : Issue := do
  let w := (s.ctx e.g).mp 7
  let (slot, _) ← storeChecks s e.g t (maddrOk w)
  arrayRoom (s.array (pairOf e.g)) e.g
  unitSlot s e.g slot
  commit (arrayEmit e.g slot (List.range 64) (.storeRead e.g (mAddr w) slot ((s.ctx e.g).tc t.toNat)) id)

def issueMprdTab (e : Env) (t : BitVec 5) (s : State) : Issue := do
  let w := (s.ctx e.g).mp 7
  let (slot, _) ← storeChecks s e.g t (tabOk w 0)
  arrayRoom (s.array (pairOf e.g)) e.g
  unitSlot s e.g slot
  commit (arrayEmit e.g slot (List.range (tCnt w / 8)) (.tabRead e.g (tEnt w) (tCnt w) slot ((s.ctx e.g).tc t.toNat)) id)

/-! ## MCALL (R184, R185) -/

/-- The routine entry a context sees (R189): a task that does not own the image sees entries 32 to 127 invalid. A table write
that the core has queued before the call is program order's, so it counts (R194). -/
def entrySeen (s : State) (g n : Nat) : W64 :=
  let a := s.array (pairOf g)
  if 32 ≤ n && !ownsImage s g then 0
  else
    let mine := (match a.current with | some (b, o) => if b == isB g then [o] else [] | none => [])
      ++ (if isB g then a.queueB else a.queueA)
    let t := mine.foldl (fun t o => match o with
      | .tabWrite _ first count d => putWords t first ((storeWords d count).map (· &&& entryMask))
      | _ => t) a.table
    { a with table := t }.entry n

/-- The tiles of RD and WR, by selector: every index, then every header. -/
def callTiles (s : State) (g : Nat) (mps : List W64) (e : W64) : Chk (List (Nat × Nat × W64 × TileBits)) := do
  let sels := (List.range 5).filter fun k => entRd e k || entWr e k
  let c := s.ctx g
  Chk.need (sels.all fun k => !c.pending (.tc (mpTile mps k))) .early
  let l ← tileOperands s g (sels.map (mpTile mps))
  .ok ((sels.zip l).map fun p => (p.1, p.2.1, c.tc (mpTile mps p.1), (s.tile (coreOf g) p.2.1).data))

/-- The header a call read for a selector. -/
def callHdr (ts : List (Nat × Nat × W64 × TileBits)) (sel : Nat) : Option Hdr := (ts.find? fun t => t.1 == sel).map fun t => Hdr.of t.2.2.1

/-- AF and BF of the entry, and the formats of routines 0 and 1 (equal BF16 or FP16) and 5 (R183, R185). The header of a tile that RD and WR
leave out is not read, so its format is not checked (log 56). -/
def callFormats (n : Nat) (e : W64) (ts : List (Nat × Nat × W64 × TileBits)) : Bool :=
  let ok (f : Nat) (h : Option Hdr) : Bool := f == 15 || h.all (·.fmt == f)
  ok (entAf e) (callHdr ts 0) && ok (entBf e) (callHdr ts 1)
    && (if n ≤ 1 then match callHdr ts 0, callHdr ts 1 with
        | some a, some b => (a.fmt == 1 || a.fmt == 2) && a.fmt == b.fmt
        | _, _ => false
      else if n = 5 then (callHdr ts 2).all fun h => h.fmt == 0 || h.fmt == 8 || h.fmt == 5
      else true)

/-- Shapes of the firmware routines (R185). -/
def callShape (n : Nat) (mps : List W64) (ts : List (Nat × Nat × W64 × TileBits)) : Bool :=
  let fits (r c : Nat) : Bool := decide (mpRow mps + r ≤ 32 ∧ mpCol mps + c ≤ 32)
  if n = 5 then (callHdr ts 2).all fun h => fits h.rows h.cols
  else if 5 < n then true
  else match callHdr ts 0, callHdr ts 1 with
    | some a, some b =>
      let k := mpK mps
      fits a.rows (if n = 1 then b.rows else b.cols) && k % 32 == 0 && decide (32 ≤ k)
        && decide (k ≤ min a.cols (if n = 1 then b.cols else b.rows))
    | _, _ => false

/-- Reserved bits of mp0 to mp5 (R182). -/
def mpReserved (mps : List W64) : Bool :=
  let ok (i : Nat) (m : W64) : Bool := mps.getD i 0 &&& ~~~m == 0
  !(ok 0 0x1F && ok 1 0x1F && ok 2 0x1F && ok 3 0xFFFF && ok 4 0x071F011F && ok 5 0x1F1F1F)

/-- KOFF lies in the group and every scale entry the call needs is supplied (routines 2 and 3). -/
def callScales (n : Nat) (mps : List W64) (ts : List (Nat × Nat × W64 × TileBits)) : Bool :=
  if n ≠ 2 ∧ n ≠ 3 then true
  else match callHdr ts 1 with
    | some b =>
      let grp := grpSize b.grp
      decide (mpKoff mps < grp / 32)
        && (List.range (mpK mps / 32)).all fun t =>
          let j := (32 * mpKoff mps + 32 * t) / grp
          (List.range b.cols).all fun c =>
            let half := (j * b.cols + c) / 64
            half == (mpSig mps).toNat || (mpV2 mps && half == 1 - (mpSig mps).toNat)
    | none => false

def issueMcall (e : Env) (r : BitVec 7) (acc : BitVec 2) (s : State) : Issue := do
  let a := s.array (pairOf e.g)
  let c := s.ctx e.g
  let k := acc.toNat
  let n := r.toNat
  let mps := (List.range 8).map c.mp
  Chk.need ((List.range 8).all fun i => !c.pending (.mp i)) .early
  accAvail a e.g k
  bankFree a e.g k
  Chk.need (a.state k == 1) (.trap 0x0B 3)
  let ent := entrySeen s e.g n
  Chk.need (entValid ent) (.trap 0x0B 4)
  let va := bits (mps.getD 4 0) 0 5
  let vb := bits (mps.getD 4 0) 16 5
  let sc := entSc ent
  Chk.need (!(sc && (c.pending (.v va.toNat) || (mpV2 mps && c.pending (.v vb.toNat))))) .early
  let ts ← callTiles s e.g mps ent
  Chk.need (callFormats n ent ts) (.trap 0x0D 0x13)
  Chk.need (callShape n mps ts) (.trap 0x0D 0x14)
  Chk.need (!mpReserved mps) (.trap 0x0D 0x15)
  Chk.need (callScales n mps ts) (.trap 0x0D 0x16)
  Chk.need (ts.all fun t => !entRd ent t.1 || (s.tile (coreOf e.g) t.2.1).full) (.block .emptyTile)
  arrayRoom a e.g
  match ts.findSome? fun t => if entRd ent t.1 then tilePoison s (coreOf e.g) t.2.1 (firstSectors (Hdr.of t.2.2.1).image) else none with
  | some info => .error (.late 0x14 info)
  | none => .ok ()
  let wr := ((ts.filter fun t => entWr ent t.1).map (·.2.1)).dedup
  wr.forM (unitSlot s e.g)
  let op : ArrOp := .call e.g k n mps ts (if sc then some (c.v va) else none) (if sc && mpV2 mps then some (c.v vb) else none) ent
  commit fun s =>
    (s.each wr fun slot s => s.modTile (coreOf e.g) slot (Tile.issueWrite [])).modArray (pairOf e.g) fun a => a.push e.g op

end Sys2Proof.Machine
end

