-- ==== Sys2Proof/Machine/Circuit.lean ====
section
/-!
DEFINITION. The Circuit Tree Unit (R197 to R213): records, the forward pass, the reverse passes, sampling and division, with
the pending tags of the scratch words an instruction writes.
-/
set_option Elab.async false
namespace Sys2Proof.Machine

/-! ## Records (R198, R199) -/

/-- A circuit record as its fields. -/
structure CRec where
  id : Nat
  kind : Nat
  n : Nat
  var : Nat
  root : Bool
  rsv : Nat
  state : Nat
  stateTop : Bool
  const : W64
  child : List Nat
  w : List W32
  deriving DecidableEq, Repr

def CRec.of (x : BitVec 1024) : CRec :=
  { id := (bits x 0 24).toNat, kind := (bits x 24 8).toNat, n := (bits x 32 8).toNat, var := (bits x 40 20).toNat, root := bit x 60,
    rsv := (bits x 61 3).toNat, state := (bits x 64 15).toNat, stateTop := bit x 79, const := bits x 64 64,
    child := (List.range 16).map fun i => (bits x (128 + 24 * i) 24).toNat,
    w := (List.range 16).map fun i => bits x (512 + 32 * i) 32 }

/-- Children and weights in use. -/
def CRec.kids (r : CRec) : List Nat := r.child.take r.n
def CRec.ws (r : CRec) : List W64 := (r.w.take r.n).map dk32Widen

/-- The lowest reason a record is malformed for an instruction that accepts `kinds`, 0 when it is well formed. -/
def CRec.bad (r : CRec) (kinds : Nat → Bool) : Nat :=
  if 4 < r.kind then 1
  else if !(if r.kind = 2 ∨ r.kind = 4 then r.n == 0 else decide (1 ≤ r.n ∧ r.n ≤ 16)) then 2
  else if r.rsv ≠ 0 then 3
  else if r.kind = 2 ∧ r.stateTop then 4
  else if r.kind ≤ 1 ∧ r.kids.contains r.id then 5
  else if !kinds r.kind then 6
  else 0

/-! ## Evaluation state -/

/-- The CTU at work: scratch with what the instruction wrote so far, the aligned words it wrote and the record that wrote
each last, the words it read that it had not written, and what stopped it. -/
structure CkSt where
  mem : Memory
  poison : List Nat
  wrote : Tbl Nat
  reads : List Nat
  err : Option (Nat × W64)
  deriving DecidableEq, Repr

def CkSt.fail (st : CkSt) (cause : Nat) (info : W64) : CkSt := { st with err := some (st.err.getD (cause, info)) }

/-- `n` bytes at a scratch offset, read as the evaluation reaches them; a poisoned sector stops it (R442). What stops it is decided by
the first failure; it goes on only to tell which words the instruction reads (R213, order 1). -/
def CkSt.get (st : CkSt) (off n : Nat) : Nat × CkSt :=
  let x := leNat (readBytes st.mem off n)
  let own := (tfind st.wrote (off / 8)).isSome
  if own then (x, st)
  else
    let st := { st with reads := st.reads ++ [off / 8] }
    (x, if st.poison.contains (off / 64) then st.fail 0x14 (localInfo off) else st)

/-- Bytes written by record `i`. -/
def CkSt.put (st : CkSt) (off n x i : Nat) : CkSt :=
  { st with mem := writeBytes st.mem off (leBytes n x), wrote := tset st.wrote (off / 8) i }

def CkSt.getW (st : CkSt) (off : Nat) : W64 × CkSt := let r := st.get off 8; (BitVec.ofNat 64 r.1, r.2)
def CkSt.putW (st : CkSt) (off : Nat) (x : W64) (i : Nat) : CkSt := st.put off 8 x.toNat i

/-- A range-checked Ducat result of record `i` (R121). A failed one stands as the word 0 while later reads, which can only raise 0x03, are
found (log 66). -/
def CkSt.dk (st : CkSt) (i : Nat) (r : Except Bool W64) : W64 × CkSt :=
  match r with
  | .ok x => (x, st)
  | .error hi => (0, st.fail 0x07 (BitVec.ofNat 64 (hi.toNat + 256 * i)))

/-- Where the CTU's data lies (R200 to R202). -/
structure CkEnv where
  mode : Nat
  z : Nat
  lanes : List Nat
  evb : Nat
  nodeb : Nat
  deroff : Nat
  key : W64
  seq : W32
  deriving DecidableEq, Repr

def Ctx.ckEnv (c : Ctx) : CkEnv :=
  let two := c.qmr == 2
  { mode := c.qmr.toNat, z := if two then 16 else 8, lanes := if two then [0, 1] else [0], evb := c.evbase.toNat,
    nodeb := c.nodebase.toNat, deroff := c.deroff.toNat, key := c.rngkey, seq := c.ckseq }

def CkEnv.node (v : CkEnv) (j l : Nat) : Nat := v.nodeb + j * v.z + 8 * l
def CkEnv.der (v : CkEnv) (j l : Nat) : Nat := v.nodeb + v.deroff + j * v.z + 8 * l
def CkEnv.ev (v : CkEnv) (var : Nat) : Nat := v.evb + 4 * var

/-- Several words in order. -/
def CkSt.getWs (st : CkSt) : List Nat → List W64 × CkSt
  | [] => ([], st)
  | a :: l =>
    let (x, st) := st.getW a
    let (xs, st) := st.getWs l
    (x :: xs, st)

/-! ## Trees (R136, R203, R204) -/

/-- The tree of R136 over at most 16 positions, some absent. -/
def ckTree (op : W64 → W64 → Except Bool W64) (l : List (Option W64)) : Except Bool (Option W64) :=
  (treeFoldOpt op 4 (l ++ List.replicate (16 - l.length) none)).map fun r => r.headD none

def ckTreeAll (op : W64 → W64 → Except Bool W64) (l : List W64) : Except Bool W64 :=
  (ckTree op (l.map some)).map fun r => r.getD dkZero

/-- The position the tree max returns: of two equal entries the lower (R152, R203). -/
def ckArgmax (l : List W64) : Nat :=
  let pick (a b : Nat × W64) : Nat × W64 := if dkMax a.2 b.2 = a.2 then a else b
  let t : Except Unit (List (Option (Nat × W64))) := treeFoldOpt (fun a b => .ok (pick a b)) 4
    ((l.zipIdx.map fun p => some (p.2, p.1)) ++ List.replicate (16 - l.length) none)
  match t with
  | .ok (some p :: _) => p.1
  | _ => 0

/-- The terms rne(w × c, 33), the weight first (R118, R204). -/
def ckTerms (st : CkSt) (i : Nat) : List (W64 × W64) → List W64 × CkSt
  | [] => ([], st)
  | (w, c) :: l =>
    let (x, st) := st.dk i (dkMul w c)
    let (xs, st) := ckTerms st i l
    (x :: xs, st)

/-! ## The forward pass (R203, R204, R209) -/

/-- A leaf's value from its evidence word in a lane. -/
def leafVal (r : CRec) (ev l mode : Nat) : Except Bool W64 :=
  let h := ev / 2 ^ (16 * l) % 65536
  let val := h % 32768
  let obs := mode == 0 || h.testBit 15
  if r.kind = 2 then .ok (if !obs || val == r.state then dkOne else dkZero)
  else if obs then .ok (if val < r.n then r.ws.getD val dkZero else dkZero)
  else ckTreeAll (if mode = 3 then fun x y => .ok (dkMax x y) else dkAdd) r.ws

/-- The value of a record's node in a lane. -/
def ckValue1 (v : CkEnv) (r : CRec) (i l : Nat) (st : CkSt) : W64 × CkSt :=
  if r.kind = 4 then (r.const, st)
  else if 2 ≤ r.kind then
    let (w, st) := st.get (v.ev r.var) 4
    st.dk i (leafVal r w l v.mode)
  else
    let (cs, st) := st.getWs (r.kids.map (v.node · l))
    if r.kind = 1 then st.dk i (ckTreeAll dkMul cs)
    else
      let (ts, st) := ckTerms st i (r.ws.zip cs)
      st.dk i (ckTreeAll (if v.mode = 3 then fun x y => .ok (dkMax x y) else dkAdd) ts)

def ckForward (v : CkEnv) (r : CRec) (i : Nat) (st : CkSt) : CkSt :=
  v.lanes.foldl (fun st l =>
    let (x, st) := ckValue1 v r i l st
    (st.putW (v.node r.id l) x i).putW (v.der r.id l) dkZero i) st

/-! ## The reverse passes (R210) -/

/-- A derivative accumulated into a child. -/
def ckAccum (v : CkEnv) (i l c : Nat) (t : W64) (st : CkSt) : CkSt :=
  let (old, st) := st.getW (v.der c l)
  let (x, st) := st.dk i (dkAdd old t)
  st.putW (v.der c l) x i

/-- Derivatives in modes 0, 1, 2 and 4, without division. -/
def ckBackward (v : CkEnv) (r : CRec) (i : Nat) (st : CkSt) : CkSt :=
  v.lanes.foldl (fun st l =>
    let st := if r.root then st.putW (v.der r.id l) dkOne i else st
    let (d, st) := st.getW (v.der r.id l)
    if r.kind = 0 then
      (r.kids.zip r.ws).foldl (fun st p =>
        let (t, st) := st.dk i (dkMul p.2 d)
        ckAccum v i l p.1 t st) st
    else if r.kind = 1 then
      (r.kids.zipIdx).foldl (fun st p =>
        let others := r.kids.zipIdx.filter (·.2 ≠ p.2)
        let (cs, st) := st.getWs (others.map fun q => v.node q.1 l)
        let at' := (others.map (·.2)).zip cs
        let ent := (List.range r.n).map fun q => (at'.find? fun a => a.1 == q).map (·.2)
        let (o, st) := st.dk i ((ckTree dkMul ent).map fun x => x.getD dkOne)
        let (t, st) := st.dk i (dkMul d o)
        ckAccum v i l p.1 t st) st
    else st) st

/-- The state written for a leaf: bits 31:16 of its evidence entry. -/
def ckAssign (v : CkEnv) (r : CRec) (i state : Nat) (st : CkSt) : CkSt := st.put (v.ev r.var + 2) 2 (0x8000 + state % 32768) i

/-- A mark of 1.0 on each child. -/
def ckMarkAll (v : CkEnv) (r : CRec) (i : Nat) (st : CkSt) : CkSt := r.kids.foldl (fun st c => st.putW (v.der c 0) dkOne i) st

/-- A marked record of a traceback, the root marked first; `f` acts on it when it is marked. -/
def ckMarked (v : CkEnv) (r : CRec) (i : Nat) (f : CkSt → CkSt) (st : CkSt) : CkSt :=
  let st := if r.root then st.putW (v.der r.id 0) dkOne i else st
  let (d, st) := st.getW (v.der r.id 0)
  if (dk d).isZero then st else f st

/-- The observed state of a leaf in lane 0, if it is observed. -/
def ckObserved (v : CkEnv) (r : CRec) (st : CkSt) : Option Nat × CkSt :=
  let (e, st) := st.get (v.ev r.var) 4
  (if e.testBit 15 then some (e % 32768) else none, st)

/-- The argmax traceback of MODE 3. -/
def ckTraceback (v : CkEnv) (r : CRec) (i : Nat) (st : CkSt) : CkSt :=
  ckMarked v r i (fun st =>
    match r.kind with
    | 0 =>
      let (cs, st) := st.getWs (r.kids.map (v.node · 0))
      let (ts, st) := ckTerms st i (r.ws.zip cs)
      st.putW (v.der (r.kids.getD (ckArgmax ts) 0) 0) dkOne i
    | 1 => ckMarkAll v r i st
    | 2 => let (o, st) := ckObserved v r st; ckAssign v r i (o.getD r.state) st
    | 3 => let (o, st) := ckObserved v r st; ckAssign v r i (o.getD (ckArgmax r.ws)) st
    | _ => st) st

/-! ## Sampling (R211) -/

/-- Running sums of terms in position order. -/
def ckRun (i : Nat) : W64 → List W64 → CkSt → List W64 × CkSt
  | _, [], st => ([], st)
  | acc, t :: ts, st =>
    let (x, st) := st.dk i (dkAdd acc t)
    let (xs, st) := ckRun i x ts st
    (x :: xs, st)

/-- u × 2^−32 exactly: +0 for u = 0. -/
def unitOfWord (u : W32) : W64 :=
  if u = 0 then dkZero else (dkRound false u.toNat (-32) false).toOption.getD dkZero

/-- The position drawn among terms, when their sum is positive and finite. -/
def ckDraw (v : CkEnv) (r : CRec) (i : Nat) (ts : List W64) (st : CkSt) : Option Nat × CkSt :=
  let (run, st) := ckRun i dkZero ts st
  let total := run.getLastD dkZero
  match dk total with
  | .num false _ _ =>
    let u := (rng v.key (BitVec.ofNat 32 r.id) v.seq).1
    let (thr, st) := st.dk i (dkMul (unitOfWord u) total)
    (run.findIdx? fun x => decide (0 < (dk x).cmp (dk thr)), st)
  | _ => (none, st)

/-- One record of CKSAMP. -/
def ckSample (v : CkEnv) (r : CRec) (i : Nat) (st : CkSt) : CkSt :=
  ckMarked v r i (fun st =>
    match r.kind with
    | 0 =>
      let (cs, st) := st.getWs (r.kids.map (v.node · 0))
      let (ts, st) := ckTerms st i (r.ws.zip cs)
      let (k, st) := ckDraw v r i ts st
      match k with
      | some k => st.putW (v.der (r.kids.getD k 0) 0) dkOne i
      | none => st
    | 1 => ckMarkAll v r i st
    | 2 => let (o, st) := ckObserved v r st; ckAssign v r i (o.getD r.state) st
    | 3 =>
      let (o, st) := ckObserved v r st
      match o with
      | some x => ckAssign v r i x st
      | none =>
        let (k, st) := ckDraw v r i r.ws st
        match k with
        | some k => ckAssign v r i k st
        | none => st
    | _ => st) st

/-! ## Issue (R205 to R208, R213) -/

/-- The five CK instructions by opcode. -/
inductive CkOp where
  | leaf | node | back | div | samp
  deriving DecidableEq, Repr

def CkOp.code : CkOp → Nat
  | .leaf => 0x20
  | .node => 0x21
  | .back => 0x22
  | .div => 0x23
  | .samp => 0x24

/-- Record kinds an instruction accepts (R199). -/
def CkOp.accepts (o : CkOp) (k : Nat) : Bool :=
  match o with
  | .leaf => 2 ≤ k
  | .node => k ≤ 1
  | _ => true

def CkOp.forward (o : CkOp) : Bool := o == .leaf || o == .node

/-- Every node, derivative and evidence address a record names, with its size, whether or not the evaluation touches it (R213,
order 8). -/
def CRec.names (r : CRec) (v : CkEnv) : List (Nat × Nat) :=
  let ids := r.id :: (if r.kind ≤ 1 then r.kids else [])
  (ids.flatMap fun j => v.lanes.flatMap fun l => [(v.node j l, 8), (v.der j l, 8)])
    ++ if r.kind = 2 ∨ r.kind = 3 then [(v.ev r.var, 4)] else []

/-- One record evaluated. -/
def CkOp.eval (o : CkOp) (v : CkEnv) (r : CRec) (i : Nat) (st : CkSt) : CkSt :=
  match o with
  | .leaf => ckForward v r i st
  | .node => ckForward v r i st
  | .back => if v.mode = 3 then ckTraceback v r i st else ckBackward v r i st
  | .div => (st.getWs (v.lanes.map (v.node r.id ·))).2
  | .samp => ckSample v r i st

/-- The well-formed records evaluated in the instruction's order. -/
def CkOp.run (o : CkOp) (v : CkEnv) (rs : List (CRec × Nat)) (c : Ctx) : CkSt :=
  let st : CkSt := { mem := c.scratch, poison := c.scratchPoison, wrote := [], reads := [], err := none }
  (if o.forward then rs else rs.reverse).foldl (fun st p => o.eval v p.1 p.2 st) st

/-- CKDIV's value (R212). -/
def ckQuotient (v : CkEnv) (r : CRec) (c : Ctx) : Except Bool W64 :=
  let x := readDw c.scratch (v.node r.id 0)
  if v.mode = 2 then dkDiv x (readDw c.scratch (v.node r.id 1)) else .ok x

/-- The bundle at which the tags of record `i` clear (R205). -/
def CkOp.clearAt (o : CkOp) (k i count : Nat) : Nat := if o.forward then k + 8 + i else k + 8 + (count - 1)

/-- What a CK instruction that passed its checks does: the words it writes, their tags, and its entry in flight (R205, R207); one that
wrote no word has no entry (log 55). -/
def ckCommit (o : CkOp) (v : CkEnv) (count : Nat) (st : CkSt) (c : Ctx) : Ctx :=
  let k := c.bundles
  let offs := st.wrote.map fun w => 8 * w.1
  let tags := st.wrote.foldl (fun t w =>
    let due := o.clearAt k w.2 count
    match tfind t w.1 with
    | some (d, r) => tset t w.1 (if d ≤ due then (due, w.2) else (d, r))
    | none => tset t w.1 (due, w.2)) c.tags
  let c := { c with tags := tags, scratch := offs.foldl (fun m o => writeBytes m o (readBytes st.mem o 8)) c.scratch }
  if st.wrote.isEmpty then c
  else c.land (.ck o.code count v.z (offs.headD 0) (offs.getLastD 0) ((List.range count).map fun i => o.clearAt k i count)) 0 (BitVec.allOnes 64)
    (8 + (count - 1)) false none

/-- The instruction comes after every earlier access of its context to scratch and before every later one (R206): it stalls in place
until they have performed. -/
def scratchInOrder (s : State) (g : Nat) : Chk Unit :=
  let all := [(Place.scratch g 0, (s.ctx g).scratchSize)]
  Chk.need (!((s.ctx g).delayed.any fun d => all.any fun x => d.act.meets x.1 x.2) && !meetsUnread g all s) (.stall (orderProgress g))

/-- The checks of R213 in their order, the evaluation, and what it commits. Of several addresses outside scratch the lowest is named
(log 57). Scratch is read once everything earlier in it has performed (R206); what the evaluation meets is decided while it stalls (R41,
R197). -/
def issueCk (o : CkOp) (e : Env) (t row : BitVec 5) (count : Nat) (fin : CkEnv → List (CRec × Nat) → CkSt → Issue) (s : State) :
    Issue := do
  let c := s.ctx e.g
  let v := c.ckEnv
  let tile : Chk (Nat × Hdr) := do
    let (slot, h) ← tileOperand s e.g t
    Chk.need (h.fmt == 13) (.trap 0x0D 0x13)
    Chk.need (decide (row.toNat + count ≤ h.rows) && h.cols == 1) (.trap 0x0D 0x14)
    .ok (slot, h)
  match tile with
  | .error st => if 4 < v.mode then .error (.trap 0x01 0) else .error st
  | .ok (slot, h) =>
    Chk.need (v.mode ≤ 4 || (s.tile (coreOf e.g) slot).full) (.trap 0x01 0)
    let data ← fullTile s e.g slot
    scratchInOrder s e.g
    let rs := (List.range count).map fun i => (CRec.of (BitVec.ofNat 1024 (h.get data (row.toNat + i) 0)), i)
    let good := rs.filter fun r => r.1.bad o.accepts == 0
    let st := o.run v good c
    Chk.need (!(st.reads.any fun w => (tfind c.tags w).isSome)) (.trap 0x03 0)
    Chk.need (v.mode ≤ 4) (.trap 0x01 0)
    match rs.find? fun r => r.1.bad o.accepts != 0 with
    | some r => .error (.trap 0x0E (BitVec.ofNat 64 (r.1.bad o.accepts + 256 * r.2)))
    | none =>
      match ((rs.flatMap fun r => r.1.names v).filter fun a => decide (c.scratchSize < a.1 + a.2)).map (·.1) |>.min? with
      | some off => .error (.trap 0x04 (BitVec.ofNat 64 (0x1FF * 2 ^ 48 + off)))
      | none =>
        match (s.tile (coreOf e.g) slot).poison.find? fun p => rs.any fun r => h.index (row.toNat + r.2) 0 == p / 2 with
        | some p => .error (.late 0x14 (tileInfo slot p))
        | none =>
        match st.err with
        | some (cause, info) => .error (.late cause info)
        | none => fin v rs st

def issueCkleaf (e : Env) (t r n : BitVec 5) (s : State) : Issue :=
  issueCk .leaf e t r (n.toNat + 1) (fun v _ st => commitCtx e.g (ckCommit .leaf v (n.toNat + 1) st)) s
def issueCknode (e : Env) (t r n : BitVec 5) (s : State) : Issue :=
  issueCk .node e t r (n.toNat + 1) (fun v _ st => commitCtx e.g (ckCommit .node v (n.toNat + 1) st)) s
def issueCkback (e : Env) (t r n : BitVec 5) (s : State) : Issue :=
  issueCk .back e t r (n.toNat + 1) (fun v _ st => commitCtx e.g (ckCommit .back v (n.toNat + 1) st)) s
def issueCksamp (e : Env) (t r n : BitVec 5) (s : State) : Issue :=
  issueCk .samp e t r (n.toNat + 1) (fun v _ st => commitCtx e.g (ckCommit .samp v (n.toNat + 1) st)) s

/-- CKDIV lands node 0, or in MODE 2 the quotient of the lanes, after 8 bundles (R212). -/
def issueCkdiv (e : Env) (t r : BitVec 5) (d : BitVec 6) (s : State) : Issue :=
  issueCk .div e t r 1 (fun v rs _ =>
    match rs with
    | (rec', _) :: _ => match ckQuotient v rec' (s.ctx e.g) with
      | .ok x => commitCtx e.g fun c => c.landS d x 8
      | .error hi => .error (.late 0x07 (BitVec.ofNat 64 hi.toNat))
    | [] => nothing) s

end Sys2Proof.Machine
end

