-- ==== Sys2Proof/Machine/Index.lean ====
section
/-!
DEFINITION. The index engine: IXWALK and IXSPLIT (R214 to R216).
-/
set_option Elab.async false
namespace Sys2Proof.Machine

/-- An operation of the index engine: each slot empty at issue with the sectors it replaces whole, its bytes and its status, full on
completion. -/
def indexJob (e : Env) (outs : List (Nat × List Nat × TileBits × BitVec 3)) (s : State) : State :=
  let k := coreOf e.g
  let s := outs.foldl (fun s o => s.modTile k o.1 (·.write o.2.1 o.2.2.1 o.2.2.2)) s
  s.modCore k fun c => { c with indexQ := c.indexQ ++ [tileEntry e.g (outs.map fun o => (o.1, o.2.2.2))] }

/-- The walk of a bitmap of `total` positions: set positions from `pos`, at most `cap`, and where it stops. -/
def walkBits (set : Nat → Bool) (total cap : Nat) : Nat → Nat → List Nat → Nat × List Nat
  | 0, pos, out => (pos, out)
  | f + 1, pos, out =>
    if pos < total ∧ out.length < cap then
      walkBits set total cap f (pos + 1) (if set pos then out ++ [pos] else out)
    else (pos, out)

/-- IXWALK (R215). -/
def issueIxwalk (e : Env) (d a b : BitVec 5) (s : State) : Issue := do
  let l ← tileOperands s e.g [d.toNat, a.toNat, b.toNat]
  match l with
  | [(sd, hd), (sa, ha), (sb, hb)] =>
    Chk.need (ha.fmt == 11 && hb.fmt == 11 && hd.fmt == 12) (.trap 0x0D 0x13)
    Chk.need (decide (2 ≤ hb.cols)) (.trap 0x0D 0x14)
    let da ← cleanTile s e.g sa ha.image
    let db ← cleanSectors s e.g sb (elemSectors 11 (hb.index 0 0))
    queueRoom (s.core (coreOf e.g)).indexQ 4
    ownSlot s e.g sd
    ownSlot s e.g sb
    let c := 32 * ha.cols
    let total := ha.rows * c
    let start := hb.get db 0 0
    let set (p : Nat) : Bool := (ha.get da (p / c) (p % c / 32)).testBit (p % 32)
    let r := walkBits set total hd.count (total - start) start []
    let entry (k : Nat) : Nat := match r.2[k]? with
      | some p => p / c + 2 ^ 32 * (p % c)
      | none => 2 ^ 64 - 1
    let outD := hd.fill (s.tile (coreOf e.g) sd).data fun i j => entry (i * hd.cols + j)
    let outB := setElem (setElem db 11 (hb.index 0 0) (if start < total then r.1 else start)) 11 (hb.index 0 1) r.2.length
    commit (indexJob e [(sd, hd.sectors, outD, hd.status outD false), (sb, [], outB, hb.status outB false)])
  | _ => nothing

/-- IXSPLIT: the starts of `p` parts of nearly equal size (R216). -/
def issueIxsplit (e : Env) (d a : BitVec 5) (p : BitVec 6) (s : State) : Issue := do
  let l ← tileOperands s e.g [d.toNat, a.toNat]
  match l with
  | [(sd, hd), (sa, ha)] =>
    let parts := p.toNat + 1
    Chk.need (ha.fmt == 11 && hd.fmt == 11) (.trap 0x0D 0x13)
    Chk.need (decide (2 ≤ ha.cols ∧ parts + 1 ≤ hd.cols)) (.trap 0x0D 0x14)
    let da ← cleanSectors s e.g sa (elemSectors 11 (ha.index 0 1))
    queueRoom (s.core (coreOf e.g)).indexQ 4
    ownSlot s e.g sd
    let n := ha.get da 0 1
    let out := (List.range (parts + 1)).foldl (fun x j => setElem x 11 (hd.index 0 j) (j * n / parts)) (s.tile (coreOf e.g) sd).data
    let whole := wholeSectors 11 ((List.range (parts + 1)).map (hd.index 0 ·))
    commit (indexJob e [(sd, whole, out, hd.status out false)])
  | _ => nothing

end Sys2Proof.Machine
end

