-- ==== Sys2Proof/Machine/Assay.lean ====
section
/-!
DEFINITION. The Assay unit: the order of R217, ASORT and the XC forms on candidate registers (R218 to R222). An entry is key
in bits 31:0, value in bits 63:32; key types are 0 f32, 1 u32, 2 dk32.
-/
set_option Elab.async false
namespace Sys2Proof.Machine

/-! ## The order of R217 -/

def entKey (x : W64) : W32 := x.extractLsb' 0 32
def entVal (x : W64) : W32 := x.extractLsb' 32 32

/-- Key `a` lies above key `b`. -/
def keyAbove (ty : Nat) (a b : W32) : Bool :=
  match ty with
  | 0 => if isNan32 a then false else if isNan32 b then true else flt148 b a
  | 1 => b.ult a
  | _ =>
    let x := dk (dk32Widen a)
    let y := dk (dk32Widen b)
    if x.isNan then false else if y.isNan then true else decide (0 < x.cmp y)

/-- Entry `a` ranks above entry `b` by key, then by value; position decides the rest. -/
def ranksAbove (ty : Nat) (a b : W64) : Bool :=
  keyAbove ty (entKey a) (entKey b) || (!keyAbove ty (entKey b) (entKey a) && (entVal a).ult (entVal b))

/-- An entry placed behind every entry it does not rank above. -/
def rankInsert (ty : Nat) (x : W64) : List W64 → List W64
  | [] => [x]
  | y :: l => if ranksAbove ty x y then x :: y :: l else y :: rankInsert ty x l

/-- Entries sorted by R217, position being their place in the list. -/
def rankSort (ty : Nat) (l : List W64) : List W64 := l.foldl (fun acc x => rankInsert ty x acc) []

/-! ## ASORT -/

/-- The format of a key type. -/
def keyFmt : Nat → Nat
  | 0 => 0
  | 1 => 11
  | _ => 10

/-- KV64 entries written at view indices 0 upward; other entries, and padding, keep their bytes (R221; log 57). -/
def putEntries (h : Hdr) (old : TileBits) (l : List W64) : TileBits :=
  l.zipIdx.foldl (fun d x => setElem d 12 (h.index (x.2 / h.cols) (x.2 % h.cols)) x.1.toNat) old

/-- The sectors that the first 64 entries fill. -/
def entrySectors (h : Hdr) : List Nat := wholeSectors 12 ((List.range 64).map fun i => h.index (i / h.cols) (i % h.cols))

/-- ASORT: 64 entries of two tiles sorted into a third (R221). -/
def issueAsort (e : Env) (d a b : BitVec 5) (m : BitVec 6) (s : State) : Issue := do
  let l ← tileOperands s e.g [d.toNat, a.toNat, b.toNat]
  match l with
  | [(sd, hd), (sa, ha), (sb, hb)] =>
    Chk.need (hd.fmt == 12 && (ha.fmt == 12 || ha.fmt == keyFmt m.toNat) && (hb.fmt == 12 || hb.fmt == 11 || hb.fmt == 5))
      (.trap 0x0D 0x13)
    Chk.need (decide (64 ≤ hd.count ∧ 64 ≤ ha.count ∧ 64 ≤ hb.count)) (.trap 0x0D 0x14)
    let da ← cleanSectors s e.g sa (viewSectors ha 64)
    let db ← cleanSectors s e.g sb (viewSectors hb 64)
    let k := coreOf e.g
    queueRoom (s.core k).assayQ 4
    ownSlot s e.g sd
    let entry (i : Nat) : W64 :=
      let v : W32 := if hb.fmt = 12 then BitVec.ofNat 32 (hb.getRow db i / 2 ^ 32) else BitVec.ofNat 32 (hb.getRow db i)
      v ++ BitVec.ofNat 32 (ha.getRow da i)
    let out := putEntries hd (s.tile k sd).data (rankSort m.toNat ((List.range 64).map entry))
    commit fun s => (s.modTile k sd (·.write (entrySectors hd) out 0)).modCore k fun c =>
      { c with assayQ := c.assayQ ++ [tileEntry e.g [(sd, 0)]] }
  | _ => nothing

/-! ## Candidate registers -/

def Ctx.cand (c : Ctx) (k : BitVec 2) : Cand := tget Cand.initial c.cands k.toNat
/-- Entries 0 to COUNT − 1. -/
def Cand.valid (c : Cand) : List W64 := c.entries.take c.count

/-- The context stalls in place while the Assay unit finishes its earlier operations (R219). -/
def assayIdle (s : State) (g : Nat) : Chk Unit :=
  Chk.need (!((s.core (coreOf g)).assayQ.any (·.ctx == g))) (.stall (popAssayQ (coreOf g)))

/-- CCLR (R221). -/
def issueCclr (e : Env) (k m : BitVec 2) (s : State) : Issue := do
  assayIdle s e.g
  commitCtx e.g fun c => { c with cands := tset c.cands k.toNat { count := 0, ty := m.toNat, entries := [] } }

/-- AMRG: the best 64 of a register and `n` tile entries (R221). Entries from COUNT on are all ones afterwards, whatever a LOADC put there
(log 67). -/
def issueAmrg (e : Env) (k : BitVec 2) (t : BitVec 5) (n : BitVec 6) (s : State) : Issue := do
  let (slot, h) ← tileOperand s e.g t
  Chk.need (h.fmt == 12) (.trap 0x0D 0x13)
  let cnt := if n = 0 then 64 else min ((s.ctx e.g).s n).toNat 64
  Chk.need (decide (cnt ≤ h.count)) (.trap 0x0D 0x14)
  let data ← cleanSectors s e.g slot (viewSectors h cnt)
  assayIdle s e.g
  let c := (s.ctx e.g).cand k
  let l := (rankSort c.ty (c.valid ++ (List.range cnt).map fun i => BitVec.ofNat 64 (h.getRow data i))).take 64
  commitCtx e.g fun x => { x with cands := tset x.cands k.toNat { c with count := l.length, entries := l } }

/-- CREAD: the entries into a tile, full when the bundle commits, and the count into a scalar (R221). -/
def issueCread (e : Env) (k : BitVec 2) (t : BitVec 5) (d : BitVec 6) (s : State) : Issue := do
  let (slot, h) ← tileOperand s e.g t
  Chk.need (h.fmt == 12) (.trap 0x0D 0x13)
  Chk.need (decide (64 ≤ h.count)) (.trap 0x0D 0x14)
  assayIdle s e.g
  ownSlot s e.g slot
  let c := (s.ctx e.g).cand k
  let out := putEntries h (s.tile (coreOf e.g) slot).data (c.valid ++ List.replicate (64 - c.count) (BitVec.allOnes 64))
  commit fun s =>
    let s := s.modTile (coreOf e.g) slot fun t => (t.write (entrySectors h) out 0).finish ((s.ctx e.g).bundles + 1)
    s.modCtx e.g fun x => x.landS d (BitVec.ofNat 64 c.count) 2

/-! ## Sampling (R222) -/

/-- The weight of an entry. -/
def sampWeight (ty : Nat) (top beta key : W32) : W64 :=
  let w := match ty with
    | 0 => if isNan32 top then dkZero
      else if top = 0x7F800000 then (if key = 0x7F800000 then dkOne else dkZero)
      else dkOfFp (f32 (fexp2 (fmul (fsub key top) beta)))
    | 1 => dkOfNat key.toNat
    | _ => dk32Widen key
  if (dk w).isNan || bit w 63 then dkZero else w

/-- Running sums by R119. -/
def runSums : W64 → List W64 → List W64
  | _, [] => []
  | acc, w :: l => let a := (dkAdd acc w).toOption.getD dkZero; a :: runSums a l

/-- `rne(m × 2^x × w, 33)` of a positive number `w`, zero when `m` is 0. -/
def scaleSum (m : Nat) (x : Int) (w : W64) : W64 :=
  match dk w with
  | .num _ e f => if m = 0 then dkZero else (dkRound false (m * f) (e - 32 + x) false).toOption.getD dkZero
  | _ => dkZero

/-- The value a draw gives. -/
def sampDraw (c : Cand) (cfg ctr key : W64) : W64 :=
  let beta := entKey cfg
  let pn := (bits cfg 32 16).toNat
  let top := entKey (c.valid.headD 0)
  let run := runSums dkZero (c.valid.map fun x => sampWeight c.ty top beta (entKey x))
  let total := run.getLastD dkZero
  match dk total with
  | .num false _ _ =>
    let cut := if pn = 0 then total else scaleSum pn (-16) total
    let i := run.findIdx fun r => decide (0 ≤ (dk r).cmp (dk cut))
    let u := (rng key (ctr.extractLsb' 0 32) (ctr.extractLsb' 32 32)).1
    let thr := scaleSum u.toNat (-32) (run.getD i dkZero)
    let k := (run.take (i + 1)).findIdx fun r => decide (0 < (dk r).cmp (dk thr))
    zext64 (entVal (c.valid.getD (min k i) 0))
  | _ => BitVec.allOnes 64

/-- CSAMP (R222). -/
def issueCsamp (e : Env) (k : BitVec 2) (d : BitVec 6) (s : State) : Issue := do
  assayIdle s e.g
  let c := s.ctx e.g
  commitCtx e.g fun x => x.landS d (sampDraw (c.cand k) c.sampcfg c.sampctr c.rngkey) 8

end Sys2Proof.Machine
end

