-- ==== Sys2Proof/Machine/Clearing.lean ====
section
/-!
DEFINITION. The Clearing network of a cluster: sessions, pushes, seals, spills and pulls (R223 to R230).
-/
set_option Elab.async false
namespace Sys2Proof.Machine

/-- The network holds 65,536 entries in its buffer and 16 runs (R224). -/
def bufCap : Nat := 65536

/-- TRAPINFO of cause 0x0F: reason, and the entry index of reasons 0x04 and 0x05 (R229). -/
def clrFault (reason index : Nat) : Stop := .trap 0x0F (BitVec.ofNat 64 (reason + 256 * index))

/-- The session of the context's group. -/
def ownSession (s : State) (g : Nat) : Chk Session :=
  match (s.cluster (clusterOf g)).session with
  | some x => if x.group = (s.ctx g).group then .ok x else .error (clrFault 1 0)
  | none => .error (clrFault 1 0)

def setSession (g : Nat) (x : Session) (s : State) : State := s.modCluster (clusterOf g) fun c => { c with session := some x }

/-! ## Spilling (R226) -/

/-- Entry order within a run: key, stream, sequence. -/
def ClrEntry.le (a b : ClrEntry) : Bool :=
  a.key.ult b.key || (a.key == b.key && (decide (a.stream < b.stream) || (a.stream == b.stream && decide (a.seq ≤ b.seq))))

/-- A run's 1 MiB: COORD entries whose tags hold their stream. -/
def runBytes (l : List ClrEntry) : List Byte :=
  (sortBy ClrEntry.le l).flatMap fun e => leBytes 8 e.key.toNat ++ leBytes 4 e.val.toNat ++ leBytes 4 e.stream

/-- Bytes written into the pinned spill area at a virtual address, sector by sector. -/
def spillWrite (x : Session) (base : Nat) : Nat → List Byte → Nat → State → State
  | 0, _, _, s => s
  | n + 1, bs, va, s =>
    let i := va / 65536 - base / 65536
    let lay := x.zview.getD i false
    spillWrite x base n (bs.drop 64) (va + 64)
      (writePlace (.dp (x.pinned.getD i 0 * 65536) lay (va % 65536)) (bs.take 64) s)

/-- The key a spilled run is kept under: one that no run held has. -/
def Session.runKey (x : Session) : Nat := x.runs.foldl (fun n r => max n (r.1 + 1)) 0

/-- Entries join the buffer in turn; a full buffer is first written as run number `runs`, which counts the runs held (R226; log 34). -/
def pushEntries (g : Nat) (es : List ClrEntry) (x : Session) (s : State) : State :=
  let room := bufCap - x.buf.length
  if es.length ≤ room then setSession g { x with buf := x.buf ++ es } s
  else
    let full := x.buf ++ es.take room
    let s := match x.spill with
      | some base => spillWrite x base (bufCap / 4) (runBytes full) (base + x.runs.length * 2 ^ 20) s
      | none => s
    setSession g { x with buf := es.drop room, runs := tset x.runs x.runKey full, spills := min (x.spills + 1) 0xFFFFFFFF } s

/-- Entries a push takes from a COORD tile: up to the first sentinel key. -/
def coordEntries (h : Hdr) (d : TileBits) : List (W64 × W32) :=
  ((List.range h.count).map fun i => h.getRow d i).takeWhile (fun x => x % 2 ^ 64 != 2 ^ 64 - 1)
    |>.map fun x => (BitVec.ofNat 64 x, BitVec.ofNat 32 (x / 2 ^ 64))

/-- The least index at which keys fall. -/
def keyDrop (l : List (W64 × W32)) : Option Nat :=
  leastFrom (fun j => ((l.getD j (0, 0)).1).ult (l.getD (j - 1) (0, 0)).1) 1 (l.length - 1)

/-- Stream n is of the session and, for a push or a seal, not sealed. -/
def streamOpen (x : Session) (n : Nat) : Chk Unit := do
  Chk.need (bit x.mask n) (clrFault 2 0)
  Chk.need (!bit x.sealed n) (clrFault 3 0)

/-- CLPUSH (R226, R229). It consumes the whole image of its tile: poison after the sentinel, or in a Z view's padding, counts (log 67). -/
def issueClpush (e : Env) (a : BitVec 5) (n : BitVec 4) (s : State) : Issue := do
  let (slot, h) ← tileOperand s e.g a
  Chk.need (h.fmt == 14) (.trap 0x0D 0x13)
  let x ← ownSession s e.g
  streamOpen x n.toNat
  let data ← cleanTile s e.g slot h.image
  let es := coordEntries h data
  match keyDrop es with
  | some j => .error (clrFault 4 j)
  | none =>
    Chk.need (es.isEmpty || !(bit x.pushed n.toNat) || !((es.headD (0, 0)).1.ult (tget 0 x.last n.toNat))) (clrFault 5 0)
    let free := bufCap - x.buf.length + (if x.spill.isSome then bufCap * (16 - x.runs.length) else 0)
    Chk.need (es.length ≤ free) (.trap 0x10 (BitVec.ofNat 64 (256 * free)))
    if es.isEmpty then nothing
    else
      let new := es.zipIdx.map fun p => ({ key := p.1.1, val := p.1.2, stream := n.toNat, seq := x.nextSeq + p.2 } : ClrEntry)
      let x := { x with pushed := x.pushed ||| (1#16 <<< n.toNat), last := tset x.last n.toNat (es.getLastD (0, 0)).1,
                        nextSeq := x.nextSeq + es.length }
      commit (pushEntries e.g new x)

/-- CLSEAL (R226). -/
def issueClseal (e : Env) (n : BitVec 4) (s : State) : Issue := do
  let x ← ownSession s e.g
  streamOpen x n.toNat
  commit (setSession e.g { x with sealed := x.sealed ||| (1#16 <<< n.toNat) })

/-! ## Pulling (R227, R228) -/

/-- The frontier; none stands for +∞. -/
def Session.frontier (x : Session) : Option Nat :=
  ((List.range 16).filter fun n => bit x.mask n && !bit x.sealed n).map (fun n =>
    if bit x.pushed n then (tget 0 x.last n).toNat else 0) |>.min?

def Session.below (x : Session) (k : W64) : Bool := match x.frontier with | none => true | some f => decide (k.toNat < f)

/-- Every entry the session holds. -/
def Session.held (x : Session) : List ClrEntry := x.buf ++ x.runs.flatMap (·.2)

/-- One addition of a value kind: DK32 values are kept widened. -/
def clrAdd (kind : Nat) (a b : W64) : W64 :=
  match kind with
  | 0 => zext64 (fadd (a.setWidth 32) (b.setWidth 32))
  | 1 => zext64 ((a.setWidth 32 : W32) + b.setWidth 32)
  | _ => (dkAdd a b).toOption.getD dkZero

/-- The value emitted for the entries of a key in emission order (R227). -/
def clrSum (kind : Nat) (l : List ClrEntry) : Except Bool W32 :=
  let w (v : W32) : W64 := if kind = 2 then dk32Widen v else zext64 v
  match l with
  | [] => .ok 0
  | x :: l =>
    let acc := l.foldl (fun a y => clrAdd kind a (w y.val)) (w x.val)
    if kind = 2 then dk32Narrow acc else .ok (acc.setWidth 32)

/-- One emitted entry as a COORD element. -/
def coordElem (k : W64) (v : W32) (l : List ClrEntry) : Nat :=
  let streams := (List.range 16).foldl (fun n i => n + if l.any (·.stream == i) then 2 ^ i else 0) 0
  k.toNat + 2 ^ 64 * v.toNat + 2 ^ 96 * (streams + 65536 * min l.length 0xFFFF)

/-- Up to `n` least keys of `l` emitted, from output index `j`; the error is an index and whether it lay above the range. -/
def emit (kind : Nat) : Nat → Nat → List ClrEntry → Except (Nat × Bool) (List Nat × List W64)
  | 0, _, _ => .ok ([], [])
  | n + 1, j, l =>
    match (l.map (·.key.toNat)).min? with
    | none => .ok ([], [])
    | some m =>
      let k := BitVec.ofNat 64 m
      let es := sortBy ClrEntry.le (l.filter (·.key == k))
      match clrSum kind es with
      | .error hi => .error (j, hi)
      | .ok v =>
        match emit kind n (j + 1) (l.filter (·.key != k)) with
        | .error x => .error x
        | .ok (out, ks) => .ok (coordElem k v es :: out, k :: ks)

/-- A run whose entries are all removed is freed. -/
def Session.remove (x : Session) (ks : List W64) : Session :=
  let keep (l : List ClrEntry) := l.filter fun e => !ks.contains e.key
  { x with buf := keep x.buf, runs := (x.runs.map fun r => (r.1, keep r.2)).filter fun r => !r.2.isEmpty }

/-- CLPULL (R228). -/
def issueClpull (e : Env) (d : BitVec 5) (s : State) : Issue := do
  let (slot, h) ← tileOperand s e.g d
  Chk.need (h.fmt == 14) (.trap 0x0D 0x13)
  let x ← ownSession s e.g
  let ready := x.held.filter fun y => x.below y.key
  Chk.need (!ready.isEmpty || x.frontier.isNone) (.block .fullQueue)
  match emit x.kind h.count 0 ready with
  | .error (j, hi) => .error (.trap 0x07 (BitVec.ofNat 64 (hi.toNat + 256 * j)))
  | .ok (out, ks) =>
    ownSlot s e.g slot
    let x' := x.remove ks
    let data := h.fill (s.tile (coreOf e.g) slot).data fun i j => out.getD (i * h.cols + j) (2 ^ 64 - 1)
    commit fun s =>
      let s := s.modTile (coreOf e.g) slot fun t => (t.write h.sectors data 0).finish ((s.ctx e.g).bundles + 1)
      if x.frontier.isNone && x'.held.isEmpty && decide (out.length < h.count) then closeSession (clusterOf e.g) s
      else setSession e.g x' s

/-! ## Configuration (R225) -/

/-- Pieces of the spill area: blocks of 4 KiB. -/
def spillPieces (base : Nat) : List (Nat × Nat) := (List.range 4096).map fun i => (base + 4096 * i, 4096)

/-- The checks of the spill area, which one entry holds whole (R236): translation, compression class, demoted frames (R225, R229). -/
def spillArea (s : State) (g base : Nat) : Chk (List Sector) :=
  match (s.ctx g).entryFor base (2 ^ 24) with
  | none => .error (.trap 0x04 (BitVec.ofNat 64 base))
  | some en => match access s g (spillPieces base) .c 0 anyClass with
    | .error (.trap c i) => .error (.trap c i)
    | r => if swComp en = 0 then r else .error (.trap 0x09 (BitVec.ofNat 64 base))

/-- Frame and view of the first block in each frame of the area. -/
def spillFrames (l : List Sector) : List (Nat × Bool) :=
  l.zipIdx.filterMap fun x => if x.2 = 0 ∨ x.1.va % 65536 = 0 then
    (match x.1.place with | .dp b lay off => some ((b + off) / 65536, lay) | _ => none) else none

/-- CLCFG: opens a session, or blocks while another group's session is open (R223, R225). -/
def issueClcfg (e : Env) (a : BitVec 5) (s : State) : Issue := do
  let (slot, h) ← tileOperand s e.g a
  Chk.need (h.fmt == 11) (.trap 0x0D 0x13)
  Chk.need (decide (8 ≤ h.count)) (.trap 0x0D 0x14)
  let cur := (s.cluster (clusterOf e.g)).session
  Chk.need (cur.all (·.group != (s.ctx e.g).group)) (clrFault 6 0)
  let data ← cleanSectors s e.g slot (viewSectors h 8)
  let el (i : Nat) : Nat := h.getRow data i
  let base := el 0 + 2 ^ 32 * el 1
  Chk.need (base % 4096 == 0 && !inWindow base && decide (el 2 ≤ 2) && decide (0 < el 3 ∧ el 3 < 65536)
    && [4, 5, 6, 7].all (el · == 0)) (clrFault 7 0)
  let l ← if base = 0 then .ok [] else spillArea s e.g base
  Chk.need cur.isNone (.block .fullQueue)
  let fs := spillFrames l
  let x : Session := { group := (s.ctx e.g).group, spill := if base = 0 then none else some base, pinned := fs.map (·.1),
                       zview := fs.map (·.2), kind := el 2, mask := BitVec.ofNat 16 (el 3), sealed := 0, pushed := 0, last := [],
                       buf := [], runs := [], spills := 0, nextSeq := 0 }
  commit fun s => setPins x.pinned true (setSession e.g x s)

/-- CLCFG.END (R225). -/
def issueClcfgEnd (e : Env) (s : State) : Issue := do
  let _ ← ownSession s e.g
  commit (closeSession (clusterOf e.g))

/-! ## What CSRD reads (R230) -/

/-- CLSTAT and CLCFGSTAT as a context of group `grp` reads them. -/
def clStat (x : Option Session) (grp : Nat) : W64 :=
  match x with
  | none => 0
  | some x =>
    let own := x.group == grp
    BitVec.ofNat 64 (x.buf.length + 2 ^ 17 * x.runs.length + 2 ^ 22 + (if own then 2 ^ 23 + 2 ^ 24 * x.sealed.toNat + 2 ^ 40 * x.pushed.toNat else 0))

def clCfgStat (x : Option Session) (grp : Nat) : W64 :=
  match x with
  | none => 0
  | some x => if x.group == grp then BitVec.ofNat 64 (x.mask.toNat + 2 ^ 16 * x.kind + 2 ^ 32 * x.spills) else 0

end Sys2Proof.Machine
end

