-- ==== Sys2Proof/Machine/Vector.lean ====
section
/-!
DEFINITION. The vector and predicate operations of the V slot (R140 to R166).
-/
set_option Elab.async false
namespace Sys2Proof.Machine

/-- A vector result landed under the guard's lane mask (R70). -/
def landVec (e : Env) (q : BitVec 1) (d : BitVec 5) (x : Vec) (lat : Nat) (s : State) : Issue :=
  commitCtx e.g fun c => c.landV d x (e.mask s) lat (q == 1)

/-- A vector result that writes every lane, whatever the mask (R142). -/
def landWhole (e : Env) (q : BitVec 1) (d : BitVec 5) (x : Vec) (lat : Nat) : Issue :=
  commitCtx e.g fun c => c.landV d x (BitVec.allOnes 64) lat (q == 1)

/-- A scalar result of the V slot, squashable. -/
def landSq (e : Env) (q : BitVec 1) (d : BitVec 6) (x : W64) (lat : Nat) : Issue :=
  commitCtx e.g fun c => c.land (.s d.toNat) (x.setWidth 2048) (BitVec.allOnes 64) lat (q == 1) none

/-- A lane operation of two vectors. -/
def lanes2 (e : Env) (q : BitVec 1) (d a b : BitVec 5) (op : W32 → W32 → W32) (lat : Nat) (s : State) : Issue :=
  let c := s.ctx e.g
  landVec e q d (vecOf fun i => op (lane (c.v a) i) (lane (c.v b) i)) lat s

/-- A lane operation of one vector. -/
def lanes1 (e : Env) (q : BitVec 1) (d a : BitVec 5) (op : W32 → W32) (lat : Nat) (s : State) : Issue :=
  landVec e q d (vecOf fun i => op (lane ((s.ctx e.g).v a) i)) lat s

/-! ## Integer arithmetic (R145) -/

def satS (x : Int) : W32 := BitVec.ofInt 32 (sat x (-2147483648) 2147483647)
def satU (x : Int) : W32 := BitVec.ofInt 32 (sat x 0 4294967295)

def vaddLane (m : Nat) (a b : W32) : W32 :=
  match m with
  | 0 => a + b
  | 1 => satS (a.toInt + b.toInt)
  | _ => satU ((a.toNat : Int) + b.toNat)
def vsubLane (m : Nat) (a b : W32) : W32 :=
  match m with
  | 0 => a - b
  | 1 => satS (a.toInt - b.toInt)
  | _ => satU ((a.toNat : Int) - b.toNat)
def vmulLane (m : Nat) (a b : W32) : W32 :=
  match m with
  | 0 => a * b
  | 1 => BitVec.ofInt 32 (a.toInt * b.toInt / 2 ^ 32)
  | _ => BitVec.ofNat 32 (a.toNat * b.toNat / 2 ^ 32)
def vminLane (m : Nat) (a b : W32) : W32 := if (if m = 0 then b.slt a else b.ult a) then b else a
def vmaxLane (m : Nat) (a b : W32) : W32 := if (if m = 0 then a.slt b else a.ult b) then b else a
/-- Shifts by `b[7:0]`: 32 and more shift everything out. -/
def vshlLane (a b : W32) : W32 := a <<< (b.toNat % 256)
def vshrLane (a b : W32) : W32 := a >>> (b.toNat % 256)
def vsarLane (a b : W32) : W32 := a.sshiftRight (b.toNat % 256)

def issueVadd (e : Env) (q : BitVec 1) (d a b : BitVec 5) (m : BitVec 6) (s : State) : Issue := lanes2 e q d a b (vaddLane m.toNat) 2 s
def issueVsub (e : Env) (q : BitVec 1) (d a b : BitVec 5) (m : BitVec 6) (s : State) : Issue := lanes2 e q d a b (vsubLane m.toNat) 2 s
def issueVmul (e : Env) (q : BitVec 1) (d a b : BitVec 5) (m : BitVec 6) (s : State) : Issue := lanes2 e q d a b (vmulLane m.toNat) 2 s
def issueVmin (e : Env) (q : BitVec 1) (d a b : BitVec 5) (m : BitVec 6) (s : State) : Issue := lanes2 e q d a b (vminLane m.toNat) 2 s
def issueVmax (e : Env) (q : BitVec 1) (d a b : BitVec 5) (m : BitVec 6) (s : State) : Issue := lanes2 e q d a b (vmaxLane m.toNat) 2 s
def issueVand (e : Env) (q : BitVec 1) (d a b : BitVec 5) (s : State) : Issue := lanes2 e q d a b (· &&& ·) 2 s
def issueVor (e : Env) (q : BitVec 1) (d a b : BitVec 5) (s : State) : Issue := lanes2 e q d a b (· ||| ·) 2 s
def issueVxor (e : Env) (q : BitVec 1) (d a b : BitVec 5) (s : State) : Issue := lanes2 e q d a b (· ^^^ ·) 2 s
def issueVshl (e : Env) (q : BitVec 1) (d a b : BitVec 5) (s : State) : Issue := lanes2 e q d a b vshlLane 2 s
def issueVshr (e : Env) (q : BitVec 1) (d a b : BitVec 5) (s : State) : Issue := lanes2 e q d a b vshrLane 2 s
def issueVsar (e : Env) (q : BitVec 1) (d a b : BitVec 5) (s : State) : Issue := lanes2 e q d a b vsarLane 2 s

/-- The low 32 bits of a scalar source (R140). -/
def Ctx.s32 (c : Ctx) (n : BitVec 6) : W32 := (c.s n).setWidth 32

def issueVadds (e : Env) (q : BitVec 1) (d a : BitVec 5) (n : BitVec 6) (m : BitVec 5) (s : State) : Issue :=
  let b := (s.ctx e.g).s32 n
  if m = 0 then lanes1 e q d a (· + b) 2 s else lanes1 e q d a (fadd · b) 4 s
def issueVmuls (e : Env) (q : BitVec 1) (d a : BitVec 5) (n : BitVec 6) (m : BitVec 5) (s : State) : Issue :=
  let b := (s.ctx e.g).s32 n
  if m = 0 then lanes1 e q d a (· * b) 2 s else lanes1 e q d a (fmul · b) 4 s
def issueVli (e : Env) (q : BitVec 1) (d : BitVec 5) (i : BitVec 11) (s : State) : Issue :=
  landVec e q d (vecOf fun _ => BitVec.ofInt 32 (e.imm11 i)) 2 s

/-! ## Floating point (R146 to R151) -/

def issueVfadd (e : Env) (q : BitVec 1) (d a b : BitVec 5) (s : State) : Issue := lanes2 e q d a b fadd 4 s
def issueVfsub (e : Env) (q : BitVec 1) (d a b : BitVec 5) (s : State) : Issue := lanes2 e q d a b fsub 4 s
def issueVfmul (e : Env) (q : BitVec 1) (d a b : BitVec 5) (s : State) : Issue := lanes2 e q d a b fmul 4 s
def issueVfma (e : Env) (q : BitVec 1) (d a b c : BitVec 5) (m : BitVec 1) (s : State) : Issue :=
  let x := s.ctx e.g
  landVec e q d (vecOf fun i => ffma (m == 1) (lane (x.v a) i) (lane (x.v b) i) (lane (x.v c) i)) 4 s
def issueVfmin (e : Env) (q : BitVec 1) (d a b : BitVec 5) (m : BitVec 6) (s : State) : Issue :=
  lanes2 e q d a b (fminmax false (m == 1)) 4 s
def issueVfmax (e : Env) (q : BitVec 1) (d a b : BitVec 5) (m : BitVec 6) (s : State) : Issue :=
  lanes2 e q d a b (fminmax true (m == 1)) 4 s
def issueVfrcp (e : Env) (q : BitVec 1) (d a : BitVec 5) (s : State) : Issue := lanes1 e q d a frcp 8 s
def issueVfrsq (e : Env) (q : BitVec 1) (d a : BitVec 5) (s : State) : Issue := lanes1 e q d a frsq 8 s
def issueVfexp2 (e : Env) (q : BitVec 1) (d a : BitVec 5) (s : State) : Issue := lanes1 e q d a fexp2 8 s
def issueVflog2 (e : Env) (q : BitVec 1) (d a : BitVec 5) (s : State) : Issue := lanes1 e q d a flog2 8 s
def issueVcvt (e : Env) (q : BitVec 1) (d a : BitVec 5) (m : BitVec 6) (s : State) : Issue := lanes1 e q d a (vcvtLane m.toNat) 4 s

/-! ## Ducat operations (R141, R143, R152 to R154) -/

/-- The element mask: bit 2i of the lane mask governs both lanes of element i (R141). -/
def elemMask (m : W64) : W64 := predOf fun i => bit m (2 * (i / 2))

/-- Cause 0x07 for element `i` (R121). -/
def rangeTrap (above : Bool) (i : Nat) : Stop := .trap 0x07 (BitVec.ofNat 64 (above.toNat + 256 * i))

/-- The lowest element among those acting that left the range. -/
def rangeCheck (act : Nat → Bool) (f : Nat → Except Bool W64) : Chk Unit :=
  match (List.range 32).findSome? fun i => if act i then (match f i with | .error b => some (b, i) | .ok _ => none) else none with
  | some (b, i) => .error (rangeTrap b i)
  | none => .ok ()

/-- A value, or zero where there is none to write. -/
def okOr0 (x : Except Bool W64) : W64 := match x with | .ok y => y | .error _ => 0

/-- A Ducat operation that gives element `i`, under the element mask. -/
def elems (e : Env) (q : BitVec 1) (d : BitVec 5) (f : Nat → Except Bool W64) (s : State) : Issue := do
  let m := elemMask (e.mask s)
  rangeCheck (fun i => bit m (2 * i)) f
  commitCtx e.g fun c => c.landV d (vecOfElems fun i => okOr0 (f i)) m 5 (q == 1)

/-- −y: the sign bit flipped, even of a NaN (R152). -/
def dkNeg (y : W64) : W64 := y ^^^ 0x8000000000000000

def issueVdadd (e : Env) (q : BitVec 1) (d a b : BitVec 5) (m : BitVec 6) (s : State) : Issue :=
  let c := s.ctx e.g
  elems e q d (fun i => dkAdd (elem (c.v a) i) (if m = 0 then elem (c.v b) i else dkNeg (elem (c.v b) i))) s
def issueVdmul (e : Env) (q : BitVec 1) (d a b : BitVec 5) (s : State) : Issue :=
  let c := s.ctx e.g
  elems e q d (fun i => dkMul (elem (c.v a) i) (elem (c.v b) i)) s
def issueVdmax (e : Env) (q : BitVec 1) (d a b : BitVec 5) (m : BitVec 6) (s : State) : Issue :=
  let c := s.ctx e.g
  elems e q d (fun i => .ok (dkMinMax (m == 0) (elem (c.v a) i) (elem (c.v b) i))) s
/-- The scale is the scalar as a signed integer (R154). -/
def issueVdscl (e : Env) (q : BitVec 1) (d a : BitVec 5) (n : BitVec 6) (s : State) : Issue :=
  let c := s.ctx e.g
  elems e q d (fun i => dkScale (elem (c.v a) i) (c.s n).toInt) s

/-- VDCVT (R153): `hi` selects lanes 32 to 63; a narrowing writes the other half as zero under the lane mask. -/
def issueVdcvt (e : Env) (q : BitVec 1) (d a : BitVec 5) (m : BitVec 3) (s : State) : Issue := do
  let v := (s.ctx e.g).v a
  let off := if bit m 2 then 32 else 0
  let mask := e.mask s
  match m.toNat % 4 with
  | 0 => elems e q d (fun i => .ok (dk32Widen (lane v (i + off)))) s
  | 1 =>
    rangeCheck (fun i => bit mask (i + off)) fun i => (dk32Narrow (elem v i)).map fun x => x.setWidth 64
    landVec e q d (vecOf fun l => if off ≤ l ∧ l < off + 32 then
      (match dk32Narrow (elem v (l - off)) with | .ok x => x | .error _ => 0) else 0) 5 s
  | 2 => elems e q d (fun i => .ok (dkOfFp (f32 (lane v (i + off))))) s
  | _ => landVec e q d (vecOf fun l => if off ≤ l ∧ l < off + 32 then toF32 (dkToFp (elem v (l - off))) else 0) 5 s

def issueVfclass (e : Env) (q : BitVec 1) (d a : BitVec 5) (m : BitVec 6) (s : State) : Issue :=
  if m = 0 then lanes1 e q d a fclass32 4 s
  else elems e q d (fun i => .ok ((dkClass (elem ((s.ctx e.g).v a) i)).setWidth 64)) s

/-! ## Moving lanes (R155 to R158) -/

/-- Byte `m` of a vector. -/
def vbyte (v : Vec) (m : Nat) : Nat := (v.extractLsb' (8 * m) 8).toNat

def issueVperm (e : Env) (q : BitVec 1) (d a b : BitVec 5) (m : BitVec 6) (s : State) : Issue :=
  let x := (s.ctx e.g).v a
  let y := (s.ctx e.g).v b
  landVec e q d (if m = 0 then vecOf fun i => if bit (lane y i) 31 then 0 else lane x ((lane y i).toNat % 64)
    else BitVec.ofNat 2048 (packNat 8 (fun i => vbyte x (vbyte y i)) 256)) 2 s

/-- Nibble `n` of a vector, signed with `.s`. -/
def nibble (v : Vec) (n : Nat) (signed : Bool) : Int :=
  let c := v.extractLsb' (4 * n) 4
  if signed then c.toInt else c.toNat

def issueVnib (e : Env) (q : BitVec 1) (d a : BitVec 5) (m : BitVec 5) (s : State) : Issue :=
  let v := (s.ctx e.g).v a
  landVec e q d (vecOf fun i =>
    let c := nibble v (64 * (m.toNat % 8) + i) (bit m 3)
    if bit m 4 then toF32 (ofInt c) else BitVec.ofInt 32 c) 2 s

def issueVshuf (e : Env) (q : BitVec 1) (d a b : BitVec 5) (m : BitVec 6) (s : State) : Issue :=
  let x := (s.ctx e.g).v a
  let y := (s.ctx e.g).v b
  landVec e q d (vecOf fun i =>
    match m.toNat with
    | 0 => if i % 2 = 0 then lane x (i / 2) else lane y (i / 2)
    | 1 => if i % 2 = 0 then lane x (i / 2 + 32) else lane y (i / 2 + 32)
    | 2 => if i < 32 then lane x (2 * i) else lane y (2 * (i - 32))
    | _ => if i < 32 then lane x (2 * i + 1) else lane y (2 * (i - 32) + 1)) 2 s

def issueVbcast (e : Env) (q : BitVec 1) (d : BitVec 5) (n : BitVec 6) (m : BitVec 5) (s : State) : Issue :=
  let x := (s.ctx e.g).s n
  landVec e q d (vecOf fun i => if m = 0 ∨ i % 2 = 0 then bits x 0 32 else bits x 32 32) 2 s

/-- VMOVS acts only if the mask bit of the named lane is 1 (R142). -/
def issueVmovs (e : Env) (q : BitVec 1) (d : BitVec 6) (a : BitVec 5) (l : BitVec 6) (m : BitVec 4) (s : State) : Issue :=
  let v := (s.ctx e.g).v a
  let n := l.toNat
  if bit (e.mask s) n then
    landSq e q d (match m.toNat with
      | 0 => sext64 (lane v n)
      | 1 => zext64 (lane v n)
      | _ => lane v (n + 1) ++ lane v n) 2
  else nothing

def issueVins (e : Env) (q : BitVec 1) (d a : BitVec 5) (n : BitVec 6) (m : BitVec 5) (s : State) : Issue :=
  let v := (s.ctx e.g).v a
  let x := (s.ctx e.g).s n
  landVec e q d (vecOf fun i =>
    match m.toNat with
    | 0 => if i = 0 then bits x 0 32 else lane v (i - 1)
    | 1 => if i = 0 then bits x 0 32 else if i = 1 then bits x 32 32 else lane v (i - 2)
    | 2 => if i = 63 then bits x 0 32 else lane v (i + 1)
    | _ => if i = 62 then bits x 0 32 else if i = 63 then bits x 32 32 else lane v (i + 2)) 2 s

def issueViota (e : Env) (q : BitVec 1) (d : BitVec 5) (m : BitVec 6) (s : State) : Issue :=
  landVec e q d (vecOf fun i => BitVec.ofNat 32 (if m = 0 then i else popNat (e.mask s).toNat i)) 2 s
def issueVmov (e : Env) (q : BitVec 1) (d a : BitVec 5) (s : State) : Issue := lanes1 e q d a id 2 s

/-! ## Reductions and scans (R134, R135, R159) -/

/-- The 32-bit operation and identity of a modifier. -/
def redOp (m : Nat) : (W32 → W32 → W32) × W32 :=
  match m with
  | 0 => ((· + ·), 0)
  | 1 => (fadd, 0x80000000)
  | 2 => (vmaxLane 0, 0x80000000)
  | 3 => (vminLane 0, 0x7FFFFFFF)
  | 4 => (fminmax true false, 0xFF800000)
  | _ => (fminmax false false, 0x7F800000)

/-- Ducat addition or maximum over values that may have left the range. A range fault carries how many levels it lies back: the
earliest level counts, and in it the lower index (R134; log 29). -/
def redDk (m : Nat) (x y : Except (Nat × Bool) W64) : Except (Nat × Bool) W64 :=
  match x, y with
  | .ok a, .ok b => if m = 6 then (dkAdd a b).mapError fun hi => (0, hi) else .ok (dkMax a b)
  | .error a, .error b => if a.1 < b.1 then .error (b.1 + 1, b.2) else .error (a.1 + 1, a.2)
  | .error a, .ok _ => .error (a.1 + 1, a.2)
  | .ok _, .error b => .error (b.1 + 1, b.2)

/-- Elements that enter a reduction: excluded lanes as the identity. -/
def redLanes (m : Nat) (mask : W64) (v : Vec) : List W32 :=
  (List.range 64).map fun i => if bit mask i then lane v i else (redOp m).2
def redElems (m : Nat) (mask : W64) (v : Vec) : List (Except (Nat × Bool) W64) :=
  (List.range 32).map fun i => .ok (if bit mask (2 * i) then elem v i
    else if m = 6 then dkNegZero else 0xC000000000000001)

def issueVred (e : Env) (q : BitVec 1) (d a : BitVec 5) (m : BitVec 6) (s : State) : Issue :=
  let v := (s.ctx e.g).v a
  if m.toNat ≤ 5 then
    landWhole e q d ((treeFold (redOp m.toNat).1 6 (redLanes m.toNat (e.mask s) v)).headD 0 |>.setWidth 2048) 6
  else match (treeFold (redDk m.toNat) 5 (redElems m.toNat (e.mask s) v)).headD (.ok 0) with
    | .ok x => landWhole e q d (x.setWidth 2048) 6
    | .error b => .error (rangeTrap b.2 0)

def issueVscan (e : Env) (q : BitVec 1) (d a : BitVec 5) (m : BitVec 6) (s : State) : Issue := do
  let v := (s.ctx e.g).v a
  if m.toNat ≤ 5 then
    let r := scanFold (redOp m.toNat).1 6 1 (redLanes m.toNat (e.mask s) v)
    landWhole e q d (vecOf fun i => r.getD i 0) 6
  else
    let r := scanFold (redDk m.toNat) 5 1 (redElems m.toNat (e.mask s) v)
    let x (i : Nat) : Except Bool W64 := (r.getD i (.ok 0)).mapError (·.2)
    rangeCheck (fun _ => true) x
    landWhole e q d (vecOfElems fun i => okOr0 (x i)) 6

/-! ## Compares and predicates (R160 to R163) -/

def vcmpRel (cc : Nat) (a b : W32) : Bool :=
  match cc with
  | 0 => a == b
  | 1 => a != b
  | 2 => a.slt b
  | 3 => a.sle b
  | 4 => a.ult b
  | 5 => a.ule b
  | 6 => a &&& b != 0
  | _ => a &&& b == 0

/-- Every bit of a predicate landed (R142). -/
def landPred (e : Env) (q : BitVec 1) (p : BitVec 7) (x : W64) (lat : Nat) : Issue :=
  commitCtx e.g fun c => c.landP p x (BitVec.allOnes 64) lat (q == 1)

def issueVcmp (e : Env) (q : BitVec 1) (p : BitVec 7) (a b : BitVec 5) (c : BitVec 4) (s : State) : Issue :=
  let x := (s.ctx e.g).v a
  let y := (s.ctx e.g).v b
  landPred e q p (predOf fun i => bit (e.mask s) i && vcmpRel c.toNat (lane x i) (lane y i)) 2
def issueVfcmp (e : Env) (q : BitVec 1) (p : BitVec 7) (a b : BitVec 5) (c : BitVec 4) (s : State) : Issue :=
  let x := (s.ctx e.g).v a
  let y := (s.ctx e.g).v b
  if c.toNat < 8 then landPred e q p (predOf fun i => bit (e.mask s) i && fcmp32 c.toNat (lane x i) (lane y i)) 4
  else landPred e q p (predOf fun i => bit (elemMask (e.mask s)) i && dkRel (c.toNat - 8) (elem x (i / 2)) (elem y (i / 2))) 5

/-- A bitwise operation of two predicates, per bit under the mask (R162). -/
def pred2 (e : Env) (q : BitVec 1) (p a b : BitVec 7) (op : W64 → W64 → W64) (s : State) : Issue :=
  let c := s.ctx e.g
  commitCtx e.g fun x => x.landP p (op (c.p a.toNat) (c.p b.toNat)) (e.mask s) 1 (q == 1)
def issuePand (e : Env) (q : BitVec 1) (p a b : BitVec 7) (s : State) : Issue := pred2 e q p a b (· &&& ·) s
def issuePor (e : Env) (q : BitVec 1) (p a b : BitVec 7) (s : State) : Issue := pred2 e q p a b (· ||| ·) s
def issuePxor (e : Env) (q : BitVec 1) (p a b : BitVec 7) (s : State) : Issue := pred2 e q p a b (· ^^^ ·) s
def issuePandn (e : Env) (q : BitVec 1) (p a b : BitVec 7) (s : State) : Issue := pred2 e q p a b (fun x y => x &&& ~~~y) s

/-- Count, lowest or highest set bit (R163). -/
def pcntVal (m : Nat) (x : W64) : Nat :=
  match m with
  | 0 => popNat x.toNat 64
  | 1 => (leastFrom (fun i => bit x i) 0 64).getD 64
  | _ => (greatestBelow (fun i => bit x i) 64).getD 64
def issuePcnt (e : Env) (q : BitVec 1) (d : BitVec 6) (a : BitVec 7) (m : BitVec 8) (s : State) : Issue :=
  landSq e q d (BitVec.ofNat 64 (pcntVal m.toNat ((s.ctx e.g).p a.toNat &&& e.mask s))) 1

/-! ## Quantise, dequantise, generator (R164 to R166) -/

/-- The scale entry of a lane: FP16 scale and INT8 zero point (R132). -/
def scaleOf (w : W32) : FpVal := fp16.decode (w.toNat % 65536)
def zeroPoint (w : W32) : Int := (bits w 16 8).toInt

/-- VQDEQ of one lane (R164). -/
def vqdeqLane (q4 : Bool) (code entry : W32) : W32 :=
  let q : Int := if q4 then (bits code 0 4).toNat else (bits code 0 8).toInt
  match scaleOf entry with
  | .nan n => if n then 0xFFC00000 else canonNan32
  | sc => match sc.mul (ofInt (q - zeroPoint entry)) with
    | .nan _ => canonNan32
    | v => toF32 v

/-- An exact quotient rounded to an integer, ties to even. -/
def quotEven (n d : Nat) : Nat := if d < 2 * (n % d) ∨ (2 * (n % d) = d ∧ n / d % 2 = 1) then n / d + 1 else n / d

/-- VQNT of one lane (R165). -/
def vqntLane (q4 : Bool) (x entry : W32) : W32 :=
  let z := zeroPoint entry
  let q : Int :=
    match f32 x, scaleOf entry with
    | .nan _, _ => z
    | _, .nan _ => z
    | _, .inf _ => z
    | .inf a, .fin b m _ => if m = 0 then z else if a = b then 2 ^ 31 else -2 ^ 31
    | .fin a m e, .fin b n f =>
      if n = 0 then z
      else
        let r : Int := if f ≤ e then quotEven (m * 2 ^ (e - f).toNat) n else quotEven m (n * 2 ^ (f - e).toNat)
        (if a = b then r else -r) + z
  if q4 then BitVec.ofInt 32 (sat q 0 15) else BitVec.ofInt 32 (sat q (-128) 127)

def issueVqdeq (e : Env) (q : BitVec 1) (d a b : BitVec 5) (m : BitVec 2) (s : State) : Issue :=
  let c := s.ctx e.g
  landVec e q d (vecOf fun i => vqdeqLane (bit m 0) (lane (c.v a) i) (lane (c.v b) (if bit m 1 then i else 0))) 4 s
def issueVqnt (e : Env) (q : BitVec 1) (d a b : BitVec 5) (m : BitVec 2) (s : State) : Issue :=
  let c := s.ctx e.g
  landVec e q d (vecOf fun i => vqntLane (bit m 0) (lane (c.v a) i) (lane (c.v b) (if bit m 1 then i else 0))) 4 s
def issueVrng (e : Env) (q : BitVec 1) (d a b : BitVec 5) (m : BitVec 6) (s : State) : Issue :=
  let c := s.ctx e.g
  lanes2 e q d a b (fun x y => let r := rng c.rngkey x y; if m = 0 then r.1 else r.2) 2 s

end Sys2Proof.Machine
end

