-- ==== Sys2Proof/Machine/LoadStore.lean ====
section
/-!
DEFINITION. Scalar and vector loads and stores, and the atomics (R281 to R287, R293 to R295).
-/
set_option Elab.async false
namespace Sys2Proof.Machine

/-- Latency of a load by the window it reads (R283). -/
def Sector.latency (x : Sector) : Nat :=
  match x.place with
  | .csram .. => 12
  | _ => 4

/-! ## Scalar forms (R285, R286) -/

/-- The address of an MA form. -/
def maAddr (e : Env) (b : BitVec 6) (off : BitVec 5) (size : Nat) (s : State) : Nat := addrOff ((s.ctx e.g).s b) (e.off5 off * size)

/-- What a load does when its bundle commits: the frame is touched, and results land. -/
def loaded (g : Nat) (l : List Sector) (f : Ctx → Ctx) : Issue := commit fun s => (touchRead l s).modCtx g f

/-- A load of `size` bytes, extended by `ext`; a poisoned sector goes with the result (R281). -/
def loadS (e : Env) (q : BitVec 1) (d b : BitVec 6) (oc : BitVec 4) (off : BitVec 5) (size : Nat) (ext : Nat → W64) (s : State) :
    Issue := do
  let x ← access1 s e.g (maAddr e b off size s) size .r oc.toNat
  inOrder s e.g oc.toNat [x]
  let v := ext (leNat (readPlace s x.place size))
  loaded e.g [x] fun c =>
    c.land (.s d.toNat) (v.setWidth 2048) (BitVec.allOnes 64) x.latency (q == 1) (poisonAt s x.place size)

/-- A store of the low `size` bytes of a register. -/
def storeS (e : Env) (d b : BitVec 6) (oc : BitVec 4) (off : BitVec 5) (size : Nat) (s : State) : Issue := do
  let x ← access1 s e.g (maAddr e b off size s) size .w oc.toNat
  storeInOrder s e.g [x]
  let bs := leBytes size ((s.ctx e.g).s d).toNat
  commit (putStores e.g oc.toNat [(x.place, bs)])

def zextLoad (x : Nat) : W64 := BitVec.ofNat 64 x
def sextLoad (w : Nat) (x : Nat) : W64 := (BitVec.ofNat w x).signExtend 64

def issueLdd (e : Env) (q : BitVec 1) (d b : BitVec 6) (c : BitVec 4) (f : BitVec 5) (s : State) : Issue :=
  loadS e q d b c f 8 zextLoad s
def issueLdw (e : Env) (q : BitVec 1) (d b : BitVec 6) (c : BitVec 4) (f : BitVec 5) (s : State) : Issue :=
  loadS e q d b c f 4 (sextLoad 32) s
def issueLdwu (e : Env) (q : BitVec 1) (d b : BitVec 6) (c : BitVec 4) (f : BitVec 5) (s : State) : Issue :=
  loadS e q d b c f 4 zextLoad s
def issueLdh (e : Env) (q : BitVec 1) (d b : BitVec 6) (c : BitVec 4) (f : BitVec 5) (s : State) : Issue :=
  loadS e q d b c f 2 (sextLoad 16) s
def issueLdhu (e : Env) (q : BitVec 1) (d b : BitVec 6) (c : BitVec 4) (f : BitVec 5) (s : State) : Issue :=
  loadS e q d b c f 2 zextLoad s
def issueLdb (e : Env) (q : BitVec 1) (d b : BitVec 6) (c : BitVec 4) (f : BitVec 5) (s : State) : Issue :=
  loadS e q d b c f 1 (sextLoad 8) s
def issueLdbu (e : Env) (q : BitVec 1) (d b : BitVec 6) (c : BitVec 4) (f : BitVec 5) (s : State) : Issue :=
  loadS e q d b c f 1 zextLoad s

def issueStd (e : Env) (d b : BitVec 6) (c : BitVec 4) (f : BitVec 5) (s : State) : Issue := storeS e d b c f 8 s
def issueStw (e : Env) (d b : BitVec 6) (c : BitVec 4) (f : BitVec 5) (s : State) : Issue := storeS e d b c f 4 s
def issueSth (e : Env) (d b : BitVec 6) (c : BitVec 4) (f : BitVec 5) (s : State) : Issue := storeS e d b c f 2 s
def issueStb (e : Env) (d b : BitVec 6) (c : BitVec 4) (f : BitVec 5) (s : State) : Issue := storeS e d b c f 1 s

/-- LDDP: a doubleword at the base, which then moves by the offset (R286). -/
def issueLddp (e : Env) (q : BitVec 1) (d b : BitVec 6) (oc : BitVec 4) (f : BitVec 5) (s : State) : Issue := do
  let base := (s.ctx e.g).s b
  let x ← access1 s e.g base.toNat 8 .r oc.toNat
  inOrder s e.g oc.toNat [x]
  let v := zextLoad (leNat (readPlace s x.place 8))
  loaded e.g [x] fun c =>
    (c.land (.s d.toNat) (v.setWidth 2048) (BitVec.allOnes 64) x.latency (q == 1) (poisonAt s x.place 8)).land
      (.s b.toNat) ((addOff base (e.off5 f * 8)).setWidth 2048) (BitVec.allOnes 64) 1 (q == 1) none

/-! ## Vector forms (R287) -/

/-- Lanes of sector `k` of a vector access that the mask admits. -/
def sectorLanes (m : W64) (k : Nat) : List Nat := (List.range 16).filter fun i => bit m (16 * k + i)

/-- The sectors of a vector access that hold an active lane. -/
def vecSectors (m : W64) : List Nat := [0, 1, 2, 3].filter fun k => !(sectorLanes m k).isEmpty

/-- The address of sector `n` of a vector access at `base + off`, exact like every address (R7), and a number that grows with it. -/
def vecAddr (base : W64) (off : Int) (n : Nat) : Nat := addrOff base (off + 64 * n)
def vecKey (base : W64) (off : Int) (n : Nat) : Nat := (2 ^ 64 + base.toNat + off + 64 * n).toNat

/-- Each of those sectors translated, with its number. Rights inside the Mint window and pending tags are those of the active lanes'
words (R205, R386). -/
def vecAccess (e : Env) (base : W64) (off : Int) (k : Right) (oc : BitVec 4) (s : State) : Chk (List (Nat × Sector)) := do
  let va := vecAddr base off 0
  aligned va 64
  let m := e.mask s
  let ks := vecSectors m
  let rs := ks.map fun n => (vecKey base off n, xlateParts s e.g (vecAddr base off n) 64 ((sectorLanes m n).map fun i => (4 * i, 4)) k oc.toNat)
  let tag (x : Sector) : Bool := match x.place with
    | .scratch g off => (sectorLanes m ((x.va - va) / 64)).any fun i => (s.ctx g).tagged (off + 4 * i) 4
    | _ => false
  let l ← checkSectors rs tag anyClass
  .ok (ks.zip l)

/-- The vector whose sectors are given; lanes of the others are zero. -/
def vecOfSectors (s : State) (l : List (Nat × Sector)) : Vec :=
  BitVec.ofNat 2048 (l.foldl (fun n x => n + 2 ^ (512 * x.1) * leNat (readPlace s x.2.place 64)) 0)

/-- The offset of an MV form. -/
def mvOff (e : Env) (f : BitVec 6) : Int := e.off6 f * 256
/-- The base as VLDP and VSTP move it. -/
def mvBase (e : Env) (b : BitVec 6) (f : BitVec 6) (s : State) : W64 := addOff ((s.ctx e.g).s b) (mvOff e f)

/-- Active lanes of the sectors loaded into a vector. -/
def landVld (e : Env) (q : BitVec 1) (d : BitVec 5) (l : List (Nat × Sector)) (s : State) (c : Ctx) : Ctx :=
  c.land (.v d.toNat) (vecOfSectors s l) (e.mask s) ((l.map fun x => x.2.latency).headD 4) (q == 1) (poisonOf s (l.map (·.2)))

/-- Active lanes of a vector as stores: a whole sector at once where every lane of it is active. -/
def storeLanes (m : W64) (v : Vec) (l : List (Nat × Sector)) : List (Place × List Byte) :=
  l.flatMap fun x =>
    let bytes (i : Nat) : List Byte := leBytes 4 (lane v (16 * x.1 + i)).toNat
    let ls := sectorLanes m x.1
    if ls.length = 16 then [(x.2.place, ls.flatMap bytes)] else ls.map fun i => (x.2.place.plus (4 * i), bytes i)

def issueVld (e : Env) (q : BitVec 1) (d : BitVec 5) (b : BitVec 6) (oc : BitVec 4) (f : BitVec 6) (s : State) : Issue := do
  let l ← vecAccess e ((s.ctx e.g).s b) (mvOff e f) .r oc s
  inOrder s e.g oc.toNat (l.map (·.2))
  loaded e.g (l.map (·.2)) (landVld e q d l s)
def issueVst (e : Env) (d : BitVec 5) (b : BitVec 6) (oc : BitVec 4) (f : BitVec 6) (s : State) : Issue := do
  let l ← vecAccess e ((s.ctx e.g).s b) (mvOff e f) .w oc s
  storeInOrder s e.g (l.map (·.2))
  commit (putStores e.g oc.toNat (storeLanes (e.mask s) ((s.ctx e.g).v d) l))
/-- VLDP and VSTP access at the base, which then moves by the offset. -/
def issueVldp (e : Env) (q : BitVec 1) (d : BitVec 5) (b : BitVec 6) (oc : BitVec 4) (f : BitVec 6) (s : State) : Issue := do
  let l ← vecAccess e ((s.ctx e.g).s b) 0 .r oc s
  inOrder s e.g oc.toNat (l.map (·.2))
  loaded e.g (l.map (·.2)) fun c =>
    (landVld e q d l s c).land (.s b.toNat) ((mvBase e b f s).setWidth 2048) (BitVec.allOnes 64) 1 (q == 1) none
def issueVstp (e : Env) (d : BitVec 5) (b : BitVec 6) (oc : BitVec 4) (f : BitVec 6) (s : State) : Issue := do
  let l ← vecAccess e ((s.ctx e.g).s b) 0 .w oc s
  storeInOrder s e.g (l.map (·.2))
  commit fun t => (putStores e.g oc.toNat (storeLanes (e.mask s) ((s.ctx e.g).v d) l) t).modCtx e.g fun c => c.landS b (mvBase e b f s) 1

/-! ## Atomics (R293 to R295) -/

/-- The class of an SC frame is not allowed. -/
def scClass (c : Option Nat) : Bool := c == some 1

/-- An atomic's `ord` asks for release order: 2 and 3 (R255). -/
def releases (ord : BitVec 3) : Bool := bit ord 1

/-- An atomic: `op` gives the new value from the old, or leaves the Ducat range; `res` what `sd` takes. It performs in the order of its
class, as a release after everything earlier (R255). Its own fates come after every other check of the bundle (R294). -/
def atomic (e : Env) (d b : BitVec 6) (ord : BitVec 3) (size : Nat) (op : Nat → Except Bool Nat) (res : Nat → W64) (s : State) :
    Issue := do
  let va := ((s.ctx e.g).s b).toNat
  aligned va size
  match ← access s e.g [(va, size)] .a 15 scClass with
  | x :: _ =>
    inOrder s e.g 15 [x]
    if releases ord then afterAll s e.g else .ok ()
    match poisonAt s x.place size with
    | some info => .error (.late 0x14 info)
    | none =>
      let old := leNat (readPlace s x.place size)
      match op old with
      | .error hi => .error (.late 0x07 (BitVec.ofNat 64 hi.toNat))
      | .ok new => commit fun s => (writePlace x.place (leBytes size new) s).modCtx e.g fun c => c.landS d (res old) 1
  | [] => nothing

/-- A 64-bit operation of the old value and `sS`. -/
def atomic64 (e : Env) (d b r : BitVec 6) (ord : BitVec 3) (op : W64 → W64 → Except Bool W64) (s : State) : Issue :=
  let v := (s.ctx e.g).s r
  atomic e d b ord 8 (fun old => (op (BitVec.ofNat 64 old) v).map (·.toNat)) (BitVec.ofNat 64 ·) s

/-- A 32-bit operation of the old value and `sS[31:0]`. -/
def atomic32 (e : Env) (d b r : BitVec 6) (ord : BitVec 3) (op : W32 → W32 → W32) (res : Nat → W64) (s : State) : Issue :=
  let v : W32 := ((s.ctx e.g).s r).setWidth 32
  atomic e d b ord 4 (fun old => .ok (op (BitVec.ofNat 32 old) v).toNat) res s

def issueAadd (e : Env) (d b r : BitVec 6) (ord : BitVec 3) (s : State) : Issue := atomic64 e d b r ord (fun o v => .ok (o + v)) s
def issueAaddw (e : Env) (d b r : BitVec 6) (ord : BitVec 3) (s : State) : Issue := atomic32 e d b r ord (· + ·) (sextLoad 32) s
def issueAfadd (e : Env) (d b r : BitVec 6) (ord : BitVec 3) (s : State) : Issue := atomic32 e d b r ord fadd zextLoad s
def issueAdadd (e : Env) (d b r : BitVec 6) (ord : BitVec 3) (s : State) : Issue := atomic64 e d b r ord dkAdd s
def issueAmax (e : Env) (d b r : BitVec 6) (ord : BitVec 3) (s : State) : Issue :=
  atomic64 e d b r ord (fun o v => .ok (if o.slt v then v else o)) s
def issueAmin (e : Env) (d b r : BitVec 6) (ord : BitVec 3) (s : State) : Issue :=
  atomic64 e d b r ord (fun o v => .ok (if v.slt o then v else o)) s
def issueAor (e : Env) (d b r : BitVec 6) (ord : BitVec 3) (s : State) : Issue := atomic64 e d b r ord (fun o v => .ok (o ||| v)) s
def issueAand (e : Env) (d b r : BitVec 6) (ord : BitVec 3) (s : State) : Issue := atomic64 e d b r ord (fun o v => .ok (o &&& v)) s
def issueAxchg (e : Env) (d b r : BitVec 6) (ord : BitVec 3) (s : State) : Issue := atomic64 e d b r ord (fun _ v => .ok v) s
/-- ACAS: `sS` if the old value is `sD`, which then takes the old value. -/
def issueAcas (e : Env) (d b r : BitVec 6) (ord : BitVec 3) (s : State) : Issue :=
  let expect := (s.ctx e.g).s d
  atomic64 e d b r ord (fun o v => .ok (if o = expect then v else o)) s

end Sys2Proof.Machine
end

