-- ==== Sys2Proof/Machine/Bulk.lean ====
section
/-!
DEFINITION. Bulk operations and what waits for them: tile transfers (R288 to R292), copies and streams (R300 to R305), fences,
SBAR and WAITM (R296 to R299), range operations and handles (R306, R307).
-/
set_option Elab.async false
namespace Sys2Proof.Machine

/-! ## Tile transfers: rows in memory (R289) -/

/-- S: the stride, or the row length. -/
def Hdr.pitch (h : Hdr) : Nat := if h.stride = 0 then h.rowLen else h.stride

/-- The limits on the stride, then on the base. -/
def rowLimits (h : Hdr) (base : W64) : Chk Unit := do
  Chk.need (decide (h.rowLen ≤ h.pitch) && h.pitch % h.unit == 0) (.trap 0x0D 0x14)
  Chk.need (base.toNat % h.unit == 0) (.trap 0x06 base)

/-- Sectors of memory row `v`; addresses are not narrowed (R7). -/
def Hdr.rowPieces (h : Hdr) (base : W64) (v : Nat) : List (Nat × Nat) := pieces (base.toNat + v * h.pitch) h.rowLen

/-- Lists of the given lengths, cut from one list. -/
def cutList {α : Type} : List Nat → List α → List (List α)
  | [], _ => []
  | n :: ns, l => l.take n :: cutList ns (l.drop n)

/-- The sectors of each memory row, every row translated; a hole has none. -/
def rowAccess (e : Env) (h : Hdr) (base : W64) (vs : List (Option Nat)) (k : Right) (oc : Nat) (s : State) :
    Chk (List (Option (List Sector))) := do
  let ps := vs.map fun v => match v with | some v => h.rowPieces base v | none => []
  let l ← access s e.g ps.flatten k oc anyClass
  .ok ((vs.zip (cutList (ps.map (·.length)) l)).map fun x => x.1.map fun _ => x.2)

/-- Whether each byte of the sectors lies in a poisoned sector. -/
def bytePoison (s : State) (l : List Sector) : List Bool :=
  l.flatMap fun x => (List.range x.n).map fun i => (poisonAt s (x.place.plus i) 1).isSome

/-- A row as the value of its bytes and, when it holds poison, its poisoned bytes. -/
def readRow (s : State) (l : List Sector) : Nat × List Bool :=
  (leNat (readSectors s l), if (poisonOf s l).isSome then bytePoison s l else [])

/-- Element `n` of a row read; an element from a poisoned sector is the format's zero (R442). -/
def Hdr.rowElem (h : Hdr) (r : Nat × List Bool) (n : Nat) : Nat :=
  let w := fmtBits h.fmt
  if ((r.2.drop (w * n / 8)).take (max 1 (w / 8))).any id then fmtZero h.fmt else r.1 / 2 ^ (w * n) % 2 ^ w

/-- The bytes of view row `m`. -/
def Hdr.rowBytes (h : Hdr) (d : TileBits) (m : Nat) : List Byte :=
  leBytes h.rowLen (packNat (fmtBits h.fmt) (fun n => h.get d m n) h.cols)

/-- The place of byte `off` of a row. -/
def placeAt : List Sector → Nat → Option Place
  | [], _ => none
  | x :: l, off => if off < x.n then some (x.place.plus off) else placeAt l (off - x.n)

/-- A transfer of the core's queue of 8 (R288), numbered in program order. -/
def xferJob (e : Env) (oc : Nat) (writes : List (Nat × BitVec 3)) (poison : List W64) (rows : List (Option (List Sector))) (s : State) :
    State :=
  let j : Job := { ctx := e.g, op := 0, oc := oc, writes := writes, poison := poison, seq := (s.ctx e.g).memSeq,
                   frames := framesOf (rows.flatMap (·.getD [])) }
  (s.modCore (coreOf e.g) fun k => { k with xferQ := k.xferQ ++ [j] }).modCtx e.g (·.nextSeq)

/-- A transfer has its queue entry, and starts in its order (R257, R288). -/
def xferRoom (e : Env) (oc : Nat) (rows : List (Option (List Sector))) (s : State) : Chk Unit := do
  queueRoom (s.core (coreOf e.g)).xferQ 8
  inOrder s e.g oc (rows.flatMap (·.getD []))

/-- Rows of memory into a tile: TLD and TGATH (R290, R291), every byte as it stands, bits 63:40 of an FP32G element too (log 54). -/
def loadRows (e : Env) (slot : Nat) (h : Hdr) (oc : Nat) (rows : List (Option (List Sector))) (s : State) : Issue := do
  xferRoom e oc rows s
  ownSlot s e.g slot
  let rs := rows.map fun r => r.map (readRow s)
  let data := h.fill (s.tile (coreOf e.g) slot).data fun m n => match (rs.getD m none) with
    | some r => h.rowElem r n
    | none => fmtZero h.fmt
  let st := h.status data false
  let secs := rows.flatMap (·.getD [])
  commit fun s => xferJob e oc [(slot, st)] (poisonsOf s secs) rows (touchRead secs (s.modTile (coreOf e.g) slot (·.write h.sectors data st)))

/-- What is stored from poisoned sectors of a tile slot: the sector and the place its element, or its part of a wide one, goes to. -/
def poisonedElems (t : Tile) (h : Hdr) (rows : List (Option (List Sector))) : List (Nat × Place) :=
  (List.range h.count).flatMap fun k =>
    match rows.getD (k / h.cols) none with
    | none => []
    | some l => (elemSectors h.fmt (h.index (k / h.cols) (k % h.cols))).zipIdx.filterMap fun x =>
        if t.poison.contains x.1 then (placeAt l (fmtBits h.fmt * (k % h.cols) / 8 + 64 * x.2)).map (x.1, ·) else none

/-- Poison of a tile slot goes with the elements stored or added; each poisoned sector read is one consumption (R441, R442, R444). -/
def storePoison (e : Env) (slot : Nat) (t : Tile) (h : Hdr) (rows : List (Option (List Sector))) (s : State) : State :=
  if t.poison.isEmpty then s
  else
    let l := poisonedElems t h rows
    let s := l.foldl (fun s x => poisonPlace x.2 (min 64 (max 1 (fmtBits h.fmt / 8))) s) s
    (l.map (·.1)).dedup.foldl (fun s p => consumed e.g (tileInfo slot p) s) s

/-- Rows of a tile into memory: TST and TSCAT, later rows over earlier ones. -/
def storeRows (e : Env) (slot : Nat) (h : Hdr) (oc : Nat) (rows : List (Option (List Sector))) (s : State) : Issue := do
  xferRoom e oc rows s
  let t := s.tile (coreOf e.g) slot
  commit fun s =>
    let s := (List.range h.rows).foldl (fun s m => match rows.getD m none with
      | some l => writeSectors l (h.rowBytes t.data m) s
      | none => s) s
    xferJob e oc [] [] rows (storePoison e slot t h rows s)

/-- All rows of the view in order. -/
def Hdr.allRows (h : Hdr) : List (Option Nat) := (List.range h.rows).map some

def issueTld (e : Env) (t : BitVec 5) (b : BitVec 6) (oc : BitVec 4) (s : State) : Issue := do
  let (slot, h) ← tileOperand s e.g t
  let base := (s.ctx e.g).s b
  rowLimits h base
  let rows ← rowAccess e h base h.allRows .r oc.toNat s
  loadRows e slot h oc.toNat rows s

def issueTst (e : Env) (t : BitVec 5) (b : BitVec 6) (oc : BitVec 4) (s : State) : Issue := do
  let (slot, h) ← tileOperand s e.g t
  let base := (s.ctx e.g).s b
  rowLimits h base
  let rows ← rowAccess e h base h.allRows .w oc.toNat s
  let _ ← fullTile s e.g slot
  storeRows e slot h oc.toNat rows s

/-- The checks of a data tile and an index tile, and the memory row of each view row (R291). An index entry from a poisoned sector is cause
0x14 before commit (R426; log 27). -/
def indexedRows (e : Env) (t i : BitVec 5) (b : BitVec 6) (v : BitVec 1) (fmtOk : Nat → Bool) (s : State) :
    Chk (Nat × Hdr × List (Option Nat)) := do
  let l ← tileOperands s e.g [t.toNat, i.toNat]
  match l with
  | [(st, ht), (si, hi)] =>
    Chk.need (fmtOk ht.fmt && (hi.fmt == 12 || (hi.fmt == 11 && v == 0))) (.trap 0x0D 0x13)
    Chk.need (decide (ht.rows ≤ hi.count)) (.trap 0x0D 0x14)
    rowLimits ht ((s.ctx e.g).s b)
    let d ← cleanSectors s e.g si (viewSectors hi ht.rows)
    let idx (m : Nat) : Nat := (if v = 1 then hi.getRow d m / 2 ^ 32 else hi.getRow d m) % 2 ^ 32
    .ok (st, ht, (List.range ht.rows).map fun m => if idx m = 0xFFFFFFFF then none else some (idx m))
  | _ => .error .early

def issueTgath (e : Env) (t : BitVec 5) (b : BitVec 6) (oc : BitVec 4) (i : BitVec 5) (v : BitVec 1) (s : State) : Issue := do
  let (slot, h, vs) ← indexedRows e t i b v (fun _ => true) s
  let rows ← rowAccess e h ((s.ctx e.g).s b) vs .r oc.toNat s
  loadRows e slot h oc.toNat rows s

def issueTscat (e : Env) (t : BitVec 5) (b : BitVec 6) (oc : BitVec 4) (i : BitVec 5) (v : BitVec 1) (s : State) : Issue := do
  let (slot, h, vs) ← indexedRows e t i b v (fun _ => true) s
  let rows ← rowAccess e h ((s.ctx e.g).s b) vs .w oc.toNat s
  let _ ← fullTile s e.g slot
  storeRows e slot h oc.toNat rows s

/-- One addition near memory (R292): no addition into a poisoned element (R442). -/
def addElem (e : Env) (fmt x : Nat) (p : Place) (s : State) : State :=
  match poisonAt s p 4 with
  | some info => consumed e.g info s
  | none =>
    let old : W32 := BitVec.ofNat 32 (leNat (readPlace s p 4))
    let new := if fmt = 0 then fadd old (BitVec.ofNat 32 x) else old + BitVec.ofNat 32 x
    writePlace p (leBytes 4 new.toNat) s

/-- The additions of TSCADD, rows in ascending order (R292). An element of a poisoned sector of the tile adds nothing: its destination
becomes poisoned (R441; log 27). -/
def addRows (e : Env) (h : Hdr) (t : Tile) (d : TileBits) (rows : List (Option (List Sector))) (s : State) : State :=
  (List.range h.count).foldl (fun s k =>
    match (rows.getD (k / h.cols) none).bind (placeAt · (4 * (k % h.cols))) with
    | some p =>
      if (elemSectors h.fmt (h.index (k / h.cols) (k % h.cols))).any t.poison.contains then s else addElem e h.fmt (h.getRow d k) p s
    | none => s) s

def issueTscadd (e : Env) (t : BitVec 5) (b : BitVec 6) (oc : BitVec 4) (i : BitVec 5) (v : BitVec 1) (s : State) : Issue := do
  let (slot, h, vs) ← indexedRows e t i b v (fun f => f == 0 || f == 5 || f == 11) s
  let rows ← rowAccess e h ((s.ctx e.g).s b) vs .a oc.toNat s
  let d ← fullTile s e.g slot
  xferRoom e oc.toNat rows s
  let t := s.tile (coreOf e.g) slot
  commit fun s => xferJob e oc.toNat [] [] rows (storePoison e slot t h rows (addRows e h t d rows s))

/-! ## Copies (R300, R301) -/

/-- LEN and OC of the length register. -/
def copyLen (r : W64) : Nat := (bits r 0 27).toNat
def copyClass (r : W64) : Nat := (bits r 60 4).toNat

/-- The limits of the length register. -/
def copyLimits (r : W64) : Chk Unit :=
  Chk.need (copyLen r % 64 == 0 && decide (0 < copyLen r ∧ copyLen r ≤ 2 ^ 26) && bits r 27 33 == 0) (.trap 0x06 r)

/-- The cluster's engine holds 32 copies (R301). -/
def copyRoom (s : State) (g : Nat) : Chk Unit :=
  Chk.need ((s.cluster (clusterOf g)).copies.length < 32) (.block .fullQueue)

/-- The channel a copy is queued on: a free choice among those that run (R18, R301; log 53). -/
def State.copyChannel (s : State) (cl : Nat) : Nat :=
  let first := (Config.copyChannel s.tick).val
  (((List.range 8).map fun i => (first + i) % 8).find? fun ch => !(s.cluster cl).frozenChannels.contains ch).getD first

/-- A copy joins its channel, numbered in program order. -/
def addCopy (g oc : Nat) (q : Option Nat) (ch : Nat) (l : List Sector) (s : State) : State :=
  let j : CopyJob := { ctx := g, oc := oc, stream := q, channel := ch, seq := (s.ctx g).memSeq, frames := framesOf l }
  ((s.modCluster (clusterOf g) fun c => { c with copies := c.copies ++ [j] }).modCtx g (·.nextSeq)).bump

/-- The sector lies in an open Clearing session's spill area (R225). -/
def Sector.spilled (s : State) (x : Sector) : Option Nat :=
  match x.place with
  | .dp base _ off => if spillAt s (base + off) then some (base + off) else none
  | _ => none

/-- Channel `ch` moves sectors: bytes with their poison. It stops for good at a sector of an open spill area, or when it is frozen (R392,
R393, R420). -/
def copySectors (g ch : Nat) : List ((List Byte × Option W64) × Sector) → State → State
  | [], s => s
  | x :: l, s =>
    if (s.cluster (clusterOf g)).frozenChannels.contains ch then s
    else match x.2.spilled s with
      | some pa => freezeChannel (clusterOf g) ch 0x05 (s.ctx g).part (BitVec.ofNat 64 pa) s
      | none =>
        let s := writePlace x.2.place x.1.1 s
        copySectors g ch l (match x.1.2 with
          | some info => consumed g info (poisonPlace x.2.place x.2.n s)
          | none => s)

/-- What the source sectors hold. -/
def copySource (s : State) (l : List Sector) : List (List Byte × Option W64) :=
  l.map fun x => (readPlace s x.place x.n, poisonAt s x.place x.n)

/-- A copy of `bs` to sectors `dst` runs on the cluster's engine; it uses sectors `l`. -/
def runCopy (g oc : Nat) (bs : List (List Byte × Option W64)) (dst l : List Sector) (s : State) : State :=
  let ch := s.copyChannel (clusterOf g)
  addCopy g oc none ch l (copySectors g ch (bs.zip dst) s)

/-- A copy has its queue entry, and starts in its order. -/
def copyStart (s : State) (g oc : Nat) (l : List Sector) : Chk Unit := do
  copyRoom s g
  inOrder s g oc l

def issueCpy (e : Env) (a b c : BitVec 6) (s : State) : Issue := do
  let x := s.ctx e.g
  let dst := x.s a
  let src := x.s b
  let len := x.s c
  copyLimits len
  let n := copyLen len
  Chk.need (!overlap dst.toNat n src.toNat n) (.trap 0x06 dst)
  let l ← checkSectors (misaligned src.toNat 64 ++ misaligned dst.toNat 64
    ++ xlates s e.g (rangePieces src.toNat n .r ++ rangePieces dst.toNat n .c) (copyClass len)) (·.tagged s) anyClass
  copyStart s e.g (copyClass len) l
  let from' := l.take (n / 64)
  let bs := copySource s from'
  commit fun s => runCopy e.g (copyClass len) bs (l.drop (n / 64)) l (touchRead from' s)

def issueCpyZero (e : Env) (a c : BitVec 6) (s : State) : Issue := do
  let x := s.ctx e.g
  let dst := x.s a
  let len := x.s c
  copyLimits len
  let n := copyLen len
  let l ← checkSectors (misaligned dst.toNat 64 ++ xlates s e.g (rangePieces dst.toNat n .c) (copyClass len)) (·.tagged s) anyClass
  copyStart s e.g (copyClass len) l
  commit (runCopy e.g (copyClass len) (l.map fun x => (List.replicate x.n 0, none)) l l)

/-! ## Streams (R302 to R305) -/

/-- CPYQ feeds a stream, behind at most three copies that feed it; its source is read as the stream's buffer has room. -/
def issueCpyq (e : Env) (q b c : BitVec 6) (s : State) : Issue := do
  let x := s.ctx e.g
  let src := x.s b
  let len := x.s c
  copyLimits len
  let n := copyLen len
  let l ← checkSectors (misaligned src.toNat 64 ++ xlates s e.g (rangePieces src.toNat n .r) (copyClass len)) (·.tagged s) anyClass
  let t := x.stream' q.toNat
  Chk.need (decide (t.pending.length < 4)) (.block .fullQueue)
  copyStart s e.g (copyClass len) l
  let keep := match t.binding with | .copies => t | _ => Stream.initial
  let new : StreamCopy := { src := l, oc := copyClass len, seq := x.memSeq }
  commit fun s =>
    (addCopy e.g (copyClass len) (some q.toNat) (s.copyChannel (clusterOf e.g)) l (touchRead l s)).modCtx e.g fun c =>
      c.setStream q.toNat { keep with binding := .copies, pending := keep.pending ++ [new] }

/-- An element popped, landing as a load does. -/
def landPop (d : BitVec 6) (x : W64 × Option W64) (c : Ctx) : Ctx :=
  c.land (.s d.toNat) (x.1.setWidth 2048) (BitVec.allOnes 64) 1 false x.2

def issueQpop (e : Env) (q : BitVec 3) (d : BitVec 6) (s : State) : Issue :=
  let t := (s.ctx e.g).stream' q.toNat
  let grp := (s.ctx e.g).group
  match t.binding with
  | .consumer off lcap => do
    inOrderAt s e.g 15 [(.csram grp off, 64 + 8 * 2 ^ lcap)]
    let head := ringHead s grp off
    Chk.need (ringTail s grp off != head) (.block .emptyStream)
    let p : Place := .csram grp (ringSlot off lcap head)
    let x : W64 := BitVec.ofNat 64 (leNat (readPlace s p 8))
    commit fun s => (ringWrite grp (off + 8) (head + 1) s).modCtx e.g (landPop d (x, poisonAt s p 8))
  | _ =>
    match t.arrived with
    | [] => .error (.block .emptyStream)
    | x :: xs => commitCtx e.g fun c => landPop d x (c.setStream q.toNat { c.stream' q.toNat with arrived := xs })

/-- Pushes of the context into the ring at `off` that have not performed. -/
def Ctx.latePushes (c : Ctx) (grp off : Nat) : Nat :=
  c.delayed.countP fun d => match d.act with | .push k o _ _ => k == grp && o == off | _ => false

/-- Elements in a ring, those that the context has yet to push among them. -/
def ringUsed (s : State) (g grp off : Nat) : W64 :=
  ringTail s grp off - ringHead s grp off + BitVec.ofNat 64 ((s.ctx g).latePushes grp off)

/-- A push performs as a release at cluster scope, after everything earlier (R304, R255). -/
def issueQpush (e : Env) (q : BitVec 3) (d : BitVec 6) (s : State) : Issue :=
  let grp := (s.ctx e.g).group
  match ((s.ctx e.g).stream' q.toNat).binding with
  | .producer off lcap => do
    Chk.need (ringUsed s e.g grp off != BitVec.ofNat 64 (2 ^ lcap)) (.block .fullQueue)
    commit (issueLate e.g 15 (.push grp off lcap ((s.ctx e.g).s d)))
  | _ => .error (.trap 0x0B 8)

/-- A ring descriptor's checks (R304). -/
def ringCheck (e : Env) (r : W64) (s : State) : Chk (Nat × Nat) := do
  let off := (bits r 0 32).toNat
  let lcap := (bits r 32 4).toNat
  Chk.need (off % 64 == 0 && decide (3 ≤ lcap ∧ lcap ≤ 12) && bits r 36 28 == 0) (.trap 0x06 r)
  let _ ← access s e.g (pieces (0x1FF * 2 ^ 48 + 2 ^ 32 + off) (64 + 8 * 2 ^ lcap)) .r 0 anyClass
  .ok (off, lcap)

/-- A binding replaces any earlier one; copies still feeding the stream complete without it (R303). -/
def bindStream (e : Env) (q : BitVec 3) (b : Binding) (s : State) : State :=
  let s := s.modCtx e.g fun c => c.setStream q.toNat { binding := b, pending := [], arrived := [] }
  s.modCluster (clusterOf e.g) fun c => { c with copies := c.copies.map fun j =>
    if j.ctx == e.g && (j.stream == some (q.toNat)) then { j with stream := none } else j }

def issueQpopBind (e : Env) (q : BitVec 3) (d : BitVec 6) (s : State) : Issue := do
  let (off, lcap) ← ringCheck e ((s.ctx e.g).s d) s
  commit (bindStream e q (.consumer off lcap))
def issueQpushBind (e : Env) (q : BitVec 3) (d : BitVec 6) (s : State) : Issue := do
  let (off, lcap) ← ringCheck e ((s.ctx e.g).s d) s
  commit (bindStream e q (.producer off lcap))

/-- The stream's state (R305). -/
def streamStat (s : State) (g grp : Nat) (t : Stream) : Nat :=
  let used (off : Nat) : Nat := (ringTail s grp off - ringHead s grp off).toNat
  match t.binding with
  | .unbound => 0
  | .copies => min t.arrived.length 0xFFFF + 2 ^ 16 * min (t.pending.flatMap (·.src.map (·.n / 8))).sum 0xFFFFFFFF + 2 ^ 48
  | .consumer off _ => min (used off) 0xFFFF + 2 * 2 ^ 48
  | .producer off lcap => min (2 ^ lcap - (ringUsed s g grp off).toNat) 0xFFFF + 3 * 2 ^ 48

def issueQstat (e : Env) (q : BitVec 3) (d : BitVec 6) (s : State) : Issue :=
  let x := BitVec.ofNat 64 (streamStat s e.g (s.ctx e.g).group ((s.ctx e.g).stream' q.toNat))
  commitCtx e.g fun c => c.landS d x 1

/-! ## Fences and SBAR (R296 to R298) -/

/-- FENCE places its marker and stalls nothing. -/
def issueFence (e : Env) (m : BitVec 16) (k : BitVec 5) (_ : State) : Issue :=
  commitCtx e.g fun c => ({ c with fences := c.fences ++ [{ mask := m, scope := k.toNat, seq := c.memSeq }] } : Ctx).nextSeq

/-- SBAR stalls in place until the bulk operations of its classes have completed. -/
def issueSbar (e : Env) (m : BitVec 16) (_ : BitVec 5) (s : State) : Issue :=
  if bulkPending e.g m s then .error (.stall (bulkProgress e.g m)) else nothing

/-- Markers retire whose earlier accesses have performed and whose earlier bulk operations have completed. -/
def retireFence (g : Nat) (s : State) : State :=
  s.modCtx g fun c => { c with fences := c.fences.filter fun f => earlier g f.classes f.seq s }

/-! ## WAITM (R299) -/

def waitCond (f : BitVec 3) (w c m : W64) : Bool :=
  match f.toNat with
  | 0 => w &&& c != 0
  | 1 => w &&& m == c
  | 2 => w &&& m != c
  | 3 => c.ule w
  | _ => w.ult c

/-- WAITM reads its word, after the context's earlier stores to it (R254); a poisoned word is cause 0x14 before commit (log 27). -/
def issueWaitm (e : Env) (a b c : BitVec 6) (f : BitVec 3) (s : State) : Issue := do
  let x := s.ctx e.g
  let va := (x.s b).toNat
  aligned va 8
  match ← access s e.g [(va, 8)] .r 0 scClass with
  | y :: _ =>
    Chk.need (!((s.ctx e.g).delayed.any fun d => d.act.meets y.place 8) && !meetsUnread e.g [(y.place, 8)] s) (.stall (orderProgress e.g))
    match poisonAt s y.place 8 with
    | some info => .error (.late 0x14 info)
    | none => .ok ()
    let w : W64 := BitVec.ofNat 64 (leNat (readPlace s y.place 8))
    Chk.need (waitCond f w (x.s c) (if a = 0 then BitVec.allOnes 64 else x.s a)) (.block .waitm)
    commit (touchRead [y])
  | [] => nothing

/-! ## Range operations (R306) -/

/-- Why a range does not lie in one entry or one region of the window, or lacks the right, at the lowest address that fails. Frames are
not probed. -/
def rangeMiss (s : State) (g base len : Nat) (k : Option Right) : List (Nat × Except (Nat × W64) Sector) :=
  let c := s.ctx g
  let fail (va cause : Nat) : List (Nat × Except (Nat × W64) Sector) := [(va, .error (cause, BitVec.ofNat 64 va))]
  if inWindow base then
    match windowPlace s g base len [(0, len)] .r 0 with
    | .ok _ => []
    | .error x => [(base, .error x)]
  else
    match c.swt.find? fun e => swV e.2 && decide (swBase e.2 ≤ base ∧ base < swBase e.2 + swLen e.2) with
    | none => fail base 0x04
    | some e =>
      if swBase e.2 + swLen e.2 < base + len then fail (swBase e.2 + swLen e.2) 0x04
      else match k with
        | some k => if k.ok (swRights e.2) then [] else fail base 0x05
        | none => []

/-- The class of an object's frame other than HC is not allowed; scratch and cluster SRAM have none. -/
def notHc (c : Option Nat) : Bool := c != some 0

/-- The barrier object as its address translates; one in the local window lies in no frame, whatever the window holds there (R66). -/
def objectSector (s : State) (g va : Nat) : List (Nat × Except (Nat × W64) Sector) :=
  if inWindow va then [(va, .ok { va := va, n := 8, place := .mint g 0, coh := none, demoted := none })] else xlates s g [(va, 8, .a)] 15

/-- RINV and RFLUSH: the length, then base, range and object in the order of their addresses, then the object's class (R282, R306). Of a
length of 0 only the base's alignment is still checked (log 69). -/
def rangeOp (e : Env) (flush : Bool) (a b c : BitVec 6) (f : BitVec 3) (s : State) : Issue := do
  let x := s.ctx e.g
  let base := x.s a
  let len := x.s b
  let obj := x.s c
  Chk.need (len.toNat % 64 == 0 && decide (len.toNat < 2 ^ 48)) (.trap 0x06 len)
  let l ← checkSectors (misaligned base.toNat 64 ++ (if len = 0 then [] else rangeMiss s e.g base.toNat len.toNat (some .r))
    ++ misaligned obj.toNat 8 ++ objectSector s e.g obj.toNat) (·.tagged s) notHc
  match l.findSome? fun y => match y.place with | .dp pb lay off => some (dpByte pb lay off 0) | _ => none with
  | some object => commitCtx e.g fun c => ({ c with ranges := c.ranges ++
      [{ flush := flush, base := base.toNat, len := len.toNat, scope := f.toNat, object := object, seq := c.memSeq }] } : Ctx).nextSeq
  | none => nothing

def issueRinv (e : Env) (a b c : BitVec 6) (f : BitVec 3) (s : State) : Issue := rangeOp e false a b c f s
def issueRflush (e : Env) (a b c : BitVec 6) (f : BitVec 3) (s : State) : Issue := rangeOp e true a b c f s

/-- The oldest range operation completes once everything earlier has (R255, R306): memory holds one copy of the range already, and its
object gains 1 unless the object is poisoned. -/
def rangeEnd (g : Nat) (s : State) : State :=
  match (s.ctx g).ranges with
  | [] => s
  | r :: rs =>
    if earlier g allClasses r.seq s then s
    else
      let s := s.modCtx g fun c => { c with ranges := rs }
      if s.poison.contains (r.object / 64) then consumed g (BitVec.ofNat 64 (r.object / 64 * 64)) s
      else writeBack r.object (leBytes 8 (readDw s.mem r.object + 1).toNat) s

/-! ## Handles (R248, R307) -/

def issueResv (e : Env) (h b c : BitVec 6) (f : BitVec 3) (s : State) : Issue := do
  let base := (s.ctx e.g).s b
  let len := (s.ctx e.g).s c
  Chk.need (base.toNat % 512 == 0) (.trap 0x06 base)
  Chk.need (len.toNat % 512 == 0 && len != 0) (.trap 0x06 len)
  Chk.need (!inWindow base.toNat) (.trap 0x04 base)
  match lowestFault (rangeMiss s e.g base.toNat len.toNat none) with
  | some (cause, info) => .error (.trap cause info)
  | none => .ok ()
  commitCtx e.g fun c => { c with handles := tset c.handles h.toNat { base := base.toNat, len := len.toNat, prio := f.toNat } }

def issueRrel (e : Env) (h : BitVec 6) (_ : State) : Issue := commitCtx e.g fun c => { c with handles := tdel c.handles h.toNat }
def issueRrelAll (e : Env) (_ : State) : Issue := commitCtx e.g fun c => { c with handles := [] }

end Sys2Proof.Machine
end

