-- ==== Sys2Proof/Machine/Scalar.lean ====
section
/-!
DEFINITION. Scalar arithmetic and compares of the C slot (R69, R331 to R337).
-/
set_option Elab.async false
namespace Sys2Proof.Machine

/-- A result landed in a scalar register. -/
def landS (e : Env) (d : BitVec 6) (x : W64) (lat : Nat) : Issue := commitCtx e.g fun c => c.landS d x lat
/-- All ones or all zeros landed in a predicate (R336). -/
def landRel (e : Env) (p : BitVec 7) (b : Bool) : Issue := commitCtx e.g fun c => c.landP p (allOr b) (BitVec.allOnes 64) 1 false

/-- sext of a 32-bit result. -/
def sx32 (x : W32) : W64 := x.signExtend 64
/-- `x[31:0]`. -/
def lo32 (x : W64) : W32 := x.setWidth 32

/-- A form with a 64-bit and a `.w` computation of two registers (R331). -/
def scalar2 (e : Env) (d a b : BitVec 6) (f : BitVec 3) (op : W64 → W64 → W64) (opW : W32 → W32 → W32) (lat : Nat) (s : State) :
    Issue :=
  let c := s.ctx e.g
  landS e d (if f = 0 then op (c.s a) (c.s b) else sx32 (opW (lo32 (c.s a)) (lo32 (c.s b)))) lat

/-- A form of one register and an immediate. -/
def scalarI (e : Env) (d a : BitVec 6) (op : W64 → W64) (lat : Nat) (s : State) : Issue := landS e d (op ((s.ctx e.g).s a)) lat

def issueAdd (e : Env) (d a b : BitVec 6) (f : BitVec 3) (s : State) : Issue := scalar2 e d a b f (· + ·) (· + ·) 1 s
def issueSub (e : Env) (d a b : BitVec 6) (f : BitVec 3) (s : State) : Issue := scalar2 e d a b f (· - ·) (· - ·) 1 s
def issueAnd (e : Env) (d a b : BitVec 6) (s : State) : Issue := scalar2 e d a b 0 (· &&& ·) (· &&& ·) 1 s
def issueOr (e : Env) (d a b : BitVec 6) (s : State) : Issue := scalar2 e d a b 0 (· ||| ·) (· ||| ·) 1 s
def issueXor (e : Env) (d a b : BitVec 6) (s : State) : Issue := scalar2 e d a b 0 (· ^^^ ·) (· ^^^ ·) 1 s
def issueAndn (e : Env) (d a b : BitVec 6) (s : State) : Issue :=
  scalar2 e d a b 0 (fun x y => x &&& ~~~y) (fun x y => x &&& ~~~y) 1 s

/-- The shift amount: `b[5:0]`, or `b[4:0]` with `.w` (R331). -/
def amt64 (b : W64) : Nat := b.toNat % 64
def amt32 (b : W32) : Nat := b.toNat % 32

def issueShl (e : Env) (d a b : BitVec 6) (f : BitVec 3) (s : State) : Issue :=
  scalar2 e d a b f (fun x y => x <<< amt64 y) (fun x y => x <<< amt32 y) 1 s
def issueShr (e : Env) (d a b : BitVec 6) (f : BitVec 3) (s : State) : Issue :=
  scalar2 e d a b f (fun x y => x >>> amt64 y) (fun x y => x >>> amt32 y) 1 s
def issueSar (e : Env) (d a b : BitVec 6) (f : BitVec 3) (s : State) : Issue :=
  scalar2 e d a b f (fun x y => x.sshiftRight (amt64 y)) (fun x y => x.sshiftRight (amt32 y)) 1 s
def issueRot (e : Env) (d a b : BitVec 6) (f : BitVec 3) (s : State) : Issue :=
  scalar2 e d a b f (fun x y => x.rotateLeft (amt64 y)) (fun x y => x.rotateLeft (amt32 y)) 1 s

/-- MUL: low, high signed, high unsigned, or the low 32 bits (R331). -/
def mulVal (f : BitVec 3) (a b : W64) : W64 :=
  match f.toNat with
  | 0 => a * b
  | 1 => BitVec.ofInt 64 (a.toInt * b.toInt / 2 ^ 64)
  | 2 => BitVec.ofNat 64 (a.toNat * b.toNat / 2 ^ 64)
  | _ => sx32 (lo32 (a * b))
def issueMul (e : Env) (d a b : BitVec 6) (f : BitVec 3) (s : State) : Issue :=
  landS e d (mulVal f ((s.ctx e.g).s a) ((s.ctx e.g).s b)) 3

/-- DIV: quotient or remainder, signed or unsigned, with the two stated corners (R332). -/
def divVal (f : BitVec 3) (a b : W64) : W64 :=
  if b = 0 then (if f.toNat ≤ 1 then BitVec.allOnes 64 else a)
  else match f.toNat with
    | 0 => BitVec.ofInt 64 (a.toInt.tdiv b.toInt)
    | 1 => a / b
    | 2 => BitVec.ofInt 64 (a.toInt.tmod b.toInt)
    | _ => a % b
def issueDiv (e : Env) (d a b : BitVec 6) (f : BitVec 3) (s : State) : Issue :=
  landS e d (divVal f ((s.ctx e.g).s a) ((s.ctx e.g).s b)) 20

def minVal (f : BitVec 3) (a b : W64) : W64 := if (if f = 0 then b.slt a else b.ult a) then b else a
def maxVal (f : BitVec 3) (a b : W64) : W64 := if (if f = 0 then a.slt b else a.ult b) then b else a
def issueMin (e : Env) (d a b : BitVec 6) (f : BitVec 3) (s : State) : Issue :=
  landS e d (minVal f ((s.ctx e.g).s a) ((s.ctx e.g).s b)) 1
def issueMax (e : Env) (d a b : BitVec 6) (f : BitVec 3) (s : State) : Issue :=
  landS e d (maxVal f ((s.ctx e.g).s a) ((s.ctx e.g).s b)) 1

/-- The value whose bit `i` is bit `w·⌊i/w⌋`-mirrored of `a`: parts of `w` bits in reverse order. -/
def reverseParts (w n : Nat) (a : Nat) : Nat := packNat w (fun i => a / 2 ^ (w * (n - 1 - i)) % 2 ^ w) n

/-- BITC (R333): clz, ctz, popc, brev, bswap. -/
def bitcVal (f : BitVec 3) (a : W64) : W64 :=
  match f.toNat with
  | 0 => BitVec.ofNat 64 (if a = 0 then 64 else 63 - Nat.log2 a.toNat)
  | 1 => BitVec.ofNat 64 ((leastFrom (fun i => bit a i) 0 64).getD 64)
  | 2 => BitVec.ofNat 64 (popNat a.toNat 64)
  | 3 => BitVec.ofNat 64 (reverseParts 1 64 a.toNat)
  | _ => BitVec.ofNat 64 (reverseParts 8 8 a.toNat)
def issueBitc (e : Env) (d a : BitVec 6) (f : BitVec 3) (s : State) : Issue := scalarI e d a (bitcVal f) 1 s

def issueAddi (e : Env) (d a : BitVec 6) (i : BitVec 9) (s : State) : Issue := scalarI e d a (· + sext64 i) 1 s
def issueAndi (e : Env) (d a : BitVec 6) (i : BitVec 9) (s : State) : Issue := scalarI e d a (· &&& sext64 i) 1 s
def issueOri (e : Env) (d a : BitVec 6) (i : BitVec 9) (s : State) : Issue := scalarI e d a (· ||| sext64 i) 1 s
def issueXori (e : Env) (d a : BitVec 6) (i : BitVec 9) (s : State) : Issue := scalarI e d a (· ^^^ sext64 i) 1 s
def issueShli (e : Env) (d a : BitVec 6) (i : BitVec 6) (s : State) : Issue := scalarI e d a (· <<< i.toNat) 1 s
def issueShri (e : Env) (d a : BitVec 6) (i : BitVec 6) (s : State) : Issue := scalarI e d a (· >>> i.toNat) 1 s
def issueSari (e : Env) (d a : BitVec 6) (i : BitVec 6) (s : State) : Issue := scalarI e d a (·.sshiftRight i.toNat) 1 s
def issueMuli (e : Env) (d a : BitVec 6) (i : BitVec 9) (s : State) : Issue := scalarI e d a (· * sext64 i) 3 s

def issueLi (e : Env) (d : BitVec 6) (i : BitVec 15) (_ : State) : Issue := landS e d (sext64 i) 1
/-- LIS: the old value shifted left by 15, the immediate below (R69). -/
def issueLis (e : Env) (d : BitVec 6) (i : BitVec 15) (s : State) : Issue :=
  landS e d (((s.ctx e.g).s d <<< 15) ||| zext64 i) 1

/-- `A + 16 × sext(disp)`, A the address of the bundle (R335, R338). -/
def pcTarget (e : Env) (s : State) {n : Nat} (disp : BitVec n) : W64 := (s.ctx e.g).pc + 16 * sext64 disp
def issueAddpc (e : Env) (d : BitVec 6) (i : BitVec 15) (s : State) : Issue := landS e d (pcTarget e s i) 1

/-! ## Compares (R336, R337) -/

def issueCmp (e : Env) (p : BitVec 7) (a b : BitVec 6) (c : BitVec 2) (s : State) : Issue :=
  landRel e p (cmpRel c ((s.ctx e.g).s a) ((s.ctx e.g).s b))
def issueCmpu (e : Env) (p : BitVec 7) (a b : BitVec 6) (c : BitVec 2) (s : State) : Issue :=
  landRel e p (cmpuRel c ((s.ctx e.g).s a) ((s.ctx e.g).s b))
/-- The scaled immediate: signed m = imm6[4:0], times 64 when imm6[5] (R337). -/
def cmpImm (i : BitVec 6) : W64 := sext64 (bits i 0 5) * (if bit i 5 then 64 else 1)
def issueCmpi (e : Env) (p : BitVec 7) (a : BitVec 6) (i : BitVec 6) (c : BitVec 2) (s : State) : Issue :=
  landRel e p (cmpRel c ((s.ctx e.g).s a) (cmpImm i))
def issuePfrom (e : Env) (p : BitVec 7) (a : BitVec 6) (s : State) : Issue :=
  commitCtx e.g fun c => c.landP p ((s.ctx e.g).s a) (BitVec.allOnes 64) 1 false

end Sys2Proof.Machine
end

