-- ==== Sys2Proof/Machine/Control.lean ====
section
/-!
DEFINITION. Branches and the condition tree (R90 to R93, R338 to R340), CSR access (R341 to R343), matrix parameters and tile
headers (R344), barrier slots (R345), GROW (R347), YIELD, EXIT and the trap forms (R348 to R351), and RFE (R352).
-/
set_option Elab.async false
namespace Sys2Proof.Machine

/-! ## Branches -/

/-- A register target's bits 3:0 and 63:57 are zero, or cause 0x06 (R338). -/
def targetOk (t : W64) : Chk Unit := Chk.need (bits t 0 4 == 0 && bits t 57 7 == 0) (.trap 0x06 t)

/-- A taken branch. -/
def branchTo (t : W64) : Issue := .ok { target := some t }

def issueBr (e : Env) (d : BitVec 21) (s : State) : Issue := branchTo (pcTarget e s d)
/-- CALL lands the address of the next bundle in b7 and branches. -/
def issueCall (e : Env) (d : BitVec 21) (s : State) : Issue :=
  .ok { act := fun s => s.modCtx e.g fun c => c.land (.b 7) ((c.pc + 16).setWidth 2048) (BitVec.allOnes 64) 1 false none
        target := some (pcTarget e s d) }
/-- A branch to a target register. -/
def branchReg (e : Env) (k : Nat) (s : State) : Issue := do
  let t := (s.ctx e.g).b k
  targetOk t
  branchTo t
def issueBrb (e : Env) (k : BitVec 3) (s : State) : Issue := branchReg e k.toNat s
def issueRet (e : Env) (s : State) : Issue := branchReg e 7 s
/-- A value landed in a branch-target register. -/
def landB (e : Env) (k : BitVec 3) (x : W64) : Issue :=
  commitCtx e.g fun c => c.land (.b k.toNat) (x.setWidth 2048) (BitVec.allOnes 64) 1 false none
def issueLbt (e : Env) (k : BitVec 3) (d : BitVec 18) (s : State) : Issue := landB e k (pcTarget e s d)
def issueMovb (e : Env) (k : BitVec 3) (r : BitVec 6) (f : BitVec 3) (s : State) : Issue :=
  if f = 0 then landB e k ((s.ctx e.g).s r) else landS e r ((s.ctx e.g).b k.toNat) 1
/-- LOOP (R340). -/
def issueLoop (e : Env) (r : BitVec 6) (i : BitVec 15) (s : State) : Issue :=
  let c := (s.ctx e.g).s r - 1
  .ok { act := fun s => s.modCtx e.g fun x => x.landS r c 1
        target := if c ≠ 0 then some (pcTarget e s i) else none }

/-- The leaf a shape chooses (R91). -/
def shapeLeaf (shape : Nat) (t : Nat → Bool) : Nat :=
  let first (n : Nat) : Nat := (leastFrom t 0 n).getD 4
  match shape with
  | 0 => first 1
  | 1 => first 2
  | 2 => first 3
  | 3 => first 4
  | 4 => if t 0 then (if t 1 then 1 else 0) else if t 2 then 3 else 2
  | 5 => if t 0 then (if t 1 then 1 else 0) else if t 2 then (if t 3 then 4 else 3) else 2
  | _ => 2 * (t 0).toNat + (t 1).toNat

/-- The leaf of a tree header over quad `q`. -/
def treeLeaf (c : Ctx) (shape q : Nat) : Nat := shapeLeaf shape fun i => bit (c.p (4 * q + i)) 0

/-- HDR.T: every test it reads, then the target of the chosen leaf (R93). The gating of the other slots stands with the bundle. -/
def issueHdrT (e : Env) (h : BitVec 3) (q : BitVec 5) (b : BitVec 3) (s : State) : Issue := do
  let c := s.ctx e.g
  Chk.need (!((shapeTests h.toNat).any fun i => 4 * q.toNat + i != 0 && c.pending (.p (4 * q.toNat + i)))) .early
  let leaf := treeLeaf c h.toNat q.toNat
  if leaf = 4 then nothing
  else
    let k := (b.toNat + leaf) % 8
    Chk.need (!c.pending (.b k)) .early
    branchReg e k s

/-! ## CSRs (R342, R343) -/

/-- A group that is placed: not done, and not saved whole (R370, R372). -/
def State.groupRuns (s : State) (k : Nat) : Bool :=
  let x := s.group k
  !x.done && (x.live.isEmpty || x.live.any fun j => (tfind s.saves (8 * k + j)).isNone)

/-- Projected balance of a VF in nJ (R370): the balance less what its running groups may still use. -/
def State.projectedNJ (s : State) (vf : Nat) : Int :=
  s.groups.foldl (fun n x =>
    if s.groupRuns x.1 && (tfind s.launches x.2.launch).map (·.vf) == some vf then n - ((x.2.estimate - x.2.metered : Nat) : Int)
    else n) ((s.vf vf).balance * 1000)
/-- In µJ, rounded down. -/
def State.projected (s : State) (vf : Nat) : Int := (s.projectedNJ vf).fdiv 1000

/-- PHYS and GOOD of a die before any repair: log 2. -/
def State.clmapOf (s : State) (d : Nat) : W64 := tget 0x000001FF76543210 s.regs.clmap d

/-- COREPOS (R37). -/
def corePos (s : State) (g : Nat) : W64 :=
  let k := coreOf g
  let d := dieOf g
  BitVec.ofNat 64 (k % 8 + 8 * (clusterOf g % 8) + 64 * d + 2 ^ 12 * (d / 4)
    + 2 ^ 16 * ((s.clmapOf d).toNat / 16 ^ (clusterOf g % 8) % 16))

/-- The value of a CSR as a context reads it. -/
def csrRead (s : State) (g r : Nat) : W64 :=
  let c := s.ctx g
  let nat (n : Nat) : W64 := BitVec.ofNat 64 n
  let mint (f : Mint → W64) : W64 := ((s.mintOf g).map f).getD 0
  let m32 : Int := 2 ^ 31 - 1
  match r with
  | 0x000 => nat (g % 4 + 4 * c.stream.toNat + 8 * c.vf + 2 ^ 13 * c.part)
  | 0x001 => nat ((s.group c.group).index % 2 ^ 32)
  | 0x002 => nat (((tfind s.launches c.launch).map (·.gcount)).getD 0 % 2 ^ 32)
  | 0x003 => nat (((tfind s.launches c.launch).map (·.taskid.toNat)).getD 0)
  | 0x004 => corePos s g
  | 0x010 => c.qmr.setWidth 64
  | 0x011 => c.evbase.setWidth 64
  | 0x012 => c.nodebase.setWidth 64
  | 0x013 => c.deroff.setWidth 64
  | 0x014 => c.rngkey
  | 0x015 => c.sampcfg
  | 0x020 =>
    let a := s.array (pairOf g)
    nat (a.mode.toNat + 2 ^ 8 * a.cutA.toNat + 2 ^ 9 * a.cutB.toNat)
  | 0x050 => c.faultmask.setWidth 64
  | 0x051 => nat (c.trapcause.toNat + 256 * c.hm.toNat)
  | 0x052 => c.trappc
  | 0x053 => c.trapinfo
  | 0x054 => nat c.snapshot.length
  | 0x055 => c.trapvec
  | 0x056 => c.savebase
  | 0x060 => BitVec.ofInt 32 (sat (s.projected c.vf) (-m32) m32) ++ BitVec.ofInt 32 (sat (s.vf c.vf).balance (-m32) m32)
  | 0x061 => s.cycles
  | 0x062 => nat c.bundles
  | 0x070 => clStat (s.cluster (clusterOf g)).session c.group
  | 0x071 => clCfgStat (s.cluster (clusterOf g)).session c.group
  | 0x080 => mint Mint.occReg
  | 0x081 => mint Mint.draftReg
  | 0x082 => mint Mint.bucketReg
  | 0x100 => c.ckseq.setWidth 64
  | 0x101 => c.sampctr
  | _ => (s.tile (coreOf g) (c.tileBase + (r - 0x030))).status c.bundles

/-- The writable fields of a context's own CSRs (R12, R200, R343). A new TRAPPC starts a group of its own, and waits at no slot. -/
def Ctx.csrWrite (c : Ctx) (r : Nat) (x : W64) : Ctx :=
  match r with
  | 0x010 => { c with qmr := bits x 0 3 }
  | 0x011 => { c with evbase := bits x 0 19 &&& 0x7FFFC }
  | 0x012 => { c with nodebase := bits x 0 19 &&& 0x7FFF0 }
  | 0x013 => { c with deroff := bits x 0 23 &&& 0x7FFFF0 }
  | 0x014 => { c with rngkey := x }
  | 0x015 => { c with sampcfg := x &&& 0x0000FFFFFFFFFFFF }
  | 0x052 => { c with trappc := x &&& 0xFFFFFFFFFFFFFFF0, heldWrites := [], heldBar := none }
  | 0x055 => { c with trapvec := x &&& 0xFFFFFFFFFFFFFFF0 }
  | 0x056 => { c with savebase := x &&& 0xFFFFFFFFFFFFF000 }
  | 0x100 => { c with ckseq := bits x 0 32 }
  | 0x101 => { c with sampctr := x }
  | _ => c

/-- RW and HW numbers of R342. -/
def csrWritable (r : Nat) (hm : Bool) : Bool :=
  [0x010, 0x011, 0x012, 0x013, 0x014, 0x015, 0x020, 0x055, 0x056, 0x100, 0x101].contains r || (r == 0x052 && hm)

def issueCsrd (e : Env) (r : BitVec 12) (d : BitVec 6) (s : State) : Issue := do
  let n := r.toNat
  Chk.need (!(decide (0x030 ≤ n ∧ n ≤ 0x04F)) || decide (n - 0x030 < (s.ctx e.g).tileCount)) (.trap 0x0D 0x11)
  landS e d (csrRead s e.g n) 1

/-- ARBMODE as an accepted write leaves it: the windows start anew with core A's (R178, R179). -/
def MArray.setMode (a : MArray) (x : W64) : MArray := { a with mode := bits x 0 2, cutA := false, cutB := false, windowB := false }

/-- A write of ARBMODE is accepted: MODE below 3 and every accumulator IDLE (R177, R179). -/
def MArray.modeOk (a : MArray) (x : W64) : Bool := bits x 0 2 != 3 && [0, 1, 2, 3].all fun i => tget 0 a.accState i == 0

def issueCswr (e : Env) (r : BitVec 12) (v : BitVec 6) (s : State) : Issue := do
  let c := s.ctx e.g
  let x := c.s v
  Chk.need (csrWritable r.toNat c.hm) (.trap 0x0B (BitVec.ofNat 64 (0x0B + 2 ^ 16 * r.toNat)))
  if r = 0x020 then
    let pr := pairOf e.g
    Chk.need (s.array pr).idle (.stall (arrayProgress pr))
    Chk.need ((s.array pr).modeOk x) (.late 0x0B 6)
    commit fun s => s.modArray pr fun a => a.setMode x
  else commitCtx e.g fun c => c.csrWrite r.toNat x

/-! ## Parameters and headers (R344) -/

def issueMpset (e : Env) (m : BitVec 3) (v : BitVec 6) (s : State) : Issue :=
  let x := (s.ctx e.g).s v
  commitCtx e.g fun c => c.land (.mp m.toNat) (x.setWidth 2048) (BitVec.allOnes 64) 1 false none
def issueTcset (e : Env) (t : BitVec 5) (v : BitVec 6) (s : State) : Issue := do
  let x := (s.ctx e.g).s v
  Chk.need (t.toNat < (s.ctx e.g).tileCount) (.trap 0x0D 0x11)
  commitCtx e.g fun c => c.land (.tc t.toNat) (x.setWidth 2048) (BitVec.allOnes 64) 1 false none
def issueTcget (e : Env) (t : BitVec 5) (d : BitVec 6) (s : State) : Issue := do
  Chk.need (t.toNat < (s.ctx e.g).tileCount) (.trap 0x0D 0x11)
  landS e d ((s.ctx e.g).tc t.toNat) 1

/-! ## Barrier slots (R345) -/

/-- The slot is declared. -/
def barDeclared (s : State) (g n : Nat) : Chk Unit := Chk.need (n < (s.group (s.ctx g).group).bars) (.trap 0x0B 9)

/-- An arrival: the ticket takes the phase; it is counted once everything earlier has performed, and the phase completes with the last
participant (R262). -/
def barArrive (g n : Nat) (s : State) : State :=
  let ph := ((s.group (s.ctx g).group).slot n).phase
  issueLate g 15 (.arrive n) (s.modCtx g fun c => { c with tickets := tset c.tickets n ph })

/-- A second arrival in one phase is cause 0x0B, whether or not the first is counted yet. -/
def barOnce (s : State) (g n : Nat) : Chk Unit :=
  let c := s.ctx g
  Chk.need (!(((s.group c.group).slot n).arrived.contains c.program) && !(c.delayed.any fun d => d.act == .arrive n)) (.trap 0x0B 0x0C)

def issueBar (e : Env) (n : BitVec 5) (s : State) : Issue := do
  barDeclared s e.g n.toNat
  barOnce s e.g n.toNat
  commit (barArrive e.g n.toNat)
def issueBarW (e : Env) (n : BitVec 5) (s : State) : Issue := do
  barDeclared s e.g n.toNat
  Chk.need (!barWaits s e.g n.toNat) (.block .bar)
  nothing
/-- The bundle commits with the arrival; the context's next bundle is held until the phase has passed. -/
def issueBarAw (e : Env) (n : BitVec 5) (s : State) : Issue := do
  barDeclared s e.g n.toNat
  barOnce s e.g n.toNat
  commit fun s => (barArrive e.g n.toNat s).modCtx e.g fun c => { c with holdBar := some n.toNat }

/-! ## GROW, YIELD, EXIT, the trap forms, RFE -/

/-- The count and the answer of a growth by `n` (R347). -/
def growth (l : Launch) (n : Nat) : Launch × W64 :=
  if n = 0 then (l, BitVec.ofNat 64 l.gcount)
  else if l.glimit < l.gcount + n then (l, BitVec.allOnes 64)
  else ({ l with gcount := l.gcount + n }, BitVec.ofNat 64 l.gcount)

/-- GROW is a release: it stalls in place until everything earlier has performed, and then the count grows (R255, R347). -/
def issueGrow (e : Env) (d a : BitVec 6) (s : State) : Issue := do
  let n := (s.ctx e.g).s a
  Chk.need (decide (n.toNat < 2 ^ 32)) (.trap 0x06 n)
  afterAll s e.g
  let k := (s.ctx e.g).launch
  match tfind s.launches k with
  | none => landS e d (BitVec.allOnes 64) 1
  | some l =>
    let r := growth l n.toNat
    commit fun s => ({ s with launches := tset s.launches k r.1 } : State).modCtx e.g fun c => c.landS d r.2 1

def issueYield (_ : Env) (_ : State) : Issue := .ok { yield := true }
def issueExit (_ : Env) (_ : State) : Issue := .ok { exit := true }
/-- TRAP, SYSC, BREAK: the bundle commits, then the trap is taken (R351). -/
def trapAfter (cause : Nat) (c : BitVec 21) : Issue := .ok { post := some (cause, c.setWidth 64) }
def issueTrap (_ : Env) (c : BitVec 21) (_ : State) : Issue := trapAfter 0x11 c
def issueSysc (_ : Env) (c : BitVec 21) (_ : State) : Issue := trapAfter 0x12 c
def issueBrk (_ : Env) (c : BitVec 21) (_ : State) : Issue := trapAfter 0x13 c

/-- Handler-only forms outside handler mode (R352). -/
def handlerOnly (s : State) (g : Nat) : Chk Unit := Chk.need (s.ctx g).hm (.trap 0x0B 0x0A)

/-- RFE lands every result of the handler, so a poisoned one takes its trap there, in handler mode (R352, R442). -/
def issueRfe (e : Env) (s : State) : Issue := do
  handlerOnly s e.g
  targetOk (s.ctx e.g).trappc
  match (s.ctx e.g).flights.findSome? (·.poison) with
  | some info => .error (.trap 0x14 info)
  | none => .ok { rfe := true }

end Sys2Proof.Machine
end

