-- ==== Sys2Proof/Machine/Recovery.lean ====
section
/-!
DEFINITION. The save area (R432 to R437), SAVEC and LOADC (R353), and saving a stopped context to the partition's pool and
bringing it back (R181, R324, R372 to R374, R431).
-/
set_option Elab.async false
namespace Sys2Proof.Machine

/-! ## Snapshot entries (R432) -/

/-- An entry's 272 bytes. A poisoned entry, whose value never lands, carries the TRAPINFO it raises (log 14). -/
def Snap.bytes (e : Snap) : List Byte :=
  leBytes 8 (e.kind + 2 ^ 8 * e.index + 2 ^ 16 * e.dist + 2 ^ 24 * e.poison.toNat) ++ leBytes 8 e.mask.toNat
    ++ leBytes 256 (if e.poison then e.info.toNat else e.val.toNat)

/-- The last register of a kind's file. -/
def lastReg : Nat → Nat
  | 0 => 63
  | 1 => 31
  | 2 => 127
  | 3 => 7
  | 4 => 7
  | 5 => 31
  | _ => 127

/-- An entry read back; none where LOADC raises cause 0x06. -/
def Snap.ofBytes (bs : List Byte) : Option Snap :=
  let d : W64 := BitVec.ofNat 64 (leNat (bs.take 8))
  let kind := (bits d 0 3).toNat
  let index := (bits d 8 7).toNat
  let dist := (bits d 16 6).toNat
  let poison := bit d 24
  let v := leNat ((bs.drop 16).take 256)
  if d &&& 0xFFFFFFFFFEC080F8 != 0 || kind == 7 || decide (lastReg kind < index) || (dist == 0 && !poison) || decide (39 < dist) then none
  else some { kind := kind, index := index, dist := dist, poison := poison, mask := BitVec.ofNat 64 (leNat ((bs.drop 8).take 8)),
              val := BitVec.ofNat 2048 v, info := BitVec.ofNat 64 v, squash := false }

/-! ## The parts (R435, R436) -/

/-- Offset and length of part `k`. -/
def partRange : Nat → Nat × Nat
  | 0 => (0x0000, 0x2300)
  | 1 => (0x2300, 0x400)
  | 2 => (0x2700, 0x200)
  | 3 => (0x2900, 0x3310)
  | 4 => (0x5D00, 0x840)
  | 5 => (0x6600, 0x8100)
  | _ => (0xE700, 0x1080)

def dws (l : List W64) : List Byte := l.flatMap fun x => leBytes 8 x.toNat

/-- The CSRs of the control block from 0x22A0. -/
def blockCsrs : List Nat := [0x010, 0x011, 0x012, 0x013, 0x014, 0x015, 0x100, 0x101, 0x055, 0x056]

/-- Part 0: registers and the control block; TRAPPC is given. -/
def partRegs (s : State) (g : Nat) (trappc : W64) (pre : Bool) : List Byte :=
  let c := s.ctx g
  dws ((List.range 64).map fun n => c.s (BitVec.ofNat 6 n)) ++ ((List.range 32).flatMap fun n => leBytes 256 (c.v (BitVec.ofNat 5 n)).toNat)
    ++ dws ((List.range 8).map c.b) ++ dws ((List.range 8).map c.mp)
    ++ dws ([trappc, BitVec.ofNat 64 (c.trapcause.toNat + 256 * c.hm.toNat), c.trapinfo, c.faultmask.setWidth 64]
      ++ blockCsrs.map (csrRead s g) ++ [BitVec.ofNat 64 c.bundles, BitVec.ofNat 64 (c.hm.toNat + 2 * pre.toNat)])

/-- Part 2: headers, and the status of the context's tiles. -/
def partTiles (s : State) (g : Nat) : List Byte :=
  let c := s.ctx g
  dws ((List.range 32).map c.tc) ++ dws ((List.range 32).map fun n => if n < c.tileCount then csrRead s g (0x030 + n) else 0)

/-- Part 3: the held snapshot. -/
def partSnap (c : Ctx) : List Byte :=
  let es := c.snapshot.flatMap Snap.bytes
  dws [BitVec.ofNat 64 c.snapshot.length, 0] ++ es ++ List.replicate (0x3300 - es.length) 0

/-- Part 4: the candidate registers. -/
def partCands (c : Ctx) : List Byte :=
  (List.range 4).flatMap fun k =>
    let x := c.cand (BitVec.ofNat 2 k)
    dws (BitVec.ofNat 64 (x.count + 256 * x.ty) :: (List.range 64).map fun i => x.entries.getD i (BitVec.allOnes 64)) ++ leBytes 8 0

/-- An accumulator as 1,024 elements of 8 bytes. -/
def accBytes (a : AccBits) : List Byte :=
  (List.range 1024).flatMap fun i => leBytes 8 (a.extractLsb' (40 * i) 40).toNat
def accOfBytes (bs : List Byte) : AccBits :=
  BitVec.ofNat 40960 (packNat 40 (fun i => leNat ((bs.drop (8 * i)).take 5)) 1024)

/-- A bank as it is saved. -/
def MArray.bank (a : MArray) (b : Nat) : Bank :=
  (b, tget 0 a.accState (2 * b), tget 0 a.accState (2 * b + 1), a.accBits (2 * b), a.accBits (2 * b + 1))

/-- Part 5: a bank with its states, its accumulators 0x4000 bytes apart; the bytes between hold zero (log 15). -/
def partBank (x : Bank) : List Byte :=
  [BitVec.ofNat 8 (1 + 2 * x.1), BitVec.ofNat 8 x.2.1, BitVec.ofNat 8 x.2.2.1] ++ List.replicate 0xFD 0
    ++ accBytes x.2.2.2.1 ++ List.replicate 0x2000 0 ++ accBytes x.2.2.2.2 ++ List.replicate 0x2000 0

/-- The banks a context owns, the lowest first, and those it has yet to get back. An area has room for one: a context that owns both in
a solo mode has the lowest written there, and the other kept beside it (R181, R435; log 56). -/
def State.banksOf (s : State) (g : Nat) : List Bank :=
  let a := s.array (pairOf g)
  (([0, 1].filter fun b => tfind a.owners b == some g).map a.bank) ++ (s.ctx g).refills

/-- The lowest-numbered unit of its group that a context owns. -/
def State.unitOwned (s : State) (g : Nat) : Option Nat :=
  (s.group (s.ctx g).group).units.findIdx? fun u => (s.xfu (clusterOf g) u).owner == some g
/-- The units a context owns, in its group's order, and those it has yet to get back. -/
def State.unitsOf (s : State) (g : Nat) : List (Nat × Xfu) :=
  ((s.group (s.ctx g).group).units.filterMap fun u =>
    let x := s.xfu (clusterOf g) u
    if x.owner = some g then some (u, x) else none) ++ (s.ctx g).unitRefills

/-- Where a suspension meets a running DECODE: some symbols on from where it started or went on (R324; log 4). -/
def XfuJob.suspend (j : XfuJob) (tick : Nat) : NibSt :=
  let h := blkHeader j.blk
  if j.early then j.at
  else (decodeSymbols j.blk (canonCodes j.runLens) (bits h 81 16).toNat ((bits h 68 13).toNat + 1) j.carried (Config.decodeProgress tick % 8193)
    j.at).1

/-- A unit's state, that of a running DECODE where a suspension meets it (R323, R324). -/
def unitImage (x : Xfu) (u tick : Nat) : List Byte :=
  match x.job with
  | some j =>
    if j.op = 0 then
      let st := j.suspend tick
      { x with lens := j.runLens, hist := histOf st.out }.image u true st.pos st.n (nibBytes st.out st.n)
    else x.image u false 0 0 0
  | none => x.image u false 0 0 0

/-- A suspended DECODE goes on from where its area says: payload bits consumed, nibbles produced, code lengths, and the nibbles of BUF
with those of HIST below them. The block, the slot and what a failure leaves are the record's (R323, R324; log 35). -/
def XfuJob.resumed (j : XfuJob) (bs : List Byte) : XfuJob :=
  let f (o n : Nat) : Nat := leNat ((bs.drop o).take n)
  let n := f 40 2
  let buf : BitVec 32768 := BitVec.ofNat 32768 (f 128 4096)
  let made := ((List.range n).map fun i => (bits buf (4 * i) 4).toNat).reverse
  let j := { j with
    pos := f 36 4, ndone := n, runLens := BitVec.ofNat 68 (f 44 9)
    nibs := made ++ (histNibs (BitVec.ofNat 512 (f 64 64)) (n + j.carried)).drop n }
  if j.early then j else j.decoded (decodeFrom j.blk j.runLens (Hdr.of j.hdr).image j.carried j.at)

/-- The bytes of a part; none where there is no bank or unit to save. -/
def partBytes (s : State) (g k : Nat) (trappc : W64) (pre : Bool) : Option (List Byte) :=
  let c := s.ctx g
  match k with
  | 0 => some (partRegs s g trappc pre)
  | 1 => some (dws ((List.range 128).map c.p))
  | 2 => some (partTiles s g)
  | 3 => some (partSnap c)
  | 4 => some (partCands c)
  | 5 => (s.banksOf g).head?.map partBank
  | _ => (s.unitsOf g).head?.map fun y => unitImage y.2 (((s.group c.group).units.findIdx? (· == y.1)).getD 0) s.tick

/-! ## SAVEC and LOADC (R353) -/

/-- The area of a SAVEC or LOADC: `sS`, or SAVEBASE. -/
def saveAddr (e : Env) (r : BitVec 6) (s : State) : W64 := if r = 0 then (s.ctx e.g).savebase else (s.ctx e.g).s r

/-- A place an area may not lie in: cluster SRAM, and the Mint window, which is neither scratch nor an entry. -/
def Place.noArea (p : Place) : Bool :=
  match p with
  | .csram .. => true
  | .mint .. => true
  | _ => false

/-- Sectors of the parts `ks` of an area. -/
def areaAccess (s : State) (g base : Nat) (ks : List Nat) (k : Right) : Chk (List (Nat × List Sector)) := do
  let ps := ks.map fun n => pieces (base + (partRange n).1) (partRange n).2
  let l ← access s g ps.flatten k 0 scClass
  match lowestVa (fun x => x.place.noArea) l with
  | some va => .error (.trap 0x09 (BitVec.ofNat 64 va))
  | none => .ok (ks.zip (cutList (ps.map (·.length)) l))

/-- The context an array operation belongs to. -/
def ArrOp.owner (o : ArrOp) : Nat :=
  match o with
  | .call g .. => g
  | .mark g => g
  | .clear g _ => g
  | .drain g .. => g
  | .spill g .. => g
  | .fill g .. => g
  | .storeWrite g .. => g
  | .tabWrite g .. => g
  | .storeRead g .. => g
  | .tabRead g .. => g

/-- The array holds an operation of the context. -/
def MArray.holds (a : MArray) (g : Nat) : Bool :=
  (a.queueA ++ a.queueB ++ (match a.current with | some (_, o) => [o] | none => [])).any fun o => o.owner == g

/-- The context stalls until the array and its units have ended what it started, where the parts name them. -/
def enginesDone (s : State) (g : Nat) (m : BitVec 7) : Chk Unit := do
  Chk.need (!(bit m 5 && (s.array (pairOf g)).holds g)) (.stall (arrayProgress (pairOf g)))
  match (s.cluster (clusterOf g)).xfus.find? fun x => bit m 6 && (match x.2.job with | some j => j.ctx == g | none => false) with
  | some x => .error (.stall (xfuEnd (clusterOf g) x.1))
  | none => .ok ()

/-- SAVEC. -/
def issueSavec (e : Env) (m : BitVec 7) (r : BitVec 6) (s : State) : Issue := do
  handlerOnly s e.g
  let base := saveAddr e r s
  aligned base.toNat 4096
  let ks := (List.range 7).filter fun k => bit m k && (partBytes s e.g k (s.ctx e.g).trappc false).isSome
  let l ← areaAccess s e.g base.toNat ks .w
  accessesDone s e.g
  storeInOrder s e.g (l.flatMap (·.2))
  enginesDone s e.g m
  let out := l.map fun p => (p.2, (partBytes s e.g p.1 (s.ctx e.g).trappc false).getD [])
  commit fun s => out.foldl (fun s p => writeSectors p.1 p.2 s) s

/-- Doubleword `i` of bytes. -/
def dwAt (bs : List Byte) (i : Nat) : W64 := BitVec.ofNat 64 (leNat ((bs.drop (8 * i)).take 8))

def tblOf (n : Nat) (f : Nat → W64) : Tbl W64 := (List.range n).map fun i => (i, f i)

/-- Part 0 read back, but for TRAPPC: registers and the writable CSRs. -/
def loadRegs (bs : List Byte) (c : Ctx) : Ctx :=
  let c := { c with
    sregs := (tblOf 64 (dwAt bs)).drop 1
    vregs := (List.range 32).map fun n => (n, BitVec.ofNat 2048 (leNat ((bs.drop (0x200 + 256 * n)).take 256)))
    bregs := tblOf 8 fun n => dwAt bs (0x440 + n)
    mpregs := tblOf 8 fun n => dwAt bs (0x448 + n) }
  blockCsrs.zipIdx.foldl (fun c r => c.csrWrite r.1 (dwAt bs (0x454 + r.2))) c

/-- The held snapshot in a part, or the area offset of what is wrong. -/
def loadSnap (bs : List Byte) : Except Nat (List Snap) :=
  let n := leNat (bs.take 8)
  if 48 < n then .error 0x2900
  else (List.range n).foldl (fun acc i =>
    match acc with
    | .error x => .error x
    | .ok l => match Snap.ofBytes ((bs.drop (0x10 + 0x110 * i)).take 0x110) with
      | some e => .ok (l ++ [e])
      | none => .error (0x2910 + 0x110 * i)) (.ok [])

/-- The candidate registers in a part. -/
def loadCands (bs : List Byte) : Except Nat (Tbl Cand) :=
  (List.range 4).foldl (fun acc k =>
    match acc with
    | .error x => .error x
    | .ok t =>
      let b := bs.drop (0x210 * k)
      let w := dwAt b 0
      let count := (bits w 0 7).toNat
      let ty := (bits w 8 2).toNat
      if 64 < count ∨ ty = 3 then .error (0x5D00 + 0x210 * k)
      else .ok (t ++ [(k, { count := count, ty := ty, entries := (List.range 64).map fun i => dwAt b (1 + i) })])) (.ok [])

/-- A bank refilled with its states and ownership. -/
def MArray.refill (a : MArray) (g bank st0 st1 : Nat) (x0 x1 : AccBits) : MArray :=
  { a with acc := tset (tset a.acc (2 * bank) x0) (2 * bank + 1) x1,
           accState := tset (tset a.accState (2 * bank) st0) (2 * bank + 1) st1,
           owners := if st0 = 0 ∧ st1 = 0 then tdel a.owners bank else tset a.owners bank g }

/-- State of an accumulator as the area codes it. -/
def accCode (b : Byte) : Nat := if b.toNat % 4 = 1 then 1 else if b.toNat % 4 = 2 then 2 else 0

/-- The checks of part 5 with OWNED set: the core may name the bank, and it is free or the context's own (R435). -/
def bankCheck (s : State) (g : Nat) (bs : List Byte) : Chk Unit :=
  let b := bs.getD 0 0
  let a := s.array (pairOf g)
  let bank := (bit b 1).toNat
  if bit b 0 then do
    accAvail a g (2 * bank)
    Chk.need ((tfind a.owners bank).all (· == g)) (.block .fullQueue)
  else .ok ()

/-- A transform unit's state read back: ports, VALID, ERR, LENS and HIST (R323). -/
def Xfu.restore (x : Xfu) (bs : List Byte) (tick : Nat) : Xfu :=
  let p (o n : Nat) : W64 := BitVec.ofNat 64 (leNat ((bs.drop o).take n))
  { x with
    ports := [(0, p 0 8), (1, p 8 8), (2, p 34 1), (3, p 16 8), (4, p 35 1), (5, p 32 2), (6, p 24 8)]
    valid := bit (bs.getD 42 0) 0, err := (bs.getD 43 0).toNat, lens := BitVec.ofNat 68 (leNat ((bs.drop 44).take 9)),
    hist := BitVec.ofNat 512 (leNat ((bs.drop 64).take 64)), histLen := min 128 (Config.loadedHistory tick) }

/-- What a part puts into the state at commit. -/
def applyPart (g k : Nat) (bs : List Byte) (s : State) : State :=
  match k with
  | 0 => s.modCtx g fun c => (loadRegs bs c).csrWrite 0x052 (dwAt bs 0x450)
  | 1 => s.modCtx g fun c => { c with pregs := (tblOf 128 (dwAt bs)).drop 1 }
  | 2 => s.modCtx g fun c => { c with tcregs := tblOf 32 (dwAt bs) }
  | 3 => match loadSnap bs with
    | .ok l => s.modCtx g fun c => { c with snapshot := l }
    | .error _ => s
  | 4 => match loadCands bs with
    | .ok t => s.modCtx g fun c => { c with cands := t }
    | .error _ => s
  | 5 => if bit (bs.getD 0 0) 0 then s.modArray (pairOf g) fun a =>
        a.refill g (bit (bs.getD 0 0) 1).toNat (accCode (bs.getD 1 0)) (accCode (bs.getD 2 0))
          (accOfBytes ((bs.drop 0x100).take 0x2000)) (accOfBytes ((bs.drop 0x4100).take 0x2000))
      else s
  | _ => match s.unitOwned g with
    | some u => (s.modXfu (clusterOf g) ((s.group (s.ctx g).group).units.getD u 0) fun x => x.restore bs s.tick).bump
    | none => s

/-- A part that cannot be loaded: cause 0x06 with its area offset. -/
def partCheck (s : State) (g : Nat) (k : Nat) (bs : List Byte) : Chk Unit :=
  match k with
  | 3 => match loadSnap bs with | .ok _ => .ok () | .error off => .error (.trap 0x06 (BitVec.ofNat 64 off))
  | 4 => match loadCands bs with | .ok _ => .ok () | .error off => .error (.trap 0x06 (BitVec.ofNat 64 off))
  | 5 => bankCheck s g bs
  | _ => .ok ()

/-- Every check of a list in order. -/
def allChk {α : Type} (f : α → Chk Unit) : List α → Chk Unit
  | [] => .ok ()
  | x :: l => match f x with
    | .ok _ => allChk f l
    | .error e => .error e

/-- LOADC. -/
def issueLoadc (e : Env) (m : BitVec 7) (r : BitVec 6) (s : State) : Issue := do
  handlerOnly s e.g
  let base := saveAddr e r s
  aligned base.toNat 4096
  let ks := (List.range 7).filter fun k => bit m k && (k != 6 || (s.unitOwned e.g).isSome)
  let l ← areaAccess s e.g base.toNat ks .r
  match poisonOf s (l.flatMap (·.2)) with
  | some info => .error (.trap 0x14 info)
  | none =>
    let ps := l.map fun p => (p.1, readSectors s p.2)
    allChk (fun p => partCheck s e.g p.1 p.2) ps
    accessesDone s e.g
    storeInOrder s e.g (l.flatMap (·.2))
    enginesDone s e.g m
    commit fun s => ps.foldl (fun s p => applyPart e.g p.1 p.2 s) (touchRead (l.flatMap (·.2)) s)

/-! ## Saving a stopped context (R372, R431) -/

/-- The context stops at its boundary for pre-emption; a blocked one will offer its bundle again (R372). -/
def stopForSave (g : Nat) (s : State) : State :=
  passIssue g (s.modCtx g fun c => { c.stopIssue with run := .saved, preempt := false })

/-- Operations of the context that end before its state is saved: the array's, engine queues, copies to memory, units but a
running DECODE, range operations, and stores that can perform (R181, R284, R324). -/
def saveProgress (g : Nat) (s : State) : Option State :=
  let k := coreOf g
  let cl := clusterOf g
  let mine (j : Job) : Bool := j.ctx == g
  if (s.ctx g).delayed.any fun d => lateReady g d s then some (drainLate g s)
  else if (s.array (pairOf g)).holds g then some (arrayProgress (pairOf g) s)
  else if (s.core k).tileQ.any mine then some (popTileQ k s)
  else if (s.core k).indexQ.any mine then some (popIndexQ k s)
  else if (s.core k).assayQ.any mine then some (popAssayQ k s)
  else match (s.core k).xferQ.findIdx? mine with
    | some i => some (popXferQ k i s)
    | none => match (s.cluster cl).copies.findIdx? fun j =>
        j.ctx == g && j.stream.isNone && !(s.cluster cl).frozenChannels.contains j.channel with
      | some i => some (copyEnd cl i s)
      | none => match (s.cluster cl).xfus.find? fun x => match x.2.job with | some j => j.ctx == g && j.op != 0 | none => false with
        | some x => some (xfuEnd cl x.1 s)
        | none => match (s.ctx g).ranges with
          | r :: _ => if earlier g allClasses r.seq s then none else some (rangeEnd g s)
          | [] => none

/-- Area `k` of a core in its partition's save pool: 16 areas of 64 KiB per core, in core order (log 15). -/
def poolArea (s : State) (part core k : Nat) : Nat := (s.part part).pool + 65536 * (16 * core + k)

/-- The lowest free area of a core (R372). -/
def freeArea (s : State) (core : Nat) : Option Nat :=
  leastFrom (fun k => !s.saves.any fun x => coreOf x.2.home == core && x.2.area == some k) 0 16

/-- A frame that the command processor, the dispatchers and the runtime's save pool reach for a partition: below DPSIZE, granted to it,
present and without a map error (R23, R243, R388, R391). -/
def cpReach (s : State) (part : Nat) (w : Bool) (f : Nat) : Bool :=
  let gr := s.grant f
  decide (65536 * f < s.dpBytes) && (gr.owner == some part || (gr.sharers.contains part && !w)) && frP (s.frame f) && !frError (s.frame f)

/-- The frames that `n` bytes from `a` touch. -/
def framesAt (a n : Nat) : List Nat := (List.range ((a + n - 1) / 65536 + 1 - a / 65536)).map (· + a / 65536)

/-- An area in frames that are the partition's own: no other's memory is written or read in its name (R388). -/
def areaReach (s : State) (part addr : Nat) : Bool := (framesAt addr 65536).all (cpReach s part true)

/-- All parts written into an area, those of a bank or unit when one is owned (R437). Only a stop for pre-emption sets FLAGS bit 1
(R436). Nothing is written of an area that is not the partition's. -/
def writeArea (g addr : Nat) (s : State) : State :=
  let pre := (s.ctx g).run == .saved
  if !areaReach s (s.ctx g).part addr then s
  else (List.range 7).foldl (fun s k =>
    match partBytes s g k (s.ctx g).pc pre with
    | some bs => writeBack (addr + (partRange k).1) bs s
    | none => s) s

/-- Key of a group's core program among the saved contexts. -/
def saveKey (grp prog : Nat) : Nat := 8 * grp + prog

/-- Copies of a context under another number: a saved one's under that of no hardware context. -/
def renameCopies (from' to' : Nat) (c : Cluster) : Cluster :=
  { c with copies := c.copies.map fun j => if j.ctx == from' then { j with ctx := to' } else j }

def Place.rehome (p : Place) (from' to' : Nat) : Place :=
  match p with
  | .scratch g off => .scratch (if g = from' then to' else g) off
  | .mint g off => .mint (if g = from' then to' else g) off
  | p => p

def Late.rehome (l : Late) (from' to' : Nat) : Late :=
  match l with
  | .store w => .store (w.map fun x => (x.1.rehome from' to', x.2))
  | l => l

/-- A context that moves to another hardware context: its own scratch goes with it. -/
def Ctx.rehome (c : Ctx) (from' to' : Nat) : Ctx :=
  let sector (x : Sector) : Sector := { x with place := x.place.rehome from' to' }
  { c with
    streams := c.streams.map fun q => (q.1, { q.2 with pending := q.2.pending.map fun p => { p with src := p.src.map sector } })
    delayed := c.delayed.map fun d => { d with act := d.act.rehome from' to' } }

/-! ### Reading an area back (R437) -/

/-- Snapshot entries read back keep the Q bits of the results they stand for, which the area does not hold (R426, R432). -/
def keepSquash (old new : List Snap) : List Snap :=
  new.zipIdx.map fun e => { e.1 with squash := (old[e.2]?).any fun o => o.squash && o.kind == e.1.kind && o.index == e.1.index }

/-- The first sector of `n` bytes from `a` that is poisoned, or whose line has bad metadata (R412). -/
def badSector (s : State) (a n : Nat) : Option W64 :=
  match ((List.range ((a + n - 1) / 64 + 1 - a / 64)).map (· + a / 64)).find? s.poison.contains with
  | some x => some (BitVec.ofNat 64 (64 * x))
  | none => (badLineAt s a n).map fun l => BitVec.ofNat 64 (512 * l.1)

/-- The units of a saved context, the first as its area gives it. The count of its history is the record's, and so is the decoder state
that a suspended DECODE started from. None where SUSP is not what the record has. -/
def resumedUnits (units : List (Nat × Xfu)) (bs : List Byte) (tick : Nat) : Option (List (Nat × Xfu)) :=
  match units with
  | [] => some []
  | y :: l =>
    let x := { y.2.restore bs tick with histLen := y.2.histLen }
    match y.2.job, bit (bs.getD 42 0) 1 with
    | none, false => some ((y.1, x) :: l)
    | some j, true => some ((y.1, { x with job := some (j.resumed bs), lens := y.2.lens, hist := y.2.hist }) :: l)
    | _, _ => none

/-- A saved context as its area at `addr` gives it, or the cause for which it cannot be resumed: an area that is no longer its
partition's, a poisoned part, or one that LOADC would not take (log 35). -/
def Saved.take (x : Saved) (addr : Nat) (s : State) : Except (Nat × W64) Saved :=
  let bs (k : Nat) : List Byte := readBytes s.mem (addr + (partRange k).1) (partRange k).2
  let ks := [0, 1, 2, 3, 4] ++ (if x.banks.isEmpty then [] else [5]) ++ if x.units.isEmpty then [] else [6]
  if !areaReach s x.ctx.part addr then .error (0x04, BitVec.ofNat 64 addr)
  else match ks.findSome? fun k => badSector s (addr + (partRange k).1) (partRange k).2 with
  | some info => .error (0x14, info)
  | none => match loadSnap (bs 3), loadCands (bs 4), resumedUnits x.units (bs 6) s.tick with
    | .error off, _, _ => .error (0x06, BitVec.ofNat 64 off)
    | _, .error off, _ => .error (0x06, BitVec.ofNat 64 off)
    | _, _, none => .error (0x06, 0xE700)
    | .ok snap, .ok cands, some units =>
      let c := { loadRegs (bs 0) x.ctx with
        pc := dwAt (bs 0) 0x450 &&& 0xFFFFFFFFFFFFFFF0, pregs := (tblOf 128 (dwAt (bs 1))).drop 1, tcregs := tblOf 32 (dwAt (bs 2))
        snapshot := keepSquash x.ctx.snapshot snap, cands := cands }
      let banks := match x.banks with
        | [] => []
        | b :: l => (if bit ((bs 5).getD 0 0) 0 then [(b.1, accCode ((bs 5).getD 1 0), accCode ((bs 5).getD 2 0),
            accOfBytes (((bs 5).drop 0x100).take 0x2000), accOfBytes (((bs 5).drop 0x4100).take 0x2000))] else []) ++ l
      .ok { x with ctx := c, banks := banks, units := units, area := none }

/-- The saved context with its area read back. -/
def Saved.back (x : Saved) (s : State) : Except (Nat × W64) Saved :=
  match x.area with
  | some k => x.take (poolArea s x.ctx.part (coreOf x.home) k) s
  | none => .ok x

/-- A saved context that will return: pre-empted, or waiting for frame service (R374, R431). -/
def Saved.returns (x : Saved) : Bool :=
  match x.ctx.run with
  | .saved => true
  | .frameWait => true
  | _ => false

/-- Displacement needs no new area: where a core has none free, a context displaced by a group takes that of the group's context on the
core, which is read back first (R374). -/
def yieldArea (g : Nat) (s : State) : State :=
  let c := s.ctx g
  let grp := s.group c.group
  if (freeArea s (coreOf g)).isSome || c.run != .saved then s
  else match s.saves.find? fun x => coreOf x.2.home == coreOf g && x.2.area.isSome && x.2.returns
      && (grp.loanFrom.contains x.2.ctx.group || (x.2.ctx.launch == c.launch && decide ((s.group x.2.ctx.group).index < grp.index))) with
    | some x => match x.2.back s with
      | .ok y => { s with saves := tset s.saves x.1 y }
      | .error _ => s
    | none => s

/-! ### Leaving and returning -/

/-- A context has an operation under way. -/
def ctxBusy (s : State) (g : Nat) : Bool :=
  let k := s.core (coreOf g)
  let c := s.cluster (clusterOf g)
  let mine (j : Job) : Bool := j.ctx == g
  k.tileQ.any mine || k.xferQ.any mine || k.indexQ.any mine || k.assayQ.any mine || (s.array (pairOf g)).holds g
    || c.copies.any (fun j => j.ctx == g) || c.xfus.any (fun x => match x.2.job with | some j => j.ctx == g | none => false)
    || !(s.ctx g).ranges.isEmpty || !(s.ctx g).delayed.isEmpty

/-- The hardware context is given up: what stays reserved is in the record (R373). -/
def park (g : Nat) (x : Saved) (s : State) : State :=
  let c := s.ctx g
  (({ s with saves := tset s.saves (saveKey c.group c.program) x } : State).setCtx g Ctx.initial).modGroup c.group fun x =>
    { x with members := tdel x.members c.program }

/-- A group that is saved whole gives up the contexts of its programs that have exited, too. -/
def parkExited (grp : Nat) (s : State) : State :=
  if s.groupRuns grp then s
  else (s.group grp).members.foldl (fun s m =>
    if (s.ctx m.2).run == .exited && !ctxBusy s m.2 then
      park m.2 { ctx := s.ctx m.2, home := m.2, area := none, banks := [], units := [] } s
    else s) s

/-- A group that no longer runs holds nothing, so nothing as a loan (R373, R374). -/
def endLoans (grp : Nat) (s : State) : State := if s.groupRuns grp then s else s.modGroup grp fun x => { x with loanFrom := [] }

/-- A member of a Mint set has another number: a saved one that of no hardware context (R387). -/
def renameMember (die from' to' : Nat) (s : State) : State :=
  s.modDie die fun d => { d with mint := d.mint.map fun m => { m with members := m.members.map fun h => if h = from' then to' else h } }

/-- The context leaves its hardware context, banks and units for its save area; the rest stays reserved (R373). Its units stay its
group's, unowned (R324); a suspended DECODE goes with its state. -/
def saveCtx (g : Nat) (s : State) : State :=
  let s := yieldArea g s
  let c := s.ctx g
  let key := saveKey c.group c.program
  match freeArea s (coreOf g) with
  | none => s
  | some k =>
    let x : Saved := { ctx := { c with refills := [], unitRefills := [] }, home := g, area := some k, banks := s.banksOf g, units := s.unitsOf g }
    let s := (writeArea g (poolArea s c.part (coreOf g) k) s).bump
    let s := s.modArray (pairOf g) fun a => a.releaseAll g
    let s := s.modCluster (clusterOf g) fun y => { renameCopies g (savedNumber key) y with
      xfus := y.xfus.map fun e => if e.2.owner = some g then (e.1, { e.2 with owner := none, wrote := false, job := none }) else e }
    let s := if c.stream then renameMember (dieOf g) g (savedNumber key) s else s
    endLoans c.group (parkExited c.group (park g x s))

/-- One move of a context that is to be saved, or that has exited from a group that is saved: what it started ends, then it leaves. While a
Vault holds a write of it, its stall has not ended (R43, R421). -/
def saveStep (g : Nat) (s : State) : State :=
  if heldByVault s g then s
  else match saveProgress g s with
  | some s => s
  | none => if (s.ctx g).run = .exited then parkExited (s.ctx g).group s else saveCtx g s

/-- A saved context resumes in hardware context `g`, with its banks and units still to be given back; one whose area cannot be read
back is frozen for inspection (R426, R437; log 35). -/
def restoreCtx (key g : Nat) (s : State) : State :=
  match tfind s.saves key with
  | none => s
  | some x0 =>
    let r := x0.back s
    let x := match r with | .ok x => x | .error _ => x0
    let c := x.ctx.rehome x.home g
    let s := dropClaims g { s with saves := tdel s.saves key }
    let s := s.setCtx g { c.replay with run := .ready, watch := s.cycles.toNat, refills := x.banks, unitRefills := x.units }
    let s := s.modCluster (clusterOf g) (renameCopies (savedNumber key) g)
    let s := s.modGroup c.group fun y => { y with members := tset y.members c.program g }
    let s := if c.stream then renameMember (dieOf g) (savedNumber key) g s else s
    match r with
    | .ok _ => s
    | .error (cause, info) =>
      let s := if cause = 0x14 then consumed g info s else s
      violation 0 cause c.part g info (s.modCtx g (·.freeze cause))

/-! ### Banks and units come back (R181, R324) -/

/-- A bank is free. -/
def bankBack (s : State) (g b : Nat) : Bool := (tfind (s.array (pairOf g)).owners b).isNone

/-- A unit is the context's group's, and unowned. -/
def unitBack (s : State) (g u : Nat) : Bool :=
  let x := s.xfu (clusterOf g) u
  x.group == some (s.ctx g).group && x.owner.isNone && x.job.isNone

/-- A resumed context is ready once every bank and unit it has yet to get back is free. -/
def refillReady (s : State) (g : Nat) : Bool :=
  (s.ctx g).refills.all (fun b => bankBack s g b.1) && (s.ctx g).unitRefills.all fun u => unitBack s g u.1

/-- A unit takes up the state a context saved: ports, decoder state, ERR, ownership and a suspended DECODE, which goes on. What it counts
for the group stays. -/
def Xfu.resume (x y : Xfu) (g : Nat) : Xfu :=
  { x with ports := y.ports, owner := some g, wrote := y.wrote, job := y.job.map fun j => { j with ctx := g }
           op := if y.job.isSome then y.op else x.op, err := y.err, valid := y.valid, lens := y.lens, hist := y.hist, histLen := y.histLen }

/-- The banks are refilled and the units restored before the first bundle. -/
def takeRefills (g : Nat) (s : State) : State :=
  let c := s.ctx g
  if c.refills.isEmpty && c.unitRefills.isEmpty then s
  else
    let s := s.modArray (pairOf g) fun a => c.refills.foldl (fun a b => a.refill g b.1 b.2.1 b.2.2.1 b.2.2.2.1 b.2.2.2.2) a
    let s := s.modCluster (clusterOf g) fun y => { y with
      xfus := c.unitRefills.foldl (fun t u => tset t u.1 ((tget Xfu.initial t u.1).resume u.2 g)) y.xfus }
    s.modCtx g fun c => { c with refills := [], unitRefills := [] }

end Sys2Proof.Machine
end

