-- ==== Sys2Proof/Machine/Bundle.lean ====
section
/-!
DEFINITION. A bundle of four slot words as its operations (R76 to R92): what each operation does at issue, the guards and
operands that a header lends, path tags, and the words that are illegal (R103).
-/
set_option Elab.async false
namespace Sys2Proof.Machine

/-- What each slot operation does at issue. -/
def issueOf (i : Instr) (v : Env) (s : State) : Issue :=
  match i with
  | .add _ _ d a b f => issueAdd v d a b f s
  | .sub _ _ d a b f => issueSub v d a b f s
  | .and _ _ d a b => issueAnd v d a b s
  | .or _ _ d a b => issueOr v d a b s
  | .xor _ _ d a b => issueXor v d a b s
  | .andn _ _ d a b => issueAndn v d a b s
  | .shl _ _ d a b f => issueShl v d a b f s
  | .shr _ _ d a b f => issueShr v d a b f s
  | .sar _ _ d a b f => issueSar v d a b f s
  | .rot _ _ d a b f => issueRot v d a b f s
  | .mul _ _ d a b f => issueMul v d a b f s
  | .div _ _ d a b f => issueDiv v d a b f s
  | .min _ _ d a b f => issueMin v d a b f s
  | .max _ _ d a b f => issueMax v d a b f s
  | .bitc _ _ d a f => issueBitc v d a f s
  | .addi _ _ d a i => issueAddi v d a i s
  | .andi _ _ d a i => issueAndi v d a i s
  | .ori _ _ d a i => issueOri v d a i s
  | .xori _ _ d a i => issueXori v d a i s
  | .shli _ _ d a i => issueShli v d a i s
  | .shri _ _ d a i => issueShri v d a i s
  | .sari _ _ d a i => issueSari v d a i s
  | .muli _ _ d a i => issueMuli v d a i s
  | .li _ _ d i => issueLi v d i s
  | .lis _ _ d i => issueLis v d i s
  | .addpc _ _ d i => issueAddpc v d i s
  | .cmp _ _ p a b c => issueCmp v p a b c s
  | .cmpu _ _ p a b c => issueCmpu v p a b c s
  | .cmpi _ _ p a i c => issueCmpi v p a i c s
  | .pfrom _ _ p a => issuePfrom v p a s
  | .br _ _ d => issueBr v d s
  | .call _ _ d => issueCall v d s
  | .brb _ _ k => issueBrb v k s
  | .ret _ _ => issueRet v s
  | .lbt _ _ k d => issueLbt v k d s
  | .movb _ _ k r0 f => issueMovb v k r0 f s
  | .loop _ _ c i => issueLoop v c i s
  | .csrd _ _ r r0 => issueCsrd v r r0 s
  | .cswr _ _ r r0 => issueCswr v r r0 s
  | .mpset _ _ m r0 => issueMpset v m r0 s
  | .tcset _ _ t r0 => issueTcset v t r0 s
  | .tcget _ _ t r0 => issueTcget v t r0 s
  | .yield _ _ => issueYield v s
  | .exit _ _ => issueExit v s
  | .trap _ _ c => issueTrap v c s
  | .sysc _ _ c => issueSysc v c s
  | .brk _ _ c => issueBrk v c s
  | .grow _ _ d a => issueGrow v d a s
  | .bar _ _ n => issueBar v n s
  | .barW _ _ n => issueBarW v n s
  | .barAw _ _ n => issueBarAw v n s
  | .rfe _ _ => issueRfe v s
  | .savec _ _ m r0 => issueSavec v m r0 s
  | .loadc _ _ m r0 => issueLoadc v m r0 s
  | .vadd q _ d a b m => issueVadd v q d a b m s
  | .vsub q _ d a b m => issueVsub v q d a b m s
  | .vmul q _ d a b m => issueVmul v q d a b m s
  | .vmin q _ d a b m => issueVmin v q d a b m s
  | .vmax q _ d a b m => issueVmax v q d a b m s
  | .vand q _ d a b => issueVand v q d a b s
  | .vor q _ d a b => issueVor v q d a b s
  | .vxor q _ d a b => issueVxor v q d a b s
  | .vshl q _ d a b => issueVshl v q d a b s
  | .vshr q _ d a b => issueVshr v q d a b s
  | .vsar q _ d a b => issueVsar v q d a b s
  | .vadds q _ d a r0 m => issueVadds v q d a r0 m s
  | .vmuls q _ d a r0 m => issueVmuls v q d a r0 m s
  | .vli q _ d i => issueVli v q d i s
  | .vfadd q _ d a b => issueVfadd v q d a b s
  | .vfsub q _ d a b => issueVfsub v q d a b s
  | .vfmul q _ d a b => issueVfmul v q d a b s
  | .vfma q _ d a b c m => issueVfma v q d a b c m s
  | .vfmin q _ d a b m => issueVfmin v q d a b m s
  | .vfmax q _ d a b m => issueVfmax v q d a b m s
  | .vfrcp q _ d a => issueVfrcp v q d a s
  | .vfrsq q _ d a => issueVfrsq v q d a s
  | .vfexp2 q _ d a => issueVfexp2 v q d a s
  | .vflog2 q _ d a => issueVflog2 v q d a s
  | .vcvt q _ d a m => issueVcvt v q d a m s
  | .vfclass q _ d a m => issueVfclass v q d a m s
  | .vdadd q _ d a b m => issueVdadd v q d a b m s
  | .vdmul q _ d a b => issueVdmul v q d a b s
  | .vdmax q _ d a b m => issueVdmax v q d a b m s
  | .vdcvt q _ d a m => issueVdcvt v q d a m s
  | .vdscl q _ d a r0 => issueVdscl v q d a r0 s
  | .vperm q _ d a b m => issueVperm v q d a b m s
  | .vnib q _ d a m => issueVnib v q d a m s
  | .vshuf q _ d a b m => issueVshuf v q d a b m s
  | .vbcast q _ d r0 m => issueVbcast v q d r0 m s
  | .vmovs q _ d a l m => issueVmovs v q d a l m s
  | .vins q _ d a r0 m => issueVins v q d a r0 m s
  | .viota q _ d m => issueViota v q d m s
  | .vmov q _ d a => issueVmov v q d a s
  | .vred q _ d a m => issueVred v q d a m s
  | .vscan q _ d a m => issueVscan v q d a m s
  | .vcmp q _ p a b c => issueVcmp v q p a b c s
  | .vfcmp q _ p a b c => issueVfcmp v q p a b c s
  | .pand q _ p a b => issuePand v q p a b s
  | .por q _ p a b => issuePor v q p a b s
  | .pxor q _ p a b => issuePxor v q p a b s
  | .pandn q _ p a b => issuePandn v q p a b s
  | .pcnt q _ d a m => issuePcnt v q d a m s
  | .vqdeq q _ d a b m => issueVqdeq v q d a b m s
  | .vqnt q _ d a b m => issueVqnt v q d a b m s
  | .vrng q _ d a b m => issueVrng v q d a b m s
  | .mcall _ r a => issueMcall v r a s
  | .bch _ a => issueBch v a s
  | .ech _ a => issueEch v a s
  | .mdrain _ a t n m => issueMdrain v a t n m s
  | .mzero _ a => issueMzero v a s
  | .mspill _ a t h => issueMspill v a t h s
  | .mfill _ a t h => issueMfill v a t h s
  | .mpwr _ t => issueMpwr v t s
  | .mpwrTab _ t => issueMpwrTab v t s
  | .mprd _ t => issueMprd v t s
  | .mprdTab _ t => issueMprdTab v t s
  | .tzero _ d m => issueTzero v d m s
  | .tcopy _ d a => issueTcopy v d a s
  | .tv2t _ d a i => issueTv2t v d a i s
  | .tt2v _ d a i => issueTt2v v d a i s
  | .ckleaf _ t r c => issueCkleaf v t r c s
  | .cknode _ t r c => issueCknode v t r c s
  | .ckback _ t r c => issueCkback v t r c s
  | .ckdiv _ t r d => issueCkdiv v t r d s
  | .cksamp _ t r c => issueCksamp v t r c s
  | .ixwalk _ d a b => issueIxwalk v d a b s
  | .ixsplit _ d a p => issueIxsplit v d a p s
  | .asort _ d a b m => issueAsort v d a b m s
  | .amrg _ k t r0 => issueAmrg v k t r0 s
  | .cread _ k t r0 => issueCread v k t r0 s
  | .cclr _ k m => issueCclr v k m s
  | .csamp _ k r0 => issueCsamp v k r0 s
  | .clpush _ a n => issueClpush v a n s
  | .clpull _ d => issueClpull v d s
  | .clseal _ n => issueClseal v n s
  | .clcfg _ a => issueClcfg v a s
  | .clcfgEnd _ => issueClcfgEnd v s
  | .ldd q _ d b c f => issueLdd v q d b c f s
  | .ldw q _ d b c f => issueLdw v q d b c f s
  | .ldwu q _ d b c f => issueLdwu v q d b c f s
  | .ldh q _ d b c f => issueLdh v q d b c f s
  | .ldhu q _ d b c f => issueLdhu v q d b c f s
  | .ldb q _ d b c f => issueLdb v q d b c f s
  | .ldbu q _ d b c f => issueLdbu v q d b c f s
  | .std _ d b c f => issueStd v d b c f s
  | .stw _ d b c f => issueStw v d b c f s
  | .sth _ d b c f => issueSth v d b c f s
  | .stb _ d b c f => issueStb v d b c f s
  | .vld q _ d b c f => issueVld v q d b c f s
  | .vst _ d b c f => issueVst v d b c f s
  | .lddp q _ d b c f => issueLddp v q d b c f s
  | .vldp q _ d b c f => issueVldp v q d b c f s
  | .vstp _ d b c f => issueVstp v d b c f s
  | .tld _ t b c => issueTld v t b c s
  | .tst _ t b c => issueTst v t b c s
  | .tgath _ t b c i w => issueTgath v t b c i w s
  | .tscat _ t b c i w => issueTscat v t b c i w s
  | .tscadd _ t b c i w => issueTscadd v t b c i w s
  | .aadd _ d b r0 o => issueAadd v d b r0 o s
  | .aaddw _ d b r0 o => issueAaddw v d b r0 o s
  | .afadd _ d b r0 o => issueAfadd v d b r0 o s
  | .adadd _ d b r0 o => issueAdadd v d b r0 o s
  | .amax _ d b r0 o => issueAmax v d b r0 o s
  | .amin _ d b r0 o => issueAmin v d b r0 o s
  | .aor _ d b r0 o => issueAor v d b r0 o s
  | .aand _ d b r0 o => issueAand v d b r0 o s
  | .axchg _ d b r0 o => issueAxchg v d b r0 o s
  | .acas _ d b r0 o => issueAcas v d b r0 o s
  | .fence _ m k => issueFence v m k s
  | .waitm _ a b c f => issueWaitm v a b c f s
  | .cpy _ a b c => issueCpy v a b c s
  | .cpyZero _ a c => issueCpyZero v a c s
  | .cpyq _ n b c => issueCpyq v n b c s
  | .qpop _ n d => issueQpop v n d s
  | .qpopBind _ n d => issueQpopBind v n d s
  | .qstat _ n d => issueQstat v n d s
  | .sbar _ m k => issueSbar v m k s
  | .rinv _ a b c f => issueRinv v a b c f s
  | .rflush _ a b c f => issueRflush v a b c f s
  | .resv _ h b c f => issueResv v h b c f s
  | .rrel _ h => issueRrel v h s
  | .rrelAll _ => issueRrelAll v s
  | .movp _ p r0 => issueMovp v p r0 s
  | .movfp _ p r0 => issueMovfp v p r0 s
  | .qpush _ n d => issueQpush v n d s
  | .qpushBind _ n d => issueQpushBind v n d s
  | .xfuDecode _ u r0 => issueXfuDecode v u r0 s
  | .xfuZorder _ u r0 => issueXfuZorder v u r0 s
  | .xfuUnz _ u r0 => issueXfuUnz v u r0 s
  | .xfuCopy _ u r0 => issueXfuCopy v u r0 s
  | .xfuUnpack4 _ u r0 => issueXfuUnpack4 v u r0 s
  | .xfuSave _ u r0 => issueXfuSave v u r0 s
  | .xfuLoad _ u r0 => issueXfuLoad v u r0 s
  | .xfuAbort _ u r0 => issueXfuAbort v u r0 s
  | .hdrT _ h q b _ _ _ => issueHdrT v h q b s
  | _ => nothing

/-- No-operations (R84). -/
def isNoop (i : Instr) : Bool :=
  match i with
  | .nop _ => true
  | .vnop => true
  | .xnop => true
  | .mnop => true
  | _ => false

/-- The guard field of a slot word; a header has none (R78, R79, R86). -/
def guardOf (i : Instr) (w : W32) : BitVec 3 :=
  match i with
  | .hdrT .. => 0
  | _ => fld w 21 3

/-- The families to which HDR.X lends an operand extension, and the values it may take (R89). -/
def xLegal (i : Instr) (x : BitVec 3) : Bool :=
  match i with
  | .vli .. => true
  | .ldd .. | .ldw .. | .ldwu .. | .ldh .. | .ldhu .. | .ldb .. | .ldbu .. | .std .. | .stw .. | .sth .. | .stb .. | .lddp .. => true
  | .vld .. | .vst .. | .vldp .. | .vstp .. => true
  | .aadd .. | .aaddw .. | .afadd .. | .adadd .. | .amax .. | .amin .. | .aor .. | .aand .. | .axchg .. | .acas .. =>
    decide (x.toNat ≤ 5)
  | _ => x == 0

/-- The lent field of slot `n` in a HDR.X word (R87). -/
def lent (w0 : W32) (n : Nat) : BitVec 7 := w0.extractLsb' (21 - 7 * n) 7

/-- The path tag of slot `n` in a HDR.T word (R90). -/
def pathTag (w0 : W32) (n : Nat) : BitVec 3 := w0.extractLsb' (12 - 3 * n) 3

def isHdrX (w0 : W32) : Bool := fld w0 23 8 &&& 0xFF == 0xFE
def isHdrT (w0 : W32) : Bool := fld w0 23 8 &&& 0xFF == 0xFF

/-- The lent field or path tag of slot `n` is at fault beside the row its opcode names (R88 to R92). Of a shape that is itself illegal
only the tags that name no leaf of any shape are. -/
def lentBad (w0 : W32) (n : Nat) (row : Option Instr) : Bool :=
  if isHdrX w0 then
    let l := lent w0 n
    if row.any isNoop then l != 0 else !(match row with | some i => xLegal i (l.extractLsb' 0 3) | none => l.extractLsb' 0 3 == 0#3)
  else if isHdrT w0 then
    let t := pathTag w0 n
    (if fld w0 20 3 = 7#3 then t == 5 || t == 6 else !tagLegal (fld w0 20 3).toNat t.toNat) || (row.any isNoop && t != 7)
  else false

/-- What the header of a bundle lends slot `n` (R88, R89, R92): `leaf` is the tree's chosen leaf. -/
def slotEnv (g : Nat) (w0 : W32) (leaf n : Nat) (gd : BitVec 3) : Env :=
  if n = 0 then { g := g, gd := gd }
  else if isHdrX w0 then
    let l := lent w0 n
    { g := g, gd := gd, gh := l.extractLsb' 3 3, neg := l.getLsbD 6, x := some (l.extractLsb' 0 3) }
  else if isHdrT w0 then { g := g, gd := gd, go := pathTag w0 n == 7 || (pathTag w0 n).toNat == leaf }
  else { g := g, gd := gd }

/-- The four slots in order, each with its word and what the word decodes to. -/
def slotsOf (b : BitVec 128) : List (Nat × W32 × Except DecodeError Instr) :=
  [(0, slotWord b .c, decodeSlot .c (slotWord b .c)), (1, slotWord b .v, decodeSlot .v (slotWord b .v)),
   (2, slotWord b .x, decodeSlot .x (slotWord b .x)), (3, slotWord b .m, decodeSlot .m (slotWord b .m))]

/-- The slot of a position. -/
def slotAt : Nat → Slot
  | 0 => .c
  | 1 => .v
  | 2 => .x
  | _ => .m

/-- Slots whose words are illegal (R103, order 1): undecodable words; a lent field or tag at fault marks slot 0 too. -/
def badSlots (b : BitVec 128) : List Nat :=
  (slotsOf b).flatMap fun x =>
    (match x.2.2 with | .error _ => [x.1] | .ok _ => [])
      ++ if x.1 != 0 && lentBad (slotWord b .c) x.1 (rowOf (slotAt x.1) x.2.1) then [0, x.1] else []

/-- The operation of a slot. HDR.X is no operation of its own. -/
def toOp (g : Nat) (w0 : W32) (leaf : Nat) (x : Nat × W32 × Except DecodeError Instr) : Option SlotOp :=
  match x.2.2 with
  | .error _ => none
  | .ok i =>
    match i with
    | .hdrX .. => none
    | i => if isNoop i then none
      else some { n := x.1, instr := i, env := slotEnv g w0 leaf x.1 (guardOf i x.2.1), issue := issueOf i }

/-- The operations of a bundle, no-operations left out. The leaf is that of its tree header, if it has one (R91). Where a test of the
header is pending, so that the bundle takes cause 0x03, the spec does not say which gated slots FAULTMASK shows: the model gates them by
the tests' values before their pending results (log 63). -/
def bundleOps (g : Nat) (b : BitVec 128) (s : State) : List SlotOp :=
  let w0 := slotWord b .c
  let leaf := if isHdrT w0 then treeLeaf (s.ctx g) (fld w0 20 3).toNat (fld w0 15 5).toNat else 4
  (slotsOf b).filterMap (toOp g w0 leaf)

/-- A bundle issues in context `g`. -/
def issueBundle (g : Nat) (b : BitVec 128) (s : State) : State :=
  issueSlots g ((slotWord b .c).getLsbD 31) (badSlots b) (bundleOps g b s) s

/-- The bundle would block now (R41). -/
def bundleBlocks (g : Nat) (b : BitVec 128) (s : State) : Bool :=
  let ops := bundleOps g b s
  (badSlots b ++ conflicts ops ++ rfeBeside ops ++ slips g ops s ++ dependents (s.ctx g).groupWrites ops).isEmpty
    && wouldBlock g ops s

end Sys2Proof.Machine
end

