-- ==== Sys2Proof/Machine/Fetch.lean ====
section
/-!
DEFINITION. Fetching a bundle (R76, R236, R442), the boundary before it (R427, R429), which context of a core issues next (R40
to R42), and what a core's engines do while no context can issue.
-/
set_option Elab.async false
namespace Sys2Proof.Machine

/-! ## Fetch -/

/-- The bundle at the context's pc, or the fate of its fetch (R66, R236, R242, R442). -/
def fetch (s : State) (g : Nat) : Chk (BitVec 128) :=
  match xlate s g (s.ctx g).pc.toNat 16 .x 0 with
  | .error (cause, info) => .error (.trap cause info)
  | .ok x => match x.demoted with
    | some f => .error (.stall (restoreFrame f))
    | none => match poisonAt s x.place 16 with
      | some info => .error (.trap 0x14 info)
      | none => .ok (BitVec.ofNat 128 (leNat (readPlace s x.place 16)))

/-- The frame a fetch reads is touched (R418; log 50). -/
def touchFetch (g : Nat) (s : State) : State :=
  match xlate s g (s.ctx g).pc.toNat 16 .x 0 with
  | .ok x => touchRead [x] s
  | .error _ => s

/-- The next bundle of a context is fetched, decoded and issued; a fault of the fetch marks no slot. -/
def offerBundle (g : Nat) (s : State) : State :=
  match fetch s g with
  | .ok b => issueBundle g b (touchFetch g s)
  | .error (.trap cause info) => takeTrap g cause info 0 s
  | .error (.stall f) => stallCtx g f s
  | .error _ => s

/-! ## The boundary before a bundle (R429) -/

/-- The first poisoned result due at this boundary, in issue order. -/
def Ctx.duePoison (c : Ctx) : Option Nat := c.flights.findIdx? fun f => decide (f.due ≤ c.bundles) && f.poison.isSome

/-- WAIT of R439. -/
def waitCode (c : Ctx) : Nat :=
  if c.hm then 6 else match c.run with
    | .blocked .emptyTile => 1
    | .blocked .tileRead => 1
    | .blocked .emptyStream => 2
    | .blocked .fullQueue => 3
    | .blocked .waitm => 4
    | .blocked .bar => 5
    | _ => 0

/-- The watchdog count has reached WDINT: 3,000,000 cycles a millisecond (R438). -/
def watchdogDue (s : State) (g : Nat) : Bool :=
  decide ((s.part (s.ctx g).part).wdint * 3000000 ≤ s.cycles.toNat - (s.ctx g).watch)

/-- The first event of the context's boundary, in the order of R429: an out-of-space freeze, which ends a stall in place too; poison
that lands or that a transfer met; the watchdog, whose count starts again (log 70); pre-emption. A context that stalls in place is at no
boundary (R43, R372). -/
def boundaryEvent (g : Nat) (s : State) : Option State :=
  let c := s.ctx g
  match c.boundaryFreeze with
  | some pa => some (takeTrap g 0x0A pa 0 (s.modCtx g fun c => { c with boundaryFreeze := none }))
  | none =>
    if c.stalled || heldByVault s g then none
    else match c.duePoison, c.boundaryPoison with
      | some i, _ => some (takeTrap g 0x14 (((c.flights[i]?).bind (·.poison)).getD 0) 0
          (s.modCtx g fun c => { c with flights := c.flights.eraseIdx i }))
      | none, info :: l => some (takeTrap g 0x14 info 0 (s.modCtx g fun c => { c with boundaryPoison := l }))
      | none, [] =>
        if watchdogDue s g then some (takeTrap g 0x15 (BitVec.ofNat 64 (waitCode c)) 0 (resetWatch g s))
        else if c.preempt && !c.hm then some (stopForSave g s)
        else none

/-- The context's `BAR.aw` still holds its next bundle (R345). -/
def held (s : State) (g : Nat) : Bool :=
  match (s.ctx g).holdBar with
  | some n => barWaits s g n
  | none => false

/-- A `BAR.aw` whose phase has passed holds nothing any more. -/
def passBar (g : Nat) (s : State) : State :=
  if (s.ctx g).holdBar.isSome then s.modCtx g fun c => { c with holdBar := none } else s

/-- Issue is offered to a context: an event of its boundary; else it stalls while a Vault holds a write of it (R421); else, once it has its
banks and units back, a barrier it waits on, then its bundle. -/
def offer (g : Nat) (s : State) : State :=
  match boundaryEvent g s with
  | some t => t
  | none =>
    if heldByVault s g then spendTime g s
    else if !refillReady s g then passIssue g s
    else
      let s := takeRefills g s
      if held s g then blockCtx g .bar s else offerBundle g (passBar g s)

/-! ## Which context issues (R40 to R42) -/

/-- What a blocked context waits for has ended. -/
def unblocked (s : State) (g : Nat) : Bool :=
  !held s g && match fetch s g with
    | .ok b => !bundleBlocks g b s
    | .error _ => true

/-- The context can take the issue slot. A stream context issues only what its Mint sends (R60, R377); a resumed one is not ready until
its banks and units are free (R181, R324). -/
def canIssue (s : State) (g : Nat) : Bool :=
  !(s.ctx g).stream && match (s.ctx g).run with
    | .ready => refillReady s g || (boundaryEvent g s).isSome
    | .blocked _ => (boundaryEvent g s).isSome || unblocked s g
    | _ => false

/-- The core gives the issue slot to `g`; a switch to another context costs it 2 cycles (R42, R364). -/
def giveIssue (g : Nat) (s : State) : State :=
  let s := if g = s.cur then s else charge g 2 { s with cycles := s.cycles + 2 }
  { s with cur := g }.modCore (coreOf g) fun k => { k with issuing := g % 4, passing := false }

/-! ## Engines -/

/-- A context of the core that waits to be saved, or for frame service, with a free area in the pool; or that has exited from a group that
is saved. -/
def toSave (s : State) (k : Nat) : Option Nat :=
  ([0, 1, 2, 3].map fun i => 4 * k + i).find? fun g =>
    let c := s.ctx g
    !heldByVault s g && match c.run with
      | .saved => (saveProgress g s).isSome || (freeArea (yieldArea g s) k).isSome
      | .frameWait => (saveProgress g s).isSome || (freeArea (yieldArea g s) k).isSome
      | .exited => !s.groupRuns c.group && (tfind (s.group c.group).members c.program) == some g
          && ((saveProgress g s).isSome || !ctxBusy s g)
      | _ => false

/-- A stream register of a context whose engine has a sector still to read and room for it. -/
def arriving (s : State) (g : Nat) : Option Nat :=
  let c := s.cluster (clusterOf g)
  ((s.ctx g).streams.find? fun q => match q.2.pending with
    | p :: _ => (p.src.head?.any fun x => decide (q.2.arrived.length + x.n / 8 ≤ 64))
        && c.copies.any fun j => j.ctx == g && j.stream == some q.1 && j.seq == p.seq && !c.frozenChannels.contains j.channel
    | [] => false).map (·.1)

/-- A context of the core with work of its own beside the queues: what waits to perform, stream elements, range operations, fence
markers. -/
def ctxProgress (s : State) (k : Nat) : Option (State → State) :=
  ([0, 1, 2, 3].map fun i => 4 * k + i).findSome? fun g =>
    if (s.ctx g).delayed.any fun d => lateReady g d s then some (drainLate g)
    else match arriving s g with
    | some q => some (streamArrive g q)
    | none =>
      if (s.ctx g).ranges.head?.any fun r => !earlier g allClasses r.seq s then some (rangeEnd g)
      else if (s.ctx g).fences.any fun f => !earlier g f.classes f.seq s then some (retireFence g)
      else none

/-- The core's engines and those of its pair and cluster do one thing: tile unit, index engine, Assay unit, transfers, array, transform
units, copy engine, and what its contexts wait for. -/
def engineStep (k : Nat) (s : State) : State :=
  let c := s.core k
  let cl := k / 8
  if !c.tileQ.isEmpty then popTileQ k s
  else if !c.indexQ.isEmpty then popIndexQ k s
  else if !c.assayQ.isEmpty then popAssayQ k s
  else if !c.xferQ.isEmpty then popXferQ k 0 s
  else if (s.array (k / 2)).busy then arrayProgress (k / 2) s
  else match (s.cluster cl).xfus.find? fun x => x.2.job.isSome with
    | some x => xfuEnd cl x.1 s
    | none => match (s.cluster cl).copies.findIdx? fun j => j.stream.isNone && !(s.cluster cl).frozenChannels.contains j.channel with
      | some i => copyEnd cl i s
      | none => match ctxProgress s k with
        | some f => f s
        | none => s

/-! ## One step of the core that holds the machine's attention -/

/-- A context that has stopped leaves its hardware context first (R372, R431). Then the context that holds issue keeps it until it passes
(R42); then the first that can issue takes it; while none can, the engines work and time passes. -/
def stepLocal (s : State) : State :=
  match toSave s (coreOf s.cur) with
  | some g => saveStep g s
  | none =>
    if !(s.core (coreOf s.cur)).passing && canIssue s s.cur then offer s.cur s
    else match (passOrder s.cur).find? (canIssue s) with
      | some g => offer g (giveIssue g s)
      | none => passTime (engineStep (coreOf s.cur) s)

/-- Attention moves to a core: the context that last held its issue slot. -/
def switchCore (k : Nat) (s : State) : State := { s with cur := 4 * k + (s.core k).issuing % 4 }

end Sys2Proof.Machine
end

