-- ==== Sys2Proof/Machine/Events.lean ====
section
/-!
DEFINITION. Events of the cores' engines, one meaning each: micro-operations (R191), the array (R178, R186, R188, R192),
completions, landings (R54, R205), tile status (R139), the watchdog (R438, R439), ARBMODE (R179), and the fetch of a bundle
that cannot be had (R236). An event whose precondition does not hold changes nothing.
-/
set_option Elab.async false
namespace Sys2Proof.Machine

/-- What an event does to a context that does not hold its core's issue slot leaves the slot with its holder. -/
def elsewhere (g : Nat) (f : State → State) (s : State) : State :=
  let p := (s.core (coreOf g)).passing
  let s' := f s
  if (s.core (coreOf g)).issuing % 4 = g % 4 then s' else s'.modCore (coreOf g) fun k => { k with passing := p }

/-- A context that issues or waits for issue. -/
def Run.placed (r : Run) : Bool :=
  match r with
  | .ready => true
  | .blocked _ => true
  | _ => false

/-! ## Micro-operations and the array -/

def execMicroNop (pr : Fin 2048) (e : BitVec 1) (s : State) : Host.Outcome State Fault Refusal :=
  .next (doMicroNop pr.val e s)
def execFeta (pr : Fin 2048) (e : BitVec 1) (sel : BitVec 3) (x : BitVec 1) (s : State) : Host.Outcome State Fault Refusal :=
  .next (doFeta pr.val e sel x s)
def execFetb (pr : Fin 2048) (e : BitVec 1) (sel : BitVec 3) (x : BitVec 1) (s : State) : Host.Outcome State Fault Refusal :=
  .next (doFetb pr.val e sel x s)
def execMac (pr : Fin 2048) (e : BitVec 1) (s : State) : Host.Outcome State Fault Refusal :=
  .next (doMac pr.val e s)
def execMacq (pr : Fin 2048) (e : BitVec 1) (s : State) : Host.Outcome State Fault Refusal :=
  .next (doMacq pr.val e s)
def execZpc (pr : Fin 2048) (e : BitVec 1) (s : State) : Host.Outcome State Fault Refusal :=
  .next (doZpc pr.val e s)
def execZacc (pr : Fin 2048) (e : BitVec 1) (s : State) : Host.Outcome State Fault Refusal :=
  .next (doZacc pr.val e s)
def execDrn (pr : Fin 2048) (e : BitVec 1) (sel : BitVec 3) (s : State) : Host.Outcome State Fault Refusal :=
  .next (doDrn pr.val e sel s)
def execSetk (pr : Fin 2048) (e : BitVec 1) (imm : BitVec 16) (m : BitVec 1) (s : State) : Host.Outcome State Fault Refusal :=
  .next (doSetk pr.val e imm m s)
def execMicroLoop (pr : Fin 2048) (e : BitVec 1) (target : BitVec 9) (s : State) : Host.Outcome State Fault Refusal :=
  .next (doMicroLoop pr.val e target s)
def execBrz (pr : Fin 2048) (e : BitVec 1) (target : BitVec 9) (s : State) : Host.Outcome State Fault Refusal :=
  .next (doBrz pr.val e target s)
def execWaitt (pr : Fin 2048) (e : BitVec 1) (s : State) : Host.Outcome State Fault Refusal :=
  .next (doWaitt pr.val e s)
def execSigt (pr : Fin 2048) (e : BitVec 1) (sel : BitVec 3) (s : State) : Host.Outcome State Fault Refusal :=
  .next (doSigt pr.val e sel s)
def execXpv (pr : Fin 2048) (e : BitVec 1) (h : BitVec 1) (s : State) : Host.Outcome State Fault Refusal :=
  .next (doXpv pr.val e h s)

/-- A call that reached 65,536 words ends and sets its core's CUT bit (R192). -/
def execMicroWordLimit (pr : Fin 2048) (s : State) : Host.Outcome State Fault Refusal := .next (microCut pr.val s)
/-- In MODE 0 the window ends (R178). -/
def execArrayWindow (pr : Fin 2048) (s : State) : Host.Outcome State Fault Refusal :=
  .next (if (s.array pr.val).mode = 0 then arrayNextWindow pr.val s else s)
def execArrayOpStart (pr : Fin 2048) (coreB : Bool) (s : State) : Host.Outcome State Fault Refusal := .next (arrayStart pr.val coreB s)
def execArrayOpComplete (pr : Fin 2048) (s : State) : Host.Outcome State Fault Refusal := .next (arrayEnd pr.val s)

/-! ## Completions -/

def execTileUnitOpComplete (core : Fin 4096) (s : State) : Host.Outcome State Fault Refusal := .next (popTileQ core.val s)
def execIndexEngineComplete (core : Fin 4096) (s : State) : Host.Outcome State Fault Refusal := .next (popIndexQ core.val s)
def execAsortComplete (core : Fin 4096) (s : State) : Host.Outcome State Fault Refusal := .next (popAssayQ core.val s)
/-- Entry `k` of the transfers, if it is a load: one that writes a tile. -/
def execTileLoadComplete (core : Fin 4096) (k : Fin 8) (s : State) : Host.Outcome State Fault Refusal :=
  .next (match (s.core core.val).xferQ[k.val]? with
    | some j => if j.writes.isEmpty then s else drainLate j.ctx (popXferQ core.val k.val s)
    | none => s)
/-- Entry `k` of the transfers, if it is a store. -/
def execBulkStoreComplete (core : Fin 4096) (k : Fin 8) (s : State) : Host.Outcome State Fault Refusal :=
  .next (match (s.core core.val).xferQ[k.val]? with
    | some j => if j.writes.isEmpty then drainLate j.ctx (popXferQ core.val k.val s) else s
    | none => s)
/-- Entry `k` of the copy engine, if it copies to memory; a copy that feeds a stream completes with its last element. -/
def execCopyComplete (cl : Fin 512) (k : Fin 32) (s : State) : Host.Outcome State Fault Refusal :=
  .next (match (s.cluster cl.val).copies[k.val]? with
    | some j => if j.stream.isNone then drainLate j.ctx (copyEnd cl.val k.val s) else s
    | none => s)
def execStreamElementArrive (ctx : Fin 16384) (q : Fin 8) (s : State) : Host.Outcome State Fault Refusal :=
  .next (drainLate ctx.val (streamArrive ctx.val q.val s))
def execFenceRetire (ctx : Fin 16384) (s : State) : Host.Outcome State Fault Refusal := .next (retireFence ctx.val s)
def execRangeOpComplete (ctx : Fin 16384) (s : State) : Host.Outcome State Fault Refusal := .next (rangeEnd ctx.val s)
def execXfuOpEnd (cl : Fin 512) (u : Fin 4) (s : State) : Host.Outcome State Fault Refusal :=
  .next (match (s.xfu cl.val u.val).job with
    | some j => drainLate j.ctx (xfuEnd cl.val u.val s)
    | none => s)
/-- The context holds its core's issue slot and does not block: it issues, or stalls in place (R42, R43, R364). -/
def stallsHere (s : State) (g : Nat) : Bool := (s.ctx g).run.isReady && (s.core (coreOf g)).issuing % 4 == g % 4

/-- The data of outstanding loads returns: the stall took time, which is charged to the context that stalled in it, and the values are
those the loads read (R284, R364; log 10). -/
def execMemoryDataReturn (ctx : Fin 16384) (cycles : Nat) (s : State) : Host.Outcome State Fault Refusal :=
  let t := { s with cycles := s.cycles + BitVec.ofNat 64 cycles }
  .next (if stallsHere s ctx.val then charge ctx.val cycles t else t)

/-! ## Landings and status -/

/-- Results due by the context's next bundle land. -/
def execResultLand (ctx : Fin 16384) (s : State) : Host.Outcome State Fault Refusal := .next (s.modCtx ctx.val Ctx.landDue)
/-- Scratch tags due by the context's next bundle clear. -/
def execCkTagClear (ctx : Fin 16384) (s : State) : Host.Outcome State Fault Refusal := .next (s.modCtx ctx.val Ctx.clearTags)
/-- VALID becomes 1 six bundles after the tile went full (R139). -/
def execTileStatusValid (ctx : Fin 16384) (t : Fin 32) (s : State) : Host.Outcome State Fault Refusal :=
  let c := s.ctx ctx.val
  .next (if t.val < c.tileCount then
    s.modTile (coreOf ctx.val) (c.tileBase + t.val) fun x => { x with valid := x.valid || (x.full && decide (x.validAt ≤ c.bundles)) }
  else s)

/-! ## Watchdog, ARBMODE, fetch -/

/-- A context's next boundary is at hand. -/
def atBoundary (g : Nat) (s : State) : State := elsewhere g (fun s => (boundaryEvent g s).getD s) s

/-- Cause 0x15 at the boundary, after the events of R429 that come first; a blocked context takes it before its blocked
bundle. -/
def execWatchdog (ctx : Fin 16384) (s : State) : Host.Outcome State Fault Refusal :=
  let g := ctx.val
  .next (if (s.ctx g).run.placed && watchdogDue s g then atBoundary g s else s)

/-- A write of ARBMODE by a context stalls until the queues of its array are empty, then is accepted or raises cause 0x0B. -/
def execArbmodeWrite (ctx : Fin 16384) (val : W64) (s : State) : Host.Outcome State Fault Refusal :=
  let pr := pairOf ctx.val
  .next (if (s.array pr).busy then arrayProgress pr s
    else if (s.array pr).modeOk val then s.modArray pr fun a => a.setMode val
    else elsewhere ctx.val (takeTrap ctx.val 0x0B 6 (slotMask [0])) s)

/-- The bundle that issue would fetch next cannot be had: its fault is taken at that bundle, when nothing of its boundary comes first
(R236, R429, R442). A stream context fetches none (R60). -/
def execInstructionFetchFault (ctx : Fin 16384) (s : State) : Host.Outcome State Fault Refusal :=
  let g := ctx.val
  .next (match fetch s g with
    | .error (.trap cause info) =>
      if (s.ctx g).run.placed && !(s.ctx g).stream && (boundaryEvent g s).isNone && !heldByVault s g && refillReady s g && !held s g then
        elsewhere g (takeTrap g cause info 0) s
      else s
    | _ => s)

/-- A Vault has restored a demoted frame (R242, R419). -/
def execFrameRestore (frame : Nat) (s : State) : Host.Outcome State Fault Refusal :=
  .next (if frP (s.frame frame) && frD (s.frame frame) then restoreFrame frame s else s)

/-- A pre-empted context stops at its boundary, outside handler mode; a stream context does so between two iterations only (R387). Once
stopped, what it started ends and its state is saved (R372, R354). -/
def execPreemptStop (ctx : Fin 16384) (s : State) : Host.Outcome State Fault Refusal :=
  let g := ctx.val
  let c := s.ctx g
  .next (match c.run with
    | .saved => saveStep g s
    | .frameWait => saveStep g s
    | r => if r.placed && c.preempt && !c.hm && !c.stream then atBoundary g s else s)

end Sys2Proof.Machine
end

