-- ==== Sys2Proof/Machine/Frames.lean ====
section
/-!
DEFINITION. Frames as others than contexts meet them: what pins one and which tables map it (R238, R247), large pages broken up (R423), a
change of class (R247), where a frame lies and to whom it is charged (R444), and the reach of the command processor and the dispatchers
(R243, R388, R391).
-/
set_option Elab.async false
namespace Sys2Proof.Machine

/-! ## Pinned (R238) -/

/-- A unit's operation pins a frame. -/
def Xfu.pins (x : Xfu) (f : Nat) : Bool :=
  match x.job with
  | some j => j.frames.contains f
  | none => false

/-- The frame a place lies in; a view moves bytes within a block of 4 KiB only (R240). -/
def Place.frame (p : Place) : Option Nat :=
  match p with
  | .dp base _ off => some ((base + off) / 65536)
  | _ => none

/-- A store that was probed when it issued and waits to perform pins its frames. -/
def Late.pins (l : Late) (f : Nat) : Bool :=
  match l with
  | .store w => w.any fun x => x.1.frame == some f
  | _ => false

/-- A context's range operations, its stores that wait, and the suspended operations of units it has yet to get back pin a frame. -/
def Ctx.pins (c : Ctx) (f : Nat) : Bool :=
  c.ranges.any (fun r => r.object / 65536 == f) || c.delayed.any (fun d => d.act.pins f) || c.unitRefills.any fun u => u.2.pins f

/-- Pinned by an operation under way, that of a saved context among them, or by a session (R238, R225). -/
def pinned (s : State) (f : Nat) : Bool :=
  frPin (s.frame f) || s.cores.any (fun k => k.2.xferQ.any (·.frames.contains f)) || s.ctxs.any (fun c => c.2.pins f)
    || s.saves.any (fun x => x.2.ctx.pins f || x.2.units.any fun u => u.2.pins f)
    || s.clusters.any fun c => c.2.copies.any (·.frames.contains f) || c.2.xfus.any fun x => x.2.pins f

/-! ## Mapped (R247) -/

/-- The frames an entry maps: the first, and how many. -/
def swFrames (e : BitVec 256) : Nat × Nat := (swPhys e / 65536, swLen e / 65536)

def Run.isIdle (r : Run) : Bool :=
  match r with
  | .idle => true
  | _ => false

/-- A loaded or saved table maps a frame. -/
def Ctx.maps (c : Ctx) (f : Nat) : Bool := c.swt.any fun e => swV e.2 && decide ((swFrames e.2).1 ≤ f ∧ f < (swFrames e.2).1 + (swFrames e.2).2)
def mapped (s : State) (f : Nat) : Bool :=
  s.ctxs.any (fun c => !c.2.run.isIdle && c.2.maps f) || s.saves.any fun x => x.2.ctx.maps f

/-! ## Large pages and classes (R242, R247, R423) -/

def pageFrames (size : Nat) : Nat := if size = 1 then 32 else 16384

/-- Frames of the page that holds `f`. -/
def pageOf (s : State) (f : Nat) : Nat × Nat :=
  let n := frSize (s.frame f)
  if n = 1 ∨ n = 2 then (f / pageFrames n * pageFrames n, pageFrames n) else (f, 1)

/-- A large page is broken back into 64 KiB frames. -/
def splitAt (f : Nat) (s : State) : State :=
  let p := pageOf s f
  { s with frames := s.frames.map fun e => if p.1 ≤ e.1 ∧ e.1 < p.1 + p.2 then (e.1, e.2 &&& ~~~0x18#64) else e }

/-- COH and OWNER of a frame that no table maps and nothing pins; a page it is part of is split first, and a frame mapped or pinned stays
as it is. -/
def setClass (coh owner : Nat) (f : Nat) (s : State) : State :=
  if mapped s f || pinned s f then s
  else
    let s := splitAt f s
    s.setFrame f ((s.frame f &&& ~~~(0x60#64 ||| (0xFFF#64 <<< 42))) ||| BitVec.ofNat 64 (2 ^ 5 * coh + 2 ^ 42 * owner))

/-! ## Where a frame lies (R444) -/

/-- WHERE of a memory sector: Vault × 8 + package, 7 for the HBM4E stack. Which LPDDR-6 package holds an offset of the tier the spec does
not give: the model takes bits 37:36 of the offset, also where a lower-numbered package is missing (log 62). -/
def memPlace (s : State) (a : Nat) : Nat := let e := s.frame (a / 65536); 8 * frVault e + (if frTier e then (bits e 35 2).toNat else 7)

/-- STRUCT of what holds a memory sector: a compressed pool, or its tier. -/
def memStruct (s : State) (a : Nat) : Nat :=
  let e := s.frame (a / 65536)
  if frC e then 15 else if frTier e then 14 else 13

/-- The partition a frame is charged to. -/
def framePart (s : State) (a : Nat) : Option Nat := (s.grant (a / 65536)).owner

/-- A consumption of poisoned data, or of a frame with a map error, by a master that is no context (R243, R442, R444). -/
def noteSector (part : Option Nat) (s : State) (a : Nat) : State :=
  errorRecord 2 (memStruct s a) part (memPlace s a) (BitVec.ofNat 64 (a / 64 * 64)) s

/-! ## Device-physical accesses of the command processor and dispatchers -/

/-- Bytes read for a partition; where a frame is out of its reach, nothing is seen of it and they read as zero (log 59). -/
def cpRead (s : State) (part a n : Nat) : List Byte :=
  if (framesAt a n).all (cpReach s part false) then readBytes s.mem a n else List.replicate n 0
def cpReadDw (s : State) (part a : Nat) : W64 := BitVec.ofNat 64 (leNat (cpRead s part a 8))

/-- The partition's frames among those of an access whose entries are map errors: their first bytes in it. -/
def cpLost (s : State) (part a n : Nat) : List Nat :=
  ((framesAt a n).filter fun f => decide (65536 * f < s.dpBytes) && ((s.grant f).owner == some part || (s.grant f).sharers.contains part)
    && frError (s.frame f)).map fun f => max a (65536 * f)

/-- The poisoned sectors `n` bytes from `a` touch. -/
def sectorsHit (s : State) (a n : Nat) : List Nat :=
  if s.poison.isEmpty || n == 0 then []
  else ((List.range ((a + n - 1) / 64 + 1 - a / 64)).map (· + a / 64)).filter s.poison.contains

/-- The sectors of `n` bytes at `a`, counted from the first, that a read for a partition finds poisoned; a map error counts as poison of
all of them (R243). -/
def cpPoison (s : State) (part a n : Nat) : List Nat :=
  if !(cpLost s part a n).isEmpty then List.range ((n + 63) / 64)
  else if (framesAt a n).all (cpReach s part false) then (sectorsHit s a n).map (· - a / 64)
  else []

/-- What is wrong with bytes read for a partition is reported: frames with map errors, poisoned sectors (R243, R442, R444). -/
def cpNote (part a n : Nat) (s : State) : State :=
  (cpLost s part a n ++ if (framesAt a n).all (cpReach s part false) then (sectorsHit s a n).map (64 * ·) else []).foldl
    (noteSector (some part)) s

/-- Bytes written for a partition; where a frame is out of its reach, nothing is written (R388; log 59), and one with a map error is
reported (R243). The command processor is no master of R392's table for an open Clearing session's spill area: the model performs its
write there (log 68). -/
def cpWrite (part a : Nat) (bs : List Byte) (s : State) : State :=
  if (framesAt a bs.length).all (cpReach s part true) then writeBack a bs s else (cpLost s part a bs.length).foldl (noteSector (some part)) s

end Sys2Proof.Machine
end

