-- ==== Sys2Proof/Machine/Launch.lean ====
section
/-!
DEFINITION. The command processor: descriptors taken from queues and their checks (R356 to R358, R451, R454), completion records
(R359), the order of launches by their buffer handles (R277 to R279), and the checks of a Segment Window Table (R235).
-/
set_option Elab.async false
namespace Sys2Proof.Machine

/-- The Florin dies and the Vaults are released from reset, which minimal mode keeps them in (R404). -/
def State.released (s : State) : Bool := !s.regs.mini

/-! ## Queues (R450, R451) -/

def queueKey (vf q : Nat) : Nat := 16 * vf + q
def State.queue (s : State) (vf q : Nat) : Queue := tget Queue.initial s.queues (queueKey vf q)
def Queue.log (q : Queue) : Nat := (bits q.cfg 0 5).toNat
def Queue.collective (q : Queue) : Bool := bit q.cfg 8
def Queue.en (q : Queue) : Bool := bit q.cfg 9
def Queue.deviceRing (q : Queue) : Bool := bit q.base 0
/-- Address of the entry to be accepted next. -/
def Queue.entryAddr (q : Queue) : Nat := q.base.toNat / 64 * 64 + 64 * (q.head.toNat % 2 ^ q.log)

/-- The queue has a descriptor to accept. -/
def Queue.pending (q : Queue) : Bool := q.en && !q.err && q.tail != q.head

/-- The 64 bytes its one read finds: host memory brings them with the request. -/
def State.descriptor (s : State) (part : Nat) (q : Queue) (host : BitVec 512) : BitVec 512 :=
  if q.deviceRing then BitVec.ofNat 512 (leNat (cpRead s part q.entryAddr 64)) else host

/-- What its read of a descriptor meets is reported, and that of its handle list, where the checks before it pass (R243, R442). -/
def noteDescriptor (part : Nat) (q : Queue) (d : BitVec 512) (list : Bool) (s : State) : State :=
  let s := if q.deviceRing then cpNote part q.entryAddr 64 s else s
  if list then cpNote part (d.extractLsb' 256 64).toNat (8 * (d.extractLsb' 320 16).toNat) s else s

/-- The descriptor is accepted: HEAD moves on, and a TAIL write whose descriptors are all accepted is used up. -/
def advanceHead (vf q : Nat) (s : State) : State :=
  let k := queueKey vf q
  let h := (s.queue vf q).head + 1
  { s with queues := tset s.queues k { s.queue vf q with head := h }, tails := s.tails.filter fun t => !(t.2.1 == k && t.2.2 == h) }

/-- The cycle of the TAIL write that made a queue's next descriptor available (R358). -/
def State.arrivedAt (s : State) (key : Nat) : Nat :=
  match s.tails.find? fun t => t.2.1 == key with
  | some t => t.1.toNat
  | none => 0

/-- The queue of a partition from which the command processor takes the next descriptor: the earliest TAIL write, and of one cycle the
lowest VF, then the lowest queue (R358). -/
def nextQueue (s : State) (part : Nat) : Option Nat :=
  (s.queues.filter fun q => (s.vf (q.1 / 16)).part == some part && q.2.pending).foldl (fun (b : Option Nat) q =>
    match b with
    | none => some q.1
    | some k =>
      if s.arrivedAt q.1 < s.arrivedAt k ∨ (s.arrivedAt q.1 = s.arrivedAt k ∧ q.1 < k) then some q.1 else some k) none

def descDw (d : BitVec 512) (i : Nat) : W64 := d.extractLsb' (64 * i) 64

/-! ## Handle lists (R357, R277) -/

def bufKey (part h : Nat) : Nat := 2 ^ 24 * part + h

/-- The handle list of a descriptor. -/
def handleWords (s : State) (part : Nat) (d : BitVec 512) : List W64 :=
  (List.range (bits (descDw d 5) 0 16).toNat).map fun i => cpReadDw s part ((descDw d 4).toNat + 8 * i)

def handleOf (w : W64) : Nat := (bits w 0 24).toNat
def useOf (w : W64) : Nat := (bits w 24 2).toNat

/-- An entry is refused (R357). -/
def handleBad (s : State) (part : Nat) (w : W64) : Bool :=
  (tfind s.bufHandles (bufKey part (handleOf w))).isNone || useOf w == 0 || bits w 26 6 != 0

/-- The list as pairs of handle and use. -/
def handlePairs (s : State) (part : Nat) (d : BitVec 512) : List (Nat × Nat) := (handleWords s part d).map fun w => (handleOf w, useOf w)

/-- Distinct handles with the union of their uses (R357). -/
def unionUses (l : List (Nat × Nat)) : List (Nat × Nat) :=
  (l.map (·.1)).dedup.map fun h => (h, (l.filter (·.1 == h)).foldl (fun u e => u ||| e.2) 0)

/-- A launch or collective has completed. -/
def idDone (s : State) (n : Nat) : Bool :=
  match tfind s.launches n with
  | some l => l.state == .ended
  | none => match tfind s.collectives n with
    | some c => c.done
    | none => true

/-- What a launch or collective `id` waits for through a handle, and the table after it is accepted (R277, R278). -/
def bindHandle (part id : Nat) (acc : List Nat × Tbl BufHandle) (e : Nat × Nat) : List Nat × Tbl BufHandle :=
  match tfind acc.2 (bufKey part e.1) with
  | none => acc
  | some b =>
    if e.2.testBit 1 then (acc.1 ++ b.writer.toList ++ b.readers, tset acc.2 (bufKey part e.1) { b with writer := some id, readers := [] })
    else (acc.1 ++ b.writer.toList, tset acc.2 (bufKey part e.1) { b with readers := b.readers ++ [id] })

/-! ## Completion records (R359) -/

def recordBytes (status idx cp fcount preempts cyc nj : Nat) : List Byte :=
  leBytes 8 (status + 2 ^ 8 * idx + 2 ^ 16 * cp) ++ leBytes 4 fcount ++ leBytes 4 (min preempts (2 ^ 32 - 1)) ++ leBytes 8 cyc
    ++ leBytes 8 (nj / 1000)

/-- The record of a launch as it stands. -/
def Launch.recordBytes (l : Launch) : List Byte :=
  Sys2Proof.Machine.recordBytes l.status l.swtIdx l.swtCp l.gcount l.preempts l.cyc l.energyNJ

/-- Every handle written by a completing launch or collective takes its next number, which its list entries then carry. -/
def publishHandles (part hlist : Nat) (hs : List (Nat × Nat)) (s : State) : State :=
  let written := (unionUses hs).filter fun e => e.2.testBit 1
  let raise (t : Tbl BufHandle) (e : Nat × Nat) : Tbl BufHandle :=
    match tfind t (bufKey part e.1) with
    | some b => tset t (bufKey part e.1) { b with seqno := b.seqno + 1 }
    | none => t
  let s := { s with bufHandles := written.foldl raise s.bufHandles }
  hs.zipIdx.foldl (fun s e =>
    if e.1.2.testBit 1 then
      match tfind s.bufHandles (bufKey part e.1.1) with
      | some b => cpWrite part (hlist + 8 * e.2 + 4) (leBytes 4 b.seqno.toNat) s
      | none => s
    else s) s

/-- A launch ends: its record is written with its status, and its mailboxes return to the partition (R359, R385). -/
def endLaunch (id status : Nat) (s : State) : State :=
  match tfind s.launches id with
  | none => s
  | some l =>
    let l := { l with status := status, state := .ended }
    let s := if status = 0 then publishHandles l.part l.hlist l.handles s else s
    let s := { s with launches := tset s.launches id l
                      mailboxes := s.mailboxes.map fun m => if m.2.launch = some id then (m.1, { m.2 with launch := none }) else m }
    cpWrite l.part l.record l.recordBytes s

/-! ## Launch descriptors (R356, R358) -/

/-- The status of the first field of a launch descriptor that fails its check. -/
def launchFields (s : State) (part : Nat) (d : BitVec 512) : Option Nat :=
  let dw5 := descDw d 5
  let checks : List (Bool × Nat) := [
    (bits (descDw d 0) 0 12 != 0 || (tfind s.kobjs (descDw d 0).toNat).isNone, 0x10),
    (bits (descDw d 1) 0 32 == 0, 0x11),
    (decide (bits (descDw d 1) 32 32 < bits (descDw d 1) 0 32), 0x11),
    (bits (descDw d 3) 0 13 != 0, 0x10),
    (bits (descDw d 4) 0 3 != 0, 0x13),
    (decide (1024 < (bits dw5 0 16).toNat), 0x13),
    ((s.vf (bits dw5 18 10).toNat).part != some part, 0x14),
    (bits dw5 28 36 != 0, 0x10),
    (descDw d 6 != 0, 0x10),
    (bits (descDw d 7) 0 6 != 0, 0x10)]
  (checks.find? (·.1)).map (·.2)

/-- The status of the first check that fails: the fields, then the entries of the handle list. -/
def launchStatus (s : State) (part : Nat) (d : BitVec 512) : Option Nat :=
  (launchFields s part d).orElse fun _ => if (handleWords s part d).any (handleBad s part) then some 0x13 else none

/-- A launch accepted from a descriptor. -/
def acceptLaunch (part : Nat) (d : BitVec 512) (s : State) : State :=
  let hs := handlePairs s part d
  let b := (unionUses hs).foldl (bindHandle part s.nextLaunch) ([], s.bufHandles)
  let l : Launch := {
    part := part, vf := (bits (descDw d 5) 18 10).toNat, kobj := (descDw d 0).toNat, gcount := (bits (descDw d 1) 0 32).toNat,
    glimit := (bits (descDw d 1) 32 32).toNat, args := descDw d 2, swtb := (descDw d 3).toNat, hlist := (descDw d 4).toNat,
    handles := hs, waits := b.1, prio := (bits (descDw d 5) 16 2).toNat, record := (descDw d 7).toNat,
    taskid := (s.part part).nextTask, state := .waiting, next := 0, exited := 0, status := 0, swtIdx := 0, swtCp := 0,
    preempts := 0, cyc := 0, energyNJ := 0 }
  { s with launches := tset s.launches s.nextLaunch l, nextLaunch := s.nextLaunch + 1, bufHandles := b.2 }.modPart part fun p =>
    { p with nextTask := p.nextTask + 1 }

/-- LAUNCH_ACCEPT (R358): the next descriptor of a queue of launches is read, checked and accepted or refused, when it is the queue's
turn among those of its partition. -/
def execLaunchAccept (s : State) : Host.Outcome State Fault Refusal :=
  match s.request with
  | .launchAccept vf q host =>
    let qu := s.queue vf.val q.val
    match (s.vf vf.val).part with
    | none => .next s
    | some part =>
      if !qu.pending || qu.collective || nextQueue s part != some (queueKey vf.val q.val) then .next s
      else
        let d := s.descriptor part qu host
        let s' := noteDescriptor part qu d (launchFields s part d).isNone (advanceHead vf.val q.val s)
        .next (match launchStatus s part d with
          | some st => cpWrite part (descDw d 7).toNat (recordBytes st 0 0 (bits (descDw d 1) 0 32).toNat 0 0 0) s'
          | none => acceptLaunch part d s')
  | _ => .next s

/-- LAUNCH_START (R278): every launch this one waits for has completed. The flushes and invalidations between dependent
launches move no value, since memory holds one copy (log 21). -/
def execLaunchStart (launch : Nat) (s : State) : Host.Outcome State Fault Refusal :=
  match tfind s.launches launch with
  | some l => .next (if l.state == .waiting && l.waits.all (idDone s) then s.modLaunch launch fun l => { l with state := .ready } else s)
  | none => .next s

/-- LAUNCH_COMPLETE (R279, R363): every index handed out has exited, and none is pending or, after a refusal, none more is
handed out. -/
def execLaunchComplete (launch : Nat) (s : State) : Host.Outcome State Fault Refusal :=
  match tfind s.launches launch with
  | some l =>
    .next (if l.state == .ready && l.exited == l.next && (l.status != 0 || decide (l.gcount ≤ l.next)) then endLaunch launch l.status s
      else s)
  | none => .next s

/-- HANDLE_REGISTER (R277): a buffer of the partition; its number starts at 0. -/
def execHandleRegister (s : State) : Host.Outcome State Fault Refusal :=
  match s.request with
  | .handleRegister part h base len =>
    .next (if (tfind s.bufHandles (bufKey part.val h.toNat)).isSome then s
      else { s with bufHandles := tset s.bufHandles (bufKey part.val h.toNat)
                      { base := base, len := len, writer := none, readers := [], seqno := 0 } })
  | _ => .next s
/-- HANDLE_REMOVE (R277). -/
def execHandleRemove (s : State) : Host.Outcome State Fault Refusal :=
  match s.request with
  | .handleRemove part h => .next { s with bufHandles := tdel s.bufHandles (bufKey part.val h.toNat) }
  | _ => .next s

/-! ## Segment Window Tables (R234, R235) -/

/-- Image `j` of a launch's tables. -/
def tableImage (s : State) (part swtb j : Nat) : List (BitVec 256) :=
  (List.range 256).map fun i => BitVec.ofNat 256 (leNat (cpRead s part (swtb + 8192 * j + 32 * i) 32))

def overlaps (a n b m : Nat) : Bool := decide (a < b + m ∧ b < a + n)

/-- Entry `e` of a table whose earlier valid entries are `before`, for a core of a partition and a VF (R235, R246, R391). Frames at or
above DPSIZE have no entry to compare with (R241). -/
def entryStatus (s : State) (part vf core : Nat) (before : List (BitVec 256)) (e : BitVec 256) : Option Nat :=
  let fr := swFrames e
  let inRange (f : Nat) : Bool := decide (fr.1 ≤ f ∧ f < fr.1 + fr.2)
  let top := s.dpBytes / 65536
  let known := s.frames.filter fun x => inRange x.1 && decide (x.1 < top)
  let differs (x : W64) : Bool := (frC x).toNat != swComp e || frCoh x != swCoh e || (frCoh x == 2 && frOwner x != core)
  let asksWrite := bit (swRights e) 1 || bit (swRights e) 2
  let granted := s.grants.filter fun x => inRange x.1 && (x.2.owner == some part || (x.2.sharers.contains part && !asksWrite))
  let checks : List (Bool × Nat) := [
    (bits e 42 6 != 0 || bits e 134 122 != 0, 1),
    (before.any fun b => overlaps (swBase b) (swLen b) (swBase e) (swLen e), 2),
    (overlaps (swBase e) (swLen e) (0x1FF * 2 ^ 48) (2 ^ 48), 3),
    (known.any (fun x => differs x.2) || (decide (known.length < min (fr.1 + fr.2) top - fr.1) && differs 0), 4),
    (swVf e != vf, 5),
    (decide (2 ^ 57 < swBase e + swLen e) || decide (2 ^ 48 < swPhys e + swLen e), 6),
    (swCoh e == 3 || decide (2 ≤ swComp e) || (bit (swRights e) 2 && !(bit (swRights e) 0 && bit (swRights e) 1)), 7),
    (decide (granted.length < fr.2), 8)]
  (checks.find? (·.1)).map (·.2)

/-- The first valid entry that fails: status and index. -/
def tableStatus (s : State) (part vf core : Nat) (es : List (BitVec 256)) : Option (Nat × Nat) :=
  (List.range es.length).findSome? fun i =>
    let e := es.getD i 0
    if swV e then (entryStatus s part vf core ((es.take i).filter swV) e).map fun st => (st, i) else none

/-- The table as a context holds it: its valid entries. -/
def tableOf (es : List (BitVec 256)) : Tbl (BitVec 256) := (es.zipIdx.filter fun e => swV e.1).map fun e => (e.2, e.1)

end Sys2Proof.Machine
end

