-- ==== Sys2Proof/Machine/Sched.lean ====
section
/-!
DEFINITION. The die dispatchers: where a group fits and its placement (R360 to R362), its completion (R349), sharing between VFs
(R364 to R367), pre-emption and resumption (R372 to R374), frame service (R431), and the Treasury (R368 to R370).
-/
set_option Elab.async false
namespace Sys2Proof.Machine

/-! ## What a core and a cluster offer (R361, R373) -/

/-- A hardware context nothing is placed in. -/
def ctxFree (s : State) (g : Nat) : Bool := (s.ctx g).run.isIdle

/-- Contexts whose tiles and private SRAM a core holds: those placed, and those saved, which keep theirs reserved. -/
def coreHolds (s : State) (k : Nat) : List Ctx :=
  (([0, 1, 2, 3].map fun i => 4 * k + i).filter fun g => !ctxFree s g).map s.ctx
    ++ (s.saves.filter fun x => coreOf x.2.home == k).map fun x => x.2.ctx

/-- The lowest base of a run of `n` free tile slots. -/
def tileRun (held : List Ctx) (n : Nat) : Option Nat :=
  leastFrom (fun b => held.all fun c =>
    c.tileCount == 0 || n == 0 || decide (b + n ≤ c.tileBase) || decide (c.tileBase + c.tileCount ≤ b)) 0 (65 - n)

/-- A core takes one core program: its lowest free context and lowest run of tile slots. -/
def coreFits (s : State) (free : Nat → Bool) (k : Nat) (o : Kobj) : Option (Nat × Nat) :=
  let held := coreHolds s k
  match ([0, 1, 2, 3].map fun i => 4 * k + i).find? free, tileRun held o.tiles with
  | some g, some b =>
    if held.foldl (fun n c => n + c.scratchSize + c.stashSize) 0 + 1024 * (o.scratch + o.stash) ≤ 384 * 1024 then some (g, b) else none
  | _, _ => none

/-- A group that holds hardware contexts: not done and not wholly saved. -/
def Group.holding (x : Group) : Bool := !x.done && !x.members.isEmpty

/-- A transform unit no group holds; a wholly pre-empted group has given up its units (R373). -/
def unitFree (s : State) (cl u : Nat) : Bool :=
  let x := s.xfu cl u
  x.job.isNone && x.owner.isNone && match x.group with
    | none => true
    | some gr => !s.groupRuns gr

/-- The arrays of a cluster hold a task's image or are free to take it (R189). -/
def imageFits (s : State) (cl launch : Nat) (o : Kobj) : Bool :=
  o.image.isNone || match (s.cluster cl).image with
    | none => true
    | some m => m == launch || !s.groups.any fun x => x.2.cluster == cl && !x.2.done && x.2.launch == m

/-- The cluster is open, present and the partition's, not being moved to a spare, and its die in service (R20, R21, R34, R35, R389, R398). -/
def clusterOpen (s : State) (cl part : Nat) : Bool :=
  let c := s.cluster cl
  c.part == some part && !c.closed && s.regs.swapping != some cl && bit s.regs.florinok (cl / 8)
    && (s.clmapOf (cl / 8)).toNat / 16 ^ (cl % 8) % 16 != 15

/-- Where the core programs of a group go on a cluster: program, context, tile base. `free` and `freeU` say which contexts
and units count as free. -/
def clusterFits (s : State) (free : Nat → Bool) (freeU : Nat → Bool) (cl launch part : Nat) (o : Kobj) :
    Option (List (Nat × Nat × Nat)) :=
  let places := o.entries.map fun e => (e.1, coreFits s free (8 * cl + e.1) o)
  let c := s.cluster cl
  if clusterOpen s cl part && places.all (fun p => p.2.isSome) && decide (c.csramUsed + 1024 * o.csram ≤ 6 * 2 ^ 20)
      && decide (c.barsUsed + o.bars ≤ 32) && decide (o.xfu ≤ ([0, 1, 2, 3].filter freeU).length) && imageFits s cl launch o then
    some (places.filterMap fun p => p.2.map fun x => (p.1, x.1, x.2))
  else none

def fitsNow (s : State) (cl launch part : Nat) (o : Kobj) : Option (List (Nat × Nat × Nat)) :=
  clusterFits s (ctxFree s) (unitFree s cl) cl launch part o

def State.kobj (s : State) (l : Launch) : Kobj :=
  (tfind s.kobjs l.kobj).getD { entries := [], tiles := 0, scratch := 0, stash := 0, csram := 0, bars := 0, xfu := 0, energy := 0, image := none }

/-- Declared resources no cluster could offer. -/
def Kobj.tooLarge (o : Kobj) : Bool :=
  decide (32 < o.tiles) || decide (384 < o.scratch + o.stash) || decide (6144 < o.csram) || decide (32 < o.bars) || decide (4 < o.xfu)
    || o.entries.any fun e => decide (7 < e.1)

/-- The clusters of a partition. -/
def partClusters (s : State) (part : Nat) : List Nat := (s.clusters.filter fun c => c.2.part == some part).map (·.1)

/-! ## Waiting, and the order between VFs (R366) -/

/-- Stopped for pre-emption or for frame service. -/
def Run.away (r : Run) : Bool :=
  match r with
  | .saved => true
  | .frameWait => true
  | _ => false

/-- A context of the launch is pre-empted, being pre-empted, or waits for frame service (R360, R431). -/
def launchHeld (s : State) (launch : Nat) : Bool :=
  s.saves.any (fun x => x.2.ctx.launch == launch && x.2.returns) || s.ctxs.any fun c => c.2.launch == launch && (c.2.preempt || c.2.run.away)

/-- A task with an index to hand out. -/
def Launch.hasNext (l : Launch) : Bool := l.state == .ready && l.status == 0 && decide (l.next < l.gcount)

/-- The task's next group may be handed out now, room aside: no lower index is pre-empted, and its VF's account admits it. -/
def launchOpen (s : State) (k : Nat) (l : Launch) : Bool := l.hasNext && !launchHeld s k && decide (0 ≤ s.projectedNJ l.vf)

/-- The VF has a saved context that must return to this cluster. -/
def vfResumes (s : State) (cl vf : Nat) : Bool :=
  s.saves.any fun x => clusterOf x.2.home == cl && x.2.ctx.vf == vf && match x.2.ctx.run with | .saved => true | _ => false

/-- A next group of the VF can be placed at once on some cluster of its partition. -/
def vfPlaceable (s : State) (vf : Nat) : Bool :=
  s.launches.any fun l => l.2.vf == vf && launchOpen s l.1 l.2
    && (partClusters s l.2.part).any fun c => (fitsNow s c l.1 l.2.part (s.kobj l.2)).isSome

/-- Its next group fits no cluster of the partition at once and would fit this one if its resources were free; none of its tasks has a
group that can be placed (R366). -/
def vfQueues (s : State) (cl vf : Nat) : Bool :=
  !vfPlaceable s vf && s.launches.any fun l => l.2.vf == vf && l.2.hasNext && !launchHeld s l.1 && clusterOpen s cl l.2.part
    && !(s.kobj l.2).tooLarge && (partClusters s l.2.part).all fun c => (fitsNow s c l.1 l.2.part (s.kobj l.2)).isNone

/-- The VF waits on the cluster. -/
def vfWaits (s : State) (cl vf : Nat) : Bool := vfResumes s cl vf || vfQueues s cl vf

/-- VFs with something on the module. -/
def vfList (s : State) : List Nat := ((s.launches.map fun l => l.2.vf) ++ s.saves.map fun x => x.2.ctx.vf).dedup

def deficit (s : State) (cl vf : Nat) : Int := tget 0 (s.cluster cl).deficits vf

/-- The program of a saved context and the context that may take it back. -/
def returnTo (s : State) (home : Nat) : Option Nat := ([0, 1, 2, 3].map fun i => 4 * coreOf home + i).find? (ctxFree s)

/-- Saved contexts of a group that will return: key and record. One the runtime refused its frame stays frozen (R431). -/
def savedOf (s : State) (grp : Nat) : List (Nat × Saved) := s.saves.filter fun x => x.2.ctx.group == grp && x.2.returns

/-- A context on each core the group left, and its units, are free where `free` and `freeU` say what counts as free (R374). -/
def groupFits (s : State) (free freeU : Nat → Bool) (grp : Nat) : Bool :=
  let x := s.group grp
  (savedOf s grp).all (fun y => ([0, 1, 2, 3].map fun i => 4 * coreOf y.2.home + i).any free)
    && x.units.all fun u => freeU u || (s.xfu x.cluster u).group == some grp

/-- The group can resume now: none of its saved contexts still waits for frame service, and what it needs is free. -/
def groupReturns (s : State) (grp : Nat) : Bool :=
  let l := savedOf s grp
  let x := s.group grp
  !l.isEmpty && l.all (fun y => match y.2.ctx.run with | .saved => true | _ => false) && x.members.all (fun m => !(s.ctx m.2).preempt)
    && groupFits s (ctxFree s) (unitFree s x.cluster) grp

/-- Nothing of the task with a lower index is still pre-empted, saved already or stopped and about to be; a wait for frame service counts
(R374, R431). -/
def groupTurn (s : State) (grp : Nat) : Bool :=
  let x := s.group grp
  let after (c : Ctx) : Bool := c.launch != x.launch || decide (x.index ≤ (s.group c.group).index)
  s.saves.all (fun y => !y.2.returns || after y.2.ctx) && s.ctxs.all fun c => !c.2.run.away || after c.2

/-- The VF has something the cluster could serve at once: a group that resumes, else one that is placed (R366). -/
def vfServable (s : State) (cl vf : Nat) : Bool :=
  s.saves.any (fun x => clusterOf x.2.home == cl && x.2.ctx.vf == vf && groupReturns s x.2.ctx.group && groupTurn s x.2.ctx.group)
    || (!vfResumes s cl vf && s.launches.any fun l => l.2.vf == vf && launchOpen s l.1 l.2
      && (fitsNow s cl l.1 l.2.part (s.kobj l.2)).isSome)

/-- The dispatcher serves the VF on the cluster now (R366): no VF of larger deficit, or of equal deficit and lower number, could be
served, and with a deficit of 0 or less none with a positive deficit waits. -/
def vfServed (s : State) (cl vf : Nat) : Bool :=
  let d := deficit s cl vf
  (vfList s).all fun w => w == vf
    || (!(vfServable s cl w && (decide (d < deficit s cl w) || (d == deficit s cl w && decide (w < vf))))
      && !(vfWaits s cl w && decide (d ≤ 0) && decide (0 < deficit s cl w)))

/-! ## Gains (R365) -/

/-- A group of the VF that holds resources on the cluster. -/
def vfGroups (s : State) (cl vf : Nat) : List Nat :=
  (s.groups.filter fun x => x.2.cluster == cl && x.2.holding && (tfind s.launches x.2.launch).map (·.vf) == some vf).map (·.1)

/-- The VF is active on the cluster (R365); a group that waits for frame service counts as one that waits to resume (R431). -/
def vfActive (s : State) (cl vf : Nat) : Bool :=
  !(vfGroups s cl vf).isEmpty || s.saves.any (fun x => clusterOf x.2.home == cl && x.2.ctx.vf == vf && x.2.returns)
    || s.launches.any fun l => l.2.vf == vf && l.2.hasNext && clusterOpen s cl l.2.part && !(s.kobj l.2).tooLarge

/-- The gains of R365 on one cluster. -/
def addGains (cl : Nat) (s : State) : State :=
  let act := (vfList s).filter (vfActive s cl)
  let w := act.foldl (fun n v => n + (s.vf v).weight) 0
  s.modCluster cl fun c => { c with gainDue := none, deficits := act.foldl (fun t v =>
    let gain : Int := (1200000 * (s.vf v).weight / w : Nat)
    tset t v (min (tget 0 c.deficits v + gain) (2 * gain))) [] }

/-- The gains of a boundary come once the VF for which groups were pre-empted has been served, and has nothing more that could be served
at once (R367). -/
def settleGains (cl vf : Nat) (s : State) : State :=
  if (s.cluster cl).gainDue == some vf && !vfServable s cl vf then addGains cl s else s

/-! ## Placing a group (R361, R362) -/

/-- Clusters of a die in the order the dispatcher tries them. -/
def dieOrder (s : State) (d : Nat) : List Nat := [1, 2, 3, 4, 5, 6, 7, 8].map fun i => 8 * d + ((s.die d).lastCluster + i) % 8

/-- The first cluster of a die that takes the launch's next group and on which its VF is served, with none of the VF's pre-empted groups
to return there first (R361, R366). -/
def dieFits (s : State) (d k : Nat) (l : Launch) : Option (Nat × List (Nat × Nat × Nat)) :=
  (dieOrder s d).findSome? fun cl =>
    if vfServed s cl l.vf && !vfResumes s cl l.vf then (fitsNow s cl k l.part (s.kobj l)).map fun p => (cl, p) else none

/-- A launch of the same VF that the die serves before this one and that it can place (R358). -/
def servedBefore (s : State) (d k : Nat) (l : Launch) : Bool :=
  s.launches.any fun m => m.1 != k && m.2.vf == l.vf && launchOpen s m.1 m.2 && (dieFits s d m.1 m.2).isSome
    && (decide (l.prio < m.2.prio) || (m.2.prio == l.prio && decide (m.1 < k)))

/-- A task image written into the four arrays of a cluster: blocks 1 to 3 and entries 32 to 127 (R189). -/
def loadImage (cl task : Nat) (words entries : List W64) (s : State) : State :=
  (s.each [0, 1, 2, 3] fun i s => s.modArray (4 * cl + i) fun a =>
    { a with store := putWords (a.store.filter fun e => decide (e.1 < 512)) 512 (words.take 1536),
             table := putWords (a.table.filter fun e => decide (e.1 < 32)) 32 ((entries.take 96).map (· &&& entryMask)) }).modCluster cl fun c =>
    { c with image := some task }

/-- A context as a dispatch leaves it (R362). -/
def dispatched (l : Launch) (k grp prog base : Nat) (o : Kobj) (entry : W64) (table : Tbl (BitVec 256)) (now : Nat) : Ctx :=
  { Ctx.initial with
    run := .ready, pc := entry, sregs := if l.args = 0 then [] else [(1, l.args)], vf := l.vf, part := l.part, group := grp,
    launch := k, program := prog, tileBase := base, tileCount := o.tiles, scratchSize := 1024 * o.scratch,
    stashSize := 1024 * o.stash, swt := table, watch := now }

/-- Groups that gave up the contexts or units that `grp` takes: it holds them as a loan of each, also what one of them had lent on to
another (R373). -/
def lenders (s : State) (cl grp : Nat) (ctxs units : List Nat) : List Nat :=
  (((s.saves.filter fun x => ctxs.contains x.2.home && x.2.returns).map (fun x => x.2.ctx.group)
    ++ (s.groups.filter fun y => y.2.cluster == cl && !y.2.done && !s.groupRuns y.1 && y.2.units.any units.contains).map (·.1)).dedup).filter
      (· ≠ grp)

/-- Units go to `grp`; a group that is saved and gave one up keeps its state aside (R324, R373). -/
def lendUnits (cl grp : Nat) (units : List Nat) (s : State) : State :=
  units.foldl (fun s u => match (s.xfu cl u).group with
    | some h => if h = grp then s else s.modGroup h fun x => { x with unitState := tset x.unitState u (s.xfu cl u) }
    | none => s) s

/-- The next group of a launch placed on a cluster. -/
def placeGroup (k : Nat) (l : Launch) (cl : Nat) (ps : List (Nat × Nat × Nat)) (s : State) : State :=
  let o := s.kobj l
  let grp := s.nextGroup
  let units := ([0, 1, 2, 3].filter (unitFree s cl)).take o.xfu
  let loans := lenders s cl grp (ps.map fun p => p.2.1) units
  let s := lendUnits cl grp units s
  let s := match o.image with
    | some im => if (s.cluster cl).image = some k then s else loadImage cl k im.1 im.2 s
    | none => s
  let s := ps.foldl (fun s p =>
    let c := dispatched l k grp p.1 p.2.2 o ((o.entries.find? (·.1 == p.1)).map (·.2) |>.getD 0)
      (tableOf (tableImage s l.part l.swtb p.1)) s.cycles.toNat
    ((dropClaims p.2.1 s).setCtx p.2.1 c).modCore (coreOf p.2.1) fun q =>
      { q with tiles := q.tiles.filter fun t => decide (t.1 < p.2.2 ∨ p.2.2 + o.tiles ≤ t.1) }) s
  let s := s.modCluster cl fun c => { c with
    xfus := units.foldl (fun t u => tset t u { Xfu.initial with group := some grp }) c.xfus,
    csramUsed := c.csramUsed + 1024 * o.csram, barsUsed := c.barsUsed + o.bars }
  let s := s.modDie (cl / 8) fun d => { d with lastCluster := cl % 8 }
  let x : Group := { Group.initial with
    launch := k, index := l.next, cluster := cl, members := ps.foldl (fun t p => tset t p.1 p.2.1) [], live := ps.map (·.1),
    csramSize := 1024 * o.csram, bars := o.bars, units := units, estimate := o.energy, loanFrom := loans }
  { s with groups := tset s.groups grp x, nextGroup := grp + 1 }.modLaunch k fun l => { l with next := l.next + 1 }

/-- The lowest core program whose table is refused: program, status, index (R235, R359). -/
def refusedTable (s : State) (l : Launch) (ps : List (Nat × Nat × Nat)) : Option (Nat × Nat × Nat) :=
  ps.findSome? fun p => (tableStatus s l.part l.vf (coreOf p.2.1) (tableImage s l.part l.swtb p.1)).map fun r => (p.1, r.1, r.2)

/-- The frames of CP segments whose core the launch fixes: those its table image 0 maps that have none yet (R466). -/
def segmentFrames (s : State) (l : Launch) : List Nat :=
  let es := (tableImage s l.part l.swtb 0).filter fun e => swV e && swCoh e == 2
  s.unowned.filter fun f => (s.grant f).owner == some l.part && es.any fun e => decide ((swFrames e).1 ≤ f ∧ f < (swFrames e).1 + (swFrames e).2)

/-- Before a launch's first group has its table checked, the frames of its CP segments are given to the core that runs core program 0,
unless a table maps one already (R247, R466). -/
def ownSegments (l : Launch) (ps : List (Nat × Nat × Nat)) (s : State) : State :=
  match ps.find? (·.1 == 0), l.next with
  | some p, 0 => (segmentFrames s l).foldl (fun s f =>
      if mapped s f || pinned s f then s
      else { setClass 2 (coreOf p.2.1) f s with unowned := s.unowned.filter (· ≠ f) }) s
  | _, _ => s

/-- The tables are read and checked, and the group is placed or the launch refused. -/
def placeChecked (k : Nat) (l : Launch) (cl : Nat) (ps : List (Nat × Nat × Nat)) (s : State) : State :=
  let s := ps.foldl (fun s p => cpNote l.part (l.swtb + 8192 * p.1) 8192 s) (ownSegments l ps s)
  match refusedTable s l ps with
  | some (cp, st, i) => s.modLaunch k fun l => { l with status := st, swtIdx := i, swtCp := cp }
  | none => settleGains cl l.vf (placeGroup k l cl ps s)

/-- GROUP_PLACE (R360, R361, R366, R404): once the runtime is ready, a die places the next group of a launch, or the launch is refused
for its resources or tables. A VF's pre-empted groups on the cluster go first. -/
def execGroupPlace (s : State) : Host.Outcome State Fault Refusal :=
  match s.request with
  | .groupPlace die launch =>
    match tfind s.launches launch with
    | none => .next s
    | some l =>
      if !s.regs.ready || !l.hasNext then .next s
      else if (s.kobj l).tooLarge || (partClusters s l.part).isEmpty then
        .next (s.modLaunch launch fun l => { l with status := 0x15 })
      else if !launchOpen s launch l || servedBefore s die.val launch l then .next s
      else match dieFits s die.val launch l with
        | none => .next s
        | some (cl, ps) => .next (placeChecked launch l cl ps s)
  | _ => .next s

/-! ## Completion of a group (R349) -/

/-- The resources of a group return to the dispatcher. -/
def releaseGroup (grp : Nat) (s : State) : State :=
  let x := s.group grp
  let s := x.members.foldl (fun s m => s.setCtx m.2 Ctx.initial) { s with saves := s.saves.filter fun y => y.2.ctx.group != grp }
  let s := s.modCluster x.cluster fun c => { c with
    csramUsed := c.csramUsed - x.csramSize, barsUsed := c.barsUsed - x.bars,
    xfus := c.xfus.map fun u => if u.2.group = some grp then (u.1, Xfu.initial) else u }
  s.modGroup grp fun x => { x with done := true, members := [], csram := [], csramPoison := [], slots := [], unitState := [] }

def execGroupComplete (group : Nat) (s : State) : Host.Outcome State Fault Refusal :=
  match tfind s.groups group with
  | none => .next s
  | some x =>
    if x.done || !x.live.isEmpty || x.members.any (fun m => ctxBusy s m.2) then .next s
    else .next ((releaseGroup group s).modLaunch x.launch fun l => { l with exited := l.exited + 1 })

/-! ## Quantum boundary (R365, R367) -/

/-- Areas of a core's save pool that are used, or will be by contexts already being pre-empted. -/
def areasUsed (s : State) (k : Nat) : Nat :=
  (s.saves.filter fun x => coreOf x.2.home == k && x.2.area.isSome).length
    + (([0, 1, 2, 3].map fun i => 4 * k + i).filter fun g => (s.ctx g).preempt || (s.ctx g).run.away).length

/-- Pre-emption of a group: each context that is not frozen will stop at its next boundary; the partition's runtime is told (R372). -/
def preemptGroup (grp : Nat) (s : State) : State :=
  let x := s.group grp
  let s := x.members.foldl (fun s m => s.modCtx m.2 fun c => if c.run.placed then { c with preempt := true } else c) s
  let part := ((tfind s.launches x.launch).map (·.part)).getD 0
  let r := record32 (BitVec.ofNat 64 (256 * 0x16 + 65536 * part)) (BitVec.ofNat 64 grp) 0 s.cycles
  (s.modPart part fun p => { p with reports := p.reports ++ [r] }).modLaunch x.launch fun l => { l with preempts := l.preempts + 1 }

/-- Some context of a group is placed and not yet marked. -/
def Group.canPreempt (s : State) (x : Group) : Bool := x.members.any fun m => (s.ctx m.2).run.placed && !(s.ctx m.2).preempt

/-- A group can be saved for sharing: no core of its would need a seventeenth area. -/
def areasLeft (s : State) (x : Group) : Bool := x.members.all fun m => decide (areasUsed s (coreOf m.2) < 16)

/-- The group the VF waits for fits the cluster: its next pre-empted group there, else its next new one. What the contexts marked for
pre-emption will leave counts as free. -/
def willFit (s : State) (cl vf : Nat) : Bool :=
  let freed (g : Nat) : Bool := ctxFree s g || (s.ctx g).preempt
  let freeU (u : Nat) : Bool := unitFree s cl u || match (s.xfu cl u).group with
    | some gr => (s.group gr).members.all fun m => (s.ctx m.2).preempt || (s.ctx m.2).run == .exited
    | none => true
  if vfResumes s cl vf then
    s.saves.any fun x => clusterOf x.2.home == cl && x.2.ctx.vf == vf && x.2.returns && groupTurn s x.2.ctx.group
      && groupFits s freed freeU x.2.ctx.group
  else s.launches.any fun l => l.2.vf == vf && l.2.hasNext && !launchHeld s l.1
    && (clusterFits s freed freeU cl l.1 l.2.part (s.kobj l.2)).isSome

/-- The VF with a positive deficit that waits on the cluster, unable to be placed or resumed: the largest deficit, of equal ones the lower
number (R366, R367). -/
def unservedVf (s : State) (cl : Nat) : Option Nat :=
  (sortBy (fun a b => decide (deficit s cl b < deficit s cl a ∨ (deficit s cl a = deficit s cl b ∧ a ≤ b)))
    ((vfList s).filter fun w => decide (0 < deficit s cl w) && vfWaits s cl w && !vfServable s cl w)).head?

/-- Every group of a VF on the cluster that is not being pre-empted already is, where areas are left (R367, R372). -/
def preemptVf (cl vf : Nat) (s : State) : State :=
  (vfGroups s cl vf).foldl (fun s grp => if (s.group grp).canPreempt s && areasLeft s (s.group grp) then preemptGroup grp s else s) s

/-- The spent test on one cluster (R367): the groups of spent VFs, from the lowest deficit and then the lowest number, until the waiting
group fits. The gains then wait until it has been served. -/
def spentTest (cl : Nat) (s : State) : State :=
  match unservedVf s cl with
  | none => s
  | some w =>
    let spent := sortBy (fun a b => decide (deficit s cl a < deficit s cl b ∨ (deficit s cl a = deficit s cl b ∧ a ≤ b)))
      ((vfList s).filter fun v => v != w && decide (deficit s cl v ≤ 0) && !(vfGroups s cl v).isEmpty)
    if spent.isEmpty then s
    else (spent.foldl (fun s v => if willFit s cl w then s else preemptVf cl v s) s).modCluster cl fun c => { c with gainDue := some w }

/-- QUANTUM_BOUNDARY, once for every multiple of 150,000 that CYCLES has reached: on every cluster the test of R367, then the gains, which
wait for a VF for which groups are pre-empted; those of the boundary before come now at the latest. -/
def execQuantumBoundary (s : State) : Host.Outcome State Fault Refusal :=
  let turn (cl : Nat) (s : State) : State :=
    let s := spentTest cl (if (s.cluster cl).gainDue.isSome then addGains cl s else s)
    if (s.cluster cl).gainDue.isSome then s else addGains cl s
  .next (if s.cycles.toNat / 150000 ≤ s.regs.quanta then s
    else s.each (s.clusters.map (·.1)) turn |> fun s => { s with regs := { s.regs with quanta := s.regs.quanta + 1 } })

/-! ## Resumption and displacement (R374) -/

/-- The group holds a context on one of the cores, or one of the units. -/
def holdsAny (x : Group) (cores units : List Nat) : Bool :=
  x.holding && (x.members.any (fun m => cores.contains (coreOf m.2)) || x.units.any units.contains)

/-- Each saved context of a group takes the lowest free context of its core, and the group has its units again, as it left them; what
it takes of other saved groups is a loan, and what others hold as its loan no longer is one (R373, R374). -/
def resumeGroup (grp : Nat) (s : State) : State :=
  let x := s.group grp
  let loans := lenders s x.cluster grp ((savedOf s grp).filterMap fun y => returnTo s y.2.home) x.units
  let s := lendUnits x.cluster grp x.units s
  let s := s.modCluster x.cluster fun c => { c with xfus := x.units.foldl (fun t u =>
    if (tget Xfu.initial t u).group = some grp then t else tset t u { tget Xfu.initial x.unitState u with group := some grp }) c.xfus }
  let gs : Tbl Group := s.groups.map fun y => (y.1, { y.2 with loanFrom := y.2.loanFrom.filter (· ≠ grp) })
  let s := ({ s with groups := gs } : State).modGroup grp fun y => { y with unitState := [], loanFrom := (y.loanFrom ++ loans).dedup }
  (savedOf s grp).foldl (fun s y => match returnTo s y.2.home with
    | some g => restoreCtx y.1 g s
    | none => s) s

/-- The group to displace next: one that holds what `grp` needs as its loan, or the highest later index of the same task. -/
def displaced (s : State) (grp : Nat) : Option Nat :=
  let x := s.group grp
  let cores := (savedOf s grp).map fun y => coreOf y.2.home
  let holders := s.groups.filter fun y => y.2.cluster == x.cluster && holdsAny y.2 cores x.units && y.2.canPreempt s
  match holders.find? fun y => y.2.loanFrom.contains grp with
  | some y => some y.1
  | none => ((holders.filter fun y => y.2.launch == x.launch && decide (x.index < y.2.index)).foldl
      (fun (b : Option (Nat × Nat)) y => match b with
        | some z => if z.2 < y.2.index then some (y.1, y.2.index) else some z
        | none => some (y.1, y.2.index)) none).map (·.1)

/-- A group that holds what `grp` needs is being pre-empted and has not stopped yet: what it frees is seen first. -/
def displacing (s : State) (grp : Nat) : Bool :=
  let x := s.group grp
  let cores := (savedOf s grp).map fun y => coreOf y.2.home
  s.groups.any fun y => y.2.cluster == x.cluster && holdsAny y.2 cores x.units
    && y.2.members.any fun m => (s.ctx m.2).preempt && (s.ctx m.2).run.placed

/-- GROUP_RESUME: a pre-empted group whose turn it is and whose VF is served resumes, or displaces one group that holds what it
needs. -/
def execGroupResume (group : Nat) (s : State) : Host.Outcome State Fault Refusal :=
  let l := savedOf s group
  .next (if l.isEmpty || !groupTurn s group || !vfServed s (s.group group).cluster (((l.map fun y => y.2.ctx.vf).head?).getD 0) then s
    else if groupReturns s group then settleGains (s.group group).cluster (((l.map fun y => y.2.ctx.vf).head?).getD 0) (resumeGroup group s)
    else if (l.any fun y => match y.2.ctx.run with | .saved => false | _ => true) || displacing s group then s
    else match displaced s group with
      | some h => preemptGroup h s
      | none => s)

/-! ## The Treasury (R368) -/

/-- One VF's account at a close: `extra` nJ were attributed by Vaults and links (R369). -/
def Vf.close (v : Vf) (allow extra : Nat) : Vf :=
  let credit : Int := (allow * 100 * v.share / 65536 : Nat)
  let nj := v.meter + extra + v.remainder
  let b := min (v.balance + credit - ((nj / 1000 : Nat) : Int)) credit
  { v with balance := max b (-2147483648), meter := 0, remainder := nj % 1000 }

def execTreasuryClose (s : State) : Host.Outcome State Fault Refusal :=
  match s.request with
  | .treasuryClose ext =>
    let extra (v : Nat) : Nat := (ext.filter (·.1 == v)).foldl (fun n e => n + e.2) 0
    .next { s with vfs := s.vfs.map fun v => (v.1, v.2.close s.regs.allow (extra v.1)) }
  | _ => .next s

/-- VF_WEIGHT_SET (R365): weights are 1 to 255. -/
def execVfWeightSet (s : State) : Host.Outcome State Fault Refusal :=
  match s.request with
  | .vfWeightSet vf w => .next (if 1 ≤ w ∧ w ≤ 255 then s.modVf vf.val fun v => { v with weight := w } else s)
  | _ => .next s

/-! ## The Mint's tree (R61, R376) -/

/-- Tree level of a core within its cluster (R376). -/
def treeLevelOf (g : Nat) : Nat := if coreOf g % 8 = 0 then 1 else if coreOf g % 8 ≤ 3 then 2 else 3

/-- Cycles by which a level executes a row after level 1 (R61). -/
def levelLag (g : Nat) : Nat := 2 * (treeLevelOf g - 1)

/-- Cycles after its last row in which an iteration is still executed. -/
def Mint.span (m : Mint) : Nat := m.members.foldl (fun n g => max n (levelLag g)) 0

/-- Rows of the iteration are still to be sent, or to be executed by some member (R380). -/
def Mint.busy (m : Mint) : Bool := m.running && (m.rowsLeft != 0 || decide (m.late < m.span))

end Sys2Proof.Machine
end

