-- ==== Sys2Proof/Machine/Vaults.lean ====
section
/-!
DEFINITION. The Vaults beyond a single write: runs of frames, the Balloon engine (R418 to R421), the requests of the partition
runtime (R415, R422), large pages (R423), and the counter window (R424, R425).
-/
set_option Elab.async false
namespace Sys2Proof.Machine

/-! ## Frames and their runs -/

def setBit64 (e : W64) (i : Nat) (b : Bool) : W64 := if b then e ||| (1#64 <<< i) else e &&& ~~~(1#64 <<< i)

/-- The lines of a compressed frame that have chunks: their runs are freed and their metadata cleared. -/
def Vault.freeLines (v : Vault) (f p : Nat) : Vault :=
  (List.range 128).foldl (fun v j =>
    let w := tget 0 v.lineMeta (128 * f + j)
    let n := wordSize w
    if n = 0 then { v with lineMeta := tdel v.lineMeta (128 * f + j) }
    else { v with lineMeta := tdel v.lineMeta (128 * f + j), used := tdec v.used p n }.freeRun (wordRun w) n) v

/-- A frame's chunks are freed, its metadata block, where it has one, as two runs of 8 (R408, R413, R414). -/
def Vault.freeFrame (v : Vault) (f p : Nat) : Vault :=
  let v := v.freeLines f p
  match tfind v.metaBlocks f with
  | some b => { v with used := tdec v.used p 16, metaBlocks := tdel v.metaBlocks f }.setList 8 (v.list 8 ++ [b, b + 8])
  | none => v

/-- The partition of a frame of a Vault. -/
def Vault.ownerOf (v : Vault) (f : Nat) : Nat := (tfind v.frameOwner f).getD 0

/-- A frame demoted: written whole to the target, D set, its chunks freed (R418). Its bytes read as before; what the Vault held for its
lines is in the copy (R421). -/
def demoteFrame (f : Nat) (s : State) : State :=
  let e := s.frame f
  let v := frVault e
  if !(frP e && frC e) || frD e || pinned s f || !(s.vault v).demotionTarget then s
  else
    let p := (s.vault v).ownerOf f
    dropHeld v f ((s.modVault v fun vt => { vt.freeFrame f p with demoted := vt.demoted ++ [f], pdemot := tinc vt.pdemot p 1 }).setFrame f
      (setBit64 e 2 true))

/-! ## The Balloon engine (R418) -/

/-- What the partitions under quota may still claim (R417). -/
def Vault.claims (v : Vault) : Nat :=
  (v.frameOwner.map (·.2)).dedup.foldl (fun n p => n + (v.quota p - v.usedBy p)) 0

/-- Freed chunks refill the Reserve to its target, from those in excess of the claims: 8-chunk runs, one at a time, then whole ranges
nothing has used. -/
def Vault.refill : Nat → Vault → Vault
  | 0, v =>
    match v.fresh with
    | [] => v
    | r :: l =>
      let n := min (min (v.target - v.reserved) (v.free - v.claims)) (r.2 - r.1) / 8 * 8
      if n = 0 then v
      else { v with reserve := v.reserve ++ [(r.1, r.1 + n)], fresh := if r.1 + n < r.2 then (r.1 + n, r.2) :: l else l }
  | n + 1, v =>
    match v.list 8 with
    | r :: rs =>
      if v.reserved < v.target ∧ v.claims + 8 ≤ v.free then Vault.refill n { v.setList 8 rs with reserve := v.reserve ++ [(r, r + 8)] }
      else v
    | [] => Vault.refill n v

/-- Lines whose runs lie in the 512-byte aligned window of chunk `8b`. -/
def Vault.linesIn (v : Vault) (b : Nat) : List (Nat × W64) :=
  v.lineMeta.filter fun l => wordSize l.2 != 0 && wordRun l.2 / 8 == b

/-- Free chunks in a window. -/
def Vault.freeIn (v : Vault) (b : Nat) : Nat :=
  ([1, 2, 3, 4, 5, 6, 7].map fun c => c * ((v.list c).filter fun r => r / 8 == b).length).sum

/-- The window becomes one free run: its free runs leave the lists and each line in it moves to a run elsewhere. None when the
lists hold no such runs. -/
def Vault.compactWindow (v : Vault) (b : Nat) : Option Vault :=
  let v0 := [1, 2, 3, 4, 5, 6, 7].foldl (fun v c => v.setList c ((v.list c).filter fun r => r / 8 != b)) v
  let r := (v.linesIn b).foldl (fun (acc : Option Vault) l =>
    match acc with
    | none => none
    | some v => match leastFrom (fun c => c < 8 && !(v.list c).isEmpty) (wordSize l.2) (8 - wordSize l.2) with
      | none => none
      | some c =>
        let run := (v.list c).headD 0
        let v := (v.setList c ((v.list c).drop 1)).freeRun (run + wordSize l.2) (c - wordSize l.2)
        some { v with lineMeta := tset v.lineMeta l.1 (setBits l.2 32 (BitVec.ofNat 32 run)) }) (some v0)
  r.map fun v => v.setList 8 (v.list 8 ++ [8 * b])

/-- Windows with free chunks, whose other chunks all hold lines. -/
def Vault.windows (v : Vault) : List Nat :=
  (([1, 2, 3, 4, 5, 6, 7].flatMap fun c => (v.list c).map (· / 8)).dedup).filter fun b =>
    v.freeIn b + ((v.linesIn b).map fun l => wordSize l.2).sum == 8

/-- Step 2: one window after another becomes a free 8-chunk run, while any can. -/
def Vault.compact (v : Vault) : Vault :=
  v.windows.foldl (fun v b => if v.windows.contains b then (v.compactWindow b).getD v else v) v

/-- `n` chunks from `lo` leave the pool: those that are free leave the lists, and the lines among them move to runs elsewhere (R407). None
unless every one is free or a line's, and the lists hold the runs it takes. -/
def Vault.vacate (v : Vault) (lo n : Nat) : Option Vault :=
  let inside (c r : Nat) : Bool := decide (lo ≤ r ∧ r + c ≤ lo + n)
  let rest := cutRanges v.fresh lo (lo + n)
  let got := v.lists.foldl (fun k e => k + e.1 * (e.2.filter (inside e.1)).length) (rangeSize v.fresh - rangeSize rest)
  let ls := v.lineMeta.filter fun l => wordSize l.2 != 0 && inside (wordSize l.2) (wordRun l.2)
  if got + (ls.map fun l => wordSize l.2).sum = n then
    ls.foldl (fun (acc : Option Vault) l => acc.bind fun v => (v.takeList (wordSize l.2)).map fun t =>
      { t.2 with lineMeta := tset t.2.lineMeta l.1 (setBits l.2 32 (BitVec.ofNat 32 t.1)) })
      (some { v with fresh := rest, lists := v.lists.map fun e => (e.1, e.2.filter fun r => !inside e.1 r) })
  else none

/-- The donated frame to take: the oldest not pinned (R418). -/
def donation (s : State) (v : Nat) : Option Nat := (s.vault v).donated.find? fun f => !pinned s f

/-- Step 1: a donated frame is taken, with the writes held for it. After it an access finds the frame not present. -/
def takeDonation (v f : Nat) (s : State) : State :=
  let p := (s.vault v).ownerOf f
  dropHeld v f ((s.modVault v fun vt => { vt.freeFrame f p with
    donated := vt.donated.filter (· ≠ f), demoted := vt.demoted.filter (· ≠ f), taken := vt.taken ++ [f], ratio := tdel vt.ratio f
    frameOwner := tdel vt.frameOwner f }).setFrame f (s.frame f &&& ~~~7#64))

/-- The frame step 3 demotes: of the partition furthest over its quota, the one touched least recently, no pinned one. -/
def demotionVictim (s : State) (v : Nat) : Option Nat :=
  let vt := s.vault v
  let fs := vt.ratio.filter fun e => frP (s.frame e.1) && frC (s.frame e.1) && !frD (s.frame e.1) && !pinned s e.1
  let excess (f : Nat) : Nat := vt.usedBy (vt.ownerOf f) - vt.quota (vt.ownerOf f)
  (fs.foldl (fun (b : Option Nat) e => match b with
    | none => some e.1
    | some x =>
      if excess x < excess e.1 ∨ (excess x = excess e.1 ∧ vt.ownerOf x = vt.ownerOf e.1 ∧ tget 0 vt.touch e.1 < tget 0 vt.touch x) then some e.1
      else some x) none)

/-- After a step that freed chunks: the Reserve is refilled first, and the pass starts anew while there is a reason to. -/
def afterFree (v : Nat) (s : State) : State :=
  s.modVault v fun vt => let w := Vault.refill (vt.list 8).length vt; { w with step := if w.wants then 1 else 0 }

/-- A pass ends and has freed nothing: the engine is exhausted, and partitions over quota may be out of space (R418, R420, R425). -/
def passEnds (v : Nat) (s : State) : State := decideSpace v (s.modVault v fun vt => { vt with step := 0, exhausted := true })

/-- BALLOON_PASS: the step in progress is done, and the engine goes on to the next (R418, R425). An exhausted engine works only for
writes that are held (R421). -/
def execBalloonPass (v : Fin 16) (s : State) : Host.Outcome State Fault Refusal :=
  let n := v.val
  let vt := s.vault n
  let go (k : Nat) (s : State) : State := s.modVault n fun vt => { vt with step := k, exhausted := false }
  .next (if !s.released then s
    else if !vt.wants then s.modVault n Vault.rest
    else if vt.exhausted && vt.held.isEmpty then s
    else match vt.step with
      | 0 => go 1 s
      | 1 => match donation s n with
        | some f => afterFree n (takeDonation n f s)
        | none => go 2 s
      | 2 =>
        let s := s.modVault n fun vt => let w := vt.compact; Vault.refill (w.list 8).length w
        if vt.demotionTarget then go 3 s else passEnds n s
      | _ => match demotionVictim s n with
        | some f => afterFree n (demoteFrame f s)
        | none => passEnds n s)

/-- What resumes an exhausted engine (R418); one with nothing to do is idle (R425). -/
def resumeEngine (v : Nat) (s : State) : State :=
  s.modVault v fun vt => (if vt.exhausted then { vt with exhausted := false, step := 1 } else vt).rest

/-- Freed chunks refill the Reserve first, and an engine left with nothing to do is idle (R418, R425). -/
def settleVault (v : Nat) (s : State) : State := s.modVault v fun vt => (Vault.refill (vt.list 8).length vt).rest

/-- One held write is applied: its line takes a run, or its demoted frame is restored. One whose frame has left the pool is gone, and one
to a demoted frame that its partition may not have restored stays in the demoted copy (R421). None while no chunks serve it. -/
def applyHeld (v : Nat) (h : HeldWrite) (s : State) : Option State :=
  let vt := s.vault v
  let f := h.line / 128
  let e := s.frame f
  let done := releaseHeld v (· == h)
  if !vt.held.contains h then some s
  else if !(frP e && frC e) then some (done s)
  else if frD e then (restoreNow f s).orElse fun _ => if vt.outOfSpace.contains (vt.ownerOf f) then some (done s) else none
  else match vt.writeLine h.line (vt.ownerOf f) (readBytes s.mem (512 * h.line) 512) with
    | .done w => some (done (s.modVault v fun _ => w))
    | .held => none

/-- Held writes applied in order, up to the first that no chunks serve. -/
def applyAll (v : Nat) : List HeldWrite → State → State
  | [], s => s
  | h :: l, s => match applyHeld v h s with
    | some t => applyAll v l t
    | none => s

/-- HELD_WRITE_APPLY (R421): held writes are applied in arrival order while chunks serve them. -/
def execHeldWriteApply (v : Fin 16) (s : State) : Host.Outcome State Fault Refusal :=
  .next (decideSpace v.val ((applyAll v.val (s.vault v.val).held s).modVault v.val Vault.rest))

/-- VAULT_LINE_WRITE (R411): a write to a line, processed whole. -/
def execVaultLineWrite (s : State) : Host.Outcome State Fault Refusal :=
  match s.request with
  | .vaultLineWrite line off data =>
    .next (if s.released ∧ off + data.length ≤ 512 ∧ 512 * (line + 1) ≤ s.dpBytes then writeBack (512 * line + off) data s else s)
  | _ => .next s

/-! ## Requests of the partition runtime (R415, R422) -/

/-- The frames of a request. -/
def frameRange (f n : Nat) : List Nat := (List.range n).map (f + ·)

/-- Every frame is granted to the partition alone. -/
def ownsAll (s : State) (part f n : Nat) : Bool := (frameRange f n).all fun x => (s.grant x).owner == some part

/-- Every frame is one of the partition's compressed frames. -/
def ownsLc (s : State) (part f n : Nat) : Bool := ownsAll s part f n && (frameRange f n).all fun x => frP (s.frame x) && frC (s.frame x)

/-- QUOTA of a Vault with other ratios for some frames stays within VCAP − RT (R415). -/
def quotaOk (vt : Vault) : Bool := decide (vt.quotas ≤ vt.vcap - vt.target)

/-- RATIO: refused outside 16 to 64, or past the pool, without effect. -/
def execRatio (s : State) : Host.Outcome State Fault Refusal :=
  match s.request with
  | .ratio part f n r =>
    let fs := frameRange f n
    let vs := (fs.map fun x => frVault (s.frame x)).dedup
    let setR (v : Nat) (vt : Vault) : Vault :=
      { vt with ratio := fs.foldl (fun t x => if frVault (s.frame x) = v then tset t x r else t) vt.ratio }
    .next (if r < 16 || 64 < r || !ownsLc s part.val f n || !vs.all (fun v => quotaOk (setR v (s.vault v)) ) then s
      else s.each vs fun v s => resumeEngine v (s.modVault v (setR v)))
  | _ => .next s

/-- DONATE: the frames become reclaimable. -/
def execDonate (s : State) : Host.Outcome State Fault Refusal :=
  match s.request with
  | .donate part f n =>
    .next (if !ownsLc s part.val f n then s
      else s.each (frameRange f n) fun x s => resumeEngine (frVault (s.frame x)) (s.modVault (frVault (s.frame x)) fun vt =>
        if vt.donated.contains x then vt else { vt with donated := vt.donated ++ [x] }))
  | _ => .next s

/-- WITHDRAW: donated frames not yet taken stay. -/
def execWithdraw (s : State) : Host.Outcome State Fault Refusal :=
  match s.request with
  | .withdraw part f n =>
    .next (if !ownsAll s part.val f n then s
      else s.each (frameRange f n) fun x s => s.modVault (frVault (s.frame x)) fun vt => { vt with donated := vt.donated.filter (· ≠ x) })
  | _ => .next s

/-- DEMOTE: the frames are demoted at once, if the Vault has a target, as step 3 does. -/
def execDemote (s : State) : Host.Outcome State Fault Refusal :=
  match s.request with
  | .demote part f n =>
    .next (if !ownsLc s part.val f n then s
      else (s.each (frameRange f n) demoteFrame).each ((frameRange f n).map fun x => frVault (s.frame x)).dedup settleVault)
  | _ => .next s

/-- Every sector of a frame is zero and no longer poisoned (R441); a compressed frame's runs are freed, and writes held for it are gone. -/
def zeroFrame (f : Nat) (s : State) : State :=
  let e := s.frame f
  let s := { s with mem := s.mem.filter fun c => decide (c.1 / 65536 ≠ f), poison := s.poison.filter fun x => decide (x / 1024 ≠ f) }
  let s := dropHeld (frVault e) f s
  if frP e && frC e && !frD e then s.modVault (frVault e) fun vt => vt.freeLines f (vt.ownerOf f) else s

/-- ZERO. -/
def execZeroFrames (s : State) : Host.Outcome State Fault Refusal :=
  match s.request with
  | .zeroFrames part f n =>
    .next (if !ownsLc s part.val f n then s
      else s.each (frameRange f n) fun x s => resumeEngine (frVault (s.frame x)) (zeroFrame x s))
  | _ => .next s

/-! ## Large pages (R242, R423) -/

/-- SPLIT. -/
def execSplitPage (s : State) : Host.Outcome State Fault Refusal :=
  match s.request with
  | .splitPage part f => .next (if ownsAll s part.val f 1 then splitAt f s else s)
  | _ => .next s

/-- What a page is built of: frames, or for a 1 GiB page 2 MiB pages; one partition's, present, uncompressed, of one class, owner and
grant, aligned. -/
def buildable (s : State) (part f size : Nat) : Bool :=
  let n := pageFrames size
  f % n == 0 && (size == 1 || size == 2) && ownsAll s part f n && (frameRange f n).all fun x =>
    let e := s.frame x
    frP e && !frC e && !frError e && frCoh e == frCoh (s.frame f) && frOwner e == frOwner (s.frame f) && s.grant x == s.grant f
      && frSize e == size - 1

/-- PROMOTE: the promotion engine of the frames' Vault is asked for the page. -/
def execPromote (s : State) : Host.Outcome State Fault Refusal :=
  match s.request with
  | .promote part f size =>
    .next (if !buildable s part.val f size.val then s
      else s.modVault (frVault (s.frame f)) fun vt =>
        if vt.building.contains (f, size.val) then vt else { vt with building := vt.building ++ [(f, size.val)] })
  | _ => .next s

/-- The first machine frame of a page the engine builds, at an address of its choice within the tier. -/
def builtBase (vt : Vault) (lp : Bool) (base : BitVec 17) (n : Nat) : Nat :=
  base.toNat * 32 % (if lp then vt.chunks / 1024 else 2 ^ 20) / n * n

/-- The entry of frame `i` of a page built at machine frame `u`, in the Vault and tier of its first frame (R242). -/
def builtEntry (e first : W64) (u size i : Nat) : W64 :=
  let mloc := (first.toNat / 2 ^ 37 % 32) * 2 ^ 28 + (u + i) * 64
  (e &&& ~~~(0x1FFFFFFFF#64 <<< 9) &&& ~~~0x18#64) ||| BitVec.ofNat 64 (mloc * 2 ^ 9 + size * 8)

/-- A frame's machine frame within its tier. -/
def frUnit (e : W64) : Nat := (bits e 9 28).toNat / 64

/-- The chunks of a retired row leave the pool, once its lines can move elsewhere (R446; log 72). -/
def strikeRow (s : State) (r : Nat) : State :=
  (Config.rowUnits r).foldl (fun s u =>
    if u / 2 ^ 28 % 2 = 0 then s
    else match (s.vault (u / 2 ^ 29)).vacate (16 * (u % 2 ^ 28)) 16 with
      | some w => s.modVault (u / 2 ^ 29) fun _ => { w with vcap := w.vcap - 16 }
      | none => s) s

/-- An uncompressed frame leaves its machine memory: in the LPDDR-6 tier its chunks go back to the pool, but for those of retired rows
(R407, R446). -/
def leaveRaw (e : W64) (s : State) : State :=
  if frTier e then s.retired.foldl strikeRow (s.modVault (frVault e) fun vt =>
    { vt with vcap := vt.vcap + 1024, fresh := vt.fresh ++ [(1024 * frUnit e, 1024 * frUnit e + 1024)] })
  else s

/-- The page is moved to machine frames from `u` and its entries rewritten; none while the memory there is not to be had. -/
def buildPage (v f size u : Nat) (s : State) : Option State :=
  let n := pageFrames size
  let first := s.frame f
  let taken := s.frames.any fun e => frP e.2 && !frC e.2 && frVault e.2 == v && frTier e.2 == frTier first
    && decide (u ≤ frUnit e.2 ∧ frUnit e.2 < u + n)
  let fr : Tbl W64 := s.frames.map fun e => if f ≤ e.1 ∧ e.1 < f + n then (e.1, builtEntry e.2 first u size (e.1 - f)) else e
  let vt := if frTier first then ((s.vault v).vacate (1024 * u) (1024 * n)).map fun vt => { vt with vcap := vt.vcap - 1024 * n }
    else some (s.vault v)
  match taken, vt with
  | false, some vt =>
    let t := (frameRange f n).foldl (fun t x => leaveRaw (s.frame x) t)
      ({ s with frames := fr }.modVault v fun _ => { vt with building := vt.building.drop 1 })
    if (t.vault v).vcap - (t.vault v).target < (t.vault v).quotas then none else some t
  | _, _ => none

/-- PROMOTION_BUILD_COMPLETE: every entry of the first page asked for is rewritten; while a frame is pinned the build waits, and frames
that no longer make a page are left as they are (R423). -/
def execPromotionBuildComplete (s : State) : Host.Outcome State Fault Refusal :=
  match s.request with
  | .promotionBuildComplete v =>
    match (s.vault v.val).building with
    | [] => .next s
    | (f, size) :: l =>
      let n := pageFrames size
      let first := s.frame f
      .next (if !(match (s.grant f).owner with | some p => buildable s p f size && frVault first == v.val | none => false) then
          s.modVault v.val fun vt => { vt with building := l }
        else if (frameRange f n).any fun x => pinned s x then s
        else ((buildPage v.val f size (builtBase (s.vault v.val) (frTier first) (Config.promoteBase s.tick) n) s).getD s).bump)
  | _ => .next s

/-! ## Machine memory for uncompressed frames (R22, R30, R407) -/

/-- LPDDR-6 packages of a Vault in service. -/
def Regs.packages (r : Regs) (v : Nat) : Nat := ((List.range 4).filter fun c => bit r.memlp (4 * v + c)).length

/-- The machine memory an MLOC names is in service: within its HBM4E stack, of 64 GiB, or within the LPDDR-6 tier, of 64 GiB a package. -/
def mlocInService (s : State) (m : Nat) : Bool :=
  let v := m / 2 ^ 29
  decide (m < 2 ^ 33) && if m / 2 ^ 28 % 2 = 0 then bit s.regs.memhbm v && decide (m % 2 ^ 28 < 2 ^ 26)
    else decide (m % 2 ^ 28 < 2 ^ 26 * s.regs.packages v)

/-- A kibibyte of a frame's machine memory lies in a retired row (R446). -/
def retiredIn (s : State) (m : Nat) : Bool := !s.retired.isEmpty && (List.range 64).any fun i => s.retired.contains (Config.dramRow (m + i))

/-- An uncompressed frame is placed at MLOC `m`: nothing else lies there, no row is retired, and in the LPDDR-6 tier it takes 1,024 chunks
off the pool, after compaction where needed (R407, R446). -/
def placeRaw (m : Nat) (s : State) : Option State :=
  let v := m / 2 ^ 29
  let vt := s.vault v
  if m % 64 ≠ 0 ∨ !mlocInService s m ∨ retiredIn s m ∨ s.frames.any (fun e => frP e.2 && !frC e.2 && (bits e.2 9 33).toNat == m) then none
  else if m / 2 ^ 28 % 2 = 0 then some s
  else if vt.vcap - 1024 - vt.target < vt.quotas then none
  else (vt.vacate (m % 2 ^ 28 * 16) 1024).map fun w => s.modVault v fun _ => { w with vcap := w.vcap - 1024 }

/-! ## Rows out of use (R446; the layout of rows: log 72) -/

/-- First payload byte of each sector of a line, and the end. -/
def payloadStart (cs : List Nat) (i : Nat) : Nat := ((cs.take i).map classBytes).sum

/-- Kibibytes, by MLOC, in which a frame stands: its own memory, or its metadata block and the runs of its lines. -/
def frameUnits (s : State) (f : Nat) : List Nat :=
  let e := s.frame f
  let vt := s.vault (frVault e)
  let pool (c : Nat) : Nat := frVault e * 2 ^ 29 + 2 ^ 28 + c / 16
  if !frP e then []
  else if !frC e then (List.range 64).map ((bits e 9 33).toNat + ·)
  else (tfind vt.metaBlocks f).toList.map pool ++ (List.range 128).flatMap fun j =>
    let w := tget 0 vt.lineMeta (128 * f + j)
    (List.range (wordSize w)).map fun c => pool (wordRun w + c)

/-- The kibibyte in which a memory sector stands; none of a sector that is stored nowhere. -/
def sectorUnit (s : State) (a : Nat) : Option Nat :=
  let e := s.frame (a / 65536)
  let w := tget 0 (s.vault (frVault e)).lineMeta (a / 512)
  if !frP e || frD e then none
  else if !frC e then some ((bits e 9 33).toNat + a % 65536 / 1024)
  else if classBytes ((wordClasses w).getD (a / 64 % 8) 0) = 0 then none
  else some (frVault e * 2 ^ 29 + 2 ^ 28 + (wordRun w + payloadStart (wordClasses w) (a / 64 % 8) / 64) / 16)

/-- A frame in a bad row is moved to new machine memory, as the promotion engine moves one: not while it is pinned, and a page it is part of
is split (R423, R446). Where the memory chosen is not to be had it stays. -/
def moveFrame (f : Nat) (s : State) : State :=
  let e := s.frame f
  let m := Config.movedTo s.tick
  if pinned s f then s
  else match placeRaw m s with
    | some t => (leaveRaw e ((splitAt f t).modFrame f fun e => (e &&& ~~~(0x1FFFFFFFF#64 <<< 9)) ||| BitVec.ofNat 64 (m % 2 ^ 33 * 2 ^ 9))).bump
    | none => s

/-- A row goes out of use: what stands in it moves elsewhere, and nothing is placed in it again (R446). -/
def retireRow (s : State) (r : Nat) : State :=
  if s.retired.contains r then s
  else
    let s := { s with retired := s.retired ++ [r] }
    let fs := (s.frames.filter fun e => frP e.2 && !frC e.2 && (frameUnits s e.1).any fun u => Config.dramRow u == r).map (·.1)
    strikeRow (s.each fs moveFrame) r

/-- 24 hours in cycles. -/
def dayCycles : Nat := 24 * 3600 * 3000000000

/-- An error counted, with those of the last 24 hours, and how many of them fell where this one did. -/
def countError (l : List (Nat × W64)) (k : Nat) (now : W64) : List (Nat × W64) × Nat :=
  let l := (l.filter fun e => decide (now.toNat - e.2.toNat < dayCycles)) ++ [(k, now)]
  (l, (l.filter fun e => e.1 == k).length)

/-- A corrected error in a DRAM row: above 16 in 24 hours its frames are moved and it is retired (R446). -/
def rowError (a : Nat) (s : State) : State :=
  match sectorUnit s a with
  | none => s
  | some u =>
    let r := Config.dramRow u
    let c := countError s.rowErrors r s.cycles
    if 16 < c.2 then retireRow { s with rowErrors := c.1.filter fun e => decide (e.1 ≠ r) } r else { s with rowErrors := c.1 }

/-- An uncorrectable error in a DRAM row: it is retired on the next revocation of a frame that stands in it (R446). -/
def rowBroken (a : Nat) (s : State) : State :=
  match sectorUnit s a with
  | none => s
  | some u => if s.retireDue.contains (Config.dramRow u) then s else { s with retireDue := s.retireDue ++ [Config.dramRow u] }

/-- The rows that the revocation of a frame retires. -/
def rowsDue (s : State) (f : Nat) : List Nat := s.retireDue.filter fun r => (frameUnits s f).any fun u => Config.dramRow u == r

/-! ## Frame service (R431) -/

/-- The runtime may install the frame: below DPSIZE, granted to the partition, absent and not taken as a donation. -/
def installable (s : State) (part f : Nat) : Bool :=
  decide (65536 * f < s.dpBytes) && ((s.grant f).owner == some part || (s.grant f).sharers.contains part) && !frP (s.frame f)
    && !s.vaults.any fun v => v.2.taken.contains f

/-- The context whose wait ends at cycle `now`: it resumes as after RFE, or is frozen with cause 0x08. -/
def Ctx.serviced (c : Ctx) (ok : Bool) (saved : Bool) (now : Nat) : Ctx :=
  if !ok then c.freeze 0x08
  else if saved then
    { c with run := .saved, hm := false, pc := c.trappc, groupWrites := c.heldWrites, heldWrites := [], holdBar := c.heldBar, heldBar := none }
  else { c.rfe now with run := .ready }

/-- The context waiting for the runtime's answer, in hardware context `g` or saved after it left it, and where it is kept. -/
def frameWaiter (s : State) (g : Nat) : Option (Ctx × Bool × (Ctx → State → State)) :=
  let waits (c : Ctx) : Bool := match c.run with | .frameWait => true | _ => false
  if waits (s.ctx g) then some (s.ctx g, false, fun c s => s.setCtx g c)
  else (s.saves.find? fun x => x.2.home == g && waits x.2.ctx).map fun x =>
    (x.2.ctx, true, fun c s => { s with saves := tset s.saves x.1 { x.2 with ctx := c } })

/-- The runtime installs a frame at the machine address an entry names: it keeps its class and owner, with which the loaded tables agree
(R239). None where the memory named is not to be had. -/
def installFrame (f : Nat) (e : W64) (s : State) : Option State :=
  let m := (bits e 9 33).toNat
  (placeRaw m s).map fun s => s.setFrame f ((s.frame f &&& (0x60#64 ||| (0xFFF#64 <<< 42))) ||| BitVec.ofNat 64 (1 + m * 2 ^ 9))

/-- A context handles cause 0x08, and asks the runtime for the frame (R242). -/
def handlesFrame (c : Ctx) : Bool := c.hm && c.trapcause == 0x08 && c.run.placed

/-- FRAME_SERVICE: the runtime's answer for the context that waits in, or left, hardware context `ctx`: an entry, or a refusal. For a
handler of cause 0x08 the runtime installs the frame, and the context goes on as its handler does; a refusal leaves it (R242, R431). -/
def execFrameService (s : State) : Host.Outcome State Fault Refusal :=
  match s.request with
  | .frameService ctx entry =>
    match frameWaiter s ctx.val with
    | none =>
      let c := s.ctx ctx.val
      let f := c.trapinfo.toNat / 65536
      .next (match entry, handlesFrame c && installable s c.part f with
        | some e, true => (installFrame f e s).getD s
        | _, _ => s)
    | some (c, saved, put) =>
      let f := c.trapinfo.toNat / 65536
      match entry, installable s c.part f with
      | some e, true => .next (match installFrame f e s with
        | some t => put (c.serviced true saved s.cycles.toNat) t
        | none => s)
      | _, _ => .next (violation 0 0x08 c.part ctx.val c.trapinfo (put (c.serviced false saved s.cycles.toNat) s))
  | _ => .next s

/-! ## The counter window (R424, R425) -/

def Vault.bal (v : Vault) : W64 :=
  BitVec.ofNat 64 ((decide (v.step ≠ 0)).toNat + 2 * v.exhausted.toNat + 4 * v.step + 16 * v.demotionTarget.toNat)

/-- A register of Vault `v`'s window as a general core of partition `p` reads it. -/
def counterReg (s : State) (v p off : Nat) : W64 :=
  let vt := s.vault v
  let view (n : Nat) : W64 := if (s.part p).vaultView then BitVec.ofNat 64 n else 0
  let lines (n : Nat) : Nat := (vt.ratio.filter fun e => vt.ownerOf e.1 == p).foldl (fun k e =>
    k + ((List.range 128).filter fun j => wordSize (tget 0 vt.lineMeta (128 * e.1 + j)) == n).length) 0
  match off with
  | 0x000 => view vt.vcap
  | 0x008 => view vt.free
  | 0x010 => view vt.reserved
  | 0x018 => view vt.target
  | 0x020 => if (s.part p).vaultView then vt.bal else 0
  | 0x028 => view vt.vrdraw
  | 0x100 => BitVec.ofNat 64 (vt.quota p)
  | 0x108 => BitVec.ofNat 64 (vt.usedBy p)
  | 0x110 => BitVec.ofNat 64 (tget 0 vt.realloc p)
  | 0x118 => BitVec.ofNat 64 (tget 0 vt.prdraw p)
  | 0x120 => BitVec.ofNat 64 (tget 0 vt.pdemot p)
  | 0x128 => BitVec.ofNat 64 (vt.donated.filter fun f => vt.ownerOf f == p).length
  | _ => if 0x140 ≤ off ∧ off ≤ 0x180 ∧ off % 8 = 0 then BitVec.ofNat 64 (lines ((off - 0x140) / 8)) else 0

/-- DEMOTION_TARGET_SET (R418). -/
def execDemotionTargetSet (s : State) : Host.Outcome State Fault Refusal :=
  match s.request with
  | .demotionTargetSet v on => .next (if s.released then s.modVault v.val fun vt => { vt with demotionTarget := on } else s)
  | _ => .next s

/-- VAULT_VIEW_SET (R424). -/
def execVaultViewSet (s : State) : Host.Outcome State Fault Refusal :=
  match s.request with
  | .vaultViewSet part on => .next (s.modPart part.val fun p => { p with vaultView := on })
  | _ => .next s

end Sys2Proof.Machine
end

