-- ==== Sys2Proof/Machine/HostPort.lean ====
section
/-!
DEFINITION. The doors to the outside and the masters that come through them: host registers and queues (R448 to R451, R458), host
memory requests, general cores (R24, R25, R382 to R386, R392), remote masters, ports and collectives (R445, R452 to R455).
-/
set_option Elab.async false
namespace Sys2Proof.Machine

/-! ## Registers of the host (R449 to R451, R458) -/

/-- A TAIL write (R358, R451): within the free entries, of which a ring made smaller may have fewer than none, it is accepted, at its place
in the order of arrival, else ERR stops the queue until EN is cleared. -/
def tailWrite (vf q : Nat) (tail : W32) (s : State) : State :=
  let x := s.queue vf q
  let ok := !x.err && decide ((x.tail - x.head).toNat + (tail - x.tail).toNat ≤ 2 ^ x.log)
  let y := if ok then { x with tail := tail } else { x with err := true }
  { s with queues := tset s.queues (queueKey vf q) y
           tails := if ok && tail != x.tail then s.tails ++ [(s.cycles, queueKey vf q, tail)] else s.tails }

/-- A QCFG write (R450): LOG outside 4 to 16 leaves EN 0; with EN 0 the queue is empty and ERR clear. -/
def cfgWrite (vf q : Nat) (val : W64) (s : State) : State :=
  let x := s.queue vf q
  let v := val &&& 0x31F
  let log := (bits v 0 5).toNat
  let v := if log < 4 ∨ 16 < log then v &&& 0x11F else v
  let x := { x with cfg := v }
  let x := if bit v 9 then x else { x with head := x.tail, err := false }
  { s with queues := tset s.queues (queueKey vf q) x, tails := if bit v 9 then s.tails else s.tails.filter fun t => t.2.1 != queueKey vf q }

/-- A QBASE write: ignored while EN is 1. -/
def baseWrite (vf q : Nat) (val : W64) (s : State) : State :=
  let x := s.queue vf q
  if x.en then s else { s with queues := tset s.queues (queueKey vf q) { x with base := val &&& 0xFFFFFFFFFFFFFFC1 } }

/-- A SHARE write: ignored when the shares would sum above 65,536 (R449). -/
def setShare (v : Nat) (val : W64) (s : State) : State :=
  let x := (bits val 0 16).toNat
  let others := s.vfs.foldl (fun n e => if e.1 = v then n else n + e.2.share) 0
  if 65536 < others + x then s else s.modVf v fun f => { f with share := x }

/-- A PWRCTL write: P from 1,000 to 6,400 W (R458). -/
def setPower (val : W64) (s : State) : State :=
  let p := (bits val 0 13).toNat
  if 1000 ≤ p ∧ p ≤ 6400 then { s with regs := { s.regs with allow := p } } else s

def execQtailWrite (s : State) : Host.Outcome State Fault Refusal :=
  match s.request with
  | .qtailWrite vf q tail => .next (tailWrite vf.val q.val tail s)
  | _ => .next s
def execQcfgWrite (s : State) : Host.Outcome State Fault Refusal :=
  match s.request with
  | .qcfgWrite vf q val => .next (cfgWrite vf.val q.val val s)
  | _ => .next s
def execShareWrite (s : State) : Host.Outcome State Fault Refusal :=
  match s.request with
  | .shareWrite vf val => .next (setShare vf.val val s)
  | _ => .next s
def execPwrctlWrite (s : State) : Host.Outcome State Fault Refusal :=
  match s.request with
  | .pwrctlWrite val => .next (setPower val s)
  | _ => .next s

/-- A 64-bit write at an offset of BAR0 of the physical function: its read-only registers ignore it. -/
def pfWrite (off : Nat) (val : W64) (s : State) : State :=
  if off = 0x1010 then setPower val s
  else if 0x2000 ≤ off ∧ off < 0x4000 then setShare ((off - 0x2000) / 8) val s
  else s

/-- A 64-bit write at an offset of BAR0 of a virtual function. -/
def vfWrite (vf off : Nat) (val : W64) (s : State) : State :=
  if 512 ≤ off then s
  else match off % 32 with
    | 0 => baseWrite vf (off / 32) val s
    | 8 => cfgWrite vf (off / 32) val s
    | 16 => tailWrite vf (off / 32) (bits val 0 32) s
    | _ => s

/-! ## What the host reads (R27 to R36, R405, R450, R459) -/

/-- A register of the identity block, zero until the runtime is ready; in minimal mode only MODID, MODSN and FWVER stay (R36). -/
def identityReg (s : State) (off : Nat) : W64 :=
  let r := s.regs
  let w (k : Nat) : W32 := tget 0 r.fwver k
  let v : W64 := match off with
    | 0x00 => BitVec.ofNat 64 (0xAD64 + 2 ^ 16 * (Config.stepping.val + 1) + 2 ^ 24 * (Config.boardRev.val + 1))
    | 0x08 => Config.serial
    | 0x10 => BitVec.ofNat 64 (64 + 2 ^ 7 * 16 + 2 ^ 12 * 9 + 2 ^ 16 * 8 + 2 ^ 20 * 4 + 2 ^ 23 * 16)
    | 0x18 => r.florinok
    | 0x20 => BitVec.ofNat 64 (r.memhbm.toNat + 2 ^ 16 * 64)
    | 0x28 => r.memlp
    | 0x30 => BitVec.ofNat 64 r.dpsizeGiB
    | 0x38 => BitVec.ofNat 64 (r.node.toNat + 2 ^ 22 * r.dpos.toNat + 2 ^ 34 * r.dv.toNat)
    | 0x40 => (w 1) ++ (w 0)
    | 0x48 => r.toposeq
    | 0x50 => (w 3) ++ (w 2)
    | 0x58 => (w 4).setWidth 64
    | _ => if 0x100 ≤ off ∧ off < 0x300 ∧ off % 8 = 0 then
             (if bit r.florinok ((off - 0x100) / 8) then s.clmapOf ((off - 0x100) / 8) else 0x00000000FFFFFFFF)
           else 0
  if r.ready then v else if r.mini && (off == 0x00 || off == 0x08 || off == 0x40) then v else 0

/-- BOOTSTAT (R405). -/
def bootStat (r : Regs) : W64 :=
  BitVec.ofNat 64 (r.stage + 2 ^ 4 * r.ready.toNat + 2 ^ 5 * r.mini.toNat + 2 ^ 6 * r.fails + 2 ^ 8 * r.reason + 2 ^ 16 * r.svn.toNat)

/-- PWRSTAT (R459). -/
def pwrStat (r : Regs) : W64 :=
  BitVec.ofNat 64 (r.power % 2 ^ 13 + 2 ^ 13 * (r.allow % 2 ^ 13) + 2 ^ 26 * (r.clock % 2 ^ 12) + 2 ^ 38 * r.throttled.toNat
    + 2 ^ 39 * (r.tmax % 256) + 2 ^ 47 * (r.tin % 256))

/-- A register of BAR0 of the physical function as the host reads it. -/
def pfRead (s : State) (off : Nat) : W64 :=
  if off < 0x1000 then identityReg s off
  else if off = 0x1000 then bootStat s.regs
  else if off = 0x1008 then pwrStat s.regs
  else if off = 0x1010 then BitVec.ofNat 64 s.regs.allow
  else if 0x2000 ≤ off ∧ off < 0x4000 then BitVec.ofNat 64 (s.vf ((off - 0x2000) / 8)).share
  else 0

/-- A register of BAR0 of a virtual function as the host reads it. -/
def vfRead (s : State) (vf off : Nat) : W64 :=
  let x := s.queue vf (off / 32)
  if 512 ≤ off then 0
  else match off % 32 with
    | 0 => x.base
    | 8 => x.cfg
    | 16 => x.tail.setWidth 64
    | _ => x.head.setWidth 64 ||| (if x.err then 1#64 <<< 63 else 0)

/-- REGISTER_WRITE: the host writes a register, or reads one; an access that is not 64-bit and aligned completes with Unsupported
Request (R27, R405, R449). -/
def execRegisterWrite (s : State) : Host.Outcome State Fault Refusal :=
  match s.request with
  | .registerWrite fn off n val =>
    .next (if n ≠ 8 ∨ off % 8 ≠ 0 then { s with answer := .unsupported }
      else { (match fn with
        | none => pfWrite off val s
        | some vf => vfWrite vf.val off val s) with answer := .done })
  | .registerRead fn off n =>
    let x : W64 := match fn with
      | none => pfRead s off
      | some vf => vfRead s vf.val off
    .next (if n ≠ 8 ∨ off % 8 ≠ 0 then { s with answer := .unsupported } else { s with answer := .data 8 (x.setWidth 512) false })
  | _ => .next s

/-! ## An access of a master other than a context to device-physical space -/

/-- The frames an access touches. -/
def accFrames (a : Access) (pa : Nat) : List Nat := frameRange (pa / 65536) ((pa + a.size - 1) / 65536 + 1 - pa / 65536)

def accWrites (a : Access) : Bool := match a.kind with | .read => false | _ => true

/-- The bytes an access leaves, from those it finds. -/
def accResult (a : Access) (old : List Byte) : List Byte :=
  match a.kind with
  | .read => old
  | .write => leBytes a.size a.data.toNat
  | .atomicAdd => leBytes a.size (leNat old + a.data.toNat)

/-- A sector it touches holds poison. -/
def poisonIn (s : State) (pa n : Nat) : Option Nat := (List.range n).find? (fun i => s.poison.contains ((pa + i) / 64)) |>.map (pa + ·)

/-- Some line it writes would grow out of the Reserve for a partition out of space (R421). -/
def growsPast (s : State) (pa : Nat) (bs : List Byte) : Bool :=
  let m := writeBytes s.mem pa bs
  (List.range ((pa + bs.length - 1) / 512 + 1 - pa / 512)).any fun i =>
    let line := pa / 512 + i
    match s.lineHome line with
    | none => false
    | some (v, p) =>
      (s.vault v).outOfSpace.contains p && match (s.vault v).writeLine line p (readBytes m (512 * line) 512) with
        | .done w => decide (w.reserved < (s.vault v).reserved)
        | .held => true

/-- How an access to granted memory goes: it performs, meets an absent frame, wants space its partition may not have, or waits for a frame
to be restored. -/
inductive Went where
  | performed (s : State) | absent | noSpace | waiting (s : State)

/-- A store of another master meets an open Clearing session's spill area (R225, R392). -/
def spillMet (s : State) (a : Access) (pa : Nat) : Bool := accWrites a && (spillAt s pa || spillAt s (pa + a.size - 1))

/-- An access that took the machine from `s` to `t` completes with `ans`, once no write of it is held by a Vault (R421). -/
def finish (src : Answer → Source) (ans : Answer) (s t : State) : State :=
  let u := claimFor (src ans) s t
  { u with answer := if u.holdsFor (src ans) then .none else ans }

/-- An access at device-physical `pa`, already admitted (R242, R243, R411, R412, R418, R421, R441, R442); `src` is who makes it. Poisoned
data is read as such and the read reported; a map error counts as poison; a demoted frame is restored first. A write to a line with bad
metadata is held, one to a frame with a map error is reported and goes nowhere. -/
def dpAccess (src : Answer → Source) (a : Access) (pa : Nat) (s : State) : Went :=
  let ps := (pieces pa a.size).map fun p => probe s p.1
  if ps.any fun p => match p with | .error (0x08, _) => true | _ => false then .absent
  else match ps.findSome? (fun p => match p with | .ok (some f) => some f | _ => none) with
    | some f =>
      let s' := restoreFrame f s
      if frD (s'.frame f) then
        (if (s.vault (frVault (s.frame f))).outOfSpace.contains ((s.vault (frVault (s.frame f))).ownerOf f) then .noSpace else .waiting s)
      else .waiting s'
    | none =>
      let old := readBytes s.mem pa a.size
      let bad := ps.any fun p => match p with | .error _ => true | _ => false
      let lost := (accFrames a pa).any fun f => frError (s.frame f)
      let poison := if bad then some pa else poisonIn s pa a.size
      let report (s : State) : State := match poison with
        | some x => noteSector (framePart s x) s x
        | none => s
      let s := s.each (accFrames a pa) touchFrame
      let ans : Answer := .data a.size (BitVec.ofNat 512 (leNat old)) poison.isSome
      match a.kind with
      | .read => .performed { report s with answer := ans }
      | .atomicAdd =>
        if poison.isSome then .performed { report s with answer := ans }
        else if growsPast s pa (accResult a old) then .noSpace
        else .performed (finish src ans s (writeDp pa (accResult a old) s))
      | .write =>
        if lost then .performed { report s with answer := .done }
        else if !bad && growsPast s pa (accResult a old) then .noSpace
        else
          let t := writeBack pa (accResult a old) s
          .performed (finish src .done s (if a.poison then poisonPlace (.dp pa false 0) a.size t else t))

/-! ## Host memory requests (R392, R393, R448) -/

/-- The frames let the host in: of the VF's partition (a shared one for reading), or opened to the physical function's driver. -/
def hostAdmits (s : State) (vf : Option (Fin 1024)) (w : Bool) (f : Nat) : Bool :=
  decide (65536 * f < s.dpBytes) && match vf with
    | none => (s.grant f).hostOpen
    | some v => match (s.vf v.val).part with
      | none => false
      | some p => (s.grant f).owner == some p || ((s.grant f).sharers.contains p && !w)

/-- The partition a host violation is charged to: the VF's, or the frame's. -/
def hostPart (s : State) (vf : Option (Fin 1024)) (pa : Nat) : Nat :=
  match vf with
  | some v => ((s.vf v.val).part).getD 0x1FF
  | none => (framePart s pa).getD 0x1FF

/-- A host request that violates completes with Unsupported Request, writes nothing and is reported (R393, R394). -/
def hostViolation (vf : Option (Fin 1024)) (pa : Nat) (s : State) : State :=
  { violation 4 0x05 (hostPart s vf pa) ((vf.map (·.val)).getD 1024) (BitVec.ofNat 64 pa) s with answer := .unsupported }

def execHostMemoryRequest (s : State) : Host.Outcome State Fault Refusal :=
  match s.request with
  | .hostMemoryRequest vf a =>
    .next (if !s.released ∨ a.size = 0 ∨ 64 < a.size then { s with answer := .unsupported }
      else if !(accFrames a a.addr).all (hostAdmits s vf (accWrites a)) || spillMet s a a.addr then hostViolation vf a.addr s
      else match dpAccess .door a a.addr s with
        | .performed s => s
        | .absent => { s with answer := .unsupported }
        | .noSpace => hostViolation vf a.addr s
        | .waiting s => { s with answer := .none })
  | _ => .next s

/-! ## Remote masters (R393, R453) -/

/-- The port refuses the request and from then on every request of the node. -/
def remoteViolation (node tag cause : Nat) (addr : Nat) (s : State) : State :=
  { violation 3 cause (tag % 512) node (BitVec.ofNat 64 addr) s with
    refusedNodes := s.refusedNodes ++ [(node, tag % 512)], answer := .refused }

/-- A request at offset `a.addr` of the export window. -/
def remoteServe (src : Answer → Source) (node tag : Nat) (a : Access) (s : State) : State :=
  if !s.released || s.refusedNodes.any (·.1 == node) || a.size == 0 || decide (64 < a.size) then { s with answer := .refused }
  else if s.regs.exportPart ≠ some tag ∨ s.regs.exportLen < a.addr + a.size then remoteViolation node tag 0x05 a.addr s
  else
    let pa := s.regs.exportBase + a.addr
    if !(accFrames a pa).all (fun f => (s.grant f).owner == some tag) || spillMet s a pa then remoteViolation node tag 0x05 a.addr s
    else match dpAccess src a pa s with
      | .performed s => s
      | .absent => { s with answer := .refused }
      | .noSpace => remoteViolation node tag 0x0A a.addr s
      | .waiting s => { s with answer := .none }

def execRemoteRequest (s : State) : Host.Outcome State Fault Refusal :=
  match s.request with
  | .remoteRequest node tag a => .next (remoteServe .door node tag a s)
  | _ => .next s

/-- EXPORT_WINDOW_SET (R453, R456): up to 16 GiB of frames granted to the partition it admits, set through an authenticated session. -/
def execExportWindowSet (s : State) : Host.Outcome State Fault Refusal :=
  match s.request with
  | .exportWindowSet base len part =>
    .next (if !s.regs.spdmSession ∨ 2 ^ 34 < len ∨ base % 65536 ≠ 0 ∨ len % 65536 ≠ 0 ∨ s.dpBytes < base + len then s
      else if ((s.grants.filter fun g => decide (base / 65536 ≤ g.1 ∧ g.1 < base / 65536 + len / 65536)
          && g.2.owner == some part.val).length) < len / 65536 then s
      else { s with regs := { s.regs with exportBase := base, exportLen := len, exportPart := some part.val } })
  | _ => .next s

/-! ## General cores (R24, R25, R392) -/

/-- A general core is held at the instruction, and its partition's runtime told (R393, R394). -/
def hartViolation (h cause addr : Nat) (s : State) : State :=
  let x := s.hart h
  let s := violation 2 cause (x.part.getD 0x1FF) h (BitVec.ofNat 64 addr) s
  { s with harts := tset s.harts h { x with frozen := some cause }, answer := .none }

/-- The regions of the general cores' address space (R25). -/
inductive Region where
  | device (a : Nat) | mint (d off : Nat) | counters (v off : Nat) | mailbox (n off : Nat) | aperture (dpos off : Nat)
  deriving DecidableEq, Repr

/-- The region that holds all of an access. One that spans two regions, or two windows of one, lies in neither: the manual gives it no
fate of its own, and the model takes that of an address that is not assigned (log 58). -/
def regionOf (a n : Nat) : Option Region :=
  if a + n ≤ 2 ^ 48 then some (.device a)
  else if 0x01000000000000 ≤ a ∧ a + n ≤ 0x01000000000000 + 64 * 0x10000 then
    let o := a - 0x01000000000000
    if o % 0x10000 + n ≤ 0x10000 then some (.mint (o / 0x10000) (o % 0x10000)) else none
  else if 0x01000100000000 ≤ a ∧ a + n ≤ 0x01000100000000 + 16 * 0x10000 then
    let o := a - 0x01000100000000
    if o % 0x10000 + n ≤ 0x1000 then some (.counters (o / 0x10000) (o % 0x10000)) else none
  else if 0x01000200000000 ≤ a ∧ a + n ≤ 0x01000200000000 + 1024 * 0x400 then
    let o := a - 0x01000200000000
    if o % 0x400 + n ≤ 0x400 then some (.mailbox (o / 0x400) (o % 0x400)) else none
  else if 0x40000000000000 ≤ a ∧ a + n ≤ 0x40400000000000 then
    let o := a - 0x40000000000000
    if o % 2 ^ 34 + n ≤ 2 ^ 34 then some (.aperture (o / 2 ^ 34) (o % 2 ^ 34)) else none
  else none

/-- A request entry taken from its 32 bytes (R383): PAGES stays the Mint's. -/
def MintReq.taken (q : MintReq) (bs : List Byte) : MintReq :=
  let x := leNat bs
  { q with active := x % 2 == 1, prio := x / 2 % 8, tokens := x / 2 ^ 32 % 2 ^ 32 }

/-- Bytes written into the draft slots at an offset of a Mint window. -/
def draftWrite (off : Nat) (bs : List Byte) (t : Tbl Memory) : Tbl Memory :=
  bs.zipIdx.foldl (fun t b =>
    let o := off + b.2
    if o < 0x8000 then t
    else tset t ((o - 0x8000) / 0x1000) (writeByte (tget [] t ((o - 0x8000) / 0x1000)) (o % 0x1000) b.1)) t

/-- Bytes written into the request table at an offset of a Mint window: entries that are not active take them. -/
def reqsWrite (off : Nat) (bs : List Byte) (t : Tbl MintReq) : Tbl MintReq :=
  (List.range 8).foldl (fun t r =>
    let q := tget MintReq.initial t r
    let lo := 0x40 + 32 * r
    if q.active || decide (lo + 32 ≤ off) || decide (off + bs.length ≤ lo) then t
    else
      let old := leBytes 32 q.entry.toNat
      let new := old.zipIdx.map fun b => if off ≤ lo + b.2 ∧ lo + b.2 < off + bs.length then bs.getD (lo + b.2 - off) 0 else b.1
      tset t r (q.taken new)) t

/-- A general core writes `bs` at an offset of a Mint window: request entries that are not active and draft slots take it,
everything else is discarded (R382). A die whose Mint has no set still has both. -/
def Die.gcWrite (off : Nat) (bs : List Byte) (x : Die) : Die :=
  match x.mint with
  | some m => { x with mint := some { m with reqs := reqsWrite off bs m.reqs, drafts := draftWrite off bs m.drafts } }
  | none => { x with reqs := reqsWrite off bs x.reqs, drafts := draftWrite off bs x.drafts }

/-- A byte of a Mint window as a general core reads it; without a set, request entries and draft slots. -/
def Die.gcByte (x : Die) (off : Nat) : Byte :=
  match x.mint with
  | some m => m.byte off
  | none =>
    if 0x40 ≤ off ∧ off < 0x140 then (tget MintReq.initial x.reqs ((off - 0x40) / 32)).entry.extractLsb' (8 * ((off - 0x40) % 32)) 8
    else if 0x8000 ≤ off then readByte (tget [] x.drafts ((off - 0x8000) / 0x1000)) (off % 0x1000)
    else 0

/-- Which bytes of a mailbox the general cores of its partition write: the fields its task may not (R385, R386). -/
def mailboxGcByte (m : Mailbox) (i : Nat) (b : Byte) : Option Byte :=
  if i < 8 ∨ (64 ≤ i ∧ i < 1024) then (if m.taskSends then none else some b)
  else if i < 16 then (if m.taskSends then some b else none)
  else if i = 16 then some (b &&& 0xF1)
  else if i = 17 then some (b &&& 0x03)
  else none

/-- Bytes written to a mailbox by a general core. -/
def mailboxGcWrite (off : Nat) (bs : List Byte) (m : Mailbox) : Mailbox :=
  { m with bytes := bs.zipIdx.foldl (fun mem b => match mailboxGcByte m (off + b.2) b.1 with
      | some x => writeByte mem (off + b.2) x
      | none => mem) m.bytes }

/-- The partition a Mint window's content belongs to. -/
def mintPart (s : State) (d : Nat) : Option Nat := (s.die d).mint.bind fun m => (tfind s.launches m.launch).map (·.part)

/-- What a general core reads of a window. -/
def windowByte (s : State) (h : Nat) (r : Region) (i : Nat) : Byte :=
  match r with
  | .mint d off => (s.die d).gcByte (off + i)
  | .counters v off => (counterReg s v ((s.hart h).part.getD 0x1FF) ((off + i) / 8 * 8)).extractLsb' (8 * ((off + i) % 8)) 8
  | .mailbox n off => readByte (s.mailbox n).bytes (off + i)
  | _ => 0

/-- What a general core's write does to a window. -/
def windowWrite (r : Region) (bs : List Byte) (s : State) : State :=
  match r with
  | .mint d off => s.modDie d (Die.gcWrite off bs)
  | .mailbox n off => { s with mailboxes := tset s.mailboxes n (mailboxGcWrite off bs (s.mailbox n)) }
  | _ => s

/-- A frame a general core may touch (R391, R392, R246). -/
def hartAdmits (s : State) (p : Nat) (w : Bool) (f : Nat) : Bool :=
  ((s.grant f).owner == some p || ((s.grant f).sharers.contains p && !w)) && frCoh (s.frame f) != 2

/-- The part of the module behind a region runs: the mailboxes are the Counting House's, all else a die's or a Vault's (R404). -/
def regionRuns (s : State) (r : Region) : Bool :=
  match r with
  | .mailbox .. => true
  | _ => s.released

/-- A general core's access through its own module's aperture meets a CP frame (R246). -/
def apertureCp (s : State) (a : Access) (off : Nat) : Bool :=
  (accFrames a (s.regs.exportBase + off)).any fun f => frCoh (s.frame f) == 2

/-! ### Requests to other modules (R445, R453; routing: log 71) -/

/-- Data of another module that a general core does not get: it completes with poison, which is reported, where it brings a value; a store
is reported and not applied (R442, R445). No part of the memory of this module held the data (log 71). -/
def lostRequest (h p : Nat) (a : Access) (s : State) : State :=
  let s := errorRecord (if a.kind = .write then 1 else 2) 0 (some p) h (BitVec.ofNat 64 a.addr) s
  let ans : Answer := if a.kind = .write then .done else .data a.size 0 true
  { s.modHart h fun x => { x with answer := ans } with answer := ans }

/-- A request leaves through a port, whose replay buffer keeps its flit; while that is full it waits outside. A port that is down completes
it with an error. -/
def sendRequest (h p dpos : Nat) (a : Access) (s : State) : State :=
  let n := (Config.walvoPort dpos).val
  let x := s.port n
  if x.state = 2 then lostRequest h p a s
  else if 256 ≤ x.buffer.length then { s with answer := .none }
  else { s.modPort n fun x => { x with
    sent := x.sent + 1, buffer := x.buffer ++ [x.sent], flight := x.flight ++ [{ flit := x.sent, hart := h, part := p, access := a }] } with
    answer := .none }

/-- A position of the load-store domain: this module's own, or one the fabric manager named (R31, R453). -/
def inDomain (s : State) (dpos : Nat) : Bool := s.regs.dv && (dpos == s.regs.dpos.toNat || s.regs.domain.contains dpos)

/-- A general core of partition `p` reaches a region that runs. -/
def gcRegion (h p : Nat) (r : Region) (a : Access) (s : State) : State :=
  match r with
  | .device pa =>
    if !(accFrames a pa).all (hartAdmits s p (accWrites a)) || spillMet s a pa then hartViolation h 0x05 a.addr s
    else match dpAccess (.hart h) a pa s with
      | .performed s => s
      | .absent => { s with answer := .unsupported }
      | .noSpace => hartViolation h 0x0A a.addr s
      | .waiting s => { s with answer := .none }
  | .aperture dpos off =>
    if !inDomain s dpos then
      { errorRecord 2 0 (some p) h (BitVec.ofNat 64 a.addr) s with answer := .data a.size 0 true }
    else if dpos = s.regs.dpos.toNat then
      (if apertureCp s a off then hartViolation h 0x05 a.addr s else remoteServe (.hart h) s.regs.node.toNat p { a with addr := off } s)
    else sendRequest h p dpos a s
  | r =>
    let mine : Bool := match r with
      | .mint d _ => (mintPart s d).isNone || mintPart s d == some p
      | .mailbox n _ => (s.mailbox n).part == some p
      | _ => true
    if !mine then hartViolation h 0x05 a.addr s
    else
      let old := (List.range a.size).map (windowByte s h r)
      match a.kind with
      | .read => { s with answer := .data a.size (BitVec.ofNat 512 (leNat old)) false }
      | .write => { windowWrite r (accResult a old) s with answer := .done }
      | .atomicAdd => { windowWrite r (accResult a old) s with answer := .data a.size (BitVec.ofNat 512 (leNat old)) false }

/-- A general core's last access has not completed: a Vault holds its write, or it waits for another module (R421, R445). -/
def hartWaits (s : State) (h : Nat) : Bool :=
  s.vaults.any (fun v => v.2.held.any fun x => match x.src with | some (.hart k _) => k == h | _ => false)
    || s.ports.any fun p => p.2.flight.any (·.hart == h)

/-- GENERAL_CORE_ACCESS: hart `h` loads, stores or adds at a physical address. A held hart accesses nothing, nor does one whose last access
has not completed. -/
def gcAccess (h : Nat) (a : Access) (s : State) : State :=
  let x := s.hart h
  if x.frozen.isSome || hartWaits s h || a.size == 0 || decide (64 < a.size) then { s with answer := .none }
  else
    let s := match regionOf a.addr a.size, x.part with
      | none, _ => hartViolation h 0x04 a.addr s
      | some _, none => hartViolation h 0x05 a.addr s
      | some r, some p =>
        if !regionRuns s r then { s with answer := .unsupported }
        else gcRegion h p r a s
    s.modHart h fun x => { x with answer := s.answer }

def execGeneralCoreAccess (s : State) : Host.Outcome State Fault Refusal :=
  match s.request with
  | .generalCoreAccess hart a => .next (gcAccess hart.val a s)
  | _ => .next s

/-- MAILBOX_GRANT (R385): a mailbox is given to a partition, and assigned to a task, zeroed, with CFG written. -/
def execMailboxGrant (s : State) : Host.Outcome State Fault Refusal :=
  match s.request with
  | .mailboxGrant n part asg =>
    let m := s.mailbox n.val
    .next (if m.launch.isSome || (m.part.isSome && m.part != some part.val && asg.isSome) then s
      else match asg with
        | none => { s with mailboxes := tset s.mailboxes n.val { m with part := some part.val } }
        | some a =>
          if 16 ≤ a.number || 32 ≤ a.hart || (s.taskMailbox a.launch a.number).isSome || (tfind s.launches a.launch).map (·.part) != some part.val then s
          else
            let m : Mailbox := { part := some part.val, launch := some a.launch, number := a.number,
                                 bytes := writeBytes [] 16 (leBytes 2 (a.taskSends.toNat + 16 * a.hart)) }
            { s with mailboxes := tset s.mailboxes n.val m })
  | _ => .next s

/-! ## Walvo ports (R445) -/

/-- A flit arrives: a good one in sequence is delivered; an error or a gap asks for replay, and after 16 failed replays in a row
the port retrains. -/
def Port.receive (p : Port) (ok : Bool) (seqno : Nat) : Port :=
  if p.state ≠ 0 then p
  else if ok && seqno == p.expect then { p with expect := p.expect + 1, fails := 0, replay := false, delivered := p.delivered + 1 }
  else if p.replay then
    (if 16 ≤ p.fails + 1 then { p with fails := 0, replay := true, state := 1 } else { p with fails := p.fails + 1 })
  else { p with replay := true }

/-- The answer to a request in flight completes it; poison it brings is consumed and reported (R442). -/
def answerRequest (r : PortReq) (value : BitVec 512) (poison : Bool) (s : State) : State :=
  let ans : Answer := if r.access.kind = .write then .done else .data r.access.size value poison
  let s := if poison && r.access.kind != .write then errorRecord 2 0 (some r.part) r.hart (BitVec.ofNat 64 r.access.addr) s else s
  { s.modHart r.hart fun x => { x with answer := ans } with answer := ans }

/-- What a delivered flit does. A remote master's request is served by its own event; an acknowledgement frees the replay buffer up to its
count; a request for replay has the flits from there on sent again. -/
def deliverFlit (n : Nat) (body : FlitBody) (s : State) : State :=
  match body with
  | .request => s
  | .ack k => s.modPort n fun x => { x with buffer := x.buffer.filter (k ≤ ·) }
  | .replay k => s.modPort n fun x => { x with resent := x.resent + (x.buffer.filter (k ≤ ·)).length }
  | .answer k v poison => match (s.port n).flight.find? (·.flit == k) with
    | some r => answerRequest r v poison (s.modPort n fun x => { x with flight := x.flight.filter (·.flit ≠ k) })
    | none => s

/-- WALVO_FLIT_RECEIVE (R445). -/
def execWalvoFlitReceive (s : State) : Host.Outcome State Fault Refusal :=
  match s.request with
  | .walvoFlitReceive port ok seqno body =>
    let t := s.modPort port.val fun p => p.receive ok seqno
    .next (if (t.port port.val).delivered = (s.port port.val).delivered then t else deliverFlit port.val body t)
  | _ => .next s

/-- PORT_DOWN: a retraining port is marked down after 10 ms; its requests in flight complete with an error (R445). -/
def execPortDown (s : State) : Host.Outcome State Fault Refusal :=
  match s.request with
  | .portDown port =>
    .next (if (s.port port.val).state = 1 then
        (s.port port.val).flight.foldl (fun s r => lostRequest r.hart r.part r.access s)
          (s.modPort port.val fun p => { p with state := 2, buffer := [], flight := [] })
      else s)
  | _ => .next s

/-- PORT_RETRAIN_COMPLETE: the port is up and its unacknowledged flits are replayed. -/
def execPortRetrainComplete (s : State) : Host.Outcome State Fault Refusal :=
  match s.request with
  | .portRetrainComplete port =>
    .next (if (s.port port.val).state = 1 then
        s.modPort port.val fun p => { p with state := 0, fails := 0, replay := true, resent := p.resent + p.buffer.length }
      else s)
  | _ => .next s

/-- NODE_ID_ASSIGN (R31): the fabric manager's identifier, and the position and members of the load-store domain (R453). -/
def execNodeIdAssign (s : State) : Host.Outcome State Fault Refusal :=
  match s.request with
  | .nodeIdAssign node dpos domain =>
    .next { s with regs := { s.regs with node := node, dpos := dpos.getD 0, dv := dpos.isSome, domain := domain } }
  | _ => .next s
/-- COMMUNICATOR_SET (R454, R456). -/
def execCommunicatorSet (s : State) : Host.Outcome State Fault Refusal :=
  match s.request with
  | .communicatorSet comm ranks => .next (if s.regs.spdmSession then { s with comms := tset s.comms comm.toNat ranks } else s)
  | _ => .next s

/-! ## Collectives (R454, R455) -/

/-- This module's rank in a communicator. -/
def rankOf (s : State) (comm : Nat) : Option Nat :=
  match tfind s.comms comm with
  | none => none
  | some l => if s.regs.dv && l.contains s.regs.dpos.toNat then some (l.findIdx (· == s.regs.dpos.toNat)) else none

/-- A value is no device-physical address of 256-byte alignment (R23, R454). -/
def noVector (x : W64) : Bool := bits x 0 8 != 0 || bits x 48 16 != 0

/-- The status of the first field of a collective descriptor that fails its check, in the order of R358. -/
def collectiveFields (s : State) (part : Nat) (d : BitVec 512) : Option Nat :=
  let dw0 := descDw d 0
  let dw5 := descDw d 5
  let checks : List (Bool × Nat) := [
    (decide (3 < (bits dw0 0 4).toNat), 0x10), (decide (2 < (bits dw0 4 4).toNat), 0x10), (bits dw0 8 56 != 0, 0x10),
    (decide ((bits (descDw d 1) 0 32).toNat % 256 ≠ 0 ∨ 2 ^ 28 < (bits (descDw d 1) 0 32).toNat), 0x10),
    ((rankOf s (bits (descDw d 1) 32 32).toNat).isNone, 0x10),
    (noVector (descDw d 2), 0x10), (noVector (descDw d 3), 0x10),
    (bits (descDw d 4) 0 3 != 0, 0x13), (decide (1024 < (bits dw5 0 16).toNat), 0x13),
    ((s.vf (bits dw5 18 10).toNat).part != some part, 0x14), (bits dw5 28 36 != 0, 0x10),
    (descDw d 6 != 0, 0x10), (bits (descDw d 7) 0 6 != 0, 0x10)]
  (checks.find? (·.1)).map (·.2)

/-- The status of the first check that fails: the fields, then the entries of the handle list. -/
def collectiveStatus (s : State) (part : Nat) (d : BitVec 512) : Option Nat :=
  (collectiveFields s part d).orElse fun _ => if (handleWords s part d).any (handleBad s part) then some 0x13 else none

/-- A collective accepted: it waits through its handles as a launch does. -/
def acceptCollective (part : Nat) (d : BitVec 512) (s : State) : State :=
  let hs := handlePairs s part d
  let b := (unionUses hs).foldl (bindHandle part s.nextLaunch) ([], s.bufHandles)
  let c : Collective := {
    part := part, op := (bits (descDw d 0) 0 4).toNat, ty := (bits (descDw d 0) 4 4).toNat, bytes := (bits (descDw d 1) 0 32).toNat,
    comm := bits (descDw d 1) 32 32, src := (descDw d 2).toNat, dst := (descDw d 3).toNat, record := (descDw d 7).toNat, handles := hs,
    hlist := (descDw d 4).toNat, waits := b.1, done := false }
  { s with collectives := tset s.collectives s.nextLaunch c, nextLaunch := s.nextLaunch + 1, bufHandles := b.2 }

/-- COLLECTIVE_START: the next descriptor of a queue of collectives is read, checked and accepted or refused, when it is the queue's turn
(R358). -/
def execCollectiveStart (s : State) : Host.Outcome State Fault Refusal :=
  match s.request with
  | .collectiveStart vf q host =>
    let qu := s.queue vf.val q.val
    match (s.vf vf.val).part with
    | none => .next s
    | some part =>
      if !qu.pending || !qu.collective || nextQueue s part != some (queueKey vf.val q.val) then .next s
      else
        let d := s.descriptor part qu host
        let s' := noteDescriptor part qu d (collectiveFields s part d).isNone (advanceHead vf.val q.val s)
        .next (match collectiveStatus s part d with
          | some st => cpWrite part (descDw d 7).toNat (recordBytes st 0 0 0 0 0 0) s'
          | none => acceptCollective part d s')
  | _ => .next s

/-- The reduction of one element over the ranks, in ascending rank order by the pairwise tree (R455). -/
def reduceElem (ty : Nat) (l : List W32) : W32 :=
  let op : W32 → W32 → W32 := match ty with
    | 0 => fadd
    | 1 => fun a b => a + b
    | _ => fminmax true false
  (treeFold op 12 l).headD 0

/-- Word `i` of a rank's bytes. -/
def wordAt (bs : List Byte) (i : Nat) : W32 := BitVec.ofNat 32 (leNat ((bs.drop (4 * i)).take 4))

/-- Elements `lo` to `lo + n - 1` reduced over all ranks, as bytes. -/
def reduceBytes (ty : Nat) (ranks : List (List Byte)) (lo n : Nat) : List Byte :=
  (List.range n).flatMap fun i => leBytes 4 (reduceElem ty (ranks.map fun r => wordAt r (lo + i))).toNat

/-- Bytes a rank contributes and bytes it receives: BYTES is what one rank holds of the vector (R454). -/
def Collective.inBytes (c : Collective) (n : Nat) : Nat := if c.op = 3 then n * c.bytes else c.bytes
def Collective.outBytes (c : Collective) (n : Nat) : Nat := if c.op = 2 then n * c.bytes else c.bytes

/-- What rank `me` of `ranks` writes. -/
def Collective.result (c : Collective) (me : Nat) (ranks : List (List Byte)) : List Byte :=
  match c.op with
  | 0 => reduceBytes c.ty ranks 0 (c.bytes / 4)
  | 1 => ranks.headD []
  | 2 => ranks.flatten
  | _ => reduceBytes c.ty ranks (me * (c.bytes / 4)) (c.bytes / 4)

/-- The poisoned sectors of what rank `me` writes, from those of every rank: a sector is poisoned if one it is made of is (R441). -/
def Collective.spoiled (c : Collective) (me : Nat) (ranks : List (List Nat)) : List Nat :=
  let size := c.bytes / 64
  match c.op with
  | 0 => ranks.flatten.dedup
  | 1 => ranks.headD []
  | 2 => ranks.zipIdx.flatMap fun r => r.1.map (r.2 * size + ·)
  | _ => (ranks.flatten.dedup.filter fun k => decide (me * size ≤ k ∧ k < (me + 1) * size)).map (· - me * size)

/-- Bytes of which the sectors in `lost` stay as they were. -/
def keepSectors (lost : List Nat) (old new : List Byte) : List Byte :=
  if lost.isEmpty then new else new.zipIdx.map fun b => if lost.contains (b.2 / 64) then old.getD b.2 0 else b.1

/-- What rank `me` of a collective puts at DST: the result, its poisoned sectors and those a lost port has spoiled, which are recorded. -/
def putResult (c : Collective) (me n : Nat) (ranks : List RankData) (lost : List Nat) (s : State) : State :=
  let lost := lost.filter fun k => decide (64 * k < c.outBytes n)
  let out := keepSectors lost (readBytes s.mem c.dst (c.outBytes n)) (c.result me (ranks.map (·.bytes)))
  let bad := ((c.spoiled me (ranks.map (·.poison))).filter fun k => decide (64 * k < c.outBytes n)) ++ lost
  let s := cpWrite c.part c.dst out s
  let s := if (framesAt c.dst (c.outBytes n)).all (cpReach s c.part true) then
      bad.foldl (fun s k => poisonPlace (.dp (c.dst + 64 * k) false 0) 64 s) s
    else s
  match lost with
  | [] => s
  | k :: _ => errorRecord 1 (memStruct s (c.dst + 64 * k)) (some c.part) (memPlace s (c.dst + 64 * k)) (BitVec.ofNat 64 (c.dst + 64 * k)) s

/-- A collective ends: its handles are published and its record written with STATUS 0. -/
def endCollective (k : Nat) (c : Collective) (s : State) : State :=
  let s := publishHandles c.part c.hlist c.handles s
  cpWrite c.part c.record (recordBytes 0 0 0 0 0 0 0) { s with collectives := tset s.collectives k { c with done := true } }

/-- COLLECTIVE_COMPLETE: `ranks` is what every rank brings, this module's own being what stands at SRC, whose poison is consumed and
reported. A port lost on the way poisons the sectors `lost` of DST, and is recorded (R441, R442, R455). -/
def execCollectiveComplete (s : State) : Host.Outcome State Fault Refusal :=
  match s.request with
  | .collectiveComplete k ranks lost =>
    match tfind s.collectives k with
    | none => .next s
    | some c =>
      match rankOf s c.comm.toNat with
      | none => .next s
      | some me =>
        let n := ((tfind s.comms c.comm.toNat).getD []).length
        .next (if c.done || !c.waits.all (idDone s) || ranks.length != n || ranks.any (fun r => r.bytes.length != c.inBytes n) then s
        else
          let own : RankData := { bytes := cpRead s c.part c.src (c.inBytes n), poison := cpPoison s c.part c.src (c.inBytes n) }
          endCollective k c (putResult c me n (ranks.set me own) lost (cpNote c.part c.src (c.inBytes n) s)))
  | _ => .next s

end Sys2Proof.Machine
end

