-- ==== Sys2Proof/Machine/Sha.lean ====
section
/-!
DEFINITION. SHA-384 of two joined 48-byte strings, as a measurement block is extended (R402). The manual names the function and not its
rounds: they are those of FIPS 180-4 (PRESUMED, log 5). A string's first byte is the most significant of its value.
-/
set_option Elab.async false
namespace Sys2Proof.Machine

/-- The largest number whose `k`-th power is at most `n`, for an `n` below 2^(68 k), bit by bit from above. -/
def rootFloor (k n : Nat) : Nat :=
  (List.range 68).foldr (fun i r => if (r + 2 ^ i) ^ k ≤ n then r + 2 ^ i else r) 0

/-- The first 64 bits after the point of the `k`-th root of `p`. -/
def rootFraction (k p : Nat) : W64 := BitVec.ofNat 64 (rootFloor k (p * 2 ^ (64 * k)))

/-- The primes below 410, of which there are 80. -/
def shaPrimes : List Nat :=
  (List.range 410).filter fun p => decide (2 ≤ p) && (List.range p).all fun d => d < 2 || p % d != 0

/-- The initial hash value of SHA-384: from the square roots of the ninth to the sixteenth prime. -/
def shaInit : List W64 := ((shaPrimes.drop 8).take 8).map (rootFraction 2)

/-- The round constants: from the cube roots of the 80 primes. -/
def shaRounds : List W64 := shaPrimes.map (rootFraction 3)

def shaSum0 (x : W64) : W64 := x.rotateRight 28 ^^^ x.rotateRight 34 ^^^ x.rotateRight 39
def shaSum1 (x : W64) : W64 := x.rotateRight 14 ^^^ x.rotateRight 18 ^^^ x.rotateRight 41
def shaSig0 (x : W64) : W64 := x.rotateRight 1 ^^^ x.rotateRight 8 ^^^ (x >>> 7)
def shaSig1 (x : W64) : W64 := x.rotateRight 19 ^^^ x.rotateRight 61 ^^^ (x >>> 6)

/-- The message schedule's next window: its oldest word leaves and a new one joins. -/
def shaNext (w : List W64) : List W64 :=
  w.tail ++ [shaSig1 (w.getD 14 0) + w.getD 9 0 + shaSig0 (w.getD 1 0) + w.getD 0 0]

/-- One round on the eight working variables. -/
def shaRound (k w : W64) (h : List W64) : List W64 :=
  let v (i : Nat) : W64 := h.getD i 0
  let t1 := v 7 + shaSum1 (v 4) + ((v 4 &&& v 5) ^^^ (~~~(v 4) &&& v 6)) + k + w
  let t2 := shaSum0 (v 0) + ((v 0 &&& v 1) ^^^ (v 0 &&& v 2) ^^^ (v 1 &&& v 2))
  [t1 + t2, v 0, v 1, v 2, v 3 + t1, v 4, v 5, v 6]

/-- The rounds of one block of 16 words. -/
def shaBlock : List W64 → List W64 → List W64 → List W64
  | [], _, h => h
  | k :: ks, w, h => shaBlock ks (shaNext w) (shaRound k (w.getD 0 0) h)

/-- The 64-bit words of a 48-byte string. -/
def words384 (x : BitVec 384) : List W64 := (List.range 6).map fun i => x.extractLsb' (64 * (5 - i)) 64

/-- SHA-384(m ‖ d): 768 bits and their padding make one block. -/
def sha384Extend (m d : BitVec 384) : BitVec 384 :=
  let block := words384 m ++ words384 d ++ [0x8000000000000000, 0, 0, 768]
  let out := shaInit.zipWith (· + ·) (shaBlock shaRounds block shaInit)
  (out.take 6).foldl (fun (a : BitVec 384) w => (a <<< 64) ||| w.setWidth 384) 0

end Sys2Proof.Machine
end

