-- ==== Sys2Proof/Machine/Manage.lean ====
section
/-!
DEFINITION. The management controller: grants and revocations (R391), coherence classes (R247), partitions (R389, R395), repair of
clusters (R21, R398), firmware in service (R397, R399, R400), and inspection (R447).
-/
set_option Elab.async false
namespace Sys2Proof.Machine

/-! ## Grants (R391, R407, R415) -/

/-- The partitions a grant names, for the frame-map entry and the grant table. -/
def GrantOf (r : GrantReq) : Grant :=
  { owner := if r.shared.isNone then some r.part else none, sharers := r.shared.getD [], hostOpen := r.hostOpen }

/-- The entry of a granted frame. -/
def grantEntry (r : GrantReq) (mloc : Nat) : W64 :=
  BitVec.ofNat 64 (1 + 2 * r.compressed.toNat + 2 ^ 5 * r.coh + 2 ^ 9 * mloc + 2 ^ 42 * (r.owner.getD 0 % 4096))

/-- A compressed frame enters the pool with its ratio and what its bytes need (R413, R415). -/
def placeCompressed (f part r16 v : Nat) (s : State) : Option (Nat × State) :=
  let vt := s.vault v
  let vt := { vt with ratio := tset vt.ratio f r16, frameOwner := tset vt.frameOwner f part }
  if !quotaOk vt then none else (vt.takeIn s.mem f part).map fun r => (r.1, s.modVault v fun _ => r.2)

/-- Frame `i` of a grant; one that is not installed yet has its class and owner. Of CP frames without a core the launch that maps them
fixes it (R466). -/
def grantFrame (r : GrantReq) (s : State) (i : Nat) : Option State :=
  let f := r.frame + i
  let s := { s with grants := tset s.grants f (GrantOf r) }
  let s := if r.coh = 2 ∧ r.owner.isNone then { s with unowned := s.unowned ++ [f] } else s
  let s := if r.zero then zeroFrame f s else s
  match r.mloc with
  | none => if r.compressed then none else some (s.setFrame f (grantEntry r 0 &&& ~~~1#64))
  | some m =>
    if r.compressed then
      (placeCompressed f r.part (r.r16.getD 32) (m / 2 ^ 29) s).map fun x =>
        x.2.setFrame f (setMloc (grantEntry r 0) (m / 2 ^ 29) x.1)
    else
      (placeRaw (m + 64 * i) s).map fun s => s.setFrame f (grantEntry r (m + 64 * i))

/-- What a grant must be: asked for in an authenticated session (R456), in device-physical space, nothing of it granted yet, a shared one HC or SC, a ratio from 16 to 64, compressed
frames in the LPDDR-6 tier (R391, R406, R415). -/
def grantOk (s : State) (r : GrantReq) : Bool :=
  s.released && s.regs.spdmSession && (s.part r.part).present && decide (65536 * (r.frame + r.count) ≤ s.dpBytes) && decide (r.coh ≤ if r.shared.isSome then 1 else 2)
    && !(s.grants.any fun g => decide (r.frame ≤ g.1 ∧ g.1 < r.frame + r.count)) && decide (16 ≤ r.r16.getD 32 ∧ r.r16.getD 32 ≤ 64)
    && (!r.compressed || match r.mloc with
      | some m => mlocInService s m && m / 2 ^ 28 % 2 == 1
      | none => false)

/-! ### Measurement of a configuration (R402) -/

/-- A measurement block extended with a digest (R402). -/
def extend (b : Nat) (digest : BitVec 384) (s : State) : State :=
  { s with regs := { s.regs with measure := tset s.regs.measure b (sha384Extend (tget 0 s.regs.measure b) digest) } }

/-- What a partition consists of: its number, clusters, VFs, general cores, save pool, and the frames it holds alone and shared. -/
def partConfig (s : State) (p : Nat) : List (List Nat) :=
  [[p], (s.clusters.filter fun c => c.2.part == some p).map (·.1), (s.vfs.filter fun v => v.2.part == some p).map (·.1),
   (s.harts.filter fun h => h.2.part == some p).map (·.1), [(s.part p).pool],
   (s.grants.filter fun g => g.2.owner == some p).map (·.1), (s.grants.filter fun g => g.2.sharers.contains p).map (·.1)]

/-- A partition's configuration changed: block 7 is extended. -/
def measurePart (p : Nat) (s : State) : State := extend 7 (Config.configDigest (partConfig s p)) s

/-- FRAME_GRANT: made whole or refused with no effect. A grant change resumes the Balloon engines (R418), and is measured. -/
def execFrameGrant (s : State) : Host.Outcome State Fault Refusal :=
  match s.request with
  | .frameGrant r =>
    .next (if !grantOk s r then s
      else match (List.range r.count).foldl (fun (acc : Option State) i => acc.bind fun s => grantFrame r s i) (some s) with
        | some s => (s.each (((List.range r.count).map fun i => frVault (s.frame (r.frame + i))).dedup) resumeEngine).each
            (r.shared.getD [r.part]) measurePart
        | none => s)
  | _ => .next s

/-- What a revoked frame held of the pool goes back to it. -/
def releasePool (f : Nat) (s : State) : State :=
  let e := s.frame f
  if !frP e then s
  else if frC e then dropHeld (frVault e) f (s.modVault (frVault e) fun vt =>
    let vt := if frD e then { vt with demoted := vt.demoted.filter (· ≠ f) } else vt.freeFrame f (vt.ownerOf f)
    { vt with ratio := tdel vt.ratio f, frameOwner := tdel vt.frameOwner f, donated := vt.donated.filter (· ≠ f) })
  else leaveRaw e s

/-- A frame leaves its grant: its page is split first, its entry is empty, it is no longer one taken as a donation (R422), and rows of its
that an error has broken are retired (R446). -/
def revokeFrame (f : Nat) (s : State) : State :=
  let due := rowsDue s f
  let s := releasePool f (splitAt f s)
  let vs : Tbl Vault := s.vaults.map fun v => (v.1, { v.2 with taken := v.2.taken.filter (· ≠ f) })
  due.foldl retireRow { s with
    vaults := vs, grants := tdel s.grants f, frames := tdel s.frames f, unowned := s.unowned.filter (· ≠ f)
    retireDue := s.retireDue.filter fun r => !due.contains r }

/-- GRANT_REVOKE, in an authenticated session (R456): refused while a loaded or saved table maps a frame or one is pinned. Copies are written back and purged, which
moves no value here (log 21). -/
def execGrantRevoke (s : State) : Host.Outcome State Fault Refusal :=
  match s.request with
  | .grantRevoke f n =>
    .next (if !s.regs.spdmSession || (frameRange f n).any fun x => mapped s x || pinned s x then s
      else
        let vs := ((frameRange f n).map fun x => frVault (s.frame x)).dedup
        let ps := ((frameRange f n).flatMap fun x => (s.grant x).owner.toList ++ (s.grant x).sharers).dedup
        ((s.each (frameRange f n) revokeFrame).each vs resumeEngine).each ps measurePart)
  | _ => .next s

/-- CLASS_CHANGE (R247): refused while a table maps a frame or one is pinned; a page is split first; COH and OWNER are rewritten. -/
def execClassChange (s : State) : Host.Outcome State Fault Refusal :=
  match s.request with
  | .classChange part f n coh owner =>
    .next (if !ownsAll s part.val f n || (frameRange f n).any (fun x => mapped s x || pinned s x) then s
      else s.each (frameRange f n) fun x s => setClass coh.val owner.val x { s with unowned := s.unowned.filter (· ≠ x) })
  | _ => .next s

/-! ## Partitions (R389, R390, R395) -/

/-- The cluster runs no group and holds no saved group or context waiting for frame service (R389, R398). -/
def clusterEmpty (s : State) (cl : Nat) : Bool :=
  s.groups.all (fun x => x.2.cluster != cl || x.2.done) && s.saves.all (fun x => clusterOf x.2.home != cl)
    && (List.range 32).all fun i => (s.ctx (32 * cl + i)).run.isIdle

/-- The arrays of a cluster go back to ARBMODE 0 (R177). -/
def clearModes (cl : Nat) (s : State) : State :=
  s.each [0, 1, 2, 3] fun i s => s.modArray (4 * cl + i) fun a => { a with mode := 0, cutA := false, cutB := false, windowB := false }

/-- The arrays of a cluster keep nothing of another partition: accumulators and what they queued (R388). -/
def clearArrays (cl : Nat) (s : State) : State :=
  clearModes cl (s.each [0, 1, 2, 3] fun i s => s.modArray (4 * cl + i) fun a =>
    { a with acc := [], accState := [], owners := [], queueA := [], queueB := [], current := none, micro := none })

/-- A cluster given to a partition is open, in ARBMODE 0, with clear accumulators. -/
def giveCluster (part cl : Nat) (s : State) : State :=
  if (s.cluster cl).part = some part then s
  else clearArrays cl (s.modCluster cl fun c => { c with part := some part, closed := false })

/-- PARTITION_CREATE, in an authenticated session (R456): a partition is created, without the Vault view (R424), or its clusters changed; only
clusters that hold no group and are not being moved to a spare move (R38), and nothing of another partition. The configuration is measured. -/
def execPartitionCreate (s : State) : Host.Outcome State Fault Refusal :=
  match s.request with
  | .partitionCreate part cls vfs harts pool =>
    let p := part.val
    let lost := (s.clusters.filter fun c => c.2.part == some p && !cls.contains c.1).map (·.1)
    let free (o : Option Nat) : Bool := o.isNone || o == some p
    let gained := cls.filter fun c => (s.cluster c).part != some p
    let ok := cls.all (fun c => decide (c < 512) && free (s.cluster c).part) && (lost ++ gained).all (fun c => clusterEmpty s c && s.regs.swapping != some c)
      && vfs.all (fun v => decide (v < 1024) && free (s.vf v).part) && harts.all (fun h => decide (h < 32) && free (s.hart h).part)
    .next (if !ok || !s.released || !s.regs.spdmSession then s
      else
        let s := s.each lost fun c s => s.modCluster c fun x => { x with part := none, image := none }
        let s := s.each cls (giveCluster p)
        let s := s.each vfs fun v s => s.modVf v fun x => { x with part := some p }
        let s := s.each harts fun h s => { s with harts := tset s.harts h { s.hart h with part := some p } }
        measurePart p (s.modPart p fun x => { x with present := true, pool := pool, vaultView := x.present && x.vaultView }))
  | _ => .next s

/-- Steps 1 and 2 of R395: contexts and saved contexts of the partition are discarded, its launches end with status 0x16. -/
def discardTasks (p : Nat) (s : State) : State :=
  let cs : Tbl Ctx := s.ctxs.filter fun c => c.2.part != p || c.2.run.isIdle
  let sv : Tbl Saved := s.saves.filter fun x => x.2.ctx.part != p
  let ids := (s.launches.filter fun l => l.2.part == p && l.2.state != .ended).map (·.1)
  let gone (x : Group) : Group :=
    if (tfind s.launches x.launch).map (·.part) = some p then
      { x with done := true, members := [], live := [], csram := [], csramPoison := [], slots := [], unitState := [] } else x
  let gr : Tbl Group := s.groups.map fun x => (x.1, gone x.2)
  ({ s with ctxs := cs, saves := sv, groups := gr } : State).each ids fun k s => endLaunch k 0x16 s

/-- Steps 3 and 4: one cluster of the partition is released and its SRAM zeroed. -/
def scrubCluster (cl : Nat) (s : State) : State :=
  let s := closeSession cl s
  let s := clearArrays cl s
  let s := s.modCluster cl fun c => { c with
    gainDue := none, image := none, session := none, copies := [], frozenChannels := [], xfus := [], csramUsed := 0, barsUsed := 0 }
  s.each (List.range 8) fun i s => s.modCore (8 * cl + i) fun k => { Core.initial with issuing := k.issuing }

/-- PARTITION_RESET (R395), whole. Sequence numbers of handles and the count of tasks stay; a freeze for space is released (R420), and
so is a stopped Mint set (R387). -/
def resetPartition (p : Nat) (s : State) : State :=
  let mints (d : Die) : Die :=
    if d.mint.any fun m => (tfind s.launches m.launch).map (·.part) == some p then { d with mint := none, drafts := [], reqs := [] } else d
  let s := s.each ((s.ctxs.filter fun c => c.2.part == p).map (·.1)) dropClaims
  let ds : Tbl Die := s.dies.map fun d => (d.1, mints d.2)
  let s := discardTasks p { s with dies := ds }
  let s := s.each ((s.clusters.filter fun c => c.2.part == some p).map (·.1)) scrubCluster
  let thaw (h : Hart) : Hart := if h.part = some p then { h with frozen := none } else h
  let hs : Tbl Hart := s.harts.map fun h => (h.1, thaw h.2)
  let vs : Tbl Vault := s.vaults.map fun v => (v.1, ({ v.2 with
    outOfSpace := v.2.outOfSpace.filter (· ≠ p), borrowers := v.2.borrowers.filter fun b => b.1 != p } : Vault).rest)
  { s with harts := hs, vaults := vs, refusedNodes := s.refusedNodes.filter fun n => n.2 != p }

def execPartitionReset (s : State) : Host.Outcome State Fault Refusal :=
  match s.request with
  | .partitionReset part => .next (resetPartition part.val s)
  | _ => .next s

/-- WATCHDOG_INTERVAL_SET (R438): 1 to 60,000 ms. -/
def execWatchdogIntervalSet (s : State) : Host.Outcome State Fault Refusal :=
  match s.request with
  | .watchdogIntervalSet part ms => .next (if 1 ≤ ms ∧ ms ≤ 60000 then s.modPart part.val fun p => { p with wdint := ms } else s)
  | _ => .next s

/-! ## Clusters (R21, R34, R35, R398) -/

/-- CLUSTER_DRAIN: no group is placed on the cluster until it is given out again or repaired. -/
def execClusterDrain (s : State) : Host.Outcome State Fault Refusal :=
  match s.request with
  | .clusterDrain cl => .next (if s.released then s.modCluster cl.val fun c => { c with closed := true } else s)
  | _ => .next s

/-- The physical cluster behind a logical one. -/
def physOf (m : W64) (l : Nat) : Nat := (bits m (4 * l) 4).toNat

/-- A good physical cluster that backs no logical one. -/
def spareOf (m : W64) : Option Nat :=
  (List.range 9).find? fun i => bit m (32 + i) && (List.range 8).all fun l => physOf m l != i

/-- CLMAP after logical cluster `l` moves: PHYS to the spare, or 0xF when there is none; the old one is retired (R21, R34). -/
def substituted (m : W64) (l : Nat) : W64 :=
  let old := physOf m l
  let m' := setBits m (4 * l) (BitVec.ofNat 4 ((spareOf m).getD 15))
  if old < 9 then m' &&& ~~~(1#64 <<< (32 + old)) else m'

/-- A partition's runtime is told that the partition lost cluster `cl` (R21; what the record holds: log 60). -/
def reportLoss (p cl : Nat) (s : State) : State :=
  s.modPart p fun q => { q with reports := q.reports ++ [record32 (BitVec.ofNat 64 (65536 * p)) (BitVec.ofNat 64 cl) 0 s.cycles] }

/-- The change of CLMAP that a substitution makes: the cluster moves to the spare and is open again; with no spare it is absent, its
partition loses it and is told (R21). -/
def substitute (cl : Nat) (s : State) : State :=
  let d := cl / 8
  let m := s.clmapOf d
  let lost := (spareOf m).isNone
  let part := (s.cluster cl).part
  let s := s.modCluster cl fun c => { c with closed := lost, part := if lost then none else c.part, image := none }
  let s := { s with regs := { s.regs with
    clmap := tset s.regs.clmap d (substituted m (cl % 8)), toposeq := s.regs.toposeq + 1, swapping := none } }
  match lost, part with
  | true, some p => measurePart p (reportLoss p cl s)
  | _, _ => s

/-- SPARE_SUBSTITUTION, at its start and again at its end, each time of a drained cluster: TOPOSEQ advances, and is odd in between (R35, R38,
R398). -/
def execSpareSubstitution (s : State) : Host.Outcome State Fault Refusal :=
  match s.request with
  | .spareSubstitution cl =>
    .next (if s.regs.swapping = some cl.val then (if (s.cluster cl.val).closed && clusterEmpty s cl.val then substitute cl.val s else s)
      else if !s.released || s.regs.swapping.isSome || !(s.cluster cl.val).closed || !clusterEmpty s cl.val then s
      else { s with regs := { s.regs with toposeq := s.regs.toposeq + 1, swapping := some cl.val } })
  | _ => .next s

/-! ## Firmware (R397, R399 to R402) -/

/-- Why an image is refused, as BOOTSTAT codes it (R401, R405). `i` numbers the images in boot order. -/
def imageReason (i : Nat) (f : FwImage) : Option Nat :=
  if !f.fetched then some 1
  else if f.keyRevoked then some 6
  else if !f.rsaOk && !f.slhOk then some 4
  else if !f.rsaOk then some 2
  else if !f.slhOk then some 3
  else if f.svn < Config.minSvn i then some 5
  else none

/-- An image's place in the boot order: block 2 + i measures it, word i holds its version. -/
def kindIndex : FwKind → Nat
  | .boot => 0
  | .runtime => 1
  | .vault => 2
  | .mint => 3
  | .routines => 4

/-- An accepted image's block is extended and its version word written (R397). -/
def acceptImage (i : Nat) (f : FwImage) (s : State) : State :=
  let s := extend (2 + i) f.digest s
  { s with regs := { s.regs with fwver := tset s.regs.fwver i f.version, svn := if i = 0 then f.svn else s.regs.svn } }

/-- FIRMWARE_UPDATE: a verified image is measured, its word changes, and a drained cluster takes new matrix routines and opens again
(R398). -/
def execFirmwareUpdate (s : State) : Host.Outcome State Fault Refusal :=
  match s.request with
  | .firmwareUpdate k f =>
    let i := kindIndex k
    .next (if (imageReason i f).isSome then s
      else
        let s := acceptImage i f s
        let reopen (c : Nat × Cluster) : Nat × Cluster :=
          if c.2.closed && c.2.part.isSome && clusterEmpty s c.1 && s.regs.swapping != some c.1 then (c.1, { c.2 with closed := false }) else c
        let cl : Tbl Cluster := if i = 4 then s.clusters.map reopen else s.clusters
        { s with clusters := cl, regs := { s.regs with updated := true } })
  | _ => .next s

/-- MINT_MICROCODE_REPLACE: between iterations a die's Mint loads the microcode in force; its tables stay (R399), and a Mint that an
internal error had closed is repaired (R446). -/
def execMintMicrocodeReplace (s : State) : Host.Outcome State Fault Refusal :=
  match s.request with
  | .mintMicrocodeReplace die f =>
    let busy := match (s.die die.val).mint with
      | some m => m.busy
      | none => false
    .next (if !s.released || busy || (imageReason 3 f).isSome || tget 0 s.regs.fwver 3 != f.version then s
      else s.modDie die.val fun d => { d with microcode := f.version, mintClosed := false })
  | _ => .next s

/-- The pause of a replacement: up to 2 ms, in which every context that stalls in place waits on; the time is its VF's, and its watchdog
does not run (R364, R400, R438). -/
def enginePause (s : State) : State :=
  let n := min 6000000 (Config.stepTime s.tick)
  let gs := (s.ctxs.filter fun c => c.2.stalled).map (·.1)
  s.each gs (fun g s => charge g n (s.modCtx g fun c => { c with watch := c.watch + n })) |> fun s =>
    { s with cycles := s.cycles + BitVec.ofNat 64 n, tick := s.tick + 1 }

/-- VAULT_FIRMWARE_REPLACE: at a request boundary a Vault loads the firmware in force (R400). -/
def execVaultFirmwareReplace (s : State) : Host.Outcome State Fault Refusal :=
  match s.request with
  | .vaultFirmwareReplace v f =>
    .next (if !s.released || (imageReason 2 f).isSome || tget 0 s.regs.fwver 2 != f.version then s
      else enginePause (s.modVault v.val fun x => { x with firmware := f.version }))
  | _ => .next s

/-! ## Inspection (R447) -/

/-- The state in which context `g` is seen frozen: it is, with its results in flight in its snapshot unless a handler held it already; or it
has left `g` and was frozen where it is saved, with its banks and units. -/
def frozenView (s : State) (g : Nat) : Option State :=
  if (s.ctx g).run.isFrozen then some (s.modCtx g fun c => if c.hm then c else c.stopIssue)
  else (s.saves.find? fun x => x.2.home == g && x.2.ctx.run.isFrozen).map fun x =>
    s.setCtx g { x.2.ctx with refills := x.2.banks, unitRefills := x.2.units }

/-- INSPECTION: a frozen context's state in the layout of R435, its held snapshot as part 3, to a buffer of its partition. -/
def execInspection (s : State) : Host.Outcome State Fault Refusal :=
  match s.request with
  | .inspection g pa =>
    match frozenView s g.val with
    | none => .next s
    | some view =>
      let c := view.ctx g.val
      if pa % 4096 ≠ 0 || !ownsAll s c.part (pa / 65536) ((pa + 65535) / 65536 + 1 - pa / 65536) then .next s
      else
        let pc := if c.hm then c.trappc else c.pc
        .next ((List.range 7).foldl (fun s k => match partBytes view g.val k pc false with
          | some bs => cpWrite c.part (pa + (partRange k).1) bs s
          | none => s) s)
  | _ => .next s

end Sys2Proof.Machine
end

