-- ==== Sys2Proof/Machine/Boot.lean ====
section
/-!
DEFINITION. Boot (R401 to R405), power and temperature (R458), soft errors and the patrol scrubbers (R440 to R444), and the SPDM
responder (R403).
-/
set_option Elab.async false
namespace Sys2Proof.Machine

/-! ## Boot -/

/-- A Vault with `n` LPDDR-6 packages in service (R30, R407, R416; which chunks the Reserve holds is log 2). -/
def Vault.ofPackages (n : Nat) : Vault :=
  { Vault.initial with chunks := n * 2 ^ 30, vcap := n * 2 ^ 30, target := n * 2 ^ 24
                       reserve := [(0, n * 2 ^ 24)], fresh := [(n * 2 ^ 24, n * 2 ^ 30)] }

/-- Set bits of a number of `n` bits. -/
def countBits (x : W64) (n : Nat) : Nat := ((List.range n).filter (bit x)).length

/-- What training finds is in service (R15, R30): the identity block lists it, device-physical space is twice the capacity that is there
(R22, R23), and a Vault's pool is that of its packages. -/
def trained (p : Parts) (s : State) : State :=
  { s with
    vaults := ((List.range 16).filter fun v => countBits (p.memlp >>> (4 * v)) 4 != 4).map fun v =>
      (v, Vault.ofPackages (countBits (p.memlp >>> (4 * v)) 4))
    regs := { s.regs with
      florinok := p.florinok, memhbm := p.memhbm, memlp := p.memlp
      dpsizeGiB := 128 * (countBits (p.memhbm.setWidth 64) 16 + countBits p.memlp 64) } }

/-- The module as a reset leaves it: only the nonvolatile count of failed starts with its reason (R404), the images of the boot and
runtime firmware known to the ROM, and the model's own agenda and counter stay. -/
def afterReset (s : State) : State :=
  let r := s.regs
  { State.reset with
    agenda := s.agenda, tick := s.tick
    regs := { Regs.initial with
      fails := r.fails, reason := r.reason, svn := r.svn, updated := r.updated
      fwver := [(0, tget 0 r.fwver 0), (1, tget 0 r.fwver 1)] } }

/-- A start fails: it is counted, up to 3, with its reason. -/
def failStart (reason : Nat) (s : State) : State :=
  { s with regs := { s.regs with fails := min 3 (s.regs.fails + 1), reason := reason, starting := false, ready := false } }

/-- STAGE while image `i` starts: boot firmware, runtime firmware, device firmware (R405). -/
def stageOf (i : Nat) : Nat := min 3 (i + 1)

/-- Image `i` is verified, measured and run; a refused one fails the start (R401, R402). -/
def bootStage (s : State) (i : Nat) (f : FwImage) : State :=
  if !s.regs.starting then s
  else
    let s := { s with regs := { s.regs with stage := stageOf i } }
    match imageReason i f with
    | some r => failStart r s
    | none => acceptImage i f s

/-- An image that the module fails to fetch. -/
def missingImage : FwImage :=
  { digest := 0, version := 0, svn := 0, fetched := false, rsaOk := false, slhOk := false, keyRevoked := false }

/-- The boot ROM runs: measurement block 1 is extended with it and the fuse settings, also where minimal mode follows (R402). -/
def romRuns (s : State) : State := extend 1 Config.romMeasurement s

/-- MODULE_RESET: `parts` is what training finds, `stages` are the images in boot order; none at all means that the Counting House's
self-test failed. After three
failed starts in a row, and no image update since, the start brings up minimal mode (R404). -/
def bootModule (parts : Parts) (stages : List FwImage) (s : State) : State :=
  let minimal := decide (3 ≤ s.regs.fails) && !s.regs.updated
  let s := romRuns (trained parts (afterReset s))
  if minimal then { s with regs := { s.regs with mini := true } }
  else
    let s := { s with regs := { s.regs with starting := true, updated := false } }
    if stages.isEmpty then failStart 7 s
    else (List.range 5).foldl (fun s i => bootStage s i (stages.getD i missingImage)) s

def execModuleReset (s : State) : Host.Outcome State Fault Refusal :=
  match s.request with
  | .moduleReset parts stages => .next (bootModule parts stages s)
  | _ => .next s

/-- RUNTIME_READY: a start whose stages all run succeeds, and the count is cleared (R404). -/
def execRuntimeReady (s : State) : Host.Outcome State Fault Refusal :=
  .next (if s.regs.starting then
      { s with regs := { s.regs with stage := 4, ready := true, starting := false, fails := 0, reason := 0 } }
    else s)

/-- BOOT_TIMEOUT: 120 s after reset the runtime is not ready. -/
def execBootTimeout (s : State) : Host.Outcome State Fault Refusal := .next (if s.regs.starting then failStart 8 s else s)

/-- THERMAL_RESET (R458): 115 °C, or the supply out of range. -/
def execThermalReset (s : State) : Host.Outcome State Fault Refusal := .next (failStart 9 (afterReset s))

/-- THROTTLE_STEP (R458): what the last millisecond measured, and the clock one step down or up; at 115 °C the module resets, and the start
has failed. -/
def execThrottleStep (s : State) : Host.Outcome State Fault Refusal :=
  match s.request with
  | .throttleStep power tmax tin =>
    let r := s.regs
    let clock := if r.allow < power ∨ 105 ≤ tmax then max 1000 (r.clock - 100) else min 3000 (r.clock + 100)
    .next (if 115 ≤ tmax then failStart 9 (afterReset s)
      else { s with regs := { r with power := power, tmax := tmax, tin := tin, clock := clock, throttled := decide (clock < 3000) } })
  | _ => .next s

/-! ## Soft errors (R440 to R444) -/

/-- Sectors become poisoned. -/
def poisonSectors (l : List Nat) (s : State) : State :=
  { s with poison := s.poison ++ (l.filter fun x => !s.poison.contains x).dedup }

/-- Sectors of a compressed line with payload in chunk `c` of its run (R440). -/
def chunkSectors (cs : List Nat) (c : Nat) : List Nat :=
  (List.range 8).filter fun j =>
    decide (0 < classBytes (cs.getD j 0) ∧ payloadStart cs j < 64 * (c + 1) ∧ 64 * c < payloadStart cs (j + 1))

/-- The sectors that an uncorrectable error in chunk `c` of a compressed line poisons. -/
def chunkHits (s : State) (line c : Nat) : List Nat :=
  match s.lineHome line with
  | none => []
  | some (v, _) => (chunkSectors (wordClasses (tget 0 (s.vault v).lineMeta line)) c).map (8 * line + ·)

/-- The sectors an uncorrectable error at a memory sector poisons: where the frame is compressed, those of the chunk at which its payload
begins; a sector without payload is stored nowhere. -/
def hitSectors (s : State) (sector : Nat) : List Nat :=
  let line := sector / 8
  match s.lineHome line with
  | none => [sector]
  | some (v, _) =>
    let cs := wordClasses (tget 0 (s.vault v).lineMeta line)
    if classBytes (cs.getD (sector % 8) 0) = 0 then [] else chunkHits s line (payloadStart cs (sector % 8) / 64)

/-- An uncorrectable error in a memory sector: poison, its record, and the row it breaks (R440, R444, R446). -/
def memoryError (struct sector : Nat) (s : State) : State :=
  errorRecord 1 struct (framePart s (64 * sector)) (memPlace s (64 * sector)) (BitVec.ofNat 64 (64 * sector))
    (rowBroken (64 * sector) (poisonSectors (hitSectors s sector) s))

/-- A corrected error in an SRAM of a cluster: above 64 in 24 hours the cluster closes, to be drained and repaired (R446; which structures
count: log 72). -/
def sramError (cl : Nat) (s : State) : State :=
  let c := countError s.sramErrors cl s.cycles
  if 64 < c.2 then { s with sramErrors := c.1.filter fun e => decide (e.1 ≠ cl) }.modCluster cl fun x => { x with closed := true }
  else { s with sramErrors := c.1 }

/-- A corrected error is recorded and counted: of a memory by its row, of a core's or cluster's SRAM by its cluster (R444, R446). -/
def correctedError (struct place addr : Nat) (part : Option Nat) (s : State) : State :=
  let s := errorRecord 0 struct part place (BitVec.ofNat 64 addr) s
  if 13 ≤ struct ∧ struct ≤ 15 then rowError addr s
  else if struct = 10 then sramError place s
  else if (1 ≤ struct ∧ struct ≤ 5) ∨ (8 ≤ struct ∧ struct ≤ 11) then sramError (clusterOf place) s
  else s

/-- A context holds a tile slot. -/
def Ctx.holdsSlot (c : Ctx) (slot : Nat) : Bool := decide (c.tileBase ≤ slot ∧ slot < c.tileBase + c.tileCount)

/-- The context that holds a tile slot of a core, and its partition: one in the core, or one saved that left it; a free slot is charged to
none, at the core's context 0. -/
def slotHolder (s : State) (k slot : Nat) : Nat × Option Nat :=
  match ([0, 1, 2, 3].map fun i => 4 * k + i).find? fun g => !(s.ctx g).run.isIdle && (s.ctx g).holdsSlot slot with
  | some g => (g, some (s.ctx g).part)
  | none => match s.saves.find? fun x => coreOf x.2.home == k && x.2.ctx.holdsSlot slot with
    | some x => (x.2.home, some x.2.ctx.part)
    | none => (4 * k, none)

/-- A context stands in its hardware context and can still be frozen: it issues, waits for issue, for its save or for frame service. -/
def Run.resident (r : Run) : Bool :=
  match r with
  | .frameWait => true
  | .saved => true
  | r => r.placed

/-- The partition of a context in the machine. -/
def ctxPart (s : State) (g : Nat) : Option Nat := if (s.ctx g).run.isIdle then none else some (s.ctx g).part

/-- A context whose state is lost freezes with cause 0x14 and bit 63 of TRAPINFO set (R443); one that has stopped to be saved keeps its held
snapshot (R447). -/
def internalFreeze (struct g : Nat) (s : State) : State :=
  if !(s.ctx g).run.resident then s
  else
    let info : W64 := (1#64 <<< 63) ||| BitVec.ofNat 64 struct
    let streams := (s.ctx g).stream
    let s := elsewhere g (takeTrap g 0x14 info 0) (s.modCtx g fun c =>
      { (if c.run = .saved then c.replay else c) with stream := false })
    let s := s.modCtx g fun c => { c with stream := streams }
    errorRecord 3 struct (some (s.ctx g).part) g info s

/-- Every context that uses the lost state freezes so; where a stream context is among them, the rest of its Mint set stops (R387). -/
def internalFreezes (struct : Nat) (gs : List Nat) (s : State) : State :=
  let dies := ((gs.filter fun g => (s.ctx g).stream && (s.ctx g).run.resident).map dieOf).dedup
  (s.each gs (internalFreeze struct)).each dies fun d s => stopMint d 16384 0x0C 0 s

/-- Clusters close to placement until they are repaired (R443, R446). -/
def closeClusters (cls : List Nat) (s : State) : State := s.each cls fun cl s => s.modCluster cl fun c => { c with closed := true }

/-- The contexts whose loaded tables map a frame of a Vault: they use its frame map walker (R443). -/
def vaultUsers (s : State) (v : Nat) : List Nat :=
  (s.ctxs.filter fun c => c.2.swt.any fun e => swV e.2 &&
    (List.range 16).any fun i => decide (i < (swFrames e.2).2 ∧ ((swFrames e.2).1 + i) % 16 = v)).map (·.1)

/-- SOFT_ERROR: what its detector saw. An error in a Vault's walker cache closes no cluster and no Mint. -/
def softError (e : SoftErr) (s : State) : State :=
  let add (l : List Nat) (x : Nat) : List Nat := if l.contains x then l else l ++ [x]
  match e with
  | .corrected struct place addr part => correctedError struct place addr part s
  | .poisonDp struct sector => memoryError struct sector s
  | .poisonChunk line c =>
    let a := 64 * ((chunkHits s line c).head?.getD (8 * line))
    errorRecord 1 (memStruct s a) (framePart s a) (memPlace s a) (BitVec.ofNat 64 a) (rowBroken a (poisonSectors (chunkHits s line c) s))
  | .poisonMeta line =>
    errorRecord 1 (memStruct s (512 * line)) (framePart s (512 * line)) (memPlace s (512 * line)) (BitVec.ofNat 64 (512 * line))
      (poisonSectors ((List.range 8).map (8 * line + ·)) s)
  | .poisonScratch g sector =>
    errorRecord 1 9 (ctxPart s g) g (localInfo (64 * sector))
      (s.modCtx g fun c => { c with scratchPoison := add c.scratchPoison sector })
  | .poisonCsram k sector =>
    errorRecord 1 10 ((tfind s.launches (s.group k).launch).map (·.part)) (s.group k).cluster (localInfo (64 * sector))
      (s.modGroup k fun c => { c with csramPoison := add c.csramPoison sector })
  | .poisonTile k slot sector =>
    let g := slotHolder s k slot
    errorRecord 1 8 g.2 g.1 (tileInfo slot sector)
      (s.modTile k slot fun t => { t with poison := add t.poison sector })
  | .internalCtx struct g => closeClusters [clusterOf g] (internalFreezes struct [g] s)
  | .internalPair pr => closeClusters [pr / 4] (internalFreezes 5 ((List.range 8).map (8 * pr + ·)) s)
  | .internalMint die =>
    let s := s.modDie die fun d => { d with mintClosed := true }
    match (s.die die).mint with
    | some m => internalFreezes 6 m.members s
    | none => s
  | .internalDie die => closeClusters ((List.range 8).map (8 * die + ·)) (internalFreezes 7 ((List.range 256).map (256 * die + ·)) s)
  | .internalVault v => internalFreezes 7 (vaultUsers s v) s

def execSoftError (s : State) : Host.Outcome State Fault Refusal :=
  match s.request with
  | .softError e => .next (if s.released then softError e s else s)
  | _ => .next s

/-- PATROL_SCRUB: a location of a Vault that runs is read and corrected; `err` is the error it held: none, corrected, or not correctable. -/
def execPatrolScrub (s : State) : Host.Outcome State Fault Refusal :=
  match s.request with
  | .patrolScrub sector err =>
    let a := 64 * sector
    .next (if !s.released then s else match err with
      | none => s
      | some true => correctedError (memStruct s a) (memPlace s a) a (framePart s a) s
      | some false => memoryError (memStruct s a) sector s)
  | _ => .next s

/-! ## The SPDM responder (R403; codes: log 5) -/

/-- The compound identifier of stage `n`, from the device secret and the measurements of the stages up to it (R403). -/
def stageIdentity (s : State) (n : Nat) : BitVec 384 :=
  (List.range n).foldl (fun k i => Config.diceDerive (i + 1) k (tget 0 s.regs.measure (i + 1))) Config.deviceSecret

/-- The alias key of stage `n`; that of stage 0 is the device key. -/
def stageKey (s : State) (n : Nat) : BitVec 384 := Config.diceDerive (8 + n) (stageIdentity s n) 0

/-- The certificate chain: each stage's key, certified by the layer below it. -/
def certChain (s : State) : BitVec 384 := (List.range 7).foldl (fun d n => sha384Extend d (stageKey s n)) 0

/-- Every measurement block, as a challenge signs them. -/
def allMeasurements (s : State) : BitVec 384 := (List.range 7).foldl (fun d i => sha384Extend d (tget 0 s.regs.measure (i + 1))) 0

/-- An answer: over a digest, signed with a key. -/
def spdmReply (code param nonce : Nat) (digest key : BitVec 384) (s : State) : State :=
  { s with answer := .spdm (BitVec.ofNat 8 code) (Config.spdmAnswer code param nonce digest key) }

/-- The key the running firmware signs with: the alias key of the last stage. -/
def aliasKey (s : State) : BitVec 384 := stageKey s 6

/-- An SPDM error response with its code. -/
def spdmError (code : Nat) (s : State) : State := { s with answer := .spdm 0x7F (BitVec.ofNat 384 code) }

def execGetVersion (s : State) : Host.Outcome State Fault Refusal :=
  .next (spdmReply 0x04 0 0 0 0 { s with regs := { s.regs with spdmVersion := 0x13, spdmNegotiated := false, spdmSession := false } })
def execGetCapabilities (s : State) : Host.Outcome State Fault Refusal := .next (spdmReply 0x61 0 0 0 0 s)
/-- NEGOTIATE_ALGORITHMS: SHA-384 and ECDSA P-384, or an error. -/
def execNegotiateAlgorithms (s : State) : Host.Outcome State Fault Refusal :=
  match s.request with
  | .negotiateAlgorithms sha p384 =>
    .next (if sha && p384 then spdmReply 0x63 0 0 0 0 { s with regs := { s.regs with spdmNegotiated := true } } else spdmError 0x01 s)
  | _ => .next s
def execGetDigests (s : State) : Host.Outcome State Fault Refusal := .next (spdmReply 0x01 0 0 (certChain s) 0 s)
def execGetCertificate (s : State) : Host.Outcome State Fault Refusal :=
  match s.request with
  | .getCertificate slot => .next (spdmReply 0x02 slot 0 (certChain s) 0 s)
  | _ => .next s
/-- CHALLENGE, answered; once algorithms are negotiated, the management port's session is authenticated (R403, R456; log 73). -/
def execChallenge (s : State) : Host.Outcome State Fault Refusal :=
  match s.request with
  | .challenge nonce => .next (spdmReply 0x03 0 nonce (sha384Extend (certChain s) (allMeasurements s)) (aliasKey s)
      { s with regs := { s.regs with spdmSession := s.regs.spdmSession || s.regs.spdmNegotiated } })
  | _ => .next s
/-- GET_MEASUREMENTS: block 1 to 7, signed over the nonce. -/
def execGetMeasurements (s : State) : Host.Outcome State Fault Refusal :=
  match s.request with
  | .getMeasurements b nonce =>
    .next (if 1 ≤ b ∧ b ≤ 7 then spdmReply 0x60 b nonce (tget 0 s.regs.measure b) (aliasKey s) s else spdmError 0x01 s)
  | _ => .next s
/-- Any other request: UnsupportedRequest. -/
def execSpdmUnsupportedRequest (s : State) : Host.Outcome State Fault Refusal := .next (spdmError 0x07 s)

end Sys2Proof.Machine
end

