-- ==== Sys2Proof/Machine/ExecC.lean ====
section
/-!
DEFINITION. The meaning of every C-class operation, of both headers and of an unassigned opcode: one bundle holding it alone
(R76 to R93, R99). Each does at issue what its `issue` function says, under its guard.
-/
set_option Elab.async false
namespace Sys2Proof.Machine

def execNop (st : BitVec 1) (s : State) : Host.Outcome State Fault Refusal :=
  runNop st s

def execAdd (st : BitVec 1) (g : BitVec 3) (d : BitVec 6) (a : BitVec 6) (b : BitVec 6) (f : BitVec 3) (s : State) : Host.Outcome State Fault Refusal :=
  runSlot 0 st g (.add st g d a b f) (fun v s => issueAdd v d a b f s) s

def execSub (st : BitVec 1) (g : BitVec 3) (d : BitVec 6) (a : BitVec 6) (b : BitVec 6) (f : BitVec 3) (s : State) : Host.Outcome State Fault Refusal :=
  runSlot 0 st g (.sub st g d a b f) (fun v s => issueSub v d a b f s) s

def execAnd (st : BitVec 1) (g : BitVec 3) (d : BitVec 6) (a : BitVec 6) (b : BitVec 6) (s : State) : Host.Outcome State Fault Refusal :=
  runSlot 0 st g (.and st g d a b) (fun v s => issueAnd v d a b s) s

def execOr (st : BitVec 1) (g : BitVec 3) (d : BitVec 6) (a : BitVec 6) (b : BitVec 6) (s : State) : Host.Outcome State Fault Refusal :=
  runSlot 0 st g (.or st g d a b) (fun v s => issueOr v d a b s) s

def execXor (st : BitVec 1) (g : BitVec 3) (d : BitVec 6) (a : BitVec 6) (b : BitVec 6) (s : State) : Host.Outcome State Fault Refusal :=
  runSlot 0 st g (.xor st g d a b) (fun v s => issueXor v d a b s) s

def execAndn (st : BitVec 1) (g : BitVec 3) (d : BitVec 6) (a : BitVec 6) (b : BitVec 6) (s : State) : Host.Outcome State Fault Refusal :=
  runSlot 0 st g (.andn st g d a b) (fun v s => issueAndn v d a b s) s

def execShl (st : BitVec 1) (g : BitVec 3) (d : BitVec 6) (a : BitVec 6) (b : BitVec 6) (f : BitVec 3) (s : State) : Host.Outcome State Fault Refusal :=
  runSlot 0 st g (.shl st g d a b f) (fun v s => issueShl v d a b f s) s

def execShr (st : BitVec 1) (g : BitVec 3) (d : BitVec 6) (a : BitVec 6) (b : BitVec 6) (f : BitVec 3) (s : State) : Host.Outcome State Fault Refusal :=
  runSlot 0 st g (.shr st g d a b f) (fun v s => issueShr v d a b f s) s

def execSar (st : BitVec 1) (g : BitVec 3) (d : BitVec 6) (a : BitVec 6) (b : BitVec 6) (f : BitVec 3) (s : State) : Host.Outcome State Fault Refusal :=
  runSlot 0 st g (.sar st g d a b f) (fun v s => issueSar v d a b f s) s

def execRot (st : BitVec 1) (g : BitVec 3) (d : BitVec 6) (a : BitVec 6) (b : BitVec 6) (f : BitVec 3) (s : State) : Host.Outcome State Fault Refusal :=
  runSlot 0 st g (.rot st g d a b f) (fun v s => issueRot v d a b f s) s

def execMul (st : BitVec 1) (g : BitVec 3) (d : BitVec 6) (a : BitVec 6) (b : BitVec 6) (f : BitVec 3) (s : State) : Host.Outcome State Fault Refusal :=
  runSlot 0 st g (.mul st g d a b f) (fun v s => issueMul v d a b f s) s

def execDiv (st : BitVec 1) (g : BitVec 3) (d : BitVec 6) (a : BitVec 6) (b : BitVec 6) (f : BitVec 3) (s : State) : Host.Outcome State Fault Refusal :=
  runSlot 0 st g (.div st g d a b f) (fun v s => issueDiv v d a b f s) s

def execMin (st : BitVec 1) (g : BitVec 3) (d : BitVec 6) (a : BitVec 6) (b : BitVec 6) (f : BitVec 3) (s : State) : Host.Outcome State Fault Refusal :=
  runSlot 0 st g (.min st g d a b f) (fun v s => issueMin v d a b f s) s

def execMax (st : BitVec 1) (g : BitVec 3) (d : BitVec 6) (a : BitVec 6) (b : BitVec 6) (f : BitVec 3) (s : State) : Host.Outcome State Fault Refusal :=
  runSlot 0 st g (.max st g d a b f) (fun v s => issueMax v d a b f s) s

def execBitc (st : BitVec 1) (g : BitVec 3) (d : BitVec 6) (a : BitVec 6) (f : BitVec 3) (s : State) : Host.Outcome State Fault Refusal :=
  runSlot 0 st g (.bitc st g d a f) (fun v s => issueBitc v d a f s) s

def execAddi (st : BitVec 1) (g : BitVec 3) (d : BitVec 6) (a : BitVec 6) (i : BitVec 9) (s : State) : Host.Outcome State Fault Refusal :=
  runSlot 0 st g (.addi st g d a i) (fun v s => issueAddi v d a i s) s

def execAndi (st : BitVec 1) (g : BitVec 3) (d : BitVec 6) (a : BitVec 6) (i : BitVec 9) (s : State) : Host.Outcome State Fault Refusal :=
  runSlot 0 st g (.andi st g d a i) (fun v s => issueAndi v d a i s) s

def execOri (st : BitVec 1) (g : BitVec 3) (d : BitVec 6) (a : BitVec 6) (i : BitVec 9) (s : State) : Host.Outcome State Fault Refusal :=
  runSlot 0 st g (.ori st g d a i) (fun v s => issueOri v d a i s) s

def execXori (st : BitVec 1) (g : BitVec 3) (d : BitVec 6) (a : BitVec 6) (i : BitVec 9) (s : State) : Host.Outcome State Fault Refusal :=
  runSlot 0 st g (.xori st g d a i) (fun v s => issueXori v d a i s) s

def execShli (st : BitVec 1) (g : BitVec 3) (d : BitVec 6) (a : BitVec 6) (i : BitVec 6) (s : State) : Host.Outcome State Fault Refusal :=
  runSlot 0 st g (.shli st g d a i) (fun v s => issueShli v d a i s) s

def execShri (st : BitVec 1) (g : BitVec 3) (d : BitVec 6) (a : BitVec 6) (i : BitVec 6) (s : State) : Host.Outcome State Fault Refusal :=
  runSlot 0 st g (.shri st g d a i) (fun v s => issueShri v d a i s) s

def execSari (st : BitVec 1) (g : BitVec 3) (d : BitVec 6) (a : BitVec 6) (i : BitVec 6) (s : State) : Host.Outcome State Fault Refusal :=
  runSlot 0 st g (.sari st g d a i) (fun v s => issueSari v d a i s) s

def execMuli (st : BitVec 1) (g : BitVec 3) (d : BitVec 6) (a : BitVec 6) (i : BitVec 9) (s : State) : Host.Outcome State Fault Refusal :=
  runSlot 0 st g (.muli st g d a i) (fun v s => issueMuli v d a i s) s

def execLi (st : BitVec 1) (g : BitVec 3) (d : BitVec 6) (i : BitVec 15) (s : State) : Host.Outcome State Fault Refusal :=
  runSlot 0 st g (.li st g d i) (fun v s => issueLi v d i s) s

def execLis (st : BitVec 1) (g : BitVec 3) (d : BitVec 6) (i : BitVec 15) (s : State) : Host.Outcome State Fault Refusal :=
  runSlot 0 st g (.lis st g d i) (fun v s => issueLis v d i s) s

def execAddpc (st : BitVec 1) (g : BitVec 3) (d : BitVec 6) (i : BitVec 15) (s : State) : Host.Outcome State Fault Refusal :=
  runSlot 0 st g (.addpc st g d i) (fun v s => issueAddpc v d i s) s

def execCmp (st : BitVec 1) (g : BitVec 3) (p : BitVec 7) (a : BitVec 6) (b : BitVec 6) (c : BitVec 2) (s : State) : Host.Outcome State Fault Refusal :=
  runSlot 0 st g (.cmp st g p a b c) (fun v s => issueCmp v p a b c s) s

def execCmpu (st : BitVec 1) (g : BitVec 3) (p : BitVec 7) (a : BitVec 6) (b : BitVec 6) (c : BitVec 2) (s : State) : Host.Outcome State Fault Refusal :=
  runSlot 0 st g (.cmpu st g p a b c) (fun v s => issueCmpu v p a b c s) s

def execCmpi (st : BitVec 1) (g : BitVec 3) (p : BitVec 7) (a : BitVec 6) (i : BitVec 6) (c : BitVec 2) (s : State) : Host.Outcome State Fault Refusal :=
  runSlot 0 st g (.cmpi st g p a i c) (fun v s => issueCmpi v p a i c s) s

def execPfrom (st : BitVec 1) (g : BitVec 3) (p : BitVec 7) (a : BitVec 6) (s : State) : Host.Outcome State Fault Refusal :=
  runSlot 0 st g (.pfrom st g p a) (fun v s => issuePfrom v p a s) s

def execBr (st : BitVec 1) (g : BitVec 3) (d : BitVec 21) (s : State) : Host.Outcome State Fault Refusal :=
  runSlot 0 st g (.br st g d) (fun v s => issueBr v d s) s

def execCall (st : BitVec 1) (g : BitVec 3) (d : BitVec 21) (s : State) : Host.Outcome State Fault Refusal :=
  runSlot 0 st g (.call st g d) (fun v s => issueCall v d s) s

def execBrb (st : BitVec 1) (g : BitVec 3) (k : BitVec 3) (s : State) : Host.Outcome State Fault Refusal :=
  runSlot 0 st g (.brb st g k) (fun v s => issueBrb v k s) s

def execRet (st : BitVec 1) (g : BitVec 3) (s : State) : Host.Outcome State Fault Refusal :=
  runSlot 0 st g (.ret st g) (fun v s => issueRet v s) s

def execLbt (st : BitVec 1) (g : BitVec 3) (k : BitVec 3) (d : BitVec 18) (s : State) : Host.Outcome State Fault Refusal :=
  runSlot 0 st g (.lbt st g k d) (fun v s => issueLbt v k d s) s

def execMovb (st : BitVec 1) (g : BitVec 3) (k : BitVec 3) (r0 : BitVec 6) (f : BitVec 3) (s : State) : Host.Outcome State Fault Refusal :=
  runSlot 0 st g (.movb st g k r0 f) (fun v s => issueMovb v k r0 f s) s

def execLoop (st : BitVec 1) (g : BitVec 3) (c : BitVec 6) (i : BitVec 15) (s : State) : Host.Outcome State Fault Refusal :=
  runSlot 0 st g (.loop st g c i) (fun v s => issueLoop v c i s) s

def execCsrd (st : BitVec 1) (g : BitVec 3) (r : BitVec 12) (r0 : BitVec 6) (s : State) : Host.Outcome State Fault Refusal :=
  runSlot 0 st g (.csrd st g r r0) (fun v s => issueCsrd v r r0 s) s

def execCswr (st : BitVec 1) (g : BitVec 3) (r : BitVec 12) (r0 : BitVec 6) (s : State) : Host.Outcome State Fault Refusal :=
  runSlot 0 st g (.cswr st g r r0) (fun v s => issueCswr v r r0 s) s

def execMpset (st : BitVec 1) (g : BitVec 3) (m : BitVec 3) (r0 : BitVec 6) (s : State) : Host.Outcome State Fault Refusal :=
  runSlot 0 st g (.mpset st g m r0) (fun v s => issueMpset v m r0 s) s

def execTcset (st : BitVec 1) (g : BitVec 3) (t : BitVec 5) (r0 : BitVec 6) (s : State) : Host.Outcome State Fault Refusal :=
  runSlot 0 st g (.tcset st g t r0) (fun v s => issueTcset v t r0 s) s

def execTcget (st : BitVec 1) (g : BitVec 3) (t : BitVec 5) (r0 : BitVec 6) (s : State) : Host.Outcome State Fault Refusal :=
  runSlot 0 st g (.tcget st g t r0) (fun v s => issueTcget v t r0 s) s

def execYield (st : BitVec 1) (g : BitVec 3) (s : State) : Host.Outcome State Fault Refusal :=
  runSlot 0 st g (.yield st g) (fun v s => issueYield v s) s

def execExit (st : BitVec 1) (g : BitVec 3) (s : State) : Host.Outcome State Fault Refusal :=
  runSlot 0 st g (.exit st g) (fun v s => issueExit v s) s

def execTrap (st : BitVec 1) (g : BitVec 3) (c : BitVec 21) (s : State) : Host.Outcome State Fault Refusal :=
  runSlot 0 st g (.trap st g c) (fun v s => issueTrap v c s) s

def execSysc (st : BitVec 1) (g : BitVec 3) (c : BitVec 21) (s : State) : Host.Outcome State Fault Refusal :=
  runSlot 0 st g (.sysc st g c) (fun v s => issueSysc v c s) s

def execBrk (st : BitVec 1) (g : BitVec 3) (c : BitVec 21) (s : State) : Host.Outcome State Fault Refusal :=
  runSlot 0 st g (.brk st g c) (fun v s => issueBrk v c s) s

def execGrow (st : BitVec 1) (g : BitVec 3) (d : BitVec 6) (a : BitVec 6) (s : State) : Host.Outcome State Fault Refusal :=
  runSlot 0 st g (.grow st g d a) (fun v s => issueGrow v d a s) s

def execBar (st : BitVec 1) (g : BitVec 3) (n : BitVec 5) (s : State) : Host.Outcome State Fault Refusal :=
  runSlot 0 st g (.bar st g n) (fun v s => issueBar v n s) s

def execBarW (st : BitVec 1) (g : BitVec 3) (n : BitVec 5) (s : State) : Host.Outcome State Fault Refusal :=
  runSlot 0 st g (.barW st g n) (fun v s => issueBarW v n s) s

def execBarAw (st : BitVec 1) (g : BitVec 3) (n : BitVec 5) (s : State) : Host.Outcome State Fault Refusal :=
  runSlot 0 st g (.barAw st g n) (fun v s => issueBarAw v n s) s

def execRfe (st : BitVec 1) (g : BitVec 3) (s : State) : Host.Outcome State Fault Refusal :=
  runSlot 0 st g (.rfe st g) (fun v s => issueRfe v s) s

def execSavec (st : BitVec 1) (g : BitVec 3) (m : BitVec 7) (r0 : BitVec 6) (s : State) : Host.Outcome State Fault Refusal :=
  runSlot 0 st g (.savec st g m r0) (fun v s => issueSavec v m r0 s) s

def execLoadc (st : BitVec 1) (g : BitVec 3) (m : BitVec 7) (r0 : BitVec 6) (s : State) : Host.Outcome State Fault Refusal :=
  runSlot 0 st g (.loadc st g m r0) (fun v s => issueLoadc v m r0 s) s

/-- HDR.T alone in its bundle: every path tag must be 7 beside a no-operation (R92). -/
def execHdrT (st : BitVec 1) (h : BitVec 3) (q : BitVec 5) (b x y z : BitVec 3) (s : State) :
    Host.Outcome State Fault Refusal :=
  let bad := (if x = 7 then [] else [0, 1]) ++ (if y = 7 then [] else [0, 2]) ++ if z = 7 then [] else [0, 3]
  .next (issueSlots s.cur (st == 1) bad [{ n := 0, instr := .hdrT st h q b x y z, env := { g := s.cur },
                                           issue := fun v s => issueHdrT v h q b s }] s)

/-- HDR.X alone in its bundle: a lent field beside a no-operation must be zero (R88); the bundle then does nothing. -/
def execHdrX (st : BitVec 1) (l1 l2 l3 : BitVec 7) (s : State) : Host.Outcome State Fault Refusal :=
  let bad := (if l1 = 0 then [] else [0, 1]) ++ (if l2 = 0 then [] else [0, 2]) ++ if l3 = 0 then [] else [0, 3]
  .next (issueSlots s.cur (st == 1) bad [] s)

/-- An unassigned opcode in a slot raises cause 0x01 with that slot marked (R99, R103). -/
def execUnassignedOpcode (slot : Fin 4) (_ : W32) (s : State) : Host.Outcome State Fault Refusal :=
  .next (takeTrap s.cur 0x01 0 (slotMask [slot.val]) s)

end Sys2Proof.Machine
end

