-- ==== Sys2Proof/Machine/ExecM.lean ====
section
/-!
DEFINITION. The meaning of every M-class operation: one bundle holding it alone (chapters 13 and 14).
-/
set_option Elab.async false
namespace Sys2Proof.Machine

def execLdd (q : BitVec 1) (g : BitVec 3) (d : BitVec 6) (b : BitVec 6) (c : BitVec 4) (f : BitVec 5) (s : State) : Host.Outcome State Fault Refusal :=
  runSlot 3 0 g (.ldd q g d b c f) (fun v s => issueLdd v q d b c f s) s

def execLdw (q : BitVec 1) (g : BitVec 3) (d : BitVec 6) (b : BitVec 6) (c : BitVec 4) (f : BitVec 5) (s : State) : Host.Outcome State Fault Refusal :=
  runSlot 3 0 g (.ldw q g d b c f) (fun v s => issueLdw v q d b c f s) s

def execLdwu (q : BitVec 1) (g : BitVec 3) (d : BitVec 6) (b : BitVec 6) (c : BitVec 4) (f : BitVec 5) (s : State) : Host.Outcome State Fault Refusal :=
  runSlot 3 0 g (.ldwu q g d b c f) (fun v s => issueLdwu v q d b c f s) s

def execLdh (q : BitVec 1) (g : BitVec 3) (d : BitVec 6) (b : BitVec 6) (c : BitVec 4) (f : BitVec 5) (s : State) : Host.Outcome State Fault Refusal :=
  runSlot 3 0 g (.ldh q g d b c f) (fun v s => issueLdh v q d b c f s) s

def execLdhu (q : BitVec 1) (g : BitVec 3) (d : BitVec 6) (b : BitVec 6) (c : BitVec 4) (f : BitVec 5) (s : State) : Host.Outcome State Fault Refusal :=
  runSlot 3 0 g (.ldhu q g d b c f) (fun v s => issueLdhu v q d b c f s) s

def execLdb (q : BitVec 1) (g : BitVec 3) (d : BitVec 6) (b : BitVec 6) (c : BitVec 4) (f : BitVec 5) (s : State) : Host.Outcome State Fault Refusal :=
  runSlot 3 0 g (.ldb q g d b c f) (fun v s => issueLdb v q d b c f s) s

def execLdbu (q : BitVec 1) (g : BitVec 3) (d : BitVec 6) (b : BitVec 6) (c : BitVec 4) (f : BitVec 5) (s : State) : Host.Outcome State Fault Refusal :=
  runSlot 3 0 g (.ldbu q g d b c f) (fun v s => issueLdbu v q d b c f s) s

def execStd (g : BitVec 3) (d : BitVec 6) (b : BitVec 6) (c : BitVec 4) (f : BitVec 5) (s : State) : Host.Outcome State Fault Refusal :=
  runSlot 3 0 g (.std g d b c f) (fun v s => issueStd v d b c f s) s

def execStw (g : BitVec 3) (d : BitVec 6) (b : BitVec 6) (c : BitVec 4) (f : BitVec 5) (s : State) : Host.Outcome State Fault Refusal :=
  runSlot 3 0 g (.stw g d b c f) (fun v s => issueStw v d b c f s) s

def execSth (g : BitVec 3) (d : BitVec 6) (b : BitVec 6) (c : BitVec 4) (f : BitVec 5) (s : State) : Host.Outcome State Fault Refusal :=
  runSlot 3 0 g (.sth g d b c f) (fun v s => issueSth v d b c f s) s

def execStb (g : BitVec 3) (d : BitVec 6) (b : BitVec 6) (c : BitVec 4) (f : BitVec 5) (s : State) : Host.Outcome State Fault Refusal :=
  runSlot 3 0 g (.stb g d b c f) (fun v s => issueStb v d b c f s) s

def execVld (q : BitVec 1) (g : BitVec 3) (d : BitVec 5) (b : BitVec 6) (c : BitVec 4) (f : BitVec 6) (s : State) : Host.Outcome State Fault Refusal :=
  runSlot 3 0 g (.vld q g d b c f) (fun v s => issueVld v q d b c f s) s

def execVst (g : BitVec 3) (d : BitVec 5) (b : BitVec 6) (c : BitVec 4) (f : BitVec 6) (s : State) : Host.Outcome State Fault Refusal :=
  runSlot 3 0 g (.vst g d b c f) (fun v s => issueVst v d b c f s) s

def execLddp (q : BitVec 1) (g : BitVec 3) (d : BitVec 6) (b : BitVec 6) (c : BitVec 4) (f : BitVec 5) (s : State) : Host.Outcome State Fault Refusal :=
  runSlot 3 0 g (.lddp q g d b c f) (fun v s => issueLddp v q d b c f s) s

def execVldp (q : BitVec 1) (g : BitVec 3) (d : BitVec 5) (b : BitVec 6) (c : BitVec 4) (f : BitVec 6) (s : State) : Host.Outcome State Fault Refusal :=
  runSlot 3 0 g (.vldp q g d b c f) (fun v s => issueVldp v q d b c f s) s

def execVstp (g : BitVec 3) (d : BitVec 5) (b : BitVec 6) (c : BitVec 4) (f : BitVec 6) (s : State) : Host.Outcome State Fault Refusal :=
  runSlot 3 0 g (.vstp g d b c f) (fun v s => issueVstp v d b c f s) s

def execTld (g : BitVec 3) (t : BitVec 5) (b : BitVec 6) (c : BitVec 4) (s : State) : Host.Outcome State Fault Refusal :=
  runSlot 3 0 g (.tld g t b c) (fun v s => issueTld v t b c s) s

def execTst (g : BitVec 3) (t : BitVec 5) (b : BitVec 6) (c : BitVec 4) (s : State) : Host.Outcome State Fault Refusal :=
  runSlot 3 0 g (.tst g t b c) (fun v s => issueTst v t b c s) s

def execTgath (g : BitVec 3) (t : BitVec 5) (b : BitVec 6) (c : BitVec 4) (i : BitVec 5) (w : BitVec 1) (s : State) : Host.Outcome State Fault Refusal :=
  runSlot 3 0 g (.tgath g t b c i w) (fun v s => issueTgath v t b c i w s) s

def execTscat (g : BitVec 3) (t : BitVec 5) (b : BitVec 6) (c : BitVec 4) (i : BitVec 5) (w : BitVec 1) (s : State) : Host.Outcome State Fault Refusal :=
  runSlot 3 0 g (.tscat g t b c i w) (fun v s => issueTscat v t b c i w s) s

def execTscadd (g : BitVec 3) (t : BitVec 5) (b : BitVec 6) (c : BitVec 4) (i : BitVec 5) (w : BitVec 1) (s : State) : Host.Outcome State Fault Refusal :=
  runSlot 3 0 g (.tscadd g t b c i w) (fun v s => issueTscadd v t b c i w s) s

def execAadd (g : BitVec 3) (d : BitVec 6) (b : BitVec 6) (r0 : BitVec 6) (o : BitVec 3) (s : State) : Host.Outcome State Fault Refusal :=
  runSlot 3 0 g (.aadd g d b r0 o) (fun v s => issueAadd v d b r0 o s) s

def execAaddw (g : BitVec 3) (d : BitVec 6) (b : BitVec 6) (r0 : BitVec 6) (o : BitVec 3) (s : State) : Host.Outcome State Fault Refusal :=
  runSlot 3 0 g (.aaddw g d b r0 o) (fun v s => issueAaddw v d b r0 o s) s

def execAfadd (g : BitVec 3) (d : BitVec 6) (b : BitVec 6) (r0 : BitVec 6) (o : BitVec 3) (s : State) : Host.Outcome State Fault Refusal :=
  runSlot 3 0 g (.afadd g d b r0 o) (fun v s => issueAfadd v d b r0 o s) s

def execAdadd (g : BitVec 3) (d : BitVec 6) (b : BitVec 6) (r0 : BitVec 6) (o : BitVec 3) (s : State) : Host.Outcome State Fault Refusal :=
  runSlot 3 0 g (.adadd g d b r0 o) (fun v s => issueAdadd v d b r0 o s) s

def execAmax (g : BitVec 3) (d : BitVec 6) (b : BitVec 6) (r0 : BitVec 6) (o : BitVec 3) (s : State) : Host.Outcome State Fault Refusal :=
  runSlot 3 0 g (.amax g d b r0 o) (fun v s => issueAmax v d b r0 o s) s

def execAmin (g : BitVec 3) (d : BitVec 6) (b : BitVec 6) (r0 : BitVec 6) (o : BitVec 3) (s : State) : Host.Outcome State Fault Refusal :=
  runSlot 3 0 g (.amin g d b r0 o) (fun v s => issueAmin v d b r0 o s) s

def execAor (g : BitVec 3) (d : BitVec 6) (b : BitVec 6) (r0 : BitVec 6) (o : BitVec 3) (s : State) : Host.Outcome State Fault Refusal :=
  runSlot 3 0 g (.aor g d b r0 o) (fun v s => issueAor v d b r0 o s) s

def execAand (g : BitVec 3) (d : BitVec 6) (b : BitVec 6) (r0 : BitVec 6) (o : BitVec 3) (s : State) : Host.Outcome State Fault Refusal :=
  runSlot 3 0 g (.aand g d b r0 o) (fun v s => issueAand v d b r0 o s) s

def execAxchg (g : BitVec 3) (d : BitVec 6) (b : BitVec 6) (r0 : BitVec 6) (o : BitVec 3) (s : State) : Host.Outcome State Fault Refusal :=
  runSlot 3 0 g (.axchg g d b r0 o) (fun v s => issueAxchg v d b r0 o s) s

def execAcas (g : BitVec 3) (d : BitVec 6) (b : BitVec 6) (r0 : BitVec 6) (o : BitVec 3) (s : State) : Host.Outcome State Fault Refusal :=
  runSlot 3 0 g (.acas g d b r0 o) (fun v s => issueAcas v d b r0 o s) s

def execFence (g : BitVec 3) (m : BitVec 16) (k : BitVec 5) (s : State) : Host.Outcome State Fault Refusal :=
  runSlot 3 0 g (.fence g m k) (fun v s => issueFence v m k s) s

def execWaitm (g : BitVec 3) (a : BitVec 6) (b : BitVec 6) (c : BitVec 6) (f : BitVec 3) (s : State) : Host.Outcome State Fault Refusal :=
  runSlot 3 0 g (.waitm g a b c f) (fun v s => issueWaitm v a b c f s) s

def execCpy (g : BitVec 3) (a : BitVec 6) (b : BitVec 6) (c : BitVec 6) (s : State) : Host.Outcome State Fault Refusal :=
  runSlot 3 0 g (.cpy g a b c) (fun v s => issueCpy v a b c s) s

def execCpyZero (g : BitVec 3) (a : BitVec 6) (c : BitVec 6) (s : State) : Host.Outcome State Fault Refusal :=
  runSlot 3 0 g (.cpyZero g a c) (fun v s => issueCpyZero v a c s) s

def execCpyq (g : BitVec 3) (n : BitVec 6) (b : BitVec 6) (c : BitVec 6) (s : State) : Host.Outcome State Fault Refusal :=
  runSlot 3 0 g (.cpyq g n b c) (fun v s => issueCpyq v n b c s) s

def execQpop (g : BitVec 3) (n : BitVec 3) (d : BitVec 6) (s : State) : Host.Outcome State Fault Refusal :=
  runSlot 3 0 g (.qpop g n d) (fun v s => issueQpop v n d s) s

def execQpopBind (g : BitVec 3) (n : BitVec 3) (d : BitVec 6) (s : State) : Host.Outcome State Fault Refusal :=
  runSlot 3 0 g (.qpopBind g n d) (fun v s => issueQpopBind v n d s) s

def execQstat (g : BitVec 3) (n : BitVec 3) (d : BitVec 6) (s : State) : Host.Outcome State Fault Refusal :=
  runSlot 3 0 g (.qstat g n d) (fun v s => issueQstat v n d s) s

def execSbar (g : BitVec 3) (m : BitVec 16) (k : BitVec 5) (s : State) : Host.Outcome State Fault Refusal :=
  runSlot 3 0 g (.sbar g m k) (fun v s => issueSbar v m k s) s

def execRinv (g : BitVec 3) (a : BitVec 6) (b : BitVec 6) (c : BitVec 6) (f : BitVec 3) (s : State) : Host.Outcome State Fault Refusal :=
  runSlot 3 0 g (.rinv g a b c f) (fun v s => issueRinv v a b c f s) s

def execRflush (g : BitVec 3) (a : BitVec 6) (b : BitVec 6) (c : BitVec 6) (f : BitVec 3) (s : State) : Host.Outcome State Fault Refusal :=
  runSlot 3 0 g (.rflush g a b c f) (fun v s => issueRflush v a b c f s) s

def execResv (g : BitVec 3) (h : BitVec 6) (b : BitVec 6) (c : BitVec 6) (f : BitVec 3) (s : State) : Host.Outcome State Fault Refusal :=
  runSlot 3 0 g (.resv g h b c f) (fun v s => issueResv v h b c f s) s

def execRrel (g : BitVec 3) (h : BitVec 6) (s : State) : Host.Outcome State Fault Refusal :=
  runSlot 3 0 g (.rrel g h) (fun v s => issueRrel v h s) s

def execRrelAll (g : BitVec 3) (s : State) : Host.Outcome State Fault Refusal :=
  runSlot 3 0 g (.rrelAll g) (fun v s => issueRrelAll v s) s

def execMovp (g : BitVec 3) (p : BitVec 8) (r0 : BitVec 6) (s : State) : Host.Outcome State Fault Refusal :=
  runSlot 3 0 g (.movp g p r0) (fun v s => issueMovp v p r0 s) s

def execMovfp (g : BitVec 3) (p : BitVec 8) (r0 : BitVec 6) (s : State) : Host.Outcome State Fault Refusal :=
  runSlot 3 0 g (.movfp g p r0) (fun v s => issueMovfp v p r0 s) s

def execQpush (g : BitVec 3) (n : BitVec 3) (d : BitVec 6) (s : State) : Host.Outcome State Fault Refusal :=
  runSlot 3 0 g (.qpush g n d) (fun v s => issueQpush v n d s) s

def execQpushBind (g : BitVec 3) (n : BitVec 3) (d : BitVec 6) (s : State) : Host.Outcome State Fault Refusal :=
  runSlot 3 0 g (.qpushBind g n d) (fun v s => issueQpushBind v n d s) s

def execXfuDecode (g : BitVec 3) (u : BitVec 3) (r0 : BitVec 6) (s : State) : Host.Outcome State Fault Refusal :=
  runSlot 3 0 g (.xfuDecode g u r0) (fun v s => issueXfuDecode v u r0 s) s

def execXfuZorder (g : BitVec 3) (u : BitVec 3) (r0 : BitVec 6) (s : State) : Host.Outcome State Fault Refusal :=
  runSlot 3 0 g (.xfuZorder g u r0) (fun v s => issueXfuZorder v u r0 s) s

def execXfuUnz (g : BitVec 3) (u : BitVec 3) (r0 : BitVec 6) (s : State) : Host.Outcome State Fault Refusal :=
  runSlot 3 0 g (.xfuUnz g u r0) (fun v s => issueXfuUnz v u r0 s) s

def execXfuCopy (g : BitVec 3) (u : BitVec 3) (r0 : BitVec 6) (s : State) : Host.Outcome State Fault Refusal :=
  runSlot 3 0 g (.xfuCopy g u r0) (fun v s => issueXfuCopy v u r0 s) s

def execXfuUnpack4 (g : BitVec 3) (u : BitVec 3) (r0 : BitVec 6) (s : State) : Host.Outcome State Fault Refusal :=
  runSlot 3 0 g (.xfuUnpack4 g u r0) (fun v s => issueXfuUnpack4 v u r0 s) s

def execXfuSave (g : BitVec 3) (u : BitVec 3) (r0 : BitVec 6) (s : State) : Host.Outcome State Fault Refusal :=
  runSlot 3 0 g (.xfuSave g u r0) (fun v s => issueXfuSave v u r0 s) s

def execXfuLoad (g : BitVec 3) (u : BitVec 3) (r0 : BitVec 6) (s : State) : Host.Outcome State Fault Refusal :=
  runSlot 3 0 g (.xfuLoad g u r0) (fun v s => issueXfuLoad v u r0 s) s

def execXfuAbort (g : BitVec 3) (u : BitVec 3) (r0 : BitVec 6) (s : State) : Host.Outcome State Fault Refusal :=
  runSlot 3 0 g (.xfuAbort g u r0) (fun v s => issueXfuAbort v u r0 s) s

/-- MNOP (R84). -/
def execMnop (s : State) : Host.Outcome State Fault Refusal :=
  runNop 0 s

end Sys2Proof.Machine
end

