-- ==== Sys2Proof/Machine/ExecV.lean ====
section
/-!
DEFINITION. The meaning of every V-class operation: one bundle holding it alone (chapter 7).
-/
set_option Elab.async false
namespace Sys2Proof.Machine

def execVadd (q : BitVec 1) (g : BitVec 3) (d : BitVec 5) (a : BitVec 5) (b : BitVec 5) (m : BitVec 6) (s : State) : Host.Outcome State Fault Refusal :=
  runSlot 1 0 g (.vadd q g d a b m) (fun v s => issueVadd v q d a b m s) s

def execVsub (q : BitVec 1) (g : BitVec 3) (d : BitVec 5) (a : BitVec 5) (b : BitVec 5) (m : BitVec 6) (s : State) : Host.Outcome State Fault Refusal :=
  runSlot 1 0 g (.vsub q g d a b m) (fun v s => issueVsub v q d a b m s) s

def execVmul (q : BitVec 1) (g : BitVec 3) (d : BitVec 5) (a : BitVec 5) (b : BitVec 5) (m : BitVec 6) (s : State) : Host.Outcome State Fault Refusal :=
  runSlot 1 0 g (.vmul q g d a b m) (fun v s => issueVmul v q d a b m s) s

def execVmin (q : BitVec 1) (g : BitVec 3) (d : BitVec 5) (a : BitVec 5) (b : BitVec 5) (m : BitVec 6) (s : State) : Host.Outcome State Fault Refusal :=
  runSlot 1 0 g (.vmin q g d a b m) (fun v s => issueVmin v q d a b m s) s

def execVmax (q : BitVec 1) (g : BitVec 3) (d : BitVec 5) (a : BitVec 5) (b : BitVec 5) (m : BitVec 6) (s : State) : Host.Outcome State Fault Refusal :=
  runSlot 1 0 g (.vmax q g d a b m) (fun v s => issueVmax v q d a b m s) s

def execVand (q : BitVec 1) (g : BitVec 3) (d : BitVec 5) (a : BitVec 5) (b : BitVec 5) (s : State) : Host.Outcome State Fault Refusal :=
  runSlot 1 0 g (.vand q g d a b) (fun v s => issueVand v q d a b s) s

def execVor (q : BitVec 1) (g : BitVec 3) (d : BitVec 5) (a : BitVec 5) (b : BitVec 5) (s : State) : Host.Outcome State Fault Refusal :=
  runSlot 1 0 g (.vor q g d a b) (fun v s => issueVor v q d a b s) s

def execVxor (q : BitVec 1) (g : BitVec 3) (d : BitVec 5) (a : BitVec 5) (b : BitVec 5) (s : State) : Host.Outcome State Fault Refusal :=
  runSlot 1 0 g (.vxor q g d a b) (fun v s => issueVxor v q d a b s) s

def execVshl (q : BitVec 1) (g : BitVec 3) (d : BitVec 5) (a : BitVec 5) (b : BitVec 5) (s : State) : Host.Outcome State Fault Refusal :=
  runSlot 1 0 g (.vshl q g d a b) (fun v s => issueVshl v q d a b s) s

def execVshr (q : BitVec 1) (g : BitVec 3) (d : BitVec 5) (a : BitVec 5) (b : BitVec 5) (s : State) : Host.Outcome State Fault Refusal :=
  runSlot 1 0 g (.vshr q g d a b) (fun v s => issueVshr v q d a b s) s

def execVsar (q : BitVec 1) (g : BitVec 3) (d : BitVec 5) (a : BitVec 5) (b : BitVec 5) (s : State) : Host.Outcome State Fault Refusal :=
  runSlot 1 0 g (.vsar q g d a b) (fun v s => issueVsar v q d a b s) s

def execVadds (q : BitVec 1) (g : BitVec 3) (d : BitVec 5) (a : BitVec 5) (r0 : BitVec 6) (m : BitVec 5) (s : State) : Host.Outcome State Fault Refusal :=
  runSlot 1 0 g (.vadds q g d a r0 m) (fun v s => issueVadds v q d a r0 m s) s

def execVmuls (q : BitVec 1) (g : BitVec 3) (d : BitVec 5) (a : BitVec 5) (r0 : BitVec 6) (m : BitVec 5) (s : State) : Host.Outcome State Fault Refusal :=
  runSlot 1 0 g (.vmuls q g d a r0 m) (fun v s => issueVmuls v q d a r0 m s) s

def execVli (q : BitVec 1) (g : BitVec 3) (d : BitVec 5) (i : BitVec 11) (s : State) : Host.Outcome State Fault Refusal :=
  runSlot 1 0 g (.vli q g d i) (fun v s => issueVli v q d i s) s

def execVfadd (q : BitVec 1) (g : BitVec 3) (d : BitVec 5) (a : BitVec 5) (b : BitVec 5) (s : State) : Host.Outcome State Fault Refusal :=
  runSlot 1 0 g (.vfadd q g d a b) (fun v s => issueVfadd v q d a b s) s

def execVfsub (q : BitVec 1) (g : BitVec 3) (d : BitVec 5) (a : BitVec 5) (b : BitVec 5) (s : State) : Host.Outcome State Fault Refusal :=
  runSlot 1 0 g (.vfsub q g d a b) (fun v s => issueVfsub v q d a b s) s

def execVfmul (q : BitVec 1) (g : BitVec 3) (d : BitVec 5) (a : BitVec 5) (b : BitVec 5) (s : State) : Host.Outcome State Fault Refusal :=
  runSlot 1 0 g (.vfmul q g d a b) (fun v s => issueVfmul v q d a b s) s

def execVfma (q : BitVec 1) (g : BitVec 3) (d : BitVec 5) (a : BitVec 5) (b : BitVec 5) (c : BitVec 5) (m : BitVec 1) (s : State) : Host.Outcome State Fault Refusal :=
  runSlot 1 0 g (.vfma q g d a b c m) (fun v s => issueVfma v q d a b c m s) s

def execVfmin (q : BitVec 1) (g : BitVec 3) (d : BitVec 5) (a : BitVec 5) (b : BitVec 5) (m : BitVec 6) (s : State) : Host.Outcome State Fault Refusal :=
  runSlot 1 0 g (.vfmin q g d a b m) (fun v s => issueVfmin v q d a b m s) s

def execVfmax (q : BitVec 1) (g : BitVec 3) (d : BitVec 5) (a : BitVec 5) (b : BitVec 5) (m : BitVec 6) (s : State) : Host.Outcome State Fault Refusal :=
  runSlot 1 0 g (.vfmax q g d a b m) (fun v s => issueVfmax v q d a b m s) s

def execVfrcp (q : BitVec 1) (g : BitVec 3) (d : BitVec 5) (a : BitVec 5) (s : State) : Host.Outcome State Fault Refusal :=
  runSlot 1 0 g (.vfrcp q g d a) (fun v s => issueVfrcp v q d a s) s

def execVfrsq (q : BitVec 1) (g : BitVec 3) (d : BitVec 5) (a : BitVec 5) (s : State) : Host.Outcome State Fault Refusal :=
  runSlot 1 0 g (.vfrsq q g d a) (fun v s => issueVfrsq v q d a s) s

def execVfexp2 (q : BitVec 1) (g : BitVec 3) (d : BitVec 5) (a : BitVec 5) (s : State) : Host.Outcome State Fault Refusal :=
  runSlot 1 0 g (.vfexp2 q g d a) (fun v s => issueVfexp2 v q d a s) s

def execVflog2 (q : BitVec 1) (g : BitVec 3) (d : BitVec 5) (a : BitVec 5) (s : State) : Host.Outcome State Fault Refusal :=
  runSlot 1 0 g (.vflog2 q g d a) (fun v s => issueVflog2 v q d a s) s

def execVcvt (q : BitVec 1) (g : BitVec 3) (d : BitVec 5) (a : BitVec 5) (m : BitVec 6) (s : State) : Host.Outcome State Fault Refusal :=
  runSlot 1 0 g (.vcvt q g d a m) (fun v s => issueVcvt v q d a m s) s

def execVfclass (q : BitVec 1) (g : BitVec 3) (d : BitVec 5) (a : BitVec 5) (m : BitVec 6) (s : State) : Host.Outcome State Fault Refusal :=
  runSlot 1 0 g (.vfclass q g d a m) (fun v s => issueVfclass v q d a m s) s

def execVdadd (q : BitVec 1) (g : BitVec 3) (d : BitVec 5) (a : BitVec 5) (b : BitVec 5) (m : BitVec 6) (s : State) : Host.Outcome State Fault Refusal :=
  runSlot 1 0 g (.vdadd q g d a b m) (fun v s => issueVdadd v q d a b m s) s

def execVdmul (q : BitVec 1) (g : BitVec 3) (d : BitVec 5) (a : BitVec 5) (b : BitVec 5) (s : State) : Host.Outcome State Fault Refusal :=
  runSlot 1 0 g (.vdmul q g d a b) (fun v s => issueVdmul v q d a b s) s

def execVdmax (q : BitVec 1) (g : BitVec 3) (d : BitVec 5) (a : BitVec 5) (b : BitVec 5) (m : BitVec 6) (s : State) : Host.Outcome State Fault Refusal :=
  runSlot 1 0 g (.vdmax q g d a b m) (fun v s => issueVdmax v q d a b m s) s

def execVdcvt (q : BitVec 1) (g : BitVec 3) (d : BitVec 5) (a : BitVec 5) (m : BitVec 3) (s : State) : Host.Outcome State Fault Refusal :=
  runSlot 1 0 g (.vdcvt q g d a m) (fun v s => issueVdcvt v q d a m s) s

def execVdscl (q : BitVec 1) (g : BitVec 3) (d : BitVec 5) (a : BitVec 5) (r0 : BitVec 6) (s : State) : Host.Outcome State Fault Refusal :=
  runSlot 1 0 g (.vdscl q g d a r0) (fun v s => issueVdscl v q d a r0 s) s

def execVperm (q : BitVec 1) (g : BitVec 3) (d : BitVec 5) (a : BitVec 5) (b : BitVec 5) (m : BitVec 6) (s : State) : Host.Outcome State Fault Refusal :=
  runSlot 1 0 g (.vperm q g d a b m) (fun v s => issueVperm v q d a b m s) s

def execVnib (q : BitVec 1) (g : BitVec 3) (d : BitVec 5) (a : BitVec 5) (m : BitVec 5) (s : State) : Host.Outcome State Fault Refusal :=
  runSlot 1 0 g (.vnib q g d a m) (fun v s => issueVnib v q d a m s) s

def execVshuf (q : BitVec 1) (g : BitVec 3) (d : BitVec 5) (a : BitVec 5) (b : BitVec 5) (m : BitVec 6) (s : State) : Host.Outcome State Fault Refusal :=
  runSlot 1 0 g (.vshuf q g d a b m) (fun v s => issueVshuf v q d a b m s) s

def execVbcast (q : BitVec 1) (g : BitVec 3) (d : BitVec 5) (r0 : BitVec 6) (m : BitVec 5) (s : State) : Host.Outcome State Fault Refusal :=
  runSlot 1 0 g (.vbcast q g d r0 m) (fun v s => issueVbcast v q d r0 m s) s

def execVmovs (q : BitVec 1) (g : BitVec 3) (d : BitVec 6) (a : BitVec 5) (l : BitVec 6) (m : BitVec 4) (s : State) : Host.Outcome State Fault Refusal :=
  runSlot 1 0 g (.vmovs q g d a l m) (fun v s => issueVmovs v q d a l m s) s

def execVins (q : BitVec 1) (g : BitVec 3) (d : BitVec 5) (a : BitVec 5) (r0 : BitVec 6) (m : BitVec 5) (s : State) : Host.Outcome State Fault Refusal :=
  runSlot 1 0 g (.vins q g d a r0 m) (fun v s => issueVins v q d a r0 m s) s

def execViota (q : BitVec 1) (g : BitVec 3) (d : BitVec 5) (m : BitVec 6) (s : State) : Host.Outcome State Fault Refusal :=
  runSlot 1 0 g (.viota q g d m) (fun v s => issueViota v q d m s) s

def execVmov (q : BitVec 1) (g : BitVec 3) (d : BitVec 5) (a : BitVec 5) (s : State) : Host.Outcome State Fault Refusal :=
  runSlot 1 0 g (.vmov q g d a) (fun v s => issueVmov v q d a s) s

def execVred (q : BitVec 1) (g : BitVec 3) (d : BitVec 5) (a : BitVec 5) (m : BitVec 6) (s : State) : Host.Outcome State Fault Refusal :=
  runSlot 1 0 g (.vred q g d a m) (fun v s => issueVred v q d a m s) s

def execVscan (q : BitVec 1) (g : BitVec 3) (d : BitVec 5) (a : BitVec 5) (m : BitVec 6) (s : State) : Host.Outcome State Fault Refusal :=
  runSlot 1 0 g (.vscan q g d a m) (fun v s => issueVscan v q d a m s) s

def execVcmp (q : BitVec 1) (g : BitVec 3) (p : BitVec 7) (a : BitVec 5) (b : BitVec 5) (c : BitVec 4) (s : State) : Host.Outcome State Fault Refusal :=
  runSlot 1 0 g (.vcmp q g p a b c) (fun v s => issueVcmp v q p a b c s) s

def execVfcmp (q : BitVec 1) (g : BitVec 3) (p : BitVec 7) (a : BitVec 5) (b : BitVec 5) (c : BitVec 4) (s : State) : Host.Outcome State Fault Refusal :=
  runSlot 1 0 g (.vfcmp q g p a b c) (fun v s => issueVfcmp v q p a b c s) s

def execPand (q : BitVec 1) (g : BitVec 3) (p : BitVec 7) (a : BitVec 7) (b : BitVec 7) (s : State) : Host.Outcome State Fault Refusal :=
  runSlot 1 0 g (.pand q g p a b) (fun v s => issuePand v q p a b s) s

def execPor (q : BitVec 1) (g : BitVec 3) (p : BitVec 7) (a : BitVec 7) (b : BitVec 7) (s : State) : Host.Outcome State Fault Refusal :=
  runSlot 1 0 g (.por q g p a b) (fun v s => issuePor v q p a b s) s

def execPxor (q : BitVec 1) (g : BitVec 3) (p : BitVec 7) (a : BitVec 7) (b : BitVec 7) (s : State) : Host.Outcome State Fault Refusal :=
  runSlot 1 0 g (.pxor q g p a b) (fun v s => issuePxor v q p a b s) s

def execPandn (q : BitVec 1) (g : BitVec 3) (p : BitVec 7) (a : BitVec 7) (b : BitVec 7) (s : State) : Host.Outcome State Fault Refusal :=
  runSlot 1 0 g (.pandn q g p a b) (fun v s => issuePandn v q p a b s) s

def execPcnt (q : BitVec 1) (g : BitVec 3) (d : BitVec 6) (a : BitVec 7) (m : BitVec 8) (s : State) : Host.Outcome State Fault Refusal :=
  runSlot 1 0 g (.pcnt q g d a m) (fun v s => issuePcnt v q d a m s) s

def execVqdeq (q : BitVec 1) (g : BitVec 3) (d : BitVec 5) (a : BitVec 5) (b : BitVec 5) (m : BitVec 2) (s : State) : Host.Outcome State Fault Refusal :=
  runSlot 1 0 g (.vqdeq q g d a b m) (fun v s => issueVqdeq v q d a b m s) s

def execVqnt (q : BitVec 1) (g : BitVec 3) (d : BitVec 5) (a : BitVec 5) (b : BitVec 5) (m : BitVec 2) (s : State) : Host.Outcome State Fault Refusal :=
  runSlot 1 0 g (.vqnt q g d a b m) (fun v s => issueVqnt v q d a b m s) s

def execVrng (q : BitVec 1) (g : BitVec 3) (d : BitVec 5) (a : BitVec 5) (b : BitVec 5) (m : BitVec 6) (s : State) : Host.Outcome State Fault Refusal :=
  runSlot 1 0 g (.vrng q g d a b m) (fun v s => issueVrng v q d a b m s) s

/-- VNOP (R84). -/
def execVnop (s : State) : Host.Outcome State Fault Refusal :=
  runNop 0 s

end Sys2Proof.Machine
end

