-- ==== Sys2Proof/Machine/ExecX.lean ====
section
/-!
DEFINITION. The meaning of every X-class operation: one bundle holding it alone (chapters 8 to 10).
-/
set_option Elab.async false
namespace Sys2Proof.Machine

def execMcall (g : BitVec 3) (r : BitVec 7) (a : BitVec 2) (s : State) : Host.Outcome State Fault Refusal :=
  runSlot 2 0 g (.mcall g r a) (fun v s => issueMcall v r a s) s

def execBch (g : BitVec 3) (a : BitVec 3) (s : State) : Host.Outcome State Fault Refusal :=
  runSlot 2 0 g (.bch g a) (fun v s => issueBch v a s) s

def execEch (g : BitVec 3) (a : BitVec 3) (s : State) : Host.Outcome State Fault Refusal :=
  runSlot 2 0 g (.ech g a) (fun v s => issueEch v a s) s

def execMdrain (g : BitVec 3) (a : BitVec 3) (t : BitVec 5) (n : BitVec 5) (m : BitVec 5) (s : State) : Host.Outcome State Fault Refusal :=
  runSlot 2 0 g (.mdrain g a t n m) (fun v s => issueMdrain v a t n m s) s

def execMzero (g : BitVec 3) (a : BitVec 3) (s : State) : Host.Outcome State Fault Refusal :=
  runSlot 2 0 g (.mzero g a) (fun v s => issueMzero v a s) s

def execMspill (g : BitVec 3) (a : BitVec 3) (t : BitVec 5) (h : BitVec 1) (s : State) : Host.Outcome State Fault Refusal :=
  runSlot 2 0 g (.mspill g a t h) (fun v s => issueMspill v a t h s) s

def execMfill (g : BitVec 3) (a : BitVec 3) (t : BitVec 5) (h : BitVec 1) (s : State) : Host.Outcome State Fault Refusal :=
  runSlot 2 0 g (.mfill g a t h) (fun v s => issueMfill v a t h s) s

def execMpwr (g : BitVec 3) (t : BitVec 5) (s : State) : Host.Outcome State Fault Refusal :=
  runSlot 2 0 g (.mpwr g t) (fun v s => issueMpwr v t s) s

def execMpwrTab (g : BitVec 3) (t : BitVec 5) (s : State) : Host.Outcome State Fault Refusal :=
  runSlot 2 0 g (.mpwrTab g t) (fun v s => issueMpwrTab v t s) s

def execMprd (g : BitVec 3) (t : BitVec 5) (s : State) : Host.Outcome State Fault Refusal :=
  runSlot 2 0 g (.mprd g t) (fun v s => issueMprd v t s) s

def execMprdTab (g : BitVec 3) (t : BitVec 5) (s : State) : Host.Outcome State Fault Refusal :=
  runSlot 2 0 g (.mprdTab g t) (fun v s => issueMprdTab v t s) s

def execTzero (g : BitVec 3) (d : BitVec 5) (m : BitVec 6) (s : State) : Host.Outcome State Fault Refusal :=
  runSlot 2 0 g (.tzero g d m) (fun v s => issueTzero v d m s) s

def execTcopy (g : BitVec 3) (d : BitVec 5) (a : BitVec 5) (s : State) : Host.Outcome State Fault Refusal :=
  runSlot 2 0 g (.tcopy g d a) (fun v s => issueTcopy v d a s) s

def execTv2t (g : BitVec 3) (d : BitVec 5) (a : BitVec 5) (i : BitVec 5) (s : State) : Host.Outcome State Fault Refusal :=
  runSlot 2 0 g (.tv2t g d a i) (fun v s => issueTv2t v d a i s) s

def execTt2v (g : BitVec 3) (d : BitVec 5) (a : BitVec 5) (i : BitVec 5) (s : State) : Host.Outcome State Fault Refusal :=
  runSlot 2 0 g (.tt2v g d a i) (fun v s => issueTt2v v d a i s) s

def execCkleaf (g : BitVec 3) (t : BitVec 5) (r : BitVec 5) (c : BitVec 5) (s : State) : Host.Outcome State Fault Refusal :=
  runSlot 2 0 g (.ckleaf g t r c) (fun v s => issueCkleaf v t r c s) s

def execCknode (g : BitVec 3) (t : BitVec 5) (r : BitVec 5) (c : BitVec 5) (s : State) : Host.Outcome State Fault Refusal :=
  runSlot 2 0 g (.cknode g t r c) (fun v s => issueCknode v t r c s) s

def execCkback (g : BitVec 3) (t : BitVec 5) (r : BitVec 5) (c : BitVec 5) (s : State) : Host.Outcome State Fault Refusal :=
  runSlot 2 0 g (.ckback g t r c) (fun v s => issueCkback v t r c s) s

def execCkdiv (g : BitVec 3) (t : BitVec 5) (r : BitVec 5) (d : BitVec 6) (s : State) : Host.Outcome State Fault Refusal :=
  runSlot 2 0 g (.ckdiv g t r d) (fun v s => issueCkdiv v t r d s) s

def execCksamp (g : BitVec 3) (t : BitVec 5) (r : BitVec 5) (c : BitVec 5) (s : State) : Host.Outcome State Fault Refusal :=
  runSlot 2 0 g (.cksamp g t r c) (fun v s => issueCksamp v t r c s) s

def execIxwalk (g : BitVec 3) (d : BitVec 5) (a : BitVec 5) (b : BitVec 5) (s : State) : Host.Outcome State Fault Refusal :=
  runSlot 2 0 g (.ixwalk g d a b) (fun v s => issueIxwalk v d a b s) s

def execIxsplit (g : BitVec 3) (d : BitVec 5) (a : BitVec 5) (p : BitVec 6) (s : State) : Host.Outcome State Fault Refusal :=
  runSlot 2 0 g (.ixsplit g d a p) (fun v s => issueIxsplit v d a p s) s

def execAsort (g : BitVec 3) (d : BitVec 5) (a : BitVec 5) (b : BitVec 5) (m : BitVec 6) (s : State) : Host.Outcome State Fault Refusal :=
  runSlot 2 0 g (.asort g d a b m) (fun v s => issueAsort v d a b m s) s

def execAmrg (g : BitVec 3) (k : BitVec 2) (t : BitVec 5) (r0 : BitVec 6) (s : State) : Host.Outcome State Fault Refusal :=
  runSlot 2 0 g (.amrg g k t r0) (fun v s => issueAmrg v k t r0 s) s

def execCread (g : BitVec 3) (k : BitVec 2) (t : BitVec 5) (r0 : BitVec 6) (s : State) : Host.Outcome State Fault Refusal :=
  runSlot 2 0 g (.cread g k t r0) (fun v s => issueCread v k t r0 s) s

def execCclr (g : BitVec 3) (k : BitVec 2) (m : BitVec 2) (s : State) : Host.Outcome State Fault Refusal :=
  runSlot 2 0 g (.cclr g k m) (fun v s => issueCclr v k m s) s

def execCsamp (g : BitVec 3) (k : BitVec 2) (r0 : BitVec 6) (s : State) : Host.Outcome State Fault Refusal :=
  runSlot 2 0 g (.csamp g k r0) (fun v s => issueCsamp v k r0 s) s

def execClpush (g : BitVec 3) (a : BitVec 5) (n : BitVec 4) (s : State) : Host.Outcome State Fault Refusal :=
  runSlot 2 0 g (.clpush g a n) (fun v s => issueClpush v a n s) s

def execClpull (g : BitVec 3) (d : BitVec 5) (s : State) : Host.Outcome State Fault Refusal :=
  runSlot 2 0 g (.clpull g d) (fun v s => issueClpull v d s) s

def execClseal (g : BitVec 3) (n : BitVec 4) (s : State) : Host.Outcome State Fault Refusal :=
  runSlot 2 0 g (.clseal g n) (fun v s => issueClseal v n s) s

def execClcfg (g : BitVec 3) (a : BitVec 5) (s : State) : Host.Outcome State Fault Refusal :=
  runSlot 2 0 g (.clcfg g a) (fun v s => issueClcfg v a s) s

def execClcfgEnd (g : BitVec 3) (s : State) : Host.Outcome State Fault Refusal :=
  runSlot 2 0 g (.clcfgEnd g) (fun v s => issueClcfgEnd v s) s

/-- XNOP (R84). -/
def execXnop (s : State) : Host.Outcome State Fault Refusal :=
  runNop 0 s

end Sys2Proof.Machine
end

