-- ==== Sys2Proof/Machine/MintLoop.lean ====
section
/-!
DEFINITION. The Mint (chapter 17): loading a set, its buckets and its schedules, the iteration boundary (R379, R380), sending rows
to the stream contexts (R60 to R64, R377, R387), and mailbox sends (R386).
-/
set_option Elab.async false
namespace Sys2Proof.Machine

def State.modMint (s : State) (d : Nat) (f : Mint → Mint) : State := s.modDie d fun x => { x with mint := x.mint.map f }
def Mint.req (m : Mint) (r : Nat) : MintReq := tget MintReq.initial m.reqs r
def Mint.slot (m : Mint) (r : Nat) : Memory := tget [] m.drafts r
def Mint.active (m : Mint) : List Nat := (List.range 8).filter fun r => (m.req r).active

/-! ## The boundary (R379, R380) -/

/-- STATUS of a draft slot. -/
def Mint.setStatus (m : Mint) (r x : Nat) : Mint :=
  { m with drafts := tset m.drafts r (writeBytes (m.slot r) 16 (leBytes 8 x)) }

/-- A request leaves: its pages return to the pool and its slot shows why. -/
def Mint.leave (m : Mint) (r status : Nat) : Mint :=
  { m with pool := m.pool ++ (m.req r).pages, reqs := tset m.reqs r { m.req r with active := false, pages := [] } }.setStatus r status

/-- The drafted length of a request: 0 unless its draft is for this iteration (R384). -/
def Mint.draftLen (m : Mint) (r : Nat) : Nat :=
  let len := (readByte (m.slot r) 8).toNat
  if readDw (m.slot r) 0 = m.iter.setWidth 64 ∧ len ≤ 15 then len else 0

/-- Pages a request lacks for draft length `d`. -/
def Mint.lacks (m : Mint) (d r : Nat) : Nat := ceilDiv ((m.req r).tokens + d + 1) m.tpp - (m.req r).pages.length

/-- Pages given to a request from the head of the pool, and its page list. -/
def Mint.give (m : Mint) (d r : Nat) : Mint :=
  let n := m.lacks d r
  let pages := (m.req r).pages ++ m.pool.take n
  let m := { m with pool := m.pool.drop n, reqs := tset m.reqs r { m.req r with pages := pages } }
  { m with drafts := tset m.drafts r (writeBytes (m.slot r) 2048 ((pages.take 512).flatMap (leBytes 4))) }.setStatus r 0

def bucketValid (e : W64) : Bool := bit e 31

/-- The bucket of occupancy `occ` and draft length `d`. -/
def Mint.bucket (m : Mint) (occ d : Nat) : W64 := tget 0 m.table (16 * occ + d)

/-- The iteration of bucket `(occ, d)` starts: `dr` is the draft length before shrinking. -/
def Mint.start (m : Mint) (act : List Nat) (dr d : Nat) : Mint :=
  let occ := act.length
  let e := m.bucket occ d
  let m := act.foldl (fun m r => m.give d r) m
  { m with occ := occ, act := BitVec.ofNat 8 (act.foldl (fun n r => n + 2 ^ r) 0), draft := dr, bucketOcc := occ, bucketD := d,
           shrunk := decide (d < dr), evict := m.evicting, bucketIter := m.iter, waiting := false, row := (bits e 0 15).toNat,
           first := (bits e 0 15).toNat, rowsLeft := (bits e 16 15).toNat + 1, late := 0, running := true }

/-- The request of lowest priority; on ties, the highest slot number. -/
def Mint.lowest (m : Mint) (act : List Nat) : Nat :=
  act.foldl (fun b r => if (m.req r).prio ≤ (m.req b).prio then r else b) (act.headD 0)

/-- The search of R379: a bucket runs, or the lowest request leaves and the search starts again; at most eight leave. With no
request left it waits for an admission. -/
def Mint.search : Nat → Mint → Mint
  | 0, m => m
  | n + 1, m =>
    let act := m.active
    if act.isEmpty then { m with waiting := true }
    else
      let dr := act.foldl (fun x r => min x (m.draftLen r)) 15
      let fits (d : Nat) : Bool := bucketValid (m.bucket act.length d) && decide ((act.map (m.lacks d)).sum ≤ m.pool.length)
      match greatestBelow fits (dr + 1) with
      | some d => m.start act dr d
      | none => Mint.search n { m.leave (m.lowest act) 2 with evicting := true }

/-- What ends an iteration: accepted tokens count, surplus pages return, ITER rises (R380). -/
def Mint.finish (m : Mint) : Mint :=
  let m := ((List.range 8).filter (bit m.act)).foldl (fun m r =>
    let q := m.req r
    let t := q.tokens + min (tget 0 m.accept r).toNat (m.bucketD + 1)
    let keep := ceilDiv t m.tpp
    { m with reqs := tset m.reqs r { q with tokens := t, pages := q.pages.take keep }, pool := m.pool ++ q.pages.drop keep }) m
  { m with iter := m.iter + 1, running := false }

/-- Retirements, then the search; a boundary that waited for an admission goes on with the search. -/
def Mint.boundary (m : Mint) : Mint :=
  Mint.search 9 (if m.waiting then m
    else { m.active.foldl (fun m r => if readByte (m.slot r) 24 = 1 then m.leave r 1 else m) m with evicting := false })

/-- Every member's stream context is in place, with its banks and units (R181, R324, R387). -/
def mintReady (s : State) (m : Mint) : Bool :=
  m.members.all fun g => (s.ctx g).stream && (s.ctx g).run.placed && refillReady s g

/-- The members that stand in hardware contexts: not a saved one, nor one that has exited (R387). -/
def Mint.resident (m : Mint) (s : State) : List Nat := m.members.filter fun g => decide (g < 16384) && (s.ctx g).stream && (s.ctx g).run.placed

/-- MINT_ITERATION_BOUNDARY: the iteration that ran ends; a pre-emption of the set is taken here, of every member at once; otherwise
the next iteration is chosen once every member is in place. -/
def execMintIterationBoundary (die : Fin 64) (s : State) : Host.Outcome State Fault Refusal :=
  let d := die.val
  match (s.die d).mint with
  | none => .next s
  | some m =>
    if m.stopped || m.busy then .next s
    else
      let m := if m.running then m.finish else m
      let s := s.modMint d fun _ => m
      if (m.resident s).any fun g => (s.ctx g).preempt then
        .next (s.each (m.resident s) fun g s => elsewhere g (stopForSave g) s)
      else if !mintReady s m then .next s
      else .next (s.modMint d fun _ => m.boundary)

/-! ## Sending rows (R377, R61 to R64, R387) -/

/-- The row that a member executes in the next cycle: level 1 the one being sent, lower levels one sent earlier (R61, R377). -/
def Mint.rowOf (m : Mint) (g : Nat) : Option (BitVec 128) :=
  let i := m.row + m.late
  if m.first + levelLag g ≤ i ∧ i < m.row + m.rowsLeft + levelLag g then some (tget 0 m.rows (i - levelLag g)) else none

/-- Every member that executes a row in the next cycle, with the row. -/
def Mint.cycle (m : Mint) : List (Nat × BitVec 128) := m.members.filterMap fun g => (m.rowOf g).map (g, ·)

/-- The Mint after a cycle. -/
def Mint.advance (m : Mint) : Mint :=
  if m.rowsLeft = 0 then { m with late := m.late + 1 } else { m with row := m.row + 1, rowsLeft := m.rowsLeft - 1 }

/-- A member's boundary before a row: what comes first there (R429), but for a pre-emption, which waits for the iteration's end (R387). -/
def memberEvent (g : Nat) (s : State) : Option State := boundaryEvent g (s.modCtx g fun c => { c with preempt := false })

/-- A member and its row: an event of its boundary acts as a fault of the bundle (R387, R438). -/
def memberRow (s : State) (x : Nat × BitVec 128) : State :=
  elsewhere x.1 (fun s => match memberEvent x.1 s with
    | some t => t
    | none => if heldByVault s x.1 then spendTime x.1 s else issueBundle x.1 x.2 (passBar x.1 s)) s

/-- What became of a row in one member. -/
def rowCommitted (g : Nat) (s s' : State) : Bool := (s'.ctx g).bundles != (s.ctx g).bundles
def rowFroze (g : Nat) (s' : State) : Bool := (s'.ctx g).run.isFrozen

/-- The set has stopped (R387). -/
def mintStopped (s : State) (d : Nat) : Bool := ((s.die d).mint.map (·.stopped)).getD true

/-- One cycle of the tree: members that do not fault execute their rows; each that faults reports its own cause, and then the set stops,
the others reporting 0x0C (R387). -/
def rowCycle (d : Nat) (xs : List (Nat × BitVec 128)) (s : State) : State :=
  let faults (x : Nat × BitVec 128) : Bool := rowFroze x.1 (memberRow s x)
  let s' := (xs.filter fun x => !faults x).foldl memberRow s
  let bad := xs.filter faults
  if bad.isEmpty then s'
  else
    let ms := ((s.die d).mint.map (·.members)).getD []
    let alone (s : State) (x : Nat × BitVec 128) : State := memberRow (s.modMint d fun m => { m with members := [x.1] }) x
    stopMint d 16384 0x0C 0 ((bad.foldl alone s').modMint d fun m => { m with members := ms })

/-- The state in which every level has executed every row sent before the next one. -/
def caughtUp (d : Nat) (m : Mint) (s : State) : State :=
  (List.range m.span).foldl (fun s i => if mintStopped s d then s else rowCycle d { m with rowsLeft := 0, late := i }.cycle s) s

/-- A member would block at a bundle. -/
def memberBlocks (s : State) (x : Nat × BitVec 128) : Bool :=
  (memberEvent x.1 s).isNone && (held s x.1 || bundleBlocks x.1 x.2 s)

/-- A member would block at a row that has been sent already: something has changed since (log 37). -/
def wayBlocks (m : Mint) (s : State) : Bool := m.cycle.any fun x => (m.rowsLeft == 0 || levelLag x.1 != 0) && memberBlocks s x

/-- A member would block at the row to be sent next: level 1 now, or any once the rows before it have been executed. -/
def rowBlocks (d : Nat) (m : Mint) (s : State) : Bool :=
  m.rowsLeft != 0 && (m.cycle.any (fun x => levelLag x.1 == 0 && memberBlocks s x) ||
    let t := caughtUp d m s
    !mintStopped t d && m.members.any fun g => memberBlocks t (g, tget 0 m.rows m.row))

/-- The set must hold (R64). -/
def setBlocks (d : Nat) (m : Mint) (s : State) : Bool := wayBlocks m s || rowBlocks d m s

/-- The set holds. Nothing more is sent and the lower levels execute what is on its way to them, so that every member stands at the same
bundle, the next row; from it the offsets start again (R61, R64). -/
def holdSet (d : Nat) (m : Mint) (s : State) : State :=
  if m.rowsLeft = 0 ∨ wayBlocks m s then s.modMint d fun m => { m with hold := true }
  else
    let t := caughtUp d m s
    if mintStopped t d then t else t.modMint d fun m => { m with hold := true, first := m.row }

/-- A member that stalls in place on a row: its engines work first. -/
def setStalls (xs : List (Nat × BitVec 128)) (s : State) : Option State :=
  xs.findSome? fun x =>
    let s' := memberRow s x
    if rowCommitted x.1 s s' || rowFroze x.1 s' then none else some s'

/-- MINT_ROW_SEND: one cycle of the tree: the next row of the iteration is sent, and each level executes the row that has reached it;
after the last one, the rows still on their way. Where a member would block, or after the effects of the others would not commit, the set
holds. -/
def execMintRowSend (die : Fin 64) (s : State) : Host.Outcome State Fault Refusal :=
  let d := die.val
  match (s.die d).mint with
  | none => .next s
  | some m =>
    if m.stopped || !m.busy || m.hold || !mintReady s m then .next s
    else
      let s := s.each m.members takeRefills
      if setBlocks d m s then .next (holdSet d m s)
      else match setStalls m.cycle s with
        | some s => .next s
        | none =>
          let s' := rowCycle d m.cycle s
          if mintStopped s' d then .next s'
          else if m.cycle.all fun x => rowCommitted x.1 s s' then .next (s'.modMint d Mint.advance)
          else .next (holdSet d m s)

/-- STREAM_HOLD_RELEASE (R64): no member would block any more. -/
def execStreamHoldRelease (die : Fin 64) (s : State) : Host.Outcome State Fault Refusal :=
  match (s.die die.val).mint with
  | none => .next s
  | some m => .next (if m.hold && !setBlocks die.val m s then s.modMint die.val fun m => { m with hold := false } else s)

/-! ## Loading (R60, R376, R378) -/

/-- The context of a core that a set of a task binds: one of the task's, as the part chooses (log 6). -/
def streamOf (s : State) (launch core : Nat) : Option Nat :=
  let l := ([0, 1, 2, 3].map fun i => 4 * core + i).filter fun g => (s.ctx g).launch == launch && (s.ctx g).run.placed
  l[(Config.streamContext core).val % l.length]?

/-- MINT_SET_LOAD (R376, R379): cores of the die's clusters of the task's partition, the KV pool, and TPP from 1 to 4,096; not of a Mint
that an error has closed (R443). What general cores wrote to the request table and the draft slots before stays. -/
def execMintSetLoad (s : State) : Host.Outcome State Fault Refusal :=
  match s.request with
  | .mintSetLoad die launch cores pool tpp =>
    match tfind s.launches launch with
    | none => .next s
    | some l =>
      let gs := cores.map (streamOf s launch)
      if (s.die die.val).mint.isSome || (s.die die.val).mintClosed || tpp < 1 || 4096 < tpp || gs.any (·.isNone)
          || cores.any (fun k => k / 64 != die.val || (s.cluster (k / 8)).part != some l.part) then .next s
      else
        let gs := gs.filterMap id
        let m : Mint := { launch := launch, members := gs, table := [], rows := [], row := 0, rowsLeft := 0, first := 0, late := 0, hold := false,
                          stopped := false, pool := pool, tpp := tpp, reqs := (s.die die.val).reqs, accept := [], drafts := (s.die die.val).drafts, occ := 0, act := 0,
                          draft := 0, bucketOcc := 0, bucketD := 0, shrunk := false, evict := false,
                          bucketIter := 0, iter := 0, running := false, waiting := false, evicting := false }
        .next ((s.each gs fun g s => s.modCtx g fun c => { c with stream := true }).modDie die.val fun x => { x with mint := some m })
  | _ => .next s

/-- An entry the runtime refuses to load (R378). -/
def bucketBad (e : W64) : Bool :=
  bit e 15 || bits e 32 32 != 0 || decide (32767 < (bits e 0 15).toNat + (bits e 16 15).toNat)

/-- BUCKET_TABLE_LOAD (R378). -/
def execBucketTableLoad (s : State) : Host.Outcome State Fault Refusal :=
  match s.request with
  | .bucketTableLoad die table rows =>
    match (s.die die.val).mint with
    | none => .next s
    | some m =>
      .next (if m.running || table.any bucketBad || decide (144 < table.length) || decide (32768 < rows.length) then s
        else s.modMint die.val fun m => { m with table := table.zipIdx.map fun e => (e.2, e.1)
                                                 rows := rows.zipIdx.map fun e => (e.2, e.1) })
  | _ => .next s

/-- MICROSTORE_IMAGE_LOAD (R189, R388, R404): into every array of a cluster of the task's partition, where no other task needs the image it
holds. -/
def execMicrostoreImageLoad (s : State) : Host.Outcome State Fault Refusal :=
  match s.request with
  | .microstoreImageLoad cl task words entries =>
    .next (if !s.released || (tfind s.launches task).isNone || (tfind s.launches task).map (·.part) != (s.cluster cl.val).part then s
      else if (s.cluster cl.val).image != some task && s.groups.any (fun x => x.2.cluster == cl.val && !x.2.done
          && some x.2.launch == (s.cluster cl.val).image) then s
      else loadImage cl.val task words entries s)
  | _ => .next s

/-- MAILBOX_SEQ_WRITE (R386): a task context stores SEQ of its mailbox `m`; a store outside its rights freezes it. -/
def execMailboxSeqWrite (s : State) : Host.Outcome State Fault Refusal :=
  match s.request with
  | .mailboxSeqWrite ctx m val =>
    let g := ctx.val
    let off := 0x4000 + 0x400 * m.val
    .next (if !(s.ctx g).run.placed then s
      else if mintReadOk s g off && mintStoreOk s g off 8 0 then mintStore g off (leBytes 8 val.toNat) s
      else elsewhere g (takeTrap g 0x05 (BitVec.ofNat 64 (0x01FF000200000000 + off)) (slotMask [3])) s)
  | _ => .next s

end Sys2Proof.Machine
end

