-- ==== Sys2Proof/Machine/Dispatch.lean ====
section
/-!
DEFINITION. The meaning of every row of the opcode table, one arm a constructor.
-/
namespace Sys2Proof.Machine

def exec (i : Instr) (s : State) : Host.Outcome State Fault Refusal :=
  match i with
  | .nop e => Sys2Proof.Machine.execNop e s
  | .add e g d a b f => Sys2Proof.Machine.execAdd e g d a b f s
  | .sub e g d a b f => Sys2Proof.Machine.execSub e g d a b f s
  | .and e g d a b => Sys2Proof.Machine.execAnd e g d a b s
  | .or e g d a b => Sys2Proof.Machine.execOr e g d a b s
  | .xor e g d a b => Sys2Proof.Machine.execXor e g d a b s
  | .andn e g d a b => Sys2Proof.Machine.execAndn e g d a b s
  | .shl e g d a b f => Sys2Proof.Machine.execShl e g d a b f s
  | .shr e g d a b f => Sys2Proof.Machine.execShr e g d a b f s
  | .sar e g d a b f => Sys2Proof.Machine.execSar e g d a b f s
  | .rot e g d a b f => Sys2Proof.Machine.execRot e g d a b f s
  | .mul e g d a b f => Sys2Proof.Machine.execMul e g d a b f s
  | .div e g d a b f => Sys2Proof.Machine.execDiv e g d a b f s
  | .min e g d a b f => Sys2Proof.Machine.execMin e g d a b f s
  | .max e g d a b f => Sys2Proof.Machine.execMax e g d a b f s
  | .bitc e g d a f => Sys2Proof.Machine.execBitc e g d a f s
  | .addi e g d a n => Sys2Proof.Machine.execAddi e g d a n s
  | .andi e g d a n => Sys2Proof.Machine.execAndi e g d a n s
  | .ori e g d a n => Sys2Proof.Machine.execOri e g d a n s
  | .xori e g d a n => Sys2Proof.Machine.execXori e g d a n s
  | .shli e g d a n => Sys2Proof.Machine.execShli e g d a n s
  | .shri e g d a n => Sys2Proof.Machine.execShri e g d a n s
  | .sari e g d a n => Sys2Proof.Machine.execSari e g d a n s
  | .muli e g d a n => Sys2Proof.Machine.execMuli e g d a n s
  | .li e g d n => Sys2Proof.Machine.execLi e g d n s
  | .lis e g d n => Sys2Proof.Machine.execLis e g d n s
  | .addpc e g d n => Sys2Proof.Machine.execAddpc e g d n s
  | .cmp e g p a b c => Sys2Proof.Machine.execCmp e g p a b c s
  | .cmpu e g p a b c => Sys2Proof.Machine.execCmpu e g p a b c s
  | .cmpi e g p a n c => Sys2Proof.Machine.execCmpi e g p a n c s
  | .pfrom e g p a => Sys2Proof.Machine.execPfrom e g p a s
  | .br e g d => Sys2Proof.Machine.execBr e g d s
  | .call e g d => Sys2Proof.Machine.execCall e g d s
  | .brb e g k => Sys2Proof.Machine.execBrb e g k s
  | .ret e g => Sys2Proof.Machine.execRet e g s
  | .lbt e g k d => Sys2Proof.Machine.execLbt e g k d s
  | .movb e g k r0 f => Sys2Proof.Machine.execMovb e g k r0 f s
  | .loop e g c n => Sys2Proof.Machine.execLoop e g c n s
  | .csrd e g r r0 => Sys2Proof.Machine.execCsrd e g r r0 s
  | .cswr e g r r0 => Sys2Proof.Machine.execCswr e g r r0 s
  | .mpset e g m r0 => Sys2Proof.Machine.execMpset e g m r0 s
  | .tcset e g t r0 => Sys2Proof.Machine.execTcset e g t r0 s
  | .tcget e g t r0 => Sys2Proof.Machine.execTcget e g t r0 s
  | .yield e g => Sys2Proof.Machine.execYield e g s
  | .exit e g => Sys2Proof.Machine.execExit e g s
  | .trap e g c => Sys2Proof.Machine.execTrap e g c s
  | .sysc e g c => Sys2Proof.Machine.execSysc e g c s
  | .brk e g c => Sys2Proof.Machine.execBrk e g c s
  | .grow e g d a => Sys2Proof.Machine.execGrow e g d a s
  | .bar e g n => Sys2Proof.Machine.execBar e g n s
  | .barW e g n => Sys2Proof.Machine.execBarW e g n s
  | .barAw e g n => Sys2Proof.Machine.execBarAw e g n s
  | .rfe e g => Sys2Proof.Machine.execRfe e g s
  | .savec e g m r0 => Sys2Proof.Machine.execSavec e g m r0 s
  | .loadc e g m r0 => Sys2Proof.Machine.execLoadc e g m r0 s
  | .hdrT e h q b x y z => Sys2Proof.Machine.execHdrT e h q b x y z s
  | .vadd q g d a b m => Sys2Proof.Machine.execVadd q g d a b m s
  | .vsub q g d a b m => Sys2Proof.Machine.execVsub q g d a b m s
  | .vmul q g d a b m => Sys2Proof.Machine.execVmul q g d a b m s
  | .vmin q g d a b m => Sys2Proof.Machine.execVmin q g d a b m s
  | .vmax q g d a b m => Sys2Proof.Machine.execVmax q g d a b m s
  | .vand q g d a b => Sys2Proof.Machine.execVand q g d a b s
  | .vor q g d a b => Sys2Proof.Machine.execVor q g d a b s
  | .vxor q g d a b => Sys2Proof.Machine.execVxor q g d a b s
  | .vshl q g d a b => Sys2Proof.Machine.execVshl q g d a b s
  | .vshr q g d a b => Sys2Proof.Machine.execVshr q g d a b s
  | .vsar q g d a b => Sys2Proof.Machine.execVsar q g d a b s
  | .vadds q g d a r0 m => Sys2Proof.Machine.execVadds q g d a r0 m s
  | .vmuls q g d a r0 m => Sys2Proof.Machine.execVmuls q g d a r0 m s
  | .vli q g d n => Sys2Proof.Machine.execVli q g d n s
  | .vfadd q g d a b => Sys2Proof.Machine.execVfadd q g d a b s
  | .vfsub q g d a b => Sys2Proof.Machine.execVfsub q g d a b s
  | .vfmul q g d a b => Sys2Proof.Machine.execVfmul q g d a b s
  | .vfma q g d a b c m => Sys2Proof.Machine.execVfma q g d a b c m s
  | .vfmin q g d a b m => Sys2Proof.Machine.execVfmin q g d a b m s
  | .vfmax q g d a b m => Sys2Proof.Machine.execVfmax q g d a b m s
  | .vfrcp q g d a => Sys2Proof.Machine.execVfrcp q g d a s
  | .vfrsq q g d a => Sys2Proof.Machine.execVfrsq q g d a s
  | .vfexp2 q g d a => Sys2Proof.Machine.execVfexp2 q g d a s
  | .vflog2 q g d a => Sys2Proof.Machine.execVflog2 q g d a s
  | .vcvt q g d a m => Sys2Proof.Machine.execVcvt q g d a m s
  | .vfclass q g d a m => Sys2Proof.Machine.execVfclass q g d a m s
  | .vdadd q g d a b m => Sys2Proof.Machine.execVdadd q g d a b m s
  | .vdmul q g d a b => Sys2Proof.Machine.execVdmul q g d a b s
  | .vdmax q g d a b m => Sys2Proof.Machine.execVdmax q g d a b m s
  | .vdcvt q g d a m => Sys2Proof.Machine.execVdcvt q g d a m s
  | .vdscl q g d a r0 => Sys2Proof.Machine.execVdscl q g d a r0 s
  | .vperm q g d a b m => Sys2Proof.Machine.execVperm q g d a b m s
  | .vnib q g d a m => Sys2Proof.Machine.execVnib q g d a m s
  | .vshuf q g d a b m => Sys2Proof.Machine.execVshuf q g d a b m s
  | .vbcast q g d r0 m => Sys2Proof.Machine.execVbcast q g d r0 m s
  | .vmovs q g d a l m => Sys2Proof.Machine.execVmovs q g d a l m s
  | .vins q g d a r0 m => Sys2Proof.Machine.execVins q g d a r0 m s
  | .viota q g d m => Sys2Proof.Machine.execViota q g d m s
  | .vmov q g d a => Sys2Proof.Machine.execVmov q g d a s
  | .vred q g d a m => Sys2Proof.Machine.execVred q g d a m s
  | .vscan q g d a m => Sys2Proof.Machine.execVscan q g d a m s
  | .vcmp q g p a b c => Sys2Proof.Machine.execVcmp q g p a b c s
  | .vfcmp q g p a b c => Sys2Proof.Machine.execVfcmp q g p a b c s
  | .pand q g p a b => Sys2Proof.Machine.execPand q g p a b s
  | .por q g p a b => Sys2Proof.Machine.execPor q g p a b s
  | .pxor q g p a b => Sys2Proof.Machine.execPxor q g p a b s
  | .pandn q g p a b => Sys2Proof.Machine.execPandn q g p a b s
  | .pcnt q g d a m => Sys2Proof.Machine.execPcnt q g d a m s
  | .vqdeq q g d a b m => Sys2Proof.Machine.execVqdeq q g d a b m s
  | .vqnt q g d a b m => Sys2Proof.Machine.execVqnt q g d a b m s
  | .vrng q g d a b m => Sys2Proof.Machine.execVrng q g d a b m s
  | .mcall g r a => Sys2Proof.Machine.execMcall g r a s
  | .bch g a => Sys2Proof.Machine.execBch g a s
  | .ech g a => Sys2Proof.Machine.execEch g a s
  | .mdrain g a t n m => Sys2Proof.Machine.execMdrain g a t n m s
  | .mzero g a => Sys2Proof.Machine.execMzero g a s
  | .mspill g a t h => Sys2Proof.Machine.execMspill g a t h s
  | .mfill g a t h => Sys2Proof.Machine.execMfill g a t h s
  | .mpwr g t => Sys2Proof.Machine.execMpwr g t s
  | .mpwrTab g t => Sys2Proof.Machine.execMpwrTab g t s
  | .mprd g t => Sys2Proof.Machine.execMprd g t s
  | .mprdTab g t => Sys2Proof.Machine.execMprdTab g t s
  | .tzero g d m => Sys2Proof.Machine.execTzero g d m s
  | .tcopy g d a => Sys2Proof.Machine.execTcopy g d a s
  | .tv2t g d a n => Sys2Proof.Machine.execTv2t g d a n s
  | .tt2v g d a n => Sys2Proof.Machine.execTt2v g d a n s
  | .ckleaf g t r c => Sys2Proof.Machine.execCkleaf g t r c s
  | .cknode g t r c => Sys2Proof.Machine.execCknode g t r c s
  | .ckback g t r c => Sys2Proof.Machine.execCkback g t r c s
  | .ckdiv g t r d => Sys2Proof.Machine.execCkdiv g t r d s
  | .cksamp g t r c => Sys2Proof.Machine.execCksamp g t r c s
  | .ixwalk g d a b => Sys2Proof.Machine.execIxwalk g d a b s
  | .ixsplit g d a p => Sys2Proof.Machine.execIxsplit g d a p s
  | .asort g d a b m => Sys2Proof.Machine.execAsort g d a b m s
  | .amrg g k t r0 => Sys2Proof.Machine.execAmrg g k t r0 s
  | .cread g k t r0 => Sys2Proof.Machine.execCread g k t r0 s
  | .cclr g k m => Sys2Proof.Machine.execCclr g k m s
  | .csamp g k r0 => Sys2Proof.Machine.execCsamp g k r0 s
  | .clpush g a n => Sys2Proof.Machine.execClpush g a n s
  | .clpull g d => Sys2Proof.Machine.execClpull g d s
  | .clseal g n => Sys2Proof.Machine.execClseal g n s
  | .clcfg g a => Sys2Proof.Machine.execClcfg g a s
  | .clcfgEnd g => Sys2Proof.Machine.execClcfgEnd g s
  | .ldd q g d b c f => Sys2Proof.Machine.execLdd q g d b c f s
  | .ldw q g d b c f => Sys2Proof.Machine.execLdw q g d b c f s
  | .ldwu q g d b c f => Sys2Proof.Machine.execLdwu q g d b c f s
  | .ldh q g d b c f => Sys2Proof.Machine.execLdh q g d b c f s
  | .ldhu q g d b c f => Sys2Proof.Machine.execLdhu q g d b c f s
  | .ldb q g d b c f => Sys2Proof.Machine.execLdb q g d b c f s
  | .ldbu q g d b c f => Sys2Proof.Machine.execLdbu q g d b c f s
  | .std g d b c f => Sys2Proof.Machine.execStd g d b c f s
  | .stw g d b c f => Sys2Proof.Machine.execStw g d b c f s
  | .sth g d b c f => Sys2Proof.Machine.execSth g d b c f s
  | .stb g d b c f => Sys2Proof.Machine.execStb g d b c f s
  | .vld q g d b c f => Sys2Proof.Machine.execVld q g d b c f s
  | .vst g d b c f => Sys2Proof.Machine.execVst g d b c f s
  | .lddp q g d b c f => Sys2Proof.Machine.execLddp q g d b c f s
  | .vldp q g d b c f => Sys2Proof.Machine.execVldp q g d b c f s
  | .vstp g d b c f => Sys2Proof.Machine.execVstp g d b c f s
  | .tld g t b c => Sys2Proof.Machine.execTld g t b c s
  | .tst g t b c => Sys2Proof.Machine.execTst g t b c s
  | .tgath g t b c n v => Sys2Proof.Machine.execTgath g t b c n v s
  | .tscat g t b c n v => Sys2Proof.Machine.execTscat g t b c n v s
  | .tscadd g t b c n v => Sys2Proof.Machine.execTscadd g t b c n v s
  | .aadd g d b r0 o => Sys2Proof.Machine.execAadd g d b r0 o s
  | .aaddw g d b r0 o => Sys2Proof.Machine.execAaddw g d b r0 o s
  | .afadd g d b r0 o => Sys2Proof.Machine.execAfadd g d b r0 o s
  | .adadd g d b r0 o => Sys2Proof.Machine.execAdadd g d b r0 o s
  | .amax g d b r0 o => Sys2Proof.Machine.execAmax g d b r0 o s
  | .amin g d b r0 o => Sys2Proof.Machine.execAmin g d b r0 o s
  | .aor g d b r0 o => Sys2Proof.Machine.execAor g d b r0 o s
  | .aand g d b r0 o => Sys2Proof.Machine.execAand g d b r0 o s
  | .axchg g d b r0 o => Sys2Proof.Machine.execAxchg g d b r0 o s
  | .acas g d b r0 o => Sys2Proof.Machine.execAcas g d b r0 o s
  | .fence g m k => Sys2Proof.Machine.execFence g m k s
  | .waitm g a b c f => Sys2Proof.Machine.execWaitm g a b c f s
  | .cpy g a b c => Sys2Proof.Machine.execCpy g a b c s
  | .cpyZero g a c => Sys2Proof.Machine.execCpyZero g a c s
  | .cpyq g n b c => Sys2Proof.Machine.execCpyq g n b c s
  | .qpop g n d => Sys2Proof.Machine.execQpop g n d s
  | .qpopBind g n d => Sys2Proof.Machine.execQpopBind g n d s
  | .qstat g n d => Sys2Proof.Machine.execQstat g n d s
  | .sbar g m k => Sys2Proof.Machine.execSbar g m k s
  | .rinv g a b c f => Sys2Proof.Machine.execRinv g a b c f s
  | .rflush g a b c f => Sys2Proof.Machine.execRflush g a b c f s
  | .resv g h b c f => Sys2Proof.Machine.execResv g h b c f s
  | .rrel g h => Sys2Proof.Machine.execRrel g h s
  | .rrelAll g => Sys2Proof.Machine.execRrelAll g s
  | .movp g p r0 => Sys2Proof.Machine.execMovp g p r0 s
  | .movfp g p r0 => Sys2Proof.Machine.execMovfp g p r0 s
  | .qpush g n d => Sys2Proof.Machine.execQpush g n d s
  | .qpushBind g n d => Sys2Proof.Machine.execQpushBind g n d s
  | .xfuDecode g u r0 => Sys2Proof.Machine.execXfuDecode g u r0 s
  | .xfuZorder g u r0 => Sys2Proof.Machine.execXfuZorder g u r0 s
  | .xfuUnz g u r0 => Sys2Proof.Machine.execXfuUnz g u r0 s
  | .xfuCopy g u r0 => Sys2Proof.Machine.execXfuCopy g u r0 s
  | .xfuUnpack4 g u r0 => Sys2Proof.Machine.execXfuUnpack4 g u r0 s
  | .xfuSave g u r0 => Sys2Proof.Machine.execXfuSave g u r0 s
  | .xfuLoad g u r0 => Sys2Proof.Machine.execXfuLoad g u r0 s
  | .xfuAbort g u r0 => Sys2Proof.Machine.execXfuAbort g u r0 s
  | .microNop pr e => Sys2Proof.Machine.execMicroNop pr e s
  | .feta pr e sel x => Sys2Proof.Machine.execFeta pr e sel x s
  | .fetb pr e sel x => Sys2Proof.Machine.execFetb pr e sel x s
  | .mac pr e => Sys2Proof.Machine.execMac pr e s
  | .macq pr e => Sys2Proof.Machine.execMacq pr e s
  | .zpc pr e => Sys2Proof.Machine.execZpc pr e s
  | .zacc pr e => Sys2Proof.Machine.execZacc pr e s
  | .drn pr e sel => Sys2Proof.Machine.execDrn pr e sel s
  | .setk pr e imm m => Sys2Proof.Machine.execSetk pr e imm m s
  | .microLoop pr e target => Sys2Proof.Machine.execMicroLoop pr e target s
  | .brz pr e target => Sys2Proof.Machine.execBrz pr e target s
  | .waitt pr e => Sys2Proof.Machine.execWaitt pr e s
  | .sigt pr e sel => Sys2Proof.Machine.execSigt pr e sel s
  | .xpv pr e h => Sys2Proof.Machine.execXpv pr e h s
  | .microWordLimit pr => Sys2Proof.Machine.execMicroWordLimit pr s
  | .arrayWindow pr => Sys2Proof.Machine.execArrayWindow pr s
  | .arrayOpStart pr coreB => Sys2Proof.Machine.execArrayOpStart pr coreB s
  | .arrayOpComplete pr => Sys2Proof.Machine.execArrayOpComplete pr s
  | .tileUnitOpComplete core => Sys2Proof.Machine.execTileUnitOpComplete core s
  | .indexEngineComplete core => Sys2Proof.Machine.execIndexEngineComplete core s
  | .asortComplete core => Sys2Proof.Machine.execAsortComplete core s
  | .tileLoadComplete core k => Sys2Proof.Machine.execTileLoadComplete core k s
  | .bulkStoreComplete core k => Sys2Proof.Machine.execBulkStoreComplete core k s
  | .copyComplete cl k => Sys2Proof.Machine.execCopyComplete cl k s
  | .streamElementArrive ctx q => Sys2Proof.Machine.execStreamElementArrive ctx q s
  | .fenceRetire ctx => Sys2Proof.Machine.execFenceRetire ctx s
  | .rangeOpComplete ctx => Sys2Proof.Machine.execRangeOpComplete ctx s
  | .xfuOpEnd cl u => Sys2Proof.Machine.execXfuOpEnd cl u s
  | .memoryDataReturn ctx cycles => Sys2Proof.Machine.execMemoryDataReturn ctx cycles s
  | .resultLand ctx => Sys2Proof.Machine.execResultLand ctx s
  | .ckTagClear ctx => Sys2Proof.Machine.execCkTagClear ctx s
  | .tileStatusValid ctx t => Sys2Proof.Machine.execTileStatusValid ctx t s
  | .watchdog ctx => Sys2Proof.Machine.execWatchdog ctx s
  | .arbmodeWrite ctx val => Sys2Proof.Machine.execArbmodeWrite ctx val s
  | .launchStart launch => Sys2Proof.Machine.execLaunchStart launch s
  | .groupComplete group => Sys2Proof.Machine.execGroupComplete group s
  | .launchComplete launch => Sys2Proof.Machine.execLaunchComplete launch s
  | .preemptStop ctx => Sys2Proof.Machine.execPreemptStop ctx s
  | .groupResume group => Sys2Proof.Machine.execGroupResume group s
  | .mintRowSend die => Sys2Proof.Machine.execMintRowSend die s
  | .streamHoldRelease die => Sys2Proof.Machine.execStreamHoldRelease die s
  | .mintIterationBoundary die => Sys2Proof.Machine.execMintIterationBoundary die s
  | .heldWriteApply v => Sys2Proof.Machine.execHeldWriteApply v s
  | .balloonPass v => Sys2Proof.Machine.execBalloonPass v s
  | .frameRestore frame => Sys2Proof.Machine.execFrameRestore frame s
  | .hdrX e l1 l2 l3 => Sys2Proof.Machine.execHdrX e l1 l2 l3 s
  | .unassignedOpcode slot w => Sys2Proof.Machine.execUnassignedOpcode slot w s
  | .instructionFetchFault ctx => Sys2Proof.Machine.execInstructionFetchFault ctx s
  | .vnop => Sys2Proof.Machine.execVnop s
  | .xnop => Sys2Proof.Machine.execXnop s
  | .mnop => Sys2Proof.Machine.execMnop s
  | .qtailWrite => Sys2Proof.Machine.execQtailWrite s
  | .qcfgWrite => Sys2Proof.Machine.execQcfgWrite s
  | .shareWrite => Sys2Proof.Machine.execShareWrite s
  | .pwrctlWrite => Sys2Proof.Machine.execPwrctlWrite s
  | .registerWrite => Sys2Proof.Machine.execRegisterWrite s
  | .launchAccept => Sys2Proof.Machine.execLaunchAccept s
  | .groupPlace => Sys2Proof.Machine.execGroupPlace s
  | .collectiveStart => Sys2Proof.Machine.execCollectiveStart s
  | .collectiveComplete => Sys2Proof.Machine.execCollectiveComplete s
  | .quantumBoundary => Sys2Proof.Machine.execQuantumBoundary s
  | .treasuryClose => Sys2Proof.Machine.execTreasuryClose s
  | .handleRegister => Sys2Proof.Machine.execHandleRegister s
  | .handleRemove => Sys2Proof.Machine.execHandleRemove s
  | .mintMicrocodeReplace => Sys2Proof.Machine.execMintMicrocodeReplace s
  | .mailboxSeqWrite => Sys2Proof.Machine.execMailboxSeqWrite s
  | .generalCoreAccess => Sys2Proof.Machine.execGeneralCoreAccess s
  | .hostMemoryRequest => Sys2Proof.Machine.execHostMemoryRequest s
  | .remoteRequest => Sys2Proof.Machine.execRemoteRequest s
  | .walvoFlitReceive => Sys2Proof.Machine.execWalvoFlitReceive s
  | .portDown => Sys2Proof.Machine.execPortDown s
  | .vaultLineWrite => Sys2Proof.Machine.execVaultLineWrite s
  | .frameService => Sys2Proof.Machine.execFrameService s
  | .ratio => Sys2Proof.Machine.execRatio s
  | .donate => Sys2Proof.Machine.execDonate s
  | .withdraw => Sys2Proof.Machine.execWithdraw s
  | .demote => Sys2Proof.Machine.execDemote s
  | .zeroFrames => Sys2Proof.Machine.execZeroFrames s
  | .promote => Sys2Proof.Machine.execPromote s
  | .splitPage => Sys2Proof.Machine.execSplitPage s
  | .classChange => Sys2Proof.Machine.execClassChange s
  | .frameGrant => Sys2Proof.Machine.execFrameGrant s
  | .grantRevoke => Sys2Proof.Machine.execGrantRevoke s
  | .partitionCreate => Sys2Proof.Machine.execPartitionCreate s
  | .partitionReset => Sys2Proof.Machine.execPartitionReset s
  | .clusterDrain => Sys2Proof.Machine.execClusterDrain s
  | .spareSubstitution => Sys2Proof.Machine.execSpareSubstitution s
  | .firmwareUpdate => Sys2Proof.Machine.execFirmwareUpdate s
  | .vaultFirmwareReplace => Sys2Proof.Machine.execVaultFirmwareReplace s
  | .inspection => Sys2Proof.Machine.execInspection s
  | .watchdogIntervalSet => Sys2Proof.Machine.execWatchdogIntervalSet s
  | .vfWeightSet => Sys2Proof.Machine.execVfWeightSet s
  | .exportWindowSet => Sys2Proof.Machine.execExportWindowSet s
  | .demotionTargetSet => Sys2Proof.Machine.execDemotionTargetSet s
  | .vaultViewSet => Sys2Proof.Machine.execVaultViewSet s
  | .mailboxGrant => Sys2Proof.Machine.execMailboxGrant s
  | .microstoreImageLoad => Sys2Proof.Machine.execMicrostoreImageLoad s
  | .bucketTableLoad => Sys2Proof.Machine.execBucketTableLoad s
  | .moduleReset => Sys2Proof.Machine.execModuleReset s
  | .runtimeReady => Sys2Proof.Machine.execRuntimeReady s
  | .bootTimeout => Sys2Proof.Machine.execBootTimeout s
  | .thermalReset => Sys2Proof.Machine.execThermalReset s
  | .throttleStep => Sys2Proof.Machine.execThrottleStep s
  | .patrolScrub => Sys2Proof.Machine.execPatrolScrub s
  | .softError => Sys2Proof.Machine.execSoftError s
  | .getVersion => Sys2Proof.Machine.execGetVersion s
  | .getCapabilities => Sys2Proof.Machine.execGetCapabilities s
  | .negotiateAlgorithms => Sys2Proof.Machine.execNegotiateAlgorithms s
  | .getDigests => Sys2Proof.Machine.execGetDigests s
  | .getCertificate => Sys2Proof.Machine.execGetCertificate s
  | .challenge => Sys2Proof.Machine.execChallenge s
  | .getMeasurements => Sys2Proof.Machine.execGetMeasurements s
  | .spdmUnsupportedRequest => Sys2Proof.Machine.execSpdmUnsupportedRequest s
  | .portRetrainComplete => Sys2Proof.Machine.execPortRetrainComplete s
  | .nodeIdAssign => Sys2Proof.Machine.execNodeIdAssign s
  | .communicatorSet => Sys2Proof.Machine.execCommunicatorSet s
  | .mintSetLoad => Sys2Proof.Machine.execMintSetLoad s
  | .promotionBuildComplete => Sys2Proof.Machine.execPromotionBuildComplete s

end Sys2Proof.Machine
end

