-- ==== Sys2Proof/Machine/Place.lean ====
section
/-!
DEFINITION. A bundle placed where the next step fetches it: the state a dispatch leaves, with one executable page (log 7).
-/
set_option Elab.async false
namespace Sys2Proof.Machine

/-- A bundle that holds one word of the opcode table, in the slot whose map gives it a meaning, beside no-operations. -/
def tableBundle (w : Nat) : BitVec 128 :=
  let x : W32 := BitVec.ofNat 32 w
  let n := match slotOfTableWord x with
    | some (.v, _) => 1
    | some (.x, _) => 2
    | some (.m, _) => 3
    | _ => 0
  x.setWidth 128 <<< (32 * n)

/-- Table entry 0 of the context: the 64 KiB that hold its pc, at device-physical 0, executable. -/
def fetchEntry (pc : Nat) : BitVec 256 := BitVec.ofNat 256 (pc / 65536 % 2 ^ 41 + 2 ^ 41 + 2 ^ 115)

/-- The current context is placed and ready, with nothing waiting at its boundary, its page mapped to a present frame, and the
bundle at its pc; no Vault holds a write of a context. -/
def placeBundle (b : BitVec 128) (s : State) : State :=
  let c := s.ctx s.cur
  let c := { c with run := .ready, stream := false, preempt := false, boundaryFreeze := none, boundaryPoison := [], holdBar := none,
                    stalled := false, refills := [], unitRefills := [], watch := s.cycles.toNat, swt := [(0, fetchEntry c.pc.toNat)] }
  let a := c.pc.toNat % 65536
  let s := (s.setCtx s.cur c).setFrame 0 1
  let s := s.modCore (coreOf s.cur) fun k => { k with passing := false }
  { s with agenda := [], mem := writeBytes s.mem a (leBytes 16 b.toNat), poison := s.poison.filter fun x => decide (x ≠ a / 64)
           vaults := s.vaults.map fun v => (v.1, { v.2 with held := v.2.held.map fun h => { h with src := none } }) }

end Sys2Proof.Machine
end

