-- ==== Sys2Proof/Machine/Step.lean ====
section
/-!
DEFINITION. One step of the machine, and where a word of the opcode table stands to be the next instruction (log 3, log 7).
-/
set_option Elab.async false
namespace Sys2Proof.Machine

/-- What the agenda names moves next: an event of the table, with its operands, or another core. With nothing named, the core that
has the machine's attention issues a bundle or lets its engines work. -/
def step (s : State) : Host.Outcome State Fault Refusal :=
  match s.agenda with
  | [] => .next (stepLocal s)
  | .core n :: l => .next (switchCore n.val { s with agenda := l })
  | .event i req :: l =>
    match exec i { s with agenda := l, request := req } with
    | .next s => .next { s with request := .none }
    | .fault f => .fault f
    | .refused r => .refused r

/-- The state whose next bundle holds the instruction alone. -/
def State.withFetchWord (s : State) (nbits w : Nat) : State := placeBundle (tableBundle (w % 2 ^ nbits)) s

end Sys2Proof.Machine
end

