-- ==== Sys2Proof/Safety.lean ====
section
/-!
DEFINITION. What a safe run is, and the words statements use: a slot operation alone in its bundle, when it issues, the state its
commit leaves, and what a bundle leaves unchanged.
-/
set_option Elab.async false
namespace Sys2Proof.Machine

/-- The step answers a next state. -/
def Steps (s s' : State) : Prop := step s = .next s'

/-- Reached by steps from a state. -/
inductive Reaches (s : State) : State → Prop where
  | refl : Reaches s s
  | tail {t u : State} : Reaches s t → Steps t u → Reaches s u

/-- Every state a run meets answers a next state. -/
def Safe (s : State) : Prop := ∀ t, Reaches s t → ∃ u, Steps t u

/-! ## A slot operation alone in its bundle -/

/-- Slot number, stop bit and guard field of a slot operation; slot 4 stands for every other row. A header has no guard (R86). -/
def slotKey (i : Instr) : Nat × BitVec 1 × BitVec 3 :=
  match i with
  | .add st g _ _ _ _ => (0, st, g)
  | .sub st g _ _ _ _ => (0, st, g)
  | .and st g _ _ _ => (0, st, g)
  | .or st g _ _ _ => (0, st, g)
  | .xor st g _ _ _ => (0, st, g)
  | .andn st g _ _ _ => (0, st, g)
  | .shl st g _ _ _ _ => (0, st, g)
  | .shr st g _ _ _ _ => (0, st, g)
  | .sar st g _ _ _ _ => (0, st, g)
  | .rot st g _ _ _ _ => (0, st, g)
  | .mul st g _ _ _ _ => (0, st, g)
  | .div st g _ _ _ _ => (0, st, g)
  | .min st g _ _ _ _ => (0, st, g)
  | .max st g _ _ _ _ => (0, st, g)
  | .bitc st g _ _ _ => (0, st, g)
  | .addi st g _ _ _ => (0, st, g)
  | .andi st g _ _ _ => (0, st, g)
  | .ori st g _ _ _ => (0, st, g)
  | .xori st g _ _ _ => (0, st, g)
  | .shli st g _ _ _ => (0, st, g)
  | .shri st g _ _ _ => (0, st, g)
  | .sari st g _ _ _ => (0, st, g)
  | .muli st g _ _ _ => (0, st, g)
  | .li st g _ _ => (0, st, g)
  | .lis st g _ _ => (0, st, g)
  | .addpc st g _ _ => (0, st, g)
  | .cmp st g _ _ _ _ => (0, st, g)
  | .cmpu st g _ _ _ _ => (0, st, g)
  | .cmpi st g _ _ _ _ => (0, st, g)
  | .pfrom st g _ _ => (0, st, g)
  | .br st g _ => (0, st, g)
  | .call st g _ => (0, st, g)
  | .brb st g _ => (0, st, g)
  | .ret st g => (0, st, g)
  | .lbt st g _ _ => (0, st, g)
  | .movb st g _ _ _ => (0, st, g)
  | .loop st g _ _ => (0, st, g)
  | .csrd st g _ _ => (0, st, g)
  | .cswr st g _ _ => (0, st, g)
  | .mpset st g _ _ => (0, st, g)
  | .tcset st g _ _ => (0, st, g)
  | .tcget st g _ _ => (0, st, g)
  | .yield st g => (0, st, g)
  | .exit st g => (0, st, g)
  | .trap st g _ => (0, st, g)
  | .sysc st g _ => (0, st, g)
  | .brk st g _ => (0, st, g)
  | .grow st g _ _ => (0, st, g)
  | .bar st g _ => (0, st, g)
  | .barW st g _ => (0, st, g)
  | .barAw st g _ => (0, st, g)
  | .rfe st g => (0, st, g)
  | .savec st g _ _ => (0, st, g)
  | .loadc st g _ _ => (0, st, g)
  | .vadd _ g _ _ _ _ => (1, 0, g)
  | .vsub _ g _ _ _ _ => (1, 0, g)
  | .vmul _ g _ _ _ _ => (1, 0, g)
  | .vmin _ g _ _ _ _ => (1, 0, g)
  | .vmax _ g _ _ _ _ => (1, 0, g)
  | .vand _ g _ _ _ => (1, 0, g)
  | .vor _ g _ _ _ => (1, 0, g)
  | .vxor _ g _ _ _ => (1, 0, g)
  | .vshl _ g _ _ _ => (1, 0, g)
  | .vshr _ g _ _ _ => (1, 0, g)
  | .vsar _ g _ _ _ => (1, 0, g)
  | .vadds _ g _ _ _ _ => (1, 0, g)
  | .vmuls _ g _ _ _ _ => (1, 0, g)
  | .vli _ g _ _ => (1, 0, g)
  | .vfadd _ g _ _ _ => (1, 0, g)
  | .vfsub _ g _ _ _ => (1, 0, g)
  | .vfmul _ g _ _ _ => (1, 0, g)
  | .vfma _ g _ _ _ _ _ => (1, 0, g)
  | .vfmin _ g _ _ _ _ => (1, 0, g)
  | .vfmax _ g _ _ _ _ => (1, 0, g)
  | .vfrcp _ g _ _ => (1, 0, g)
  | .vfrsq _ g _ _ => (1, 0, g)
  | .vfexp2 _ g _ _ => (1, 0, g)
  | .vflog2 _ g _ _ => (1, 0, g)
  | .vcvt _ g _ _ _ => (1, 0, g)
  | .vfclass _ g _ _ _ => (1, 0, g)
  | .vdadd _ g _ _ _ _ => (1, 0, g)
  | .vdmul _ g _ _ _ => (1, 0, g)
  | .vdmax _ g _ _ _ _ => (1, 0, g)
  | .vdcvt _ g _ _ _ => (1, 0, g)
  | .vdscl _ g _ _ _ => (1, 0, g)
  | .vperm _ g _ _ _ _ => (1, 0, g)
  | .vnib _ g _ _ _ => (1, 0, g)
  | .vshuf _ g _ _ _ _ => (1, 0, g)
  | .vbcast _ g _ _ _ => (1, 0, g)
  | .vmovs _ g _ _ _ _ => (1, 0, g)
  | .vins _ g _ _ _ _ => (1, 0, g)
  | .viota _ g _ _ => (1, 0, g)
  | .vmov _ g _ _ => (1, 0, g)
  | .vred _ g _ _ _ => (1, 0, g)
  | .vscan _ g _ _ _ => (1, 0, g)
  | .vcmp _ g _ _ _ _ => (1, 0, g)
  | .vfcmp _ g _ _ _ _ => (1, 0, g)
  | .pand _ g _ _ _ => (1, 0, g)
  | .por _ g _ _ _ => (1, 0, g)
  | .pxor _ g _ _ _ => (1, 0, g)
  | .pandn _ g _ _ _ => (1, 0, g)
  | .pcnt _ g _ _ _ => (1, 0, g)
  | .vqdeq _ g _ _ _ _ => (1, 0, g)
  | .vqnt _ g _ _ _ _ => (1, 0, g)
  | .vrng _ g _ _ _ _ => (1, 0, g)
  | .mcall g _ _ => (2, 0, g)
  | .bch g _ => (2, 0, g)
  | .ech g _ => (2, 0, g)
  | .mdrain g _ _ _ _ => (2, 0, g)
  | .mzero g _ => (2, 0, g)
  | .mspill g _ _ _ => (2, 0, g)
  | .mfill g _ _ _ => (2, 0, g)
  | .mpwr g _ => (2, 0, g)
  | .mpwrTab g _ => (2, 0, g)
  | .mprd g _ => (2, 0, g)
  | .mprdTab g _ => (2, 0, g)
  | .tzero g _ _ => (2, 0, g)
  | .tcopy g _ _ => (2, 0, g)
  | .tv2t g _ _ _ => (2, 0, g)
  | .tt2v g _ _ _ => (2, 0, g)
  | .ckleaf g _ _ _ => (2, 0, g)
  | .cknode g _ _ _ => (2, 0, g)
  | .ckback g _ _ _ => (2, 0, g)
  | .ckdiv g _ _ _ => (2, 0, g)
  | .cksamp g _ _ _ => (2, 0, g)
  | .ixwalk g _ _ _ => (2, 0, g)
  | .ixsplit g _ _ _ => (2, 0, g)
  | .asort g _ _ _ _ => (2, 0, g)
  | .amrg g _ _ _ => (2, 0, g)
  | .cread g _ _ _ => (2, 0, g)
  | .cclr g _ _ => (2, 0, g)
  | .csamp g _ _ => (2, 0, g)
  | .clpush g _ _ => (2, 0, g)
  | .clpull g _ => (2, 0, g)
  | .clseal g _ => (2, 0, g)
  | .clcfg g _ => (2, 0, g)
  | .clcfgEnd g => (2, 0, g)
  | .ldd _ g _ _ _ _ => (3, 0, g)
  | .ldw _ g _ _ _ _ => (3, 0, g)
  | .ldwu _ g _ _ _ _ => (3, 0, g)
  | .ldh _ g _ _ _ _ => (3, 0, g)
  | .ldhu _ g _ _ _ _ => (3, 0, g)
  | .ldb _ g _ _ _ _ => (3, 0, g)
  | .ldbu _ g _ _ _ _ => (3, 0, g)
  | .std g _ _ _ _ => (3, 0, g)
  | .stw g _ _ _ _ => (3, 0, g)
  | .sth g _ _ _ _ => (3, 0, g)
  | .stb g _ _ _ _ => (3, 0, g)
  | .vld _ g _ _ _ _ => (3, 0, g)
  | .vst g _ _ _ _ => (3, 0, g)
  | .lddp _ g _ _ _ _ => (3, 0, g)
  | .vldp _ g _ _ _ _ => (3, 0, g)
  | .vstp g _ _ _ _ => (3, 0, g)
  | .tld g _ _ _ => (3, 0, g)
  | .tst g _ _ _ => (3, 0, g)
  | .tgath g _ _ _ _ _ => (3, 0, g)
  | .tscat g _ _ _ _ _ => (3, 0, g)
  | .tscadd g _ _ _ _ _ => (3, 0, g)
  | .aadd g _ _ _ _ => (3, 0, g)
  | .aaddw g _ _ _ _ => (3, 0, g)
  | .afadd g _ _ _ _ => (3, 0, g)
  | .adadd g _ _ _ _ => (3, 0, g)
  | .amax g _ _ _ _ => (3, 0, g)
  | .amin g _ _ _ _ => (3, 0, g)
  | .aor g _ _ _ _ => (3, 0, g)
  | .aand g _ _ _ _ => (3, 0, g)
  | .axchg g _ _ _ _ => (3, 0, g)
  | .acas g _ _ _ _ => (3, 0, g)
  | .fence g _ _ => (3, 0, g)
  | .waitm g _ _ _ _ => (3, 0, g)
  | .cpy g _ _ _ => (3, 0, g)
  | .cpyZero g _ _ => (3, 0, g)
  | .cpyq g _ _ _ => (3, 0, g)
  | .qpop g _ _ => (3, 0, g)
  | .qpopBind g _ _ => (3, 0, g)
  | .qstat g _ _ => (3, 0, g)
  | .sbar g _ _ => (3, 0, g)
  | .rinv g _ _ _ _ => (3, 0, g)
  | .rflush g _ _ _ _ => (3, 0, g)
  | .resv g _ _ _ _ => (3, 0, g)
  | .rrel g _ => (3, 0, g)
  | .rrelAll g => (3, 0, g)
  | .movp g _ _ => (3, 0, g)
  | .movfp g _ _ => (3, 0, g)
  | .qpush g _ _ => (3, 0, g)
  | .qpushBind g _ _ => (3, 0, g)
  | .xfuDecode g _ _ => (3, 0, g)
  | .xfuZorder g _ _ => (3, 0, g)
  | .xfuUnz g _ _ => (3, 0, g)
  | .xfuCopy g _ _ => (3, 0, g)
  | .xfuUnpack4 g _ _ => (3, 0, g)
  | .xfuSave g _ _ => (3, 0, g)
  | .xfuLoad g _ _ => (3, 0, g)
  | .xfuAbort g _ _ => (3, 0, g)
  | .hdrT st _ _ _ _ _ _ => (0, st, 0)
  | _ => (4, 0, 0)

/-- The operation alone in a bundle of the context that holds issue. -/
def alone (i : Instr) (s : State) : SlotOp :=
  { n := (slotKey i).1, instr := i, env := { g := s.cur, gd := (slotKey i).2.2 }, issue := issueOf i }

/-- What the operation does at issue, alone in its bundle. -/
def issueAlone (i : Instr) (s : State) : Issue := issueOf i (alone i s).env s

/-- The guard as a lane mask (R80). -/
def guardMask (i : Instr) (s : State) : W64 := (alone i s).env.mask s

/-- The conditions under which an operation alone in its bundle issues (R46, R54, R56, R80, R100, R101, R103): its guard is true and
neither the guard nor an operand is pending, no earlier bundle of its group writes a name it reads or writes, a stream context may run
it (R379), and its results fit the 48 in flight. -/
structure Issues (i : Instr) (s : State) : Prop where
  guardReady : (alone i s).guardPending s = false
  guard : (alone i s).active s = true
  operands : (alone i s).operandPending s = false
  once : conflicts [alone i s] = []
  group : dependents (s.ctx s.cur).groupWrites [alone i s] = []
  stream : ((s.ctx s.cur).stream && slipsStream i) = false
  room : (s.ctx s.cur).flights.length + exposed i (guardMask i s) ≤ 48

/-- The state after a bundle that held the operation alone and did `c`. -/
def done (i : Instr) (c : Commit) (s : State) : State :=
  commitBundle s.cur ((slotKey i).2.1 == 1) ((alone i s).writes.filter Name.grouped) [(alone i s, .ok c)] s

/-- The state after a bundle in which nothing was active. -/
def skipped (i : Instr) (s : State) : State :=
  commitBundle s.cur ((slotKey i).2.1 == 1) ((alone i s).writes.filter Name.grouped) [] s

/-- The trap of an operation alone in its bundle. -/
def trapped (i : Instr) (cause : Nat) (info : W64) (s : State) : State :=
  takeTrap s.cur cause info (slotMask [(slotKey i).1]) s

/-- The slot class of an operation or header (R77); none for a row that is no slot word. -/
def slotClass (i : Instr) : Option Slot :=
  match i with
  | .nop _ | .hdrX .. => some .c
  | .vnop => some .v
  | .xnop => some .x
  | .mnop => some .m
  | i => match (slotKey i).1 with
    | 0 => some .c
    | 1 => some .v
    | 2 => some .x
    | 3 => some .m
    | _ => none

/-- A slot operation; the path tags of a tree header alone in its bundle are 7 (R92). -/
def SlotAlone (i : Instr) : Prop :=
  (slotKey i).1 ≠ 4 ∧ (match i with | .hdrT _ _ _ _ x y z => x = 7 ∧ y = 7 ∧ z = 7 | _ => True)

/-! ## What a commit does to the context that holds issue -/

/-- A commit that changes the state and takes no branch. -/
def does (f : State → State) : Commit := { act := f }
/-- A change of the issuing context. -/
def onCtx (s : State) (f : Ctx → Ctx) : Commit := { act := fun t => t.modCtx s.cur f }
/-- A result for a scalar register, `lat` bundles on. -/
def toS (s : State) (d : BitVec 6) (x : W64) (lat : Nat) : Commit := onCtx s fun c => c.landS d x lat
/-- A result for a predicate under a mask, squashable when `q` is set. -/
def toP (s : State) (p : BitVec 7) (x mask : W64) (lat : Nat) (q : BitVec 1) : Commit := onCtx s fun c => c.landP p x mask lat (q == 1)
/-- A result for a vector register under a lane mask. -/
def toV (s : State) (d : BitVec 5) (x : Vec) (mask : W64) (lat : Nat) (q : BitVec 1) : Commit :=
  onCtx s fun c => c.landV d x mask lat (q == 1)
/-- A result for a branch-target register, a matrix parameter or a tile header, one bundle on. -/
def toB (s : State) (k : Nat) (x : W64) : Commit := onCtx s fun c => c.land (.b k) (x.setWidth 2048) (BitVec.allOnes 64) 1 false none
def toMp (s : State) (k : Nat) (x : W64) : Commit := onCtx s fun c => c.land (.mp k) (x.setWidth 2048) (BitVec.allOnes 64) 1 false none
def toTc (s : State) (k : Nat) (x : W64) : Commit := onCtx s fun c => c.land (.tc k) (x.setWidth 2048) (BitVec.allOnes 64) 1 false none

/-! ## What a bundle leaves unchanged -/

/-- The value of a register by its name; a name that is no register has none. -/
def Ctx.reg (c : Ctx) (n : Name) : Option Vec :=
  match n with
  | .s k => some ((if k = 0 then 0 else tget 0 c.sregs k : W64).setWidth 2048)
  | .v k => some (tget 0 c.vregs k)
  | .p k => some ((c.p k).setWidth 2048)
  | .b k => some ((c.b k).setWidth 2048)
  | .mp k => some ((c.mp k).setWidth 2048)
  | .tc k => some ((c.tc k).setWidth 2048)
  | _ => none

/-- The special registers, candidate registers, streams, handles, tickets and scratch of a context are those of another. -/
structure SameSpecial (c c' : Ctx) : Prop where
  params : c'.qmr = c.qmr ∧ c'.evbase = c.evbase ∧ c'.nodebase = c.nodebase ∧ c'.deroff = c.deroff ∧ c'.ckseq = c.ckseq
  random : c'.rngkey = c.rngkey ∧ c'.sampcfg = c.sampcfg ∧ c'.sampctr = c.sampctr
  vectors : c'.trapvec = c.trapvec ∧ c'.savebase = c.savebase
  cands : c'.cands = c.cands
  streams : c'.streams = c.streams ∧ c'.handles = c.handles ∧ c'.tickets = c.tickets
  scratch : c'.scratch = c.scratch ∧ c'.scratchPoison = c.scratchPoison ∧ c'.swt = c.swt

/-- The registers a trap saves into are those of another context (R427). -/
def SameTrap (c c' : Ctx) : Prop :=
  c'.trapcause = c.trapcause ∧ c'.hm = c.hm ∧ c'.trappc = c.trappc ∧ c'.trapinfo = c.trapinfo ∧ c'.faultmask = c.faultmask
    ∧ c'.snapshot = c.snapshot

/-- Every register of a context but those named, and those a result in flight targets, keeps its value. -/
def KeepsRegs (c c' : Ctx) (ws : List Name) : Prop :=
  ∀ n, n ∉ ws → c.pending n = false → c'.reg n = c.reg n

/-- The tile stores, arrays, transform units, sessions, copies and engine queues are those of another state. -/
structure SameEngines (s t : State) : Prop where
  cores : ∀ k, (t.core k).tiles = (s.core k).tiles ∧ (t.core k).tileQ = (s.core k).tileQ ∧ (t.core k).xferQ = (s.core k).xferQ
    ∧ (t.core k).indexQ = (s.core k).indexQ ∧ (t.core k).assayQ = (s.core k).assayQ
  arrays : t.arrays = s.arrays
  clusters : ∀ k, (t.cluster k).xfus = (s.cluster k).xfus ∧ (t.cluster k).session = (s.cluster k).session
    ∧ (t.cluster k).copies = (s.cluster k).copies

/-- Memory, its poison and the frame map are those of another state. -/
structure SameMemory (s t : State) : Prop where
  mem : t.mem = s.mem
  poison : t.poison = s.poison
  frames : t.frames = s.frames
  vaults : t.vaults = s.vaults

/-- Memory, engines and the registers of every context are those of another state. -/
def Unchanged (s t : State) : Prop :=
  SameMemory s t ∧ SameEngines s t ∧ ∀ g, SameSpecial (s.ctx g) (t.ctx g) ∧ ∀ n, (t.ctx g).reg n = (s.ctx g).reg n

/-- The byte at a device-physical address. -/
def State.byteAt (s : State) (a : Nat) : Byte := readByte s.mem a

/-! ## The operations that touch registers only, and their destinations -/

/-- A C or V operation whose whole effect is on registers and the pc. -/
def registerForm (i : Instr) : Bool :=
  match i with
  | .add .. => true
  | .sub .. => true
  | .and .. => true
  | .or .. => true
  | .xor .. => true
  | .andn .. => true
  | .shl .. => true
  | .shr .. => true
  | .sar .. => true
  | .rot .. => true
  | .mul .. => true
  | .div .. => true
  | .min .. => true
  | .max .. => true
  | .bitc .. => true
  | .addi .. => true
  | .andi .. => true
  | .ori .. => true
  | .xori .. => true
  | .shli .. => true
  | .shri .. => true
  | .sari .. => true
  | .muli .. => true
  | .li .. => true
  | .lis .. => true
  | .addpc .. => true
  | .cmp .. => true
  | .cmpu .. => true
  | .cmpi .. => true
  | .pfrom .. => true
  | .br .. => true
  | .call .. => true
  | .brb .. => true
  | .ret .. => true
  | .lbt .. => true
  | .movb .. => true
  | .loop .. => true
  | .csrd .. => true
  | .mpset .. => true
  | .tcset .. => true
  | .tcget .. => true
  | .vadd .. => true
  | .vsub .. => true
  | .vmul .. => true
  | .vmin .. => true
  | .vmax .. => true
  | .vand .. => true
  | .vor .. => true
  | .vxor .. => true
  | .vshl .. => true
  | .vshr .. => true
  | .vsar .. => true
  | .vadds .. => true
  | .vmuls .. => true
  | .vli .. => true
  | .vfadd .. => true
  | .vfsub .. => true
  | .vfmul .. => true
  | .vfma .. => true
  | .vfmin .. => true
  | .vfmax .. => true
  | .vfrcp .. => true
  | .vfrsq .. => true
  | .vfexp2 .. => true
  | .vflog2 .. => true
  | .vcvt .. => true
  | .vfclass .. => true
  | .vdadd .. => true
  | .vdmul .. => true
  | .vdmax .. => true
  | .vdcvt .. => true
  | .vdscl .. => true
  | .vperm .. => true
  | .vnib .. => true
  | .vshuf .. => true
  | .vbcast .. => true
  | .vmovs .. => true
  | .vins .. => true
  | .viota .. => true
  | .vmov .. => true
  | .vred .. => true
  | .vscan .. => true
  | .vcmp .. => true
  | .vfcmp .. => true
  | .pand .. => true
  | .por .. => true
  | .pxor .. => true
  | .pandn .. => true
  | .pcnt .. => true
  | .vqdeq .. => true
  | .vqnt .. => true
  | .vrng .. => true
  | .hdrT .. => true
  | _ => false

/-- The registers such an operation writes, as chapters 7 and 16 give them. -/
def destOf (i : Instr) : List Name :=
  match i with
  | .add _ _ d _ _ _ => [.s d.toNat]
  | .sub _ _ d _ _ _ => [.s d.toNat]
  | .and _ _ d _ _ => [.s d.toNat]
  | .or _ _ d _ _ => [.s d.toNat]
  | .xor _ _ d _ _ => [.s d.toNat]
  | .andn _ _ d _ _ => [.s d.toNat]
  | .shl _ _ d _ _ _ => [.s d.toNat]
  | .shr _ _ d _ _ _ => [.s d.toNat]
  | .sar _ _ d _ _ _ => [.s d.toNat]
  | .rot _ _ d _ _ _ => [.s d.toNat]
  | .mul _ _ d _ _ _ => [.s d.toNat]
  | .div _ _ d _ _ _ => [.s d.toNat]
  | .min _ _ d _ _ _ => [.s d.toNat]
  | .max _ _ d _ _ _ => [.s d.toNat]
  | .bitc _ _ d _ _ => [.s d.toNat]
  | .addi _ _ d _ _ => [.s d.toNat]
  | .andi _ _ d _ _ => [.s d.toNat]
  | .ori _ _ d _ _ => [.s d.toNat]
  | .xori _ _ d _ _ => [.s d.toNat]
  | .shli _ _ d _ _ => [.s d.toNat]
  | .shri _ _ d _ _ => [.s d.toNat]
  | .sari _ _ d _ _ => [.s d.toNat]
  | .muli _ _ d _ _ => [.s d.toNat]
  | .li _ _ d _ => [.s d.toNat]
  | .lis _ _ d _ => [.s d.toNat]
  | .addpc _ _ d _ => [.s d.toNat]
  | .cmp _ _ p _ _ _ => [.p p.toNat]
  | .cmpu _ _ p _ _ _ => [.p p.toNat]
  | .cmpi _ _ p _ _ _ => [.p p.toNat]
  | .pfrom _ _ p _ => [.p p.toNat]
  | .call _ _ _ => [.b 7]
  | .lbt _ _ k _ => [.b k.toNat]
  | .movb _ _ k s f => if f = 0 then [.b k.toNat] else [.s s.toNat]
  | .loop _ _ c _ => [.s c.toNat]
  | .csrd _ _ _ s => [.s s.toNat]
  | .mpset _ _ m _ => [.mp m.toNat]
  | .tcset _ _ t _ => [.tc t.toNat]
  | .tcget _ _ _ s => [.s s.toNat]
  | .vadd _ _ d _ _ _ => [.v d.toNat]
  | .vsub _ _ d _ _ _ => [.v d.toNat]
  | .vmul _ _ d _ _ _ => [.v d.toNat]
  | .vmin _ _ d _ _ _ => [.v d.toNat]
  | .vmax _ _ d _ _ _ => [.v d.toNat]
  | .vand _ _ d _ _ => [.v d.toNat]
  | .vor _ _ d _ _ => [.v d.toNat]
  | .vxor _ _ d _ _ => [.v d.toNat]
  | .vshl _ _ d _ _ => [.v d.toNat]
  | .vshr _ _ d _ _ => [.v d.toNat]
  | .vsar _ _ d _ _ => [.v d.toNat]
  | .vadds _ _ d _ _ _ => [.v d.toNat]
  | .vmuls _ _ d _ _ _ => [.v d.toNat]
  | .vli _ _ d _ => [.v d.toNat]
  | .vfadd _ _ d _ _ => [.v d.toNat]
  | .vfsub _ _ d _ _ => [.v d.toNat]
  | .vfmul _ _ d _ _ => [.v d.toNat]
  | .vfma _ _ d _ _ _ _ => [.v d.toNat]
  | .vfmin _ _ d _ _ _ => [.v d.toNat]
  | .vfmax _ _ d _ _ _ => [.v d.toNat]
  | .vfrcp _ _ d _ => [.v d.toNat]
  | .vfrsq _ _ d _ => [.v d.toNat]
  | .vfexp2 _ _ d _ => [.v d.toNat]
  | .vflog2 _ _ d _ => [.v d.toNat]
  | .vcvt _ _ d _ _ => [.v d.toNat]
  | .vfclass _ _ d _ _ => [.v d.toNat]
  | .vdadd _ _ d _ _ _ => [.v d.toNat]
  | .vdmul _ _ d _ _ => [.v d.toNat]
  | .vdmax _ _ d _ _ _ => [.v d.toNat]
  | .vdcvt _ _ d _ _ => [.v d.toNat]
  | .vdscl _ _ d _ _ => [.v d.toNat]
  | .vperm _ _ d _ _ _ => [.v d.toNat]
  | .vnib _ _ d _ _ => [.v d.toNat]
  | .vshuf _ _ d _ _ _ => [.v d.toNat]
  | .vbcast _ _ d _ _ => [.v d.toNat]
  | .vmovs _ _ d _ _ _ => [.s d.toNat]
  | .vins _ _ d _ _ _ => [.v d.toNat]
  | .viota _ _ d _ => [.v d.toNat]
  | .vmov _ _ d _ => [.v d.toNat]
  | .vred _ _ d _ _ => [.v d.toNat]
  | .vscan _ _ d _ _ => [.v d.toNat]
  | .vcmp _ _ p _ _ _ => [.p p.toNat]
  | .vfcmp _ _ p _ _ _ => [.p p.toNat]
  | .pand _ _ p _ _ => [.p p.toNat]
  | .por _ _ p _ _ => [.p p.toNat]
  | .pxor _ _ p _ _ => [.p p.toNat]
  | .pandn _ _ p _ _ => [.p p.toNat]
  | .pcnt _ _ d _ _ => [.s d.toNat]
  | .vqdeq _ _ d _ _ _ => [.v d.toNat]
  | .vqnt _ _ d _ _ _ => [.v d.toNat]
  | .vrng _ _ d _ _ _ => [.v d.toNat]
  | _ => []

/-! ## Registers of the context that holds issue, and completion -/

def State.rs (s : State) (n : BitVec 6) : W64 := (s.ctx s.cur).s n
def State.rv (s : State) (n : BitVec 5) : Vec := (s.ctx s.cur).v n
def State.rp (s : State) (n : BitVec 7) : W64 := (s.ctx s.cur).p n.toNat
def State.rb (s : State) (n : Nat) : W64 := (s.ctx s.cur).b n
/-- A 32-bit value sign-extended (R8). -/
def sx (x : W64) : W64 := (x.setWidth 32 : W32).signExtend 64

/-- From every state in which the operation issues alone and `P` holds, its meaning answers the state its commit `c` leaves. -/
def CompletesWhen (i : Instr) (P : State → Prop) (c : State → Commit) : Prop :=
  ∀ s, Issues i s → P s → exec i s = .next (done i (c s) s)

/-- From every state in which the operation issues alone, its meaning answers the state its commit `c` leaves. -/
def Completes (i : Instr) (c : State → Commit) : Prop := ∀ s, Issues i s → exec i s = .next (done i (c s) s)

/-- From every state in which the operation issues alone and `P` holds, its meaning takes the trap `cause` with the TRAPINFO given. -/
def TrapsWhen (i : Instr) (P : State → Prop) (cause : Nat) (info : State → W64) : Prop :=
  ∀ s, Issues i s → P s → exec i s = .next (trapped i cause (info s) s)

/-- From every state in which the operation issues alone and `P` holds, the context blocks. -/
def BlocksWhen (i : Instr) (P : State → Prop) (w : Wait) : Prop := ∀ s, Issues i s → P s → exec i s = .next (blockCtx s.cur w s)

/-- The issuing core may run matrix operations under ARBMODE (R179). -/
def MayRunMatrix (s : State) : Prop :=
  match (s.array (pairOf s.cur)).mode.toNat with
  | 1 => coreOf s.cur % 2 = 0
  | 2 => coreOf s.cur % 2 = 1
  | _ => True

/-- The issuing core may name accumulator `k` under ARBMODE, its bank is free or the context's own, and the core's queue of 8 has room
(R178, R180, R196). -/
def AccFor (s : State) (k : Nat) : Prop :=
  (match (s.array (pairOf s.cur)).mode.toNat with
    | 0 => k / 2 = 1 ↔ coreOf s.cur % 2 = 1
    | 1 => coreOf s.cur % 2 = 0
    | _ => coreOf s.cur % 2 = 1)
    ∧ (∀ o, tfind (s.array (pairOf s.cur)).owners (k / 2) = some o → o = s.cur) ∧ (s.array (pairOf s.cur)).count (coreOf s.cur % 2 == 1) < 8

/-- A branch target is a bundle address below 2^57 (R338). -/
def TargetOk (t : W64) : Prop := t.extractLsb' 0 4 = 0 ∧ t.extractLsb' 57 7 = 0

/-- The leaf each shape of a condition tree chooses, row by row of R91. -/
def LeafIs (shape : Nat) (t : Nat → Bool) (leaf : Nat) : Prop :=
  leaf = match shape with
    | 0 => if t 0 then 0 else 4
    | 1 => if t 0 then 0 else if t 1 then 1 else 4
    | 2 => if t 0 then 0 else if t 1 then 1 else if t 2 then 2 else 4
    | 3 => if t 0 then 0 else if t 1 then 1 else if t 2 then 2 else if t 3 then 3 else 4
    | 4 => if t 0 then (if t 1 then 1 else 0) else if t 2 then 3 else 2
    | 5 => if t 0 then (if t 1 then 1 else 0) else if t 2 then (if t 3 then 4 else 3) else 2
    | _ => (if t 0 then 2 else 0) + if t 1 then 1 else 0

/-- Tile `t` of the issuing context is slot `slot`, and its header, which is valid, reads as `h` (R48, R167, R168). -/
def TileIs (s : State) (t : BitVec 5) (slot : Nat) (h : Hdr) : Prop :=
  t.toNat < (s.ctx s.cur).tileCount ∧ hdrValid ((s.ctx s.cur).tc t.toNat) = true ∧ slot = (s.ctx s.cur).tileBase + t.toNat
    ∧ h = Hdr.of ((s.ctx s.cur).tc t.toNat)

/-- The issuing context as an operation sees it under p0. -/
def State.env (s : State) : Env := { g := s.cur, gd := 0 }

/-- A slot of the issuing core is full and holds `d` (R74). -/
def TileHolds (s : State) (slot : Nat) (d : TileBits) : Prop := (s.tile (coreOf s.cur) slot).full = true ∧ (s.tile (coreOf s.cur) slot).data = d

end Sys2Proof.Machine
end

