-- ==== Sys2Proof/Certificates/Slice0/Obligations.lean ====
section
/-!
DEFINITION. The statements for the provers, from the numbered rules of the manual.
-/
set_option Elab.async false
open Sys2Proof Sys2Proof.Machine

/-! ## The machine: reset, steps, decoding -/

/-- What module reset leaves where the manual says it: no context holds a program, no frame is present, nothing is granted, boot has
passed no stage, every register of every context is zero but p0, and TOPOSEQ is 0 (R27, R35, R241, R362, R389, R401). That a context with
no program holds what a dispatch leaves, and that no frame is present yet, is log 2. -/
def Obligations.ResetLeavesNothingPlaced : Prop :=
  (∀ g, (State.reset.ctx g).run = .idle) ∧ (∀ f, State.reset.frame f = 0) ∧ (∀ f, (State.reset.grant f).owner = none)
    ∧ State.reset.regs.stage = 0 ∧ State.reset.regs.ready = false ∧ State.reset.regs.toposeq = 0 ∧ State.reset.cycles = 0
    ∧ (∀ g n, (State.reset.ctx g).s n = 0) ∧ (∀ g n, (State.reset.ctx g).v n = 0) ∧ (∀ g, (State.reset.ctx g).p 0 = BitVec.allOnes 64)
    ∧ (∀ g n, n ≠ 0 → (State.reset.ctx g).p n = 0) ∧ (∀ g, (State.reset.ctx g).hm = false ∧ (State.reset.ctx g).trapcause = 0)

/-- A step that offers issue to the current context, with no event at its boundary, no write of it held by a Vault, the banks and units it
comes back to free and no context of its core to save, gives it those back and fetches, decodes and issues the bundle at its pc, unless a
barrier holds that (R40, R76, R429). The agenda is the model's own (log 1, a design choice): with nothing on it the core of the current
context moves, and an event that it names runs the meaning of its row with the operands it brings. A fetch touches the frame it reads
(log 50). -/
def Obligations.StepRunsDecodedInstruction : Prop :=
  (∀ (s : State) (b : BitVec 128), s.agenda = [] → (s.core (coreOf s.cur)).passing = false → canIssue s s.cur = true →
    boundaryEvent s.cur s = none → heldByVault s s.cur = false → refillReady s s.cur = true →
    held (takeRefills s.cur s) s.cur = false → toSave s (coreOf s.cur) = none →
    let t := passBar s.cur (takeRefills s.cur s)
    fetch t s.cur = .ok b → step s = .next (issueBundle s.cur b (touchFetch s.cur t)))
  ∧ ∀ (s t : State) (i : Instr) (req : Request) (l : List Move), s.agenda = .event i req :: l →
    exec i { s with agenda := l, request := req } = .next t → step s = .next { t with request := .none }

/-- A bundle in which one slot word decodes to an operation and the other three are no-operations does what the meaning of that operation
does (R76, R77, R84). -/
def Obligations.LoneBundleIsItsInstruction : Prop :=
  ∀ (s : State) (b : BitVec 128) (sl : Slot) (i : Instr), decodeSlot sl (slotWord b sl) = .ok i → (slotKey i).1 ≠ 4 →
    (∀ sl', sl' ≠ sl → slotWord b sl' = if sl' = .c then (if (slotKey i).2.1 = 1 then 0x80000000 else 0) else 0) →
    exec i s = .next (issueBundle s.cur b s)

/-- Words written out from the encoding tables decode to the operations they stand for, one or more for every slot class and for both
headers, and empty opcode cells and nonzero reserved bits are refused (R85 to R99). -/
def Obligations.DecodeOfWrittenWords : Prop :=
  decodeSlot .c 0x10020828 = .ok (.addi 0 0 4 4 40) ∧ decodeSlot .c 0xA2014486 = .ok (.cmpi 1 0 5 4 0x21 2)
    ∧ decodeSlot .c 0xB6017FFF = .ok (.loop 1 0 2 0x7FFF) ∧ decodeSlot .c 0xB1000003 = .ok (.call 1 0 3)
    ∧ decodeSlot .c 0xFFE0AFD8 = .ok (.hdrT 1 6 1 2 7 7 3) ∧ decodeSlot .x 0x60094200 = .ok (.asort 0 9 8 8 0)
    ∧ decodeSlot .x 0x04000000 = .ok (.bch 0 0) ∧ decodeSlot .x 0x02008001 = .ok (.mcall 0 2 1)
    ∧ decodeSlot .m 0x60000020 = .ok (.fence 0 1 0) ∧ decodeSlot .m 0x72011458 = .ok (.cpyq 0 2 10 11)
    ∧ decodeSlot .v 0 = .ok .vnop ∧ decodeSlot .c 0x7E000000 = .error .unassignedOpcode ∧ decodeSlot .c 1 = .error .reservedField

/-- DECODE AND ENCODE AGREE: for every well-formed operation of each slot class, its encoding decodes in that slot to the operation, every
operand at every value the encoding admits (R76 to R99). What decodes is well formed and encodes to the word it came from: no two words of a slot mean the same operation, and no bit of a word
is dropped (R85). -/
def Obligations.DecodeAndEncodeAgree : Prop :=
  (∀ (i : Instr) (sl : Slot), slotClass i = some sl → i.wf = true → decodeSlot sl (encode i) = .ok i)
  ∧ ∀ (sl : Slot) (w : W32) (i : Instr), decodeSlot sl w = .ok i → encode i = w ∧ i.wf = true ∧ slotClass i = some sl

/-! ## Issue -/

/-- An operation whose guard is false does nothing at all: alone in its bundle, the bundle commits empty, whatever its operands
(R9, R80). -/
def Obligations.FalseGuardDoesNothing : Prop :=
  ∀ (i : Instr) (s : State), SlotAlone i → (alone i s).guardPending s = false → (alone i s).active s = false →
    conflicts [alone i s] = [] → dependents (s.ctx s.cur).groupWrites [alone i s] = [] →
    ((s.ctx s.cur).stream && slipsStream i) = false → (s.ctx s.cur).flights.length ≤ 48 → exec i s = .next (skipped i s)

/-- The decode checks of a lone operation, in their order (R103): a same-bundle conflict is cause 0x01, a form a streamed bundle may not
hold cause 0x0C, a dependence on the group cause 0x02, a pending guard or operand cause 0x03, and last, after its own issue checks, more
than 48 results in flight cause 0x03 with TRAPINFO 1 (R56); its own slot is marked. That the limit comes after the issue checks is log 16,
and that the limit marks the active slot is log 55: the rules say neither. -/
def Obligations.DecodeChecksInOrder : Prop :=
  ∀ (i : Instr) (s : State), SlotAlone i →
    (conflicts [alone i s] ≠ [] → exec i s = .next (trapped i 0x01 0 s))
    ∧ (conflicts [alone i s] = [] → ((s.ctx s.cur).stream && slipsStream i) = true → exec i s = .next (trapped i 0x0C 0 s))
    ∧ (conflicts [alone i s] = [] → ((s.ctx s.cur).stream && slipsStream i) = false →
        dependents (s.ctx s.cur).groupWrites [alone i s] ≠ [] → exec i s = .next (trapped i 0x02 0 s))
    ∧ (conflicts [alone i s] = [] → ((s.ctx s.cur).stream && slipsStream i) = false →
        dependents (s.ctx s.cur).groupWrites [alone i s] = [] →
        ((alone i s).guardPending s = true ∨ (alone i s).active s = true ∧ (alone i s).operandPending s = true) →
        exec i s = .next (trapped i 0x03 0 s))
    ∧ ∀ c, conflicts [alone i s] = [] → ((s.ctx s.cur).stream && slipsStream i) = false →
        dependents (s.ctx s.cur).groupWrites [alone i s] = [] → (alone i s).guardPending s = false → (alone i s).active s = true →
        (alone i s).operandPending s = false → issueAlone i s = .ok c →
        48 < (s.ctx s.cur).flights.length + exposed i (guardMask i s) →
        exec i s = .next (trapped i 0x03 1 s)

/-- A lone operation commits whole or changes no register: whatever it does, either its bundle committed, it was skipped, it stalled in
place, or memory, engines and every register are as they were (R10, R50). -/
def Obligations.AllOrNothing : Prop :=
  ∀ (i : Instr) (s t : State), SlotAlone i → exec i s = .next t →
    (∃ c, issueAlone i s = .ok c ∧ t = done i c s) ∨ t = skipped i s ∨ (∃ f, issueAlone i s = .error (.stall f) ∧ t = stallCtx s.cur f s)
      ∨ Unchanged s t

/-! ## Results in flight -/

/-- A result of latency 1 is in its register at the next bundle; one of a longer latency is in flight and makes its register pending until
bundle k + L (R54, R55). s0 discards it. A vector result writes the lanes of its mask and keeps the others (R70). -/
def Obligations.ResultsLand : Prop :=
  (∀ (i : Instr) (s : State) (d : BitVec 6) (x : W64) (lat : Nat), 0 < lat →
    let t := done i (toS s d x lat) s
    (t.ctx s.cur).bundles = (s.ctx s.cur).bundles + 1 ∧ (t.ctx s.cur).pc = (s.ctx s.cur).pc + 16
      ∧ (lat = 1 → (t.ctx s.cur).s d = if d = 0 then 0 else x)
      ∧ (1 < lat → d ≠ 0 → (t.ctx s.cur).pending (.s d.toNat) = true
          ∧ ∃ f ∈ (t.ctx s.cur).flights, f.dest = .s d.toNat ∧ f.val.setWidth 64 = x ∧ f.due = (s.ctx s.cur).bundles + lat))
  ∧ ∀ (i : Instr) (s : State) (d : BitVec 5) (x : Vec) (m : W64) (q : BitVec 1), (s.ctx s.cur).pending (.v d.toNat) = false →
    let t := done i (toV s d x m 1 q) s
    ∀ l < 64, lane ((t.ctx s.cur).v d) l = if m.getLsbD l then lane x l else lane (s.rv d) l

/-! ## Scalar operations -/

/-- The register forms of R331: their values in 64 bits and in the 32 bits of `.w`, at the latencies of R329; a write to s0 is discarded. -/
def Obligations.ScalarRegisterForms : Prop :=
  ∀ (e : BitVec 1) (g : BitVec 3) (d a b : BitVec 6),
    (Completes (.add e g d a b 0) (fun s => toS s d (s.rs a + s.rs b) 1) ∧ Completes (.add e g d a b 1) (fun s => toS s d (sx (s.rs a + s.rs b)) 1))
    ∧ (Completes (.sub e g d a b 0) (fun s => toS s d (s.rs a - s.rs b) 1) ∧ Completes (.sub e g d a b 1) (fun s => toS s d (sx (s.rs a - s.rs b)) 1))
    ∧ Completes (.and e g d a b) (fun s => toS s d (s.rs a &&& s.rs b) 1) ∧ Completes (.or e g d a b) (fun s => toS s d (s.rs a ||| s.rs b) 1)
    ∧ Completes (.xor e g d a b) (fun s => toS s d (s.rs a ^^^ s.rs b) 1) ∧ Completes (.andn e g d a b) (fun s => toS s d (s.rs a &&& ~~~s.rs b) 1)
    ∧ (Completes (.shl e g d a b 0) (fun s => toS s d (s.rs a <<< ((s.rs b).toNat % 64)) 1)
      ∧ Completes (.shl e g d a b 1) (fun s => toS s d (sx (s.rs a <<< ((s.rs b).toNat % 32))) 1))
    ∧ (Completes (.shr e g d a b 0) (fun s => toS s d (s.rs a >>> ((s.rs b).toNat % 64)) 1)
      ∧ Completes (.shr e g d a b 1) (fun s => toS s d (sx ((s.rs a).extractLsb' 0 32 >>> ((s.rs b).toNat % 32) |>.setWidth 64)) 1))
    ∧ (Completes (.sar e g d a b 0) (fun s => toS s d ((s.rs a).sshiftRight ((s.rs b).toNat % 64)) 1)
      ∧ Completes (.sar e g d a b 1) (fun s => toS s d ((sx (s.rs a)).sshiftRight ((s.rs b).toNat % 32)) 1))
    ∧ (Completes (.rot e g d a b 0) (fun s => toS s d ((s.rs a).rotateLeft ((s.rs b).toNat % 64)) 1)
      ∧ Completes (.rot e g d a b 1) (fun s => toS s d ((((s.rs a).setWidth 32 : W32).rotateLeft ((s.rs b).toNat % 32)).signExtend 64) 1))
    ∧ (Completes (.mul e g d a b 0) (fun s => toS s d (s.rs a * s.rs b) 3)
      ∧ Completes (.mul e g d a b 1) (fun s => toS s d (((s.rs a).signExtend 128 * (s.rs b).signExtend 128).extractLsb' 64 64) 3)
      ∧ Completes (.mul e g d a b 2) (fun s => toS s d (((s.rs a).setWidth 128 * (s.rs b).setWidth 128).extractLsb' 64 64) 3)
      ∧ Completes (.mul e g d a b 3) (fun s => toS s d (sx (s.rs a * s.rs b)) 3))
    ∧ (Completes (.min e g d a b 0) (fun s => toS s d (if (s.rs b).toInt < (s.rs a).toInt then s.rs b else s.rs a) 1)
      ∧ Completes (.min e g d a b 1) (fun s => toS s d (if (s.rs b).toNat < (s.rs a).toNat then s.rs b else s.rs a) 1))
    ∧ Completes (.max e g d a b 0) (fun s => toS s d (if (s.rs a).toInt < (s.rs b).toInt then s.rs b else s.rs a) 1)
    ∧ Completes (.max e g d a b 1) (fun s => toS s d (if (s.rs a).toNat < (s.rs b).toNat then s.rs b else s.rs a) 1)
    ∧ ∀ (c : Ctx) (x : Vec) (m : W64), c.write (.s 0) x m = c ∧ c.s 0 = 0

/-- DIV: a quotient truncated toward zero and a remainder with the sign of the dividend, with the two stated corners, after 20 bundles;
BITC: leading and trailing zeros, set bits, bits and bytes in reverse order (R332, R333). -/
def Obligations.DivisionAndBitCounts : Prop :=
  ∀ (e : BitVec 1) (g : BitVec 3) (d a b : BitVec 6),
    (∀ f : BitVec 3, f.toNat ≤ 3 → CompletesWhen (.div e g d a b f) (fun s => s.rs b = 0)
        (fun s => toS s d (if f.toNat ≤ 1 then BitVec.allOnes 64 else s.rs a) 20))
    ∧ CompletesWhen (.div e g d a b 0) (fun s => s.rs b ≠ 0) (fun s => toS s d (BitVec.ofInt 64 ((s.rs a).toInt.tdiv (s.rs b).toInt)) 20)
    ∧ CompletesWhen (.div e g d a b 1) (fun s => s.rs b ≠ 0) (fun s => toS s d (BitVec.ofNat 64 ((s.rs a).toNat / (s.rs b).toNat)) 20)
    ∧ CompletesWhen (.div e g d a b 2) (fun s => s.rs b ≠ 0) (fun s => toS s d (BitVec.ofInt 64 ((s.rs a).toInt.tmod (s.rs b).toInt)) 20)
    ∧ CompletesWhen (.div e g d a b 3) (fun s => s.rs b ≠ 0) (fun s => toS s d (BitVec.ofNat 64 ((s.rs a).toNat % (s.rs b).toNat)) 20)
    ∧ CompletesWhen (.div e g d a b 0) (fun s => s.rs a = BitVec.ofInt 64 (-2 ^ 63) ∧ s.rs b = BitVec.allOnes 64)
        (fun s => toS s d (BitVec.ofInt 64 (-2 ^ 63)) 20)
    ∧ (∀ s, Issues (.bitc e g d a 0) s → ∃ n : Nat, exec (.bitc e g d a 0) s = .next (done (.bitc e g d a 0) (toS s d (BitVec.ofNat 64 n) 1) s)
        ∧ n ≤ 64 ∧ (∀ i < n, (s.rs a).getLsbD (63 - i) = false) ∧ (n < 64 → (s.rs a).getLsbD (63 - n) = true))
    ∧ (∀ s, Issues (.bitc e g d a 1) s → ∃ n : Nat, exec (.bitc e g d a 1) s = .next (done (.bitc e g d a 1) (toS s d (BitVec.ofNat 64 n) 1) s)
        ∧ n ≤ 64 ∧ (∀ i < n, (s.rs a).getLsbD i = false) ∧ (n < 64 → (s.rs a).getLsbD n = true))
    ∧ Completes (.bitc e g d a 2) (fun s => toS s d (BitVec.ofNat 64 ((List.range 64).countP fun i => (s.rs a).getLsbD i)) 1)
    ∧ (∀ s, Issues (.bitc e g d a 3) s → ∃ x : W64, exec (.bitc e g d a 3) s = .next (done (.bitc e g d a 3) (toS s d x 1) s)
        ∧ ∀ i < 64, x.getLsbD i = (s.rs a).getLsbD (63 - i))
    ∧ ∀ s, Issues (.bitc e g d a 4) s → ∃ x : W64, exec (.bitc e g d a 4) s = .next (done (.bitc e g d a 4) (toS s d x 1) s)
        ∧ ∀ i < 8, x.extractLsb' (8 * i) 8 = (s.rs a).extractLsb' (8 * (7 - i)) 8

/-- The immediate forms: k = sext(imm9, 9), shift amounts of 6 bits below three bits that must be zero, LI and LIS, and ADDPC from the address of its own bundle
(R69, R334, R335). -/
def Obligations.ScalarImmediateForms : Prop :=
  ∀ (e : BitVec 1) (g : BitVec 3) (d a : BitVec 6) (i : BitVec 9) (n : BitVec 6) (w : BitVec 15),
    Completes (.addi e g d a i) (fun s => toS s d (s.rs a + i.signExtend 64) 1)
    ∧ Completes (.andi e g d a i) (fun s => toS s d (s.rs a &&& i.signExtend 64) 1)
    ∧ Completes (.ori e g d a i) (fun s => toS s d (s.rs a ||| i.signExtend 64) 1)
    ∧ Completes (.xori e g d a i) (fun s => toS s d (s.rs a ^^^ i.signExtend 64) 1)
    ∧ Completes (.shli e g d a n) (fun s => toS s d (s.rs a <<< n.toNat) 1)
    ∧ Completes (.shri e g d a n) (fun s => toS s d (s.rs a >>> n.toNat) 1)
    ∧ Completes (.sari e g d a n) (fun s => toS s d ((s.rs a).sshiftRight n.toNat) 1)
    ∧ Completes (.muli e g d a i) (fun s => toS s d (s.rs a * i.signExtend 64) 3)
    ∧ Completes (.li e g d w) (fun s => toS s d (w.signExtend 64) 1)
    ∧ Completes (.lis e g d w) (fun s => toS s d ((s.rs d).extractLsb' 0 49 ++ w) 1)
    ∧ Completes (.addpc e g d w) (fun s => toS s d ((s.ctx s.cur).pc + 16 * w.signExtend 64) 1)
    ∧ decodeSlot .c 0x10020828 = .ok (.addi 0 0 4 4 40)
    ∧ ∀ w : W32, 0x14 ≤ (w.extractLsb' 24 7).toNat → (w.extractLsb' 24 7).toNat ≤ 0x16 → w.extractLsb' 6 3 ≠ 0 → decodeSlot .c w = .error .reservedField

/-- A scalar compare writes all 64 bits of its predicate, all ones when the relation holds and all zeros when it does not; the immediate of
CMPI is sext(m, 5) × 64^L; PFROM copies its register; a write to p0 is discarded (R336, R337). -/
def Obligations.ScalarCompares : Prop :=
  ∀ (e : BitVec 1) (g : BitVec 3) (p : BitVec 7) (a b : BitVec 6),
    let rel (s : State) (r : Bool) : Commit := toP s p (if r then BitVec.allOnes 64 else 0) (BitVec.allOnes 64) 1 0
    let imm : W64 := (b.extractLsb' 0 5).signExtend 64 * (if b.getLsbD 5 then 64 else 1)
    (Completes (.cmp e g p a b 0) (fun s => rel s (s.rs a == s.rs b)) ∧ Completes (.cmp e g p a b 1) (fun s => rel s (s.rs a != s.rs b))
      ∧ Completes (.cmp e g p a b 2) (fun s => rel s (decide ((s.rs a).toInt < (s.rs b).toInt)))
      ∧ Completes (.cmp e g p a b 3) (fun s => rel s (decide ((s.rs a).toInt ≤ (s.rs b).toInt))))
    ∧ (Completes (.cmpu e g p a b 0) (fun s => rel s (decide ((s.rs a).toNat < (s.rs b).toNat)))
      ∧ Completes (.cmpu e g p a b 1) (fun s => rel s (decide ((s.rs a).toNat ≤ (s.rs b).toNat)))
      ∧ Completes (.cmpu e g p a b 2) (fun s => rel s (s.rs a &&& s.rs b != 0)) ∧ Completes (.cmpu e g p a b 3) (fun s => rel s (s.rs a &&& s.rs b == 0)))
    ∧ (Completes (.cmpi e g p a b 0) (fun s => rel s (s.rs a == imm)) ∧ Completes (.cmpi e g p a b 1) (fun s => rel s (s.rs a != imm))
      ∧ Completes (.cmpi e g p a b 2) (fun s => rel s (decide ((s.rs a).toInt < imm.toInt)))
      ∧ Completes (.cmpi e g p a b 3) (fun s => rel s (decide ((s.rs a).toInt ≤ imm.toInt))))
    ∧ Completes (.pfrom e g p a) (fun s => toP s p (s.rs a) (BitVec.allOnes 64) 1 0)
    ∧ ∀ (c : Ctx) (x : Vec) (m : W64), c.write (.p 0) x m = c ∧ c.p 0 = BitVec.allOnes 64

/-! ## Control flow -/

/-- Every branch form takes its target, or falls through where LOOP's counter reaches zero; CALL and LBT land what they name; a register
target whose bits 3:0 or 63:57 are not zero is cause 0x06 with the target in TRAPINFO; a taken branch ends the group and discards the squashable results that have not landed
(R82, R102, R338, R339, R340). -/
def Obligations.BranchForms : Prop :=
  ∀ (e : BitVec 1) (g : BitVec 3),
    (∀ d, Completes (.br e g d) (fun s => { target := some ((s.ctx s.cur).pc + 16 * d.signExtend 64) }))
    ∧ (∀ d, Completes (.call e g d) (fun s => { act := (toB s 7 ((s.ctx s.cur).pc + 16)).act, target := some ((s.ctx s.cur).pc + 16 * d.signExtend 64) }))
    ∧ (∀ k : BitVec 3, CompletesWhen (.brb e g k) (fun s => TargetOk (s.rb k.toNat)) (fun s => { target := some (s.rb k.toNat) })
      ∧ TrapsWhen (.brb e g k) (fun s => ¬TargetOk (s.rb k.toNat)) 0x06 (fun s => s.rb k.toNat))
    ∧ (CompletesWhen (.ret e g) (fun s => TargetOk (s.rb 7)) (fun s => { target := some (s.rb 7) })
      ∧ TrapsWhen (.ret e g) (fun s => ¬TargetOk (s.rb 7)) 0x06 (fun s => s.rb 7))
    ∧ (∀ k d, Completes (.lbt e g k d) (fun s => toB s k.toNat ((s.ctx s.cur).pc + 16 * d.signExtend 64)))
    ∧ (∀ k r, Completes (.movb e g k r 0) (fun s => toB s k.toNat (s.rs r)) ∧ Completes (.movb e g k r 1) (fun s => toS s r (s.rb k.toNat) 1))
    ∧ (∀ c w, CompletesWhen (.loop e g c w) (fun s => s.rs c - 1 ≠ 0)
        (fun s => { act := (toS s c (s.rs c - 1) 1).act, target := some ((s.ctx s.cur).pc + 16 * w.signExtend 64) })
      ∧ CompletesWhen (.loop e g c w) (fun s => s.rs c - 1 = 0) (fun s => toS s c 0 1))
    ∧ ∀ (i : Instr) (s : State) (t : W64), let u := done i { target := some t } s
      (u.ctx s.cur).pc = t ∧ (u.ctx s.cur).groupWrites = [] ∧ (u.ctx s.cur).bundles = (s.ctx s.cur).bundles + 1
      ∧ ∀ f ∈ (u.ctx s.cur).flights, f ∈ (s.ctx s.cur).flights ∧ ¬(f.squash = true ∧ (s.ctx s.cur).bundles < f.due)

/-- A condition tree over quad `q` branches to the target of the leaf its shape chooses, continues in sequence at leaf 4, checks its target
as BRB does, and traps with cause 0x03 on a pending test or a pending target of the chosen leaf (R91, R93). -/
def Obligations.ConditionTree : Prop :=
  ∀ (e : BitVec 1) (h : BitVec 3) (q : BitVec 5) (b : BitVec 3), h ≠ 7 →
    let i : Instr := .hdrT e h q b 7 7 7
    let test (s : State) (k : Nat) : Bool := ((s.ctx s.cur).p (4 * q.toNat + k)).getLsbD 0
    let ready (s : State) : Prop := ∀ k ∈ shapeTests h.toNat, (s.ctx s.cur).pending (.p (4 * q.toNat + k)) = false
    let reg (l : Nat) : Nat := (b.toNat + l) % 8
    (∀ l < 4, CompletesWhen i (fun s => ready s ∧ LeafIs h.toNat (test s) l ∧ (s.ctx s.cur).pending (.b (reg l)) = false ∧ TargetOk (s.rb (reg l)))
        (fun s => { target := some (s.rb (reg l)) }))
    ∧ CompletesWhen i (fun s => ready s ∧ LeafIs h.toNat (test s) 4) (fun _ => {})
    ∧ (∀ l < 4, TrapsWhen i (fun s => ready s ∧ LeafIs h.toNat (test s) l ∧ (s.ctx s.cur).pending (.b (reg l)) = false ∧ ¬TargetOk (s.rb (reg l)))
        0x06 (fun s => s.rb (reg l)))
    ∧ (∀ k ∈ shapeTests h.toNat, ∀ s, Issues i s → (s.ctx s.cur).pending (.p (4 * q.toNat + k)) = true → exec i s = .next (trapped i 0x03 0 s))
    ∧ ∀ l < 4, ∀ s, Issues i s → ready s → LeafIs h.toNat (test s) l → (s.ctx s.cur).pending (.b (reg l)) = true →
        exec i s = .next (trapped i 0x03 0 s)

/-- The no-operations and a header that lends nothing commit an empty bundle, and so does a bundle of four no-operations, whatever its stop
bit; a nonzero unused bit of a no-operation is cause 0x01 with its slot marked; a header that lends to a no-operation is cause 0x01 with
its own slot and that slot marked, and so is an opcode that no form is assigned (R84, R88, R99, R103). -/
def Obligations.EmptyBundles : Prop :=
  ∀ (s : State), (s.ctx s.cur).flights.length ≤ 48 →
    (∀ e, exec (.nop e) s = .next (commitBundle s.cur (e == 1) [] [] s)) ∧ exec .vnop s = .next (commitBundle s.cur false [] [] s)
    ∧ exec .xnop s = .next (commitBundle s.cur false [] [] s) ∧ exec .mnop s = .next (commitBundle s.cur false [] [] s)
    ∧ (∀ e, exec (.hdrX e 0 0 0) s = .next (commitBundle s.cur (e == 1) [] [] s))
    ∧ (∀ e l, l ≠ 0 → exec (.hdrX e l 0 0) s = .next (takeTrap s.cur 0x01 0 0b0011 s)
        ∧ exec (.hdrX e 0 l 0) s = .next (takeTrap s.cur 0x01 0 0b0101 s) ∧ exec (.hdrX e 0 0 l) s = .next (takeTrap s.cur 0x01 0 0b1001 s))
    ∧ (∀ (n : Fin 4) (w : W32), exec (.unassignedOpcode n w) s = .next (takeTrap s.cur 0x01 0 (1 <<< n.val) s))
    ∧ (∀ w : W32, w.extractLsb' 24 7 = 0 → w.extractLsb' 0 24 ≠ 0 → decodeSlot .c w = .error .reservedField)
    ∧ (∀ (sl : Slot) (w : W32), sl ≠ .c → w.extractLsb' 25 7 = 0 → w ≠ 0 → decodeSlot sl w = .error .reservedField)
    ∧ ∀ b : BitVec 128,
      (b.extractLsb' 0 31 = 0 → b.extractLsb' 32 96 = 0 → issueBundle s.cur b s = commitBundle s.cur (b.getLsbD 31) [] [] s)
      ∧ (b.extractLsb' 0 24 ≠ 0 → b.extractLsb' 24 7 = 0 → b.extractLsb' 32 96 = 0 → issueBundle s.cur b s = takeTrap s.cur 0x01 0 0b0001 s)
      ∧ (b.extractLsb' 0 32 = 0 → b.extractLsb' 32 25 ≠ 0 → b.extractLsb' 57 7 = 0 → b.extractLsb' 64 64 = 0 →
          issueBundle s.cur b s = takeTrap s.cur 0x01 0 0b0010 s)
      ∧ (b.extractLsb' 0 64 = 0 → b.extractLsb' 64 25 ≠ 0 → b.extractLsb' 89 7 = 0 → b.extractLsb' 96 32 = 0 →
          issueBundle s.cur b s = takeTrap s.cur 0x01 0 0b0100 s)
      ∧ (b.extractLsb' 0 96 = 0 → b.extractLsb' 96 25 ≠ 0 → b.extractLsb' 121 7 = 0 → issueBundle s.cur b s = takeTrap s.cur 0x01 0 0b1000 s)

/-! ## Special registers, parameters, headers -/

/-- CSRD lands the value of the CSR; the registers of the context read as they stand, with FAULTMASK, TRAPCAUSE with HM, TRAPPC, TRAPINFO,
SNAPCNT, TRAPVEC, SAVEBASE, the CTU and random-number registers, CYCLES and BUNDLES at the places of R342 and R343. -/
def Obligations.CsrReads : Prop :=
  ∀ (e : BitVec 1) (g : BitVec 3) (r : BitVec 12) (d : BitVec 6),
    (CompletesWhen (.csrd e g r d) (fun s => 0x030 ≤ r.toNat ∧ r.toNat ≤ 0x04F → r.toNat - 0x030 < (s.ctx s.cur).tileCount)
        (fun s => toS s d (csrRead s s.cur r.toNat) 1))
    ∧ TrapsWhen (.csrd e g r d) (fun s => 0x030 ≤ r.toNat ∧ r.toNat ≤ 0x04F ∧ (s.ctx s.cur).tileCount ≤ r.toNat - 0x030) 0x0D (fun _ => 0x11)
    ∧ ∀ (s : State) (k : Nat), let c := s.ctx k
      csrRead s k 0x010 = c.qmr.setWidth 64 ∧ csrRead s k 0x011 = c.evbase.setWidth 64 ∧ csrRead s k 0x012 = c.nodebase.setWidth 64
      ∧ csrRead s k 0x013 = c.deroff.setWidth 64 ∧ csrRead s k 0x014 = c.rngkey ∧ csrRead s k 0x015 = c.sampcfg
      ∧ csrRead s k 0x050 = c.faultmask.setWidth 64 ∧ csrRead s k 0x051 = (if c.hm then 0x100 else 0) + c.trapcause.setWidth 64
      ∧ csrRead s k 0x052 = c.trappc ∧ csrRead s k 0x053 = c.trapinfo ∧ csrRead s k 0x054 = BitVec.ofNat 64 c.snapshot.length
      ∧ csrRead s k 0x055 = c.trapvec ∧ csrRead s k 0x056 = c.savebase ∧ csrRead s k 0x061 = s.cycles
      ∧ csrRead s k 0x062 = BitVec.ofNat 64 c.bundles ∧ csrRead s k 0x100 = c.ckseq.setWidth 64 ∧ csrRead s k 0x101 = c.sampctr

/-- CSWR writes the writable fields of a writable CSR when its bundle commits, other bits being ignored; a read-only CSR, or one writable in
handler mode only outside it, is cause 0x0B with TRAPINFO 0x0B and the number in bits 27:16 (R341, R342, R343). A handler that writes TRAPPC
also gives up the names the interrupted group had written and its wait at a barrier slot: that is the model's choice (log 49). MPSET lands rd(sS) in mpN after 1 b and checks nothing; TCSET lands rd(sS) in tcN and TCGET lands tcN in sD; a header index at or above
the tile count is cause 0x0D with TRAPINFO 0x11 (R344). -/
def Obligations.SpecialRegisterWrites : Prop :=
  (∀ (e : BitVec 1) (g : BitVec 3) (v : BitVec 6),
    let wr (r : BitVec 12) (f : W64 → Ctx → Ctx) : Prop := Completes (.cswr e g r v) (fun s => onCtx s (f (s.rs v)))
    wr 0x010 (fun x c => { c with qmr := x.extractLsb' 0 3 }) ∧ wr 0x011 (fun x c => { c with evbase := x.extractLsb' 2 17 ++ 0#2 })
    ∧ wr 0x012 (fun x c => { c with nodebase := x.extractLsb' 4 15 ++ 0#4 }) ∧ wr 0x013 (fun x c => { c with deroff := x.extractLsb' 4 19 ++ 0#4 })
    ∧ wr 0x014 (fun x c => { c with rngkey := x }) ∧ wr 0x015 (fun x c => { c with sampcfg := (x.extractLsb' 0 48).setWidth 64 })
    ∧ wr 0x055 (fun x c => { c with trapvec := x.extractLsb' 4 60 ++ 0#4 }) ∧ wr 0x056 (fun x c => { c with savebase := x.extractLsb' 12 52 ++ 0#12 })
    ∧ wr 0x100 (fun x c => { c with ckseq := x.extractLsb' 0 32 }) ∧ wr 0x101 (fun x c => { c with sampctr := x })
    ∧ CompletesWhen (.cswr e g 0x052 v) (fun s => (s.ctx s.cur).hm = true) (fun s => onCtx s fun c => { c with
          trappc := (s.rs v).extractLsb' 4 60 ++ 0#4, heldWrites := [], heldBar := none })
    ∧ TrapsWhen (.cswr e g 0x052 v) (fun s => (s.ctx s.cur).hm = false) 0x0B (fun _ => 0x0052000B)
    ∧ (∀ r : BitVec 12, r ∉ ([0x010, 0x011, 0x012, 0x013, 0x014, 0x015, 0x020, 0x052, 0x055, 0x056, 0x100, 0x101] : List (BitVec 12)) →
        TrapsWhen (.cswr e g r v) (fun _ => True) 0x0B (fun _ => 0x0B + r.setWidth 64 <<< 16))
    ∧ CompletesWhen (.cswr e g 0x020 v) (fun s => (s.array (pairOf s.cur)).idle = true ∧ (s.rs v).extractLsb' 0 2 ≠ 3
          ∧ ∀ k < 4, tget 0 (s.array (pairOf s.cur)).accState k = 0)
        (fun s => { act := fun t => t.modArray (pairOf s.cur) fun a => { a with mode := (s.rs v).extractLsb' 0 2, cutA := false, cutB := false, windowB := false } })
    ∧ TrapsWhen (.cswr e g 0x020 v) (fun s => (s.array (pairOf s.cur)).idle = true ∧ ((s.rs v).extractLsb' 0 2 = 3
          ∨ ∃ k < 4, tget 0 (s.array (pairOf s.cur)).accState k ≠ 0)) 0x0B (fun _ => 6))
  ∧ ∀ (e : BitVec 1) (g : BitVec 3) (m : BitVec 3) (t : BitVec 5) (v : BitVec 6),
    Completes (.mpset e g m v) (fun s => toMp s m.toNat (s.rs v))
    ∧ CompletesWhen (.tcset e g t v) (fun s => t.toNat < (s.ctx s.cur).tileCount) (fun s => toTc s t.toNat (s.rs v))
    ∧ CompletesWhen (.tcget e g t v) (fun s => t.toNat < (s.ctx s.cur).tileCount) (fun s => toS s v ((s.ctx s.cur).tc t.toNat) 1)
    ∧ TrapsWhen (.tcset e g t v) (fun s => (s.ctx s.cur).tileCount ≤ t.toNat) 0x0D (fun _ => 0x11)
    ∧ TrapsWhen (.tcget e g t v) (fun s => (s.ctx s.cur).tileCount ≤ t.toNat) 0x0D (fun _ => 0x11)

/-! ## Barriers, growth, leaving -/

/-- BAR arrives; a second arrival in one phase is cause 0x0B with TRAPINFO 0x0C, a slot not declared 0x09; a wait blocks until the phase has
passed the context's ticket; the arrive of `.aw` also holds the context's next bundle, which is how log 49 reads "arrive, then wait". An arrival takes the phase as its ticket; with
nothing of the context still to perform, the last participant's raises the phase by 1 and empties the arrived set and another's joins it,
and while an earlier bulk operation has not completed the set stays as it is and the arrival waits (R262, R345). -/
def Obligations.BarrierForms : Prop :=
  ∀ (e : BitVec 1) (g : BitVec 3) (n : BitVec 5),
    let declared (s : State) : Prop := n.toNat < (s.group (s.ctx s.cur).group).bars
    let here (s : State) : Prop := (s.ctx s.cur).program ∈ ((s.group (s.ctx s.cur).group).slot n.toNat).arrived
      ∨ ∃ d ∈ (s.ctx s.cur).delayed, d.act = .arrive n.toNat
    let passed (s : State) : Prop := ∀ k, tfind (s.ctx s.cur).tickets n.toNat = some k → k < ((s.group (s.ctx s.cur).group).slot n.toNat).phase
    CompletesWhen (.bar e g n) (fun s => declared s ∧ ¬here s) (fun s => { act := barArrive s.cur n.toNat })
    ∧ CompletesWhen (.barW e g n) (fun s => declared s ∧ passed s) (fun _ => {})
    ∧ BlocksWhen (.barW e g n) (fun s => declared s ∧ ¬passed s) .bar
    ∧ CompletesWhen (.barAw e g n) (fun s => declared s ∧ ¬here s)
        (fun s => { act := fun t => (barArrive s.cur n.toNat t).modCtx s.cur fun c => { c with holdBar := some n.toNat } })
    ∧ (∀ i ∈ [Instr.bar e g n, .barW e g n, .barAw e g n], TrapsWhen i (fun s => ¬declared s) 0x0B (fun _ => 9))
    ∧ (∀ i ∈ [Instr.bar e g n, .barAw e g n], TrapsWhen i (fun s => declared s ∧ here s) 0x0B (fun _ => 0x0C))
    ∧ ∀ (s : State) (k j : Nat),
      let x := s.group (s.ctx k).group
      let t := barArrive k j s
      let y := t.group (s.ctx k).group
      (s.ctx k).delayed = [] → (s.ctx k).program ∈ x.live →
      tfind (t.ctx k).tickets j = some (x.slot j).phase
      ∧ (bulkPending k allClasses s = false → (∀ z ∈ x.live, z ∈ (x.slot j).arrived ∨ z = (s.ctx k).program) →
          (y.slot j).phase = (x.slot j).phase + 1 ∧ (y.slot j).arrived = [])
      ∧ (bulkPending k allClasses s = false → (∃ z ∈ x.live, z ∉ (x.slot j).arrived ∧ z ≠ (s.ctx k).program) →
          (y.slot j).phase = (x.slot j).phase ∧ (y.slot j).arrived = (x.slot j).arrived ++ [(s.ctx k).program])
      ∧ (bulkPending k allClasses s = true → y.slot j = x.slot j ∧ ∃ d ∈ (t.ctx k).delayed, d.act = .arrive j)

/-- GROW, once everything earlier of its context has performed and completed, raises the group count of its task by n < 2^32 and lands the
old count; n = 0 changes nothing; past the group limit it changes nothing and lands all ones; until then it stalls in place, as a release
(R255); n of 2^32 or more is cause 0x06 with n in TRAPINFO (R347). YIELD commits its bundle, passes issue and stays ready. EXIT ends the
context with its bundle: nothing of it is in flight, its handles and streams are gone, its banks, each of which an array lists once, are
idle and free and its core passes issue; it leaves its group's participants at once when nothing of it is still to perform or to complete,
and only later while a bulk operation is (R180, R346, R348, R349). -/
def Obligations.GrowYieldAndExit : Prop :=
  (∀ (e : BitVec 1) (g : BitVec 3) (d a : BitVec 6) (l : Launch) (s : State), Issues (.grow e g d a) s →
    let k := (s.ctx s.cur).launch
    let n := (s.rs a).toNat
    let put (l' : Launch) (x : W64) : Commit :=
      { act := fun t => ({ t with launches := tset t.launches k l' } : State).modCtx s.cur fun c => c.landS d x 1 }
    let i : Instr := .grow e g d a
    tfind s.launches k = some l →
    (2 ^ 32 ≤ n → exec i s = .next (trapped i 0x06 (s.rs a) s))
    ∧ (n < 2 ^ 32 → earlier s.cur allClasses (s.ctx s.cur).memSeq s = true → exec i s = .next (stallCtx s.cur (orderProgress s.cur) s))
    ∧ (n < 2 ^ 32 → earlier s.cur allClasses (s.ctx s.cur).memSeq s = false →
        (n = 0 → exec i s = .next (done i (put l (BitVec.ofNat 64 l.gcount)) s))
        ∧ (0 < n → l.glimit < l.gcount + n → exec i s = .next (done i (put l (BitVec.allOnes 64)) s))
        ∧ (0 < n → l.gcount + n ≤ l.glimit →
            exec i s = .next (done i (put { l with gcount := l.gcount + n } (BitVec.ofNat 64 l.gcount)) s))))
  ∧ ∀ (e : BitVec 1) (g : BitVec 3) (s : State),
    (Issues (.yield e g) s → exec (.yield e g) s = .next (passIssue s.cur (done (.yield e g) {} s))
      ∧ let t := passIssue s.cur (done (.yield e g) {} s)
        (t.ctx s.cur).run = .ready ∧ (t.core (coreOf s.cur)).passing = true ∧ (t.ctx s.cur).pc = (s.ctx s.cur).pc + 16
        ∧ ∀ n, (s.ctx s.cur).pending n = false → (t.ctx s.cur).reg n = (s.ctx s.cur).reg n)
    ∧ (Issues (.exit e g) s → exec (.exit e g) s = .next (issueLate s.cur 15 .leave (endCtx s.cur (done (.exit e g) {} s))))
    ∧ ∀ k : Nat, let t := endCtx k s
      (t.ctx k).run = .exited ∧ (t.core (coreOf k)).passing = true ∧ (t.ctx k).flights = [] ∧ (t.ctx k).handles = []
      ∧ (t.ctx k).streams = []
      ∧ (((s.array (pairOf k)).owners.map (·.1)).Nodup → ∀ b < 2, tfind (s.array (pairOf k)).owners b = some k → tfind (t.array (pairOf k)).owners b = none
          ∧ tget 0 (t.array (pairOf k)).accState (2 * b) = 0 ∧ tget 0 (t.array (pairOf k)).accState (2 * b + 1) = 0)
      ∧ ((s.ctx k).delayed = [] → bulkPending k allClasses s = false →
          (s.ctx k).program ∉ ((issueLate k 15 .leave t).group (s.ctx k).group).live)
      ∧ ((s.ctx k).delayed = [] → bulkPending k allClasses s = true →
          ((issueLate k 15 .leave t).group (s.ctx k).group).live = (s.group (s.ctx k).group).live
            ∧ ∃ d ∈ ((issueLate k 15 .leave t).ctx k).delayed, d.act = .leave)

/-! ## Traps and recovery -/

/-- Taking a trap outside handler mode with a handler: the results in flight that have not landed go into the snapshot with their
distances, every pending bit clears, TRAPCAUSE, HM, TRAPPC, TRAPINFO and FAULTMASK are written, and the next bundle is at TRAPVEC; registers
stay (R427, R428). -/
def Obligations.TrapEntry : Prop :=
  ∀ (g cause : Nat) (info : W64) (mask : BitVec 4) (s : State), (s.ctx g).hm = false → (s.ctx g).stream = false →
    (s.ctx g).trapvec ≠ 0 → freezes cause info = false →
    let t := takeTrap g cause info mask s
    let c := t.ctx g
    c.run = .ready ∧ c.pc = (s.ctx g).trapvec ∧ c.hm = true ∧ c.trapcause = BitVec.ofNat 8 cause ∧ c.trappc = (s.ctx g).pc
      ∧ c.trapinfo = info ∧ c.faultmask = mask ∧ c.flights = [] ∧ (∀ n, c.pending n = false)
      ∧ c.snapshot = ((s.ctx g).flights.filter fun f => !(decide (f.due ≤ (s.ctx g).bundles) && f.poison.isNone)).map (fun f => f.snap (s.ctx g).bundles)
      ∧ c.snapshot.all (fun e => e.poison || decide (0 < e.dist)) = true
      ∧ (∀ n, c.reg n = (s.ctx g).reg n) ∧ t.mem = s.mem

/-- Where no handler is entered: causes 0x04, 0x05, 0x0A, 0x0C and internally poisoned data, and every cause but 0x08 with TRAPVEC 0, freeze
the context with the trap registers written; cause 0x08 with TRAPVEC 0 waits for the runtime; in handler mode every cause freezes and the
trap registers keep the first trap (R343, R354, R428, R431). -/
def Obligations.TrapFreezes : Prop :=
  ∀ (g cause : Nat) (info : W64) (mask : BitVec 4) (s : State), (s.ctx g).stream = false →
    let t := takeTrap g cause info mask s
    ((s.ctx g).hm = false → (freezes cause info = true ∨ ((s.ctx g).trapvec = 0 ∧ cause ≠ 0x08)) →
        (t.ctx g).run = .frozen cause ∧ (t.ctx g).trapcause = BitVec.ofNat 8 cause ∧ (t.ctx g).trappc = (s.ctx g).pc ∧ (t.ctx g).trapinfo = info
          ∧ (t.core (coreOf g)).passing = true)
    ∧ ((s.ctx g).hm = false → cause = 0x08 → (s.ctx g).trapvec = 0 → (t.ctx g).run = .frameWait ∧ (t.ctx g).trappc = (s.ctx g).pc)
    ∧ ((s.ctx g).hm = true → (t.ctx g).run = .frozen cause ∧ SameTrap (s.ctx g) (t.ctx g) ∧ (t.ctx g).flights = (s.ctx g).flights)

/-- TRAP, SYSC and BREAK take effect with their bundle and then trap with causes 0x11, 0x12 and 0x13, the code in TRAPINFO, FAULTMASK 0 and
TRAPPC at the next bundle in sequence (R351). -/
def Obligations.TrapFormsTrapAfterCommit : Prop :=
  ∀ (e : BitVec 1) (g : BitVec 3) (code : BitVec 21) (s : State), (s.ctx s.cur).hm = false → (s.ctx s.cur).stream = false →
    (s.ctx s.cur).boundaryFreeze = none → (s.ctx s.cur).trapvec ≠ 0 → ∀ p ∈ [(Instr.trap e g code, 0x11), (.sysc e g code, 0x12), (.brk e g code, 0x13)], Issues p.1 s →
    ∃ t, exec p.1 s = .next t ∧ (t.ctx s.cur).pc = (s.ctx s.cur).trapvec ∧ (t.ctx s.cur).trapcause = BitVec.ofNat 8 p.2
      ∧ (t.ctx s.cur).hm = true ∧ (t.ctx s.cur).trapinfo = code.setWidth 64 ∧ (t.ctx s.cur).faultmask = 0
      ∧ (t.ctx s.cur).trappc = (s.ctx s.cur).pc + 16 ∧ (t.ctx s.cur).bundles = (s.ctx s.cur).bundles + 1 ∧ t.mem = s.mem

/-- RFE outside handler mode is cause 0x0B with TRAPINFO 0x0A; in it, it lands the handler's results, clears HM, replays the snapshot at its
distances and goes on at TRAPPC, whose check is that of a branch target; SAVEC and LOADC outside handler mode trap alike (R352, R353). -/
def Obligations.ReturnFromHandler : Prop :=
  ∀ (e : BitVec 1) (g : BitVec 3) (s : State),
    (Issues (.rfe e g) s → (s.ctx s.cur).hm = true → TargetOk (s.ctx s.cur).trappc → (∀ f ∈ (s.ctx s.cur).flights, f.poison = none) →
      exec (.rfe e g) s = .next (done (.rfe e g) { rfe := true } s)
      ∧ ∃ t, exec (.rfe e g) s = .next t ∧ (t.ctx s.cur).hm = false ∧ (t.ctx s.cur).pc = (s.ctx s.cur).trappc ∧ (t.ctx s.cur).snapshot = []
        ∧ (∀ n, (s.ctx s.cur).pending n = false → (∀ x ∈ (s.ctx s.cur).snapshot, 0 < x.dist) → (t.ctx s.cur).reg n = (s.ctx s.cur).reg n)
        ∧ ((∀ x ∈ (s.ctx s.cur).snapshot, 0 < x.dist) →
            (t.ctx s.cur).flights = (s.ctx s.cur).snapshot.map fun x => x.flight ((s.ctx s.cur).bundles + 1)))
    ∧ (∀ m r, ∀ i ∈ [Instr.rfe e g, .savec e g m r, .loadc e g m r], TrapsWhen i (fun s => (s.ctx s.cur).hm = false) 0x0B (fun _ => 0x0A))
    ∧ (Issues (.rfe e g) s → (s.ctx s.cur).hm = true → ¬TargetOk (s.ctx s.cur).trappc →
        exec (.rfe e g) s = .next (trapped (.rfe e g) 0x06 (s.ctx s.cur).trappc s))

/-- A trap and the return from its handler leave a context as it was: with no poisoned result and no CTU instruction in flight, every
register, the pc, the results in flight, at their distances, the names its group has written and the barrier it waits at are those of the
interrupted program (R51, R102, R345, R352, R427, R434). That a replayed result keeps its Q bit is log 48, and that the wait of BAR.aw
outlasts the handler is log 49: both are the model's reading. -/
def Obligations.TrapThenReturnRestores : Prop :=
  ∀ (c : Ctx) (cause : Nat) (info : W64) (mask : BitVec 4) (r : Run) (now : Nat),
    (∀ f ∈ c.flights, f.poison = none ∧ ∀ op n z lo hi l, f.dest ≠ .ck op n z lo hi l) →
    let h := { c.stopIssue with trapcause := BitVec.ofNat 8 cause, hm := true, trappc := c.pc, trapinfo := info, faultmask := mask, run := r,
                                heldWrites := c.groupWrites, groupWrites := [], heldBar := c.holdBar, holdBar := none }
    let t := h.rfe now
    t.flights = c.flights.filter (fun f => decide (c.bundles < f.due)) ∧ t.pc = c.pc ∧ t.hm = false ∧ t.groupWrites = c.groupWrites
      ∧ t.holdBar = c.holdBar ∧ ∀ n, t.reg n = c.reg n

/-! ## Vector operations -/

/-- The integer lane operations under their lane mask: modular, saturating and high-half forms, minima and maxima, bitwise operations,
shifts by b[7:0] that shift everything out from 32 on, and the forms with a scalar or an immediate (R140, R145). -/
def Obligations.VectorIntegerForms : Prop :=
  ∀ (q : BitVec 1) (g : BitVec 3) (d a b : BitVec 5) (r : BitVec 6) (w : BitVec 11),
    let m (s : State) : W64 := (s.ctx s.cur).p g.toNat
    let lanes (i : Instr) (f : W32 → W32 → W32) : Prop :=
      Completes i (fun s => toV s d (vecOf fun k => f (lane (s.rv a) k) (lane (s.rv b) k)) (m s) 2 q)
    let clampS (x : Int) : W32 := BitVec.ofInt 32 (max (-2 ^ 31) (min (2 ^ 31 - 1) x))
    let clampU (x : Int) : W32 := BitVec.ofInt 32 (max 0 (min (2 ^ 32 - 1) x))
    lanes (.vadd q g d a b 0) (fun x y => x + y) ∧ lanes (.vadd q g d a b 1) (fun x y => clampS (x.toInt + y.toInt))
    ∧ lanes (.vadd q g d a b 2) (fun x y => clampU ((x.toNat : Int) + y.toNat))
    ∧ lanes (.vsub q g d a b 0) (fun x y => x - y) ∧ lanes (.vsub q g d a b 1) (fun x y => clampS (x.toInt - y.toInt))
    ∧ lanes (.vsub q g d a b 2) (fun x y => clampU ((x.toNat : Int) - y.toNat))
    ∧ lanes (.vmul q g d a b 0) (fun x y => x * y) ∧ lanes (.vmul q g d a b 1) (fun x y => (x.signExtend 64 * y.signExtend 64).extractLsb' 32 32)
    ∧ lanes (.vmul q g d a b 2) (fun x y => (x.setWidth 64 * y.setWidth 64).extractLsb' 32 32)
    ∧ lanes (.vmin q g d a b 0) (fun x y => if y.toInt < x.toInt then y else x) ∧ lanes (.vmin q g d a b 1) (fun x y => if y.toNat < x.toNat then y else x)
    ∧ lanes (.vmax q g d a b 0) (fun x y => if x.toInt < y.toInt then y else x) ∧ lanes (.vmax q g d a b 1) (fun x y => if x.toNat < y.toNat then y else x)
    ∧ lanes (.vand q g d a b) (fun x y => x &&& y) ∧ lanes (.vor q g d a b) (fun x y => x ||| y) ∧ lanes (.vxor q g d a b) (fun x y => x ^^^ y)
    ∧ lanes (.vshl q g d a b) (fun x y => if 32 ≤ y.toNat % 256 then 0 else x <<< (y.toNat % 256))
    ∧ lanes (.vshr q g d a b) (fun x y => if 32 ≤ y.toNat % 256 then 0 else x >>> (y.toNat % 256))
    ∧ lanes (.vsar q g d a b) (fun x y => x.sshiftRight (y.toNat % 256))
    ∧ Completes (.vadds q g d a r 0) (fun s => toV s d (vecOf fun k => lane (s.rv a) k + (s.rs r).setWidth 32) (m s) 2 q)
    ∧ Completes (.vmuls q g d a r 0) (fun s => toV s d (vecOf fun k => lane (s.rv a) k * (s.rs r).setWidth 32) (m s) 2 q)
    ∧ Completes (.vadds q g d a r 1) (fun s => toV s d (vecOf fun k => fadd (lane (s.rv a) k) ((s.rs r).setWidth 32)) (m s) 4 q)
    ∧ Completes (.vmuls q g d a r 1) (fun s => toV s d (vecOf fun k => fmul (lane (s.rv a) k) ((s.rs r).setWidth 32)) (m s) 4 q)
    ∧ Completes (.vli q g d w) (fun s => toV s d (vecOf fun _ => w.signExtend 32) (m s) 2 q)

/-- The FP32 lane operations complete under their lane mask at the latencies of their rows, each lane taking the value its own function
gives the lanes of its operands. Sums, products and the fused form of numbers that are no NaN round the exact value once; a NaN operand
gives the first NaN in operand order, quieted, an invalid operation 0x7FC0_0000, and a minimum or maximum without its modifier ignores a
NaN beside a number; the special operands of R149's table that are written out give its results (R146 to R149). Dequantising, quantising
and the random generator complete lane by lane: the scale entry of lane 0 or of each lane, and one of the two words the generator gives
for the key and the two vectors (R164 to R166). -/
def Obligations.VectorFloatForms : Prop :=
  (∀ (q : BitVec 1) (g : BitVec 3) (d a b c : BitVec 5) (n : BitVec 1) (m6 : BitVec 6),
    let m (s : State) : W64 := (s.ctx s.cur).p g.toNat
    let two (i : Instr) (f : W32 → W32 → W32) : Prop :=
      Completes i (fun s => toV s d (vecOf fun k => f (lane (s.rv a) k) (lane (s.rv b) k)) (m s) 4 q)
    let one (i : Instr) (f : W32 → W32) (lat : Nat) : Prop := Completes i (fun s => toV s d (vecOf fun k => f (lane (s.rv a) k)) (m s) lat q)
    two (.vfadd q g d a b) fadd ∧ two (.vfsub q g d a b) fsub ∧ two (.vfmul q g d a b) fmul
    ∧ Completes (.vfma q g d a b c n) (fun s =>
        toV s d (vecOf fun k => ffma (n == 1) (lane (s.rv a) k) (lane (s.rv b) k) (lane (s.rv c) k)) (m s) 4 q)
    ∧ two (.vfmin q g d a b m6) (fminmax false (m6 == 1)) ∧ two (.vfmax q g d a b m6) (fminmax true (m6 == 1))
    ∧ one (.vfrcp q g d a) frcp 8 ∧ one (.vfrsq q g d a) frsq 8 ∧ one (.vfexp2 q g d a) fexp2 8 ∧ one (.vflog2 q g d a) flog2 8
    ∧ one (.vcvt q g d a m6) (vcvtLane m6.toNat) 4 ∧ one (.vfclass q g d a 0) fclass32 4
    ∧ Completes (.vfclass q g d a 1) (fun s => toV s d (vecOfElems fun k => (dkClass (elem (s.rv a) k)).setWidth 64)
        (elemMask (m s)) 5 q)
    ∧ ∀ (x y z : W32) (neg : Bool),
      let nan (u : W32) : Prop := u.extractLsb' 23 8 = 0xFF ∧ u.extractLsb' 0 23 ≠ 0
      let quiet (u : W32) : W32 := u ||| 0x00400000
      (nan x → fadd x y = quiet x ∧ fsub x y = quiet x ∧ fmul x y = quiet x ∧ ffma neg x y z = quiet x ∧ fminmax neg true x y = quiet x)
      ∧ (¬nan x → nan y → fadd x y = quiet y ∧ fsub x y = quiet y ∧ fmul x y = quiet y ∧ ffma neg x y z = quiet y ∧ fminmax neg true x y = quiet y)
      ∧ (¬nan x → ¬nan y → nan z → ffma neg x y z = quiet z)
      ∧ (nan x → nan y → fminmax neg false x y = quiet x) ∧ (nan x → ¬nan y → fminmax neg false x y = y) ∧ (¬nan x → nan y → fminmax neg false x y = x)
      ∧ fadd 0x7F800000 0xFF800000 = 0x7FC00000 ∧ fsub 0x7F800000 0x7F800000 = 0x7FC00000 ∧ fmul 0 0x7F800000 = 0x7FC00000
      ∧ (¬nan x → ¬nan y → (((f32 x).add (f32 y)).isNan = false → fadd x y = toF32 ((f32 x).add (f32 y)))
          ∧ (((f32 x).mul (f32 y)).isNan = false → fmul x y = toF32 ((f32 x).mul (f32 y)))
          ∧ (¬nan z → ∀ v, v = (if neg then ((f32 x).mul (f32 y)).neg else (f32 x).mul (f32 y)) → (v.add (f32 z)).isNan = false →
              ffma neg x y z = toF32 (v.add (f32 z))))
      ∧ frcp 0 = 0x7F800000 ∧ frcp 0x80000000 = 0xFF800000 ∧ frcp 0xFF800000 = 0x80000000 ∧ frsq 0 = 0x7F800000 ∧ frsq 0x80000000 = 0xFF800000
      ∧ frsq 0x7F800000 = 0 ∧ frsq 0xBF800000 = 0x7FC00000 ∧ fexp2 0xFF800000 = 0 ∧ fexp2 0x7F800000 = 0x7F800000
      ∧ flog2 0 = 0xFF800000 ∧ flog2 0x7F800000 = 0x7F800000 ∧ flog2 0xBF800000 = 0x7FC00000)
  ∧ ∀ (q : BitVec 1) (g : BitVec 3) (d a b : BitVec 5) (n : BitVec 2),
    let m (s : State) : W64 := (s.ctx s.cur).p g.toNat
    let sc (s : State) (k : Nat) : W32 := lane (s.rv b) (if n.getLsbD 1 then k else 0)
    Completes (.vqdeq q g d a b n) (fun s => toV s d (vecOf fun k => vqdeqLane (n.getLsbD 0) (lane (s.rv a) k) (sc s k)) (m s) 4 q)
    ∧ Completes (.vqnt q g d a b n) (fun s => toV s d (vecOf fun k => vqntLane (n.getLsbD 0) (lane (s.rv a) k) (sc s k)) (m s) 4 q)
    ∧ Completes (.vrng q g d a b 0) (fun s => toV s d (vecOf fun k => (rng (s.ctx s.cur).rngkey (lane (s.rv a) k) (lane (s.rv b) k)).1) (m s) 2 q)
    ∧ Completes (.vrng q g d a b 1) (fun s => toV s d (vecOf fun k => (rng (s.ctx s.cur).rngkey (lane (s.rv a) k) (lane (s.rv b) k)).2) (m s) 2 q)

/-- Ducat operations complete on elements under the even bits of the lane mask at 5 bundles when no active element leaves the range; the
lowest active element that leaves it is cause 0x07 with its number and side in TRAPINFO; a narrowing to Ducat-32 writes the half it names
and zeros in the other, and its lowest active element out of range traps alike (R121, R141, R152 to R154). -/
def Obligations.DucatForms : Prop :=
  ∀ (q : BitVec 1) (g : BitVec 3) (d a b : BitVec 5) (r : BitVec 6),
    let m (s : State) : W64 := (s.ctx s.cur).p g.toNat
    let act (s : State) (k : Nat) : Bool := (m s).getLsbD (2 * k)
    let em (s : State) : W64 := predOf fun l => (m s).getLsbD (2 * (l / 2))
    let form (i : Instr) (f : State → Nat → Except Bool W64) : Prop :=
      (∀ s (v : Nat → W64), Issues i s → (∀ k < 32, act s k = true → f s k = .ok (v k)) → (∀ k, act s k = false → v k = okOr0 (f s k)) →
        exec i s = .next (done i (toV s d (vecOfElems v) (em s) 5 q) s))
      ∧ ∀ s k hi, Issues i s → k < 32 → act s k = true → f s k = .error hi → (∀ j < k, act s j = true → ∃ x, f s j = .ok x) →
        exec i s = .next (trapped i 0x07 (BitVec.ofNat 64 ((if hi then 1 else 0) + 256 * k)) s)
    form (.vdadd q g d a b 0) (fun s k => dkAdd (elem (s.rv a) k) (elem (s.rv b) k))
    ∧ form (.vdadd q g d a b 1) (fun s k => dkAdd (elem (s.rv a) k) (elem (s.rv b) k ^^^ 0x8000000000000000))
    ∧ form (.vdmul q g d a b) (fun s k => dkMul (elem (s.rv a) k) (elem (s.rv b) k))
    ∧ form (.vdmax q g d a b 0) (fun s k => .ok (dkMinMax true (elem (s.rv a) k) (elem (s.rv b) k)))
    ∧ form (.vdmax q g d a b 1) (fun s k => .ok (dkMinMax false (elem (s.rv a) k) (elem (s.rv b) k)))
    ∧ form (.vdscl q g d a r) (fun s k => dkScale (elem (s.rv a) k) (s.rs r).toInt)
    ∧ ∀ hi : BitVec 1, let off := 32 * hi.toNat
      form (.vdcvt q g d a (hi ++ 0#2)) (fun s k => .ok (dk32Widen (lane (s.rv a) (k + off))))
      ∧ form (.vdcvt q g d a (hi ++ 2#2)) (fun s k => .ok (dkOfFp (f32 (lane (s.rv a) (k + off)))))
      ∧ CompletesWhen (.vdcvt q g d a (hi ++ 1#2)) (fun s => ∀ k < 32, (m s).getLsbD (k + off) = true → ∃ x, dk32Narrow (elem (s.rv a) k) = .ok x)
          (fun s => toV s d (vecOf fun l => if off ≤ l ∧ l < off + 32 then (match dk32Narrow (elem (s.rv a) (l - off)) with | .ok x => x | .error _ => 0)
            else 0) (m s) 5 q)
      ∧ (∀ s k above, Issues (.vdcvt q g d a (hi ++ 1#2)) s → k < 32 → (m s).getLsbD (k + off) = true →
          dk32Narrow (elem (s.rv a) k) = .error above →
          (∀ j < k, (m s).getLsbD (j + off) = true → ∃ x, dk32Narrow (elem (s.rv a) j) = .ok x) → exec (.vdcvt q g d a (hi ++ 1#2)) s
            = .next (trapped (.vdcvt q g d a (hi ++ 1#2)) 0x07 (BitVec.ofNat 64 ((if above then 1 else 0) + 256 * k)) s))
      ∧ Completes (.vdcvt q g d a (hi ++ 3#2))
          (fun s => toV s d (vecOf fun l => if off ≤ l ∧ l < off + 32 then toF32 (dkToFp (elem (s.rv a) (l - off))) else 0) (m s) 5 q)

/-- The moves between lanes and scalars under their lane mask at 2 bundles: permutations by lane and by byte, nibbles, shuffles, broadcasts,
extraction, insertion at either end, lane numbers, copies (R142, R155 to R158). -/
def Obligations.VectorMoves : Prop :=
  ∀ (q : BitVec 1) (g : BitVec 3) (d a b : BitVec 5) (r l : BitVec 6) (n : BitVec 5),
    let m (s : State) : W64 := (s.ctx s.cur).p g.toNat
    let v (i : Instr) (f : State → Nat → W32) : Prop := Completes i (fun s => toV s d (vecOf (f s)) (m s) 2 q)
    let A (s : State) := lane (s.rv a)
    let B (s : State) := lane (s.rv b)
    let lo (s : State) : W32 := (s.rs r).extractLsb' 0 32
    let hi (s : State) : W32 := (s.rs r).extractLsb' 32 32
    v (.vperm q g d a b 0) (fun s k => if (B s k).getLsbD 31 then 0 else A s ((B s k).toNat % 64))
    ∧ Completes (.vperm q g d a b 1) (fun s => toV s d (BitVec.ofNat 2048 (packNat 8
        (fun k => ((s.rv a).extractLsb' (8 * ((s.rv b).extractLsb' (8 * k) 8).toNat) 8).toNat) 256)) (m s) 2 q)
    ∧ v (.vnib q g d a n) (fun s k => let c := (s.rv a).extractLsb' (4 * (64 * (n.toNat % 8) + k)) 4
        let x : Int := if n.getLsbD 3 then c.toInt else c.toNat
        if n.getLsbD 4 then toF32 (ofInt x) else BitVec.ofInt 32 x)
    ∧ v (.vshuf q g d a b 0) (fun s k => if k % 2 = 0 then A s (k / 2) else B s (k / 2))
    ∧ v (.vshuf q g d a b 1) (fun s k => if k % 2 = 0 then A s (k / 2 + 32) else B s (k / 2 + 32))
    ∧ v (.vshuf q g d a b 2) (fun s k => if k < 32 then A s (2 * k) else B s (2 * (k - 32)))
    ∧ v (.vshuf q g d a b 3) (fun s k => if k < 32 then A s (2 * k + 1) else B s (2 * (k - 32) + 1))
    ∧ v (.vbcast q g d r 0) (fun s _ => lo s) ∧ v (.vbcast q g d r 1) (fun s k => if k % 2 = 0 then lo s else hi s)
    ∧ v (.vins q g d a r 0) (fun s k => if k = 0 then lo s else A s (k - 1))
    ∧ v (.vins q g d a r 1) (fun s k => if k = 0 then lo s else if k = 1 then hi s else A s (k - 2))
    ∧ v (.vins q g d a r 2) (fun s k => if k = 63 then lo s else A s (k + 1))
    ∧ v (.vins q g d a r 3) (fun s k => if k = 62 then lo s else if k = 63 then hi s else A s (k + 2))
    ∧ v (.viota q g d 0) (fun _ k => BitVec.ofNat 32 k)
    ∧ v (.viota q g d 1) (fun s k => BitVec.ofNat 32 ((List.range k).countP fun j => (m s).getLsbD j)) ∧ v (.vmov q g d a) A
    ∧ (let x (i : Instr) (f : State → W64) : Prop := CompletesWhen i (fun s => (m s).getLsbD l.toNat = true)
          (fun s => onCtx s fun c => c.land (.s r.toNat) ((f s).setWidth 2048) (BitVec.allOnes 64) 2 (q == 1) none);
        x (.vmovs q g r a l 0) (fun s => (A s l.toNat).signExtend 64) ∧ x (.vmovs q g r a l 1) (fun s => (A s l.toNat).setWidth 64)
        ∧ x (.vmovs q g r a l 2) (fun s => A s (l.toNat + 1) ++ A s l.toNat))
    ∧ ∀ k, CompletesWhen (.vmovs q g r a l k) (fun s => (m s).getLsbD l.toNat = false) (fun _ => {})

/-- Reductions fold a balanced tree over 64 lanes or 32 elements, excluded ones standing as the identity, into element 0 of a vector that is
written whole; scans leave the running value in each lane; a Ducat sum that leaves the range is cause 0x07 with the side of the earliest
level's failure, and of a scan with the lowest element at fault; an integer sum is the sum of the active lanes modulo 2^32 (R134, R135,
R142, R143, R159). Which of several additions out of range is named is log 29, the model's reading of the loops of R134 and R135. -/
def Obligations.VectorReductions : Prop :=
  ∀ (q : BitVec 1) (g : BitVec 3) (d a : BitVec 5) (n : BitVec 6),
    let m (s : State) : W64 := (s.ctx s.cur).p g.toNat
    let whole (s : State) (x : Vec) : Commit := toV s d x (BitVec.allOnes 64) 6 q
    (n.toNat ≤ 5 → Completes (.vred q g d a n) (fun s =>
        whole s (((treeFold (redOp n.toNat).1 6 (redLanes n.toNat (m s) (s.rv a))).headD 0).setWidth 2048))
      ∧ Completes (.vscan q g d a n) (fun s =>
        let r := scanFold (redOp n.toNat).1 6 1 (redLanes n.toNat (m s) (s.rv a))
        whole s (vecOf fun i => r.getD i 0)))
    ∧ (5 < n.toNat → ∀ s, (Issues (.vred q g d a n) s →
        (∀ x, (treeFold (redDk n.toNat) 5 (redElems n.toNat (m s) (s.rv a))).headD (.ok 0) = .ok x →
          exec (.vred q g d a n) s = .next (done (.vred q g d a n) (whole s (x.setWidth 2048)) s))
        ∧ ∀ lag hi, (treeFold (redDk n.toNat) 5 (redElems n.toNat (m s) (s.rv a))).headD (.ok 0) = .error (lag, hi) →
          exec (.vred q g d a n) s = .next (trapped (.vred q g d a n) 0x07 (BitVec.ofNat 64 hi.toNat) s))
      ∧ (Issues (.vscan q g d a n) s →
        (∀ k < 32, ∃ x, (scanFold (redDk n.toNat) 5 1 (redElems n.toNat (m s) (s.rv a))).getD k (.ok 0) = .ok x) →
        exec (.vscan q g d a n) s = .next (done (.vscan q g d a n)
          (whole s (vecOfElems fun i => okOr0 (((scanFold (redDk n.toNat) 5 1 (redElems n.toNat (m s) (s.rv a))).getD i (.ok 0)).mapError (·.2)))) s))
      ∧ ∀ k < 32, ∀ lag hi, Issues (.vscan q g d a n) s →
        (scanFold (redDk n.toNat) 5 1 (redElems n.toNat (m s) (s.rv a))).getD k (.ok 0) = .error (lag, hi) →
        (∀ j < k, ∃ x, (scanFold (redDk n.toNat) 5 1 (redElems n.toNat (m s) (s.rv a))).getD j (.ok 0) = .ok x) →
        exec (.vscan q g d a n) s = .next (trapped (.vscan q g d a n) 0x07 (BitVec.ofNat 64 (hi.toNat + 256 * k)) s))
    ∧ ∀ (mask : W64) (v : Vec), (treeFold (redOp 0).1 6 (redLanes 0 mask v)).headD 0
      = BitVec.ofNat 32 (((List.range 64).map fun i => if mask.getLsbD i then (lane v i).toNat else 0).sum)

/-- Compares write every bit of their predicate, zero where the mask is zero; predicate operations merge under the mask after 1 bundle; PCNT
counts or finds set bits of the masked predicate; a write to p0 is discarded (R142, R160 to R163). -/
def Obligations.PredicateForms : Prop :=
  ∀ (q : BitVec 1) (g : BitVec 3) (p x y : BitVec 7) (d : BitVec 6) (a b : BitVec 5) (c : BitVec 4),
    let m (s : State) : W64 := (s.ctx s.cur).p g.toNat
    let cmp (k : BitVec 4) (f : W32 → W32 → Bool) : Prop := Completes (.vcmp q g p a b k) (fun s =>
      toP s p (predOf fun i => (m s).getLsbD i && f (lane (s.rv a) i) (lane (s.rv b) i)) (BitVec.allOnes 64) 2 q)
    let two (i : Instr) (f : W64 → W64 → W64) : Prop := Completes i (fun s => toP s p (f (s.rp x) (s.rp y)) (m s) 1 q)
    let cnt (k : BitVec 8) (f : W64 → Nat → Prop) : Prop := ∀ s, Issues (.pcnt q g d x k) s → ∃ n : Nat, f (s.rp x &&& m s) n
      ∧ exec (.pcnt q g d x k) s = .next (done (.pcnt q g d x k)
          (onCtx s fun z => z.land (.s d.toNat) ((BitVec.ofNat 64 n : W64).setWidth 2048) (BitVec.allOnes 64) 1 (q == 1) none) s)
    cmp 0 (fun u v => u == v) ∧ cmp 1 (fun u v => u != v) ∧ cmp 2 (fun u v => decide (u.toInt < v.toInt)) ∧ cmp 3 (fun u v => decide (u.toInt ≤ v.toInt))
    ∧ cmp 4 (fun u v => decide (u.toNat < v.toNat)) ∧ cmp 5 (fun u v => decide (u.toNat ≤ v.toNat)) ∧ cmp 6 (fun u v => u &&& v != 0)
    ∧ cmp 7 (fun u v => u &&& v == 0)
    ∧ (c.toNat < 8 → Completes (.vfcmp q g p a b c) (fun s =>
        toP s p (predOf fun i => (m s).getLsbD i && fcmp32 c.toNat (lane (s.rv a) i) (lane (s.rv b) i)) (BitVec.allOnes 64) 4 q))
    ∧ (8 ≤ c.toNat → Completes (.vfcmp q g p a b c) (fun s =>
        toP s p (predOf fun i => bit (elemMask (m s)) i && dkRel (c.toNat - 8) (elem (s.rv a) (i / 2)) (elem (s.rv b) (i / 2))) (BitVec.allOnes 64) 5 q))
    ∧ two (.pand q g p x y) (fun u v => u &&& v) ∧ two (.por q g p x y) (fun u v => u ||| v) ∧ two (.pxor q g p x y) (fun u v => u ^^^ v)
    ∧ two (.pandn q g p x y) (fun u v => u &&& ~~~v)
    ∧ (∀ (z : Ctx) (v : Vec) (u : W64), z.write (.p 0) v u = z ∧ z.p 0 = BitVec.allOnes 64)
    ∧ cnt 0 (fun u n => n = (List.range 64).countP fun i => u.getLsbD i)
    ∧ cnt 1 (fun u n => n ≤ 64 ∧ (∀ i < n, u.getLsbD i = false) ∧ (n < 64 → u.getLsbD n = true))
    ∧ cnt 2 (fun u n => (u = 0 → n = 64) ∧ (u ≠ 0 → n < 64 ∧ u.getLsbD n = true ∧ ∀ i, n < i → i < 64 → u.getLsbD i = false))


/-! ## Loads and stores -/

/-- Loads of 8, 4, 2 and 1 bytes at base + offset × size, zero- or sign-extended, landing after the latency of the window, once nothing
earlier holds the access (R254, R256); LDDP loads at the base, which then moves; poison goes with the result (R281, R283, R285, R286). The
frame read is touched (R418; log 50). -/
def Obligations.ScalarLoads : Prop :=
  ∀ (q : BitVec 1) (g : BitVec 3) (d b : BitVec 6) (c : BitVec 4) (f : BitVec 5),
    let rd (s : State) (x : Sector) (h : Ctx → Ctx) : Commit := { act := fun t => (touchRead [x] t).modCtx s.cur h }
    let ld (i : Instr) (size : Nat) (ext : Nat → W64) : Prop := ∀ s x, Issues i s →
      access1 s s.cur (addrOff (s.rs b) (f.toInt * size)) size .r c.toNat = .ok x → inOrder s s.cur c.toNat [x] = .ok () →
      exec i s = .next (done i (rd s x fun z => z.land (.s d.toNat) ((ext (leNat (readPlace s x.place size))).setWidth 2048) (BitVec.allOnes 64)
        x.latency (q == 1) (poisonAt s x.place size)) s)
    ld (.ldd q g d b c f) 8 (fun n => BitVec.ofNat 64 n)
    ∧ ld (.ldw q g d b c f) 4 (fun n => (BitVec.ofNat 32 n).signExtend 64) ∧ ld (.ldwu q g d b c f) 4 (fun n => (BitVec.ofNat 32 n).setWidth 64)
    ∧ ld (.ldh q g d b c f) 2 (fun n => (BitVec.ofNat 16 n).signExtend 64) ∧ ld (.ldhu q g d b c f) 2 (fun n => (BitVec.ofNat 16 n).setWidth 64)
    ∧ ld (.ldb q g d b c f) 1 (fun n => (BitVec.ofNat 8 n).signExtend 64) ∧ ld (.ldbu q g d b c f) 1 (fun n => (BitVec.ofNat 8 n).setWidth 64)
    ∧ ∀ s x, Issues (.lddp q g d b c f) s → access1 s s.cur (s.rs b).toNat 8 .r c.toNat = .ok x → inOrder s s.cur c.toNat [x] = .ok () →
      exec (.lddp q g d b c f) s = .next (done (.lddp q g d b c f) (rd s x fun z =>
        (z.land (.s d.toNat) ((BitVec.ofNat 64 (leNat (readPlace s x.place 8)) : W64).setWidth 2048) (BitVec.allOnes 64) x.latency (q == 1)
          (poisonAt s x.place 8)).land (.s b.toNat) ((s.rs b + BitVec.ofInt 64 (f.toInt * 8)).setWidth 2048) (BitVec.allOnes 64) 1 (q == 1) none) s)

/-- Stores write the low bytes of their register, little-endian, at base + offset × size when the bundle commits, or later when something
earlier holds them (R4, R255, R256, R285). THE FRAME of a store to device-physical memory that nothing holds: every other byte of memory,
every other context's registers, the special and trap registers and every register with no result in flight are as before. -/
def Obligations.ScalarStores : Prop :=
  ∀ (g : BitVec 3) (d b : BitVec 6) (c : BitVec 4) (f : BitVec 5),
    ∀ p ∈ ([(.std g d b c f, 8), (.stw g d b c f, 4), (.sth g d b c f, 2), (.stb g d b c f, 1)] : List (Instr × Nat)), ∀ s x, Issues p.1 s →
      access1 s s.cur (addrOff (s.rs b) (f.toInt * (p.2 : Int))) p.2 .w c.toNat = .ok x → storeInOrder s s.cur [x] = .ok () →
      exec p.1 s = .next (done p.1 { act := putStores s.cur c.toNat [(x.place, leBytes p.2 (s.rs d).toNat)] } s)
      ∧ ∀ base off, memWf s.mem = true → x.place = .dp base false off → storeHeld s.cur c.toNat [(x.place, p.2)] s = false →
        ∃ t, exec p.1 s = .next t ∧ readBytes t.mem (base + off) p.2 = leBytes p.2 (s.rs d).toNat
        ∧ (∀ a, a < base + off ∨ base + off + p.2 ≤ a → t.byteAt a = s.byteAt a)
        ∧ (∀ h n, h ≠ s.cur → (t.ctx h).reg n = (s.ctx h).reg n) ∧ (∀ n, (s.ctx s.cur).pending n = false → (t.ctx s.cur).reg n = (s.ctx s.cur).reg n)
        ∧ SameSpecial (s.ctx s.cur) (t.ctx s.cur) ∧ SameTrap (s.ctx s.cur) (t.ctx s.cur)

/-- Vector loads and stores move the sectors that hold an active lane, once nothing earlier holds them: a load lands its lanes under the
mask, a store writes its active lanes and no other; sector k stands at base + offset × 256 + 64 k, computed exactly (R7); the post-increment
forms access at the base, which then moves by offset × 256; a base that is not a multiple of 64 is cause 0x06 (R254, R282, R287). -/
def Obligations.VectorLoadsAndStores : Prop :=
  ∀ (q : BitVec 1) (g : BitVec 3) (d : BitVec 5) (b : BitVec 6) (c : BitVec 4) (f : BitVec 6),
    let m (s : State) : W64 := (s.ctx s.cur).p g.toNat
    let e (s : State) : Env := { g := s.cur, gd := g }
    let secs (s : State) : List Nat := (List.range 4).filter fun k => (List.range 16).any fun j => (m s).getLsbD (16 * k + j)
    let near (s : State) : Nat := addrOff (s.rs b) (f.toInt * 256)
    let next (s : State) : W64 := s.rs b + BitVec.ofInt 64 (f.toInt * 256)
    let lands (s : State) (l : List (Nat × Sector)) (z : Ctx) : Ctx :=
      z.land (.v d.toNat) (vecOfSectors s l) (m s) ((l.map fun x => x.2.latency).headD 4) (q == 1) (poisonOf s (l.map (·.2)))
    let ld (s : State) (l : List (Nat × Sector)) (h : Ctx → Ctx) : Commit :=
      does fun t => (touchRead (l.map (·.2)) t).modCtx s.cur fun z => h (lands s l z)
    let loads (s : State) (off : Int) (l : List (Nat × Sector)) : Prop := vecAccess (e s) (s.rs b) off .r c s = .ok l
      ∧ inOrder s s.cur c.toNat (l.map (·.2)) = .ok ()
    let stores (s : State) (off : Int) (l : List (Nat × Sector)) : Prop := vecAccess (e s) (s.rs b) off .w c s = .ok l
      ∧ storeInOrder s s.cur (l.map (·.2)) = .ok ()
    let put (s : State) (l : List (Nat × Sector)) : State → State := putStores s.cur c.toNat (storeLanes (m s) (s.rv d) l)
    (∀ s l, Issues (.vld q g d b c f) s → loads s (f.toInt * 256) l → exec (.vld q g d b c f) s = .next (done (.vld q g d b c f) (ld s l id) s))
    ∧ (∀ s l, Issues (.vst g d b c f) s → stores s (f.toInt * 256) l → exec (.vst g d b c f) s = .next (done (.vst g d b c f) { act := put s l } s))
    ∧ (∀ s l, Issues (.vldp q g d b c f) s → loads s 0 l → exec (.vldp q g d b c f) s = .next (done (.vldp q g d b c f)
        (ld s l fun z => z.land (.s b.toNat) ((next s).setWidth 2048) (BitVec.allOnes 64) 1 (q == 1) none) s))
    ∧ (∀ s l, Issues (.vstp g d b c f) s → stores s 0 l → exec (.vstp g d b c f) s = .next (done (.vstp g d b c f)
        { act := fun t => (put s l t).modCtx s.cur fun z => z.landS b (next s) 1 } s))
    ∧ (TrapsWhen (.vld q g d b c f) (fun s => near s % 64 ≠ 0) 0x06 (fun s => BitVec.ofNat 64 (near s))
      ∧ TrapsWhen (.vst g d b c f) (fun s => near s % 64 ≠ 0) 0x06 (fun s => BitVec.ofNat 64 (near s))
      ∧ TrapsWhen (.vldp q g d b c f) (fun s => (s.rs b).toNat % 64 ≠ 0) 0x06 (fun s => s.rs b)
      ∧ TrapsWhen (.vstp g d b c f) (fun s => (s.rs b).toNat % 64 ≠ 0) 0x06 (fun s => s.rs b))
    ∧ ∀ (s : State) (off : Int) (k : Right) (l : List (Nat × Sector)), vecAccess (e s) (s.rs b) off k c s = .ok l →
      l.map (·.1) = secs s ∧ (∀ x ∈ l, x.2.va = addrOff (s.rs b) (off + 64 * x.1) ∧ x.2.n = 64)
      ∧ ∀ x ∈ storeLanes (m s) (s.rv d) l, ∃ y ∈ l, (x.1 = y.2.place ∧ x.2.length = 64 ∧ ∀ j < 16, (m s).getLsbD (16 * y.1 + j) = true)
          ∨ ∃ j < 16, (m s).getLsbD (16 * y.1 + j) = true ∧ x.1 = y.2.place.plus (4 * j) ∧ x.2 = leBytes 4 (lane (s.rv d) (16 * y.1 + j)).toNat

/-- Every atomic reads its word, writes the new value and lands the old one after 1 bundle, as one commit, once nothing earlier of its class
holds it and, with release order, once everything earlier has performed; ADADD of values whose sum leaves the range is cause 0x07, and a
poisoned word cause 0x14 (R255, R293 to R295, R442). -/
def Obligations.Atomics : Prop :=
  ∀ (g : BitVec 3) (d b r : BitVec 6) (o : BitVec 3),
    let word (s : State) (n : Nat) (x : Sector) : Prop := (s.rs b).toNat % n = 0 ∧ access s s.cur [((s.rs b).toNat, n)] .a 15 scClass = .ok [x]
      ∧ inOrder s s.cur 15 [x] = .ok () ∧ (o.getLsbD 1 = true → afterAll s s.cur = .ok ())
    let put (s : State) (x : Sector) (n new : Nat) (res : W64) : Commit :=
      { act := fun t => (writePlace x.place (leBytes n new) t).modCtx s.cur fun c => c.landS d res 1 }
    let old (s : State) (x : Sector) : W64 := BitVec.ofNat 64 (leNat (readPlace s x.place 8))
    let oldW (s : State) (x : Sector) : W32 := BitVec.ofNat 32 (leNat (readPlace s x.place 4))
    let a64 (i : Instr) (op : State → W64 → W64) : Prop := ∀ s x, Issues i s → word s 8 x → poisonAt s x.place 8 = none →
      exec i s = .next (done i (put s x 8 (op s (old s x)).toNat (old s x)) s)
    let a32 (i : Instr) (op : State → W32 → W32) (ext : W32 → W64) : Prop := ∀ s x, Issues i s → word s 4 x → poisonAt s x.place 4 = none →
      exec i s = .next (done i (put s x 4 (op s (oldW s x)).toNat (ext (oldW s x))) s)
    a64 (.aadd g d b r o) (fun s w => w + s.rs r) ∧ a64 (.amax g d b r o) (fun s w => if w.toInt < (s.rs r).toInt then s.rs r else w)
    ∧ a64 (.amin g d b r o) (fun s w => if (s.rs r).toInt < w.toInt then s.rs r else w) ∧ a64 (.aor g d b r o) (fun s w => w ||| s.rs r)
    ∧ a64 (.aand g d b r o) (fun s w => w &&& s.rs r) ∧ a64 (.axchg g d b r o) (fun s _ => s.rs r)
    ∧ a64 (.acas g d b r o) (fun s w => if w = s.rs d then s.rs r else w)
    ∧ a32 (.aaddw g d b r o) (fun s w => w + (s.rs r).setWidth 32) (fun w => w.signExtend 64)
    ∧ a32 (.afadd g d b r o) (fun s w => fadd w ((s.rs r).setWidth 32)) (fun w => w.setWidth 64)
    ∧ (∀ s x v, Issues (.adadd g d b r o) s → word s 8 x → poisonAt s x.place 8 = none → dkAdd (old s x) (s.rs r) = .ok v →
        exec (.adadd g d b r o) s = .next (done (.adadd g d b r o) (put s x 8 v.toNat (old s x)) s))
    ∧ (∀ s x hi, Issues (.adadd g d b r o) s → word s 8 x → poisonAt s x.place 8 = none → dkAdd (old s x) (s.rs r) = .error hi →
        exec (.adadd g d b r o) s = .next (trapped (.adadd g d b r o) 0x07 (if hi then 1 else 0) s))
    ∧ (∀ p ∈ ([(.aadd g d b r o, 8), (.aaddw g d b r o, 4), (.afadd g d b r o, 4), (.adadd g d b r o, 8), (.amax g d b r o, 8), (.amin g d b r o, 8),
        (.aor g d b r o, 8), (.aand g d b r o, 8), (.axchg g d b r o, 8), (.acas g d b r o, 8)] : List (Instr × Nat)),
      ∀ s x info, Issues p.1 s → word s p.2 x → poisonAt s x.place p.2 = some info → exec p.1 s = .next (trapped p.1 0x14 info s))

/-! ## Translation -/

/-- The window of a context: an access inside its scratch reaches its own scratch, one past its size is a segment miss with the address, and
execution from the window is a miss; addresses of 2^57 and above miss (R65, R66). The checks of translation in their order: no entry is cause 0x04, a right the entry lacks cause 0x05, a frame that is not present cause 0x08
with the device-physical address, a map entry in error cause 0x14; an access that passes reaches the entry's frames (R236, R241 to R243). A misaligned scalar access is cause 0x06 with the address in TRAPINFO, for loads, stores and atomics alike (R236, R282, R294). -/
def Obligations.TranslationAndAlignment : Prop :=
  ((∀ (s : State) (g o n oc : Nat) (k : Right), o < 2 ^ 32 → 0 < n →
    let va := 0x1FF * 2 ^ 48 + o
    (k ≠ .x → o + n ≤ (s.ctx g).scratchSize →
        xlate s g va n k oc = .ok { va := va, n := n, place := .scratch g o, coh := none, demoted := none })
    ∧ (k ≠ .x → (s.ctx g).scratchSize < o + n → xlate s g va n k oc = .error (0x04, BitVec.ofNat 64 va))
    ∧ xlate s g va n .x oc = .error (0x04, BitVec.ofNat 64 va)
    ∧ ∀ va', 2 ^ 57 ≤ va' → va' < 2 ^ 64 → xlate s g va' n k oc = .error (0x04, BitVec.ofNat 64 va'))
  ∧ ∀ (s : State) (g va n oc : Nat) (k : Right), inWindow va = false → va < 2 ^ 57 →
    ((s.ctx g).entryFor va n = none → xlate s g va n k oc = .error (0x04, BitVec.ofNat 64 va))
    ∧ ∀ e, (s.ctx g).entryFor va n = some e →
      (k.ok (swRights e) = false → xlate s g va n k oc = .error (0x05, BitVec.ofNat 64 va))
      ∧ (k.ok (swRights e) = true →
        let o := va - swBase e
        let pa := swPhys e + viewOf (swLay e) o
        let en := s.frame (pa / 65536)
        (s.dpBytes ≤ pa → xlate s g va n k oc = .error (0x08, BitVec.ofNat 64 pa))
        ∧ (pa < s.dpBytes → frError en = true → xlate s g va n k oc = .error (0x14, BitVec.ofNat 64 (pa / 64 * 64)))
        ∧ (pa < s.dpBytes → frError en = false → frP en = false → xlate s g va n k oc = .error (0x08, BitVec.ofNat 64 pa))
        ∧ (pa < s.dpBytes → frError en = false → frP en = true → frD en = false → frC en = false → (k = .r ∨ k = .x) →
            xlate s g va n k oc = .ok { va := va, n := n, place := .dp (swPhys e) (swLay e) o, coh := some (swCoh e), demoted := none })))
  ∧ ∀ (q : BitVec 1) (g : BitVec 3) (d b r : BitVec 6) (c : BitVec 4) (f : BitVec 5) (o : BitVec 3),
    (∀ p ∈ ([(.ldd q g d b c f, 8), (.ldw q g d b c f, 4), (.ldwu q g d b c f, 4), (.ldh q g d b c f, 2), (.ldhu q g d b c f, 2),
        (.std g d b c f, 8), (.stw g d b c f, 4), (.sth g d b c f, 2)] : List (Instr × Nat)),
      TrapsWhen p.1 (fun s => addrOff (s.rs b) (f.toInt * (p.2 : Int)) % p.2 ≠ 0) 0x06
        (fun s => BitVec.ofNat 64 (addrOff (s.rs b) (f.toInt * (p.2 : Int)))))
    ∧ TrapsWhen (.lddp q g d b c f) (fun s => (s.rs b).toNat % 8 ≠ 0) 0x06 (fun s => s.rs b)
    ∧ ∀ p ∈ ([(.aadd g d b r o, 8), (.aaddw g d b r o, 4), (.afadd g d b r o, 4), (.adadd g d b r o, 8), (.amax g d b r o, 8),
        (.amin g d b r o, 8), (.aor g d b r o, 8), (.aand g d b r o, 8), (.axchg g d b r o, 8), (.acas g d b r o, 8)] : List (Instr × Nat)),
      TrapsWhen p.1 (fun s => (s.rs b).toNat % p.2 ≠ 0) 0x06 (fun s => s.rs b)
/-! ## Tile transfers, bulk copies, streams, fences -/

/-- TLD and TGATH fill a tile row by row from memory, a row of the index 0xFFFF_FFFF holding the format's zero; the slot is empty until the
transfer completes. TST, TSCAT and TSCADD write, or add near memory to, the rows of a full tile in ascending order. Each transfer takes one
of 8 entries and starts once nothing earlier of its class or of its bytes holds it (R254, R256, R288 to R292). That the bytes move when
the bundle issues, and the transfer ends later, is log 10, a design choice; what the poison of a tile does to a store and to an index that
is read is log 27, the model's reading of R441 and R442. -/
def Obligations.TileTransfers : Prop :=
  ∀ (g : BitVec 3) (t x : BitVec 5) (b : BitVec 6) (oc : BitVec 4) (v : BitVec 1),
    let fits (s : State) (h : Hdr) : Prop := h.rowLen ≤ h.pitch ∧ h.pitch % h.unit = 0 ∧ (s.rs b).toNat % h.unit = 0
      ∧ (s.core (coreOf s.cur)).xferQ.length < 8
    let straight (_ : State) (h : Hdr) (vs : List (Option Nat)) : Prop := vs = h.allRows
    let indexed (s : State) (h : Hdr) (vs : List (Option Nat)) : Prop := ∃ n hx d, TileIs s x n hx ∧ TileHolds s n d
      ∧ (hx.fmt = 12 ∨ (hx.fmt = 11 ∧ v = 0)) ∧ h.rows ≤ hx.count
      ∧ (∀ y ∈ viewSectors hx h.rows, y ∉ (s.tile (coreOf s.cur) n).poison)
      ∧ vs = (List.range h.rows).map fun m => let e := (if v = 1 then hx.getRow d m / 2 ^ 32 else hx.getRow d m) % 2 ^ 32
          if e = 0xFFFFFFFF then none else some e
    let secs (l : List (Option (List Sector))) : List Sector := l.flatMap (·.getD [])
    let load (i : Instr) (P : State → Hdr → List (Option Nat) → Prop) : Prop := ∀ s n h vs l, Issues i s → TileIs s t n h → P s h vs → fits s h →
      rowAccess s.env h (s.rs b) vs .r oc.toNat s = .ok l → inOrder s s.cur oc.toNat (secs l) = .ok () → ownSlot s s.cur n = .ok () →
      let data := h.fill (s.tile (coreOf s.cur) n).data fun m k => match l.getD m none with
        | some r => h.rowElem (readRow s r) k
        | none => fmtZero h.fmt
      exec i s = .next (done i (does fun u => xferJob s.env oc.toNat [(n, h.status data false)] (poisonsOf s (secs l)) l
        (touchRead (secs l) (u.modTile (coreOf s.cur) n fun z => z.write h.sectors data (h.status data false)))) s)
    let store (i : Instr) (P : State → Hdr → List (Option Nat) → Prop) : Prop := ∀ s n h vs l d, Issues i s → TileIs s t n h → P s h vs → fits s h →
      rowAccess s.env h (s.rs b) vs .w oc.toNat s = .ok l → inOrder s s.cur oc.toNat (secs l) = .ok () → TileHolds s n d →
      exec i s = .next (done i (does fun u => xferJob s.env oc.toNat [] [] l (storePoison s.env n (s.tile (coreOf s.cur) n) h l
        ((List.range h.rows).foldl (fun u m => match l.getD m none with | some r => writeSectors r (h.rowBytes d m) u | none => u) u))) s)
    load (.tld g t b oc) straight ∧ load (.tgath g t b oc x v) indexed ∧ store (.tst g t b oc) straight ∧ store (.tscat g t b oc x v) indexed
    ∧ ∀ s n h vs l d, Issues (.tscadd g t b oc x v) s → TileIs s t n h → indexed s h vs → fits s h → (h.fmt = 0 ∨ h.fmt = 5 ∨ h.fmt = 11) →
      rowAccess s.env h (s.rs b) vs .a oc.toNat s = .ok l → inOrder s s.cur oc.toNat (secs l) = .ok () → TileHolds s n d →
      let z := s.tile (coreOf s.cur) n
      exec (.tscadd g t b oc x v) s = .next (done (.tscadd g t b oc x v) (does fun u => xferJob s.env oc.toNat [] [] l (storePoison s.env n z h l
        ((List.range h.count).foldl (fun u k => match (l.getD (k / h.cols) none).bind (placeAt · (4 * (k % h.cols))) with
          | some p => if (elemSectors h.fmt (h.index (k / h.cols) (k % h.cols))).any z.poison.contains then u
              else addElem s.env h.fmt (h.getRow d k) p u
          | none => u) u))) s)

/-- CPY, CPY.Z and CPYQ enqueue one of a cluster's 32 copies; the first two move their bytes, with their poison, and the last joins the
copies that feed a stream, behind at most three others; their lengths are 64 bytes to 64 MiB in sectors, their ranges aligned and disjoint
(R300 to R303). QPOP takes the oldest element of its stream or of its ring and moves the head by 1; QPUSH is a release, and with nothing
earlier to wait for writes at the ring's tail and moves it by 1. An empty stream and a full ring block; a push into a stream that is no
producer's is cause 0x0B with TRAPINFO 0x08. The binding forms replace what the stream was, and QSTAT reads its counts (R255, R303 to
R305). That a copy moves its bytes when it issues is log 10, and the channel it takes is log 53: both are design choices. -/
def Obligations.CopiesAndStreams : Prop :=
  (∀ (g : BitVec 3) (a b c : BitVec 6) (q : BitVec 6),
    let n (s : State) : Nat := copyLen (s.rs c)
    let len (s : State) : Prop := n s % 64 = 0 ∧ 0 < n s ∧ n s ≤ 2 ^ 26 ∧ (s.rs c).extractLsb' 27 33 = 0
    let room (s : State) : Prop := (s.cluster (clusterOf s.cur)).copies.length < 32
    let runs (u : State) (bs : List (List Byte × Option W64)) (dst l : List Sector) (oc : Nat) (g' : Nat) : State :=
      let ch := u.copyChannel (clusterOf g')
      addCopy g' oc none ch l (copySectors g' ch (bs.zip dst) u)
    (∀ s l, Issues (.cpy g a b c) s → len s → room s → (s.rs a).toNat % 64 = 0 → (s.rs b).toNat % 64 = 0 →
        overlap (s.rs a).toNat (n s) (s.rs b).toNat (n s) = false →
        accessR s s.cur (rangePieces (s.rs b).toNat (n s) .r ++ rangePieces (s.rs a).toNat (n s) .c) (copyClass (s.rs c)) anyClass = .ok l →
        inOrder s s.cur (copyClass (s.rs c)) l = .ok () →
        exec (.cpy g a b c) s = .next (done (.cpy g a b c) (does fun u => runs (touchRead (l.take (n s / 64)) u)
          (copySource s (l.take (n s / 64))) (l.drop (n s / 64)) l (copyClass (s.rs c)) s.cur) s))
    ∧ (∀ s l, Issues (.cpyZero g a c) s → len s → room s → (s.rs a).toNat % 64 = 0 →
        accessR s s.cur (rangePieces (s.rs a).toNat (n s) .c) (copyClass (s.rs c)) anyClass = .ok l →
        inOrder s s.cur (copyClass (s.rs c)) l = .ok () →
        exec (.cpyZero g a c) s = .next (done (.cpyZero g a c) (does fun u =>
          runs u (l.map fun x => (List.replicate x.n 0, none)) l l (copyClass (s.rs c)) s.cur) s))
    ∧ ∀ s l, Issues (.cpyq g q b c) s → len s → room s → (s.rs b).toNat % 64 = 0 → ((s.ctx s.cur).stream' q.toNat).pending.length < 4 →
        accessR s s.cur (rangePieces (s.rs b).toNat (n s) .r) (copyClass (s.rs c)) anyClass = .ok l →
        inOrder s s.cur (copyClass (s.rs c)) l = .ok () →
        exec (.cpyq g q b c) s = .next (done (.cpyq g q b c) (does fun u =>
          (addCopy s.cur (copyClass (s.rs c)) (some q.toNat) (u.copyChannel (clusterOf s.cur)) l (touchRead l u)).modCtx s.cur fun z =>
            let old := (s.ctx s.cur).stream' q.toNat;
            let keep := if old.binding = .copies then old else Stream.initial;
            let new : StreamCopy := { src := l, oc := copyClass (s.rs c), seq := (s.ctx s.cur).memSeq };
            z.setStream q.toNat { keep with binding := .copies, pending := keep.pending ++ [new] }) s))
  ∧ ∀ (g : BitVec 3) (q : BitVec 3) (d : BitVec 6),
    let st (s : State) : Stream := (s.ctx s.cur).stream' q.toNat
    let grp (s : State) : Nat := (s.ctx s.cur).group
    let first (s : State) (off c : Nat) : Prop := inOrderAt s s.cur 15 [(.csram (grp s) off, 64 + 8 * 2 ^ c)] = .ok ()
    (∀ s x xs, Issues (.qpop g q d) s → (∀ o c, (st s).binding ≠ .consumer o c) → (st s).arrived = x :: xs →
        exec (.qpop g q d) s = .next (done (.qpop g q d) (onCtx s fun c => landPop d x (c.setStream q.toNat { c.stream' q.toNat with arrived := xs })) s))
    ∧ (∀ s off c, Issues (.qpop g q d) s → (st s).binding = .consumer off c → first s off c → ringTail s (grp s) off ≠ ringHead s (grp s) off →
        let p : Place := .csram (grp s) (off + 64 + 8 * ((ringHead s (grp s) off).toNat % 2 ^ c))
        exec (.qpop g q d) s = .next (done (.qpop g q d) (does fun u => (ringWrite (grp s) (off + 8) (ringHead s (grp s) off + 1) u).modCtx s.cur
          (landPop d (BitVec.ofNat 64 (leNat (readPlace s p 8)), poisonAt s p 8))) s))
    ∧ BlocksWhen (.qpop g q d) (fun s => ((∀ o c, (st s).binding ≠ .consumer o c) ∧ (st s).arrived = [])
        ∨ ∃ off c, (st s).binding = .consumer off c ∧ first s off c ∧ ringTail s (grp s) off = ringHead s (grp s) off) .emptyStream
    ∧ (∀ s off c, Issues (.qpush g q d) s → (st s).binding = .producer off c → ringUsed s s.cur (grp s) off ≠ BitVec.ofNat 64 (2 ^ c) →
        exec (.qpush g q d) s = .next (done (.qpush g q d) (does (issueLate s.cur 15 (.push (grp s) off c (s.rs d)))) s))
    ∧ (∀ (s : State) (k off c : Nat) (x : W64), (s.ctx k).delayed = [] → bulkPending k allClasses s = false →
        memWf (s.group (s.ctx k).group).csram = true →
        let r := (s.ctx k).group
        let t := issueLate k 15 (.push r off c x) s
        ringTail t r off = ringTail s r off + 1 ∧ ringHead t r off = ringHead s r off
          ∧ readDw (t.group r).csram (off + 64 + 8 * ((ringTail s r off).toNat % 2 ^ c)) = x)
    ∧ BlocksWhen (.qpush g q d) (fun s => ∃ off c, (st s).binding = .producer off c ∧ ringUsed s s.cur (grp s) off = BitVec.ofNat 64 (2 ^ c)) .fullQueue
    ∧ TrapsWhen (.qpush g q d) (fun s => ∀ o c, (st s).binding ≠ .producer o c) 0x0B (fun _ => 8)
    ∧ (let ring (s : State) (off c : Nat) : Prop := off = ((s.rs d).extractLsb' 0 32).toNat ∧ c = ((s.rs d).extractLsb' 32 4).toNat ∧ off % 64 = 0
          ∧ 3 ≤ c ∧ c ≤ 12 ∧ (s.rs d).extractLsb' 36 28 = 0
          ∧ ∃ l, access s s.cur (pieces (0x1FF * 2 ^ 48 + 2 ^ 32 + off) (64 + 8 * 2 ^ c)) .r 0 anyClass = .ok l;
        (∀ s off c, Issues (.qpopBind g q d) s → ring s off c →
          exec (.qpopBind g q d) s = .next (done (.qpopBind g q d) (does (bindStream s.env q (.consumer off c))) s))
        ∧ ∀ s off c, Issues (.qpushBind g q d) s → ring s off c →
          exec (.qpushBind g q d) s = .next (done (.qpushBind g q d) (does (bindStream s.env q (.producer off c))) s))
    ∧ Completes (.qstat g q d) (fun s => toS s d (BitVec.ofNat 64 (streamStat s s.cur (grp s) (st s))) 1)

/-- FENCE places a marker and stalls nothing; an access of a class the marker orders is held while an earlier operation of those classes is
under way; SBAR completes once no bulk operation of its classes is left; WAITM completes where its condition on the doubleword holds, blocks
where it does not, and traps on a poisoned word, which is log 27, the model's reading of R426; a marker with bit 15 orders its classes
behind every class, and retires once the operations it is about have completed (R256, R296 to R299). -/
def Obligations.FencesAndWaits : Prop :=
  ∀ (g : BitVec 3) (m : BitVec 16) (k : BitVec 5) (a b c : BitVec 6),
    Completes (.fence g m k) (fun s => onCtx s fun z => { z with fences := z.fences ++ [{ mask := m, scope := k.toNat, seq := z.memSeq }], memSeq := z.memSeq + 1 })
    ∧ CompletesWhen (.sbar g m k) (fun s => bulkPending s.cur m s = false) (fun _ => {})
    ∧ (let at' (s : State) (x : Sector) : Prop := (s.rs b).toNat % 8 = 0 ∧ access s s.cur [((s.rs b).toNat, 8)] .r 0 scClass = .ok [x];
        let w (s : State) (x : Sector) : W64 := BitVec.ofNat 64 (leNat (readPlace s x.place 8));
        let mask (s : State) : W64 := if a = 0 then BitVec.allOnes 64 else s.rs a;
        let cond (f : BitVec 3) (P : State → W64 → Prop) : Prop := ∀ s x, Issues (.waitm g a b c f) s → at' s x →
          ((s.ctx s.cur).delayed.any fun y => y.act.meets x.place 8) = false → meetsUnread s.cur [(x.place, 8)] s = false →
          (∀ info, poisonAt s x.place 8 = some info → exec (.waitm g a b c f) s = .next (trapped (.waitm g a b c f) 0x14 info s))
          ∧ (poisonAt s x.place 8 = none →
            (P s (w s x) → exec (.waitm g a b c f) s = .next (done (.waitm g a b c f) (does (touchRead [x])) s))
            ∧ (¬P s (w s x) → exec (.waitm g a b c f) s = .next (blockCtx s.cur .waitm s)));
        cond 0 (fun s w => w &&& s.rs c ≠ 0) ∧ cond 1 (fun s w => w &&& mask s = s.rs c) ∧ cond 2 (fun s w => w &&& mask s ≠ s.rs c)
        ∧ cond 3 (fun s w => (s.rs c).toNat ≤ w.toNat) ∧ cond 4 (fun s w => w.toNat < (s.rs c).toNat))
    ∧ (∀ (s : State) (k oc : Nat) (f : FenceMark) (ps : List (Place × Nat)), f ∈ (s.ctx k).fences → f.seq < (s.ctx k).memSeq →
        f.mask.getLsbD oc = true → bulkBefore k (if f.mask.getLsbD 15 then BitVec.allOnes 16 else f.mask) f.seq s = true →
        inOrderAt s k oc ps ≠ .ok () ∧ storeHeld k oc ps s = true)
    ∧ ∀ (s : State) (x : Fin 16384), exec (.fenceRetire x) s = .next (s.modCtx x.val fun z => { z with
        fences := z.fences.filter fun f => earlier x.val (if f.mask.getLsbD 15 then BitVec.allOnes 16 else f.mask) f.seq s })

/-- RINV and RFLUSH join the context's range operations where the range lies in one entry with the read right and the object takes atomics, and
the oldest adds 1 to its object when it completes, once everything earlier of the context has; that they move no value, memory holding one
copy of every byte, is log 11, a design choice. An object in the local window is cause 0x09 (R66). RESV names a reservation of whole 512-byte units, RREL drops one or all (R306, R307). In handler mode SAVEC writes the parts its mask names, where there are a bank and a unit to save, and LOADC puts back the parts it reads
when none is malformed or poisoned, touching the frames it reads (log 50); both come after every earlier access of the context and every operation of the engines the parts name
(R353, R433 to R437). The place of these waits among the checks is log 17, and which operations the parts name is log 36: both are the
model's reading. -/
def Obligations.RangesHandlesAndSaveAreas : Prop :=
  (∀ (g : BitVec 3) (a b c : BitVec 6) (f : BitVec 3),
    let range (s : State) (x : Sector) (obj : Nat) : Prop := (s.rs a).toNat % 64 = 0 ∧ (s.rs b).toNat % 64 = 0 ∧ (s.rs b).toNat < 2 ^ 48
      ∧ (s.rs c).toNat % 8 = 0 ∧ (s.rs b = 0 ∨ rangeMiss s s.cur (s.rs a).toNat (s.rs b).toNat (some .r) = [])
      ∧ access s s.cur [((s.rs c).toNat, 8)] .a 15 notHc = .ok [x] ∧ ∃ pb lay off, x.place = .dp pb lay off ∧ obj = dpByte pb lay off 0
    let op (i : Instr) (flush : Bool) : Prop := ∀ s x obj, Issues i s → range s x obj → exec i s = .next (done i (onCtx s fun z => { z with
      ranges := z.ranges ++ [{ flush := flush, base := (s.rs a).toNat, len := (s.rs b).toNat, scope := f.toNat, object := obj, seq := z.memSeq }]
      memSeq := z.memSeq + 1 }) s)
    op (.rinv g a b c f) false ∧ op (.rflush g a b c f) true
    ∧ (∀ i ∈ [Instr.rinv g a b c f, .rflush g a b c f], TrapsWhen i (fun s => (s.rs a).toNat % 64 = 0 ∧ (s.rs b).toNat % 64 = 0
        ∧ (s.rs b).toNat < 2 ^ 48 ∧ (s.rs c).toNat % 8 = 0 ∧ (s.rs b = 0 ∨ rangeMiss s s.cur (s.rs a).toNat (s.rs b).toNat (some .r) = [])
        ∧ inWindow (s.rs c).toNat = true) 0x09 (fun s => s.rs c))
    ∧ CompletesWhen (.resv g a b c f) (fun s => (s.rs b).toNat % 512 = 0 ∧ (s.rs c).toNat % 512 = 0 ∧ s.rs c ≠ 0 ∧ inWindow (s.rs b).toNat = false
          ∧ rangeMiss s s.cur (s.rs b).toNat (s.rs c).toNat none = [])
        (fun s => onCtx s fun z => { z with handles := tset z.handles a.toNat { base := (s.rs b).toNat, len := (s.rs c).toNat, prio := f.toNat } })
    ∧ Completes (.rrel g a) (fun s => onCtx s fun z => { z with handles := tdel z.handles a.toNat })
    ∧ Completes (.rrelAll g) (fun s => onCtx s fun z => { z with handles := [] })
    ∧ ∀ (s : State) (x : Fin 16384), exec (.rangeOpComplete x) s = .next (match (s.ctx x.val).ranges with
      | [] => s
      | r :: rs =>
        let u := s.modCtx x.val fun z => { z with ranges := rs }
        if earlier x.val allClasses r.seq s then s
        else if s.poison.contains (r.object / 64) then consumed x.val (BitVec.ofNat 64 (r.object / 64 * 64)) u
        else writeBack r.object (leBytes 8 (readDw s.mem r.object + 1).toNat) u))
  ∧ ∀ (g : BitVec 3) (e : BitVec 1) (m : BitVec 7) (r : BitVec 6),
    let base (s : State) : W64 := if r = 0 then (s.ctx s.cur).savebase else s.rs r
    let ready (s : State) : Prop := (s.ctx s.cur).hm = true ∧ (base s).toNat % 4096 = 0 ∧ enginesDone s s.cur m = .ok ()
      ∧ accessesDone s s.cur = .ok ()
    (∀ s l, Issues (.savec e g m r) s → ready s →
        areaAccess s s.cur (base s).toNat ((List.range 7).filter fun k => m.getLsbD k
          && (partBytes s s.cur k (s.ctx s.cur).trappc false).isSome) .w = .ok l → storeInOrder s s.cur (l.flatMap (·.2)) = .ok () →
        exec (.savec e g m r) s = .next (done (.savec e g m r) (does fun u =>
          (l.map fun p => (p.2, (partBytes s s.cur p.1 (s.ctx s.cur).trappc false).getD [])).foldl (fun u p => writeSectors p.1 p.2 u) u) s))
    ∧ ∀ s l, Issues (.loadc e g m r) s → ready s →
        areaAccess s s.cur (base s).toNat ((List.range 7).filter fun k => m.getLsbD k && (k != 6 || (s.unitOwned s.cur).isSome)) .r = .ok l →
        poisonOf s (l.flatMap (·.2)) = none → (∀ p ∈ l, partCheck s s.cur p.1 (readSectors s p.2) = .ok ()) →
        storeInOrder s s.cur (l.flatMap (·.2)) = .ok () →
        exec (.loadc e g m r) s = .next (done (.loadc e g m r) (does fun u =>
          (l.map fun p => (p.1, readSectors s p.2)).foldl (fun u p => applyPart s.cur p.1 p.2 u) (touchRead (l.flatMap (·.2)) u)) s)


/-! ## Matrix array, tile unit -/

/-- Accumulator operations of a core that may name accumulator `k`, on a bank that is free or its own, with room in its queue and no poison
in what they read: each queues its operation and moves the accumulator among IDLE 0, OPEN 1 and HELD 2; a bank with both accumulators IDLE is free, else the context owns it. The
store forms queue 512 words or table entries; MCALL queues the call with the tiles it reads, and every tile of WR is empty until it ends
(R180, R184, R188, R189, R193, R196). -/
def Obligations.MatrixForms : Prop :=
  ∀ (g : BitVec 3) (a : BitVec 3) (t n m : BitVec 5) (hi : BitVec 1),
    let k := a.toNat
    let A (s : State) : MArray := s.array (pairOf s.cur)
    let push (s : State) (o : ArrOp) (f : MArray → MArray) : Commit := does fun u => u.modArray (pairOf s.cur) fun z => f (z.push s.cur o)
    let emit (s : State) (slot : Nat) (whole : List Nat) (o : ArrOp) (f : MArray → MArray) : Commit := does fun u =>
      (u.modTile (coreOf s.cur) slot (Tile.issueWrite whole)).modArray (pairOf s.cur) fun z => f (z.push s.cur o)
    let clean (s : State) (slot n : Nat) : Prop := ∀ x < (n + 63) / 64, x ∉ (s.tile (coreOf s.cur) slot).poison
    let st (s : State) : Nat := tget 0 (A s).accState k
    let drained (s : State) : Nat := if st s = 1 then 1 else 0
    let filled (s : State) : Nat := if st s = 1 then 1 else 2
    let write (s : State) (slot : Nat) (h : Hdr) : Prop := TileIs s t slot h ∧ unitSlot s s.cur slot = .ok ()
    let half (h : Hdr) : Prop := h.fmt = 8 ∧ h.rows = 16 ∧ h.cols = 32 ∧ h.z = false ∧ h.t = false
    let w (s : State) : W64 := (s.ctx s.cur).mp 7
    let store (s : State) (slot : Nat) (h : Hdr) : Prop := TileIs s t slot h ∧ h.count * fmtBits h.fmt = 32768 ∧ MayRunMatrix s ∧ ownsImage s s.cur = true
      ∧ (A s).count (isB s.cur) < 8
    CompletesWhen (.bch g a) (fun s => AccFor s k ∧ st s ≠ 1)
        (fun s => push s (if st s = 0 then .clear s.cur k else .mark s.cur) fun z => z.move s.cur k 1)
    ∧ CompletesWhen (.ech g a) (fun s => AccFor s k ∧ st s = 1) (fun s => push s (.mark s.cur) fun z => z.move s.cur k 2)
    ∧ CompletesWhen (.mzero g a) (fun s => AccFor s k) (fun s => push s (.clear s.cur k) fun z => z.move s.cur k (filled s))
    ∧ (∀ s slot h, Issues (.mdrain g a t n m) s → AccFor s k → write s slot h → (h.fmt ≤ 5 ∨ h.fmt = 8) → m.toNat + h.rows ≤ 32 → n.toNat + h.cols ≤ 32 →
        exec (.mdrain g a t n m) s = .next (done (.mdrain g a t n m)
          (emit s slot h.sectors (.drain s.cur k slot ((s.ctx s.cur).tc t.toNat) m.toNat n.toNat) fun z => z.move s.cur k (drained s)) s))
    ∧ (∀ s slot h, Issues (.mspill g a t hi) s → AccFor s k → write s slot h → half h → exec (.mspill g a t hi) s = .next (done (.mspill g a t hi)
          (emit s slot h.sectors (.spill s.cur k slot ((s.ctx s.cur).tc t.toNat) (hi == 1)) fun z => z.move s.cur k (drained s)) s))
    ∧ (∀ s slot h d, Issues (.mfill g a t hi) s → AccFor s k → TileIs s t slot h → half h → TileHolds s slot d → clean s slot 4096 →
        exec (.mfill g a t hi) s = .next (done (.mfill g a t hi)
          (push s (.fill s.cur k ((s.ctx s.cur).tc t.toNat) d (hi == 1)) fun z => z.move s.cur k (filled s)) s))
    ∧ (∀ s slot h d, Issues (.mpwr g t) s → store s slot h → maddrOk (w s) = true → TileHolds s slot d → clean s slot 4096 →
        exec (.mpwr g t) s = .next (done (.mpwr g t) (push s (.storeWrite s.cur (mAddr (w s)) d) id) s))
    ∧ (∀ s slot h d, Issues (.mpwrTab g t) s → store s slot h → tabOk (w s) 32 = true → TileHolds s slot d →
        clean s slot (8 * tCnt (w s)) → tabData d (tCnt (w s)) = true →
        exec (.mpwrTab g t) s = .next (done (.mpwrTab g t) (push s (.tabWrite s.cur (tEnt (w s)) (tCnt (w s)) d) id) s))
    ∧ (∀ s slot h, Issues (.mprd g t) s → store s slot h → maddrOk (w s) = true → unitSlot s s.cur slot = .ok () →
        exec (.mprd g t) s = .next (done (.mprd g t) (emit s slot (List.range 64) (.storeRead s.cur (mAddr (w s)) slot ((s.ctx s.cur).tc t.toNat)) id) s))
    ∧ (∀ s slot h, Issues (.mprdTab g t) s → store s slot h → tabOk (w s) 0 = true → unitSlot s s.cur slot = .ok () →
        exec (.mprdTab g t) s = .next (done (.mprdTab g t)
          (emit s slot (List.range (tCnt (w s) / 8)) (.tabRead s.cur (tEnt (w s)) (tCnt (w s)) slot ((s.ctx s.cur).tc t.toNat)) id) s))
    ∧ (∀ (z : MArray) (c j x : Nat), (z.owners.map (·.1)).Nodup → let y := z.move c j x
        tget 0 y.accState j = x ∧ (∀ i, i ≠ j → tget 0 y.accState i = tget 0 z.accState i)
        ∧ tfind y.owners (j / 2) = if tget 0 y.accState (2 * (j / 2)) = 0 ∧ tget 0 y.accState (2 * (j / 2) + 1) = 0 then none else some c)
    ∧ ∀ (s : State) (r : BitVec 7) (b : BitVec 2) (ts : List (Nat × Nat × W64 × TileBits)), Issues (.mcall g r b) s →
        let c := s.ctx s.cur
        let mps := (List.range 8).map c.mp
        let ent := entrySeen s s.cur r.toNat
        let va : BitVec 5 := (c.mp 4).extractLsb' 0 5
        let vb : BitVec 5 := (c.mp 4).extractLsb' 16 5
        let wr := ((ts.filter fun x => entWr ent x.1).map (·.2.1)).dedup
        AccFor s b.toNat → tget 0 (A s).accState b.toNat = 1 → entValid ent = true → (∀ i < 8, c.pending (.mp i) = false) →
        (entSc ent = true → c.pending (.v va.toNat) = false ∧ (mpV2 mps = true → c.pending (.v vb.toNat) = false)) →
        callTiles s s.cur mps ent = .ok ts → callFormats r.toNat ent ts = true → callShape r.toNat mps ts = true → mpReserved mps = false →
        callScales r.toNat mps ts = true → (∀ x ∈ ts, entRd ent x.1 = true → (s.tile (coreOf s.cur) x.2.1).full = true) →
        (∀ x ∈ ts, entRd ent x.1 = true → clean s x.2.1 (Hdr.of x.2.2.1).image) → (∀ slot ∈ wr, unitSlot s s.cur slot = .ok ()) →
        exec (.mcall g r b) s = .next (done (.mcall g r b) (does fun u =>
          (u.each wr fun slot u => u.modTile (coreOf s.cur) slot (Tile.issueWrite [])).modArray (pairOf s.cur) fun z =>
            z.push s.cur (.call s.cur b.toNat r.toNat mps ts (if entSc ent then some (c.v va) else none)
              (if entSc ent && mpV2 mps then some (c.v vb) else none) ent)) s)

/-- TZERO, TCOPY and TV2T queue one write of a tile, whose slot is empty until it completes with the status of what it wrote, and whose
poison goes in the sectors the write replaces; TCOPY carries its source's poison, and an element that leaves the Ducat-32 range is cause
0x07. TT2V lands a piece of a full tile in a vector after 4 bundles, poison with it, and waits on an empty one, holding its queue entry
(R172 to R176, R441, R442). That TCOPY and TT2V carry poison, and the TRAPINFO of a tile sector, are log 27, the model's reading of R441 and
R442, which do not list them. -/
def Obligations.TileForms : Prop :=
  ∀ (g : BitVec 3) (d a i : BitVec 5),
    let waits (s : State) : List Nat := (passOrder s.cur).filter fun k => k != s.cur && (s.ctx k).run == .blocked .tileRead
    let room (s : State) : Prop := (s.core (coreOf s.cur)).tileQ.length + (waits s).length < 8
    let out (s : State) (slot : Nat) (h : Hdr) : Prop := TileIs s d slot h ∧ room s ∧ ownSlot s s.cur slot = .ok ()
    let old (s : State) (slot : Nat) : TileBits := (s.tile (coreOf s.cur) slot).data
    let job (s : State) (slot : Nat) (whole : List Nat) (x : TileBits) (st : BitVec 3) : Commit := does fun u =>
      (u.modTile (coreOf s.cur) slot fun z => z.write whole x st).modCore (coreOf s.cur) fun k =>
        { k with tileQ := k.tileQ ++ [{ ctx := s.cur, op := 0, oc := 0, writes := [(slot, st)], poison := [] }] }
    (∀ s slot h, Issues (.tzero g d 0) s → out s slot h → exec (.tzero g d 0) s = .next (done (.tzero g d 0)
        (job s slot h.sectors (h.fill 0 fun _ _ => fmtZero h.fmt) 0) s))
    ∧ (∀ s slot h m, m ≠ 0 → Issues (.tzero g d m) s → out s slot h → exec (.tzero g d m) s = .next (done (.tzero g d m) (job s slot (List.range 64) 0 0) s))
    ∧ (∀ s sd hd sa ha x (l : List (Nat × Bool)), Issues (.tcopy g d a) s → out s sd hd → TileIs s a sa ha → TileHolds s sa x → (ha.fmt = hd.fmt ∨ convPair ha.fmt hd.fmt = true) →
        ha.rows = hd.rows → ha.cols = hd.cols → l.length = ha.count →
        (∀ k (hk : k < l.length), convElem ha.fmt hd.fmt (ha.getRow x k) = .ok l[k]) →
        let z := hd.fill (old s sd) fun r c => (l.getD (r * hd.cols + c) (0, false)).1
        let src := s.tile (coreOf s.cur) sa
        exec (.tcopy g d a) s = .next (done (.tcopy g d a) (does fun u =>
          let v := (job s sd hd.sectors z (hd.status z (l.any (·.2)))).act (consumedTile s.cur sa ha.image src u)
          if src.poison.isEmpty then v else v.modTile (coreOf s.cur) sd (·.spoil (tcopyPoison src ha hd))) s))
    ∧ (∀ s sd hd sa ha x k hi, Issues (.tcopy g d a) s → TileIs s d sd hd → TileIs s a sa ha → TileHolds s sa x →
        (ha.fmt = hd.fmt ∨ convPair ha.fmt hd.fmt = true) → ha.rows = hd.rows → ha.cols = hd.cols → k < ha.count →
        (∀ j < k, ∃ y, convElem ha.fmt hd.fmt (ha.getRow x j) = .ok y) → convElem ha.fmt hd.fmt (ha.getRow x k) = .error hi →
        exec (.tcopy g d a) s = .next (trapped (.tcopy g d a) 0x07 (BitVec.ofNat 64 (hi.toNat + 65536 * k)) s))
    ∧ (∀ s slot h, Issues (.tv2t g d a i) s → out s slot h →
        let x := setBits (old s slot) (2048 * i.toNat) (s.rv a)
        let st := statusOf h.fmt x (h.indices.filter fun k => decide (2048 * i.toNat ≤ fmtBits h.fmt * k ∧ fmtBits h.fmt * k < 2048 * (i.toNat + 1))) false
        exec (.tv2t g d a i) s = .next (done (.tv2t g d a i) (job s slot ((List.range 4).map (4 * i.toNat + ·)) x st) s))
    ∧ (∀ s slot h x, Issues (.tt2v g d a i) s → TileIs s a slot h → TileHolds s slot x → (room s ∨ (s.ctx s.cur).run = .blocked .tileRead) →
        let bad := (List.range 4).find? fun k => (s.tile (coreOf s.cur) slot).poison.contains (4 * i.toNat + k)
        exec (.tt2v g d a i) s = .next (done (.tt2v g d a i) (onCtx s fun c => c.land (.v d.toNat) (x.extractLsb' (2048 * i.toNat) 2048)
          (BitVec.allOnes 64) 4 false (bad.map fun k => tileInfo slot (4 * i.toNat + k))) s))
    ∧ ∀ s slot h, Issues (.tt2v g d a i) s → TileIs s a slot h → (s.tile (coreOf s.cur) slot).full = false →
        (room s ∨ (s.ctx s.cur).run = .blocked .tileRead) → exec (.tt2v g d a i) s = .next (blockCtx s.cur .tileRead s)

/-! ## Circuits, index engine, Assay, Clearing -/

/-- A CK instruction whose tile holds well-formed records that it accepts, within scratch, with no pending word read, no poison, no earlier
access to scratch still to perform and every Ducat result in range, writes the words its evaluation wrote and their pending tags; CKDIV
lands node 0, in MODE 2 the quotient of the two lanes, after 8 bundles. No other byte of scratch changes, so what another slot of the bundle
writes elsewhere lasts. A fault that the evaluation meets is taken with its cause and TRAPINFO, and a record that is malformed or not accepted is
cause 0x0E with its row and reason (R205 to R213). -/
def Obligations.CircuitForms : Prop :=
  ∀ (g : BitVec 3) (t r n : BitVec 5) (d : BitVec 6),
    let recs (h : Hdr) (x : TileBits) (c : Nat) : List (CRec × Nat) := (List.range c).map fun i => (CRec.of (BitVec.ofNat 1024 (h.get x (r.toNat + i) 0)), i)
    let run (s : State) (o : CkOp) (h : Hdr) (x : TileBits) (c : Nat) : CkSt := o.run (s.ctx s.cur).ckEnv (recs h x c) (s.ctx s.cur)
    let tile (s : State) (slot : Nat) (h : Hdr) (x : TileBits) (c : Nat) : Prop := TileIs s t slot h ∧ TileHolds s slot x
      ∧ h.fmt = 13 ∧ r.toNat + c ≤ h.rows ∧ h.cols = 1 ∧ (s.ctx s.cur).qmr.toNat ≤ 4
    let runs (s : State) (o : CkOp) (slot : Nat) (h : Hdr) (x : TileBits) (c : Nat) : Prop := tile s slot h x c
      ∧ (s.tile (coreOf s.cur) slot).poison = [] ∧ scratchInOrder s s.cur = .ok ()
      ∧ (∀ y ∈ recs h x c, y.1.bad o.accepts = 0 ∧ ∀ z ∈ y.1.names (s.ctx s.cur).ckEnv, z.1 + z.2 ≤ (s.ctx s.cur).scratchSize)
      ∧ (∀ w ∈ (run s o h x c).reads, tfind (s.ctx s.cur).tags w = none)
    let ok (s : State) (o : CkOp) (slot : Nat) (h : Hdr) (x : TileBits) (c : Nat) : Prop := runs s o slot h x c ∧ (run s o h x c).err = none
    let traps (i : Instr) (o : CkOp) (c : Nat) : Prop :=
      (∀ s slot h x cause info, Issues i s → runs s o slot h x c → (run s o h x c).err = some (cause, info) →
        exec i s = .next (trapped i cause info s))
      ∧ ∀ s slot h x k, Issues i s → tile s slot h x c → scratchInOrder s s.cur = .ok () → (s.ctx s.cur).tags = [] → k < c →
        let bad (j : Nat) : Nat := (CRec.of (BitVec.ofNat 1024 (h.get x (r.toNat + j) 0))).bad o.accepts
        bad k ≠ 0 → (∀ j < k, bad j = 0) → exec i s = .next (trapped i 0x0E (BitVec.ofNat 64 (bad k + 256 * k)) s)
    let form (i : Instr) (o : CkOp) : Prop := ∀ s slot h x, Issues i s → ok s o slot h x (n.toNat + 1) →
      exec i s = .next (done i (onCtx s (ckCommit o (s.ctx s.cur).ckEnv (n.toNat + 1) (run s o h x (n.toNat + 1)))) s)
    traps (.ckleaf g t r n) .leaf (n.toNat + 1) ∧ traps (.cknode g t r n) .node (n.toNat + 1) ∧ traps (.ckback g t r n) .back (n.toNat + 1)
    ∧ traps (.cksamp g t r n) .samp (n.toNat + 1) ∧ traps (.ckdiv g t r d) .div 1
    ∧ form (.ckleaf g t r n) .leaf ∧ form (.cknode g t r n) .node ∧ form (.ckback g t r n) .back ∧ form (.cksamp g t r n) .samp
    ∧ (∀ (o : CkOp) (v : CkEnv) (count : Nat) (st : CkSt) (c : Ctx) (a : Nat), (∀ w ∈ st.wrote, a < 8 * w.1 ∨ 8 * w.1 + 8 ≤ a) →
        readByte (ckCommit o v count st c).scratch a = readByte c.scratch a)
    ∧ ∀ s slot h x v y, Issues (.ckdiv g t r d) s → ok s .div slot h x 1 → (recs h x 1).map (·.1) = [y] →
        (let num := readDw (s.ctx s.cur).scratch ((s.ctx s.cur).ckEnv.node y.id 0);
          let den := readDw (s.ctx s.cur).scratch ((s.ctx s.cur).ckEnv.node y.id 1);
          if (s.ctx s.cur).qmr = 2 then dkDiv num den = .ok v else v = num) →
        exec (.ckdiv g t r d) s = .next (done (.ckdiv g t r d) (toS s d v 8) s)

/-- IXWALK lists the set positions of a bitmap from the cursor on, row and column, and moves the cursor; IXSPLIT writes the starts of nearly
equal parts; both are writes of tiles by the index engine, of at most 4 operations (R214 to R216). The Assay unit: ASORT writes 64 entries of two tiles in the order of R217 into a third, the candidate forms clear a register, merge tile
entries into its best 64, write it into a tile full at the next bundle with its count after 2 bundles, and draw from it after 8; sorting keeps
the entries. None of them reads a poisoned sector (R217 to R222). -/
def Obligations.IndexAndAssayForms : Prop :=
  (∀ (g : BitVec 3) (d a b : BitVec 5) (p : BitVec 6),
    let free (s : State) (slot : Nat) : Prop := (s.core (coreOf s.cur)).indexQ.length < 4 ∧ ownSlot s s.cur slot = .ok ()
    let clean (s : State) (slot : Nat) (l : List Nat) : Prop := ∀ x ∈ l, x ∉ (s.tile (coreOf s.cur) slot).poison
    let old (s : State) (slot : Nat) : TileBits := (s.tile (coreOf s.cur) slot).data
    (∀ s sd hd sa ha sb hb x y, Issues (.ixwalk g d a b) s → TileIs s d sd hd → TileIs s a sa ha → TileIs s b sb hb → TileHolds s sa x → TileHolds s sb y →
        ha.fmt = 11 → hb.fmt = 11 → hd.fmt = 12 → 2 ≤ hb.cols → free s sd → ownSlot s s.cur sb = .ok () → clean s sa (firstSectors ha.image) →
        clean s sb (elemSectors 11 (hb.index 0 0)) →
        let c := 32 * ha.cols
        let total := ha.rows * c
        let start := hb.get y 0 0
        let found := ((List.range total).filter fun q => decide (start ≤ q) && (ha.get x (q / c) (q % c / 32)).testBit (q % 32)).take hd.count
        let stop := if start < total then (if found.length < hd.count then total else found.getLastD 0 + 1) else start
        let outD := hd.fill (old s sd) fun i j => match found[i * hd.cols + j]? with | some q => q / c + 2 ^ 32 * (q % c) | none => 2 ^ 64 - 1
        let outB := setElem (setElem y 11 (hb.index 0 0) stop) 11 (hb.index 0 1) found.length
        exec (.ixwalk g d a b) s = .next (done (.ixwalk g d a b)
          (does (indexJob s.env [(sd, hd.sectors, outD, hd.status outD false), (sb, [], outB, hb.status outB false)])) s))
    ∧ ∀ s sd hd sa ha x, Issues (.ixsplit g d a p) s → TileIs s d sd hd → TileIs s a sa ha → TileHolds s sa x → ha.fmt = 11 → hd.fmt = 11 → 2 ≤ ha.cols →
        p.toNat + 2 ≤ hd.cols → free s sd → clean s sa (elemSectors 11 (ha.index 0 1)) →
        let out := (List.range (p.toNat + 2)).foldl (fun z j => setElem z 11 (hd.index 0 j) (j * ha.get x 0 1 / (p.toNat + 1))) (old s sd)
        exec (.ixsplit g d a p) s = .next (done (.ixsplit g d a p)
          (does (indexJob s.env [(sd, wholeSectors 11 ((List.range (p.toNat + 2)).map (hd.index 0 ·)), out, hd.status out false)])) s))
  ∧ ∀ (g : BitVec 3) (d a b t : BitVec 5) (m : BitVec 6) (k f : BitVec 2) (r : BitVec 6),
    let idle (s : State) : Prop := ∀ j ∈ (s.core (coreOf s.cur)).assayQ, j.ctx ≠ s.cur
    let clean (s : State) (slot : Nat) (l : List Nat) : Prop := ∀ x ∈ l, x ∉ (s.tile (coreOf s.cur) slot).poison
    let c (s : State) : Cand := (s.ctx s.cur).cand k
    (∀ s sd hd sa ha sb hb x y, Issues (.asort g d a b m) s → TileIs s d sd hd → TileIs s a sa ha → TileIs s b sb hb → TileHolds s sa x → TileHolds s sb y →
        hd.fmt = 12 → (ha.fmt = 12 ∨ ha.fmt = keyFmt m.toNat) → (hb.fmt = 12 ∨ hb.fmt = 11 ∨ hb.fmt = 5) → 64 ≤ hd.count → 64 ≤ ha.count → 64 ≤ hb.count →
        (s.core (coreOf s.cur)).assayQ.length < 4 → ownSlot s s.cur sd = .ok () → clean s sa (viewSectors ha 64) → clean s sb (viewSectors hb 64) →
        let entry (i : Nat) : W64 := (if hb.fmt = 12 then BitVec.ofNat 32 (hb.getRow y i / 2 ^ 32) else BitVec.ofNat 32 (hb.getRow y i) : W32)
          ++ BitVec.ofNat 32 (ha.getRow x i)
        let out := putEntries hd (s.tile (coreOf s.cur) sd).data (rankSort m.toNat ((List.range 64).map entry))
        exec (.asort g d a b m) s = .next (done (.asort g d a b m) (does fun u =>
          (u.modTile (coreOf s.cur) sd fun z => z.write (entrySectors hd) out 0).modCore (coreOf s.cur) fun z =>
            { z with assayQ := z.assayQ ++ [{ ctx := s.cur, op := 0, oc := 0, writes := [(sd, 0)], poison := [] }] }) s))
    ∧ (∀ ty l, (rankSort ty l).Perm l)
    ∧ CompletesWhen (.cclr g k f) idle (fun s => onCtx s fun z => { z with cands := tset z.cands k.toNat { count := 0, ty := f.toNat, entries := [] } })
    ∧ (∀ s slot h x, Issues (.amrg g k t r) s → idle s → TileIs s t slot h → TileHolds s slot x → h.fmt = 12 →
        let n := if r = 0 then 64 else min (s.rs r).toNat 64
        n ≤ h.count → clean s slot (viewSectors h n) →
        let l := (rankSort (c s).ty ((c s).valid ++ (List.range n).map fun i => BitVec.ofNat 64 (h.getRow x i))).take 64
        exec (.amrg g k t r) s = .next (done (.amrg g k t r)
          (onCtx s fun z => { z with cands := tset z.cands k.toNat { c s with count := l.length, entries := l } }) s))
    ∧ (∀ s slot h, Issues (.cread g k t r) s → idle s → TileIs s t slot h → h.fmt = 12 → 64 ≤ h.count → ownSlot s s.cur slot = .ok () →
        let out := putEntries h (s.tile (coreOf s.cur) slot).data ((c s).valid ++ List.replicate (64 - (c s).count) (BitVec.allOnes 64))
        exec (.cread g k t r) s = .next (done (.cread g k t r) (does fun u =>
          (u.modTile (coreOf s.cur) slot fun z => (z.write (entrySectors h) out 0).finish ((s.ctx s.cur).bundles + 1)).modCtx s.cur fun z =>
            z.landS r (BitVec.ofNat 64 (c s).count) 2) s))
    ∧ CompletesWhen (.csamp g k r) idle
        (fun s => toS s r (sampDraw (c s) (s.ctx s.cur).sampcfg (s.ctx s.cur).sampctr (s.ctx s.cur).rngkey) 8)

/-- Clearing sessions: CLCFG opens one that no other is open beside, CLPUSH takes the entries of a tile up to its sentinel when their keys do
not fall, CLSEAL seals a stream, CLPULL emits the least keys below the frontier, each once, and closes an exhausted session, CLCFG.END closes;
without a session of the group the others are cause 0x0F with reason 1 (R223 to R229). -/
def Obligations.ClearingForms : Prop :=
  ∀ (g : BitVec 3) (a : BitVec 5) (n : BitVec 4),
    let own (s : State) (x : Session) : Prop := (s.cluster (clusterOf s.cur)).session = some x ∧ x.group = (s.ctx s.cur).group
    let canTake (x : Session) : Prop := x.mask.getLsbD n.toNat = true ∧ x.sealed.getLsbD n.toNat = false
    let clean (s : State) (slot : Nat) (l : List Nat) : Prop := ∀ x ∈ l, x ∉ (s.tile (coreOf s.cur) slot).poison
    (∀ s slot h d, Issues (.clcfg g a) s → TileIs s a slot h → TileHolds s slot d → clean s slot (viewSectors h 8) → h.fmt = 11 → 8 ≤ h.count → (s.cluster (clusterOf s.cur)).session = none →
        h.getRow d 0 + 2 ^ 32 * h.getRow d 1 = 0 → h.getRow d 2 ≤ 2 → 0 < h.getRow d 3 → h.getRow d 3 < 65536 → (∀ i, 4 ≤ i → i < 8 → h.getRow d i = 0) →
        ∃ t x, exec (.clcfg g a) s = .next t ∧ (t.cluster (clusterOf s.cur)).session = some x ∧ x.group = (s.ctx s.cur).group ∧ x.spill = none
          ∧ x.kind = h.getRow d 2 ∧ x.mask = BitVec.ofNat 16 (h.getRow d 3) ∧ x.held = [] ∧ x.sealed = 0 ∧ x.pushed = 0)
    ∧ (∀ s slot h d x, Issues (.clpush g a n) s → TileIs s a slot h → TileHolds s slot d → clean s slot (firstSectors h.image) → h.fmt = 14 → own s x → canTake x →
        let es := coordEntries h d
        (∀ j, 0 < j → j < es.length → ¬((es.getD j (0, 0)).1.toNat < (es.getD (j - 1) (0, 0)).1.toNat)) →
        (x.pushed.getLsbD n.toNat = true → es ≠ [] → (tget 0 x.last n.toNat : W64).toNat ≤ ((es.headD (0, 0)).1).toNat) → x.buf.length + es.length ≤ 65536 →
        ∃ t y, exec (.clpush g a n) s = .next t ∧ (t.cluster (clusterOf s.cur)).session = some y
          ∧ y.held.map (fun e => (e.key, e.val, e.stream)) = (x.buf.map fun e => (e.key, e.val, e.stream)) ++ es.map (fun e => (e.1, e.2, n.toNat))
            ++ (x.runs.flatMap (·.2)).map fun e => (e.key, e.val, e.stream))
    ∧ (∀ s x, Issues (.clseal g n) s → own s x → canTake x → exec (.clseal g n) s = .next (done (.clseal g n)
        (does (setSession s.cur { x with sealed := x.sealed ||| (1#16 <<< n.toNat) })) s))
    ∧ (∀ s slot h x out ks, Issues (.clpull g a) s → TileIs s a slot h → h.fmt = 14 → own s x →
        (x.held.filter (fun y => x.below y.key) ≠ [] ∨ x.frontier = none) → emit x.kind h.count 0 (x.held.filter fun y => x.below y.key) = .ok (out, ks) →
        ownSlot s s.cur slot = .ok () →
        ∃ t, exec (.clpull g a) s = .next t ∧ (t.tile (coreOf s.cur) slot).data
            = h.fill (s.tile (coreOf s.cur) slot).data (fun i j => out.getD (i * h.cols + j) (2 ^ 64 - 1))
          ∧ (t.cluster (clusterOf s.cur)).session = (if x.frontier = none ∧ (x.remove ks).held = [] ∧ out.length < h.count then none else some (x.remove ks)))
    ∧ (∀ s x, Issues (.clcfgEnd g) s → own s x → ∃ t, exec (.clcfgEnd g) s = .next t ∧ (t.cluster (clusterOf s.cur)).session = none
        ∧ t.mem = s.mem ∧ ∀ m, (s.ctx s.cur).pending m = false → (t.ctx s.cur).reg m = (s.ctx s.cur).reg m)
    ∧ ∀ i ∈ [Instr.clseal g n, .clcfgEnd g], TrapsWhen i (fun s => ∀ x, ¬own s x) 0x0F (fun _ => 1)

/-! ## Transform units -/

/-- MOVP writes an operand port and makes the context the unit's owner; MOVFP lands a port or the status word after 2 bundles; a unit its group
does not hold is cause 0x0B with TRAPINFO 0x07, and a unit another context owns blocks a MOVP (R308 to R311, R316). A trigger whose ports
lie in their limits starts on a unit that is idle and free or the context's own, once nothing earlier holds its accesses: BUSY and the
owner are set, the operation is the trigger's, and its tile, if it writes one, is empty. SAVE has written its image at SRC when the trigger's
bundle has committed, which is log 10, a design choice (R325 does not say when); ABORT ends a running operation with ERR 7 and does nothing
on an idle unit (R311 to R325). -/
def Obligations.TransformUnits : Prop :=
  (∀ (g : BitVec 3) (p : BitVec 8) (r : BitVec 6),
    let unit (s : State) (n : Nat) : Prop := (s.group (s.ctx s.cur).group).units[p.toNat / 32]? = some n
    (∀ s n, Issues (.movp g p r) s → unit s n → (∀ o, (s.xfu (clusterOf s.cur) n).owner = some o → o = s.cur) →
        exec (.movp g p r) s = .next (done (.movp g p r) (does fun u => u.modXfu (clusterOf s.cur) n fun x =>
          { x with ports := tset x.ports (p.toNat % 32) (s.rs r), owner := some s.cur, wrote := true }) s))
    ∧ (∀ s n, Issues (.movfp g p r) s → unit s n → exec (.movfp g p r) s = .next (done (.movfp g p r)
        (toS s r (if p.toNat % 32 < 16 then tget 0 (s.xfu (clusterOf s.cur) n).ports (p.toNat % 32) else
          (s.xfu (clusterOf s.cur) n).status (s.suspended (s.ctx s.cur).group n)) 2) s))
    ∧ (∀ i ∈ [Instr.movp g p r, .movfp g p r], TrapsWhen i (fun s => (s.group (s.ctx s.cur).group).units[p.toNat / 32]? = none) 0x0B (fun _ => 7))
    ∧ BlocksWhen (.movp g p r) (fun s => ∃ n o, unit s n ∧ (s.xfu (clusterOf s.cur) n).owner = some o ∧ o ≠ s.cur) .fullQueue)
  ∧ ∀ (g u : BitVec 3) (r : BitVec 6),
    let cl (s : State) : Nat := clusterOf s.cur
    let unit (s : State) (n : Nat) : Prop := (s.group (s.ctx s.cur).group).units[u.toNat]? = some n ∧ (s.xfu (cl s) n).job = none
      ∧ ∀ o, (s.xfu (cl s) n).owner = some o → o = s.cur
    let P (s : State) (n p : Nat) : Nat := (tget 0 (s.xfu (cl s) n).ports p : W64).toNat
    let opts (s : State) (n : Nat) (m : W64) : Prop := tget 0 (s.xfu (cl s) n).ports 4 &&& m = 0
    let oc (s : State) (n : Nat) : Nat := P s n 4 / 16 % 16
    let tile (s : State) (n slot : Nat) (h : Hdr) : Prop := P s n 2 < 32 ∧ TileIs s (BitVec.ofNat 5 (P s n 2)) slot h ∧ ownSlot s s.cur slot = .ok ()
      ∧ (s.ctx s.cur).pending (.tc (P s n 2)) = false
    let starts (i : Instr) (s : State) (n op : Nat) (slot : Option Nat) : Prop := ∃ t j, exec i s = .next t ∧ (t.xfu (cl s) n).job = some j ∧ j.op = op
      ∧ j.ctx = s.cur ∧ j.slot = slot ∧ (t.xfu (cl s) n).op = op ∧ (t.xfu (cl s) n).owner = some s.cur
      ∧ (∀ k, slot = some k → (t.tile (coreOf s.cur) k).full = false)
      ∧ (t.xfu (cl s) n).ports = (s.xfu (cl s) n).ports
    let first (s : State) (n : Nat) (l : List Sector) : Prop := inOrder s s.cur (oc s n) l = .ok ()
    (∀ s n slot h l, Issues (.xfuDecode g u r) s → unit s n → tile s n slot h → opts s n 0xFFFFFFFFFFFFFF0C → P s n 0 % 64 = 0 → P s n 5 % 64 = 0 →
        64 ≤ P s n 5 → P s n 5 ≤ 16384 →
        let tbl : Bool := (tget 0 (s.xfu (cl s) n).ports 4 : W64).getLsbD 1
        (tbl = true → P s n 3 % 16 = 0 ∧ overlap (P s n 0) (P s n 5) (P s n 3) 16 = false) →
        accessR s s.cur (rangePieces (P s n 0) (P s n 5) .r ++ if tbl then rangePieces (P s n 3) 16 .r else []) (oc s n) anyClass = .ok l →
        first s n l → starts (.xfuDecode g u r) s n 0 (some slot))
    ∧ (∀ i op, (i, op) ∈ ([(.xfuZorder g u r, 1), (.xfuUnz g u r, 2)] : List (Instr × Nat)) → ∀ s n l, Issues i s → unit s n → opts s n 0xFFFFFFFFFFFFFF0F →
        P s n 0 % 4096 = 0 → P s n 1 % 4096 = 0 → 4096 ≤ P s n 1 → P s n 1 ≤ 262144 → P s n 6 % 4096 = 0 →
        overlap (P s n 0) (P s n 1) (P s n 6) (P s n 1) = false →
        accessR s s.cur (rangePieces (P s n 0) (P s n 1) .r ++ rangePieces (P s n 6) (P s n 1) .w) (oc s n) anyClass = .ok l →
        first s n l → starts i s n op none)
    ∧ (∀ s n slot h l, Issues (.xfuCopy g u r) s → unit s n → tile s n slot h → opts s n 0xFFFFFFFFFFFFFF0F → P s n 0 % 64 = 0 → P s n 1 % 64 = 0 →
        64 ≤ P s n 1 → P s n 1 ≤ 4096 → accessR s s.cur (rangePieces (P s n 0) (P s n 1) .r) (oc s n) anyClass = .ok l →
        first s n l → starts (.xfuCopy g u r) s n 3 (some slot))
    ∧ (∀ s n slot h l, Issues (.xfuUnpack4 g u r) s → unit s n → tile s n slot h → (h.fmt ≤ 5 ∨ h.fmt = 11) → h.count % 2 = 0 → opts s n 0xFFFFFFFFFFFFFF0F →
        P s n 0 % 64 = 0 → P s n 3 % 64 = 0 → overlap (P s n 0) (h.count / 2) (P s n 3) (2 * fmtBits h.fmt) = false →
        accessR s s.cur (rangePieces (P s n 0) (h.count / 2) .r ++ rangePieces (P s n 3) (16 * (fmtBits h.fmt / 8)) .r) (oc s n) anyClass = .ok l →
        first s n l → starts (.xfuUnpack4 g u r) s n 4 (some slot))
    ∧ (∀ s n l, Issues (.xfuSave g u r) s → unit s n → opts s n 0xFFFFFFFFFFFFFF0F → P s n 0 % 64 = 0 →
        accessR s s.cur (rangePieces (P s n 0) 4224 .w) (oc s n) anyClass = .ok l → first s n l →
        starts (.xfuSave g u r) s n 5 none
        ∧ exec (.xfuSave g u r) s = .next (done (.xfuSave g u r) (does fun w =>
            let v := writeSectors l ((s.xfu (cl s) n).image u.toNat false 0 0 0) (touchRead l w);
            let j : XfuJob := { (s.xfu (cl s) n).keep 5 s.cur 0 with frames := framesOf l, seq := (v.ctx s.cur).memSeq };
            (v.modXfu (cl s) n fun x => { x with job := some j, op := 5, owner := some s.cur, wrote := false }).modCtx s.cur Ctx.nextSeq) s))
    ∧ (∀ s n l, Issues (.xfuLoad g u r) s → unit s n → opts s n 0xFFFFFFFFFFFFFF0F → P s n 0 % 64 = 0 →
        accessR s s.cur (rangePieces (P s n 0) 4224 .r) (oc s n) anyClass = .ok l → first s n l →
        starts (.xfuLoad g u r) s n 6 none)
    ∧ (∀ s n, Issues (.xfuAbort g u r) s → unit s n → exec (.xfuAbort g u r) s = .next (done (.xfuAbort g u r) {} s))
    ∧ ∀ s n j, Issues (.xfuAbort g u r) s → (s.group (s.ctx s.cur).group).units[u.toNat]? = some n →
        (∀ o, (s.xfu (cl s) n).owner = some o → o = s.cur) → (s.xfu (cl s) n).job = some j →
        ∃ t, exec (.xfuAbort g u r) s = .next t ∧ (t.xfu (cl s) n).job = none ∧ (t.xfu (cl s) n).err = 7
          ∧ (t.xfu (cl s) n).done = (s.xfu (cl s) n).done + 1


/-! ## Micro-operations and engine events -/

/-- A micro-operation of a running call counts its word and goes to the next one, or to its target; after a word with E, or past its block, the
call ends. FETA and FETB fill the buffers, MAC and ZPC add one exact k-step to the elements of the region and leave the others, MACQ takes the
operands of the sums, LOOP counts down and moves the K index, BRZ branches at count 0, XPV picks the scale half; the 65,536th word ends the call
and sets its core's CUT bit (R190 to R192). -/
def Obligations.MicroOperations : Prop :=
  ∀ (pr : Fin 2048) (e : BitVec 1) (sel : BitVec 3) (x : BitVec 1) (imm : BitVec 16) (t : BitVec 9) (s : State) (m : MicroRun),
    (s.array pr.val).micro = some m →
    let acc := (s.array pr.val).accBits m.acc
    let goes (i : Instr) (tgt : Option Nat) (m' : MicroRun) (acc' : AccBits) : Prop := ∃ u, exec i s = .next u
      ∧ (if e = 1 ∨ (tgt = none ∧ m.upc % 512 = 511) then (u.array pr.val).micro = none ∧ (u.array pr.val).current = none
        else (u.array pr.val).micro = some { m' with words := m.words + 1, upc := tgt.getD (m.upc + 1) })
      ∧ (u.array pr.val).accBits m.acc = acc'
    let target : Nat := m.upc / 512 * 512 + t.toNat
    (m.words < 65536 →
      goes (.microNop pr e) none m acc ∧ goes (.waitt pr e) none m acc
      ∧ goes (.feta pr e sel x) none (m.feta sel.toNat (x == 1)) acc ∧ goes (.fetb pr e sel x) none (m.fetb sel.toNat (x == 1)) acc
      ∧ goes (.mac pr e) none m (m.mac acc) ∧ goes (.zpc pr e) none m (m.zpc acc) ∧ goes (.macq pr e) none { m with qa := m.fa, qb := m.fb } acc
      ∧ goes (.zacc pr e) none m (m.region acc fun _ _ _ => 0)
      ∧ goes (.setk pr e imm x) none { m with kcnt := if x = 1 then BitVec.ofNat 16 (mpK m.mps / 32) else imm, kidx := 0 } acc
      ∧ goes (.microLoop pr e t) (if m.kcnt - 1 ≠ 0 then some target else none) { m with kcnt := m.kcnt - 1, kidx := m.kidx + 32 } acc
      ∧ goes (.brz pr e t) (if m.kcnt = 0 then some target else none) m acc
      ∧ goes (.xpv pr e x) none { m with half := if x = 0 then mpSig m.mps else ~~~(mpSig m.mps) } acc
      ∧ exec (.drn pr e sel) s = .next (microNext pr.val e none id (microDrain pr.val m sel.toNat s))
      ∧ exec (.sigt pr e sel) s = .next (microNext pr.val e none id (microSignal pr.val m sel.toNat s))
      ∧ exec (.microWordLimit pr) s = .next s)
    ∧ (65536 ≤ m.words → ∃ u, exec (.microWordLimit pr) s = .next u ∧ (u.array pr.val).micro = none ∧ (u.array pr.val).current = none
        ∧ (if coreOf m.ctx % 2 = 1 then (u.array pr.val).cutB = true else (u.array pr.val).cutA = true))
    ∧ ∀ i j, i < 32 → j < 32 → (i < mpRow m.mps ∨ mpRow m.mps + m.faRows ≤ i ∨ j < mpCol m.mps ∨ mpCol m.mps + m.fbCols ≤ j) →
        accAt (m.mac acc) i j = accAt acc i j ∧ accAt (m.zpc acc) i j = accAt acc i j

/-- The engines: the oldest operation of a queue leaves it, and each slot it writes counts one writer less, full and VALID six bundles on when it
was the last; transfers and copies end one by one, but for a copy of a frozen channel; a sector that a copy brings a stream gives its
elements, in address order with their poison, where the buffer of 64 has room; an idle array starts the oldest operation of the core whose window it is, and an operation
that is no micro-program ends with its effects; the windows alternate in MODE 0; a transform operation ends with its tile, its ERR and DONE
(R178, R186, R253, R257, R301, R302, R311, R316, R393). -/
def Obligations.EngineEvents : Prop :=
  ∀ (s : State) (core : Fin 4096) (k : Fin 8) (pr : Fin 2048) (cl : Fin 512),
    let ended (j : Job) (t : State) : Prop := (∀ n, (∀ w ∈ j.writes, w.1 ≠ n) → t.tile core.val n = s.tile core.val n)
      ∧ ∀ n st, j.writes = [(n, st)] → t.tile core.val n = (s.tile core.val n).finish (s.ctx j.ctx).bundles
    (∀ j q, (s.core core.val).tileQ = j :: q → ∃ t, exec (.tileUnitOpComplete core) s = .next t ∧ (t.core core.val).tileQ = q ∧ ended j t)
    ∧ (∀ j q, (s.core core.val).indexQ = j :: q → ∃ t, exec (.indexEngineComplete core) s = .next t ∧ (t.core core.val).indexQ = q
        ∧ ∀ n, (∀ w ∈ j.writes, w.1 ≠ n) → t.tile core.val n = s.tile core.val n)
    ∧ (∀ j q, (s.core core.val).assayQ = j :: q → ∃ t, exec (.asortComplete core) s = .next t ∧ (t.core core.val).assayQ = q ∧ ended j t)
    ∧ (∀ j, (s.core core.val).xferQ[k.val]? = some j → j.writes ≠ [] →
        ∃ t, exec (.tileLoadComplete core k) s = .next t ∧ (t.core core.val).xferQ = (s.core core.val).xferQ.eraseIdx k.val ∧ ended j t)
    ∧ (∀ j, (s.core core.val).xferQ[k.val]? = some j → j.writes = [] →
        ∃ t, exec (.bulkStoreComplete core k) s = .next t ∧ (t.core core.val).xferQ = (s.core core.val).xferQ.eraseIdx k.val ∧ ended j t)
    ∧ (∀ (n : Fin 32) (j : CopyJob), (s.cluster cl.val).copies[n.val]? = some j → j.stream = none →
        (j.channel ∉ (s.cluster cl.val).frozenChannels →
          exec (.copyComplete cl n) s = .next (drainLate j.ctx (s.modCluster cl.val fun c => { c with copies := c.copies.eraseIdx n.val })))
        ∧ (j.channel ∈ (s.cluster cl.val).frozenChannels → exec (.copyComplete cl n) s = .next (drainLate j.ctx (s.modCluster cl.val id))))
    ∧ (∀ (g : Fin 16384) (q : Fin 8) p ps y ys i j, ((s.ctx g.val).stream' q.val).pending = p :: ps → p.src = y :: ys →
        ((s.cluster (clusterOf g.val)).copies.findIdx? fun j => j.ctx == g.val && j.stream == some q.val && j.seq == p.seq) = some i →
        (s.cluster (clusterOf g.val)).copies[i]? = some j → j.channel ∉ (s.cluster (clusterOf g.val)).frozenChannels →
        ((s.ctx g.val).stream' q.val).arrived.length + y.n / 8 ≤ 64 →
        ∃ t, exec (.streamElementArrive g q) s = .next t
          ∧ ((t.ctx g.val).stream' q.val).arrived = ((s.ctx g.val).stream' q.val).arrived
            ++ sectorElems (readPlace s y.place y.n) (poisonAt s y.place y.n)
          ∧ ((t.ctx g.val).stream' q.val).pending = if ys.isEmpty then ps else { p with src := ys } :: ps)
    ∧ exec (.arrayWindow pr) s = .next (if (s.array pr.val).mode = 0 then s.modArray pr.val fun a => { a with windowB := !a.windowB } else s)
    ∧ (∀ (b : Bool) o q, (s.array pr.val).current = none → ((s.array pr.val).mode = 0 → (s.array pr.val).windowB = b) →
        (if b then (s.array pr.val).queueB else (s.array pr.val).queueA) = o :: q →
        ∃ t, exec (.arrayOpStart pr b) s = .next t ∧ (t.array pr.val).current = some (b, o)
          ∧ (if b then (t.array pr.val).queueB else (t.array pr.val).queueA) = q
          ∧ (if b then (t.array pr.val).queueA = (s.array pr.val).queueA else (t.array pr.val).queueB = (s.array pr.val).queueB))
    ∧ (∀ b o, (s.array pr.val).current = some (b, o) → (s.array pr.val).micro = none →
        ∃ t, exec (.arrayOpComplete pr) s = .next t ∧ (t.array pr.val).current = none ∧ (t.array pr.val).acc = ((runArrOp pr.val o s).array pr.val).acc
          ∧ ∀ c n, t.tile c n = (runArrOp pr.val o s).tile c n)
    ∧ ∀ (u : Fin 4) j, (s.xfu cl.val u.val).job = some j → ∃ t, exec (.xfuOpEnd cl u) s = .next t ∧ (t.xfu cl.val u.val).job = none
        ∧ (t.xfu cl.val u.val).err = j.err ∧ (t.xfu cl.val u.val).done = (s.xfu cl.val u.val).done + 1
        ∧ ∀ n, j.slot = some n → t.tile (coreOf j.ctx) n = ((s.tile (coreOf j.ctx) n).late j.newData j.status).finish (s.ctx j.ctx).bundles

/-- Landings: results due by the next bundle leave the flights, tags that are due clear, a tile shows VALID six bundles after it went full, time
passes with returning data and is charged to the context that stalls in it; where nothing of the boundary comes first, the watchdog at its
interval is cause 0x15 with what the context waits for, a fetch that cannot be had is its fault with no slot marked, and a pre-empted
context stops; ARBMODE is written once the array is idle, a demoted frame is restored, a stopped context's state is saved (R54, R139, R179,
R205, R236, R284, R364, R372, R419, R429, R438, R439). The model's own are a fetch fault's empty FAULTMASK (log 19), that returning data
takes time alone (log 10), and the watch that starts again with the watchdog's trap (log 70). -/
def Obligations.LandingEvents : Prop :=
  ∀ (s : State) (c : Fin 16384),
    let g := c.val
    let quiet : Prop := (s.ctx g).boundaryFreeze = none ∧ (s.ctx g).stalled = false ∧ heldByVault s g = false ∧ (s.ctx g).duePoison = none
      ∧ (s.ctx g).boundaryPoison = []
    (∃ t, exec (.resultLand c) s = .next t ∧ (t.ctx g).flights = (s.ctx g).flights.filter (fun f => !(decide (f.due ≤ (s.ctx g).bundles) && f.poison.isNone))
        ∧ ∀ n, (s.ctx g).pending n = false → (t.ctx g).reg n = (s.ctx g).reg n)
    ∧ (∃ t, exec (.ckTagClear c) s = .next t ∧ (t.ctx g).tags = (s.ctx g).tags.filter fun x => decide ((s.ctx g).bundles < x.2.1))
    ∧ (∀ n : Fin 32, n.val < (s.ctx g).tileCount → exec (.tileStatusValid c n) s = .next (s.modTile (coreOf g) ((s.ctx g).tileBase + n.val) fun x =>
        { x with valid := x.valid || (x.full && decide (x.validAt ≤ (s.ctx g).bundles)) }))
    ∧ (∀ n, (stallsHere s g = true → exec (.memoryDataReturn c n) s = .next (charge g n { s with cycles := s.cycles + BitVec.ofNat 64 n }))
        ∧ (stallsHere s g = false → exec (.memoryDataReturn c n) s = .next { s with cycles := s.cycles + BitVec.ofNat 64 n }))
    ∧ ((s.ctx g).run.placed = true → watchdogDue s g = true → quiet →
        exec (.watchdog c) s = .next (elsewhere g (fun u => takeTrap g 0x15 (BitVec.ofNat 64 (waitCode (s.ctx g))) 0
          (u.modCtx g fun z => { z with watch := s.cycles.toNat })) s))
    ∧ (∀ v : W64, (s.array (pairOf g)).idle = true → v.extractLsb' 0 2 ≠ 3 → (∀ k < 4, tget 0 (s.array (pairOf g)).accState k = 0) →
        exec (.arbmodeWrite c v) s = .next (s.modArray (pairOf g) fun a =>
          { a with mode := v.extractLsb' 0 2, cutA := false, cutB := false, windowB := false }))
    ∧ (∀ cause info, fetch s g = .error (.trap cause info) → (s.ctx g).run.placed = true → (s.ctx g).stream = false →
        boundaryEvent g s = none → heldByVault s g = false → refillReady s g = true → held s g = false →
        exec (.instructionFetchFault c) s = .next (elsewhere g (takeTrap g cause info 0) s))
    ∧ (∀ f, frP (s.frame f) = true → frD (s.frame f) = true → exec (.frameRestore f) s = .next (restoreFrame f s))
    ∧ ((s.ctx g).run.placed = true → (s.ctx g).preempt = true → (s.ctx g).hm = false → (s.ctx g).stream = false → watchdogDue s g = false → quiet →
        exec (.preemptStop c) s = .next (elsewhere g (stopForSave g) s))
    ∧ ((s.ctx g).run = .saved ∨ (s.ctx g).run = .frameWait → exec (.preemptStop c) s = .next (saveStep g s))

/-! ## Launches, collectives, groups -/

/-- The command processor: the next descriptor of a partition, when it passes every check, moves HEAD on and becomes a waiting launch or
collective; a refused one moves HEAD on and leaves the record of its first failed check, which its place then reads where the partition
reaches it in a plain frame; a queue whose turn it is not changes nothing. A launch starts when all it waits for has ended, and ends with its
record once every index handed out has exited; a collective reduces over the ranks and leaves its record; handles are registered once and
removed (R277 to R279, R356 to R359, R451, R454, R455). The model's own: what is out of the partition's reach is written nowhere and what its
reads meet is reported (log 59), a collective's record has FCOUNT 0 (log 43), launches and collectives share one counter of identifiers
(log 39), and an event on a queue whose turn it is not changes nothing (log 9). -/
def Obligations.LaunchEvents : Prop :=
  ∀ (s : State), memWf s.mem = true →
    let plain (p a n : Nat) : Prop := ∀ f ∈ framesAt a n, cpReach s p true f = true ∧ frC (s.frame f) = false ∧ frD (s.frame f) = false
    (∀ vf q host p, s.request = .launchAccept vf q host →
      let qu := s.queue vf.val q.val
      let d := s.descriptor p qu host
      let gcount := ((descDw d 1).extractLsb' 0 32).toNat
      (s.vf vf.val).part = some p → qu.pending = true → qu.collective = false →
      (nextQueue s p ≠ some (queueKey vf.val q.val) → exec .launchAccept s = .next s)
      ∧ (nextQueue s p = some (queueKey vf.val q.val) → launchStatus s p d = none → ∃ t x, exec .launchAccept s = .next t
          ∧ (t.queue vf.val q.val).head = qu.head + 1 ∧ tfind t.launches s.nextLaunch = some x ∧ t.nextLaunch = s.nextLaunch + 1 ∧ t.mem = s.mem
          ∧ x.state = .waiting ∧ x.part = p ∧ x.gcount = gcount ∧ x.glimit = ((descDw d 1).extractLsb' 32 32).toNat
          ∧ x.args = descDw d 2 ∧ x.next = 0 ∧ x.exited = 0 ∧ x.record = (descDw d 7).toNat)
      ∧ (∀ st, nextQueue s p = some (queueKey vf.val q.val) → launchStatus s p d = some st →
          let t := cpWrite p (descDw d 7).toNat (recordBytes st 0 0 gcount 0 0 0)
            (noteDescriptor p qu d (launchFields s p d).isNone (advanceHead vf.val q.val s))
          exec .launchAccept s = .next t ∧ (t.queue vf.val q.val).head = qu.head + 1 ∧ t.launches = s.launches
          ∧ (plain p (descDw d 7).toNat 32 → readBytes t.mem (descDw d 7).toNat 32 = recordBytes st 0 0 gcount 0 0 0)))
    ∧ (∀ vf q host p, s.request = .collectiveStart vf q host →
      let qu := s.queue vf.val q.val
      let d := s.descriptor p qu host
      (s.vf vf.val).part = some p → qu.pending = true → qu.collective = true → nextQueue s p = some (queueKey vf.val q.val) →
      (collectiveStatus s p d = none →
        ∃ t c, exec .collectiveStart s = .next t ∧ (t.queue vf.val q.val).head = qu.head + 1 ∧ tfind t.collectives s.nextLaunch = some c
          ∧ t.nextLaunch = s.nextLaunch + 1 ∧ c.done = false ∧ c.part = p ∧ c.src = (descDw d 2).toNat ∧ c.dst = (descDw d 3).toNat)
      ∧ ∀ st, collectiveStatus s p d = some st →
        exec .collectiveStart s = .next (cpWrite p (descDw d 7).toNat (recordBytes st 0 0 0 0 0 0)
          (noteDescriptor p qu d (collectiveFields s p d).isNone (advanceHead vf.val q.val s))))
    ∧ (∀ k ranks lost c me n, s.request = .collectiveComplete k ranks lost → tfind s.collectives k = some c → rankOf s c.comm.toNat = some me →
      n = ((tfind s.comms c.comm.toNat).getD []).length → c.done = false → c.waits.all (idDone s) = true → ranks.length = n →
      (∀ r ∈ ranks, r.bytes.length = c.inBytes n) →
      let own : RankData := { bytes := cpRead s c.part c.src (c.inBytes n), poison := cpPoison s c.part c.src (c.inBytes n) }
      let all := ranks.set me own
      let out := c.result me (all.map (·.bytes))
      let t := endCollective k c (putResult c me n all lost (cpNote c.part c.src (c.inBytes n) s))
      exec .collectiveComplete s = .next t ∧ (tfind t.collectives k).map (·.done) = some true
        ∧ (∀ j, c.handles = [] → c.dst % 64 = 0 → plain c.part c.dst (c.outBytes n) → plain c.part c.record 32 → c.record / 64 ≠ c.dst / 64 + j →
          (c.record + 31) / 64 ≠ c.dst / 64 + j →
          64 * j < c.outBytes n → j ∈ c.spoiled me (all.map (·.poison)) ∨ j ∈ lost → c.dst / 64 + j ∈ t.poison)
        ∧ (lost = [] → c.handles = [] → plain c.part c.dst out.length → plain c.part c.record 32 → readBytes t.mem c.record 32 = recordBytes 0 0 0 0 0 0 0
          ∧ ∀ a, (a < c.record ∨ c.record + 32 ≤ a) → t.byteAt a = readByte (writeBytes s.mem c.dst out) a))
    ∧ (∀ k l, tfind s.launches k = some l → l.state = .waiting → l.waits.all (idDone s) = true →
        exec (.launchStart k) s = .next (s.modLaunch k fun l => { l with state := .ready }))
    ∧ (∀ k l, tfind s.launches k = some l → l.state = .ready → l.exited = l.next → (l.status ≠ 0 ∨ l.gcount ≤ l.next) →
        exec (.launchComplete k) s = .next (endLaunch k l.status s)
        ∧ (tfind (endLaunch k l.status s).launches k).map (·.state) = some .ended
        ∧ (l.handles = [] → plain l.part l.record 32 → readBytes (endLaunch k l.status s).mem l.record 32 = l.recordBytes))
    ∧ (∀ p h b n, s.request = .handleRegister p h b n → tfind s.bufHandles (bufKey p.val h.toNat) = none → exec .handleRegister s = .next { s with
        bufHandles := tset s.bufHandles (bufKey p.val h.toNat) { base := b, len := n, writer := none, readers := [], seqno := 0 } })
    ∧ ∀ p h, s.request = .handleRemove p h → exec .handleRemove s = .next { s with bufHandles := tdel s.bufHandles (bufKey p.val h.toNat) }

/-- The dispatchers: the next group of an open launch goes to the first cluster of the die that takes it and where its VF is served with no
pre-empted group to come back first, once its tables pass, its contexts as dispatch leaves them; a launch whose declared resources no
cluster could offer is refused with status 0x15, one whose table fails with that entry's status; a group whose contexts have all exited gives its resources back; once for every 150,000 cycles a quantum tests and
adds gains on every cluster; pre-empted groups return in turn; the Treasury closes every account; a frame the runtime installs ends the wait
for it, also where its handler asked, and a refusal freezes the context (R349, R360 to R374, R431). Who is served, which cluster of a die
is tried, and that a quantum acts once for each multiple of 150,000 when the agenda comes to it, its gains after a VF that groups make room
for, are the model's (log 38). -/
def Obligations.DispatchEvents : Prop :=
  ∀ (s : State),
    (∀ die k l cl ps, s.request = .groupPlace die k → tfind s.launches k = some l → s.regs.ready = true → l.hasNext = true →
      (s.kobj l).tooLarge = false → partClusters s l.part ≠ [] → launchOpen s k l = true → servedBefore s die.val k l = false →
      dieFits s die.val k l = some (cl, ps) →
      let u := ps.foldl (fun s p => cpNote l.part (l.swtb + 8192 * p.1) 8192 s) (ownSegments l ps s)
      (∀ cp st i, refusedTable u l ps = some (cp, st, i) →
        exec .groupPlace s = .next (u.modLaunch k fun l => { l with status := st, swtIdx := i, swtCp := cp }))
      ∧ (refusedTable u l ps = none → ∃ t, exec .groupPlace s = .next t
        ∧ (tfind t.launches k).map (·.next) = some (l.next + 1) ∧ t.nextGroup = s.nextGroup + 1
        ∧ (t.group s.nextGroup).index = l.next ∧ (t.group s.nextGroup).cluster = cl ∧ (t.group s.nextGroup).live = ps.map (·.1)
        ∧ (t.die (cl / 8)).lastCluster = cl % 8))
    ∧ (∀ die k l, s.request = .groupPlace die k → tfind s.launches k = some l → s.regs.ready = true → l.hasNext = true → (s.kobj l).tooLarge = true →
      exec .groupPlace s = .next (s.modLaunch k fun l => { l with status := 0x15 }))
    ∧ (∀ l k grp prog base o entry table now, let c := dispatched l k grp prog base o entry table now
      c.run = .ready ∧ c.pc = entry ∧ c.s 1 = l.args ∧ (∀ n, n ≠ 1 → c.s n = 0) ∧ (∀ n, c.v n = 0) ∧ (∀ n, n ≠ 0 → c.p n = 0) ∧ (∀ n, c.b n = 0)
        ∧ (∀ n, c.tc n = 0) ∧ c.scratch = [] ∧ c.flights = [] ∧ c.hm = false ∧ c.trapvec = 0 ∧ c.tileCount = o.tiles ∧ c.scratchSize = 1024 * o.scratch
        ∧ c.swt = table)
    ∧ (∀ k x, tfind s.groups k = some x → x.done = false → x.live = [] → (∀ m ∈ x.members, ctxBusy s m.2 = false) →
      exec (.groupComplete k) s = .next ((releaseGroup k s).modLaunch x.launch fun l => { l with exited := l.exited + 1 }))
    ∧ (∀ k, groupTurn s k = true → groupReturns s k = true →
      let vf := (((savedOf s k).map fun y => y.2.ctx.vf).head?).getD 0
      vfServed s (s.group k).cluster vf = true → exec (.groupResume k) s = .next (settleGains (s.group k).cluster vf (resumeGroup k s)))
    ∧ (s.regs.quanta < s.cycles.toNat / 150000 →
      let turn (cl : Nat) (t : State) : State :=
        let u := spentTest cl (if (t.cluster cl).gainDue.isSome then addGains cl t else t)
        if (u.cluster cl).gainDue.isSome then u else addGains cl u
      let t := s.each (s.clusters.map (·.1)) turn
      exec .quantumBoundary s = .next { t with regs := { t.regs with quanta := t.regs.quanta + 1 } })
    ∧ (s.cycles.toNat / 150000 ≤ s.regs.quanta → exec .quantumBoundary s = .next s)
    ∧ (∀ ext, s.request = .treasuryClose ext → ∃ t, exec .treasuryClose s = .next t ∧ ∀ v x, tfind s.vfs v = some x →
      let credit : Int := (s.regs.allow * 100 * x.share / 65536 : Nat)
      let nj := x.meter + ((ext.filter (·.1 == v)).map (·.2)).sum + x.remainder
      ∃ y, tfind t.vfs v = some y ∧ y.meter = 0 ∧ y.remainder = nj % 1000 ∧ y.share = x.share
        ∧ y.balance = max (min (x.balance + credit - ((nj / 1000 : Nat) : Int)) credit) (-2147483648))
    ∧ (∀ vf w, s.request = .vfWeightSet vf w → 1 ≤ w → w ≤ 255 → exec .vfWeightSet s = .next (s.modVf vf.val fun v => { v with weight := w }))
    ∧ (∀ c e u, let x := s.ctx c.val; let f := x.trapinfo.toNat / 65536
      s.request = .frameService c (some e) → x.run = .frameWait → installable s x.part f = true → installFrame f e s = some u →
      exec .frameService s = .next (u.setCtx c.val { x.rfe s.cycles.toNat with run := .ready })
      ∧ frP (u.frame f) = true ∧ frCoh (u.frame f) = frCoh (s.frame f) ∧ frOwner (u.frame f) = frOwner (s.frame f) ∧ u.mem = s.mem)
    ∧ (∀ c e u, let x := s.ctx c.val; let f := x.trapinfo.toNat / 65536
      s.request = .frameService c (some e) → handlesFrame x = true → (∀ y ∈ s.saves, y.2.home = c.val → y.2.ctx.run ≠ .frameWait) →
      installable s x.part f = true → installFrame f e s = some u → exec .frameService s = .next u)
    ∧ ∀ c, s.request = .frameService c none → (s.ctx c.val).run = .frameWait →
      exec .frameService s = .next (violation 0 0x08 (s.ctx c.val).part c.val (s.ctx c.val).trapinfo (s.setCtx c.val ((s.ctx c.val).freeze 0x08)))

/-! ## The Mint and mailboxes -/

/-- The Mint: a set binds stream contexts of the launch and starts with no bucket; a table and rows load between iterations when no entry is bad;
a boundary of a set in place ends the iteration that ran and searches the next. A cycle of the tree in which no member would block or stall
and every member commits its row moves the schedule on; one in which a member stalls lets its engines work; one in which a member would
block holds the set, with every level at the same bundle; the hold ends when none would. A mailbox is given; a task stores SEQ of a mailbox
within its rights; an image of a task of its partition fills the microstores of a cluster (R60 to R64, R189, R376 to R380, R385 to R388,
R404). The model's own: the row cycle by tree level, the states in which a block is judged and what a stop executes (log 37), and which of a
core's contexts a set binds (log 6). -/
def Obligations.MintEvents : Prop :=
  ∀ (s : State),
    (∀ die k l cores pool tpp, s.request = .mintSetLoad die k cores pool tpp → tfind s.launches k = some l → (s.die die.val).mint = none →
      (s.die die.val).mintClosed = false → 1 ≤ tpp → tpp ≤ 4096 →
      (∀ c ∈ cores, c / 64 = die.val ∧ (s.cluster (c / 8)).part = some l.part ∧ ∃ g, streamOf s k c = some g) →
      ∃ t m, exec .mintSetLoad s = .next t ∧ (t.die die.val).mint = some m ∧ m.launch = k ∧ m.members = (cores.map (streamOf s k)).filterMap id ∧ m.pool = pool
        ∧ m.tpp = tpp ∧ m.table = [] ∧ m.reqs = (s.die die.val).reqs ∧ m.drafts = (s.die die.val).drafts ∧ m.running = false ∧ m.stopped = false ∧ ∀ g ∈ m.members, (t.ctx g).stream = true)
    ∧ (∀ die table rows m, s.request = .bucketTableLoad die table rows → (s.die die.val).mint = some m → m.running = false →
      (∀ e ∈ table, bucketBad e = false) → table.length ≤ 144 → rows.length ≤ 32768 → exec .bucketTableLoad s = .next (s.modMint die.val fun m =>
        { m with table := table.zipIdx.map fun e => (e.2, e.1), rows := rows.zipIdx.map fun e => (e.2, e.1) }))
    ∧ (∀ (die : Fin 64) m, (s.die die.val).mint = some m → m.stopped = false → m.busy = false →
      (∀ g ∈ m.members, (s.ctx g).preempt = false ∧ (s.ctx g).stream = true ∧ (s.ctx g).run.placed = true ∧ refillReady s g = true) →
      ∃ t, exec (.mintIterationBoundary die) s = .next t ∧ (t.die die.val).mint = some (if m.running then m.finish else m).boundary
        ∧ t.mem = s.mem ∧ ∀ g, t.ctx g = s.ctx g)
    ∧ (∀ m : Mint, m.finish.iter = m.iter + 1 ∧ m.finish.running = false)
    ∧ (∀ (die : Fin 64) m, (s.die die.val).mint = some m → m.stopped = false → m.busy = true → m.hold = false → mintReady s m = true →
      let u := s.each m.members takeRefills
      let t := rowCycle die.val m.cycle u
      let w := caughtUp die.val m u
      (setBlocks die.val m u = true → m.rowsLeft = 0 ∨ wayBlocks m u = true →
        exec (.mintRowSend die) s = .next (u.modMint die.val fun m => { m with hold := true }))
      ∧ (setBlocks die.val m u = true → m.rowsLeft ≠ 0 → wayBlocks m u = false → mintStopped w die.val = false →
        exec (.mintRowSend die) s = .next (w.modMint die.val fun m => { m with hold := true, first := m.row }))
      ∧ (setBlocks die.val m u = true → m.rowsLeft ≠ 0 → wayBlocks m u = false → mintStopped w die.val = true →
        exec (.mintRowSend die) s = .next w)
      ∧ (∀ v, setBlocks die.val m u = false → setStalls m.cycle u = some v → exec (.mintRowSend die) s = .next v)
      ∧ (setBlocks die.val m u = false → setStalls m.cycle u = none → mintStopped t die.val = true → exec (.mintRowSend die) s = .next t)
      ∧ (setBlocks die.val m u = false → setStalls m.cycle u = none → mintStopped t die.val = false →
          (∀ x ∈ m.cycle, rowCommitted x.1 u t = true) → exec (.mintRowSend die) s = .next (t.modMint die.val Mint.advance)))
    ∧ (∀ m : Mint, m.rowsLeft ≠ 0 → m.advance.row = m.row + 1 ∧ m.advance.rowsLeft = m.rowsLeft - 1)
    ∧ (∀ (die : Fin 64) m, (s.die die.val).mint = some m → m.hold = true → setBlocks die.val m s = false →
      exec (.streamHoldRelease die) s = .next (s.modMint die.val fun m => { m with hold := false }))
    ∧ (∀ c x val, s.request = .mailboxSeqWrite c x val → (s.ctx c.val).run.placed = true → mintReadOk s c.val (0x4000 + 0x400 * x.val) = true →
      mintStoreOk s c.val (0x4000 + 0x400 * x.val) 8 0 = true →
      exec .mailboxSeqWrite s = .next (mintStore c.val (0x4000 + 0x400 * x.val) (leBytes 8 val.toNat) s))
    ∧ (∀ n p, s.request = .mailboxGrant n p none → (s.mailbox n.val).launch = none →
      exec .mailboxGrant s = .next { s with mailboxes := tset s.mailboxes n.val { s.mailbox n.val with part := some p.val } })
    ∧ ∀ cl k words entries l, s.request = .microstoreImageLoad cl k words entries → s.regs.mini = false → tfind s.launches k = some l →
      (s.cluster cl.val).part = some l.part → (s.cluster cl.val).image = none → exec .microstoreImageLoad s = .next (loadImage cl.val k words entries s)

/-! ## The host, other masters, ports -/

/-- The host's registers and the masters outside the clusters: TAIL, QCFG, SHARE and PWRCTL writes by their rules, a register access that is
not an aligned 64-bit one answered Unsupported, and a read answered with the register. With the dies and Vaults released, reads of granted
present memory give its bytes and touch its frames, and a host request outside its grants is refused and reported; before that the host gets
Unsupported. A general core that is held, or whose last access has not completed, accesses nothing; one that reads outside the load-store
domain gets poisoned data. A good flit in sequence is delivered, a bad one asks for replay, a retraining port comes up and replays or goes
down and completes what was in flight with an error; export window and communicators are set in an authenticated session only (R27, R31,
R358, R392 to R394, R404, R405, R418, R421, R445, R448 to R454, R456, R458). The model's own: HEAD is set to TAIL when EN is cleared (log
40), the answers in minimal mode (log 42), what touches a frame (log 50), a session is authenticated by CHALLENGE (log 73), and what of ports
the rule leaves open (log 71). -/
def Obligations.HostAndPortEvents : Prop :=
  ∀ (s : State),
    (∀ vf q tail, s.request = .qtailWrite vf q tail →
      let x := s.queue vf.val q.val
      (x.err = false → (tail - x.tail).toNat + (x.tail - x.head).toNat ≤ 2 ^ x.log →
        exec .qtailWrite s = .next { s with queues := tset s.queues (queueKey vf.val q.val) { x with tail := tail }
                                            tails := if tail = x.tail then s.tails else s.tails ++ [(s.cycles, queueKey vf.val q.val, tail)] })
      ∧ (x.err = false → 2 ^ x.log < (tail - x.tail).toNat + (x.tail - x.head).toNat →
        exec .qtailWrite s = .next { s with queues := tset s.queues (queueKey vf.val q.val) { x with err := true } }))
    ∧ (∀ vf q val, s.request = .qcfgWrite vf q val → ∃ t, exec .qcfgWrite s = .next t
        ∧ (t.queue vf.val q.val).log = (val.extractLsb' 0 5).toNat ∧ (t.queue vf.val q.val).collective = val.getLsbD 8
        ∧ (t.queue vf.val q.val).en = (val.getLsbD 9 && decide (4 ≤ (val.extractLsb' 0 5).toNat ∧ (val.extractLsb' 0 5).toNat ≤ 16))
        ∧ ((t.queue vf.val q.val).en = false → (t.queue vf.val q.val).head = (s.queue vf.val q.val).tail ∧ (t.queue vf.val q.val).err = false))
    ∧ (∀ vf val, s.request = .shareWrite vf val → s.vfs.foldl (fun n e => if e.1 = vf.val then n else n + e.2.share) 0 + (val.extractLsb' 0 16).toNat ≤ 65536 →
        exec .shareWrite s = .next (s.modVf vf.val fun f => { f with share := (val.extractLsb' 0 16).toNat }))
    ∧ (∀ val, s.request = .pwrctlWrite val → 1000 ≤ (val.extractLsb' 0 13).toNat → (val.extractLsb' 0 13).toNat ≤ 6400 →
        exec .pwrctlWrite s = .next { s with regs := { s.regs with allow := (val.extractLsb' 0 13).toNat } })
    ∧ (∀ vf off n val, s.request = .registerWrite (some vf) off n val →
        (n ≠ 8 ∨ off % 8 ≠ 0 → exec .registerWrite s = .next { s with answer := .unsupported })
        ∧ (n = 8 → off < 512 → off % 32 = 16 → exec .registerWrite s = .next { tailWrite vf.val (off / 32) (val.extractLsb' 0 32) s with answer := .done })
        ∧ (n = 8 → off < 512 → off % 32 = 8 → exec .registerWrite s = .next { cfgWrite vf.val (off / 32) val s with answer := .done }))
    ∧ (∀ fn off n, s.request = .registerRead fn off n →
        (n ≠ 8 ∨ off % 8 ≠ 0 → exec .registerWrite s = .next { s with answer := .unsupported })
        ∧ (n = 8 → off = 0x1000 → fn = none → exec .registerWrite s = .next { s with answer := .data 8 ((bootStat s.regs).setWidth 512) false })
        ∧ (n = 8 → off = 0x1010 → fn = none → exec .registerWrite s = .next { s with answer := .data 8 (BitVec.ofNat 64 s.regs.allow |>.setWidth 512) false }))
    ∧ (∀ vf a, s.request = .hostMemoryRequest vf a → s.regs.mini = true → exec .hostMemoryRequest s = .next { s with answer := .unsupported })
    ∧ (∀ vf a, s.request = .hostMemoryRequest vf a → s.regs.mini = false → 0 < a.size → a.size ≤ 64 →
        (a.kind = .read → (∀ f ∈ accFrames a a.addr, hostAdmits s vf false f = true) → (∀ p ∈ pieces a.addr a.size, probe s p.1 = .ok none) →
          poisonIn s a.addr a.size = none → exec .hostMemoryRequest s = .next { s.each (accFrames a a.addr) touchFrame with
            answer := .data a.size (BitVec.ofNat 512 (leNat (readBytes s.mem a.addr a.size))) false })
        ∧ ((∃ f ∈ accFrames a a.addr, hostAdmits s vf (accWrites a) f = false) → ∃ t, exec .hostMemoryRequest s = .next t ∧ t.answer = .unsupported
          ∧ t.mem = s.mem ∧ t.violations.length = s.violations.length + 1))
    ∧ (∀ node tag a, s.request = .remoteRequest node tag a → s.regs.mini = false → (∀ n ∈ s.refusedNodes, n.1 ≠ node) → 0 < a.size → a.size ≤ 64 → s.regs.exportPart = some tag →
        a.addr + a.size ≤ s.regs.exportLen → a.kind = .read → (∀ f ∈ accFrames a (s.regs.exportBase + a.addr), (s.grant f).owner = some tag) →
        (∀ p ∈ pieces (s.regs.exportBase + a.addr) a.size, probe s p.1 = .ok none) → poisonIn s (s.regs.exportBase + a.addr) a.size = none →
        exec .remoteRequest s = .next (let v := BitVec.ofNat 512 (leNat (readBytes s.mem (s.regs.exportBase + a.addr) a.size));
          { s.each (accFrames a (s.regs.exportBase + a.addr)) touchFrame with answer := .data a.size v false }))
    ∧ (∀ h a p, s.request = .generalCoreAccess h a → 0 < a.size → a.size ≤ 64 →
        ((s.hart h.val).frozen ≠ none → exec .generalCoreAccess s = .next { s with answer := .none })
        ∧ (hartWaits s h.val = true → exec .generalCoreAccess s = .next { s with answer := .none })
        ∧ ((s.hart h.val).frozen = none → hartWaits s h.val = false → s.regs.mini = false → (s.hart h.val).part = some p →
          (a.addr + a.size ≤ 2 ^ 48 → a.kind = .read →
            (∀ f ∈ accFrames a a.addr, hartAdmits s p false f = true) → (∀ x ∈ pieces a.addr a.size, probe s x.1 = .ok none) →
            poisonIn s a.addr a.size = none →
            let v := Answer.data a.size (BitVec.ofNat 512 (leNat (readBytes s.mem a.addr a.size))) false
            exec .generalCoreAccess s = .next ({ s.each (accFrames a a.addr) touchFrame with answer := v }.modHart h.val fun x => { x with answer := v }))
          ∧ ∀ dpos off, regionOf a.addr a.size = some (.aperture dpos off) → inDomain s dpos = false → ∃ t, exec .generalCoreAccess s = .next t
            ∧ t.answer = .data a.size 0 true ∧ t.mem = s.mem ∧ t.errors.length = s.errors.length + 1))
    ∧ (∀ b n p, s.request = .exportWindowSet b n p → s.regs.spdmSession = false → exec .exportWindowSet s = .next s)
    ∧ (∀ b n p, s.request = .exportWindowSet b n p → s.regs.spdmSession = true → n ≤ 2 ^ 34 → b % 65536 = 0 → n % 65536 = 0 → b + n ≤ s.dpBytes →
        n / 65536 ≤ (s.grants.filter fun g => decide (b / 65536 ≤ g.1 ∧ g.1 < b / 65536 + n / 65536) && g.2.owner == some p.val).length →
        exec .exportWindowSet s = .next { s with regs := { s.regs with exportBase := b, exportLen := n, exportPart := some p.val } })
    ∧ (∀ p ok n body, s.request = .walvoFlitReceive p ok n body → (s.port p.val).state = 0 →
        (ok = true → n = (s.port p.val).expect →
          exec .walvoFlitReceive s = .next (deliverFlit p.val body (s.modPort p.val fun x =>
            { x with expect := x.expect + 1, fails := 0, replay := false, delivered := x.delivered + 1 })))
        ∧ (ok = false ∨ n ≠ (s.port p.val).expect → (s.port p.val).replay = false →
          exec .walvoFlitReceive s = .next (s.modPort p.val fun x => { x with replay := true })))
    ∧ (∀ p, s.request = .portDown p → (s.port p.val).state = 1 → exec .portDown s = .next
        ((s.port p.val).flight.foldl (fun u r => lostRequest r.hart r.part r.access u)
          (s.modPort p.val fun x => { x with state := 2, buffer := [], flight := [] })))
    ∧ (∀ p, s.request = .portRetrainComplete p → (s.port p.val).state = 1 → exec .portRetrainComplete s = .next
        (s.modPort p.val fun x => { x with state := 0, fails := 0, replay := true, resent := x.resent + x.buffer.length }))
    ∧ (∀ n d l, s.request = .nodeIdAssign n d l →
        exec .nodeIdAssign s = .next { s with regs := { s.regs with node := n, dpos := d.getD 0, dv := d.isSome, domain := l } })
    ∧ ∀ c l, s.request = .communicatorSet c l →
        (s.regs.spdmSession = true → exec .communicatorSet s = .next { s with comms := tset s.comms c.toNat l })
        ∧ (s.regs.spdmSession = false → exec .communicatorSet s = .next s)

/-! ## Vaults -/

/-- The Vaults and the partition runtime's requests on frames it owns: a write to a line lands, and one to a line with bad metadata is held
and reported, its bytes not applied. A held write is applied when chunks serve it. The Balloon engine goes through its steps: it takes the
oldest donated frame that is not pinned first, compacts, then demotes, and is exhausted when a pass frees nothing; with no reason to run, or
in minimal mode, it does nothing. Ratios, donations, withdrawals, demotions, zeroing, splitting and building pages act on the frames of the request (R411, R412,
R415, R418, R421 to R425, R404). -/
def Obligations.VaultEvents : Prop :=
  ∀ (s : State), memWf s.mem = true →
    (∀ line off data, s.request = .vaultLineWrite line off data → s.regs.mini = false → off + data.length ≤ 512 → 512 * (line + 1) ≤ s.dpBytes →
      frD (s.frame (line / 128)) = false →
      ((∀ v p, s.lineHome line = some (v, p) → (s.vault v).badLine line = false) → ∃ t,
        exec .vaultLineWrite s = .next t ∧ readBytes t.mem (512 * line + off) data.length = data
        ∧ ∀ a, a < 512 * line + off ∨ 512 * line + off + data.length ≤ a → t.byteAt a = s.byteAt a)
      ∧ ∀ v p, s.lineHome line = some (v, p) → (s.vault v).badLine line = true → data ≠ [] → ∃ t, exec .vaultLineWrite s = .next t
        ∧ t.mem = s.mem ∧ t.errors.length = s.errors.length + 1)
    ∧ (∀ (v : Fin 16) h, (s.vault v.val).held = [h] →
      let e := s.frame (h.line / 128)
      let done (u : State) : State := decideSpace v.val ((releaseHeld v.val (· == h) u).modVault v.val Vault.rest)
      (∀ w, frP e = true → frC e = true → frD e = false →
        (s.vault v.val).writeLine h.line ((s.vault v.val).ownerOf (h.line / 128)) (readBytes s.mem (512 * h.line) 512) = .done w →
        exec (.heldWriteApply v) s = .next (done (s.modVault v.val fun _ => w)))
      ∧ (frP e = false ∨ frC e = false → exec (.heldWriteApply v) s = .next (done s)))
    ∧ (s.regs.mini = true → ∀ v : Fin 16, exec (.balloonPass v) s = .next s)
    ∧ (s.regs.mini = false → ∀ v : Fin 16, let x := s.vault v.val
      (x.wants = false → exec (.balloonPass v) s = .next (s.modVault v.val Vault.rest))
      ∧ (x.wants = true → x.exhausted = true → x.held = [] → exec (.balloonPass v) s = .next s)
      ∧ (x.wants = true → x.exhausted = false →
        (x.step = 0 → ∃ t, exec (.balloonPass v) s = .next t ∧ (t.vault v.val).step = 1 ∧ t.frames = s.frames)
        ∧ (∀ f, x.step = 1 → donation s v.val = some f →
          ∃ t, exec (.balloonPass v) s = .next t ∧ frP (t.frame f) = false ∧ f ∈ (t.vault v.val).taken ∧ t.mem = s.mem)
        ∧ (x.step = 1 → donation s v.val = none → ∃ t, exec (.balloonPass v) s = .next t ∧ (t.vault v.val).step = 2 ∧ t.frames = s.frames)
        ∧ (x.step = 2 → x.demotionTarget = true →
          ∃ t, exec (.balloonPass v) s = .next t ∧ (t.vault v.val).step = 3 ∧ t.frames = s.frames ∧ t.mem = s.mem)
        ∧ (∀ f, x.step = 3 → x.demotionTarget = true → demotionVictim s v.val = some f → frVault (s.frame f) = v.val →
          ∃ t, exec (.balloonPass v) s = .next t ∧ frD (t.frame f) = true ∧ f ∈ (t.vault v.val).demoted ∧ t.mem = s.mem)
        ∧ (x.step = 3 → demotionVictim s v.val = none → exec (.balloonPass v) s = .next (passEnds v.val s))))
    ∧ (∀ p f r, s.request = .ratio p f 1 r → 16 ≤ r → r ≤ 64 → ownsLc s p.val f 1 = true →
      (let v := s.vault (frVault (s.frame f)); let w := { v with ratio := tset v.ratio f r };
        w.quotas ≤ w.vcap - w.target →
        ∃ t, exec .ratio s = .next t ∧ (t.vault (frVault (s.frame f))).ratio = tset v.ratio f r))
    ∧ (∀ p f, s.request = .donate p f 1 → ownsLc s p.val f 1 = true →
      ∃ t, exec .donate s = .next t ∧ f ∈ (t.vault (frVault (s.frame f))).donated ∧ t.frames = s.frames)
    ∧ (∀ p f, s.request = .withdraw p f 1 → ownsAll s p.val f 1 = true →
      ∃ t, exec .withdraw s = .next t ∧ f ∉ (t.vault (frVault (s.frame f))).donated ∧ t.frames = s.frames)
    ∧ (∀ p f, s.request = .demote p f 1 → ownsLc s p.val f 1 = true → frD (s.frame f) = false → pinned s f = false →
      (s.vault (frVault (s.frame f))).demotionTarget = true →
      ∃ t, exec .demote s = .next t ∧ frD (t.frame f) = true ∧ frP (t.frame f) = true ∧ f ∈ (t.vault (frVault (s.frame f))).demoted ∧ t.mem = s.mem)
    ∧ (∀ p f n, s.request = .zeroFrames p f n → ownsLc s p.val f n = true → ∃ t, exec .zeroFrames s = .next t
      ∧ ∀ a, t.byteAt a = if f ≤ a / 65536 ∧ a / 65536 < f + n then 0 else s.byteAt a)
    ∧ (∀ p f, s.request = .splitPage p f → ownsAll s p.val f 1 = true → frSize (s.frame f) ≠ 3 → ∃ t, exec .splitPage s = .next t ∧ frSize (t.frame f) = 0
      ∧ t.mem = s.mem)
    ∧ (∀ p f size, s.request = .promote p f size → buildable s p.val f size.val = true → (f, size.val) ∉ (s.vault (frVault (s.frame f))).building →
      exec .promote s = .next (s.modVault (frVault (s.frame f)) fun v => { v with building := v.building ++ [(f, size.val)] }))
    ∧ (∀ v f size l, s.request = .promotionBuildComplete v → (s.vault v.val).building = (f, size) :: l →
      let base := builtBase (s.vault v.val) (frTier (s.frame f)) (Config.promoteBase s.tick) (pageFrames size)
      (∀ p u, (s.grant f).owner = some p → buildable s p f size = true → frVault (s.frame f) = v.val →
        (∀ x, f ≤ x → x < f + pageFrames size → pinned s x = false) → buildPage v.val f size base s = some u →
        exec .promotionBuildComplete s = .next u.bump ∧ (u.vault v.val).building = l ∧ u.mem = s.mem
          ∧ (∀ x, f ≤ x → x < f + pageFrames size → frSize (u.frame x) = size)
          ∧ ∀ x, x < f ∨ f + pageFrames size ≤ x → u.frame x = s.frame x)
      ∧ ((∀ p, (s.grant f).owner = some p → buildable s p f size = false) →
        exec .promotionBuildComplete s = .next (s.modVault v.val fun x => { x with building := l })))
    ∧ (∀ v on, s.request = .demotionTargetSet v on → s.regs.mini = false → exec .demotionTargetSet s = .next (s.modVault v.val fun x => { x with demotionTarget := on }))
    ∧ ∀ p on, s.request = .vaultViewSet p on → exec .vaultViewSet s = .next (s.modPart p.val fun x => { x with vaultView := on })

/-! ## The management controller -/

/-- The management controller: grants made whole, with the entry of an uncompressed frame in the HBM4E tier; revocation and class changes of
frames no table maps; partitions created over empty clusters, measured, and reset whole; a drained cluster moves to a spare in two steps,
TOPOSEQ odd between them, or is lost to its partition, which is told; verified images measured into their version word; a frozen context
inspected where its partition reaches the buffer (R21, R35, R247, R389 to R391, R395 to R400, R402, R424, R438, R447). Grants and partitions
change in an authenticated session only (R456). It carries out resets, boot, errors and the SPDM requests, each by its own rule (R401, R403,
R404, R440, R458). The model's own: a substitution is two moves, with the cluster drained at each, and block 7 is extended at every change
of a partition (log 45), what the report of a lost cluster holds (log 60), and CHALLENGE authenticates the session (log 73). -/
def Obligations.ManagementEvents : Prop :=
  ∀ (s : State),
    (∀ r m, s.request = .frameGrant r → grantOk s r = true → r.count = 1 → r.mloc = some m → r.compressed = false → r.zero = false → m % 64 = 0 →
      mlocInService s m = true → retiredIn s m = false → m / 2 ^ 28 % 2 = 0 → (∀ x ∈ s.frames, frP x.2 = true → frC x.2 = false → (x.2.extractLsb' 9 33).toNat ≠ m) →
      ∃ t, exec .frameGrant s = .next t ∧ t.grant r.frame = GrantOf r
        ∧ t.frame r.frame = grantEntry r m ∧ t.mem = s.mem ∧ ∀ f, f ≠ r.frame → t.frame f = s.frame f ∧ t.grant f = s.grant f)
    ∧ (s.regs.spdmSession = false → (∀ r, s.request = .frameGrant r → exec .frameGrant s = .next s)
      ∧ (∀ f n, s.request = .grantRevoke f n → exec .grantRevoke s = .next s)
      ∧ ∀ p cls vfs harts pool, s.request = .partitionCreate p cls vfs harts pool → exec .partitionCreate s = .next s)
    ∧ (∀ f, s.request = .grantRevoke f 1 → s.regs.spdmSession = true → mapped s f = false → pinned s f = false → (s.frames.map (·.1)).Nodup → (s.grants.map (·.1)).Nodup →
      ∃ t, exec .grantRevoke s = .next t ∧ t.frame f = 0 ∧ (t.grant f).owner = none ∧ t.mem = s.mem)
    ∧ (∀ p f c o, s.request = .classChange p f 1 c o → ownsAll s p.val f 1 = true → mapped s f = false → pinned s f = false →
      ∃ t, exec .classChange s = .next t ∧ frCoh (t.frame f) = c.val ∧ frOwner (t.frame f) = o.val ∧ frP (t.frame f) = frP (s.frame f))
    ∧ (∀ p cls vfs harts pool, s.request = .partitionCreate p cls vfs harts pool → s.regs.mini = false → s.regs.spdmSession = true →
      (∀ c ∈ cls, c < 512 ∧ ((s.cluster c).part = none ∧ clusterEmpty s c = true ∧ s.regs.swapping ≠ some c ∨ (s.cluster c).part = some p.val)) →
      (∀ c ∈ s.clusters, c.2.part = some p.val → c.1 ∈ cls) → (∀ v ∈ vfs, v < 1024 ∧ ((s.vf v).part = none ∨ (s.vf v).part = some p.val)) →
      (∀ h ∈ harts, h < 32 ∧ ((s.hart h).part = none ∨ (s.hart h).part = some p.val)) →
      ∃ t, exec .partitionCreate s = .next t ∧ (t.part p.val).present = true ∧ (t.part p.val).pool = pool ∧ (∀ c ∈ cls, (t.cluster c).part = some p.val)
        ∧ (∀ v ∈ vfs, (t.vf v).part = some p.val) ∧ (∀ h ∈ harts, (t.hart h).part = some p.val)
        ∧ ((s.part p.val).present = false → (t.part p.val).vaultView = false)
        ∧ tget 0 t.regs.measure 7 = sha384Extend (tget 0 s.regs.measure 7) (Config.configDigest (partConfig t p.val)))
    ∧ (∀ p, s.request = .partitionReset p → ∃ t, exec .partitionReset s = .next t
      ∧ (∀ c ∈ t.ctxs, c.2.part = p.val → c.2.run = .idle) ∧ (∀ x ∈ t.saves, x.2.ctx.part ≠ p.val)
      ∧ ∀ h x, tfind t.harts h = some x → x.part = some p.val → x.frozen = none)
    ∧ (∀ p ms, s.request = .watchdogIntervalSet p ms → 1 ≤ ms → ms ≤ 60000 →
      exec .watchdogIntervalSet s = .next (s.modPart p.val fun x => { x with wdint := ms }))
    ∧ (∀ cl, s.request = .clusterDrain cl → s.regs.mini = false →
      exec .clusterDrain s = .next (s.modCluster cl.val fun c => { c with closed := true }))
    ∧ (∀ cl, s.request = .spareSubstitution cl →
      (s.regs.swapping = none → s.regs.mini = false → (s.cluster cl.val).closed = true → clusterEmpty s cl.val = true →
        exec .spareSubstitution s = .next { s with regs := { s.regs with toposeq := s.regs.toposeq + 1, swapping := some cl.val } })
      ∧ (s.regs.swapping = some cl.val → (s.cluster cl.val).closed = false ∨ clusterEmpty s cl.val = false → exec .spareSubstitution s = .next s)
      ∧ (∀ i, s.regs.swapping = some cl.val → (s.cluster cl.val).closed = true → clusterEmpty s cl.val = true → spareOf (s.clmapOf (cl.val / 8)) = some i → ∃ t, exec .spareSubstitution s = .next t
        ∧ physOf (t.clmapOf (cl.val / 8)) (cl.val % 8) = i ∧ (t.cluster cl.val).closed = false
        ∧ t.regs.toposeq = s.regs.toposeq + 1 ∧ t.regs.swapping = none)
      ∧ (∀ p, s.regs.swapping = some cl.val → (s.cluster cl.val).closed = true → clusterEmpty s cl.val = true → spareOf (s.clmapOf (cl.val / 8)) = none → (s.cluster cl.val).part = some p →
        ∃ t, exec .spareSubstitution s = .next t ∧ physOf (t.clmapOf (cl.val / 8)) (cl.val % 8) = 15 ∧ (t.cluster cl.val).part = none
        ∧ (t.part p).reports.length = (s.part p).reports.length + 1 ∧ t.regs.toposeq = s.regs.toposeq + 1))
    ∧ (∀ k f, s.request = .firmwareUpdate k f → imageReason (kindIndex k) f = none → ∃ t, exec .firmwareUpdate s = .next t
      ∧ tget 0 t.regs.fwver (kindIndex k) = f.version
      ∧ tget 0 t.regs.measure (2 + kindIndex k) = sha384Extend (tget 0 s.regs.measure (2 + kindIndex k)) f.digest ∧ t.regs.updated = true)
    ∧ (∀ k f, s.request = .firmwareUpdate k f → imageReason (kindIndex k) f ≠ none → exec .firmwareUpdate s = .next s)
    ∧ (∀ v f, s.request = .vaultFirmwareReplace v f → s.regs.mini = false → imageReason 2 f = none → tget 0 s.regs.fwver 2 = f.version →
      exec .vaultFirmwareReplace s = .next (enginePause (s.modVault v.val fun x => { x with firmware := f.version })))
    ∧ (∀ d f, s.request = .mintMicrocodeReplace d f → s.regs.mini = false → imageReason 3 f = none → tget 0 s.regs.fwver 3 = f.version →
      (∀ m, (s.die d.val).mint = some m → m.busy = false) →
      exec .mintMicrocodeReplace s = .next (s.modDie d.val fun x => { x with microcode := f.version, mintClosed := false }))
    ∧ (∀ g pa, s.request = .inspection g pa → (s.ctx g.val).run.isFrozen = true → pa % 4096 = 0 →
      ownsAll s (s.ctx g.val).part (pa / 65536) ((pa + 65535) / 65536 + 1 - pa / 65536) = true → memWf s.mem = true →
      (∀ f ∈ framesAt pa 65536, cpReach s (s.ctx g.val).part true f = true ∧ frC (s.frame f) = false ∧ frD (s.frame f) = false) →
      (s.ctx g.val).snapshot.length ≤ 48 → (s.ctx g.val).flights.length ≤ 48 → ∃ t, exec .inspection s = .next t
        ∧ (∀ a, a < pa ∨ pa + 65536 ≤ a → t.byteAt a = s.byteAt a)
        ∧ ∀ n < 64, BitVec.ofNat 64 (leNat (readBytes t.mem (pa + 8 * n) 8)) = (s.ctx g.val).s (BitVec.ofNat 6 n))
    ∧ (∀ parts l, s.request = .moduleReset parts l → exec .moduleReset s = .next (bootModule parts l s))
    ∧ (s.regs.starting = true → exec .runtimeReady s = .next
        { s with regs := { s.regs with stage := 4, ready := true, starting := false, fails := 0, reason := 0 } }
      ∧ exec .bootTimeout s = .next (failStart 8 s))
    ∧ exec .thermalReset s = .next (failStart 9 (afterReset s))
    ∧ (∀ p tm ti, s.request = .throttleStep p tm ti → (tm < 115 → ∃ t, exec .throttleStep s = .next t ∧ t.regs.power = p ∧ t.regs.tmax = tm
        ∧ t.regs.tin = ti) ∧ (115 ≤ tm → exec .throttleStep s = .next (failStart 9 (afterReset s))))
    ∧ (∀ e, s.request = .softError e → s.regs.mini = false → exec .softError s = .next (softError e s))
    ∧ (∀ x, s.request = .patrolScrub x (some false) → s.regs.mini = false →
        exec .patrolScrub s = .next (memoryError (memStruct s (64 * x)) x s))
    ∧ exec .getVersion s = .next (spdmReply 0x04 0 0 0 0 { s with regs :=
        { s.regs with spdmVersion := 0x13, spdmNegotiated := false, spdmSession := false } })
    ∧ exec .getCapabilities s = .next (spdmReply 0x61 0 0 0 0 s) ∧ exec .getDigests s = .next (spdmReply 0x01 0 0 (certChain s) 0 s)
    ∧ exec .spdmUnsupportedRequest s = .next (spdmError 0x07 s)
    ∧ (∀ n, s.request = .getCertificate n → exec .getCertificate s = .next (spdmReply 0x02 n 0 (certChain s) 0 s))
    ∧ (∀ n, s.request = .challenge n → exec .challenge s = .next (spdmReply 0x03 0 n (sha384Extend (certChain s) (allMeasurements s)) (aliasKey s)
        { s with regs := { s.regs with spdmSession := s.regs.spdmSession || s.regs.spdmNegotiated } }))
    ∧ (s.request = .negotiateAlgorithms true true →
        exec .negotiateAlgorithms s = .next (spdmReply 0x63 0 0 0 0 { s with regs := { s.regs with spdmNegotiated := true } }))
    ∧ ∀ b n, s.request = .getMeasurements b n → 1 ≤ b → b ≤ 7 →
        exec .getMeasurements s = .next (spdmReply 0x60 b n (tget 0 s.regs.measure b) (aliasKey s) s)

/-! ## Boot, power, errors, SPDM -/

/-- Module reset, in which the identity block takes what training found: with an image refused, or none at all, it counts a failed start with
its reason; with every image good it stands at stage 3 with their versions; after three failed starts and no update it is minimal mode; the
ROM, which runs in each case, is measured into block 1 from zero bytes.
RUNTIME_READY makes a starting module ready and clears the count; a timeout is failed start 8 and a thermal reset, as one at 115 °C, failed
start 9, with every context idle. A throttle step below that moves the clock 100 MHz within 1,000 to 3,000. With the Vaults released a corrected error and an error in an
uncompressed sector leave one record each, the second one poison and no byte changed. Each SPDM request is answered by its code, changing
no memory and no context (R30, R401, R402, R403, R404, R440, R444, R458). The model's own: an empty list of stages is the failed self-test of
reason 7 (log 41), memory after a module reset is that of State.reset (log 52), and the SPDM codes (log 5). -/
def Obligations.BootAndErrorEvents : Prop :=
  ∀ (s : State),
    (∀ parts f l r, s.request = .moduleReset parts (f :: l) → s.regs.fails < 3 → imageReason 0 f = some r → ∃ t, exec .moduleReset s = .next t
      ∧ t.regs.fails = min 3 (s.regs.fails + 1) ∧ t.regs.reason = r ∧ t.regs.ready = false ∧ t.regs.starting = false ∧ t.mem = State.reset.mem
      ∧ tget 0 t.regs.measure 1 = sha384Extend 0 Config.romMeasurement)
    ∧ (∀ parts, s.request = .moduleReset parts [] → s.regs.fails < 3 → ∃ t, exec .moduleReset s = .next t
      ∧ t.regs.fails = min 3 (s.regs.fails + 1) ∧ t.regs.reason = 7 ∧ t.regs.starting = false)
    ∧ (∀ parts l, s.request = .moduleReset parts l → s.regs.fails < 3 → l.length = 5 → (∀ i < 5, ∃ f, l[i]? = some f ∧ imageReason i f = none) → ∃ t,
      exec .moduleReset s = .next t ∧ t.regs.starting = true ∧ t.regs.stage = 3 ∧ t.regs.ready = false
      ∧ tget 0 t.regs.measure 1 = sha384Extend 0 Config.romMeasurement ∧ t.regs.florinok = parts.florinok ∧ t.regs.memhbm = parts.memhbm ∧ t.regs.memlp = parts.memlp
      ∧ ∀ i f, i < 5 → l[i]? = some f → tget 0 t.regs.fwver i = f.version)
    ∧ (∀ parts l, s.request = .moduleReset parts l → s.regs.fails = 3 → s.regs.updated = false → ∃ t, exec .moduleReset s = .next t ∧ t.regs.mini = true
      ∧ t.regs.starting = false ∧ tget 0 t.regs.measure 1 = sha384Extend 0 Config.romMeasurement)
    ∧ (s.regs.starting = true → exec .runtimeReady s = .next
      { s with regs := { s.regs with stage := 4, ready := true, starting := false, fails := 0, reason := 0 } })
    ∧ (s.regs.starting = true → ∃ t, exec .bootTimeout s = .next t ∧ t.regs.fails = min 3 (s.regs.fails + 1) ∧ t.regs.reason = 8)
    ∧ (∃ t, exec .thermalReset s = .next t ∧ t.regs.fails = min 3 (s.regs.fails + 1) ∧ t.regs.reason = 9 ∧ t.regs.ready = false ∧ ∀ g, (t.ctx g).run = .idle)
    ∧ (∀ p tm ti, s.request = .throttleStep p tm ti → 115 ≤ tm → ∃ t, exec .throttleStep s = .next t
      ∧ t.regs.fails = min 3 (s.regs.fails + 1) ∧ t.regs.reason = 9 ∧ t.regs.ready = false ∧ ∀ g, (t.ctx g).run = .idle)
    ∧ (∀ p tm ti, s.request = .throttleStep p tm ti → tm < 115 → ∃ t, exec .throttleStep s = .next t ∧ t.regs.power = p ∧ t.regs.tmax = tm ∧ t.regs.tin = ti
      ∧ t.regs.clock = (if s.regs.allow < p ∨ 105 ≤ tm then max 1000 (s.regs.clock - 100) else min 3000 (s.regs.clock + 100))
      ∧ (t.regs.throttled = true ↔ t.regs.clock < 3000))
    ∧ (∀ st pl a part, s.request = .softError (.corrected st pl a part) → s.regs.mini = false → ∃ t, exec .softError s = .next t
      ∧ t.errors.length = s.errors.length + 1 ∧ t.poison = s.poison ∧ t.ctxs = s.ctxs)
    ∧ (∀ st x, s.request = .softError (.poisonDp st x) → s.regs.mini = false → s.lineHome (x / 8) = none → ∃ t, exec .softError s = .next t
      ∧ t.errors.length = s.errors.length + 1 ∧ x ∈ t.poison ∧ t.mem = s.mem)
    ∧ (∀ x, s.request = .patrolScrub x (some true) → s.regs.mini = false →
      ∃ t, exec .patrolScrub s = .next t ∧ t.errors.length = s.errors.length + 1 ∧ t.poison = s.poison)
    ∧ (∀ x, s.request = .patrolScrub x none → exec .patrolScrub s = .next s)
    ∧ (let answers (i : Instr) (code : BitVec 8) : Prop := ∃ t v, exec i s = .next t ∧ t.answer = .spdm code v ∧ t.mem = s.mem ∧ t.ctxs = s.ctxs;
      answers .getVersion 0x04 ∧ answers .getCapabilities 0x61 ∧ answers .getDigests 0x01 ∧ answers .spdmUnsupportedRequest 0x7F
      ∧ (∀ n, s.request = .getCertificate n → answers .getCertificate 0x02) ∧ (∀ n, s.request = .challenge n → answers .challenge 0x03)
      ∧ (s.request = .negotiateAlgorithms true true → answers .negotiateAlgorithms 0x63)
      ∧ (∀ b n, s.request = .getMeasurements b n → 1 ≤ b → b ≤ 7 → exec .getMeasurements s = .next
          { s with answer := .spdm 0x60 (Config.spdmAnswer 0x60 b n (tget 0 s.regs.measure b) (aliasKey s)) })
      ∧ ∀ a b, s.request = .negotiateAlgorithms a b → (a && b) = false → answers .negotiateAlgorithms 0x7F)

/-! ## Frames and invariants -/

/-- THE FRAME OF THE REGISTER FORMS, every C and V operation that touches registers only: whatever it does, memory and engines stay, registers of
every context but its destination stay (those with a result in flight aside), special registers and candidates stay, and the trap registers
stay unless the operation trapped (R9, R10, R50). The FP32 lane forms, dequantising, quantising and the generator have no check of their own
(R149, R164 to R166): each that issues commits and the next bundle follows. -/
def Obligations.RegisterFormsFrame : Prop :=
  (∀ (q : BitVec 1) (g : BitVec 3) (d a b c : BitVec 5) (n : BitVec 1) (m6 : BitVec 6) (k : BitVec 2),
    ∀ i ∈ [Instr.vfadd q g d a b, .vfsub q g d a b, .vfmul q g d a b, .vfma q g d a b c n, .vfmin q g d a b m6, .vfmax q g d a b m6, .vfrcp q g d a,
        .vfrsq q g d a, .vfexp2 q g d a, .vflog2 q g d a, .vcvt q g d a m6, .vfclass q g d a (n.setWidth 6), .vqdeq q g d a b k, .vqnt q g d a b k,
        .vrng q g d a b (n.setWidth 6)],
      ∀ s, Issues i s → ∃ x, issueAlone i s = .ok x ∧ exec i s = .next (done i x s) ∧ ((done i x s).ctx s.cur).pc = (s.ctx s.cur).pc + 16
        ∧ ((done i x s).ctx s.cur).bundles = (s.ctx s.cur).bundles + 1)
  ∧ ∀ (i : Instr) (s t : State), registerForm i = true → exec i s = .next t →
    SameMemory s t ∧ SameEngines s t ∧ SameSpecial (s.ctx s.cur) (t.ctx s.cur) ∧ KeepsRegs (s.ctx s.cur) (t.ctx s.cur) (destOf i)
    ∧ (∀ h, h ≠ s.cur → SameSpecial (s.ctx h) (t.ctx h) ∧ ∀ n, (t.ctx h).reg n = (s.ctx h).reg n)
    ∧ (SameTrap (s.ctx s.cur) (t.ctx s.cur) ∨ ∃ cause info mask, t = takeTrap s.cur cause info mask s)

/-- THE FRAME OF LOADS AND TILE WRITERS that do not stall: no byte of memory changes, no tile slot of any core but those the operation writes, no
accumulator, and no register of any context but the destination (R74, R101, R283, R290). -/
def Obligations.LoadsAndTileWritersFrame : Prop :=
  ∀ (q : BitVec 1) (g : BitVec 3) (d b : BitVec 6) (c : BitVec 4) (f : BitVec 5) (v : BitVec 5) (f6 : BitVec 6) (x y z : BitVec 5) (h : BitVec 1)
    (a : BitVec 3) (k : BitVec 2),
    ∀ p ∈ ([(.ldd q g d b c f, [], [.s d.toNat]), (.ldw q g d b c f, [], [.s d.toNat]), (.ldwu q g d b c f, [], [.s d.toNat]),
        (.ldh q g d b c f, [], [.s d.toNat]), (.ldhu q g d b c f, [], [.s d.toNat]), (.ldb q g d b c f, [], [.s d.toNat]),
        (.ldbu q g d b c f, [], [.s d.toNat]), (.lddp q g d b c f, [], [.s d.toNat, .s b.toNat]), (.vld q g v b c f6, [], [.v v.toNat]),
        (.vldp q g v b c f6, [], [.v v.toNat, .s b.toNat]), (.tld g x b c, [x], []), (.tgath g x b c y h, [x], []), (.tzero g x f6, [x], []),
        (.tcopy g x y, [x], []), (.tv2t g x y z, [x], []), (.tt2v g v y z, [], [.v v.toNat]), (.mdrain g a x y z, [x], []), (.mspill g a x h, [x], []),
        (.mprd g x, [x], []), (.mprdTab g x, [x], []), (.ixwalk g x y z, [x, z], []), (.ixsplit g x y f6, [x], []), (.asort g x y z f6, [x], []),
        (.cread g k x d, [x], [.s d.toNat]), (.csamp g k d, [], [.s d.toNat]), (.clpull g x, [x], [])]
      : List (Instr × List (BitVec 5) × List Name)),
    ∀ (s t : State) (w : Commit), issueAlone p.1 s = .ok w → exec p.1 s = .next t →
      (∀ m, t.byteAt m = s.byteAt m) ∧ t.poison = s.poison
      ∧ (∀ core slot, (core = coreOf s.cur → ∀ o ∈ p.2.1, slot ≠ (s.ctx s.cur).tileBase + o.toNat) → t.tile core slot = s.tile core slot)
      ∧ (∀ n, (t.array n).acc = (s.array n).acc) ∧ KeepsRegs (s.ctx s.cur) (t.ctx s.cur) p.2.2 ∧ ∀ h n, h ≠ s.cur → (t.ctx h).reg n = (s.ctx h).reg n

/-- AN INVARIANT THAT EVERY STEP KEEPS: device-physical memory stays in its one canonical form, addresses rising and no byte listed that reads
as zero, whichever instruction or event the step runs; so equal memories are equal data (log 1: zero for what nothing has written is the
model's choice). -/
def Obligations.StepKeepsMemoryCanonical : Prop :=
  ∀ (s t : State), memWf s.mem = true → step s = .next t → memWf t.mem = true

/-- Reset memory is in the canonical form: it lists nothing, so every byte reads as zero, which is the model's choice (log 1). -/
def Obligations.ResetMemoryCanonical : Prop := State.reset.mem = [] ∧ memWf State.reset.mem = true
end

