-- ==== Sys2Proof/Laws/Tables.lean ====
section
/-!
SUPPORT. The laws of tables: reading after writing, and that the order of keys is kept.
-/
set_option Elab.async false
namespace Sys2Proof.Machine

variable {α : Type}

@[simp] theorem tget_tset_same (d : α) (t : Tbl α) (k : Nat) (v : α) : tget d (tset t k v) k = v := by
  induction t with
  | nil => simp [tset, tget]
  | cons e t ih =>
    obtain ⟨j, x⟩ := e
    simp only [tset]
    split
    · simp [tget]
    · split
      · simp [tget]
      · next h => simpa [tget, Ne.symm h] using ih

theorem tget_tset_other (d : α) (t : Tbl α) {k : Nat} (v : α) {j : Nat} (h : j ≠ k) : tget d (tset t k v) j = tget d t j := by
  induction t with
  | nil => simp [tset, tget, Ne.symm h]
  | cons e t ih =>
    obtain ⟨i, x⟩ := e
    simp only [tset]
    split
    · simp [tget, Ne.symm h]
    · split
      · next h1 => simp [tget, Ne.symm h, h1 ▸ Ne.symm h]
      · simp only [tget]; split <;> simp [ih]

@[simp] theorem tfind_tset_same (t : Tbl α) (k : Nat) (v : α) : tfind (tset t k v) k = some v := by
  induction t with
  | nil => simp [tset, tfind]
  | cons e t ih =>
    obtain ⟨j, x⟩ := e
    simp only [tset]
    split
    · simp [tfind]
    · split
      · simp [tfind]
      · next h => simpa [tfind, Ne.symm h] using ih

theorem tfind_tset_other (t : Tbl α) {k : Nat} (v : α) {j : Nat} (h : j ≠ k) : tfind (tset t k v) j = tfind t j := by
  induction t with
  | nil => simp [tset, tfind, Ne.symm h]
  | cons e t ih =>
    obtain ⟨i, x⟩ := e
    simp only [tset]
    split
    · simp [tfind, Ne.symm h]
    · split
      · next h1 => simp [tfind, Ne.symm h, h1 ▸ Ne.symm h]
      · simp only [tfind]; split <;> simp [ih]

/-- A read is the entry found, or the default. -/
theorem tget_eq_tfind (d : α) (t : Tbl α) (k : Nat) : tget d t k = (tfind t k).getD d := by
  induction t with
  | nil => rfl
  | cons e t ih => obtain ⟨j, x⟩ := e; simp only [tget, tfind]; split <;> simp [ih]

/-- Keys rise from `lo`: the one order of a table. -/
def tblWfFrom (lo : Nat) : Tbl α → Prop
  | [] => True
  | (k, _) :: t => lo ≤ k ∧ tblWfFrom (k + 1) t

theorem tblWfFrom_mono {t : Tbl α} {lo hi : Nat} (h : tblWfFrom hi t) (hl : lo ≤ hi) : tblWfFrom lo t := by
  cases t with
  | nil => trivial
  | cons e t => exact ⟨Nat.le_trans hl h.1, h.2⟩

/-- An entry set keeps the order. -/
theorem tblWfFrom_tset {t : Tbl α} {lo k : Nat} (v : α) (h : tblWfFrom lo t) (hk : lo ≤ k) : tblWfFrom lo (tset t k v) := by
  induction t generalizing lo with
  | nil => exact ⟨hk, trivial⟩
  | cons e t ih =>
    obtain ⟨j, x⟩ := e
    simp only [tset]
    split
    · next hkj => exact ⟨hk, Nat.succ_le_of_lt hkj, h.2⟩
    · split
      · next hkj => exact ⟨hk, hkj ▸ h.2⟩
      · next h1 h2 => exact ⟨h.1, ih h.2 (by omega)⟩

end Sys2Proof.Machine
end

