-- ==== Sys2Proof/Laws/State.lean ====
section
/-!
SUPPORT. Every named update of the state, field by field: what it sets and what it leaves, and what its reader then gives.
-/
set_option Elab.async false
namespace Sys2Proof.Machine

variable (s : State)

/-! ## Fields an update leaves -/

@[simp] theorem State.setCtx_cur (g : Nat) (c : Ctx) : (s.setCtx g c).cur = s.cur := rfl
@[simp] theorem State.setCtx_cycles (g : Nat) (c : Ctx) : (s.setCtx g c).cycles = s.cycles := rfl
@[simp] theorem State.setCtx_agenda (g : Nat) (c : Ctx) : (s.setCtx g c).agenda = s.agenda := rfl
@[simp] theorem State.setCtx_request (g : Nat) (c : Ctx) : (s.setCtx g c).request = s.request := rfl
@[simp] theorem State.setCtx_answer (g : Nat) (c : Ctx) : (s.setCtx g c).answer = s.answer := rfl
@[simp] theorem State.setCtx_tick (g : Nat) (c : Ctx) : (s.setCtx g c).tick = s.tick := rfl
@[simp] theorem State.setCtx_cores (g : Nat) (c : Ctx) : (s.setCtx g c).cores = s.cores := rfl
@[simp] theorem State.setCtx_arrays (g : Nat) (c : Ctx) : (s.setCtx g c).arrays = s.arrays := rfl
@[simp] theorem State.setCtx_clusters (g : Nat) (c : Ctx) : (s.setCtx g c).clusters = s.clusters := rfl
@[simp] theorem State.setCtx_dies (g : Nat) (c : Ctx) : (s.setCtx g c).dies = s.dies := rfl
@[simp] theorem State.setCtx_groups (g : Nat) (c : Ctx) : (s.setCtx g c).groups = s.groups := rfl
@[simp] theorem State.setCtx_saves (g : Nat) (c : Ctx) : (s.setCtx g c).saves = s.saves := rfl
@[simp] theorem State.setCtx_launches (g : Nat) (c : Ctx) : (s.setCtx g c).launches = s.launches := rfl
@[simp] theorem State.setCtx_nextLaunch (g : Nat) (c : Ctx) : (s.setCtx g c).nextLaunch = s.nextLaunch := rfl
@[simp] theorem State.setCtx_nextGroup (g : Nat) (c : Ctx) : (s.setCtx g c).nextGroup = s.nextGroup := rfl
@[simp] theorem State.setCtx_kobjs (g : Nat) (c : Ctx) : (s.setCtx g c).kobjs = s.kobjs := rfl
@[simp] theorem State.setCtx_mem (g : Nat) (c : Ctx) : (s.setCtx g c).mem = s.mem := rfl
@[simp] theorem State.setCtx_poison (g : Nat) (c : Ctx) : (s.setCtx g c).poison = s.poison := rfl
@[simp] theorem State.setCtx_frames (g : Nat) (c : Ctx) : (s.setCtx g c).frames = s.frames := rfl
@[simp] theorem State.setCtx_grants (g : Nat) (c : Ctx) : (s.setCtx g c).grants = s.grants := rfl
@[simp] theorem State.setCtx_vaults (g : Nat) (c : Ctx) : (s.setCtx g c).vaults = s.vaults := rfl
@[simp] theorem State.setCtx_parts (g : Nat) (c : Ctx) : (s.setCtx g c).parts = s.parts := rfl
@[simp] theorem State.setCtx_vfs (g : Nat) (c : Ctx) : (s.setCtx g c).vfs = s.vfs := rfl
@[simp] theorem State.setCtx_queues (g : Nat) (c : Ctx) : (s.setCtx g c).queues = s.queues := rfl
@[simp] theorem State.setCtx_tails (g : Nat) (c : Ctx) : (s.setCtx g c).tails = s.tails := rfl
@[simp] theorem State.setCtx_bufHandles (g : Nat) (c : Ctx) : (s.setCtx g c).bufHandles = s.bufHandles := rfl
@[simp] theorem State.setCtx_comms (g : Nat) (c : Ctx) : (s.setCtx g c).comms = s.comms := rfl
@[simp] theorem State.setCtx_collectives (g : Nat) (c : Ctx) : (s.setCtx g c).collectives = s.collectives := rfl
@[simp] theorem State.setCtx_mailboxes (g : Nat) (c : Ctx) : (s.setCtx g c).mailboxes = s.mailboxes := rfl
@[simp] theorem State.setCtx_harts (g : Nat) (c : Ctx) : (s.setCtx g c).harts = s.harts := rfl
@[simp] theorem State.setCtx_refusedNodes (g : Nat) (c : Ctx) : (s.setCtx g c).refusedNodes = s.refusedNodes := rfl
@[simp] theorem State.setCtx_ports (g : Nat) (c : Ctx) : (s.setCtx g c).ports = s.ports := rfl
@[simp] theorem State.setCtx_errors (g : Nat) (c : Ctx) : (s.setCtx g c).errors = s.errors := rfl
@[simp] theorem State.setCtx_violations (g : Nat) (c : Ctx) : (s.setCtx g c).violations = s.violations := rfl
@[simp] theorem State.setCtx_rowErrors (g : Nat) (c : Ctx) : (s.setCtx g c).rowErrors = s.rowErrors := rfl
@[simp] theorem State.setCtx_sramErrors (g : Nat) (c : Ctx) : (s.setCtx g c).sramErrors = s.sramErrors := rfl
@[simp] theorem State.setCtx_retireDue (g : Nat) (c : Ctx) : (s.setCtx g c).retireDue = s.retireDue := rfl
@[simp] theorem State.setCtx_retired (g : Nat) (c : Ctx) : (s.setCtx g c).retired = s.retired := rfl
@[simp] theorem State.setCtx_unowned (g : Nat) (c : Ctx) : (s.setCtx g c).unowned = s.unowned := rfl
@[simp] theorem State.setCtx_regs (g : Nat) (c : Ctx) : (s.setCtx g c).regs = s.regs := rfl

@[simp] theorem State.modCtx_cur (g : Nat) (f : Ctx → Ctx) : (s.modCtx g f).cur = s.cur := rfl
@[simp] theorem State.modCtx_cycles (g : Nat) (f : Ctx → Ctx) : (s.modCtx g f).cycles = s.cycles := rfl
@[simp] theorem State.modCtx_agenda (g : Nat) (f : Ctx → Ctx) : (s.modCtx g f).agenda = s.agenda := rfl
@[simp] theorem State.modCtx_request (g : Nat) (f : Ctx → Ctx) : (s.modCtx g f).request = s.request := rfl
@[simp] theorem State.modCtx_answer (g : Nat) (f : Ctx → Ctx) : (s.modCtx g f).answer = s.answer := rfl
@[simp] theorem State.modCtx_tick (g : Nat) (f : Ctx → Ctx) : (s.modCtx g f).tick = s.tick := rfl
@[simp] theorem State.modCtx_cores (g : Nat) (f : Ctx → Ctx) : (s.modCtx g f).cores = s.cores := rfl
@[simp] theorem State.modCtx_arrays (g : Nat) (f : Ctx → Ctx) : (s.modCtx g f).arrays = s.arrays := rfl
@[simp] theorem State.modCtx_clusters (g : Nat) (f : Ctx → Ctx) : (s.modCtx g f).clusters = s.clusters := rfl
@[simp] theorem State.modCtx_dies (g : Nat) (f : Ctx → Ctx) : (s.modCtx g f).dies = s.dies := rfl
@[simp] theorem State.modCtx_groups (g : Nat) (f : Ctx → Ctx) : (s.modCtx g f).groups = s.groups := rfl
@[simp] theorem State.modCtx_saves (g : Nat) (f : Ctx → Ctx) : (s.modCtx g f).saves = s.saves := rfl
@[simp] theorem State.modCtx_launches (g : Nat) (f : Ctx → Ctx) : (s.modCtx g f).launches = s.launches := rfl
@[simp] theorem State.modCtx_nextLaunch (g : Nat) (f : Ctx → Ctx) : (s.modCtx g f).nextLaunch = s.nextLaunch := rfl
@[simp] theorem State.modCtx_nextGroup (g : Nat) (f : Ctx → Ctx) : (s.modCtx g f).nextGroup = s.nextGroup := rfl
@[simp] theorem State.modCtx_kobjs (g : Nat) (f : Ctx → Ctx) : (s.modCtx g f).kobjs = s.kobjs := rfl
@[simp] theorem State.modCtx_mem (g : Nat) (f : Ctx → Ctx) : (s.modCtx g f).mem = s.mem := rfl
@[simp] theorem State.modCtx_poison (g : Nat) (f : Ctx → Ctx) : (s.modCtx g f).poison = s.poison := rfl
@[simp] theorem State.modCtx_frames (g : Nat) (f : Ctx → Ctx) : (s.modCtx g f).frames = s.frames := rfl
@[simp] theorem State.modCtx_grants (g : Nat) (f : Ctx → Ctx) : (s.modCtx g f).grants = s.grants := rfl
@[simp] theorem State.modCtx_vaults (g : Nat) (f : Ctx → Ctx) : (s.modCtx g f).vaults = s.vaults := rfl
@[simp] theorem State.modCtx_parts (g : Nat) (f : Ctx → Ctx) : (s.modCtx g f).parts = s.parts := rfl
@[simp] theorem State.modCtx_vfs (g : Nat) (f : Ctx → Ctx) : (s.modCtx g f).vfs = s.vfs := rfl
@[simp] theorem State.modCtx_queues (g : Nat) (f : Ctx → Ctx) : (s.modCtx g f).queues = s.queues := rfl
@[simp] theorem State.modCtx_tails (g : Nat) (f : Ctx → Ctx) : (s.modCtx g f).tails = s.tails := rfl
@[simp] theorem State.modCtx_bufHandles (g : Nat) (f : Ctx → Ctx) : (s.modCtx g f).bufHandles = s.bufHandles := rfl
@[simp] theorem State.modCtx_comms (g : Nat) (f : Ctx → Ctx) : (s.modCtx g f).comms = s.comms := rfl
@[simp] theorem State.modCtx_collectives (g : Nat) (f : Ctx → Ctx) : (s.modCtx g f).collectives = s.collectives := rfl
@[simp] theorem State.modCtx_mailboxes (g : Nat) (f : Ctx → Ctx) : (s.modCtx g f).mailboxes = s.mailboxes := rfl
@[simp] theorem State.modCtx_harts (g : Nat) (f : Ctx → Ctx) : (s.modCtx g f).harts = s.harts := rfl
@[simp] theorem State.modCtx_refusedNodes (g : Nat) (f : Ctx → Ctx) : (s.modCtx g f).refusedNodes = s.refusedNodes := rfl
@[simp] theorem State.modCtx_ports (g : Nat) (f : Ctx → Ctx) : (s.modCtx g f).ports = s.ports := rfl
@[simp] theorem State.modCtx_errors (g : Nat) (f : Ctx → Ctx) : (s.modCtx g f).errors = s.errors := rfl
@[simp] theorem State.modCtx_violations (g : Nat) (f : Ctx → Ctx) : (s.modCtx g f).violations = s.violations := rfl
@[simp] theorem State.modCtx_rowErrors (g : Nat) (f : Ctx → Ctx) : (s.modCtx g f).rowErrors = s.rowErrors := rfl
@[simp] theorem State.modCtx_sramErrors (g : Nat) (f : Ctx → Ctx) : (s.modCtx g f).sramErrors = s.sramErrors := rfl
@[simp] theorem State.modCtx_retireDue (g : Nat) (f : Ctx → Ctx) : (s.modCtx g f).retireDue = s.retireDue := rfl
@[simp] theorem State.modCtx_retired (g : Nat) (f : Ctx → Ctx) : (s.modCtx g f).retired = s.retired := rfl
@[simp] theorem State.modCtx_unowned (g : Nat) (f : Ctx → Ctx) : (s.modCtx g f).unowned = s.unowned := rfl
@[simp] theorem State.modCtx_regs (g : Nat) (f : Ctx → Ctx) : (s.modCtx g f).regs = s.regs := rfl

@[simp] theorem State.setCore_cur (k : Nat) (c : Core) : (s.setCore k c).cur = s.cur := rfl
@[simp] theorem State.setCore_cycles (k : Nat) (c : Core) : (s.setCore k c).cycles = s.cycles := rfl
@[simp] theorem State.setCore_agenda (k : Nat) (c : Core) : (s.setCore k c).agenda = s.agenda := rfl
@[simp] theorem State.setCore_request (k : Nat) (c : Core) : (s.setCore k c).request = s.request := rfl
@[simp] theorem State.setCore_answer (k : Nat) (c : Core) : (s.setCore k c).answer = s.answer := rfl
@[simp] theorem State.setCore_tick (k : Nat) (c : Core) : (s.setCore k c).tick = s.tick := rfl
@[simp] theorem State.setCore_ctxs (k : Nat) (c : Core) : (s.setCore k c).ctxs = s.ctxs := rfl
@[simp] theorem State.setCore_arrays (k : Nat) (c : Core) : (s.setCore k c).arrays = s.arrays := rfl
@[simp] theorem State.setCore_clusters (k : Nat) (c : Core) : (s.setCore k c).clusters = s.clusters := rfl
@[simp] theorem State.setCore_dies (k : Nat) (c : Core) : (s.setCore k c).dies = s.dies := rfl
@[simp] theorem State.setCore_groups (k : Nat) (c : Core) : (s.setCore k c).groups = s.groups := rfl
@[simp] theorem State.setCore_saves (k : Nat) (c : Core) : (s.setCore k c).saves = s.saves := rfl
@[simp] theorem State.setCore_launches (k : Nat) (c : Core) : (s.setCore k c).launches = s.launches := rfl
@[simp] theorem State.setCore_nextLaunch (k : Nat) (c : Core) : (s.setCore k c).nextLaunch = s.nextLaunch := rfl
@[simp] theorem State.setCore_nextGroup (k : Nat) (c : Core) : (s.setCore k c).nextGroup = s.nextGroup := rfl
@[simp] theorem State.setCore_kobjs (k : Nat) (c : Core) : (s.setCore k c).kobjs = s.kobjs := rfl
@[simp] theorem State.setCore_mem (k : Nat) (c : Core) : (s.setCore k c).mem = s.mem := rfl
@[simp] theorem State.setCore_poison (k : Nat) (c : Core) : (s.setCore k c).poison = s.poison := rfl
@[simp] theorem State.setCore_frames (k : Nat) (c : Core) : (s.setCore k c).frames = s.frames := rfl
@[simp] theorem State.setCore_grants (k : Nat) (c : Core) : (s.setCore k c).grants = s.grants := rfl
@[simp] theorem State.setCore_vaults (k : Nat) (c : Core) : (s.setCore k c).vaults = s.vaults := rfl
@[simp] theorem State.setCore_parts (k : Nat) (c : Core) : (s.setCore k c).parts = s.parts := rfl
@[simp] theorem State.setCore_vfs (k : Nat) (c : Core) : (s.setCore k c).vfs = s.vfs := rfl
@[simp] theorem State.setCore_queues (k : Nat) (c : Core) : (s.setCore k c).queues = s.queues := rfl
@[simp] theorem State.setCore_tails (k : Nat) (c : Core) : (s.setCore k c).tails = s.tails := rfl
@[simp] theorem State.setCore_bufHandles (k : Nat) (c : Core) : (s.setCore k c).bufHandles = s.bufHandles := rfl
@[simp] theorem State.setCore_comms (k : Nat) (c : Core) : (s.setCore k c).comms = s.comms := rfl
@[simp] theorem State.setCore_collectives (k : Nat) (c : Core) : (s.setCore k c).collectives = s.collectives := rfl
@[simp] theorem State.setCore_mailboxes (k : Nat) (c : Core) : (s.setCore k c).mailboxes = s.mailboxes := rfl
@[simp] theorem State.setCore_harts (k : Nat) (c : Core) : (s.setCore k c).harts = s.harts := rfl
@[simp] theorem State.setCore_refusedNodes (k : Nat) (c : Core) : (s.setCore k c).refusedNodes = s.refusedNodes := rfl
@[simp] theorem State.setCore_ports (k : Nat) (c : Core) : (s.setCore k c).ports = s.ports := rfl
@[simp] theorem State.setCore_errors (k : Nat) (c : Core) : (s.setCore k c).errors = s.errors := rfl
@[simp] theorem State.setCore_violations (k : Nat) (c : Core) : (s.setCore k c).violations = s.violations := rfl
@[simp] theorem State.setCore_rowErrors (k : Nat) (c : Core) : (s.setCore k c).rowErrors = s.rowErrors := rfl
@[simp] theorem State.setCore_sramErrors (k : Nat) (c : Core) : (s.setCore k c).sramErrors = s.sramErrors := rfl
@[simp] theorem State.setCore_retireDue (k : Nat) (c : Core) : (s.setCore k c).retireDue = s.retireDue := rfl
@[simp] theorem State.setCore_retired (k : Nat) (c : Core) : (s.setCore k c).retired = s.retired := rfl
@[simp] theorem State.setCore_unowned (k : Nat) (c : Core) : (s.setCore k c).unowned = s.unowned := rfl
@[simp] theorem State.setCore_regs (k : Nat) (c : Core) : (s.setCore k c).regs = s.regs := rfl

@[simp] theorem State.modCore_cur (k : Nat) (f : Core → Core) : (s.modCore k f).cur = s.cur := rfl
@[simp] theorem State.modCore_cycles (k : Nat) (f : Core → Core) : (s.modCore k f).cycles = s.cycles := rfl
@[simp] theorem State.modCore_agenda (k : Nat) (f : Core → Core) : (s.modCore k f).agenda = s.agenda := rfl
@[simp] theorem State.modCore_request (k : Nat) (f : Core → Core) : (s.modCore k f).request = s.request := rfl
@[simp] theorem State.modCore_answer (k : Nat) (f : Core → Core) : (s.modCore k f).answer = s.answer := rfl
@[simp] theorem State.modCore_tick (k : Nat) (f : Core → Core) : (s.modCore k f).tick = s.tick := rfl
@[simp] theorem State.modCore_ctxs (k : Nat) (f : Core → Core) : (s.modCore k f).ctxs = s.ctxs := rfl
@[simp] theorem State.modCore_arrays (k : Nat) (f : Core → Core) : (s.modCore k f).arrays = s.arrays := rfl
@[simp] theorem State.modCore_clusters (k : Nat) (f : Core → Core) : (s.modCore k f).clusters = s.clusters := rfl
@[simp] theorem State.modCore_dies (k : Nat) (f : Core → Core) : (s.modCore k f).dies = s.dies := rfl
@[simp] theorem State.modCore_groups (k : Nat) (f : Core → Core) : (s.modCore k f).groups = s.groups := rfl
@[simp] theorem State.modCore_saves (k : Nat) (f : Core → Core) : (s.modCore k f).saves = s.saves := rfl
@[simp] theorem State.modCore_launches (k : Nat) (f : Core → Core) : (s.modCore k f).launches = s.launches := rfl
@[simp] theorem State.modCore_nextLaunch (k : Nat) (f : Core → Core) : (s.modCore k f).nextLaunch = s.nextLaunch := rfl
@[simp] theorem State.modCore_nextGroup (k : Nat) (f : Core → Core) : (s.modCore k f).nextGroup = s.nextGroup := rfl
@[simp] theorem State.modCore_kobjs (k : Nat) (f : Core → Core) : (s.modCore k f).kobjs = s.kobjs := rfl
@[simp] theorem State.modCore_mem (k : Nat) (f : Core → Core) : (s.modCore k f).mem = s.mem := rfl
@[simp] theorem State.modCore_poison (k : Nat) (f : Core → Core) : (s.modCore k f).poison = s.poison := rfl
@[simp] theorem State.modCore_frames (k : Nat) (f : Core → Core) : (s.modCore k f).frames = s.frames := rfl
@[simp] theorem State.modCore_grants (k : Nat) (f : Core → Core) : (s.modCore k f).grants = s.grants := rfl
@[simp] theorem State.modCore_vaults (k : Nat) (f : Core → Core) : (s.modCore k f).vaults = s.vaults := rfl
@[simp] theorem State.modCore_parts (k : Nat) (f : Core → Core) : (s.modCore k f).parts = s.parts := rfl
@[simp] theorem State.modCore_vfs (k : Nat) (f : Core → Core) : (s.modCore k f).vfs = s.vfs := rfl
@[simp] theorem State.modCore_queues (k : Nat) (f : Core → Core) : (s.modCore k f).queues = s.queues := rfl
@[simp] theorem State.modCore_tails (k : Nat) (f : Core → Core) : (s.modCore k f).tails = s.tails := rfl
@[simp] theorem State.modCore_bufHandles (k : Nat) (f : Core → Core) : (s.modCore k f).bufHandles = s.bufHandles := rfl
@[simp] theorem State.modCore_comms (k : Nat) (f : Core → Core) : (s.modCore k f).comms = s.comms := rfl
@[simp] theorem State.modCore_collectives (k : Nat) (f : Core → Core) : (s.modCore k f).collectives = s.collectives := rfl
@[simp] theorem State.modCore_mailboxes (k : Nat) (f : Core → Core) : (s.modCore k f).mailboxes = s.mailboxes := rfl
@[simp] theorem State.modCore_harts (k : Nat) (f : Core → Core) : (s.modCore k f).harts = s.harts := rfl
@[simp] theorem State.modCore_refusedNodes (k : Nat) (f : Core → Core) : (s.modCore k f).refusedNodes = s.refusedNodes := rfl
@[simp] theorem State.modCore_ports (k : Nat) (f : Core → Core) : (s.modCore k f).ports = s.ports := rfl
@[simp] theorem State.modCore_errors (k : Nat) (f : Core → Core) : (s.modCore k f).errors = s.errors := rfl
@[simp] theorem State.modCore_violations (k : Nat) (f : Core → Core) : (s.modCore k f).violations = s.violations := rfl
@[simp] theorem State.modCore_rowErrors (k : Nat) (f : Core → Core) : (s.modCore k f).rowErrors = s.rowErrors := rfl
@[simp] theorem State.modCore_sramErrors (k : Nat) (f : Core → Core) : (s.modCore k f).sramErrors = s.sramErrors := rfl
@[simp] theorem State.modCore_retireDue (k : Nat) (f : Core → Core) : (s.modCore k f).retireDue = s.retireDue := rfl
@[simp] theorem State.modCore_retired (k : Nat) (f : Core → Core) : (s.modCore k f).retired = s.retired := rfl
@[simp] theorem State.modCore_unowned (k : Nat) (f : Core → Core) : (s.modCore k f).unowned = s.unowned := rfl
@[simp] theorem State.modCore_regs (k : Nat) (f : Core → Core) : (s.modCore k f).regs = s.regs := rfl

@[simp] theorem State.setArray_cur (k : Nat) (a : MArray) : (s.setArray k a).cur = s.cur := rfl
@[simp] theorem State.setArray_cycles (k : Nat) (a : MArray) : (s.setArray k a).cycles = s.cycles := rfl
@[simp] theorem State.setArray_agenda (k : Nat) (a : MArray) : (s.setArray k a).agenda = s.agenda := rfl
@[simp] theorem State.setArray_request (k : Nat) (a : MArray) : (s.setArray k a).request = s.request := rfl
@[simp] theorem State.setArray_answer (k : Nat) (a : MArray) : (s.setArray k a).answer = s.answer := rfl
@[simp] theorem State.setArray_tick (k : Nat) (a : MArray) : (s.setArray k a).tick = s.tick := rfl
@[simp] theorem State.setArray_ctxs (k : Nat) (a : MArray) : (s.setArray k a).ctxs = s.ctxs := rfl
@[simp] theorem State.setArray_cores (k : Nat) (a : MArray) : (s.setArray k a).cores = s.cores := rfl
@[simp] theorem State.setArray_clusters (k : Nat) (a : MArray) : (s.setArray k a).clusters = s.clusters := rfl
@[simp] theorem State.setArray_dies (k : Nat) (a : MArray) : (s.setArray k a).dies = s.dies := rfl
@[simp] theorem State.setArray_groups (k : Nat) (a : MArray) : (s.setArray k a).groups = s.groups := rfl
@[simp] theorem State.setArray_saves (k : Nat) (a : MArray) : (s.setArray k a).saves = s.saves := rfl
@[simp] theorem State.setArray_launches (k : Nat) (a : MArray) : (s.setArray k a).launches = s.launches := rfl
@[simp] theorem State.setArray_nextLaunch (k : Nat) (a : MArray) : (s.setArray k a).nextLaunch = s.nextLaunch := rfl
@[simp] theorem State.setArray_nextGroup (k : Nat) (a : MArray) : (s.setArray k a).nextGroup = s.nextGroup := rfl
@[simp] theorem State.setArray_kobjs (k : Nat) (a : MArray) : (s.setArray k a).kobjs = s.kobjs := rfl
@[simp] theorem State.setArray_mem (k : Nat) (a : MArray) : (s.setArray k a).mem = s.mem := rfl
@[simp] theorem State.setArray_poison (k : Nat) (a : MArray) : (s.setArray k a).poison = s.poison := rfl
@[simp] theorem State.setArray_frames (k : Nat) (a : MArray) : (s.setArray k a).frames = s.frames := rfl
@[simp] theorem State.setArray_grants (k : Nat) (a : MArray) : (s.setArray k a).grants = s.grants := rfl
@[simp] theorem State.setArray_vaults (k : Nat) (a : MArray) : (s.setArray k a).vaults = s.vaults := rfl
@[simp] theorem State.setArray_parts (k : Nat) (a : MArray) : (s.setArray k a).parts = s.parts := rfl
@[simp] theorem State.setArray_vfs (k : Nat) (a : MArray) : (s.setArray k a).vfs = s.vfs := rfl
@[simp] theorem State.setArray_queues (k : Nat) (a : MArray) : (s.setArray k a).queues = s.queues := rfl
@[simp] theorem State.setArray_tails (k : Nat) (a : MArray) : (s.setArray k a).tails = s.tails := rfl
@[simp] theorem State.setArray_bufHandles (k : Nat) (a : MArray) : (s.setArray k a).bufHandles = s.bufHandles := rfl
@[simp] theorem State.setArray_comms (k : Nat) (a : MArray) : (s.setArray k a).comms = s.comms := rfl
@[simp] theorem State.setArray_collectives (k : Nat) (a : MArray) : (s.setArray k a).collectives = s.collectives := rfl
@[simp] theorem State.setArray_mailboxes (k : Nat) (a : MArray) : (s.setArray k a).mailboxes = s.mailboxes := rfl
@[simp] theorem State.setArray_harts (k : Nat) (a : MArray) : (s.setArray k a).harts = s.harts := rfl
@[simp] theorem State.setArray_refusedNodes (k : Nat) (a : MArray) : (s.setArray k a).refusedNodes = s.refusedNodes := rfl
@[simp] theorem State.setArray_ports (k : Nat) (a : MArray) : (s.setArray k a).ports = s.ports := rfl
@[simp] theorem State.setArray_errors (k : Nat) (a : MArray) : (s.setArray k a).errors = s.errors := rfl
@[simp] theorem State.setArray_violations (k : Nat) (a : MArray) : (s.setArray k a).violations = s.violations := rfl
@[simp] theorem State.setArray_rowErrors (k : Nat) (a : MArray) : (s.setArray k a).rowErrors = s.rowErrors := rfl
@[simp] theorem State.setArray_sramErrors (k : Nat) (a : MArray) : (s.setArray k a).sramErrors = s.sramErrors := rfl
@[simp] theorem State.setArray_retireDue (k : Nat) (a : MArray) : (s.setArray k a).retireDue = s.retireDue := rfl
@[simp] theorem State.setArray_retired (k : Nat) (a : MArray) : (s.setArray k a).retired = s.retired := rfl
@[simp] theorem State.setArray_unowned (k : Nat) (a : MArray) : (s.setArray k a).unowned = s.unowned := rfl
@[simp] theorem State.setArray_regs (k : Nat) (a : MArray) : (s.setArray k a).regs = s.regs := rfl

@[simp] theorem State.modArray_cur (k : Nat) (f : MArray → MArray) : (s.modArray k f).cur = s.cur := rfl
@[simp] theorem State.modArray_cycles (k : Nat) (f : MArray → MArray) : (s.modArray k f).cycles = s.cycles := rfl
@[simp] theorem State.modArray_agenda (k : Nat) (f : MArray → MArray) : (s.modArray k f).agenda = s.agenda := rfl
@[simp] theorem State.modArray_request (k : Nat) (f : MArray → MArray) : (s.modArray k f).request = s.request := rfl
@[simp] theorem State.modArray_answer (k : Nat) (f : MArray → MArray) : (s.modArray k f).answer = s.answer := rfl
@[simp] theorem State.modArray_tick (k : Nat) (f : MArray → MArray) : (s.modArray k f).tick = s.tick := rfl
@[simp] theorem State.modArray_ctxs (k : Nat) (f : MArray → MArray) : (s.modArray k f).ctxs = s.ctxs := rfl
@[simp] theorem State.modArray_cores (k : Nat) (f : MArray → MArray) : (s.modArray k f).cores = s.cores := rfl
@[simp] theorem State.modArray_clusters (k : Nat) (f : MArray → MArray) : (s.modArray k f).clusters = s.clusters := rfl
@[simp] theorem State.modArray_dies (k : Nat) (f : MArray → MArray) : (s.modArray k f).dies = s.dies := rfl
@[simp] theorem State.modArray_groups (k : Nat) (f : MArray → MArray) : (s.modArray k f).groups = s.groups := rfl
@[simp] theorem State.modArray_saves (k : Nat) (f : MArray → MArray) : (s.modArray k f).saves = s.saves := rfl
@[simp] theorem State.modArray_launches (k : Nat) (f : MArray → MArray) : (s.modArray k f).launches = s.launches := rfl
@[simp] theorem State.modArray_nextLaunch (k : Nat) (f : MArray → MArray) : (s.modArray k f).nextLaunch = s.nextLaunch := rfl
@[simp] theorem State.modArray_nextGroup (k : Nat) (f : MArray → MArray) : (s.modArray k f).nextGroup = s.nextGroup := rfl
@[simp] theorem State.modArray_kobjs (k : Nat) (f : MArray → MArray) : (s.modArray k f).kobjs = s.kobjs := rfl
@[simp] theorem State.modArray_mem (k : Nat) (f : MArray → MArray) : (s.modArray k f).mem = s.mem := rfl
@[simp] theorem State.modArray_poison (k : Nat) (f : MArray → MArray) : (s.modArray k f).poison = s.poison := rfl
@[simp] theorem State.modArray_frames (k : Nat) (f : MArray → MArray) : (s.modArray k f).frames = s.frames := rfl
@[simp] theorem State.modArray_grants (k : Nat) (f : MArray → MArray) : (s.modArray k f).grants = s.grants := rfl
@[simp] theorem State.modArray_vaults (k : Nat) (f : MArray → MArray) : (s.modArray k f).vaults = s.vaults := rfl
@[simp] theorem State.modArray_parts (k : Nat) (f : MArray → MArray) : (s.modArray k f).parts = s.parts := rfl
@[simp] theorem State.modArray_vfs (k : Nat) (f : MArray → MArray) : (s.modArray k f).vfs = s.vfs := rfl
@[simp] theorem State.modArray_queues (k : Nat) (f : MArray → MArray) : (s.modArray k f).queues = s.queues := rfl
@[simp] theorem State.modArray_tails (k : Nat) (f : MArray → MArray) : (s.modArray k f).tails = s.tails := rfl
@[simp] theorem State.modArray_bufHandles (k : Nat) (f : MArray → MArray) : (s.modArray k f).bufHandles = s.bufHandles := rfl
@[simp] theorem State.modArray_comms (k : Nat) (f : MArray → MArray) : (s.modArray k f).comms = s.comms := rfl
@[simp] theorem State.modArray_collectives (k : Nat) (f : MArray → MArray) : (s.modArray k f).collectives = s.collectives := rfl
@[simp] theorem State.modArray_mailboxes (k : Nat) (f : MArray → MArray) : (s.modArray k f).mailboxes = s.mailboxes := rfl
@[simp] theorem State.modArray_harts (k : Nat) (f : MArray → MArray) : (s.modArray k f).harts = s.harts := rfl
@[simp] theorem State.modArray_refusedNodes (k : Nat) (f : MArray → MArray) : (s.modArray k f).refusedNodes = s.refusedNodes := rfl
@[simp] theorem State.modArray_ports (k : Nat) (f : MArray → MArray) : (s.modArray k f).ports = s.ports := rfl
@[simp] theorem State.modArray_errors (k : Nat) (f : MArray → MArray) : (s.modArray k f).errors = s.errors := rfl
@[simp] theorem State.modArray_violations (k : Nat) (f : MArray → MArray) : (s.modArray k f).violations = s.violations := rfl
@[simp] theorem State.modArray_rowErrors (k : Nat) (f : MArray → MArray) : (s.modArray k f).rowErrors = s.rowErrors := rfl
@[simp] theorem State.modArray_sramErrors (k : Nat) (f : MArray → MArray) : (s.modArray k f).sramErrors = s.sramErrors := rfl
@[simp] theorem State.modArray_retireDue (k : Nat) (f : MArray → MArray) : (s.modArray k f).retireDue = s.retireDue := rfl
@[simp] theorem State.modArray_retired (k : Nat) (f : MArray → MArray) : (s.modArray k f).retired = s.retired := rfl
@[simp] theorem State.modArray_unowned (k : Nat) (f : MArray → MArray) : (s.modArray k f).unowned = s.unowned := rfl
@[simp] theorem State.modArray_regs (k : Nat) (f : MArray → MArray) : (s.modArray k f).regs = s.regs := rfl

@[simp] theorem State.setCluster_cur (k : Nat) (c : Cluster) : (s.setCluster k c).cur = s.cur := rfl
@[simp] theorem State.setCluster_cycles (k : Nat) (c : Cluster) : (s.setCluster k c).cycles = s.cycles := rfl
@[simp] theorem State.setCluster_agenda (k : Nat) (c : Cluster) : (s.setCluster k c).agenda = s.agenda := rfl
@[simp] theorem State.setCluster_request (k : Nat) (c : Cluster) : (s.setCluster k c).request = s.request := rfl
@[simp] theorem State.setCluster_answer (k : Nat) (c : Cluster) : (s.setCluster k c).answer = s.answer := rfl
@[simp] theorem State.setCluster_tick (k : Nat) (c : Cluster) : (s.setCluster k c).tick = s.tick := rfl
@[simp] theorem State.setCluster_ctxs (k : Nat) (c : Cluster) : (s.setCluster k c).ctxs = s.ctxs := rfl
@[simp] theorem State.setCluster_cores (k : Nat) (c : Cluster) : (s.setCluster k c).cores = s.cores := rfl
@[simp] theorem State.setCluster_arrays (k : Nat) (c : Cluster) : (s.setCluster k c).arrays = s.arrays := rfl
@[simp] theorem State.setCluster_dies (k : Nat) (c : Cluster) : (s.setCluster k c).dies = s.dies := rfl
@[simp] theorem State.setCluster_groups (k : Nat) (c : Cluster) : (s.setCluster k c).groups = s.groups := rfl
@[simp] theorem State.setCluster_saves (k : Nat) (c : Cluster) : (s.setCluster k c).saves = s.saves := rfl
@[simp] theorem State.setCluster_launches (k : Nat) (c : Cluster) : (s.setCluster k c).launches = s.launches := rfl
@[simp] theorem State.setCluster_nextLaunch (k : Nat) (c : Cluster) : (s.setCluster k c).nextLaunch = s.nextLaunch := rfl
@[simp] theorem State.setCluster_nextGroup (k : Nat) (c : Cluster) : (s.setCluster k c).nextGroup = s.nextGroup := rfl
@[simp] theorem State.setCluster_kobjs (k : Nat) (c : Cluster) : (s.setCluster k c).kobjs = s.kobjs := rfl
@[simp] theorem State.setCluster_mem (k : Nat) (c : Cluster) : (s.setCluster k c).mem = s.mem := rfl
@[simp] theorem State.setCluster_poison (k : Nat) (c : Cluster) : (s.setCluster k c).poison = s.poison := rfl
@[simp] theorem State.setCluster_frames (k : Nat) (c : Cluster) : (s.setCluster k c).frames = s.frames := rfl
@[simp] theorem State.setCluster_grants (k : Nat) (c : Cluster) : (s.setCluster k c).grants = s.grants := rfl
@[simp] theorem State.setCluster_vaults (k : Nat) (c : Cluster) : (s.setCluster k c).vaults = s.vaults := rfl
@[simp] theorem State.setCluster_parts (k : Nat) (c : Cluster) : (s.setCluster k c).parts = s.parts := rfl
@[simp] theorem State.setCluster_vfs (k : Nat) (c : Cluster) : (s.setCluster k c).vfs = s.vfs := rfl
@[simp] theorem State.setCluster_queues (k : Nat) (c : Cluster) : (s.setCluster k c).queues = s.queues := rfl
@[simp] theorem State.setCluster_tails (k : Nat) (c : Cluster) : (s.setCluster k c).tails = s.tails := rfl
@[simp] theorem State.setCluster_bufHandles (k : Nat) (c : Cluster) : (s.setCluster k c).bufHandles = s.bufHandles := rfl
@[simp] theorem State.setCluster_comms (k : Nat) (c : Cluster) : (s.setCluster k c).comms = s.comms := rfl
@[simp] theorem State.setCluster_collectives (k : Nat) (c : Cluster) : (s.setCluster k c).collectives = s.collectives := rfl
@[simp] theorem State.setCluster_mailboxes (k : Nat) (c : Cluster) : (s.setCluster k c).mailboxes = s.mailboxes := rfl
@[simp] theorem State.setCluster_harts (k : Nat) (c : Cluster) : (s.setCluster k c).harts = s.harts := rfl
@[simp] theorem State.setCluster_refusedNodes (k : Nat) (c : Cluster) : (s.setCluster k c).refusedNodes = s.refusedNodes := rfl
@[simp] theorem State.setCluster_ports (k : Nat) (c : Cluster) : (s.setCluster k c).ports = s.ports := rfl
@[simp] theorem State.setCluster_errors (k : Nat) (c : Cluster) : (s.setCluster k c).errors = s.errors := rfl
@[simp] theorem State.setCluster_violations (k : Nat) (c : Cluster) : (s.setCluster k c).violations = s.violations := rfl
@[simp] theorem State.setCluster_rowErrors (k : Nat) (c : Cluster) : (s.setCluster k c).rowErrors = s.rowErrors := rfl
@[simp] theorem State.setCluster_sramErrors (k : Nat) (c : Cluster) : (s.setCluster k c).sramErrors = s.sramErrors := rfl
@[simp] theorem State.setCluster_retireDue (k : Nat) (c : Cluster) : (s.setCluster k c).retireDue = s.retireDue := rfl
@[simp] theorem State.setCluster_retired (k : Nat) (c : Cluster) : (s.setCluster k c).retired = s.retired := rfl
@[simp] theorem State.setCluster_unowned (k : Nat) (c : Cluster) : (s.setCluster k c).unowned = s.unowned := rfl
@[simp] theorem State.setCluster_regs (k : Nat) (c : Cluster) : (s.setCluster k c).regs = s.regs := rfl

@[simp] theorem State.modCluster_cur (k : Nat) (f : Cluster → Cluster) : (s.modCluster k f).cur = s.cur := rfl
@[simp] theorem State.modCluster_cycles (k : Nat) (f : Cluster → Cluster) : (s.modCluster k f).cycles = s.cycles := rfl
@[simp] theorem State.modCluster_agenda (k : Nat) (f : Cluster → Cluster) : (s.modCluster k f).agenda = s.agenda := rfl
@[simp] theorem State.modCluster_request (k : Nat) (f : Cluster → Cluster) : (s.modCluster k f).request = s.request := rfl
@[simp] theorem State.modCluster_answer (k : Nat) (f : Cluster → Cluster) : (s.modCluster k f).answer = s.answer := rfl
@[simp] theorem State.modCluster_tick (k : Nat) (f : Cluster → Cluster) : (s.modCluster k f).tick = s.tick := rfl
@[simp] theorem State.modCluster_ctxs (k : Nat) (f : Cluster → Cluster) : (s.modCluster k f).ctxs = s.ctxs := rfl
@[simp] theorem State.modCluster_cores (k : Nat) (f : Cluster → Cluster) : (s.modCluster k f).cores = s.cores := rfl
@[simp] theorem State.modCluster_arrays (k : Nat) (f : Cluster → Cluster) : (s.modCluster k f).arrays = s.arrays := rfl
@[simp] theorem State.modCluster_dies (k : Nat) (f : Cluster → Cluster) : (s.modCluster k f).dies = s.dies := rfl
@[simp] theorem State.modCluster_groups (k : Nat) (f : Cluster → Cluster) : (s.modCluster k f).groups = s.groups := rfl
@[simp] theorem State.modCluster_saves (k : Nat) (f : Cluster → Cluster) : (s.modCluster k f).saves = s.saves := rfl
@[simp] theorem State.modCluster_launches (k : Nat) (f : Cluster → Cluster) : (s.modCluster k f).launches = s.launches := rfl
@[simp] theorem State.modCluster_nextLaunch (k : Nat) (f : Cluster → Cluster) : (s.modCluster k f).nextLaunch = s.nextLaunch := rfl
@[simp] theorem State.modCluster_nextGroup (k : Nat) (f : Cluster → Cluster) : (s.modCluster k f).nextGroup = s.nextGroup := rfl
@[simp] theorem State.modCluster_kobjs (k : Nat) (f : Cluster → Cluster) : (s.modCluster k f).kobjs = s.kobjs := rfl
@[simp] theorem State.modCluster_mem (k : Nat) (f : Cluster → Cluster) : (s.modCluster k f).mem = s.mem := rfl
@[simp] theorem State.modCluster_poison (k : Nat) (f : Cluster → Cluster) : (s.modCluster k f).poison = s.poison := rfl
@[simp] theorem State.modCluster_frames (k : Nat) (f : Cluster → Cluster) : (s.modCluster k f).frames = s.frames := rfl
@[simp] theorem State.modCluster_grants (k : Nat) (f : Cluster → Cluster) : (s.modCluster k f).grants = s.grants := rfl
@[simp] theorem State.modCluster_vaults (k : Nat) (f : Cluster → Cluster) : (s.modCluster k f).vaults = s.vaults := rfl
@[simp] theorem State.modCluster_parts (k : Nat) (f : Cluster → Cluster) : (s.modCluster k f).parts = s.parts := rfl
@[simp] theorem State.modCluster_vfs (k : Nat) (f : Cluster → Cluster) : (s.modCluster k f).vfs = s.vfs := rfl
@[simp] theorem State.modCluster_queues (k : Nat) (f : Cluster → Cluster) : (s.modCluster k f).queues = s.queues := rfl
@[simp] theorem State.modCluster_tails (k : Nat) (f : Cluster → Cluster) : (s.modCluster k f).tails = s.tails := rfl
@[simp] theorem State.modCluster_bufHandles (k : Nat) (f : Cluster → Cluster) : (s.modCluster k f).bufHandles = s.bufHandles := rfl
@[simp] theorem State.modCluster_comms (k : Nat) (f : Cluster → Cluster) : (s.modCluster k f).comms = s.comms := rfl
@[simp] theorem State.modCluster_collectives (k : Nat) (f : Cluster → Cluster) : (s.modCluster k f).collectives = s.collectives := rfl
@[simp] theorem State.modCluster_mailboxes (k : Nat) (f : Cluster → Cluster) : (s.modCluster k f).mailboxes = s.mailboxes := rfl
@[simp] theorem State.modCluster_harts (k : Nat) (f : Cluster → Cluster) : (s.modCluster k f).harts = s.harts := rfl
@[simp] theorem State.modCluster_refusedNodes (k : Nat) (f : Cluster → Cluster) : (s.modCluster k f).refusedNodes = s.refusedNodes := rfl
@[simp] theorem State.modCluster_ports (k : Nat) (f : Cluster → Cluster) : (s.modCluster k f).ports = s.ports := rfl
@[simp] theorem State.modCluster_errors (k : Nat) (f : Cluster → Cluster) : (s.modCluster k f).errors = s.errors := rfl
@[simp] theorem State.modCluster_violations (k : Nat) (f : Cluster → Cluster) : (s.modCluster k f).violations = s.violations := rfl
@[simp] theorem State.modCluster_rowErrors (k : Nat) (f : Cluster → Cluster) : (s.modCluster k f).rowErrors = s.rowErrors := rfl
@[simp] theorem State.modCluster_sramErrors (k : Nat) (f : Cluster → Cluster) : (s.modCluster k f).sramErrors = s.sramErrors := rfl
@[simp] theorem State.modCluster_retireDue (k : Nat) (f : Cluster → Cluster) : (s.modCluster k f).retireDue = s.retireDue := rfl
@[simp] theorem State.modCluster_retired (k : Nat) (f : Cluster → Cluster) : (s.modCluster k f).retired = s.retired := rfl
@[simp] theorem State.modCluster_unowned (k : Nat) (f : Cluster → Cluster) : (s.modCluster k f).unowned = s.unowned := rfl
@[simp] theorem State.modCluster_regs (k : Nat) (f : Cluster → Cluster) : (s.modCluster k f).regs = s.regs := rfl

@[simp] theorem State.modDie_cur (k : Nat) (f : Die → Die) : (s.modDie k f).cur = s.cur := rfl
@[simp] theorem State.modDie_cycles (k : Nat) (f : Die → Die) : (s.modDie k f).cycles = s.cycles := rfl
@[simp] theorem State.modDie_agenda (k : Nat) (f : Die → Die) : (s.modDie k f).agenda = s.agenda := rfl
@[simp] theorem State.modDie_request (k : Nat) (f : Die → Die) : (s.modDie k f).request = s.request := rfl
@[simp] theorem State.modDie_answer (k : Nat) (f : Die → Die) : (s.modDie k f).answer = s.answer := rfl
@[simp] theorem State.modDie_tick (k : Nat) (f : Die → Die) : (s.modDie k f).tick = s.tick := rfl
@[simp] theorem State.modDie_ctxs (k : Nat) (f : Die → Die) : (s.modDie k f).ctxs = s.ctxs := rfl
@[simp] theorem State.modDie_cores (k : Nat) (f : Die → Die) : (s.modDie k f).cores = s.cores := rfl
@[simp] theorem State.modDie_arrays (k : Nat) (f : Die → Die) : (s.modDie k f).arrays = s.arrays := rfl
@[simp] theorem State.modDie_clusters (k : Nat) (f : Die → Die) : (s.modDie k f).clusters = s.clusters := rfl
@[simp] theorem State.modDie_groups (k : Nat) (f : Die → Die) : (s.modDie k f).groups = s.groups := rfl
@[simp] theorem State.modDie_saves (k : Nat) (f : Die → Die) : (s.modDie k f).saves = s.saves := rfl
@[simp] theorem State.modDie_launches (k : Nat) (f : Die → Die) : (s.modDie k f).launches = s.launches := rfl
@[simp] theorem State.modDie_nextLaunch (k : Nat) (f : Die → Die) : (s.modDie k f).nextLaunch = s.nextLaunch := rfl
@[simp] theorem State.modDie_nextGroup (k : Nat) (f : Die → Die) : (s.modDie k f).nextGroup = s.nextGroup := rfl
@[simp] theorem State.modDie_kobjs (k : Nat) (f : Die → Die) : (s.modDie k f).kobjs = s.kobjs := rfl
@[simp] theorem State.modDie_mem (k : Nat) (f : Die → Die) : (s.modDie k f).mem = s.mem := rfl
@[simp] theorem State.modDie_poison (k : Nat) (f : Die → Die) : (s.modDie k f).poison = s.poison := rfl
@[simp] theorem State.modDie_frames (k : Nat) (f : Die → Die) : (s.modDie k f).frames = s.frames := rfl
@[simp] theorem State.modDie_grants (k : Nat) (f : Die → Die) : (s.modDie k f).grants = s.grants := rfl
@[simp] theorem State.modDie_vaults (k : Nat) (f : Die → Die) : (s.modDie k f).vaults = s.vaults := rfl
@[simp] theorem State.modDie_parts (k : Nat) (f : Die → Die) : (s.modDie k f).parts = s.parts := rfl
@[simp] theorem State.modDie_vfs (k : Nat) (f : Die → Die) : (s.modDie k f).vfs = s.vfs := rfl
@[simp] theorem State.modDie_queues (k : Nat) (f : Die → Die) : (s.modDie k f).queues = s.queues := rfl
@[simp] theorem State.modDie_tails (k : Nat) (f : Die → Die) : (s.modDie k f).tails = s.tails := rfl
@[simp] theorem State.modDie_bufHandles (k : Nat) (f : Die → Die) : (s.modDie k f).bufHandles = s.bufHandles := rfl
@[simp] theorem State.modDie_comms (k : Nat) (f : Die → Die) : (s.modDie k f).comms = s.comms := rfl
@[simp] theorem State.modDie_collectives (k : Nat) (f : Die → Die) : (s.modDie k f).collectives = s.collectives := rfl
@[simp] theorem State.modDie_mailboxes (k : Nat) (f : Die → Die) : (s.modDie k f).mailboxes = s.mailboxes := rfl
@[simp] theorem State.modDie_harts (k : Nat) (f : Die → Die) : (s.modDie k f).harts = s.harts := rfl
@[simp] theorem State.modDie_refusedNodes (k : Nat) (f : Die → Die) : (s.modDie k f).refusedNodes = s.refusedNodes := rfl
@[simp] theorem State.modDie_ports (k : Nat) (f : Die → Die) : (s.modDie k f).ports = s.ports := rfl
@[simp] theorem State.modDie_errors (k : Nat) (f : Die → Die) : (s.modDie k f).errors = s.errors := rfl
@[simp] theorem State.modDie_violations (k : Nat) (f : Die → Die) : (s.modDie k f).violations = s.violations := rfl
@[simp] theorem State.modDie_rowErrors (k : Nat) (f : Die → Die) : (s.modDie k f).rowErrors = s.rowErrors := rfl
@[simp] theorem State.modDie_sramErrors (k : Nat) (f : Die → Die) : (s.modDie k f).sramErrors = s.sramErrors := rfl
@[simp] theorem State.modDie_retireDue (k : Nat) (f : Die → Die) : (s.modDie k f).retireDue = s.retireDue := rfl
@[simp] theorem State.modDie_retired (k : Nat) (f : Die → Die) : (s.modDie k f).retired = s.retired := rfl
@[simp] theorem State.modDie_unowned (k : Nat) (f : Die → Die) : (s.modDie k f).unowned = s.unowned := rfl
@[simp] theorem State.modDie_regs (k : Nat) (f : Die → Die) : (s.modDie k f).regs = s.regs := rfl

@[simp] theorem State.modGroup_cur (k : Nat) (f : Group → Group) : (s.modGroup k f).cur = s.cur := rfl
@[simp] theorem State.modGroup_cycles (k : Nat) (f : Group → Group) : (s.modGroup k f).cycles = s.cycles := rfl
@[simp] theorem State.modGroup_agenda (k : Nat) (f : Group → Group) : (s.modGroup k f).agenda = s.agenda := rfl
@[simp] theorem State.modGroup_request (k : Nat) (f : Group → Group) : (s.modGroup k f).request = s.request := rfl
@[simp] theorem State.modGroup_answer (k : Nat) (f : Group → Group) : (s.modGroup k f).answer = s.answer := rfl
@[simp] theorem State.modGroup_tick (k : Nat) (f : Group → Group) : (s.modGroup k f).tick = s.tick := rfl
@[simp] theorem State.modGroup_ctxs (k : Nat) (f : Group → Group) : (s.modGroup k f).ctxs = s.ctxs := rfl
@[simp] theorem State.modGroup_cores (k : Nat) (f : Group → Group) : (s.modGroup k f).cores = s.cores := rfl
@[simp] theorem State.modGroup_arrays (k : Nat) (f : Group → Group) : (s.modGroup k f).arrays = s.arrays := rfl
@[simp] theorem State.modGroup_clusters (k : Nat) (f : Group → Group) : (s.modGroup k f).clusters = s.clusters := rfl
@[simp] theorem State.modGroup_dies (k : Nat) (f : Group → Group) : (s.modGroup k f).dies = s.dies := rfl
@[simp] theorem State.modGroup_saves (k : Nat) (f : Group → Group) : (s.modGroup k f).saves = s.saves := rfl
@[simp] theorem State.modGroup_launches (k : Nat) (f : Group → Group) : (s.modGroup k f).launches = s.launches := rfl
@[simp] theorem State.modGroup_nextLaunch (k : Nat) (f : Group → Group) : (s.modGroup k f).nextLaunch = s.nextLaunch := rfl
@[simp] theorem State.modGroup_nextGroup (k : Nat) (f : Group → Group) : (s.modGroup k f).nextGroup = s.nextGroup := rfl
@[simp] theorem State.modGroup_kobjs (k : Nat) (f : Group → Group) : (s.modGroup k f).kobjs = s.kobjs := rfl
@[simp] theorem State.modGroup_mem (k : Nat) (f : Group → Group) : (s.modGroup k f).mem = s.mem := rfl
@[simp] theorem State.modGroup_poison (k : Nat) (f : Group → Group) : (s.modGroup k f).poison = s.poison := rfl
@[simp] theorem State.modGroup_frames (k : Nat) (f : Group → Group) : (s.modGroup k f).frames = s.frames := rfl
@[simp] theorem State.modGroup_grants (k : Nat) (f : Group → Group) : (s.modGroup k f).grants = s.grants := rfl
@[simp] theorem State.modGroup_vaults (k : Nat) (f : Group → Group) : (s.modGroup k f).vaults = s.vaults := rfl
@[simp] theorem State.modGroup_parts (k : Nat) (f : Group → Group) : (s.modGroup k f).parts = s.parts := rfl
@[simp] theorem State.modGroup_vfs (k : Nat) (f : Group → Group) : (s.modGroup k f).vfs = s.vfs := rfl
@[simp] theorem State.modGroup_queues (k : Nat) (f : Group → Group) : (s.modGroup k f).queues = s.queues := rfl
@[simp] theorem State.modGroup_tails (k : Nat) (f : Group → Group) : (s.modGroup k f).tails = s.tails := rfl
@[simp] theorem State.modGroup_bufHandles (k : Nat) (f : Group → Group) : (s.modGroup k f).bufHandles = s.bufHandles := rfl
@[simp] theorem State.modGroup_comms (k : Nat) (f : Group → Group) : (s.modGroup k f).comms = s.comms := rfl
@[simp] theorem State.modGroup_collectives (k : Nat) (f : Group → Group) : (s.modGroup k f).collectives = s.collectives := rfl
@[simp] theorem State.modGroup_mailboxes (k : Nat) (f : Group → Group) : (s.modGroup k f).mailboxes = s.mailboxes := rfl
@[simp] theorem State.modGroup_harts (k : Nat) (f : Group → Group) : (s.modGroup k f).harts = s.harts := rfl
@[simp] theorem State.modGroup_refusedNodes (k : Nat) (f : Group → Group) : (s.modGroup k f).refusedNodes = s.refusedNodes := rfl
@[simp] theorem State.modGroup_ports (k : Nat) (f : Group → Group) : (s.modGroup k f).ports = s.ports := rfl
@[simp] theorem State.modGroup_errors (k : Nat) (f : Group → Group) : (s.modGroup k f).errors = s.errors := rfl
@[simp] theorem State.modGroup_violations (k : Nat) (f : Group → Group) : (s.modGroup k f).violations = s.violations := rfl
@[simp] theorem State.modGroup_rowErrors (k : Nat) (f : Group → Group) : (s.modGroup k f).rowErrors = s.rowErrors := rfl
@[simp] theorem State.modGroup_sramErrors (k : Nat) (f : Group → Group) : (s.modGroup k f).sramErrors = s.sramErrors := rfl
@[simp] theorem State.modGroup_retireDue (k : Nat) (f : Group → Group) : (s.modGroup k f).retireDue = s.retireDue := rfl
@[simp] theorem State.modGroup_retired (k : Nat) (f : Group → Group) : (s.modGroup k f).retired = s.retired := rfl
@[simp] theorem State.modGroup_unowned (k : Nat) (f : Group → Group) : (s.modGroup k f).unowned = s.unowned := rfl
@[simp] theorem State.modGroup_regs (k : Nat) (f : Group → Group) : (s.modGroup k f).regs = s.regs := rfl

@[simp] theorem State.modVault_cur (k : Nat) (f : Vault → Vault) : (s.modVault k f).cur = s.cur := rfl
@[simp] theorem State.modVault_cycles (k : Nat) (f : Vault → Vault) : (s.modVault k f).cycles = s.cycles := rfl
@[simp] theorem State.modVault_agenda (k : Nat) (f : Vault → Vault) : (s.modVault k f).agenda = s.agenda := rfl
@[simp] theorem State.modVault_request (k : Nat) (f : Vault → Vault) : (s.modVault k f).request = s.request := rfl
@[simp] theorem State.modVault_answer (k : Nat) (f : Vault → Vault) : (s.modVault k f).answer = s.answer := rfl
@[simp] theorem State.modVault_tick (k : Nat) (f : Vault → Vault) : (s.modVault k f).tick = s.tick := rfl
@[simp] theorem State.modVault_ctxs (k : Nat) (f : Vault → Vault) : (s.modVault k f).ctxs = s.ctxs := rfl
@[simp] theorem State.modVault_cores (k : Nat) (f : Vault → Vault) : (s.modVault k f).cores = s.cores := rfl
@[simp] theorem State.modVault_arrays (k : Nat) (f : Vault → Vault) : (s.modVault k f).arrays = s.arrays := rfl
@[simp] theorem State.modVault_clusters (k : Nat) (f : Vault → Vault) : (s.modVault k f).clusters = s.clusters := rfl
@[simp] theorem State.modVault_dies (k : Nat) (f : Vault → Vault) : (s.modVault k f).dies = s.dies := rfl
@[simp] theorem State.modVault_groups (k : Nat) (f : Vault → Vault) : (s.modVault k f).groups = s.groups := rfl
@[simp] theorem State.modVault_saves (k : Nat) (f : Vault → Vault) : (s.modVault k f).saves = s.saves := rfl
@[simp] theorem State.modVault_launches (k : Nat) (f : Vault → Vault) : (s.modVault k f).launches = s.launches := rfl
@[simp] theorem State.modVault_nextLaunch (k : Nat) (f : Vault → Vault) : (s.modVault k f).nextLaunch = s.nextLaunch := rfl
@[simp] theorem State.modVault_nextGroup (k : Nat) (f : Vault → Vault) : (s.modVault k f).nextGroup = s.nextGroup := rfl
@[simp] theorem State.modVault_kobjs (k : Nat) (f : Vault → Vault) : (s.modVault k f).kobjs = s.kobjs := rfl
@[simp] theorem State.modVault_mem (k : Nat) (f : Vault → Vault) : (s.modVault k f).mem = s.mem := rfl
@[simp] theorem State.modVault_poison (k : Nat) (f : Vault → Vault) : (s.modVault k f).poison = s.poison := rfl
@[simp] theorem State.modVault_frames (k : Nat) (f : Vault → Vault) : (s.modVault k f).frames = s.frames := rfl
@[simp] theorem State.modVault_grants (k : Nat) (f : Vault → Vault) : (s.modVault k f).grants = s.grants := rfl
@[simp] theorem State.modVault_parts (k : Nat) (f : Vault → Vault) : (s.modVault k f).parts = s.parts := rfl
@[simp] theorem State.modVault_vfs (k : Nat) (f : Vault → Vault) : (s.modVault k f).vfs = s.vfs := rfl
@[simp] theorem State.modVault_queues (k : Nat) (f : Vault → Vault) : (s.modVault k f).queues = s.queues := rfl
@[simp] theorem State.modVault_tails (k : Nat) (f : Vault → Vault) : (s.modVault k f).tails = s.tails := rfl
@[simp] theorem State.modVault_bufHandles (k : Nat) (f : Vault → Vault) : (s.modVault k f).bufHandles = s.bufHandles := rfl
@[simp] theorem State.modVault_comms (k : Nat) (f : Vault → Vault) : (s.modVault k f).comms = s.comms := rfl
@[simp] theorem State.modVault_collectives (k : Nat) (f : Vault → Vault) : (s.modVault k f).collectives = s.collectives := rfl
@[simp] theorem State.modVault_mailboxes (k : Nat) (f : Vault → Vault) : (s.modVault k f).mailboxes = s.mailboxes := rfl
@[simp] theorem State.modVault_harts (k : Nat) (f : Vault → Vault) : (s.modVault k f).harts = s.harts := rfl
@[simp] theorem State.modVault_refusedNodes (k : Nat) (f : Vault → Vault) : (s.modVault k f).refusedNodes = s.refusedNodes := rfl
@[simp] theorem State.modVault_ports (k : Nat) (f : Vault → Vault) : (s.modVault k f).ports = s.ports := rfl
@[simp] theorem State.modVault_errors (k : Nat) (f : Vault → Vault) : (s.modVault k f).errors = s.errors := rfl
@[simp] theorem State.modVault_violations (k : Nat) (f : Vault → Vault) : (s.modVault k f).violations = s.violations := rfl
@[simp] theorem State.modVault_rowErrors (k : Nat) (f : Vault → Vault) : (s.modVault k f).rowErrors = s.rowErrors := rfl
@[simp] theorem State.modVault_sramErrors (k : Nat) (f : Vault → Vault) : (s.modVault k f).sramErrors = s.sramErrors := rfl
@[simp] theorem State.modVault_retireDue (k : Nat) (f : Vault → Vault) : (s.modVault k f).retireDue = s.retireDue := rfl
@[simp] theorem State.modVault_retired (k : Nat) (f : Vault → Vault) : (s.modVault k f).retired = s.retired := rfl
@[simp] theorem State.modVault_unowned (k : Nat) (f : Vault → Vault) : (s.modVault k f).unowned = s.unowned := rfl
@[simp] theorem State.modVault_regs (k : Nat) (f : Vault → Vault) : (s.modVault k f).regs = s.regs := rfl

@[simp] theorem State.modPart_cur (k : Nat) (f : Part → Part) : (s.modPart k f).cur = s.cur := rfl
@[simp] theorem State.modPart_cycles (k : Nat) (f : Part → Part) : (s.modPart k f).cycles = s.cycles := rfl
@[simp] theorem State.modPart_agenda (k : Nat) (f : Part → Part) : (s.modPart k f).agenda = s.agenda := rfl
@[simp] theorem State.modPart_request (k : Nat) (f : Part → Part) : (s.modPart k f).request = s.request := rfl
@[simp] theorem State.modPart_answer (k : Nat) (f : Part → Part) : (s.modPart k f).answer = s.answer := rfl
@[simp] theorem State.modPart_tick (k : Nat) (f : Part → Part) : (s.modPart k f).tick = s.tick := rfl
@[simp] theorem State.modPart_ctxs (k : Nat) (f : Part → Part) : (s.modPart k f).ctxs = s.ctxs := rfl
@[simp] theorem State.modPart_cores (k : Nat) (f : Part → Part) : (s.modPart k f).cores = s.cores := rfl
@[simp] theorem State.modPart_arrays (k : Nat) (f : Part → Part) : (s.modPart k f).arrays = s.arrays := rfl
@[simp] theorem State.modPart_clusters (k : Nat) (f : Part → Part) : (s.modPart k f).clusters = s.clusters := rfl
@[simp] theorem State.modPart_dies (k : Nat) (f : Part → Part) : (s.modPart k f).dies = s.dies := rfl
@[simp] theorem State.modPart_groups (k : Nat) (f : Part → Part) : (s.modPart k f).groups = s.groups := rfl
@[simp] theorem State.modPart_saves (k : Nat) (f : Part → Part) : (s.modPart k f).saves = s.saves := rfl
@[simp] theorem State.modPart_launches (k : Nat) (f : Part → Part) : (s.modPart k f).launches = s.launches := rfl
@[simp] theorem State.modPart_nextLaunch (k : Nat) (f : Part → Part) : (s.modPart k f).nextLaunch = s.nextLaunch := rfl
@[simp] theorem State.modPart_nextGroup (k : Nat) (f : Part → Part) : (s.modPart k f).nextGroup = s.nextGroup := rfl
@[simp] theorem State.modPart_kobjs (k : Nat) (f : Part → Part) : (s.modPart k f).kobjs = s.kobjs := rfl
@[simp] theorem State.modPart_mem (k : Nat) (f : Part → Part) : (s.modPart k f).mem = s.mem := rfl
@[simp] theorem State.modPart_poison (k : Nat) (f : Part → Part) : (s.modPart k f).poison = s.poison := rfl
@[simp] theorem State.modPart_frames (k : Nat) (f : Part → Part) : (s.modPart k f).frames = s.frames := rfl
@[simp] theorem State.modPart_grants (k : Nat) (f : Part → Part) : (s.modPart k f).grants = s.grants := rfl
@[simp] theorem State.modPart_vaults (k : Nat) (f : Part → Part) : (s.modPart k f).vaults = s.vaults := rfl
@[simp] theorem State.modPart_vfs (k : Nat) (f : Part → Part) : (s.modPart k f).vfs = s.vfs := rfl
@[simp] theorem State.modPart_queues (k : Nat) (f : Part → Part) : (s.modPart k f).queues = s.queues := rfl
@[simp] theorem State.modPart_tails (k : Nat) (f : Part → Part) : (s.modPart k f).tails = s.tails := rfl
@[simp] theorem State.modPart_bufHandles (k : Nat) (f : Part → Part) : (s.modPart k f).bufHandles = s.bufHandles := rfl
@[simp] theorem State.modPart_comms (k : Nat) (f : Part → Part) : (s.modPart k f).comms = s.comms := rfl
@[simp] theorem State.modPart_collectives (k : Nat) (f : Part → Part) : (s.modPart k f).collectives = s.collectives := rfl
@[simp] theorem State.modPart_mailboxes (k : Nat) (f : Part → Part) : (s.modPart k f).mailboxes = s.mailboxes := rfl
@[simp] theorem State.modPart_harts (k : Nat) (f : Part → Part) : (s.modPart k f).harts = s.harts := rfl
@[simp] theorem State.modPart_refusedNodes (k : Nat) (f : Part → Part) : (s.modPart k f).refusedNodes = s.refusedNodes := rfl
@[simp] theorem State.modPart_ports (k : Nat) (f : Part → Part) : (s.modPart k f).ports = s.ports := rfl
@[simp] theorem State.modPart_errors (k : Nat) (f : Part → Part) : (s.modPart k f).errors = s.errors := rfl
@[simp] theorem State.modPart_violations (k : Nat) (f : Part → Part) : (s.modPart k f).violations = s.violations := rfl
@[simp] theorem State.modPart_rowErrors (k : Nat) (f : Part → Part) : (s.modPart k f).rowErrors = s.rowErrors := rfl
@[simp] theorem State.modPart_sramErrors (k : Nat) (f : Part → Part) : (s.modPart k f).sramErrors = s.sramErrors := rfl
@[simp] theorem State.modPart_retireDue (k : Nat) (f : Part → Part) : (s.modPart k f).retireDue = s.retireDue := rfl
@[simp] theorem State.modPart_retired (k : Nat) (f : Part → Part) : (s.modPart k f).retired = s.retired := rfl
@[simp] theorem State.modPart_unowned (k : Nat) (f : Part → Part) : (s.modPart k f).unowned = s.unowned := rfl
@[simp] theorem State.modPart_regs (k : Nat) (f : Part → Part) : (s.modPart k f).regs = s.regs := rfl

@[simp] theorem State.modVf_cur (k : Nat) (f : Vf → Vf) : (s.modVf k f).cur = s.cur := rfl
@[simp] theorem State.modVf_cycles (k : Nat) (f : Vf → Vf) : (s.modVf k f).cycles = s.cycles := rfl
@[simp] theorem State.modVf_agenda (k : Nat) (f : Vf → Vf) : (s.modVf k f).agenda = s.agenda := rfl
@[simp] theorem State.modVf_request (k : Nat) (f : Vf → Vf) : (s.modVf k f).request = s.request := rfl
@[simp] theorem State.modVf_answer (k : Nat) (f : Vf → Vf) : (s.modVf k f).answer = s.answer := rfl
@[simp] theorem State.modVf_tick (k : Nat) (f : Vf → Vf) : (s.modVf k f).tick = s.tick := rfl
@[simp] theorem State.modVf_ctxs (k : Nat) (f : Vf → Vf) : (s.modVf k f).ctxs = s.ctxs := rfl
@[simp] theorem State.modVf_cores (k : Nat) (f : Vf → Vf) : (s.modVf k f).cores = s.cores := rfl
@[simp] theorem State.modVf_arrays (k : Nat) (f : Vf → Vf) : (s.modVf k f).arrays = s.arrays := rfl
@[simp] theorem State.modVf_clusters (k : Nat) (f : Vf → Vf) : (s.modVf k f).clusters = s.clusters := rfl
@[simp] theorem State.modVf_dies (k : Nat) (f : Vf → Vf) : (s.modVf k f).dies = s.dies := rfl
@[simp] theorem State.modVf_groups (k : Nat) (f : Vf → Vf) : (s.modVf k f).groups = s.groups := rfl
@[simp] theorem State.modVf_saves (k : Nat) (f : Vf → Vf) : (s.modVf k f).saves = s.saves := rfl
@[simp] theorem State.modVf_launches (k : Nat) (f : Vf → Vf) : (s.modVf k f).launches = s.launches := rfl
@[simp] theorem State.modVf_nextLaunch (k : Nat) (f : Vf → Vf) : (s.modVf k f).nextLaunch = s.nextLaunch := rfl
@[simp] theorem State.modVf_nextGroup (k : Nat) (f : Vf → Vf) : (s.modVf k f).nextGroup = s.nextGroup := rfl
@[simp] theorem State.modVf_kobjs (k : Nat) (f : Vf → Vf) : (s.modVf k f).kobjs = s.kobjs := rfl
@[simp] theorem State.modVf_mem (k : Nat) (f : Vf → Vf) : (s.modVf k f).mem = s.mem := rfl
@[simp] theorem State.modVf_poison (k : Nat) (f : Vf → Vf) : (s.modVf k f).poison = s.poison := rfl
@[simp] theorem State.modVf_frames (k : Nat) (f : Vf → Vf) : (s.modVf k f).frames = s.frames := rfl
@[simp] theorem State.modVf_grants (k : Nat) (f : Vf → Vf) : (s.modVf k f).grants = s.grants := rfl
@[simp] theorem State.modVf_vaults (k : Nat) (f : Vf → Vf) : (s.modVf k f).vaults = s.vaults := rfl
@[simp] theorem State.modVf_parts (k : Nat) (f : Vf → Vf) : (s.modVf k f).parts = s.parts := rfl
@[simp] theorem State.modVf_queues (k : Nat) (f : Vf → Vf) : (s.modVf k f).queues = s.queues := rfl
@[simp] theorem State.modVf_tails (k : Nat) (f : Vf → Vf) : (s.modVf k f).tails = s.tails := rfl
@[simp] theorem State.modVf_bufHandles (k : Nat) (f : Vf → Vf) : (s.modVf k f).bufHandles = s.bufHandles := rfl
@[simp] theorem State.modVf_comms (k : Nat) (f : Vf → Vf) : (s.modVf k f).comms = s.comms := rfl
@[simp] theorem State.modVf_collectives (k : Nat) (f : Vf → Vf) : (s.modVf k f).collectives = s.collectives := rfl
@[simp] theorem State.modVf_mailboxes (k : Nat) (f : Vf → Vf) : (s.modVf k f).mailboxes = s.mailboxes := rfl
@[simp] theorem State.modVf_harts (k : Nat) (f : Vf → Vf) : (s.modVf k f).harts = s.harts := rfl
@[simp] theorem State.modVf_refusedNodes (k : Nat) (f : Vf → Vf) : (s.modVf k f).refusedNodes = s.refusedNodes := rfl
@[simp] theorem State.modVf_ports (k : Nat) (f : Vf → Vf) : (s.modVf k f).ports = s.ports := rfl
@[simp] theorem State.modVf_errors (k : Nat) (f : Vf → Vf) : (s.modVf k f).errors = s.errors := rfl
@[simp] theorem State.modVf_violations (k : Nat) (f : Vf → Vf) : (s.modVf k f).violations = s.violations := rfl
@[simp] theorem State.modVf_rowErrors (k : Nat) (f : Vf → Vf) : (s.modVf k f).rowErrors = s.rowErrors := rfl
@[simp] theorem State.modVf_sramErrors (k : Nat) (f : Vf → Vf) : (s.modVf k f).sramErrors = s.sramErrors := rfl
@[simp] theorem State.modVf_retireDue (k : Nat) (f : Vf → Vf) : (s.modVf k f).retireDue = s.retireDue := rfl
@[simp] theorem State.modVf_retired (k : Nat) (f : Vf → Vf) : (s.modVf k f).retired = s.retired := rfl
@[simp] theorem State.modVf_unowned (k : Nat) (f : Vf → Vf) : (s.modVf k f).unowned = s.unowned := rfl
@[simp] theorem State.modVf_regs (k : Nat) (f : Vf → Vf) : (s.modVf k f).regs = s.regs := rfl

@[simp] theorem State.setFrame_cur (k : Nat) (e : W64) : (s.setFrame k e).cur = s.cur := rfl
@[simp] theorem State.setFrame_cycles (k : Nat) (e : W64) : (s.setFrame k e).cycles = s.cycles := rfl
@[simp] theorem State.setFrame_agenda (k : Nat) (e : W64) : (s.setFrame k e).agenda = s.agenda := rfl
@[simp] theorem State.setFrame_request (k : Nat) (e : W64) : (s.setFrame k e).request = s.request := rfl
@[simp] theorem State.setFrame_answer (k : Nat) (e : W64) : (s.setFrame k e).answer = s.answer := rfl
@[simp] theorem State.setFrame_tick (k : Nat) (e : W64) : (s.setFrame k e).tick = s.tick := rfl
@[simp] theorem State.setFrame_ctxs (k : Nat) (e : W64) : (s.setFrame k e).ctxs = s.ctxs := rfl
@[simp] theorem State.setFrame_cores (k : Nat) (e : W64) : (s.setFrame k e).cores = s.cores := rfl
@[simp] theorem State.setFrame_arrays (k : Nat) (e : W64) : (s.setFrame k e).arrays = s.arrays := rfl
@[simp] theorem State.setFrame_clusters (k : Nat) (e : W64) : (s.setFrame k e).clusters = s.clusters := rfl
@[simp] theorem State.setFrame_dies (k : Nat) (e : W64) : (s.setFrame k e).dies = s.dies := rfl
@[simp] theorem State.setFrame_groups (k : Nat) (e : W64) : (s.setFrame k e).groups = s.groups := rfl
@[simp] theorem State.setFrame_saves (k : Nat) (e : W64) : (s.setFrame k e).saves = s.saves := rfl
@[simp] theorem State.setFrame_launches (k : Nat) (e : W64) : (s.setFrame k e).launches = s.launches := rfl
@[simp] theorem State.setFrame_nextLaunch (k : Nat) (e : W64) : (s.setFrame k e).nextLaunch = s.nextLaunch := rfl
@[simp] theorem State.setFrame_nextGroup (k : Nat) (e : W64) : (s.setFrame k e).nextGroup = s.nextGroup := rfl
@[simp] theorem State.setFrame_kobjs (k : Nat) (e : W64) : (s.setFrame k e).kobjs = s.kobjs := rfl
@[simp] theorem State.setFrame_mem (k : Nat) (e : W64) : (s.setFrame k e).mem = s.mem := rfl
@[simp] theorem State.setFrame_poison (k : Nat) (e : W64) : (s.setFrame k e).poison = s.poison := rfl
@[simp] theorem State.setFrame_grants (k : Nat) (e : W64) : (s.setFrame k e).grants = s.grants := rfl
@[simp] theorem State.setFrame_vaults (k : Nat) (e : W64) : (s.setFrame k e).vaults = s.vaults := rfl
@[simp] theorem State.setFrame_parts (k : Nat) (e : W64) : (s.setFrame k e).parts = s.parts := rfl
@[simp] theorem State.setFrame_vfs (k : Nat) (e : W64) : (s.setFrame k e).vfs = s.vfs := rfl
@[simp] theorem State.setFrame_queues (k : Nat) (e : W64) : (s.setFrame k e).queues = s.queues := rfl
@[simp] theorem State.setFrame_tails (k : Nat) (e : W64) : (s.setFrame k e).tails = s.tails := rfl
@[simp] theorem State.setFrame_bufHandles (k : Nat) (e : W64) : (s.setFrame k e).bufHandles = s.bufHandles := rfl
@[simp] theorem State.setFrame_comms (k : Nat) (e : W64) : (s.setFrame k e).comms = s.comms := rfl
@[simp] theorem State.setFrame_collectives (k : Nat) (e : W64) : (s.setFrame k e).collectives = s.collectives := rfl
@[simp] theorem State.setFrame_mailboxes (k : Nat) (e : W64) : (s.setFrame k e).mailboxes = s.mailboxes := rfl
@[simp] theorem State.setFrame_harts (k : Nat) (e : W64) : (s.setFrame k e).harts = s.harts := rfl
@[simp] theorem State.setFrame_refusedNodes (k : Nat) (e : W64) : (s.setFrame k e).refusedNodes = s.refusedNodes := rfl
@[simp] theorem State.setFrame_ports (k : Nat) (e : W64) : (s.setFrame k e).ports = s.ports := rfl
@[simp] theorem State.setFrame_errors (k : Nat) (e : W64) : (s.setFrame k e).errors = s.errors := rfl
@[simp] theorem State.setFrame_violations (k : Nat) (e : W64) : (s.setFrame k e).violations = s.violations := rfl
@[simp] theorem State.setFrame_rowErrors (k : Nat) (e : W64) : (s.setFrame k e).rowErrors = s.rowErrors := rfl
@[simp] theorem State.setFrame_sramErrors (k : Nat) (e : W64) : (s.setFrame k e).sramErrors = s.sramErrors := rfl
@[simp] theorem State.setFrame_retireDue (k : Nat) (e : W64) : (s.setFrame k e).retireDue = s.retireDue := rfl
@[simp] theorem State.setFrame_retired (k : Nat) (e : W64) : (s.setFrame k e).retired = s.retired := rfl
@[simp] theorem State.setFrame_unowned (k : Nat) (e : W64) : (s.setFrame k e).unowned = s.unowned := rfl
@[simp] theorem State.setFrame_regs (k : Nat) (e : W64) : (s.setFrame k e).regs = s.regs := rfl

@[simp] theorem State.bump_cur : (s.bump ).cur = s.cur := rfl
@[simp] theorem State.bump_cycles : (s.bump ).cycles = s.cycles := rfl
@[simp] theorem State.bump_agenda : (s.bump ).agenda = s.agenda := rfl
@[simp] theorem State.bump_request : (s.bump ).request = s.request := rfl
@[simp] theorem State.bump_answer : (s.bump ).answer = s.answer := rfl
@[simp] theorem State.bump_ctxs : (s.bump ).ctxs = s.ctxs := rfl
@[simp] theorem State.bump_cores : (s.bump ).cores = s.cores := rfl
@[simp] theorem State.bump_arrays : (s.bump ).arrays = s.arrays := rfl
@[simp] theorem State.bump_clusters : (s.bump ).clusters = s.clusters := rfl
@[simp] theorem State.bump_dies : (s.bump ).dies = s.dies := rfl
@[simp] theorem State.bump_groups : (s.bump ).groups = s.groups := rfl
@[simp] theorem State.bump_saves : (s.bump ).saves = s.saves := rfl
@[simp] theorem State.bump_launches : (s.bump ).launches = s.launches := rfl
@[simp] theorem State.bump_nextLaunch : (s.bump ).nextLaunch = s.nextLaunch := rfl
@[simp] theorem State.bump_nextGroup : (s.bump ).nextGroup = s.nextGroup := rfl
@[simp] theorem State.bump_kobjs : (s.bump ).kobjs = s.kobjs := rfl
@[simp] theorem State.bump_mem : (s.bump ).mem = s.mem := rfl
@[simp] theorem State.bump_poison : (s.bump ).poison = s.poison := rfl
@[simp] theorem State.bump_frames : (s.bump ).frames = s.frames := rfl
@[simp] theorem State.bump_grants : (s.bump ).grants = s.grants := rfl
@[simp] theorem State.bump_vaults : (s.bump ).vaults = s.vaults := rfl
@[simp] theorem State.bump_parts : (s.bump ).parts = s.parts := rfl
@[simp] theorem State.bump_vfs : (s.bump ).vfs = s.vfs := rfl
@[simp] theorem State.bump_queues : (s.bump ).queues = s.queues := rfl
@[simp] theorem State.bump_tails : (s.bump ).tails = s.tails := rfl
@[simp] theorem State.bump_bufHandles : (s.bump ).bufHandles = s.bufHandles := rfl
@[simp] theorem State.bump_comms : (s.bump ).comms = s.comms := rfl
@[simp] theorem State.bump_collectives : (s.bump ).collectives = s.collectives := rfl
@[simp] theorem State.bump_mailboxes : (s.bump ).mailboxes = s.mailboxes := rfl
@[simp] theorem State.bump_harts : (s.bump ).harts = s.harts := rfl
@[simp] theorem State.bump_refusedNodes : (s.bump ).refusedNodes = s.refusedNodes := rfl
@[simp] theorem State.bump_ports : (s.bump ).ports = s.ports := rfl
@[simp] theorem State.bump_errors : (s.bump ).errors = s.errors := rfl
@[simp] theorem State.bump_violations : (s.bump ).violations = s.violations := rfl
@[simp] theorem State.bump_rowErrors : (s.bump ).rowErrors = s.rowErrors := rfl
@[simp] theorem State.bump_sramErrors : (s.bump ).sramErrors = s.sramErrors := rfl
@[simp] theorem State.bump_retireDue : (s.bump ).retireDue = s.retireDue := rfl
@[simp] theorem State.bump_retired : (s.bump ).retired = s.retired := rfl
@[simp] theorem State.bump_unowned : (s.bump ).unowned = s.unowned := rfl
@[simp] theorem State.bump_regs : (s.bump ).regs = s.regs := rfl

@[simp] theorem State.modHart_ctxs (k : Nat) (f : Hart → Hart) : (s.modHart k f).ctxs = s.ctxs := rfl
@[simp] theorem State.modHart_cur (k : Nat) (f : Hart → Hart) : (s.modHart k f).cur = s.cur := rfl
@[simp] theorem State.modHart_cycles (k : Nat) (f : Hart → Hart) : (s.modHart k f).cycles = s.cycles := rfl
@[simp] theorem State.modHart_agenda (k : Nat) (f : Hart → Hart) : (s.modHart k f).agenda = s.agenda := rfl
@[simp] theorem State.modHart_request (k : Nat) (f : Hart → Hart) : (s.modHart k f).request = s.request := rfl
@[simp] theorem State.modHart_answer (k : Nat) (f : Hart → Hart) : (s.modHart k f).answer = s.answer := rfl
@[simp] theorem State.modHart_tick (k : Nat) (f : Hart → Hart) : (s.modHart k f).tick = s.tick := rfl
@[simp] theorem State.modHart_cores (k : Nat) (f : Hart → Hart) : (s.modHart k f).cores = s.cores := rfl
@[simp] theorem State.modHart_arrays (k : Nat) (f : Hart → Hart) : (s.modHart k f).arrays = s.arrays := rfl
@[simp] theorem State.modHart_clusters (k : Nat) (f : Hart → Hart) : (s.modHart k f).clusters = s.clusters := rfl
@[simp] theorem State.modHart_groups (k : Nat) (f : Hart → Hart) : (s.modHart k f).groups = s.groups := rfl
@[simp] theorem State.modHart_saves (k : Nat) (f : Hart → Hart) : (s.modHart k f).saves = s.saves := rfl
@[simp] theorem State.modHart_launches (k : Nat) (f : Hart → Hart) : (s.modHart k f).launches = s.launches := rfl
@[simp] theorem State.modHart_nextLaunch (k : Nat) (f : Hart → Hart) : (s.modHart k f).nextLaunch = s.nextLaunch := rfl
@[simp] theorem State.modHart_nextGroup (k : Nat) (f : Hart → Hart) : (s.modHart k f).nextGroup = s.nextGroup := rfl
@[simp] theorem State.modHart_kobjs (k : Nat) (f : Hart → Hart) : (s.modHart k f).kobjs = s.kobjs := rfl
@[simp] theorem State.modHart_mem (k : Nat) (f : Hart → Hart) : (s.modHart k f).mem = s.mem := rfl
@[simp] theorem State.modHart_poison (k : Nat) (f : Hart → Hart) : (s.modHart k f).poison = s.poison := rfl
@[simp] theorem State.modHart_frames (k : Nat) (f : Hart → Hart) : (s.modHart k f).frames = s.frames := rfl
@[simp] theorem State.modHart_grants (k : Nat) (f : Hart → Hart) : (s.modHart k f).grants = s.grants := rfl
@[simp] theorem State.modHart_vaults (k : Nat) (f : Hart → Hart) : (s.modHart k f).vaults = s.vaults := rfl
@[simp] theorem State.modHart_parts (k : Nat) (f : Hart → Hart) : (s.modHart k f).parts = s.parts := rfl
@[simp] theorem State.modHart_vfs (k : Nat) (f : Hart → Hart) : (s.modHart k f).vfs = s.vfs := rfl
@[simp] theorem State.modHart_queues (k : Nat) (f : Hart → Hart) : (s.modHart k f).queues = s.queues := rfl
@[simp] theorem State.modHart_tails (k : Nat) (f : Hart → Hart) : (s.modHart k f).tails = s.tails := rfl
@[simp] theorem State.modHart_bufHandles (k : Nat) (f : Hart → Hart) : (s.modHart k f).bufHandles = s.bufHandles := rfl
@[simp] theorem State.modHart_comms (k : Nat) (f : Hart → Hart) : (s.modHart k f).comms = s.comms := rfl
@[simp] theorem State.modHart_collectives (k : Nat) (f : Hart → Hart) : (s.modHart k f).collectives = s.collectives := rfl
@[simp] theorem State.modHart_mailboxes (k : Nat) (f : Hart → Hart) : (s.modHart k f).mailboxes = s.mailboxes := rfl
@[simp] theorem State.modHart_refusedNodes (k : Nat) (f : Hart → Hart) : (s.modHart k f).refusedNodes = s.refusedNodes := rfl
@[simp] theorem State.modHart_ports (k : Nat) (f : Hart → Hart) : (s.modHart k f).ports = s.ports := rfl
@[simp] theorem State.modHart_errors (k : Nat) (f : Hart → Hart) : (s.modHart k f).errors = s.errors := rfl
@[simp] theorem State.modHart_violations (k : Nat) (f : Hart → Hart) : (s.modHart k f).violations = s.violations := rfl
@[simp] theorem State.modHart_rowErrors (k : Nat) (f : Hart → Hart) : (s.modHart k f).rowErrors = s.rowErrors := rfl
@[simp] theorem State.modHart_sramErrors (k : Nat) (f : Hart → Hart) : (s.modHart k f).sramErrors = s.sramErrors := rfl
@[simp] theorem State.modHart_retireDue (k : Nat) (f : Hart → Hart) : (s.modHart k f).retireDue = s.retireDue := rfl
@[simp] theorem State.modHart_retired (k : Nat) (f : Hart → Hart) : (s.modHart k f).retired = s.retired := rfl
@[simp] theorem State.modHart_unowned (k : Nat) (f : Hart → Hart) : (s.modHart k f).unowned = s.unowned := rfl
@[simp] theorem State.modHart_regs (k : Nat) (f : Hart → Hart) : (s.modHart k f).regs = s.regs := rfl
@[simp] theorem State.modHart_dies (k : Nat) (f : Hart → Hart) : (s.modHart k f).dies = s.dies := rfl

@[simp] theorem State.modPort_ctxs (k : Nat) (f : Port → Port) : (s.modPort k f).ctxs = s.ctxs := rfl
@[simp] theorem State.modPort_cur (k : Nat) (f : Port → Port) : (s.modPort k f).cur = s.cur := rfl
@[simp] theorem State.modPort_cycles (k : Nat) (f : Port → Port) : (s.modPort k f).cycles = s.cycles := rfl
@[simp] theorem State.modPort_agenda (k : Nat) (f : Port → Port) : (s.modPort k f).agenda = s.agenda := rfl
@[simp] theorem State.modPort_request (k : Nat) (f : Port → Port) : (s.modPort k f).request = s.request := rfl
@[simp] theorem State.modPort_answer (k : Nat) (f : Port → Port) : (s.modPort k f).answer = s.answer := rfl
@[simp] theorem State.modPort_tick (k : Nat) (f : Port → Port) : (s.modPort k f).tick = s.tick := rfl
@[simp] theorem State.modPort_cores (k : Nat) (f : Port → Port) : (s.modPort k f).cores = s.cores := rfl
@[simp] theorem State.modPort_arrays (k : Nat) (f : Port → Port) : (s.modPort k f).arrays = s.arrays := rfl
@[simp] theorem State.modPort_clusters (k : Nat) (f : Port → Port) : (s.modPort k f).clusters = s.clusters := rfl
@[simp] theorem State.modPort_groups (k : Nat) (f : Port → Port) : (s.modPort k f).groups = s.groups := rfl
@[simp] theorem State.modPort_saves (k : Nat) (f : Port → Port) : (s.modPort k f).saves = s.saves := rfl
@[simp] theorem State.modPort_launches (k : Nat) (f : Port → Port) : (s.modPort k f).launches = s.launches := rfl
@[simp] theorem State.modPort_nextLaunch (k : Nat) (f : Port → Port) : (s.modPort k f).nextLaunch = s.nextLaunch := rfl
@[simp] theorem State.modPort_nextGroup (k : Nat) (f : Port → Port) : (s.modPort k f).nextGroup = s.nextGroup := rfl
@[simp] theorem State.modPort_kobjs (k : Nat) (f : Port → Port) : (s.modPort k f).kobjs = s.kobjs := rfl
@[simp] theorem State.modPort_mem (k : Nat) (f : Port → Port) : (s.modPort k f).mem = s.mem := rfl
@[simp] theorem State.modPort_poison (k : Nat) (f : Port → Port) : (s.modPort k f).poison = s.poison := rfl
@[simp] theorem State.modPort_frames (k : Nat) (f : Port → Port) : (s.modPort k f).frames = s.frames := rfl
@[simp] theorem State.modPort_grants (k : Nat) (f : Port → Port) : (s.modPort k f).grants = s.grants := rfl
@[simp] theorem State.modPort_vaults (k : Nat) (f : Port → Port) : (s.modPort k f).vaults = s.vaults := rfl
@[simp] theorem State.modPort_parts (k : Nat) (f : Port → Port) : (s.modPort k f).parts = s.parts := rfl
@[simp] theorem State.modPort_vfs (k : Nat) (f : Port → Port) : (s.modPort k f).vfs = s.vfs := rfl
@[simp] theorem State.modPort_queues (k : Nat) (f : Port → Port) : (s.modPort k f).queues = s.queues := rfl
@[simp] theorem State.modPort_tails (k : Nat) (f : Port → Port) : (s.modPort k f).tails = s.tails := rfl
@[simp] theorem State.modPort_bufHandles (k : Nat) (f : Port → Port) : (s.modPort k f).bufHandles = s.bufHandles := rfl
@[simp] theorem State.modPort_comms (k : Nat) (f : Port → Port) : (s.modPort k f).comms = s.comms := rfl
@[simp] theorem State.modPort_collectives (k : Nat) (f : Port → Port) : (s.modPort k f).collectives = s.collectives := rfl
@[simp] theorem State.modPort_mailboxes (k : Nat) (f : Port → Port) : (s.modPort k f).mailboxes = s.mailboxes := rfl
@[simp] theorem State.modPort_harts (k : Nat) (f : Port → Port) : (s.modPort k f).harts = s.harts := rfl
@[simp] theorem State.modPort_refusedNodes (k : Nat) (f : Port → Port) : (s.modPort k f).refusedNodes = s.refusedNodes := rfl
@[simp] theorem State.modPort_errors (k : Nat) (f : Port → Port) : (s.modPort k f).errors = s.errors := rfl
@[simp] theorem State.modPort_violations (k : Nat) (f : Port → Port) : (s.modPort k f).violations = s.violations := rfl
@[simp] theorem State.modPort_rowErrors (k : Nat) (f : Port → Port) : (s.modPort k f).rowErrors = s.rowErrors := rfl
@[simp] theorem State.modPort_sramErrors (k : Nat) (f : Port → Port) : (s.modPort k f).sramErrors = s.sramErrors := rfl
@[simp] theorem State.modPort_retireDue (k : Nat) (f : Port → Port) : (s.modPort k f).retireDue = s.retireDue := rfl
@[simp] theorem State.modPort_retired (k : Nat) (f : Port → Port) : (s.modPort k f).retired = s.retired := rfl
@[simp] theorem State.modPort_unowned (k : Nat) (f : Port → Port) : (s.modPort k f).unowned = s.unowned := rfl
@[simp] theorem State.modPort_regs (k : Nat) (f : Port → Port) : (s.modPort k f).regs = s.regs := rfl
@[simp] theorem State.modPort_dies (k : Nat) (f : Port → Port) : (s.modPort k f).dies = s.dies := rfl

@[simp] theorem State.modFrame_ctxs (k : Nat) (f : W64 → W64) : (s.modFrame k f).ctxs = s.ctxs := rfl
@[simp] theorem State.modFrame_cur (k : Nat) (f : W64 → W64) : (s.modFrame k f).cur = s.cur := rfl
@[simp] theorem State.modFrame_cycles (k : Nat) (f : W64 → W64) : (s.modFrame k f).cycles = s.cycles := rfl
@[simp] theorem State.modFrame_agenda (k : Nat) (f : W64 → W64) : (s.modFrame k f).agenda = s.agenda := rfl
@[simp] theorem State.modFrame_request (k : Nat) (f : W64 → W64) : (s.modFrame k f).request = s.request := rfl
@[simp] theorem State.modFrame_answer (k : Nat) (f : W64 → W64) : (s.modFrame k f).answer = s.answer := rfl
@[simp] theorem State.modFrame_tick (k : Nat) (f : W64 → W64) : (s.modFrame k f).tick = s.tick := rfl
@[simp] theorem State.modFrame_cores (k : Nat) (f : W64 → W64) : (s.modFrame k f).cores = s.cores := rfl
@[simp] theorem State.modFrame_arrays (k : Nat) (f : W64 → W64) : (s.modFrame k f).arrays = s.arrays := rfl
@[simp] theorem State.modFrame_clusters (k : Nat) (f : W64 → W64) : (s.modFrame k f).clusters = s.clusters := rfl
@[simp] theorem State.modFrame_groups (k : Nat) (f : W64 → W64) : (s.modFrame k f).groups = s.groups := rfl
@[simp] theorem State.modFrame_saves (k : Nat) (f : W64 → W64) : (s.modFrame k f).saves = s.saves := rfl
@[simp] theorem State.modFrame_launches (k : Nat) (f : W64 → W64) : (s.modFrame k f).launches = s.launches := rfl
@[simp] theorem State.modFrame_nextLaunch (k : Nat) (f : W64 → W64) : (s.modFrame k f).nextLaunch = s.nextLaunch := rfl
@[simp] theorem State.modFrame_nextGroup (k : Nat) (f : W64 → W64) : (s.modFrame k f).nextGroup = s.nextGroup := rfl
@[simp] theorem State.modFrame_kobjs (k : Nat) (f : W64 → W64) : (s.modFrame k f).kobjs = s.kobjs := rfl
@[simp] theorem State.modFrame_mem (k : Nat) (f : W64 → W64) : (s.modFrame k f).mem = s.mem := rfl
@[simp] theorem State.modFrame_poison (k : Nat) (f : W64 → W64) : (s.modFrame k f).poison = s.poison := rfl
@[simp] theorem State.modFrame_grants (k : Nat) (f : W64 → W64) : (s.modFrame k f).grants = s.grants := rfl
@[simp] theorem State.modFrame_vaults (k : Nat) (f : W64 → W64) : (s.modFrame k f).vaults = s.vaults := rfl
@[simp] theorem State.modFrame_parts (k : Nat) (f : W64 → W64) : (s.modFrame k f).parts = s.parts := rfl
@[simp] theorem State.modFrame_vfs (k : Nat) (f : W64 → W64) : (s.modFrame k f).vfs = s.vfs := rfl
@[simp] theorem State.modFrame_queues (k : Nat) (f : W64 → W64) : (s.modFrame k f).queues = s.queues := rfl
@[simp] theorem State.modFrame_tails (k : Nat) (f : W64 → W64) : (s.modFrame k f).tails = s.tails := rfl
@[simp] theorem State.modFrame_bufHandles (k : Nat) (f : W64 → W64) : (s.modFrame k f).bufHandles = s.bufHandles := rfl
@[simp] theorem State.modFrame_comms (k : Nat) (f : W64 → W64) : (s.modFrame k f).comms = s.comms := rfl
@[simp] theorem State.modFrame_collectives (k : Nat) (f : W64 → W64) : (s.modFrame k f).collectives = s.collectives := rfl
@[simp] theorem State.modFrame_mailboxes (k : Nat) (f : W64 → W64) : (s.modFrame k f).mailboxes = s.mailboxes := rfl
@[simp] theorem State.modFrame_harts (k : Nat) (f : W64 → W64) : (s.modFrame k f).harts = s.harts := rfl
@[simp] theorem State.modFrame_refusedNodes (k : Nat) (f : W64 → W64) : (s.modFrame k f).refusedNodes = s.refusedNodes := rfl
@[simp] theorem State.modFrame_ports (k : Nat) (f : W64 → W64) : (s.modFrame k f).ports = s.ports := rfl
@[simp] theorem State.modFrame_errors (k : Nat) (f : W64 → W64) : (s.modFrame k f).errors = s.errors := rfl
@[simp] theorem State.modFrame_violations (k : Nat) (f : W64 → W64) : (s.modFrame k f).violations = s.violations := rfl
@[simp] theorem State.modFrame_rowErrors (k : Nat) (f : W64 → W64) : (s.modFrame k f).rowErrors = s.rowErrors := rfl
@[simp] theorem State.modFrame_sramErrors (k : Nat) (f : W64 → W64) : (s.modFrame k f).sramErrors = s.sramErrors := rfl
@[simp] theorem State.modFrame_retireDue (k : Nat) (f : W64 → W64) : (s.modFrame k f).retireDue = s.retireDue := rfl
@[simp] theorem State.modFrame_retired (k : Nat) (f : W64 → W64) : (s.modFrame k f).retired = s.retired := rfl
@[simp] theorem State.modFrame_unowned (k : Nat) (f : W64 → W64) : (s.modFrame k f).unowned = s.unowned := rfl
@[simp] theorem State.modFrame_regs (k : Nat) (f : W64 → W64) : (s.modFrame k f).regs = s.regs := rfl
@[simp] theorem State.modFrame_dies (k : Nat) (f : W64 → W64) : (s.modFrame k f).dies = s.dies := rfl

/-! ## Readers after updates -/

theorem State.modCtx_eq (g : Nat) (f : Ctx → Ctx) : s.modCtx g f = s.setCtx g (f (s.ctx g)) := rfl
theorem State.modCore_eq (k : Nat) (f : Core → Core) : s.modCore k f = s.setCore k (f (s.core k)) := rfl

@[simp] theorem State.ctx_setCtx_same (k : Nat) (c : Ctx) : (s.setCtx k c).ctx k = c := tget_tset_same ..
@[simp] theorem State.ctx_setCtx_other {k j : Nat} (c : Ctx) (h : j ≠ k) : (s.setCtx k c).ctx j = s.ctx j := tget_tset_other _ _ _ h
@[simp] theorem State.core_setCore_same (k : Nat) (c : Core) : (s.setCore k c).core k = c := tget_tset_same ..
@[simp] theorem State.core_setCore_other {k j : Nat} (c : Core) (h : j ≠ k) : (s.setCore k c).core j = s.core j := tget_tset_other _ _ _ h
@[simp] theorem State.array_setArray_same (k : Nat) (a : MArray) : (s.setArray k a).array k = a := tget_tset_same ..
@[simp] theorem State.array_setArray_other {k j : Nat} (a : MArray) (h : j ≠ k) : (s.setArray k a).array j = s.array j := tget_tset_other _ _ _ h
@[simp] theorem State.cluster_setCluster_same (k : Nat) (c : Cluster) : (s.setCluster k c).cluster k = c := tget_tset_same ..
@[simp] theorem State.cluster_setCluster_other {k j : Nat} (c : Cluster) (h : j ≠ k) : (s.setCluster k c).cluster j = s.cluster j := tget_tset_other _ _ _ h
@[simp] theorem State.ctx_modCtx_same (k : Nat) (f : Ctx → Ctx) : (s.modCtx k f).ctx k = f (s.ctx k) := tget_tset_same ..
@[simp] theorem State.ctx_modCtx_other {k j : Nat} (f : Ctx → Ctx) (h : j ≠ k) : (s.modCtx k f).ctx j = s.ctx j := tget_tset_other _ _ _ h
@[simp] theorem State.core_modCore_same (k : Nat) (f : Core → Core) : (s.modCore k f).core k = f (s.core k) := tget_tset_same ..
@[simp] theorem State.core_modCore_other {k j : Nat} (f : Core → Core) (h : j ≠ k) : (s.modCore k f).core j = s.core j := tget_tset_other _ _ _ h
@[simp] theorem State.array_modArray_same (k : Nat) (f : MArray → MArray) : (s.modArray k f).array k = f (s.array k) := tget_tset_same ..
@[simp] theorem State.array_modArray_other {k j : Nat} (f : MArray → MArray) (h : j ≠ k) : (s.modArray k f).array j = s.array j := tget_tset_other _ _ _ h
@[simp] theorem State.cluster_modCluster_same (k : Nat) (f : Cluster → Cluster) : (s.modCluster k f).cluster k = f (s.cluster k) := tget_tset_same ..
@[simp] theorem State.cluster_modCluster_other {k j : Nat} (f : Cluster → Cluster) (h : j ≠ k) : (s.modCluster k f).cluster j = s.cluster j := tget_tset_other _ _ _ h
@[simp] theorem State.die_modDie_same (k : Nat) (f : Die → Die) : (s.modDie k f).die k = f (s.die k) := tget_tset_same ..
@[simp] theorem State.die_modDie_other {k j : Nat} (f : Die → Die) (h : j ≠ k) : (s.modDie k f).die j = s.die j := tget_tset_other _ _ _ h
@[simp] theorem State.group_modGroup_same (k : Nat) (f : Group → Group) : (s.modGroup k f).group k = f (s.group k) := tget_tset_same ..
@[simp] theorem State.group_modGroup_other {k j : Nat} (f : Group → Group) (h : j ≠ k) : (s.modGroup k f).group j = s.group j := tget_tset_other _ _ _ h
@[simp] theorem State.vault_modVault_same (k : Nat) (f : Vault → Vault) : (s.modVault k f).vault k = f (s.vault k) := tget_tset_same ..
@[simp] theorem State.vault_modVault_other {k j : Nat} (f : Vault → Vault) (h : j ≠ k) : (s.modVault k f).vault j = s.vault j := tget_tset_other _ _ _ h
@[simp] theorem State.part_modPart_same (k : Nat) (f : Part → Part) : (s.modPart k f).part k = f (s.part k) := tget_tset_same ..
@[simp] theorem State.part_modPart_other {k j : Nat} (f : Part → Part) (h : j ≠ k) : (s.modPart k f).part j = s.part j := tget_tset_other _ _ _ h
@[simp] theorem State.vf_modVf_same (k : Nat) (f : Vf → Vf) : (s.modVf k f).vf k = f (s.vf k) := tget_tset_same ..
@[simp] theorem State.vf_modVf_other {k j : Nat} (f : Vf → Vf) (h : j ≠ k) : (s.modVf k f).vf j = s.vf j := tget_tset_other _ _ _ h
@[simp] theorem State.frame_setFrame_same (k : Nat) (e : W64) : (s.setFrame k e).frame k = e := tget_tset_same ..
@[simp] theorem State.frame_setFrame_other {k j : Nat} (e : W64) (h : j ≠ k) : (s.setFrame k e).frame j = s.frame j :=
  tget_tset_other _ _ _ h

@[simp] theorem State.frame_modFrame_same (k : Nat) (f : W64 → W64) : (s.modFrame k f).frame k = f (s.frame k) := tget_tset_same ..
@[simp] theorem State.frame_modFrame_other {k j : Nat} (f : W64 → W64) (h : j ≠ k) : (s.modFrame k f).frame j = s.frame j :=
  tget_tset_other _ _ _ h
@[simp] theorem State.hart_modHart_same (k : Nat) (f : Hart → Hart) : (s.modHart k f).hart k = f (s.hart k) := tget_tset_same ..
@[simp] theorem State.hart_modHart_other {k j : Nat} (f : Hart → Hart) (h : j ≠ k) : (s.modHart k f).hart j = s.hart j :=
  tget_tset_other _ _ _ h
@[simp] theorem State.port_modPort_same (k : Nat) (f : Port → Port) : (s.modPort k f).port k = f (s.port k) := tget_tset_same ..
@[simp] theorem State.port_modPort_other {k j : Nat} (f : Port → Port) (h : j ≠ k) : (s.modPort k f).port j = s.port j :=
  tget_tset_other _ _ _ h

/-! ## Readers of the tables an update leaves -/

@[simp] theorem State.core_setCtx (g : Nat) (c : Ctx) (n : Nat) : (s.setCtx g c).core n = s.core n := rfl
@[simp] theorem State.array_setCtx (g : Nat) (c : Ctx) (n : Nat) : (s.setCtx g c).array n = s.array n := rfl
@[simp] theorem State.cluster_setCtx (g : Nat) (c : Ctx) (n : Nat) : (s.setCtx g c).cluster n = s.cluster n := rfl
@[simp] theorem State.die_setCtx (g : Nat) (c : Ctx) (n : Nat) : (s.setCtx g c).die n = s.die n := rfl
@[simp] theorem State.group_setCtx (g : Nat) (c : Ctx) (n : Nat) : (s.setCtx g c).group n = s.group n := rfl
@[simp] theorem State.vault_setCtx (g : Nat) (c : Ctx) (n : Nat) : (s.setCtx g c).vault n = s.vault n := rfl
@[simp] theorem State.part_setCtx (g : Nat) (c : Ctx) (n : Nat) : (s.setCtx g c).part n = s.part n := rfl
@[simp] theorem State.vf_setCtx (g : Nat) (c : Ctx) (n : Nat) : (s.setCtx g c).vf n = s.vf n := rfl
@[simp] theorem State.frame_setCtx (g : Nat) (c : Ctx) (n : Nat) : (s.setCtx g c).frame n = s.frame n := rfl
@[simp] theorem State.grant_setCtx (g : Nat) (c : Ctx) (n : Nat) : (s.setCtx g c).grant n = s.grant n := rfl
@[simp] theorem State.mailbox_setCtx (g : Nat) (c : Ctx) (n : Nat) : (s.setCtx g c).mailbox n = s.mailbox n := rfl
@[simp] theorem State.hart_setCtx (g : Nat) (c : Ctx) (n : Nat) : (s.setCtx g c).hart n = s.hart n := rfl
@[simp] theorem State.port_setCtx (g : Nat) (c : Ctx) (n : Nat) : (s.setCtx g c).port n = s.port n := rfl
@[simp] theorem State.core_modCtx (g : Nat) (f : Ctx → Ctx) (n : Nat) : (s.modCtx g f).core n = s.core n := rfl
@[simp] theorem State.array_modCtx (g : Nat) (f : Ctx → Ctx) (n : Nat) : (s.modCtx g f).array n = s.array n := rfl
@[simp] theorem State.cluster_modCtx (g : Nat) (f : Ctx → Ctx) (n : Nat) : (s.modCtx g f).cluster n = s.cluster n := rfl
@[simp] theorem State.die_modCtx (g : Nat) (f : Ctx → Ctx) (n : Nat) : (s.modCtx g f).die n = s.die n := rfl
@[simp] theorem State.group_modCtx (g : Nat) (f : Ctx → Ctx) (n : Nat) : (s.modCtx g f).group n = s.group n := rfl
@[simp] theorem State.vault_modCtx (g : Nat) (f : Ctx → Ctx) (n : Nat) : (s.modCtx g f).vault n = s.vault n := rfl
@[simp] theorem State.part_modCtx (g : Nat) (f : Ctx → Ctx) (n : Nat) : (s.modCtx g f).part n = s.part n := rfl
@[simp] theorem State.vf_modCtx (g : Nat) (f : Ctx → Ctx) (n : Nat) : (s.modCtx g f).vf n = s.vf n := rfl
@[simp] theorem State.frame_modCtx (g : Nat) (f : Ctx → Ctx) (n : Nat) : (s.modCtx g f).frame n = s.frame n := rfl
@[simp] theorem State.grant_modCtx (g : Nat) (f : Ctx → Ctx) (n : Nat) : (s.modCtx g f).grant n = s.grant n := rfl
@[simp] theorem State.mailbox_modCtx (g : Nat) (f : Ctx → Ctx) (n : Nat) : (s.modCtx g f).mailbox n = s.mailbox n := rfl
@[simp] theorem State.hart_modCtx (g : Nat) (f : Ctx → Ctx) (n : Nat) : (s.modCtx g f).hart n = s.hart n := rfl
@[simp] theorem State.port_modCtx (g : Nat) (f : Ctx → Ctx) (n : Nat) : (s.modCtx g f).port n = s.port n := rfl
@[simp] theorem State.ctx_setCore (k : Nat) (c : Core) (n : Nat) : (s.setCore k c).ctx n = s.ctx n := rfl
@[simp] theorem State.array_setCore (k : Nat) (c : Core) (n : Nat) : (s.setCore k c).array n = s.array n := rfl
@[simp] theorem State.cluster_setCore (k : Nat) (c : Core) (n : Nat) : (s.setCore k c).cluster n = s.cluster n := rfl
@[simp] theorem State.die_setCore (k : Nat) (c : Core) (n : Nat) : (s.setCore k c).die n = s.die n := rfl
@[simp] theorem State.group_setCore (k : Nat) (c : Core) (n : Nat) : (s.setCore k c).group n = s.group n := rfl
@[simp] theorem State.vault_setCore (k : Nat) (c : Core) (n : Nat) : (s.setCore k c).vault n = s.vault n := rfl
@[simp] theorem State.part_setCore (k : Nat) (c : Core) (n : Nat) : (s.setCore k c).part n = s.part n := rfl
@[simp] theorem State.vf_setCore (k : Nat) (c : Core) (n : Nat) : (s.setCore k c).vf n = s.vf n := rfl
@[simp] theorem State.frame_setCore (k : Nat) (c : Core) (n : Nat) : (s.setCore k c).frame n = s.frame n := rfl
@[simp] theorem State.grant_setCore (k : Nat) (c : Core) (n : Nat) : (s.setCore k c).grant n = s.grant n := rfl
@[simp] theorem State.mailbox_setCore (k : Nat) (c : Core) (n : Nat) : (s.setCore k c).mailbox n = s.mailbox n := rfl
@[simp] theorem State.hart_setCore (k : Nat) (c : Core) (n : Nat) : (s.setCore k c).hart n = s.hart n := rfl
@[simp] theorem State.port_setCore (k : Nat) (c : Core) (n : Nat) : (s.setCore k c).port n = s.port n := rfl
@[simp] theorem State.ctx_modCore (k : Nat) (f : Core → Core) (n : Nat) : (s.modCore k f).ctx n = s.ctx n := rfl
@[simp] theorem State.array_modCore (k : Nat) (f : Core → Core) (n : Nat) : (s.modCore k f).array n = s.array n := rfl
@[simp] theorem State.cluster_modCore (k : Nat) (f : Core → Core) (n : Nat) : (s.modCore k f).cluster n = s.cluster n := rfl
@[simp] theorem State.die_modCore (k : Nat) (f : Core → Core) (n : Nat) : (s.modCore k f).die n = s.die n := rfl
@[simp] theorem State.group_modCore (k : Nat) (f : Core → Core) (n : Nat) : (s.modCore k f).group n = s.group n := rfl
@[simp] theorem State.vault_modCore (k : Nat) (f : Core → Core) (n : Nat) : (s.modCore k f).vault n = s.vault n := rfl
@[simp] theorem State.part_modCore (k : Nat) (f : Core → Core) (n : Nat) : (s.modCore k f).part n = s.part n := rfl
@[simp] theorem State.vf_modCore (k : Nat) (f : Core → Core) (n : Nat) : (s.modCore k f).vf n = s.vf n := rfl
@[simp] theorem State.frame_modCore (k : Nat) (f : Core → Core) (n : Nat) : (s.modCore k f).frame n = s.frame n := rfl
@[simp] theorem State.grant_modCore (k : Nat) (f : Core → Core) (n : Nat) : (s.modCore k f).grant n = s.grant n := rfl
@[simp] theorem State.mailbox_modCore (k : Nat) (f : Core → Core) (n : Nat) : (s.modCore k f).mailbox n = s.mailbox n := rfl
@[simp] theorem State.hart_modCore (k : Nat) (f : Core → Core) (n : Nat) : (s.modCore k f).hart n = s.hart n := rfl
@[simp] theorem State.port_modCore (k : Nat) (f : Core → Core) (n : Nat) : (s.modCore k f).port n = s.port n := rfl
@[simp] theorem State.ctx_setArray (k : Nat) (a : MArray) (n : Nat) : (s.setArray k a).ctx n = s.ctx n := rfl
@[simp] theorem State.core_setArray (k : Nat) (a : MArray) (n : Nat) : (s.setArray k a).core n = s.core n := rfl
@[simp] theorem State.cluster_setArray (k : Nat) (a : MArray) (n : Nat) : (s.setArray k a).cluster n = s.cluster n := rfl
@[simp] theorem State.die_setArray (k : Nat) (a : MArray) (n : Nat) : (s.setArray k a).die n = s.die n := rfl
@[simp] theorem State.group_setArray (k : Nat) (a : MArray) (n : Nat) : (s.setArray k a).group n = s.group n := rfl
@[simp] theorem State.vault_setArray (k : Nat) (a : MArray) (n : Nat) : (s.setArray k a).vault n = s.vault n := rfl
@[simp] theorem State.part_setArray (k : Nat) (a : MArray) (n : Nat) : (s.setArray k a).part n = s.part n := rfl
@[simp] theorem State.vf_setArray (k : Nat) (a : MArray) (n : Nat) : (s.setArray k a).vf n = s.vf n := rfl
@[simp] theorem State.frame_setArray (k : Nat) (a : MArray) (n : Nat) : (s.setArray k a).frame n = s.frame n := rfl
@[simp] theorem State.grant_setArray (k : Nat) (a : MArray) (n : Nat) : (s.setArray k a).grant n = s.grant n := rfl
@[simp] theorem State.mailbox_setArray (k : Nat) (a : MArray) (n : Nat) : (s.setArray k a).mailbox n = s.mailbox n := rfl
@[simp] theorem State.hart_setArray (k : Nat) (a : MArray) (n : Nat) : (s.setArray k a).hart n = s.hart n := rfl
@[simp] theorem State.port_setArray (k : Nat) (a : MArray) (n : Nat) : (s.setArray k a).port n = s.port n := rfl
@[simp] theorem State.ctx_modArray (k : Nat) (f : MArray → MArray) (n : Nat) : (s.modArray k f).ctx n = s.ctx n := rfl
@[simp] theorem State.core_modArray (k : Nat) (f : MArray → MArray) (n : Nat) : (s.modArray k f).core n = s.core n := rfl
@[simp] theorem State.cluster_modArray (k : Nat) (f : MArray → MArray) (n : Nat) : (s.modArray k f).cluster n = s.cluster n := rfl
@[simp] theorem State.die_modArray (k : Nat) (f : MArray → MArray) (n : Nat) : (s.modArray k f).die n = s.die n := rfl
@[simp] theorem State.group_modArray (k : Nat) (f : MArray → MArray) (n : Nat) : (s.modArray k f).group n = s.group n := rfl
@[simp] theorem State.vault_modArray (k : Nat) (f : MArray → MArray) (n : Nat) : (s.modArray k f).vault n = s.vault n := rfl
@[simp] theorem State.part_modArray (k : Nat) (f : MArray → MArray) (n : Nat) : (s.modArray k f).part n = s.part n := rfl
@[simp] theorem State.vf_modArray (k : Nat) (f : MArray → MArray) (n : Nat) : (s.modArray k f).vf n = s.vf n := rfl
@[simp] theorem State.frame_modArray (k : Nat) (f : MArray → MArray) (n : Nat) : (s.modArray k f).frame n = s.frame n := rfl
@[simp] theorem State.grant_modArray (k : Nat) (f : MArray → MArray) (n : Nat) : (s.modArray k f).grant n = s.grant n := rfl
@[simp] theorem State.mailbox_modArray (k : Nat) (f : MArray → MArray) (n : Nat) : (s.modArray k f).mailbox n = s.mailbox n := rfl
@[simp] theorem State.hart_modArray (k : Nat) (f : MArray → MArray) (n : Nat) : (s.modArray k f).hart n = s.hart n := rfl
@[simp] theorem State.port_modArray (k : Nat) (f : MArray → MArray) (n : Nat) : (s.modArray k f).port n = s.port n := rfl
@[simp] theorem State.ctx_setCluster (k : Nat) (c : Cluster) (n : Nat) : (s.setCluster k c).ctx n = s.ctx n := rfl
@[simp] theorem State.core_setCluster (k : Nat) (c : Cluster) (n : Nat) : (s.setCluster k c).core n = s.core n := rfl
@[simp] theorem State.array_setCluster (k : Nat) (c : Cluster) (n : Nat) : (s.setCluster k c).array n = s.array n := rfl
@[simp] theorem State.die_setCluster (k : Nat) (c : Cluster) (n : Nat) : (s.setCluster k c).die n = s.die n := rfl
@[simp] theorem State.group_setCluster (k : Nat) (c : Cluster) (n : Nat) : (s.setCluster k c).group n = s.group n := rfl
@[simp] theorem State.vault_setCluster (k : Nat) (c : Cluster) (n : Nat) : (s.setCluster k c).vault n = s.vault n := rfl
@[simp] theorem State.part_setCluster (k : Nat) (c : Cluster) (n : Nat) : (s.setCluster k c).part n = s.part n := rfl
@[simp] theorem State.vf_setCluster (k : Nat) (c : Cluster) (n : Nat) : (s.setCluster k c).vf n = s.vf n := rfl
@[simp] theorem State.frame_setCluster (k : Nat) (c : Cluster) (n : Nat) : (s.setCluster k c).frame n = s.frame n := rfl
@[simp] theorem State.grant_setCluster (k : Nat) (c : Cluster) (n : Nat) : (s.setCluster k c).grant n = s.grant n := rfl
@[simp] theorem State.mailbox_setCluster (k : Nat) (c : Cluster) (n : Nat) : (s.setCluster k c).mailbox n = s.mailbox n := rfl
@[simp] theorem State.hart_setCluster (k : Nat) (c : Cluster) (n : Nat) : (s.setCluster k c).hart n = s.hart n := rfl
@[simp] theorem State.port_setCluster (k : Nat) (c : Cluster) (n : Nat) : (s.setCluster k c).port n = s.port n := rfl
@[simp] theorem State.ctx_modCluster (k : Nat) (f : Cluster → Cluster) (n : Nat) : (s.modCluster k f).ctx n = s.ctx n := rfl
@[simp] theorem State.core_modCluster (k : Nat) (f : Cluster → Cluster) (n : Nat) : (s.modCluster k f).core n = s.core n := rfl
@[simp] theorem State.array_modCluster (k : Nat) (f : Cluster → Cluster) (n : Nat) : (s.modCluster k f).array n = s.array n := rfl
@[simp] theorem State.die_modCluster (k : Nat) (f : Cluster → Cluster) (n : Nat) : (s.modCluster k f).die n = s.die n := rfl
@[simp] theorem State.group_modCluster (k : Nat) (f : Cluster → Cluster) (n : Nat) : (s.modCluster k f).group n = s.group n := rfl
@[simp] theorem State.vault_modCluster (k : Nat) (f : Cluster → Cluster) (n : Nat) : (s.modCluster k f).vault n = s.vault n := rfl
@[simp] theorem State.part_modCluster (k : Nat) (f : Cluster → Cluster) (n : Nat) : (s.modCluster k f).part n = s.part n := rfl
@[simp] theorem State.vf_modCluster (k : Nat) (f : Cluster → Cluster) (n : Nat) : (s.modCluster k f).vf n = s.vf n := rfl
@[simp] theorem State.frame_modCluster (k : Nat) (f : Cluster → Cluster) (n : Nat) : (s.modCluster k f).frame n = s.frame n := rfl
@[simp] theorem State.grant_modCluster (k : Nat) (f : Cluster → Cluster) (n : Nat) : (s.modCluster k f).grant n = s.grant n := rfl
@[simp] theorem State.mailbox_modCluster (k : Nat) (f : Cluster → Cluster) (n : Nat) : (s.modCluster k f).mailbox n = s.mailbox n := rfl
@[simp] theorem State.hart_modCluster (k : Nat) (f : Cluster → Cluster) (n : Nat) : (s.modCluster k f).hart n = s.hart n := rfl
@[simp] theorem State.port_modCluster (k : Nat) (f : Cluster → Cluster) (n : Nat) : (s.modCluster k f).port n = s.port n := rfl
@[simp] theorem State.ctx_modDie (k : Nat) (f : Die → Die) (n : Nat) : (s.modDie k f).ctx n = s.ctx n := rfl
@[simp] theorem State.core_modDie (k : Nat) (f : Die → Die) (n : Nat) : (s.modDie k f).core n = s.core n := rfl
@[simp] theorem State.array_modDie (k : Nat) (f : Die → Die) (n : Nat) : (s.modDie k f).array n = s.array n := rfl
@[simp] theorem State.cluster_modDie (k : Nat) (f : Die → Die) (n : Nat) : (s.modDie k f).cluster n = s.cluster n := rfl
@[simp] theorem State.group_modDie (k : Nat) (f : Die → Die) (n : Nat) : (s.modDie k f).group n = s.group n := rfl
@[simp] theorem State.vault_modDie (k : Nat) (f : Die → Die) (n : Nat) : (s.modDie k f).vault n = s.vault n := rfl
@[simp] theorem State.part_modDie (k : Nat) (f : Die → Die) (n : Nat) : (s.modDie k f).part n = s.part n := rfl
@[simp] theorem State.vf_modDie (k : Nat) (f : Die → Die) (n : Nat) : (s.modDie k f).vf n = s.vf n := rfl
@[simp] theorem State.frame_modDie (k : Nat) (f : Die → Die) (n : Nat) : (s.modDie k f).frame n = s.frame n := rfl
@[simp] theorem State.grant_modDie (k : Nat) (f : Die → Die) (n : Nat) : (s.modDie k f).grant n = s.grant n := rfl
@[simp] theorem State.mailbox_modDie (k : Nat) (f : Die → Die) (n : Nat) : (s.modDie k f).mailbox n = s.mailbox n := rfl
@[simp] theorem State.hart_modDie (k : Nat) (f : Die → Die) (n : Nat) : (s.modDie k f).hart n = s.hart n := rfl
@[simp] theorem State.port_modDie (k : Nat) (f : Die → Die) (n : Nat) : (s.modDie k f).port n = s.port n := rfl
@[simp] theorem State.ctx_modGroup (k : Nat) (f : Group → Group) (n : Nat) : (s.modGroup k f).ctx n = s.ctx n := rfl
@[simp] theorem State.core_modGroup (k : Nat) (f : Group → Group) (n : Nat) : (s.modGroup k f).core n = s.core n := rfl
@[simp] theorem State.array_modGroup (k : Nat) (f : Group → Group) (n : Nat) : (s.modGroup k f).array n = s.array n := rfl
@[simp] theorem State.cluster_modGroup (k : Nat) (f : Group → Group) (n : Nat) : (s.modGroup k f).cluster n = s.cluster n := rfl
@[simp] theorem State.die_modGroup (k : Nat) (f : Group → Group) (n : Nat) : (s.modGroup k f).die n = s.die n := rfl
@[simp] theorem State.vault_modGroup (k : Nat) (f : Group → Group) (n : Nat) : (s.modGroup k f).vault n = s.vault n := rfl
@[simp] theorem State.part_modGroup (k : Nat) (f : Group → Group) (n : Nat) : (s.modGroup k f).part n = s.part n := rfl
@[simp] theorem State.vf_modGroup (k : Nat) (f : Group → Group) (n : Nat) : (s.modGroup k f).vf n = s.vf n := rfl
@[simp] theorem State.frame_modGroup (k : Nat) (f : Group → Group) (n : Nat) : (s.modGroup k f).frame n = s.frame n := rfl
@[simp] theorem State.grant_modGroup (k : Nat) (f : Group → Group) (n : Nat) : (s.modGroup k f).grant n = s.grant n := rfl
@[simp] theorem State.mailbox_modGroup (k : Nat) (f : Group → Group) (n : Nat) : (s.modGroup k f).mailbox n = s.mailbox n := rfl
@[simp] theorem State.hart_modGroup (k : Nat) (f : Group → Group) (n : Nat) : (s.modGroup k f).hart n = s.hart n := rfl
@[simp] theorem State.port_modGroup (k : Nat) (f : Group → Group) (n : Nat) : (s.modGroup k f).port n = s.port n := rfl
@[simp] theorem State.ctx_modVault (k : Nat) (f : Vault → Vault) (n : Nat) : (s.modVault k f).ctx n = s.ctx n := rfl
@[simp] theorem State.core_modVault (k : Nat) (f : Vault → Vault) (n : Nat) : (s.modVault k f).core n = s.core n := rfl
@[simp] theorem State.array_modVault (k : Nat) (f : Vault → Vault) (n : Nat) : (s.modVault k f).array n = s.array n := rfl
@[simp] theorem State.cluster_modVault (k : Nat) (f : Vault → Vault) (n : Nat) : (s.modVault k f).cluster n = s.cluster n := rfl
@[simp] theorem State.die_modVault (k : Nat) (f : Vault → Vault) (n : Nat) : (s.modVault k f).die n = s.die n := rfl
@[simp] theorem State.group_modVault (k : Nat) (f : Vault → Vault) (n : Nat) : (s.modVault k f).group n = s.group n := rfl
@[simp] theorem State.part_modVault (k : Nat) (f : Vault → Vault) (n : Nat) : (s.modVault k f).part n = s.part n := rfl
@[simp] theorem State.vf_modVault (k : Nat) (f : Vault → Vault) (n : Nat) : (s.modVault k f).vf n = s.vf n := rfl
@[simp] theorem State.frame_modVault (k : Nat) (f : Vault → Vault) (n : Nat) : (s.modVault k f).frame n = s.frame n := rfl
@[simp] theorem State.grant_modVault (k : Nat) (f : Vault → Vault) (n : Nat) : (s.modVault k f).grant n = s.grant n := rfl
@[simp] theorem State.mailbox_modVault (k : Nat) (f : Vault → Vault) (n : Nat) : (s.modVault k f).mailbox n = s.mailbox n := rfl
@[simp] theorem State.hart_modVault (k : Nat) (f : Vault → Vault) (n : Nat) : (s.modVault k f).hart n = s.hart n := rfl
@[simp] theorem State.port_modVault (k : Nat) (f : Vault → Vault) (n : Nat) : (s.modVault k f).port n = s.port n := rfl
@[simp] theorem State.ctx_modPart (k : Nat) (f : Part → Part) (n : Nat) : (s.modPart k f).ctx n = s.ctx n := rfl
@[simp] theorem State.core_modPart (k : Nat) (f : Part → Part) (n : Nat) : (s.modPart k f).core n = s.core n := rfl
@[simp] theorem State.array_modPart (k : Nat) (f : Part → Part) (n : Nat) : (s.modPart k f).array n = s.array n := rfl
@[simp] theorem State.cluster_modPart (k : Nat) (f : Part → Part) (n : Nat) : (s.modPart k f).cluster n = s.cluster n := rfl
@[simp] theorem State.die_modPart (k : Nat) (f : Part → Part) (n : Nat) : (s.modPart k f).die n = s.die n := rfl
@[simp] theorem State.group_modPart (k : Nat) (f : Part → Part) (n : Nat) : (s.modPart k f).group n = s.group n := rfl
@[simp] theorem State.vault_modPart (k : Nat) (f : Part → Part) (n : Nat) : (s.modPart k f).vault n = s.vault n := rfl
@[simp] theorem State.vf_modPart (k : Nat) (f : Part → Part) (n : Nat) : (s.modPart k f).vf n = s.vf n := rfl
@[simp] theorem State.frame_modPart (k : Nat) (f : Part → Part) (n : Nat) : (s.modPart k f).frame n = s.frame n := rfl
@[simp] theorem State.grant_modPart (k : Nat) (f : Part → Part) (n : Nat) : (s.modPart k f).grant n = s.grant n := rfl
@[simp] theorem State.mailbox_modPart (k : Nat) (f : Part → Part) (n : Nat) : (s.modPart k f).mailbox n = s.mailbox n := rfl
@[simp] theorem State.hart_modPart (k : Nat) (f : Part → Part) (n : Nat) : (s.modPart k f).hart n = s.hart n := rfl
@[simp] theorem State.port_modPart (k : Nat) (f : Part → Part) (n : Nat) : (s.modPart k f).port n = s.port n := rfl
@[simp] theorem State.ctx_modVf (k : Nat) (f : Vf → Vf) (n : Nat) : (s.modVf k f).ctx n = s.ctx n := rfl
@[simp] theorem State.core_modVf (k : Nat) (f : Vf → Vf) (n : Nat) : (s.modVf k f).core n = s.core n := rfl
@[simp] theorem State.array_modVf (k : Nat) (f : Vf → Vf) (n : Nat) : (s.modVf k f).array n = s.array n := rfl
@[simp] theorem State.cluster_modVf (k : Nat) (f : Vf → Vf) (n : Nat) : (s.modVf k f).cluster n = s.cluster n := rfl
@[simp] theorem State.die_modVf (k : Nat) (f : Vf → Vf) (n : Nat) : (s.modVf k f).die n = s.die n := rfl
@[simp] theorem State.group_modVf (k : Nat) (f : Vf → Vf) (n : Nat) : (s.modVf k f).group n = s.group n := rfl
@[simp] theorem State.vault_modVf (k : Nat) (f : Vf → Vf) (n : Nat) : (s.modVf k f).vault n = s.vault n := rfl
@[simp] theorem State.part_modVf (k : Nat) (f : Vf → Vf) (n : Nat) : (s.modVf k f).part n = s.part n := rfl
@[simp] theorem State.frame_modVf (k : Nat) (f : Vf → Vf) (n : Nat) : (s.modVf k f).frame n = s.frame n := rfl
@[simp] theorem State.grant_modVf (k : Nat) (f : Vf → Vf) (n : Nat) : (s.modVf k f).grant n = s.grant n := rfl
@[simp] theorem State.mailbox_modVf (k : Nat) (f : Vf → Vf) (n : Nat) : (s.modVf k f).mailbox n = s.mailbox n := rfl
@[simp] theorem State.hart_modVf (k : Nat) (f : Vf → Vf) (n : Nat) : (s.modVf k f).hart n = s.hart n := rfl
@[simp] theorem State.port_modVf (k : Nat) (f : Vf → Vf) (n : Nat) : (s.modVf k f).port n = s.port n := rfl
@[simp] theorem State.ctx_setFrame (k : Nat) (e : W64) (n : Nat) : (s.setFrame k e).ctx n = s.ctx n := rfl
@[simp] theorem State.core_setFrame (k : Nat) (e : W64) (n : Nat) : (s.setFrame k e).core n = s.core n := rfl
@[simp] theorem State.array_setFrame (k : Nat) (e : W64) (n : Nat) : (s.setFrame k e).array n = s.array n := rfl
@[simp] theorem State.cluster_setFrame (k : Nat) (e : W64) (n : Nat) : (s.setFrame k e).cluster n = s.cluster n := rfl
@[simp] theorem State.die_setFrame (k : Nat) (e : W64) (n : Nat) : (s.setFrame k e).die n = s.die n := rfl
@[simp] theorem State.group_setFrame (k : Nat) (e : W64) (n : Nat) : (s.setFrame k e).group n = s.group n := rfl
@[simp] theorem State.vault_setFrame (k : Nat) (e : W64) (n : Nat) : (s.setFrame k e).vault n = s.vault n := rfl
@[simp] theorem State.part_setFrame (k : Nat) (e : W64) (n : Nat) : (s.setFrame k e).part n = s.part n := rfl
@[simp] theorem State.vf_setFrame (k : Nat) (e : W64) (n : Nat) : (s.setFrame k e).vf n = s.vf n := rfl
@[simp] theorem State.grant_setFrame (k : Nat) (e : W64) (n : Nat) : (s.setFrame k e).grant n = s.grant n := rfl
@[simp] theorem State.mailbox_setFrame (k : Nat) (e : W64) (n : Nat) : (s.setFrame k e).mailbox n = s.mailbox n := rfl
@[simp] theorem State.hart_setFrame (k : Nat) (e : W64) (n : Nat) : (s.setFrame k e).hart n = s.hart n := rfl
@[simp] theorem State.port_setFrame (k : Nat) (e : W64) (n : Nat) : (s.setFrame k e).port n = s.port n := rfl
@[simp] theorem State.ctx_bump (n : Nat) : (s.bump ).ctx n = s.ctx n := rfl
@[simp] theorem State.core_bump (n : Nat) : (s.bump ).core n = s.core n := rfl
@[simp] theorem State.array_bump (n : Nat) : (s.bump ).array n = s.array n := rfl
@[simp] theorem State.cluster_bump (n : Nat) : (s.bump ).cluster n = s.cluster n := rfl
@[simp] theorem State.die_bump (n : Nat) : (s.bump ).die n = s.die n := rfl
@[simp] theorem State.group_bump (n : Nat) : (s.bump ).group n = s.group n := rfl
@[simp] theorem State.vault_bump (n : Nat) : (s.bump ).vault n = s.vault n := rfl
@[simp] theorem State.part_bump (n : Nat) : (s.bump ).part n = s.part n := rfl
@[simp] theorem State.vf_bump (n : Nat) : (s.bump ).vf n = s.vf n := rfl
@[simp] theorem State.frame_bump (n : Nat) : (s.bump ).frame n = s.frame n := rfl
@[simp] theorem State.grant_bump (n : Nat) : (s.bump ).grant n = s.grant n := rfl
@[simp] theorem State.mailbox_bump (n : Nat) : (s.bump ).mailbox n = s.mailbox n := rfl
@[simp] theorem State.hart_bump (n : Nat) : (s.bump ).hart n = s.hart n := rfl
@[simp] theorem State.port_bump (n : Nat) : (s.bump ).port n = s.port n := rfl
@[simp] theorem State.ctx_modHart (k : Nat) (f : Hart → Hart) (n : Nat) : (s.modHart k f).ctx n = s.ctx n := rfl
@[simp] theorem State.core_modHart (k : Nat) (f : Hart → Hart) (n : Nat) : (s.modHart k f).core n = s.core n := rfl
@[simp] theorem State.array_modHart (k : Nat) (f : Hart → Hart) (n : Nat) : (s.modHart k f).array n = s.array n := rfl
@[simp] theorem State.cluster_modHart (k : Nat) (f : Hart → Hart) (n : Nat) : (s.modHart k f).cluster n = s.cluster n := rfl
@[simp] theorem State.die_modHart (k : Nat) (f : Hart → Hart) (n : Nat) : (s.modHart k f).die n = s.die n := rfl
@[simp] theorem State.group_modHart (k : Nat) (f : Hart → Hart) (n : Nat) : (s.modHart k f).group n = s.group n := rfl
@[simp] theorem State.vault_modHart (k : Nat) (f : Hart → Hart) (n : Nat) : (s.modHart k f).vault n = s.vault n := rfl
@[simp] theorem State.part_modHart (k : Nat) (f : Hart → Hart) (n : Nat) : (s.modHart k f).part n = s.part n := rfl
@[simp] theorem State.vf_modHart (k : Nat) (f : Hart → Hart) (n : Nat) : (s.modHart k f).vf n = s.vf n := rfl
@[simp] theorem State.frame_modHart (k : Nat) (f : Hart → Hart) (n : Nat) : (s.modHart k f).frame n = s.frame n := rfl
@[simp] theorem State.grant_modHart (k : Nat) (f : Hart → Hart) (n : Nat) : (s.modHart k f).grant n = s.grant n := rfl
@[simp] theorem State.mailbox_modHart (k : Nat) (f : Hart → Hart) (n : Nat) : (s.modHart k f).mailbox n = s.mailbox n := rfl
@[simp] theorem State.port_modHart (k : Nat) (f : Hart → Hart) (n : Nat) : (s.modHart k f).port n = s.port n := rfl
@[simp] theorem State.ctx_modPort (k : Nat) (f : Port → Port) (n : Nat) : (s.modPort k f).ctx n = s.ctx n := rfl
@[simp] theorem State.core_modPort (k : Nat) (f : Port → Port) (n : Nat) : (s.modPort k f).core n = s.core n := rfl
@[simp] theorem State.array_modPort (k : Nat) (f : Port → Port) (n : Nat) : (s.modPort k f).array n = s.array n := rfl
@[simp] theorem State.cluster_modPort (k : Nat) (f : Port → Port) (n : Nat) : (s.modPort k f).cluster n = s.cluster n := rfl
@[simp] theorem State.die_modPort (k : Nat) (f : Port → Port) (n : Nat) : (s.modPort k f).die n = s.die n := rfl
@[simp] theorem State.group_modPort (k : Nat) (f : Port → Port) (n : Nat) : (s.modPort k f).group n = s.group n := rfl
@[simp] theorem State.vault_modPort (k : Nat) (f : Port → Port) (n : Nat) : (s.modPort k f).vault n = s.vault n := rfl
@[simp] theorem State.part_modPort (k : Nat) (f : Port → Port) (n : Nat) : (s.modPort k f).part n = s.part n := rfl
@[simp] theorem State.vf_modPort (k : Nat) (f : Port → Port) (n : Nat) : (s.modPort k f).vf n = s.vf n := rfl
@[simp] theorem State.frame_modPort (k : Nat) (f : Port → Port) (n : Nat) : (s.modPort k f).frame n = s.frame n := rfl
@[simp] theorem State.grant_modPort (k : Nat) (f : Port → Port) (n : Nat) : (s.modPort k f).grant n = s.grant n := rfl
@[simp] theorem State.mailbox_modPort (k : Nat) (f : Port → Port) (n : Nat) : (s.modPort k f).mailbox n = s.mailbox n := rfl
@[simp] theorem State.hart_modPort (k : Nat) (f : Port → Port) (n : Nat) : (s.modPort k f).hart n = s.hart n := rfl
@[simp] theorem State.ctx_modFrame (k : Nat) (f : W64 → W64) (n : Nat) : (s.modFrame k f).ctx n = s.ctx n := rfl
@[simp] theorem State.core_modFrame (k : Nat) (f : W64 → W64) (n : Nat) : (s.modFrame k f).core n = s.core n := rfl
@[simp] theorem State.array_modFrame (k : Nat) (f : W64 → W64) (n : Nat) : (s.modFrame k f).array n = s.array n := rfl
@[simp] theorem State.cluster_modFrame (k : Nat) (f : W64 → W64) (n : Nat) : (s.modFrame k f).cluster n = s.cluster n := rfl
@[simp] theorem State.die_modFrame (k : Nat) (f : W64 → W64) (n : Nat) : (s.modFrame k f).die n = s.die n := rfl
@[simp] theorem State.group_modFrame (k : Nat) (f : W64 → W64) (n : Nat) : (s.modFrame k f).group n = s.group n := rfl
@[simp] theorem State.vault_modFrame (k : Nat) (f : W64 → W64) (n : Nat) : (s.modFrame k f).vault n = s.vault n := rfl
@[simp] theorem State.part_modFrame (k : Nat) (f : W64 → W64) (n : Nat) : (s.modFrame k f).part n = s.part n := rfl
@[simp] theorem State.vf_modFrame (k : Nat) (f : W64 → W64) (n : Nat) : (s.modFrame k f).vf n = s.vf n := rfl
@[simp] theorem State.grant_modFrame (k : Nat) (f : W64 → W64) (n : Nat) : (s.modFrame k f).grant n = s.grant n := rfl
@[simp] theorem State.mailbox_modFrame (k : Nat) (f : W64 → W64) (n : Nat) : (s.modFrame k f).mailbox n = s.mailbox n := rfl
@[simp] theorem State.hart_modFrame (k : Nat) (f : W64 → W64) (n : Nat) : (s.modFrame k f).hart n = s.hart n := rfl
@[simp] theorem State.port_modFrame (k : Nat) (f : W64 → W64) (n : Nat) : (s.modFrame k f).port n = s.port n := rfl

end Sys2Proof.Machine
end

