-- ==== Sys2Proof/Laws/Context.lean ====
section
/-!
SUPPORT. Registers and results in flight: what a write, a landing, the start of a bundle and a squash change, said once (R46, R54, R55,
R82).
-/
set_option Elab.async false
namespace Sys2Proof.Machine

/-! ## Everything of a context but its registers, results and tags -/

/-- Two contexts that differ in registers, results in flight and CTU tags only. -/
structure SameRest (c c' : Ctx) : Prop where
  run : c'.run = c.run
  pc : c'.pc = c.pc
  bundles : c'.bundles = c.bundles
  groupWrites : c'.groupWrites = c.groupWrites
  special : SameSpecial c c'
  trap : SameTrap c c'
  place : c'.stream = c.stream ∧ c'.vf = c.vf ∧ c'.part = c.part ∧ c'.group = c.group ∧ c'.launch = c.launch
    ∧ c'.program = c.program ∧ c'.tileBase = c.tileBase ∧ c'.tileCount = c.tileCount

theorem SameSpecial.refl (c : Ctx) : SameSpecial c c :=
  ⟨⟨rfl, rfl, rfl, rfl, rfl⟩, ⟨rfl, rfl, rfl⟩, ⟨rfl, rfl⟩, rfl, ⟨rfl, rfl, rfl⟩, ⟨rfl, rfl, rfl⟩⟩

theorem SameSpecial.trans {a b c : Ctx} (h : SameSpecial a b) (k : SameSpecial b c) : SameSpecial a c := by
  obtain ⟨⟨h1, h2, h3, h4, h5⟩, ⟨h6, h7, h8⟩, ⟨h9, h10⟩, h11, ⟨h12, h13, h14⟩, ⟨h15, h16, h17⟩⟩ := h
  obtain ⟨⟨k1, k2, k3, k4, k5⟩, ⟨k6, k7, k8⟩, ⟨k9, k10⟩, k11, ⟨k12, k13, k14⟩, ⟨k15, k16, k17⟩⟩ := k
  exact ⟨⟨k1.trans h1, k2.trans h2, k3.trans h3, k4.trans h4, k5.trans h5⟩, ⟨k6.trans h6, k7.trans h7, k8.trans h8⟩,
    ⟨k9.trans h9, k10.trans h10⟩, k11.trans h11, ⟨k12.trans h12, k13.trans h13, k14.trans h14⟩,
    ⟨k15.trans h15, k16.trans h16, k17.trans h17⟩⟩

theorem SameTrap.refl (c : Ctx) : SameTrap c c := ⟨rfl, rfl, rfl, rfl, rfl, rfl⟩

theorem SameTrap.trans {a b c : Ctx} (h : SameTrap a b) (k : SameTrap b c) : SameTrap a c := by
  obtain ⟨h1, h2, h3, h4, h5, h6⟩ := h
  obtain ⟨k1, k2, k3, k4, k5, k6⟩ := k
  exact ⟨k1.trans h1, k2.trans h2, k3.trans h3, k4.trans h4, k5.trans h5, k6.trans h6⟩

theorem SameRest.refl (c : Ctx) : SameRest c c :=
  ⟨rfl, rfl, rfl, rfl, .refl c, .refl c, ⟨rfl, rfl, rfl, rfl, rfl, rfl, rfl, rfl⟩⟩

theorem SameRest.trans {a b c : Ctx} (h : SameRest a b) (k : SameRest b c) : SameRest a c where
  run := k.run.trans h.run
  pc := k.pc.trans h.pc
  bundles := k.bundles.trans h.bundles
  groupWrites := k.groupWrites.trans h.groupWrites
  special := h.special.trans k.special
  trap := h.trap.trans k.trap
  place := by
    obtain ⟨h1, h2, h3, h4, h5, h6, h7, h8⟩ := h.place
    obtain ⟨k1, k2, k3, k4, k5, k6, k7, k8⟩ := k.place
    exact ⟨k1.trans h1, k2.trans h2, k3.trans h3, k4.trans h4, k5.trans h5, k6.trans h6, k7.trans h7, k8.trans h8⟩

/-! ## One write -/

/-- A write of a register leaves the rest of the context alone. -/
theorem Ctx.write_rest (c : Ctx) (d : Dest) (v : Vec) (m : W64) : SameRest c (c.write d v m) := by
  cases d <;> simp only [Ctx.write] <;> (try split) <;>
    exact ⟨rfl, rfl, rfl, rfl, ⟨⟨rfl, rfl, rfl, rfl, rfl⟩, ⟨rfl, rfl, rfl⟩, ⟨rfl, rfl⟩, rfl, ⟨rfl, rfl, rfl⟩, ⟨rfl, rfl, rfl⟩⟩,
      ⟨rfl, rfl, rfl, rfl, rfl, rfl⟩, ⟨rfl, rfl, rfl, rfl, rfl, rfl, rfl, rfl⟩⟩

@[simp] theorem Ctx.write_flights (c : Ctx) (d : Dest) (v : Vec) (m : W64) : (c.write d v m).flights = c.flights := by
  cases d <;> simp only [Ctx.write] <;> (try split) <;> rfl

@[simp] theorem Ctx.write_bundles (c : Ctx) (d : Dest) (v : Vec) (m : W64) : (c.write d v m).bundles = c.bundles :=
  (c.write_rest d v m).bundles

/-- A write leaves every register it does not name alone (R45, R70). -/
theorem Ctx.reg_write_other (c : Ctx) (d : Dest) (v : Vec) (m : W64) (n : Name) (h : d.isName n = false) :
    (c.write d v m).reg n = c.reg n := by
  have ne {i j : Nat} (h : (i == j) = false) : j ≠ i := fun e => by simp [e] at h
  cases d with
  | s i =>
    by_cases hi : i = 0
    · simp [Ctx.write, hi]
    · cases n with
      | s j =>
        by_cases hj : j = 0
        · simp [Ctx.write, hi, hj, Ctx.reg]
        · have : j ≠ i := fun e => by simp [Dest.isName, e, hi] at h
          simp [Ctx.write, hi, hj, Ctx.reg, tget_tset_other _ _ _ this]
      | _ => simp only [Ctx.write, hi, if_false]; rfl
  | p i =>
    by_cases hi : i = 0
    · simp [Ctx.write, hi]
    · cases n with
      | p j =>
        by_cases hj : j = 0
        · simp [Ctx.write, hi, hj, Ctx.reg, Ctx.p]
        · have : j ≠ i := fun e => by simp [Dest.isName, e, hi] at h
          simp [Ctx.write, hi, hj, Ctx.reg, Ctx.p, tget_tset_other _ _ _ this]
      | _ => simp only [Ctx.write, hi, if_false]; rfl
  | v i => cases n with
    | v j => simp [Ctx.write, Ctx.reg, tget_tset_other _ _ _ (ne h)]
    | _ => rfl
  | b i => cases n with
    | b j => simp [Ctx.write, Ctx.reg, Ctx.b, tget_tset_other _ _ _ (ne h)]
    | _ => rfl
  | mp i => cases n with
    | mp j => simp [Ctx.write, Ctx.reg, Ctx.mp, tget_tset_other _ _ _ (ne h)]
    | _ => rfl
  | tc i => cases n with
    | tc j => simp [Ctx.write, Ctx.reg, Ctx.tc, tget_tset_other _ _ _ (ne h)]
    | _ => rfl
  | ck => rfl

/-- s0 and p0 discard writes (R45). -/
@[simp] theorem Ctx.write_s0 (c : Ctx) (v : Vec) (m : W64) : c.write (.s 0) v m = c := rfl
@[simp] theorem Ctx.write_p0 (c : Ctx) (v : Vec) (m : W64) : c.write (.p 0) v m = c := rfl
@[simp] theorem Ctx.s_zero (c : Ctx) : c.s 0 = 0 := rfl
@[simp] theorem Ctx.p_zero (c : Ctx) : c.p 0 = BitVec.allOnes 64 := rfl

/-- A scalar register written reads back. -/
theorem Ctx.s_write (c : Ctx) (d : BitVec 6) (x m : W64) :
    (c.write (.s d.toNat) (x.setWidth 2048) m).s d = if d = 0 then 0 else x := by
  by_cases hd : d = 0
  · simp [hd, Ctx.s]
  · have hn : d.toNat ≠ 0 := fun e => hd (BitVec.eq_of_toNat_eq (by simpa using e))
    have hx : ((x.setWidth 2048 : Vec).setWidth 64) = x := by ext i hi; simp
    simp [Ctx.write, Ctx.s, hd, hn, hx]

/-! ## The start of a bundle -/

theorem foldl_write_rest (l : List Flight) (c : Ctx) : SameRest c (l.foldl (fun c f => c.write f.dest f.val f.mask) c) := by
  induction l generalizing c with
  | nil => exact .refl c
  | cons f l ih => exact (c.write_rest ..).trans (ih _)

theorem foldl_write_flights (l : List Flight) (c : Ctx) : (l.foldl (fun c f => c.write f.dest f.val f.mask) c).flights = c.flights := by
  induction l generalizing c with
  | nil => rfl
  | cons f l ih => simpa using ih (c.write f.dest f.val f.mask)

theorem foldl_write_other (l : List Flight) (c : Ctx) (n : Name) (h : ∀ f ∈ l, f.dest.isName n = false) :
    (l.foldl (fun c f => c.write f.dest f.val f.mask) c).reg n = c.reg n := by
  induction l generalizing c with
  | nil => rfl
  | cons f l ih =>
    rw [List.foldl_cons, ih _ fun g hg => h g (List.mem_cons_of_mem _ hg), Ctx.reg_write_other _ _ _ _ _ (h f (by simp))]

/-- The start of a bundle leaves everything but registers, results in flight and tags. -/
theorem Ctx.deliver_rest (c : Ctx) : SameRest c c.deliver := by
  have h := foldl_write_rest (c.flights.filter (·.lands c.bundles)) c
  exact ⟨h.run, h.pc, h.bundles, h.groupWrites, ⟨h.special.params, h.special.random, h.special.vectors, h.special.cands,
    h.special.streams, h.special.scratch⟩, h.trap, h.place⟩

/-- The results that stay in flight. -/
theorem Ctx.deliver_flights (c : Ctx) : c.deliver.flights = c.flights.filter fun f => !f.lands c.bundles := rfl

/-- A register that no result in flight targets keeps its value over the start of a bundle (R46, R54). -/
theorem Ctx.deliver_reg (c : Ctx) (n : Name) (h : c.pending n = false) : c.deliver.reg n = c.reg n := by
  have h' : ∀ f ∈ c.flights.filter (·.lands c.bundles), f.dest.isName n = false := fun f hf => by
    simp only [Ctx.pending, List.any_eq_false] at h
    simpa using h f (List.mem_filter.mp hf).1
  have := foldl_write_other _ c n h'
  cases n <;> exact this

/-- The last result issued wins (R55): what a landing list ends with is what the register holds. -/
theorem Ctx.deliver_last (c : Ctx) (l : List Flight) (f : Flight) (h : c.flights = l ++ [f]) (hf : f.lands c.bundles = true)
    (n : Name) : c.deliver.reg n =
      (((l.filter (·.lands c.bundles)).foldl (fun c f => c.write f.dest f.val f.mask) c).write f.dest f.val f.mask).reg n := by
  have : c.flights.filter (·.lands c.bundles) = l.filter (·.lands c.bundles) ++ [f] := by simp [h, hf]
  have e : (c.flights.filter (·.lands c.bundles)).foldl (fun c f => c.write f.dest f.val f.mask) c
      = ((l.filter (·.lands c.bundles)).foldl (fun c f => c.write f.dest f.val f.mask) c).write f.dest f.val f.mask := by
    rw [this, List.foldl_append]; rfl
  have r : c.deliver.reg n = ((c.flights.filter (·.lands c.bundles)).foldl (fun c f => c.write f.dest f.val f.mask) c).reg n := by
    cases n <;> rfl
  rw [r, e]

/-! ## A result on its way -/

@[simp] theorem Ctx.land_flights (c : Ctx) (d : Dest) (v : Vec) (m : W64) (lat : Nat) (q : Bool) (p : Option W64) :
    (c.land d v m lat q p).flights
      = c.flights ++ [{ dest := d, val := v, mask := m, due := c.bundles + lat, squash := q, poison := p }] := rfl

@[simp] theorem Ctx.land_reg (c : Ctx) (d : Dest) (v : Vec) (m : W64) (lat : Nat) (q : Bool) (p : Option W64) (n : Name) :
    (c.land d v m lat q p).reg n = c.reg n := by cases n <;> rfl

theorem Ctx.land_rest (c : Ctx) (d : Dest) (v : Vec) (m : W64) (lat : Nat) (q : Bool) (p : Option W64) :
    SameRest c (c.land d v m lat q p) :=
  ⟨rfl, rfl, rfl, rfl, ⟨⟨rfl, rfl, rfl, rfl, rfl⟩, ⟨rfl, rfl, rfl⟩, ⟨rfl, rfl⟩, rfl, ⟨rfl, rfl, rfl⟩, ⟨rfl, rfl, rfl⟩⟩,
    ⟨rfl, rfl, rfl, rfl, rfl, rfl⟩, ⟨rfl, rfl, rfl, rfl, rfl, rfl, rfl, rfl⟩⟩

/-- A squash leaves registers alone (R82). -/
@[simp] theorem Ctx.squashAfter_reg (c : Ctx) (j : Nat) (n : Name) : (c.squashAfter j).reg n = c.reg n := by cases n <;> rfl

end Sys2Proof.Machine
end

