-- ==== Sys2Proof/Laws/Issue.lean ====
section
/-!
SUPPORT. What issue of one operation alone in its bundle can do: it commits, it is skipped, it traps, it blocks or it stalls,
each said once in terms of what the operation answers at issue.
-/
set_option Elab.async false
namespace Sys2Proof.Machine

/-- The meaning of a slot operation is its issue alone in a bundle. -/
theorem exec_alone {i : Instr} (h : SlotAlone i) (s : State) :
    exec i s = .next (issueSlots s.cur ((slotKey i).2.1 == 1) [] [alone i s] s) := by
  cases i
  case hdrT e h q b x y z =>
    obtain ⟨-, rfl, rfl, rfl⟩ := h
    rfl
  all_goals first | rfl | exact absurd rfl h.1

/-- Nothing stands beside a lone operation. -/
theorem rfeBeside_one (o : SlotOp) : rfeBeside [o] = [] := by simp [rfeBeside]

/-- The order in which a bundle of one operation is decided, once no illegal word, no stream rule and no group rule stops it. -/
theorem issueSlots_one {g : Nat} {stop : Bool} {o : SlotOp} {s : State} (hc : conflicts [o] = [])
    (hs : ((s.ctx g).stream && slipsStream o.instr) = false) (hd : dependents (s.ctx g).groupWrites [o] = []) :
    issueSlots g stop [] [o] s = issueOps g stop (o.writes.filter Name.grouped) [o] s := by
  have hslip : slips g [o] s = [] := by
    unfold slips
    cases h : (s.ctx g).stream <;> simp_all
  simp only [issueSlots, hc, rfeBeside_one, hd, List.nil_append, List.isEmpty_nil, Bool.not_true, Bool.false_eq_true, if_false]
  rw [hslip]
  simp

variable {i : Instr} {s : State}

/-- An active operation, none of whose operands is pending and whose results fit, answers what `issueAlone` says. -/
theorem issueOps_active {g : Nat} {stop : Bool} {ws : List Name} {o : SlotOp} {s : State} (ha : o.active s = true)
    (hg : o.guardPending s = false) (hp : o.operandPending s = false)
    (hr : (s.ctx g).flights.length + exposed o.instr (o.env.mask s) ≤ 48) :
    issueOps g stop ws [o] s =
      match o.issue o.env s with
      | .ok c => commitBundle g stop ws [(o, .ok c)] s
      | .error .early => takeTrap g 0x03 0 (slotMask [o.n]) s
      | .error (.trap cause info) => takeTrap g cause info (slotMask [o.n]) s
      | .error (.late cause info) => takeTrap g cause info (slotMask [o.n]) s
      | .error (.block w) => blockCtx g w s
      | .error (.stall f) => stallCtx g f s := by
  have hr' : ¬ 48 < (s.ctx g).flights.length + exposed o.instr (o.env.mask s) := by omega
  rcases h : o.issue o.env s with (_ | _ | _ | _ | _) | c <;>
    simp [issueOps, ha, hg, hp, h, hr', inFlight, Results.early, Results.traps, Results.block, Results.stall, Results.late]
  split <;> simp_all

/-- An operation whose guard is false does nothing: its bundle commits empty (R9). -/
theorem issueOps_inactive {g : Nat} {stop : Bool} {ws : List Name} {o : SlotOp} {s : State} (ha : o.active s = false)
    (hg : o.guardPending s = false) (hr : (s.ctx g).flights.length ≤ 48) :
    issueOps g stop ws [o] s = commitBundle g stop ws [] s := by
  have hr' : ¬ 48 < (s.ctx g).flights.length := by omega
  simp [issueOps, ha, hg, hr', inFlight, Results.early, Results.traps, Results.block, Results.stall, Results.late]

/-- What the meaning of a slot operation that issues answers. -/
theorem exec_issues (hi : SlotAlone i) (h : Issues i s) :
    exec i s = .next (match issueAlone i s with
      | .ok c => done i c s
      | .error .early => trapped i 0x03 0 s
      | .error (.trap cause info) => trapped i cause info s
      | .error (.late cause info) => trapped i cause info s
      | .error (.block w) => blockCtx s.cur w s
      | .error (.stall f) => stallCtx s.cur f s) := by
  rw [exec_alone hi, issueSlots_one h.once h.stream h.group,
    issueOps_active h.guard h.guardReady h.operands h.room]
  rfl

/-- A slot operation that issues and answers a commit completes. -/
theorem exec_completes {c : Commit} (hi : SlotAlone i) (h : Issues i s) (hc : issueAlone i s = .ok c) :
    exec i s = .next (done i c s) := by
  rw [exec_issues hi h, hc]

/-- A slot operation that issues and answers a trap takes it. -/
theorem exec_traps {cause : Nat} {info : W64} (hi : SlotAlone i) (h : Issues i s)
    (hc : issueAlone i s = .error (.trap cause info)) : exec i s = .next (trapped i cause info s) := by
  rw [exec_issues hi h, hc]

/-- A slot operation that issues and answers a block leaves its context blocked and the core passing issue. -/
theorem exec_blocks {w : Wait} (hi : SlotAlone i) (h : Issues i s) (hc : issueAlone i s = .error (.block w)) :
    exec i s = .next (blockCtx s.cur w s) := by
  rw [exec_issues hi h, hc]

/-- Every slot operation answers a next state. -/
theorem exec_slot_next (hi : SlotAlone i) (s : State) : ∃ t, exec i s = .next t := ⟨_, exec_alone hi s⟩

/-- The guard's lane mask is the predicate the guard field names (R80). -/
theorem guardMask_eq (i : Instr) (s : State) : guardMask i s = (s.ctx s.cur).p (slotKey i).2.2.toNat := by
  simp [guardMask, Env.mask, alone, Env.guardIndex]

end Sys2Proof.Machine
end

