-- ==== Sys2Proof/Laws/Memory.lean ====
section
/-!
SUPPORT. The laws of byte memories: reading after writing, and that every memory operation keeps the canonical form.
-/
set_option Elab.async false
namespace Sys2Proof.Machine

/-! ## One byte -/

theorem memWfFrom_mono {m : Memory} {lo hi : Nat} (h : memWfFrom hi m = true) (hl : lo ≤ hi) : memWfFrom lo m = true := by
  cases m with
  | nil => rfl
  | cons e m =>
    obtain ⟨a, b⟩ := e
    simp only [memWfFrom, Bool.and_eq_true, decide_eq_true_eq] at h ⊢
    exact ⟨⟨Nat.le_trans hl h.1.1, h.1.2⟩, h.2⟩

/-- An address below every listed one reads as zero. -/
theorem readByte_below {m : Memory} {lo a : Nat} (h : memWfFrom lo m = true) (ha : a < lo) : readByte m a = 0 := by
  induction m generalizing lo with
  | nil => rfl
  | cons e m ih =>
    obtain ⟨j, x⟩ := e
    simp only [memWfFrom, Bool.and_eq_true, decide_eq_true_eq, bne_iff_ne] at h
    have hj : j ≠ a := by omega
    simp only [readByte, hj, if_false]
    exact ih h.2 (by omega)

/-- A byte written elsewhere leaves a byte alone, in any memory. -/
@[simp] theorem readByte_writeByte_other (m : Memory) {a j : Nat} (b : Byte) (h : j ≠ a) :
    readByte (writeByte m a b) j = readByte m j := by
  induction m with
  | nil => simp only [writeByte]; split <;> simp [readByte, Ne.symm h]
  | cons e m ih =>
    obtain ⟨k, x⟩ := e
    simp only [writeByte]
    split
    · split <;> simp [readByte, Ne.symm h]
    · split
      · next _ hk => split <;> simp [readByte, Ne.symm h, ← hk]
      · simp only [readByte]; split <;> simp [ih]

/-- A byte written reads back. -/
@[simp] theorem readByte_writeByte_same {m : Memory} {lo : Nat} (h : memWfFrom lo m = true) (a : Nat) (b : Byte) :
    readByte (writeByte m a b) a = b := by
  induction m generalizing lo with
  | nil => simp only [writeByte]; split <;> simp_all [readByte]
  | cons e m ih =>
    obtain ⟨k, x⟩ := e
    simp only [memWfFrom, Bool.and_eq_true, decide_eq_true_eq, bne_iff_ne] at h
    simp only [writeByte]
    split
    · next hk =>
      have hz : readByte ((k, x) :: m) a = 0 :=
        readByte_below (lo := k) (by simpa [memWfFrom, h.2] using h.1.2) hk
      split
      · next hb => rw [hz, hb]
      · simp [readByte]
    · split
      · next _ hk =>
        split
        · next hb => rw [readByte_below h.2 (by omega), hb]
        · simp [readByte]
      · next _ hk => simpa [readByte, Ne.symm hk] using ih h.2

/-- A byte written keeps the canonical form. -/
theorem memWfFrom_writeByte {m : Memory} {lo a : Nat} (b : Byte) (h : memWfFrom lo m = true) (ha : lo ≤ a) :
    memWfFrom lo (writeByte m a b) = true := by
  induction m generalizing lo with
  | nil => simp only [writeByte]; split <;> simp_all [memWfFrom]
  | cons e m ih =>
    obtain ⟨k, x⟩ := e
    simp only [memWfFrom, Bool.and_eq_true, decide_eq_true_eq, bne_iff_ne] at h
    simp only [writeByte]
    split
    · next hk =>
      split
      · simpa [memWfFrom, h.1.1, h.2] using h.1.2
      · next hb => simpa [memWfFrom, ha, h.2, Nat.succ_le_of_lt hk] using ⟨hb, h.1.2⟩
    · split
      · next _ hk =>
        split
        · exact memWfFrom_mono h.2 (by omega)
        · next hb => simpa [memWfFrom, ha, hk, h.1.1, h.2] using hb
      · next h1 h2 =>
        simpa [memWfFrom, h.1.1, ih h.2 (by omega)] using h.1.2

theorem memWf_writeByte {m : Memory} (a : Nat) (b : Byte) (h : memWf m = true) : memWf (writeByte m a b) = true :=
  memWfFrom_writeByte b h (Nat.zero_le _)

/-! ## Several bytes -/

@[simp] theorem length_readBytes (m : Memory) (a n : Nat) : (readBytes m a n).length = n := by
  induction n generalizing a with
  | zero => rfl
  | succ n ih => simp [readBytes, ih]

@[simp] theorem length_leBytes (n x : Nat) : (leBytes n x).length = n := by
  induction n generalizing x with
  | zero => rfl
  | succ n ih => simp [leBytes, ih]

/-- Bytes written keep the canonical form. -/
theorem memWf_writeBytes {m : Memory} (a : Nat) (bs : List Byte) (h : memWf m = true) : memWf (writeBytes m a bs) = true := by
  induction bs generalizing m a with
  | nil => exact h
  | cons b bs ih => exact ih _ (memWf_writeByte a b h)

/-- A byte outside the written ones is left alone, in any memory. -/
theorem readByte_writeBytes_outside (m : Memory) {a j : Nat} (bs : List Byte) (h : j < a ∨ a + bs.length ≤ j) :
    readByte (writeBytes m a bs) j = readByte m j := by
  induction bs generalizing m a with
  | nil => rfl
  | cons b bs ih =>
    simp only [List.length_cons] at h
    rw [writeBytes, ih _ (by omega), readByte_writeByte_other _ _ (by omega)]

/-- Written bytes read back. -/
theorem readBytes_writeBytes {m : Memory} (a : Nat) (bs : List Byte) (h : memWf m = true) :
    readBytes (writeBytes m a bs) a bs.length = bs := by
  induction bs generalizing m a with
  | nil => rfl
  | cons b bs ih =>
    simp only [List.length_cons, readBytes, writeBytes]
    rw [ih _ (memWf_writeByte a b h), readByte_writeBytes_outside _ _ (by omega), readByte_writeByte_same h]

/-- The value of bytes laid out is the value modulo their range. -/
theorem leNat_leBytes (n x : Nat) : leNat (leBytes n x) = x % 256 ^ n := by
  induction n generalizing x with
  | zero => simp [leNat, leBytes, Nat.mod_one]
  | succ n ih =>
    simp only [leBytes, leNat, ih, BitVec.toNat_ofNat]
    rw [show 256 ^ (n + 1) = 256 * 256 ^ n from Nat.pow_succ', Nat.mod_mul (a := 256)]

/-- A value stored and loaded again is the value modulo its range. -/
theorem leNat_readBytes_writeBytes {m : Memory} (a n x : Nat) (h : memWf m = true) :
    leNat (readBytes (writeBytes m a (leBytes n x)) a n) = x % 256 ^ n := by
  have := readBytes_writeBytes a (leBytes n x) h
  rw [length_leBytes] at this
  rw [this, leNat_leBytes]

/-! ## Device-physical memory -/

/-- All that a Vault's notes on written lines can change: Vaults, reports, partitions' rings, frozen channels, saved contexts, and
the freeze that waits for a context's boundary (R411, R420, R421). -/
structure Noted (s t : State) : Prop where
  mem : t.mem = s.mem
  poison : t.poison = s.poison
  frames : t.frames = s.frames
  cores : t.cores = s.cores
  arrays : t.arrays = s.arrays
  groups : t.groups = s.groups
  launches : t.launches = s.launches
  dies : t.dies = s.dies
  cur : t.cur = s.cur
  ctx : ∀ g, ∃ b, t.ctx g = { s.ctx g with boundaryFreeze := b }

theorem Noted.refl (s : State) : Noted s s := ⟨rfl, rfl, rfl, rfl, rfl, rfl, rfl, rfl, rfl, fun g => ⟨(s.ctx g).boundaryFreeze, rfl⟩⟩

theorem Noted.trans {s t u : State} (h : Noted s t) (k : Noted t u) : Noted s u where
  mem := k.mem.trans h.mem
  poison := k.poison.trans h.poison
  frames := k.frames.trans h.frames
  cores := k.cores.trans h.cores
  arrays := k.arrays.trans h.arrays
  groups := k.groups.trans h.groups
  launches := k.launches.trans h.launches
  dies := k.dies.trans h.dies
  cur := k.cur.trans h.cur
  ctx := fun g => by
    obtain ⟨b, hb⟩ := h.ctx g
    obtain ⟨c, hc⟩ := k.ctx g
    exact ⟨c, by rw [hc, hb]⟩

/-- A fold of such changes is one. -/
theorem Noted.foldl {β : Type} (f : State → β → State) (hf : ∀ s x, Noted s (f s x)) (l : List β) (s : State) :
    Noted s (l.foldl f s) := by
  induction l generalizing s with
  | nil => exact .refl s
  | cons x l ih => exact (hf s x).trans (ih _)

/-- A change that touches no table of the record but those named. -/
theorem Noted.of_same {s t : State} (hm : t.mem = s.mem) (hp : t.poison = s.poison) (hf : t.frames = s.frames)
    (hc : t.cores = s.cores) (ha : t.arrays = s.arrays) (hg : t.groups = s.groups) (hl : t.launches = s.launches)
    (hd : t.dies = s.dies) (hcur : t.cur = s.cur) (hx : t.ctxs = s.ctxs) : Noted s t :=
  ⟨hm, hp, hf, hc, ha, hg, hl, hd, hcur, fun g => ⟨(s.ctx g).boundaryFreeze, by simp [State.ctx, hx]⟩⟩

/-- A table read after its entries changed, the default entry being left alone. -/
theorem tget_map {α : Type} (d : α) (f : α → α) (hd : f d = d) (t : Tbl α) (k : Nat) :
    tget d (t.map fun e => (e.1, f e.2)) k = f (tget d t k) := by
  induction t with
  | nil => simp [tget, hd]
  | cons e t ih => obtain ⟨j, x⟩ := e; simp only [List.map_cons, tget]; split <;> simp [ih]

theorem modVault_noted (v : Nat) (f : Vault → Vault) (s : State) : Noted s (s.modVault v f) :=
  .of_same rfl rfl rfl rfl rfl rfl rfl rfl rfl rfl

/-- A copy channel's stop writes records and its cluster (R393). -/
theorem freezeChannel_noted (cl ch cause part : Nat) (a : W64) (s : State) : Noted s (freezeChannel cl ch cause part a s) := by
  unfold freezeChannel
  dsimp only
  split
  · exact .refl s
  · exact .of_same rfl rfl rfl rfl rfl rfl rfl rfl rfl rfl

/-- A violation is written into its partition's ring and the module's list. -/
theorem violation_noted (src cause p place : Nat) (a : W64) (s : State) : Noted s (violation src cause p place a s) :=
  .of_same rfl rfl rfl rfl rfl rfl rfl rfl rfl rfl

/-- A state whose contexts alone change, each by its boundary freeze. -/
theorem Noted.of_ctxs {s t : State} (n : Noted s t) (cs : Tbl Ctx) (sv : Tbl Saved)
    (h : ∀ g, ∃ b, tget Ctx.initial cs g = { s.ctx g with boundaryFreeze := b }) : Noted s { t with ctxs := cs, saves := sv } :=
  ⟨n.mem, n.poison, n.frames, n.cores, n.arrays, n.groups, n.launches, n.dies, n.cur, h⟩

theorem decideSpace_noted (v : Nat) (s : State) : Noted s (decideSpace v s) := by
  unfold decideSpace
  dsimp only
  split
  · exact .refl s
  · refine .foldl _ (fun s b => ?_) _ _
    split
    · exact .refl s
    · refine .trans ?_ (.foldl _ (fun s c => freezeChannel_noted ..) _ _)
      refine .trans (Noted.of_ctxs (.foldl _ (fun s g => violation_noted ..) _ s) _ _ fun g => ?_) (modVault_noted ..)
      let mark (c : Ctx) : Ctx := if c.part = b.1 && c.run != .idle && !c.run.isFrozen then
        { c with boundaryFreeze := some (c.boundaryFreeze.getD (BitVec.ofNat 64 (512 * b.2))) } else c
      have hm : tget Ctx.initial (s.ctxs.map fun e => (e.1, mark e.2)) g = mark (s.ctx g) :=
        tget_map _ mark (by simp [mark, Ctx.initial]) _ _
      by_cases hc : (decide ((s.ctx g).part = b.1) && (s.ctx g).run != .idle && !(s.ctx g).run.isFrozen) = true
      · exact ⟨_, hm.trans (if_pos hc)⟩
      · exact ⟨(s.ctx g).boundaryFreeze, hm.trans (if_neg hc)⟩

theorem errorRecord_noted (sev str : Nat) (p : Option Nat) (place : Nat) (a : W64) (s : State) :
    Noted s (errorRecord sev str p place a s) := by
  unfold errorRecord
  dsimp only
  split
  · split <;> exact .of_same rfl rfl rfl rfl rfl rfl rfl rfl rfl rfl
  · exact .of_same rfl rfl rfl rfl rfl rfl rfl rfl rfl rfl

theorem noteLine_noted (l : Nat) (s : State) : Noted s (noteLine l s) := by
  have hold : ∀ v p, Noted s (holdWrite v l p s) := fun v p => (modVault_noted ..).trans (errorRecord_noted ..)
  unfold noteLine
  split
  · exact .refl s
  · dsimp only
    split
    · exact .refl s
    · split
      · exact hold ..
      · split
        · exact (modVault_noted ..).trans (decideSpace_noted ..)
        · exact hold ..

theorem noteLines_noted (a n : Nat) (s : State) : Noted s (noteLines a n s) := by
  unfold noteLines
  split
  · exact .refl s
  · exact .foldl _ (fun s l => noteLine_noted ..) _ _

/-- A write of device-physical memory writes its bytes and nothing else of memory. -/
theorem writeDp_mem (a : Nat) (bs : List Byte) (s : State) : (writeDp a bs s).mem = writeBytes s.mem a bs :=
  (noteLines_noted ..).mem

/-- A write of device-physical memory leaves the registers of every context alone. -/
theorem writeDp_ctx (a : Nat) (bs : List Byte) (s : State) (g : Nat) :
    ∃ b, (writeDp a bs s).ctx g = { s.ctx g with boundaryFreeze := b } := (noteLines_noted ..).ctx g

theorem memWf_writeDp (a : Nat) (bs : List Byte) {s : State} (h : memWf s.mem = true) : memWf (writeDp a bs s).mem = true := by
  rw [writeDp_mem]; exact memWf_writeBytes a bs h

/-! ## Places -/

/-- A store of a task context into the Mint window writes no memory. -/
theorem mintStore_mem (g off : Nat) (bs : List Byte) (s : State) : (mintStore g off bs s).mem = s.mem := by
  unfold mintStore
  split
  · rfl
  · split
    · rfl
    · dsimp only; split <;> rfl

/-- Bytes written one by one keep the canonical form. -/
theorem memWf_writeByte_foldl {β : Type} (f : β → Nat × Byte) (l : List β) (m : Memory) (h : memWf m = true) :
    memWf (l.foldl (fun m x => writeByte m (f x).1 (f x).2) m) = true := by
  induction l generalizing m with
  | nil => exact h
  | cons x l ih => exact ih _ (memWf_writeByte _ _ h)

theorem foldl_mem {β : Type} (P : Memory → Prop) (f : State → β → State) (hf : ∀ s x, P s.mem → P (f s x).mem) (l : List β)
    (s : State) (h : P s.mem) : P (l.foldl f s).mem := by
  induction l generalizing s with
  | nil => exact h
  | cons x l ih => exact ih _ (hf s x h)

/-- A write of any place keeps the canonical form of memory. -/
theorem memWf_writePlace (p : Place) (bs : List Byte) {s : State} (h : memWf s.mem = true) :
    memWf (writePlace p bs s).mem = true := by
  cases p with
  | dp base lay off =>
    cases lay with
    | false => exact memWf_writeDp _ _ h
    | true =>
      simp only [writePlace, (noteLines_noted ..).mem]
      exact memWf_writeByte_foldl (fun b : Byte × Nat => (dpByte base true off b.2, b.1)) _ _ h
  | scratch g off => exact h
  | csram k off => exact h
  | mint g off => simpa [writePlace, mintStore_mem] using h

/-- Bytes written over sectors keep the canonical form of memory. -/
theorem memWf_writeSectors (l : List Sector) (bs : List Byte) {s : State} (h : memWf s.mem = true) :
    memWf (writeSectors l bs s).mem = true := by
  induction l generalizing bs s with
  | nil => exact h
  | cons x l ih => exact ih _ (memWf_writePlace _ _ h)

/-- Memory after reset has the canonical form. -/
theorem memWf_reset : memWf State.reset.mem = true := rfl

/-- Scratch is written in its canonical form. -/
theorem memWf_scratch (g off : Nat) (bs : List Byte) {s : State} (h : memWf (s.ctx g).scratch = true) :
    memWf ((writePlace (.scratch g off) bs s).ctx g).scratch = true := by
  simpa [writePlace] using memWf_writeBytes off bs h

/-- A store into device-physical memory reads back. -/
theorem readPlace_writePlace_dp (base off : Nat) (bs : List Byte) {s : State} (h : memWf s.mem = true) :
    readPlace (writePlace (.dp base false off) bs s) (.dp base false off) bs.length = bs := by
  simp only [readPlace, writePlace, writeDp_mem]
  exact readBytes_writeBytes _ _ h

/-- A store into scratch reads back. -/
theorem readPlace_writePlace_scratch (g off : Nat) (bs : List Byte) {s : State} (h : memWf (s.ctx g).scratch = true) :
    readPlace (writePlace (.scratch g off) bs s) (.scratch g off) bs.length = bs := by
  simp only [readPlace, writePlace, State.ctx_modCtx_same]
  exact readBytes_writeBytes _ _ h

/-! ## Checks of an access -/

/-- A check passes exactly when its condition holds. -/
@[simp] theorem Chk.need_ok {b : Bool} {st : Stop} : Chk.need b st = .ok () ↔ b = true := by
  cases b <;> simp [Chk.need]

/-- A plain access that passes is aligned, its bytes translate without a fault, no pending tag covers them, and no demoted frame
holds them (R236, R282). -/
theorem access1_ok {s : State} {g va n oc : Nat} {k : Right} {x : Sector} (h : access1 s g va n k oc = .ok x) :
    va % n = 0 ∧ xlate s g va n k oc = .ok x ∧ x.tagged s = false ∧ x.demoted = none := by
  unfold access1 aligned at h
  by_cases ha : va % n = 0
  · simp only [ha, beq_self_eq_true, Chk.need, if_true, access, accessR, checkSectors, xlates, List.map_cons, List.map_nil, bind, Except.bind] at h
    rcases hx : xlate s g va n k oc with e | y
    · obtain ⟨c, i⟩ := e
      simp [hx, lowestFault] at h
    · by_cases ht : y.tagged s = true
      · simp [hx, lowestFault, ht, Except.toOption] at h
      · cases hd : y.demoted with
        | none => simp [hx, lowestFault, ht, hd, lowestVa, anyClass, Except.toOption] at h; subst h; exact ⟨ha, rfl, by simpa using ht, hd⟩
        | some f => simp [hx, lowestFault, ht, hd, lowestVa, anyClass, Except.toOption] at h
  · simp [ha, Chk.need, bind, Except.bind] at h

end Sys2Proof.Machine
end

