-- ==== Sys2Proof/Laws/Commit.lean ====
section
/-!
SUPPORT. What the commit of a bundle does beside the effects of its operations: time, charges and energy, the bundle count, the next
bundle and the results due (R14, R50, R54, R364, R369).
-/
set_option Elab.async false
namespace Sys2Proof.Machine

/-! ## Time, charges and energy -/

/-- All that accounting can change: time, launches' counts, groups' meters, VFs' meters and clusters' deficits. -/
structure Accounted (s t : State) : Prop where
  ctxs : t.ctxs = s.ctxs
  cur : t.cur = s.cur
  memory : SameMemory s t
  engines : SameEngines s t
  cores : t.cores = s.cores
  dies : t.dies = s.dies
  regs : t.regs = s.regs
  violations : t.violations = s.violations
  errors : t.errors = s.errors

theorem SameEngines.refl (s : State) : SameEngines s s := ⟨fun _ => ⟨rfl, rfl, rfl, rfl, rfl⟩, rfl, fun _ => ⟨rfl, rfl, rfl⟩⟩

theorem SameEngines.trans {s t u : State} (h : SameEngines s t) (k : SameEngines t u) : SameEngines s u where
  cores := fun n => by
    obtain ⟨h1, h2, h3, h4, h5⟩ := h.cores n
    obtain ⟨k1, k2, k3, k4, k5⟩ := k.cores n
    exact ⟨k1.trans h1, k2.trans h2, k3.trans h3, k4.trans h4, k5.trans h5⟩
  arrays := k.arrays.trans h.arrays
  clusters := fun n => by
    obtain ⟨h1, h2, h3⟩ := h.clusters n
    obtain ⟨k1, k2, k3⟩ := k.clusters n
    exact ⟨k1.trans h1, k2.trans h2, k3.trans h3⟩

theorem SameMemory.refl (s : State) : SameMemory s s := ⟨rfl, rfl, rfl, rfl⟩

theorem SameMemory.trans {s t u : State} (h : SameMemory s t) (k : SameMemory t u) : SameMemory s u :=
  ⟨k.mem.trans h.mem, k.poison.trans h.poison, k.frames.trans h.frames, k.vaults.trans h.vaults⟩

theorem Accounted.refl (s : State) : Accounted s s := ⟨rfl, rfl, .refl s, .refl s, rfl, rfl, rfl, rfl, rfl⟩

theorem Accounted.trans {s t u : State} (h : Accounted s t) (k : Accounted t u) : Accounted s u :=
  ⟨k.ctxs.trans h.ctxs, k.cur.trans h.cur, h.memory.trans k.memory, h.engines.trans k.engines, k.cores.trans h.cores,
    k.dies.trans h.dies, k.regs.trans h.regs, k.violations.trans h.violations, k.errors.trans h.errors⟩

theorem Accounted.ctx {s t : State} (h : Accounted s t) (g : Nat) : t.ctx g = s.ctx g := by simp [State.ctx, h.ctxs]

theorem modLaunch_accounted (k : Nat) (f : Launch → Launch) (s : State) : Accounted s (s.modLaunch k f) := by
  unfold State.modLaunch
  split <;> exact ⟨rfl, rfl, ⟨rfl, rfl, rfl, rfl⟩, ⟨fun _ => ⟨rfl, rfl, rfl, rfl, rfl⟩, rfl, fun _ => ⟨rfl, rfl, rfl⟩⟩, rfl, rfl, rfl, rfl, rfl⟩

theorem passTime_accounted (s : State) : Accounted s (passTime s) :=
  ⟨rfl, rfl, ⟨rfl, rfl, rfl, rfl⟩, ⟨fun _ => ⟨rfl, rfl, rfl, rfl, rfl⟩, rfl, fun _ => ⟨rfl, rfl, rfl⟩⟩, rfl, rfl, rfl, rfl, rfl⟩

/-- A change of deficits is accounting. -/
theorem deficits_accounted (k : Nat) (f : Tbl Int → Tbl Int) (s : State) :
    Accounted s (s.modCluster k fun x => { x with deficits := f x.deficits }) where
  ctxs := rfl
  cur := rfl
  memory := ⟨rfl, rfl, rfl, rfl⟩
  engines := ⟨fun _ => ⟨rfl, rfl, rfl, rfl, rfl⟩, rfl, fun n => by
    by_cases h : n = k
    · subst h; simp
    · simp [h]⟩
  cores := rfl
  dies := rfl
  regs := rfl
  violations := rfl
  errors := rfl

theorem charge_accounted (g n : Nat) (s : State) : Accounted s (charge g n s) := by
  unfold charge
  dsimp only
  split
  · exact .refl s
  · exact (modLaunch_accounted _ _ s).trans
      (deficits_accounted _ (fun t => tset t (s.ctx g).vf (tget 0 t (s.ctx g).vf - (n : Int))) _)

theorem meter_accounted (g n : Nat) (s : State) : Accounted s (meter g n s) := by
  unfold meter
  dsimp only
  split
  · exact .refl s
  · refine (modLaunch_accounted (s.ctx g).launch (fun l => { l with energyNJ := l.energyNJ + n }) s).trans ?_
    exact ⟨rfl, rfl, ⟨rfl, rfl, rfl, rfl⟩, ⟨fun _ => ⟨rfl, rfl, rfl, rfl, rfl⟩, rfl, fun _ => ⟨rfl, rfl, rfl⟩⟩, rfl, rfl, rfl, rfl, rfl⟩

theorem spendTime_accounted (g : Nat) (s : State) : Accounted s (spendTime g s) :=
  (charge_accounted ..).trans (passTime_accounted _)

/-! ## The commit of one operation -/

/-- The context as a commit leaves it before results land: the bundle count, the next bundle, the names of its group. -/
def Ctx.advance (c : Ctx) (j : Nat) (target : Option W64) (stop : Bool) (ws : List Name) : Ctx :=
  { c with run := .ready, stalled := false, bundles := j + 1, pc := target.getD (c.pc + 16),
           groupWrites := if stop || target.isSome then [] else c.groupWrites ++ ws }

/-! ### Writes a Vault holds (R421) -/

/-- Where no Vault changed, no held write changes its source. -/
theorem claimHeld_same {g : Nat} {s t : State} (h : t.vaults = s.vaults) : claimHeld g s t = t := if_pos h


/-- Naming the source of held writes changes the Vaults alone. -/
theorem claimHeld_spec (g : Nat) (s t : State) :
    (claimHeld g s t).ctxs = t.ctxs ∧ (claimHeld g s t).cur = t.cur ∧ (claimHeld g s t).mem = t.mem
      ∧ (claimHeld g s t).poison = t.poison ∧ (claimHeld g s t).frames = t.frames ∧ (claimHeld g s t).cores = t.cores
      ∧ (claimHeld g s t).arrays = t.arrays ∧ (claimHeld g s t).clusters = t.clusters ∧ (claimHeld g s t).groups = t.groups := by
  unfold claimHeld claimFor
  split <;> exact ⟨rfl, rfl, rfl, rfl, rfl, rfl, rfl, rfl, rfl⟩

@[simp] theorem claimHeld_ctx (g : Nat) (s t : State) (h : Nat) : (claimHeld g s t).ctx h = t.ctx h := by
  simp only [State.ctx, (claimHeld_spec g s t).1]

/-- The state between an operation's effect and the boundary after its bundle, time and energy included. -/
def afterAct (g : Nat) (stop : Bool) (ws : List Name) (o : SlotOp) (target : Option W64) (t : State) (s : State) : State :=
  let t := claimHeld g s t
  let c := t.ctx g
  let c := if target.isSome then c.squashAfter (s.ctx g).bundles else c
  let u := meter g (bundleEnergy [o.instr]) (spendTime g (t.setCtx g (c.advance (s.ctx g).bundles target stop ws).deliver))
  if !(s.ctx g).run.isReady || resetsWatchdog o.instr then resetWatch g u else u

/-- A bundle of one operation that neither traps after it, leaves, yields nor returns. -/
theorem commitBundle_one (g : Nat) (stop : Bool) (ws : List Name) (o : SlotOp) (f : State → State) (target : Option W64) (s : State) :
    commitBundle g stop ws [(o, .ok { act := f, target := target })] s = afterAct g stop ws o target (f s) s := by
  cases target <;>
    simp [commitBundle, afterAct, Results.commits, Ctx.advance]

/-- What holds after the commit of one operation: its context is the one its effect left, advanced and delivered, and all else is as
the effect left it. -/
theorem afterAct_spec (g : Nat) (stop : Bool) (ws : List Name) (o : SlotOp) (target : Option W64) (t s : State) :
    ∃ w, (afterAct g stop ws o target t s).ctx g =
        { ((if target.isSome then (t.ctx g).squashAfter (s.ctx g).bundles else t.ctx g).advance (s.ctx g).bundles target stop ws).deliver
          with watch := w }
      ∧ (∀ h, h ≠ g → (afterAct g stop ws o target t s).ctx h = t.ctx h)
      ∧ SameMemory (claimHeld g s t) (afterAct g stop ws o target t s) ∧ SameEngines t (afterAct g stop ws o target t s)
      ∧ (afterAct g stop ws o target t s).cur = t.cur := by
  unfold afterAct
  dsimp only
  generalize hd : ((if target.isSome then (t.ctx g).squashAfter (s.ctx g).bundles else t.ctx g).advance (s.ctx g).bundles target stop ws).deliver = d
  obtain ⟨hctxs, hcur, -, -, -, hcores, harrays, hclusters, -⟩ := claimHeld_spec g s t
  have hx : ∀ h, (claimHeld g s t).ctx h = t.ctx h := claimHeld_ctx g s t
  have eng : SameEngines t (claimHeld g s t) :=
    ⟨fun k => by simp [State.core, hcores], harrays, fun k => by simp [State.cluster, hclusters]⟩
  simp only [hx, hd]
  generalize claimHeld g s t = r at *
  have acc : Accounted (r.setCtx g d) (meter g (bundleEnergy [o.instr]) (spendTime g (r.setCtx g d))) :=
    (spendTime_accounted ..).trans (meter_accounted ..)
  generalize meter g (bundleEnergy [o.instr]) (spendTime g (r.setCtx g d)) = u at acc
  have hc : u.ctx g = d := by rw [acc.ctx, State.ctx_setCtx_same]
  have hm : SameMemory r u := ⟨acc.memory.mem, acc.memory.poison, acc.memory.frames, acc.memory.vaults⟩
  have he : SameEngines t u := eng.trans ⟨acc.engines.cores, acc.engines.arrays, acc.engines.clusters⟩
  split
  · refine ⟨u.cycles.toNat, by simp [resetWatch, hc], fun h hh => ?_, ?_, ?_, ?_⟩
    · simp [resetWatch, hh, acc.ctx, hx]
    · exact ⟨hm.mem, hm.poison, hm.frames, hm.vaults⟩
    · exact ⟨he.cores, he.arrays, he.clusters⟩
    · exact acc.cur.trans hcur
  · exact ⟨d.watch, hc, fun h hh => by rw [acc.ctx]; simp [hh, hx], hm, he, acc.cur.trans hcur⟩

/-- An operation that changes its context only. -/
theorem done_onCtx (i : Instr) (f : Ctx → Ctx) (s : State) :
    ∃ w, (done i (onCtx s f) s).ctx s.cur =
        { ((f (s.ctx s.cur)).advance (s.ctx s.cur).bundles none ((slotKey i).2.1 == 1) ((alone i s).writes.filter Name.grouped)).deliver
          with watch := w }
      ∧ (∀ h, h ≠ s.cur → (done i (onCtx s f) s).ctx h = s.ctx h)
      ∧ SameMemory s (done i (onCtx s f) s) ∧ SameEngines s (done i (onCtx s f) s) := by
  have e : done i (onCtx s f) s = _ := commitBundle_one s.cur _ _ (alone i s) (fun t => t.modCtx s.cur f) none s
  rw [e]
  obtain ⟨w, h1, h2, h3, h4, -⟩ := afterAct_spec s.cur ((slotKey i).2.1 == 1) ((alone i s).writes.filter Name.grouped) (alone i s) none
    (s.modCtx s.cur f) s
  rw [claimHeld_same (by rfl)] at h3
  refine ⟨w, by simpa using h1, fun h hh => ?_, ⟨h3.mem, h3.poison, h3.frames, h3.vaults⟩, ⟨h4.cores, h4.arrays, h4.clusters⟩⟩
  rw [h2 h hh]; simp [hh]

end Sys2Proof.Machine
end

