-- ==== Sys2Proof/Laws/Lanes.lean ====
section
/-!
SUPPORT. Vectors and predicates given part by part: reading a lane, an element or a bit gives the part it was made of (R8, R45).
-/
set_option Elab.async false
namespace Sys2Proof.Laws
open Sys2Proof Sys2Proof.Machine

theorem packNat_lt (w : Nat) (f : Nat → Nat) (n : Nat) : packNat w f n < 2 ^ (w * n) := by
  induction n with
  | zero => simp [packNat]
  | succ n ih =>
    have hx : f n % 2 ^ w + 1 ≤ 2 ^ w := Nat.mod_lt _ (Nat.two_pow_pos w)
    have hm := Nat.mul_le_mul_right (2 ^ (w * n)) hx
    rw [Nat.add_mul, one_mul] at hm
    rw [packNat, Nat.mul_succ, pow_add, mul_comm (2 ^ (w * n))]
    omega

theorem packNat_part (w : Nat) (f : Nat → Nat) {n i : Nat} (h : i < n) : packNat w f n / 2 ^ (w * i) % 2 ^ w = f i % 2 ^ w := by
  induction n with
  | zero => omega
  | succ n ih =>
    rw [packNat]
    rcases Nat.lt_succ_iff_lt_or_eq.mp h with hi | rfl
    · obtain ⟨k, rfl⟩ : ∃ k, n = i + 1 + k := ⟨n - (i + 1), by omega⟩
      have e : f (i + 1 + k) % 2 ^ w * 2 ^ (w * (i + 1 + k)) = 2 ^ (w * i) * (2 ^ w * (f (i + 1 + k) % 2 ^ w * 2 ^ (w * k))) := by ring
      rw [e, Nat.add_mul_div_left _ _ (Nat.two_pow_pos _), Nat.add_mul_mod_self_left, ih (by omega)]
    · rw [Nat.add_mul_div_right _ _ (Nat.two_pow_pos _), Nat.div_eq_of_lt (packNat_lt w f i), zero_add, Nat.mod_mod]

/-- A part of a value made of parts. -/
theorem part_ofNat {w n i : Nat} (f : Nat → BitVec w) (h : i < n) :
    (BitVec.ofNat (w * n) (packNat w (fun k => (f k).toNat) n)).extractLsb' (w * i) w = f i := by
  apply BitVec.eq_of_toNat_eq
  rw [BitVec.extractLsb'_toNat, BitVec.toNat_ofNat, Nat.mod_eq_of_lt (packNat_lt w _ n), Nat.shiftRight_eq_div_pow, packNat_part w _ h,
    Nat.mod_eq_of_lt (f i).isLt]

@[simp] theorem lane_vecOf (f : Nat → W32) {i : Nat} (h : i < 64) : lane (vecOf f) i = f i := part_ofNat (n := 64) f h
@[simp] theorem elem_vecOfElems (f : Nat → W64) {i : Nat} (h : i < 32) : elem (vecOfElems f) i = f i := part_ofNat (n := 32) f h

/-- A bit of a predicate made of bits. -/
theorem predOf_bit (f : Nat → Bool) {i : Nat} (h : i < 64) : (predOf f).getLsbD i = f i := by
  rw [predOf, BitVec.getLsbD_ofNat, Nat.testBit_eq_decide_div_mod_eq]
  have := packNat_part 1 (fun k => (f k).toNat) h
  simp only [one_mul, pow_one] at this
  rw [this]
  cases f i <;> simp [h]

/-- A lane of a merge is the new one where the mask is 1, the old one elsewhere (R70). -/
theorem lane_mergeLanes (m : W64) (old x : Vec) {i : Nat} (h : i < 64) :
    lane (mergeLanes m old x) i = if bit m i then lane x i else lane old i := lane_vecOf _ h

end Sys2Proof.Laws
end

