-- ==== Sys2Proof/Laws/PerInstr.lean ====
section
/-!
SUPPORT. Family TableMatch: every slot operation encodes into its row of the opcode table, whatever its operands (R86 to R99). Mask and
value of a row stand as spec/opcode_table.json gives them.
-/
set_option Elab.async false
namespace Sys2Proof.Laws

/-- A field put into a word leaves alone the bits outside the field. -/
theorem put_and {w : Nat} (x : BitVec w) (n : Nat) (m : W32) (h : ((BitVec.allOnes w).setWidth 32 <<< n) &&& m = 0) : put x n &&& m = 0 := by
  apply BitVec.eq_of_getLsbD_eq
  intro i hi
  have hb := congrArg (fun v : W32 => v.getLsbD i) h
  cases hx : x.getLsbD (i - n)
  · simp [put, hx]
  · have hw := BitVec.lt_of_getLsbD hx
    simp [hi, hw] at hb
    simp_all [put]

theorem or_and (a b m : W32) : (a ||| b) &&& m = (a &&& m) ||| (b &&& m) := by
  apply BitVec.eq_of_getLsbD_eq
  intro i _
  simp [Bool.and_or_distrib_right]

/-- Mask and value of the row of a slot operation. -/
def tableRow (i : Instr) : Option (W32 × W32) :=
  match i with
  | .nop .. => some (0x7FFFFFFF, 0x00000000)
  | .add .. => some (0x7F000000, 0x01000000)
  | .sub .. => some (0x7F000000, 0x02000000)
  | .and .. => some (0x7F000007, 0x03000000)
  | .or .. => some (0x7F000007, 0x04000000)
  | .xor .. => some (0x7F000007, 0x05000000)
  | .andn .. => some (0x7F000007, 0x06000000)
  | .shl .. => some (0x7F000000, 0x07000000)
  | .shr .. => some (0x7F000000, 0x08000000)
  | .sar .. => some (0x7F000000, 0x09000000)
  | .rot .. => some (0x7F000000, 0x0A000000)
  | .mul .. => some (0x7F000000, 0x0B000000)
  | .div .. => some (0x7F000000, 0x0C000000)
  | .min .. => some (0x7F000000, 0x0D000000)
  | .max .. => some (0x7F000000, 0x0E000000)
  | .bitc .. => some (0x7F0001F8, 0x0F000000)
  | .addi .. => some (0x7F000000, 0x10000000)
  | .andi .. => some (0x7F000000, 0x11000000)
  | .ori .. => some (0x7F000000, 0x12000000)
  | .xori .. => some (0x7F000000, 0x13000000)
  | .shli .. => some (0x7F0001C0, 0x14000000)
  | .shri .. => some (0x7F0001C0, 0x15000000)
  | .sari .. => some (0x7F0001C0, 0x16000000)
  | .muli .. => some (0x7F000000, 0x17000000)
  | .li .. => some (0x7F000000, 0x18000000)
  | .lis .. => some (0x7F000000, 0x19000000)
  | .addpc .. => some (0x7F000000, 0x1A000000)
  | .cmp .. => some (0x7F000000, 0x20000000)
  | .cmpu .. => some (0x7F000000, 0x21000000)
  | .cmpi .. => some (0x7F000000, 0x22000000)
  | .pfrom .. => some (0x7F0000FF, 0x23000000)
  | .br .. => some (0x7F000000, 0x30000000)
  | .call .. => some (0x7F000000, 0x31000000)
  | .brb .. => some (0x7F03FFFF, 0x32000000)
  | .ret .. => some (0x7F1FFFFF, 0x33000000)
  | .lbt .. => some (0x7F000000, 0x34000000)
  | .movb .. => some (0x7F1FF000, 0x35000000)
  | .loop .. => some (0x7F000000, 0x36000000)
  | .csrd .. => some (0x7F000007, 0x40000000)
  | .cswr .. => some (0x7F000007, 0x41000000)
  | .mpset .. => some (0x7F1FF007, 0x42000000)
  | .tcset .. => some (0x7F1FC007, 0x43000000)
  | .tcget .. => some (0x7F1FC007, 0x44000000)
  | .yield .. => some (0x7F1FFFFF, 0x45000000)
  | .exit .. => some (0x7F1FFFFF, 0x46000000)
  | .trap .. => some (0x7F000000, 0x47000000)
  | .sysc .. => some (0x7F000000, 0x48000000)
  | .brk .. => some (0x7F000000, 0x49000000)
  | .grow .. => some (0x7F0001FF, 0x4A000000)
  | .bar .. => some (0x7F1FC1FF, 0x4B000000)
  | .barW .. => some (0x7F1FC1FF, 0x4B000001)
  | .barAw .. => some (0x7F1FC1FF, 0x4B000002)
  | .rfe .. => some (0x7F1FFFFF, 0x4C000000)
  | .savec .. => some (0x7F1F0007, 0x4D000000)
  | .loadc .. => some (0x7F1F0007, 0x4E000000)
  | .hdrT .. => some (0x7F800007, 0x7F800000)
  | .vadd .. => some (0xFE000000, 0x02000000)
  | .vsub .. => some (0xFE000000, 0x04000000)
  | .vmul .. => some (0xFE000000, 0x06000000)
  | .vmin .. => some (0xFE000000, 0x08000000)
  | .vmax .. => some (0xFE000000, 0x0A000000)
  | .vand .. => some (0xFE00003F, 0x0C000000)
  | .vor .. => some (0xFE00003F, 0x0E000000)
  | .vxor .. => some (0xFE00003F, 0x10000000)
  | .vshl .. => some (0xFE00003F, 0x12000000)
  | .vshr .. => some (0xFE00003F, 0x14000000)
  | .vsar .. => some (0xFE00003F, 0x16000000)
  | .vadds .. => some (0xFE000000, 0x18000000)
  | .vmuls .. => some (0xFE000000, 0x1A000000)
  | .vli .. => some (0xFE00F800, 0x1C000000)
  | .vfadd .. => some (0xFE00003F, 0x20000000)
  | .vfsub .. => some (0xFE00003F, 0x22000000)
  | .vfmul .. => some (0xFE00003F, 0x24000000)
  | .vfma .. => some (0xFE000000, 0x26000000)
  | .vfmin .. => some (0xFE000000, 0x28000000)
  | .vfmax .. => some (0xFE000000, 0x2A000000)
  | .vfrcp .. => some (0xFE0007FF, 0x2C000000)
  | .vfrsq .. => some (0xFE0007FF, 0x2E000000)
  | .vfexp2 .. => some (0xFE0007FF, 0x30000000)
  | .vflog2 .. => some (0xFE0007FF, 0x32000000)
  | .vcvt .. => some (0xFE0007C0, 0x34000000)
  | .vfclass .. => some (0xFE0007C0, 0x36000000)
  | .vdadd .. => some (0xFE000000, 0x40000000)
  | .vdmul .. => some (0xFE00003F, 0x42000000)
  | .vdmax .. => some (0xFE000000, 0x44000000)
  | .vdcvt .. => some (0xFE0007F8, 0x46000000)
  | .vdscl .. => some (0xFE00001F, 0x48000000)
  | .vperm .. => some (0xFE000000, 0x60000000)
  | .vnib .. => some (0xFE0007E0, 0x62000000)
  | .vshuf .. => some (0xFE000000, 0x64000000)
  | .vbcast .. => some (0xFE00F800, 0x66000000)
  | .vmovs .. => some (0xFE000000, 0x68000000)
  | .vins .. => some (0xFE000000, 0x6A000000)
  | .viota .. => some (0xFE00FFC0, 0x6C000000)
  | .vmov .. => some (0xFE0007FF, 0x6E000000)
  | .vred .. => some (0xFE0007C0, 0x70000000)
  | .vscan .. => some (0xFE0007C0, 0x72000000)
  | .vcmp .. => some (0xFE000000, 0x74000000)
  | .vfcmp .. => some (0xFE000000, 0x76000000)
  | .pand .. => some (0xFE000000, 0x78000000)
  | .por .. => some (0xFE000000, 0x7A000000)
  | .pxor .. => some (0xFE000000, 0x7C000000)
  | .pandn .. => some (0xFE000000, 0x7E000000)
  | .pcnt .. => some (0xFE000000, 0x80000000)
  | .vqdeq .. => some (0xFE00003C, 0x90000000)
  | .vqnt .. => some (0xFE00003C, 0x92000000)
  | .vrng .. => some (0xFE000000, 0x94000000)
  | .mcall .. => some (0xFF003FFC, 0x02000000)
  | .bch .. => some (0xFF03FFFF, 0x04000000)
  | .ech .. => some (0xFF03FFFF, 0x06000000)
  | .mdrain .. => some (0xFF001C00, 0x08000000)
  | .mzero .. => some (0xFF03FFFF, 0x0A000000)
  | .mspill .. => some (0xFF001FFE, 0x0C000000)
  | .mfill .. => some (0xFF001FFE, 0x0E000000)
  | .mpwr .. => some (0xFF1C1FFF, 0x10000000)
  | .mpwrTab .. => some (0xFF1C1FFF, 0x10000001)
  | .mprd .. => some (0xFF1C1FFF, 0x12000000)
  | .mprdTab .. => some (0xFF1C1FFF, 0x12000001)
  | .tzero .. => some (0xFF00FFC0, 0x20000000)
  | .tcopy .. => some (0xFF0007FF, 0x22000000)
  | .tv2t .. => some (0xFF00003F, 0x24000000)
  | .tt2v .. => some (0xFF00003F, 0x26000000)
  | .ckleaf .. => some (0xFF00003F, 0x40000000)
  | .cknode .. => some (0xFF00003F, 0x42000000)
  | .ckback .. => some (0xFF00003F, 0x44000000)
  | .ckdiv .. => some (0xFF0007C0, 0x46000000)
  | .cksamp .. => some (0xFF00003F, 0x48000000)
  | .ixwalk .. => some (0xFF00003F, 0x4A000000)
  | .ixsplit .. => some (0xFF0007C0, 0x4C000000)
  | .asort .. => some (0xFF000000, 0x60000000)
  | .amrg .. => some (0xFF0000FF, 0x62000000)
  | .cread .. => some (0xFF0000FF, 0x64000000)
  | .cclr .. => some (0xFF07FFFC, 0x66000000)
  | .csamp .. => some (0xFF07C0FF, 0x68000000)
  | .clpush .. => some (0xFF1F07F0, 0x70000000)
  | .clpull .. => some (0xFF00FFFF, 0x72000000)
  | .clseal .. => some (0xFF1FFFF0, 0x74000000)
  | .clcfg .. => some (0xFF1F07FF, 0x76000000)
  | .clcfgEnd .. => some (0xFF1FFFFF, 0x76000001)
  | .ldd .. => some (0xFE000000, 0x02000000)
  | .ldw .. => some (0xFE000000, 0x04000000)
  | .ldwu .. => some (0xFE000000, 0x06000000)
  | .ldh .. => some (0xFE000000, 0x08000000)
  | .ldhu .. => some (0xFE000000, 0x0A000000)
  | .ldb .. => some (0xFE000000, 0x0C000000)
  | .ldbu .. => some (0xFE000000, 0x0E000000)
  | .std .. => some (0xFF000000, 0x10000000)
  | .stw .. => some (0xFF000000, 0x12000000)
  | .sth .. => some (0xFF000000, 0x14000000)
  | .stb .. => some (0xFF000000, 0x16000000)
  | .vld .. => some (0xFE000000, 0x18000000)
  | .vst .. => some (0xFF000000, 0x1A000000)
  | .lddp .. => some (0xFE000000, 0x1C000000)
  | .vldp .. => some (0xFE000000, 0x1E000000)
  | .vstp .. => some (0xFF000000, 0x20000000)
  | .tld .. => some (0xFF00003F, 0x28000000)
  | .tst .. => some (0xFF00003F, 0x2A000000)
  | .tgath .. => some (0xFF000000, 0x2C000000)
  | .tscat .. => some (0xFF000000, 0x2E000000)
  | .tscadd .. => some (0xFF000000, 0x30000000)
  | .aadd .. => some (0xFF000000, 0x40000000)
  | .aaddw .. => some (0xFF000000, 0x42000000)
  | .afadd .. => some (0xFF000000, 0x44000000)
  | .adadd .. => some (0xFF000000, 0x46000000)
  | .amax .. => some (0xFF000000, 0x48000000)
  | .amin .. => some (0xFF000000, 0x4A000000)
  | .aor .. => some (0xFF000000, 0x4C000000)
  | .aand .. => some (0xFF000000, 0x4E000000)
  | .axchg .. => some (0xFF000000, 0x50000000)
  | .acas .. => some (0xFF000000, 0x52000000)
  | .fence .. => some (0xFF000000, 0x60000000)
  | .waitm .. => some (0xFF000000, 0x62000000)
  | .cpy .. => some (0xFF000007, 0x70000000)
  | .cpyZero .. => some (0xFF007E07, 0x70000001)
  | .cpyq .. => some (0xFF000007, 0x72000000)
  | .qpop .. => some (0xFF000FFF, 0x74000000)
  | .qpopBind .. => some (0xFF000FFF, 0x74000001)
  | .qstat .. => some (0xFF000FFF, 0x76000000)
  | .sbar .. => some (0xFF000000, 0x78000000)
  | .rinv .. => some (0xFF000000, 0x7A000000)
  | .rflush .. => some (0xFF000000, 0x7C000000)
  | .resv .. => some (0xFF000000, 0x7E000000)
  | .rrel .. => some (0xFF007FFF, 0x80000000)
  | .rrelAll .. => some (0xFF1FFFFF, 0x80000001)
  | .movp .. => some (0xFF00007F, 0x90000000)
  | .movfp .. => some (0xFF00007F, 0x92000000)
  | .qpush .. => some (0xFF000FFF, 0x94000000)
  | .qpushBind .. => some (0xFF000FFF, 0x94000001)
  | .xfuDecode .. => some (0xFF03E07F, 0x90020000)
  | .xfuZorder .. => some (0xFF03E07F, 0x90022000)
  | .xfuUnz .. => some (0xFF03E07F, 0x90024000)
  | .xfuCopy .. => some (0xFF03E07F, 0x90026000)
  | .xfuUnpack4 .. => some (0xFF03E07F, 0x90028000)
  | .xfuSave .. => some (0xFF03E07F, 0x9002A000)
  | .xfuLoad .. => some (0xFF03E07F, 0x9002C000)
  | .xfuAbort .. => some (0xFF03E07F, 0x9002E000)
  | .microNop .. => none
  | .feta .. => none
  | .fetb .. => none
  | .mac .. => none
  | .macq .. => none
  | .zpc .. => none
  | .zacc .. => none
  | .drn .. => none
  | .setk .. => none
  | .microLoop .. => none
  | .brz .. => none
  | .waitt .. => none
  | .sigt .. => none
  | .xpv .. => none
  | .microWordLimit .. => none
  | .arrayWindow .. => none
  | .arrayOpStart .. => none
  | .arrayOpComplete .. => none
  | .tileUnitOpComplete .. => none
  | .indexEngineComplete .. => none
  | .asortComplete .. => none
  | .tileLoadComplete .. => none
  | .bulkStoreComplete .. => none
  | .copyComplete .. => none
  | .streamElementArrive .. => none
  | .fenceRetire .. => none
  | .rangeOpComplete .. => none
  | .xfuOpEnd .. => none
  | .memoryDataReturn .. => none
  | .resultLand .. => none
  | .ckTagClear .. => none
  | .tileStatusValid .. => none
  | .watchdog .. => none
  | .arbmodeWrite .. => none
  | .launchStart .. => none
  | .groupComplete .. => none
  | .launchComplete .. => none
  | .preemptStop .. => none
  | .groupResume .. => none
  | .mintRowSend .. => none
  | .streamHoldRelease .. => none
  | .mintIterationBoundary .. => none
  | .heldWriteApply .. => none
  | .balloonPass .. => none
  | .frameRestore .. => none
  | .hdrX .. => none
  | .unassignedOpcode .. => none
  | .instructionFetchFault .. => none
  | .vnop => some (0xFFFFFFFF, 0x00000000)
  | .xnop => some (0xFFFFFFFF, 0x00000000)
  | .mnop => some (0xFFFFFFFF, 0x00000000)
  | .qtailWrite => none
  | .qcfgWrite => none
  | .shareWrite => none
  | .pwrctlWrite => none
  | .registerWrite => none
  | .launchAccept => none
  | .groupPlace => none
  | .collectiveStart => none
  | .collectiveComplete => none
  | .quantumBoundary => none
  | .treasuryClose => none
  | .handleRegister => none
  | .handleRemove => none
  | .mintMicrocodeReplace => none
  | .mailboxSeqWrite => none
  | .generalCoreAccess => none
  | .hostMemoryRequest => none
  | .remoteRequest => none
  | .walvoFlitReceive => none
  | .portDown => none
  | .vaultLineWrite => none
  | .frameService => none
  | .ratio => none
  | .donate => none
  | .withdraw => none
  | .demote => none
  | .zeroFrames => none
  | .promote => none
  | .splitPage => none
  | .classChange => none
  | .frameGrant => none
  | .grantRevoke => none
  | .partitionCreate => none
  | .partitionReset => none
  | .clusterDrain => none
  | .spareSubstitution => none
  | .firmwareUpdate => none
  | .vaultFirmwareReplace => none
  | .inspection => none
  | .watchdogIntervalSet => none
  | .vfWeightSet => none
  | .exportWindowSet => none
  | .demotionTargetSet => none
  | .vaultViewSet => none
  | .mailboxGrant => none
  | .microstoreImageLoad => none
  | .bucketTableLoad => none
  | .moduleReset => none
  | .runtimeReady => none
  | .bootTimeout => none
  | .thermalReset => none
  | .throttleStep => none
  | .patrolScrub => none
  | .softError => none
  | .getVersion => none
  | .getCapabilities => none
  | .negotiateAlgorithms => none
  | .getDigests => none
  | .getCertificate => none
  | .challenge => none
  | .getMeasurements => none
  | .spdmUnsupportedRequest => none
  | .portRetrainComplete => none
  | .nodeIdAssign => none
  | .communicatorSet => none
  | .mintSetLoad => none
  | .promotionBuildComplete => none

/-- The encoding of a slot operation, under the mask of its row, is the row's value. -/
def TableMatch.Statement (i : Instr) : Prop := ∀ r, tableRow i = some r → encode i &&& r.1 = r.2

theorem tableMatch_of {i : Instr} {m v : W32} (x : W32) (hr : tableRow i = some (m, v)) (he : encode i = x) (h : x &&& m = v) :
    TableMatch.Statement i := by
  intro r hs
  rw [hr] at hs
  cases hs
  rw [he]
  exact h

theorem TableMatch.nop (e : BitVec 1) : TableMatch.Statement (.nop e) := 
  tableMatch_of (0x00000000 ||| put e 31) rfl rfl (by simp (disch := decide) [or_and, put_and])
theorem TableMatch.add (e : BitVec 1) (g : BitVec 3) (d : BitVec 6) (a : BitVec 6) (b : BitVec 6) (f : BitVec 3) : TableMatch.Statement (.add e g d a b f) := 
  tableMatch_of (0x01000000 ||| put e 31 ||| put g 21 ||| put d 15 ||| put a 9 ||| put b 3 ||| put f 0) rfl rfl (by simp (disch := decide) [or_and, put_and])
theorem TableMatch.sub (e : BitVec 1) (g : BitVec 3) (d : BitVec 6) (a : BitVec 6) (b : BitVec 6) (f : BitVec 3) : TableMatch.Statement (.sub e g d a b f) := 
  tableMatch_of (0x02000000 ||| put e 31 ||| put g 21 ||| put d 15 ||| put a 9 ||| put b 3 ||| put f 0) rfl rfl (by simp (disch := decide) [or_and, put_and])
theorem TableMatch.and (e : BitVec 1) (g : BitVec 3) (d : BitVec 6) (a : BitVec 6) (b : BitVec 6) : TableMatch.Statement (.and e g d a b) := 
  tableMatch_of (0x03000000 ||| put e 31 ||| put g 21 ||| put d 15 ||| put a 9 ||| put b 3) rfl rfl (by simp (disch := decide) [or_and, put_and])
theorem TableMatch.or (e : BitVec 1) (g : BitVec 3) (d : BitVec 6) (a : BitVec 6) (b : BitVec 6) : TableMatch.Statement (.or e g d a b) := 
  tableMatch_of (0x04000000 ||| put e 31 ||| put g 21 ||| put d 15 ||| put a 9 ||| put b 3) rfl rfl (by simp (disch := decide) [or_and, put_and])
theorem TableMatch.xor (e : BitVec 1) (g : BitVec 3) (d : BitVec 6) (a : BitVec 6) (b : BitVec 6) : TableMatch.Statement (.xor e g d a b) := 
  tableMatch_of (0x05000000 ||| put e 31 ||| put g 21 ||| put d 15 ||| put a 9 ||| put b 3) rfl rfl (by simp (disch := decide) [or_and, put_and])
theorem TableMatch.andn (e : BitVec 1) (g : BitVec 3) (d : BitVec 6) (a : BitVec 6) (b : BitVec 6) : TableMatch.Statement (.andn e g d a b) := 
  tableMatch_of (0x06000000 ||| put e 31 ||| put g 21 ||| put d 15 ||| put a 9 ||| put b 3) rfl rfl (by simp (disch := decide) [or_and, put_and])
theorem TableMatch.shl (e : BitVec 1) (g : BitVec 3) (d : BitVec 6) (a : BitVec 6) (b : BitVec 6) (f : BitVec 3) : TableMatch.Statement (.shl e g d a b f) := 
  tableMatch_of (0x07000000 ||| put e 31 ||| put g 21 ||| put d 15 ||| put a 9 ||| put b 3 ||| put f 0) rfl rfl (by simp (disch := decide) [or_and, put_and])
theorem TableMatch.shr (e : BitVec 1) (g : BitVec 3) (d : BitVec 6) (a : BitVec 6) (b : BitVec 6) (f : BitVec 3) : TableMatch.Statement (.shr e g d a b f) := 
  tableMatch_of (0x08000000 ||| put e 31 ||| put g 21 ||| put d 15 ||| put a 9 ||| put b 3 ||| put f 0) rfl rfl (by simp (disch := decide) [or_and, put_and])
theorem TableMatch.sar (e : BitVec 1) (g : BitVec 3) (d : BitVec 6) (a : BitVec 6) (b : BitVec 6) (f : BitVec 3) : TableMatch.Statement (.sar e g d a b f) := 
  tableMatch_of (0x09000000 ||| put e 31 ||| put g 21 ||| put d 15 ||| put a 9 ||| put b 3 ||| put f 0) rfl rfl (by simp (disch := decide) [or_and, put_and])
theorem TableMatch.rot (e : BitVec 1) (g : BitVec 3) (d : BitVec 6) (a : BitVec 6) (b : BitVec 6) (f : BitVec 3) : TableMatch.Statement (.rot e g d a b f) := 
  tableMatch_of (0x0a000000 ||| put e 31 ||| put g 21 ||| put d 15 ||| put a 9 ||| put b 3 ||| put f 0) rfl rfl (by simp (disch := decide) [or_and, put_and])
theorem TableMatch.mul (e : BitVec 1) (g : BitVec 3) (d : BitVec 6) (a : BitVec 6) (b : BitVec 6) (f : BitVec 3) : TableMatch.Statement (.mul e g d a b f) := 
  tableMatch_of (0x0b000000 ||| put e 31 ||| put g 21 ||| put d 15 ||| put a 9 ||| put b 3 ||| put f 0) rfl rfl (by simp (disch := decide) [or_and, put_and])
theorem TableMatch.div (e : BitVec 1) (g : BitVec 3) (d : BitVec 6) (a : BitVec 6) (b : BitVec 6) (f : BitVec 3) : TableMatch.Statement (.div e g d a b f) := 
  tableMatch_of (0x0c000000 ||| put e 31 ||| put g 21 ||| put d 15 ||| put a 9 ||| put b 3 ||| put f 0) rfl rfl (by simp (disch := decide) [or_and, put_and])
theorem TableMatch.min (e : BitVec 1) (g : BitVec 3) (d : BitVec 6) (a : BitVec 6) (b : BitVec 6) (f : BitVec 3) : TableMatch.Statement (.min e g d a b f) := 
  tableMatch_of (0x0d000000 ||| put e 31 ||| put g 21 ||| put d 15 ||| put a 9 ||| put b 3 ||| put f 0) rfl rfl (by simp (disch := decide) [or_and, put_and])
theorem TableMatch.max (e : BitVec 1) (g : BitVec 3) (d : BitVec 6) (a : BitVec 6) (b : BitVec 6) (f : BitVec 3) : TableMatch.Statement (.max e g d a b f) := 
  tableMatch_of (0x0e000000 ||| put e 31 ||| put g 21 ||| put d 15 ||| put a 9 ||| put b 3 ||| put f 0) rfl rfl (by simp (disch := decide) [or_and, put_and])
theorem TableMatch.bitc (e : BitVec 1) (g : BitVec 3) (d : BitVec 6) (a : BitVec 6) (f : BitVec 3) : TableMatch.Statement (.bitc e g d a f) := 
  tableMatch_of (0x0f000000 ||| put e 31 ||| put g 21 ||| put d 15 ||| put a 9 ||| put f 0) rfl rfl (by simp (disch := decide) [or_and, put_and])
theorem TableMatch.addi (e : BitVec 1) (g : BitVec 3) (d : BitVec 6) (a : BitVec 6) (i : BitVec 9) : TableMatch.Statement (.addi e g d a i) := 
  tableMatch_of (0x10000000 ||| put e 31 ||| put g 21 ||| put d 15 ||| put a 9 ||| put i 0) rfl rfl (by simp (disch := decide) [or_and, put_and])
theorem TableMatch.andi (e : BitVec 1) (g : BitVec 3) (d : BitVec 6) (a : BitVec 6) (i : BitVec 9) : TableMatch.Statement (.andi e g d a i) := 
  tableMatch_of (0x11000000 ||| put e 31 ||| put g 21 ||| put d 15 ||| put a 9 ||| put i 0) rfl rfl (by simp (disch := decide) [or_and, put_and])
theorem TableMatch.ori (e : BitVec 1) (g : BitVec 3) (d : BitVec 6) (a : BitVec 6) (i : BitVec 9) : TableMatch.Statement (.ori e g d a i) := 
  tableMatch_of (0x12000000 ||| put e 31 ||| put g 21 ||| put d 15 ||| put a 9 ||| put i 0) rfl rfl (by simp (disch := decide) [or_and, put_and])
theorem TableMatch.xori (e : BitVec 1) (g : BitVec 3) (d : BitVec 6) (a : BitVec 6) (i : BitVec 9) : TableMatch.Statement (.xori e g d a i) := 
  tableMatch_of (0x13000000 ||| put e 31 ||| put g 21 ||| put d 15 ||| put a 9 ||| put i 0) rfl rfl (by simp (disch := decide) [or_and, put_and])
theorem TableMatch.shli (e : BitVec 1) (g : BitVec 3) (d : BitVec 6) (a : BitVec 6) (i : BitVec 6) : TableMatch.Statement (.shli e g d a i) := 
  tableMatch_of (0x14000000 ||| put e 31 ||| put g 21 ||| put d 15 ||| put a 9 ||| put i 0) rfl rfl (by simp (disch := decide) [or_and, put_and])
theorem TableMatch.shri (e : BitVec 1) (g : BitVec 3) (d : BitVec 6) (a : BitVec 6) (i : BitVec 6) : TableMatch.Statement (.shri e g d a i) := 
  tableMatch_of (0x15000000 ||| put e 31 ||| put g 21 ||| put d 15 ||| put a 9 ||| put i 0) rfl rfl (by simp (disch := decide) [or_and, put_and])
theorem TableMatch.sari (e : BitVec 1) (g : BitVec 3) (d : BitVec 6) (a : BitVec 6) (i : BitVec 6) : TableMatch.Statement (.sari e g d a i) := 
  tableMatch_of (0x16000000 ||| put e 31 ||| put g 21 ||| put d 15 ||| put a 9 ||| put i 0) rfl rfl (by simp (disch := decide) [or_and, put_and])
theorem TableMatch.muli (e : BitVec 1) (g : BitVec 3) (d : BitVec 6) (a : BitVec 6) (i : BitVec 9) : TableMatch.Statement (.muli e g d a i) := 
  tableMatch_of (0x17000000 ||| put e 31 ||| put g 21 ||| put d 15 ||| put a 9 ||| put i 0) rfl rfl (by simp (disch := decide) [or_and, put_and])
theorem TableMatch.li (e : BitVec 1) (g : BitVec 3) (d : BitVec 6) (i : BitVec 15) : TableMatch.Statement (.li e g d i) := 
  tableMatch_of (0x18000000 ||| put e 31 ||| put g 21 ||| put d 15 ||| put i 0) rfl rfl (by simp (disch := decide) [or_and, put_and])
theorem TableMatch.lis (e : BitVec 1) (g : BitVec 3) (d : BitVec 6) (i : BitVec 15) : TableMatch.Statement (.lis e g d i) := 
  tableMatch_of (0x19000000 ||| put e 31 ||| put g 21 ||| put d 15 ||| put i 0) rfl rfl (by simp (disch := decide) [or_and, put_and])
theorem TableMatch.addpc (e : BitVec 1) (g : BitVec 3) (d : BitVec 6) (i : BitVec 15) : TableMatch.Statement (.addpc e g d i) := 
  tableMatch_of (0x1a000000 ||| put e 31 ||| put g 21 ||| put d 15 ||| put i 0) rfl rfl (by simp (disch := decide) [or_and, put_and])
theorem TableMatch.cmp (e : BitVec 1) (g : BitVec 3) (p : BitVec 7) (a : BitVec 6) (b : BitVec 6) (c : BitVec 2) : TableMatch.Statement (.cmp e g p a b c) := 
  tableMatch_of (0x20000000 ||| put e 31 ||| put g 21 ||| put p 14 ||| put a 8 ||| put b 2 ||| put c 0) rfl rfl (by simp (disch := decide) [or_and, put_and])
theorem TableMatch.cmpu (e : BitVec 1) (g : BitVec 3) (p : BitVec 7) (a : BitVec 6) (b : BitVec 6) (c : BitVec 2) : TableMatch.Statement (.cmpu e g p a b c) := 
  tableMatch_of (0x21000000 ||| put e 31 ||| put g 21 ||| put p 14 ||| put a 8 ||| put b 2 ||| put c 0) rfl rfl (by simp (disch := decide) [or_and, put_and])
theorem TableMatch.cmpi (e : BitVec 1) (g : BitVec 3) (p : BitVec 7) (a : BitVec 6) (i : BitVec 6) (c : BitVec 2) : TableMatch.Statement (.cmpi e g p a i c) := 
  tableMatch_of (0x22000000 ||| put e 31 ||| put g 21 ||| put p 14 ||| put a 8 ||| put i 2 ||| put c 0) rfl rfl (by simp (disch := decide) [or_and, put_and])
theorem TableMatch.pfrom (e : BitVec 1) (g : BitVec 3) (p : BitVec 7) (a : BitVec 6) : TableMatch.Statement (.pfrom e g p a) := 
  tableMatch_of (0x23000000 ||| put e 31 ||| put g 21 ||| put p 14 ||| put a 8) rfl rfl (by simp (disch := decide) [or_and, put_and])
theorem TableMatch.br (e : BitVec 1) (g : BitVec 3) (d : BitVec 21) : TableMatch.Statement (.br e g d) := 
  tableMatch_of (0x30000000 ||| put e 31 ||| put g 21 ||| put d 0) rfl rfl (by simp (disch := decide) [or_and, put_and])
theorem TableMatch.call (e : BitVec 1) (g : BitVec 3) (d : BitVec 21) : TableMatch.Statement (.call e g d) := 
  tableMatch_of (0x31000000 ||| put e 31 ||| put g 21 ||| put d 0) rfl rfl (by simp (disch := decide) [or_and, put_and])
theorem TableMatch.brb (e : BitVec 1) (g : BitVec 3) (k : BitVec 3) : TableMatch.Statement (.brb e g k) := 
  tableMatch_of (0x32000000 ||| put e 31 ||| put g 21 ||| put k 18) rfl rfl (by simp (disch := decide) [or_and, put_and])
theorem TableMatch.ret (e : BitVec 1) (g : BitVec 3) : TableMatch.Statement (.ret e g) := 
  tableMatch_of (0x33000000 ||| put e 31 ||| put g 21) rfl rfl (by simp (disch := decide) [or_and, put_and])
theorem TableMatch.lbt (e : BitVec 1) (g : BitVec 3) (k : BitVec 3) (d : BitVec 18) : TableMatch.Statement (.lbt e g k d) := 
  tableMatch_of (0x34000000 ||| put e 31 ||| put g 21 ||| put k 18 ||| put d 0) rfl rfl (by simp (disch := decide) [or_and, put_and])
theorem TableMatch.movb (e : BitVec 1) (g : BitVec 3) (k : BitVec 3) (s : BitVec 6) (f : BitVec 3) : TableMatch.Statement (.movb e g k s f) := 
  tableMatch_of (0x35000000 ||| put e 31 ||| put g 21 ||| put k 9 ||| put s 3 ||| put f 0) rfl rfl (by simp (disch := decide) [or_and, put_and])
theorem TableMatch.loop (e : BitVec 1) (g : BitVec 3) (c : BitVec 6) (i : BitVec 15) : TableMatch.Statement (.loop e g c i) := 
  tableMatch_of (0x36000000 ||| put e 31 ||| put g 21 ||| put c 15 ||| put i 0) rfl rfl (by simp (disch := decide) [or_and, put_and])
theorem TableMatch.csrd (e : BitVec 1) (g : BitVec 3) (r : BitVec 12) (s : BitVec 6) : TableMatch.Statement (.csrd e g r s) := 
  tableMatch_of (0x40000000 ||| put e 31 ||| put g 21 ||| put r 9 ||| put s 3) rfl rfl (by simp (disch := decide) [or_and, put_and])
theorem TableMatch.cswr (e : BitVec 1) (g : BitVec 3) (r : BitVec 12) (s : BitVec 6) : TableMatch.Statement (.cswr e g r s) := 
  tableMatch_of (0x41000000 ||| put e 31 ||| put g 21 ||| put r 9 ||| put s 3) rfl rfl (by simp (disch := decide) [or_and, put_and])
theorem TableMatch.mpset (e : BitVec 1) (g : BitVec 3) (m : BitVec 3) (s : BitVec 6) : TableMatch.Statement (.mpset e g m s) := 
  tableMatch_of (0x42000000 ||| put e 31 ||| put g 21 ||| put m 9 ||| put s 3) rfl rfl (by simp (disch := decide) [or_and, put_and])
theorem TableMatch.tcset (e : BitVec 1) (g : BitVec 3) (t : BitVec 5) (s : BitVec 6) : TableMatch.Statement (.tcset e g t s) := 
  tableMatch_of (0x43000000 ||| put e 31 ||| put g 21 ||| put t 9 ||| put s 3) rfl rfl (by simp (disch := decide) [or_and, put_and])
theorem TableMatch.tcget (e : BitVec 1) (g : BitVec 3) (t : BitVec 5) (s : BitVec 6) : TableMatch.Statement (.tcget e g t s) := 
  tableMatch_of (0x44000000 ||| put e 31 ||| put g 21 ||| put t 9 ||| put s 3) rfl rfl (by simp (disch := decide) [or_and, put_and])
theorem TableMatch.yield (e : BitVec 1) (g : BitVec 3) : TableMatch.Statement (.yield e g) := 
  tableMatch_of (0x45000000 ||| put e 31 ||| put g 21) rfl rfl (by simp (disch := decide) [or_and, put_and])
theorem TableMatch.exit (e : BitVec 1) (g : BitVec 3) : TableMatch.Statement (.exit e g) := 
  tableMatch_of (0x46000000 ||| put e 31 ||| put g 21) rfl rfl (by simp (disch := decide) [or_and, put_and])
theorem TableMatch.trap (e : BitVec 1) (g : BitVec 3) (c : BitVec 21) : TableMatch.Statement (.trap e g c) := 
  tableMatch_of (0x47000000 ||| put e 31 ||| put g 21 ||| put c 0) rfl rfl (by simp (disch := decide) [or_and, put_and])
theorem TableMatch.sysc (e : BitVec 1) (g : BitVec 3) (c : BitVec 21) : TableMatch.Statement (.sysc e g c) := 
  tableMatch_of (0x48000000 ||| put e 31 ||| put g 21 ||| put c 0) rfl rfl (by simp (disch := decide) [or_and, put_and])
theorem TableMatch.brk (e : BitVec 1) (g : BitVec 3) (c : BitVec 21) : TableMatch.Statement (.brk e g c) := 
  tableMatch_of (0x49000000 ||| put e 31 ||| put g 21 ||| put c 0) rfl rfl (by simp (disch := decide) [or_and, put_and])
theorem TableMatch.grow (e : BitVec 1) (g : BitVec 3) (d : BitVec 6) (a : BitVec 6) : TableMatch.Statement (.grow e g d a) := 
  tableMatch_of (0x4a000000 ||| put e 31 ||| put g 21 ||| put d 15 ||| put a 9) rfl rfl (by simp (disch := decide) [or_and, put_and])
theorem TableMatch.bar (e : BitVec 1) (g : BitVec 3) (n : BitVec 5) : TableMatch.Statement (.bar e g n) := 
  tableMatch_of (0x4b000000 ||| put e 31 ||| put g 21 ||| put n 9) rfl rfl (by simp (disch := decide) [or_and, put_and])
theorem TableMatch.barW (e : BitVec 1) (g : BitVec 3) (n : BitVec 5) : TableMatch.Statement (.barW e g n) := 
  tableMatch_of (0x4b000001 ||| put e 31 ||| put g 21 ||| put n 9) rfl rfl (by simp (disch := decide) [or_and, put_and])
theorem TableMatch.barAw (e : BitVec 1) (g : BitVec 3) (n : BitVec 5) : TableMatch.Statement (.barAw e g n) := 
  tableMatch_of (0x4b000002 ||| put e 31 ||| put g 21 ||| put n 9) rfl rfl (by simp (disch := decide) [or_and, put_and])
theorem TableMatch.rfe (e : BitVec 1) (g : BitVec 3) : TableMatch.Statement (.rfe e g) := 
  tableMatch_of (0x4c000000 ||| put e 31 ||| put g 21) rfl rfl (by simp (disch := decide) [or_and, put_and])
theorem TableMatch.savec (e : BitVec 1) (g : BitVec 3) (m : BitVec 7) (s : BitVec 6) : TableMatch.Statement (.savec e g m s) := 
  tableMatch_of (0x4d000000 ||| put e 31 ||| put g 21 ||| put m 9 ||| put s 3) rfl rfl (by simp (disch := decide) [or_and, put_and])
theorem TableMatch.loadc (e : BitVec 1) (g : BitVec 3) (m : BitVec 7) (s : BitVec 6) : TableMatch.Statement (.loadc e g m s) := 
  tableMatch_of (0x4e000000 ||| put e 31 ||| put g 21 ||| put m 9 ||| put s 3) rfl rfl (by simp (disch := decide) [or_and, put_and])
theorem TableMatch.hdrT (e : BitVec 1) (h : BitVec 3) (q : BitVec 5) (b : BitVec 3) (x : BitVec 3) (y : BitVec 3) (z : BitVec 3) : TableMatch.Statement (.hdrT e h q b x y z) := 
  tableMatch_of (0x7f800000 ||| put e 31 ||| put h 20 ||| put q 15 ||| put b 12 ||| put x 9 ||| put y 6 ||| put z 3) rfl rfl (by simp (disch := decide) [or_and, put_and])
theorem TableMatch.vadd (q : BitVec 1) (g : BitVec 3) (d : BitVec 5) (a : BitVec 5) (b : BitVec 5) (m : BitVec 6) : TableMatch.Statement (.vadd q g d a b m) := 
  tableMatch_of (0x02000000 ||| put q 24 ||| put g 21 ||| put d 16 ||| put a 11 ||| put b 6 ||| put m 0) rfl rfl (by simp (disch := decide) [or_and, put_and])
theorem TableMatch.vsub (q : BitVec 1) (g : BitVec 3) (d : BitVec 5) (a : BitVec 5) (b : BitVec 5) (m : BitVec 6) : TableMatch.Statement (.vsub q g d a b m) := 
  tableMatch_of (0x04000000 ||| put q 24 ||| put g 21 ||| put d 16 ||| put a 11 ||| put b 6 ||| put m 0) rfl rfl (by simp (disch := decide) [or_and, put_and])
theorem TableMatch.vmul (q : BitVec 1) (g : BitVec 3) (d : BitVec 5) (a : BitVec 5) (b : BitVec 5) (m : BitVec 6) : TableMatch.Statement (.vmul q g d a b m) := 
  tableMatch_of (0x06000000 ||| put q 24 ||| put g 21 ||| put d 16 ||| put a 11 ||| put b 6 ||| put m 0) rfl rfl (by simp (disch := decide) [or_and, put_and])
theorem TableMatch.vmin (q : BitVec 1) (g : BitVec 3) (d : BitVec 5) (a : BitVec 5) (b : BitVec 5) (m : BitVec 6) : TableMatch.Statement (.vmin q g d a b m) := 
  tableMatch_of (0x08000000 ||| put q 24 ||| put g 21 ||| put d 16 ||| put a 11 ||| put b 6 ||| put m 0) rfl rfl (by simp (disch := decide) [or_and, put_and])
theorem TableMatch.vmax (q : BitVec 1) (g : BitVec 3) (d : BitVec 5) (a : BitVec 5) (b : BitVec 5) (m : BitVec 6) : TableMatch.Statement (.vmax q g d a b m) := 
  tableMatch_of (0x0a000000 ||| put q 24 ||| put g 21 ||| put d 16 ||| put a 11 ||| put b 6 ||| put m 0) rfl rfl (by simp (disch := decide) [or_and, put_and])
theorem TableMatch.vand (q : BitVec 1) (g : BitVec 3) (d : BitVec 5) (a : BitVec 5) (b : BitVec 5) : TableMatch.Statement (.vand q g d a b) := 
  tableMatch_of (0x0c000000 ||| put q 24 ||| put g 21 ||| put d 16 ||| put a 11 ||| put b 6) rfl rfl (by simp (disch := decide) [or_and, put_and])
theorem TableMatch.vor (q : BitVec 1) (g : BitVec 3) (d : BitVec 5) (a : BitVec 5) (b : BitVec 5) : TableMatch.Statement (.vor q g d a b) := 
  tableMatch_of (0x0e000000 ||| put q 24 ||| put g 21 ||| put d 16 ||| put a 11 ||| put b 6) rfl rfl (by simp (disch := decide) [or_and, put_and])
theorem TableMatch.vxor (q : BitVec 1) (g : BitVec 3) (d : BitVec 5) (a : BitVec 5) (b : BitVec 5) : TableMatch.Statement (.vxor q g d a b) := 
  tableMatch_of (0x10000000 ||| put q 24 ||| put g 21 ||| put d 16 ||| put a 11 ||| put b 6) rfl rfl (by simp (disch := decide) [or_and, put_and])
theorem TableMatch.vshl (q : BitVec 1) (g : BitVec 3) (d : BitVec 5) (a : BitVec 5) (b : BitVec 5) : TableMatch.Statement (.vshl q g d a b) := 
  tableMatch_of (0x12000000 ||| put q 24 ||| put g 21 ||| put d 16 ||| put a 11 ||| put b 6) rfl rfl (by simp (disch := decide) [or_and, put_and])
theorem TableMatch.vshr (q : BitVec 1) (g : BitVec 3) (d : BitVec 5) (a : BitVec 5) (b : BitVec 5) : TableMatch.Statement (.vshr q g d a b) := 
  tableMatch_of (0x14000000 ||| put q 24 ||| put g 21 ||| put d 16 ||| put a 11 ||| put b 6) rfl rfl (by simp (disch := decide) [or_and, put_and])
theorem TableMatch.vsar (q : BitVec 1) (g : BitVec 3) (d : BitVec 5) (a : BitVec 5) (b : BitVec 5) : TableMatch.Statement (.vsar q g d a b) := 
  tableMatch_of (0x16000000 ||| put q 24 ||| put g 21 ||| put d 16 ||| put a 11 ||| put b 6) rfl rfl (by simp (disch := decide) [or_and, put_and])
theorem TableMatch.vadds (q : BitVec 1) (g : BitVec 3) (d : BitVec 5) (a : BitVec 5) (s : BitVec 6) (m : BitVec 5) : TableMatch.Statement (.vadds q g d a s m) := 
  tableMatch_of (0x18000000 ||| put q 24 ||| put g 21 ||| put d 16 ||| put a 11 ||| put s 5 ||| put m 0) rfl rfl (by simp (disch := decide) [or_and, put_and])
theorem TableMatch.vmuls (q : BitVec 1) (g : BitVec 3) (d : BitVec 5) (a : BitVec 5) (s : BitVec 6) (m : BitVec 5) : TableMatch.Statement (.vmuls q g d a s m) := 
  tableMatch_of (0x1a000000 ||| put q 24 ||| put g 21 ||| put d 16 ||| put a 11 ||| put s 5 ||| put m 0) rfl rfl (by simp (disch := decide) [or_and, put_and])
theorem TableMatch.vli (q : BitVec 1) (g : BitVec 3) (d : BitVec 5) (i : BitVec 11) : TableMatch.Statement (.vli q g d i) := 
  tableMatch_of (0x1c000000 ||| put q 24 ||| put g 21 ||| put d 16 ||| put i 0) rfl rfl (by simp (disch := decide) [or_and, put_and])
theorem TableMatch.vfadd (q : BitVec 1) (g : BitVec 3) (d : BitVec 5) (a : BitVec 5) (b : BitVec 5) : TableMatch.Statement (.vfadd q g d a b) := 
  tableMatch_of (0x20000000 ||| put q 24 ||| put g 21 ||| put d 16 ||| put a 11 ||| put b 6) rfl rfl (by simp (disch := decide) [or_and, put_and])
theorem TableMatch.vfsub (q : BitVec 1) (g : BitVec 3) (d : BitVec 5) (a : BitVec 5) (b : BitVec 5) : TableMatch.Statement (.vfsub q g d a b) := 
  tableMatch_of (0x22000000 ||| put q 24 ||| put g 21 ||| put d 16 ||| put a 11 ||| put b 6) rfl rfl (by simp (disch := decide) [or_and, put_and])
theorem TableMatch.vfmul (q : BitVec 1) (g : BitVec 3) (d : BitVec 5) (a : BitVec 5) (b : BitVec 5) : TableMatch.Statement (.vfmul q g d a b) := 
  tableMatch_of (0x24000000 ||| put q 24 ||| put g 21 ||| put d 16 ||| put a 11 ||| put b 6) rfl rfl (by simp (disch := decide) [or_and, put_and])
theorem TableMatch.vfma (q : BitVec 1) (g : BitVec 3) (d : BitVec 5) (a : BitVec 5) (b : BitVec 5) (c : BitVec 5) (m : BitVec 1) : TableMatch.Statement (.vfma q g d a b c m) := 
  tableMatch_of (0x26000000 ||| put q 24 ||| put g 21 ||| put d 16 ||| put a 11 ||| put b 6 ||| put c 1 ||| put m 0) rfl rfl (by simp (disch := decide) [or_and, put_and])
theorem TableMatch.vfmin (q : BitVec 1) (g : BitVec 3) (d : BitVec 5) (a : BitVec 5) (b : BitVec 5) (m : BitVec 6) : TableMatch.Statement (.vfmin q g d a b m) := 
  tableMatch_of (0x28000000 ||| put q 24 ||| put g 21 ||| put d 16 ||| put a 11 ||| put b 6 ||| put m 0) rfl rfl (by simp (disch := decide) [or_and, put_and])
theorem TableMatch.vfmax (q : BitVec 1) (g : BitVec 3) (d : BitVec 5) (a : BitVec 5) (b : BitVec 5) (m : BitVec 6) : TableMatch.Statement (.vfmax q g d a b m) := 
  tableMatch_of (0x2a000000 ||| put q 24 ||| put g 21 ||| put d 16 ||| put a 11 ||| put b 6 ||| put m 0) rfl rfl (by simp (disch := decide) [or_and, put_and])
theorem TableMatch.vfrcp (q : BitVec 1) (g : BitVec 3) (d : BitVec 5) (a : BitVec 5) : TableMatch.Statement (.vfrcp q g d a) := 
  tableMatch_of (0x2c000000 ||| put q 24 ||| put g 21 ||| put d 16 ||| put a 11) rfl rfl (by simp (disch := decide) [or_and, put_and])
theorem TableMatch.vfrsq (q : BitVec 1) (g : BitVec 3) (d : BitVec 5) (a : BitVec 5) : TableMatch.Statement (.vfrsq q g d a) := 
  tableMatch_of (0x2e000000 ||| put q 24 ||| put g 21 ||| put d 16 ||| put a 11) rfl rfl (by simp (disch := decide) [or_and, put_and])
theorem TableMatch.vfexp2 (q : BitVec 1) (g : BitVec 3) (d : BitVec 5) (a : BitVec 5) : TableMatch.Statement (.vfexp2 q g d a) := 
  tableMatch_of (0x30000000 ||| put q 24 ||| put g 21 ||| put d 16 ||| put a 11) rfl rfl (by simp (disch := decide) [or_and, put_and])
theorem TableMatch.vflog2 (q : BitVec 1) (g : BitVec 3) (d : BitVec 5) (a : BitVec 5) : TableMatch.Statement (.vflog2 q g d a) := 
  tableMatch_of (0x32000000 ||| put q 24 ||| put g 21 ||| put d 16 ||| put a 11) rfl rfl (by simp (disch := decide) [or_and, put_and])
theorem TableMatch.vcvt (q : BitVec 1) (g : BitVec 3) (d : BitVec 5) (a : BitVec 5) (m : BitVec 6) : TableMatch.Statement (.vcvt q g d a m) := 
  tableMatch_of (0x34000000 ||| put q 24 ||| put g 21 ||| put d 16 ||| put a 11 ||| put m 0) rfl rfl (by simp (disch := decide) [or_and, put_and])
theorem TableMatch.vfclass (q : BitVec 1) (g : BitVec 3) (d : BitVec 5) (a : BitVec 5) (m : BitVec 6) : TableMatch.Statement (.vfclass q g d a m) := 
  tableMatch_of (0x36000000 ||| put q 24 ||| put g 21 ||| put d 16 ||| put a 11 ||| put m 0) rfl rfl (by simp (disch := decide) [or_and, put_and])
theorem TableMatch.vdadd (q : BitVec 1) (g : BitVec 3) (d : BitVec 5) (a : BitVec 5) (b : BitVec 5) (m : BitVec 6) : TableMatch.Statement (.vdadd q g d a b m) := 
  tableMatch_of (0x40000000 ||| put q 24 ||| put g 21 ||| put d 16 ||| put a 11 ||| put b 6 ||| put m 0) rfl rfl (by simp (disch := decide) [or_and, put_and])
theorem TableMatch.vdmul (q : BitVec 1) (g : BitVec 3) (d : BitVec 5) (a : BitVec 5) (b : BitVec 5) : TableMatch.Statement (.vdmul q g d a b) := 
  tableMatch_of (0x42000000 ||| put q 24 ||| put g 21 ||| put d 16 ||| put a 11 ||| put b 6) rfl rfl (by simp (disch := decide) [or_and, put_and])
theorem TableMatch.vdmax (q : BitVec 1) (g : BitVec 3) (d : BitVec 5) (a : BitVec 5) (b : BitVec 5) (m : BitVec 6) : TableMatch.Statement (.vdmax q g d a b m) := 
  tableMatch_of (0x44000000 ||| put q 24 ||| put g 21 ||| put d 16 ||| put a 11 ||| put b 6 ||| put m 0) rfl rfl (by simp (disch := decide) [or_and, put_and])
theorem TableMatch.vdcvt (q : BitVec 1) (g : BitVec 3) (d : BitVec 5) (a : BitVec 5) (m : BitVec 3) : TableMatch.Statement (.vdcvt q g d a m) := 
  tableMatch_of (0x46000000 ||| put q 24 ||| put g 21 ||| put d 16 ||| put a 11 ||| put m 0) rfl rfl (by simp (disch := decide) [or_and, put_and])
theorem TableMatch.vdscl (q : BitVec 1) (g : BitVec 3) (d : BitVec 5) (a : BitVec 5) (s : BitVec 6) : TableMatch.Statement (.vdscl q g d a s) := 
  tableMatch_of (0x48000000 ||| put q 24 ||| put g 21 ||| put d 16 ||| put a 11 ||| put s 5) rfl rfl (by simp (disch := decide) [or_and, put_and])
theorem TableMatch.vperm (q : BitVec 1) (g : BitVec 3) (d : BitVec 5) (a : BitVec 5) (b : BitVec 5) (m : BitVec 6) : TableMatch.Statement (.vperm q g d a b m) := 
  tableMatch_of (0x60000000 ||| put q 24 ||| put g 21 ||| put d 16 ||| put a 11 ||| put b 6 ||| put m 0) rfl rfl (by simp (disch := decide) [or_and, put_and])
theorem TableMatch.vnib (q : BitVec 1) (g : BitVec 3) (d : BitVec 5) (a : BitVec 5) (m : BitVec 5) : TableMatch.Statement (.vnib q g d a m) := 
  tableMatch_of (0x62000000 ||| put q 24 ||| put g 21 ||| put d 16 ||| put a 11 ||| put m 0) rfl rfl (by simp (disch := decide) [or_and, put_and])
theorem TableMatch.vshuf (q : BitVec 1) (g : BitVec 3) (d : BitVec 5) (a : BitVec 5) (b : BitVec 5) (m : BitVec 6) : TableMatch.Statement (.vshuf q g d a b m) := 
  tableMatch_of (0x64000000 ||| put q 24 ||| put g 21 ||| put d 16 ||| put a 11 ||| put b 6 ||| put m 0) rfl rfl (by simp (disch := decide) [or_and, put_and])
theorem TableMatch.vbcast (q : BitVec 1) (g : BitVec 3) (d : BitVec 5) (s : BitVec 6) (m : BitVec 5) : TableMatch.Statement (.vbcast q g d s m) := 
  tableMatch_of (0x66000000 ||| put q 24 ||| put g 21 ||| put d 16 ||| put s 5 ||| put m 0) rfl rfl (by simp (disch := decide) [or_and, put_and])
theorem TableMatch.vmovs (q : BitVec 1) (g : BitVec 3) (d : BitVec 6) (a : BitVec 5) (l : BitVec 6) (m : BitVec 4) : TableMatch.Statement (.vmovs q g d a l m) := 
  tableMatch_of (0x68000000 ||| put q 24 ||| put g 21 ||| put d 15 ||| put a 10 ||| put l 4 ||| put m 0) rfl rfl (by simp (disch := decide) [or_and, put_and])
theorem TableMatch.vins (q : BitVec 1) (g : BitVec 3) (d : BitVec 5) (a : BitVec 5) (s : BitVec 6) (m : BitVec 5) : TableMatch.Statement (.vins q g d a s m) := 
  tableMatch_of (0x6a000000 ||| put q 24 ||| put g 21 ||| put d 16 ||| put a 11 ||| put s 5 ||| put m 0) rfl rfl (by simp (disch := decide) [or_and, put_and])
theorem TableMatch.viota (q : BitVec 1) (g : BitVec 3) (d : BitVec 5) (m : BitVec 6) : TableMatch.Statement (.viota q g d m) := 
  tableMatch_of (0x6c000000 ||| put q 24 ||| put g 21 ||| put d 16 ||| put m 0) rfl rfl (by simp (disch := decide) [or_and, put_and])
theorem TableMatch.vmov (q : BitVec 1) (g : BitVec 3) (d : BitVec 5) (a : BitVec 5) : TableMatch.Statement (.vmov q g d a) := 
  tableMatch_of (0x6e000000 ||| put q 24 ||| put g 21 ||| put d 16 ||| put a 11) rfl rfl (by simp (disch := decide) [or_and, put_and])
theorem TableMatch.vred (q : BitVec 1) (g : BitVec 3) (d : BitVec 5) (a : BitVec 5) (m : BitVec 6) : TableMatch.Statement (.vred q g d a m) := 
  tableMatch_of (0x70000000 ||| put q 24 ||| put g 21 ||| put d 16 ||| put a 11 ||| put m 0) rfl rfl (by simp (disch := decide) [or_and, put_and])
theorem TableMatch.vscan (q : BitVec 1) (g : BitVec 3) (d : BitVec 5) (a : BitVec 5) (m : BitVec 6) : TableMatch.Statement (.vscan q g d a m) := 
  tableMatch_of (0x72000000 ||| put q 24 ||| put g 21 ||| put d 16 ||| put a 11 ||| put m 0) rfl rfl (by simp (disch := decide) [or_and, put_and])
theorem TableMatch.vcmp (q : BitVec 1) (g : BitVec 3) (p : BitVec 7) (a : BitVec 5) (b : BitVec 5) (c : BitVec 4) : TableMatch.Statement (.vcmp q g p a b c) := 
  tableMatch_of (0x74000000 ||| put q 24 ||| put g 21 ||| put p 14 ||| put a 9 ||| put b 4 ||| put c 0) rfl rfl (by simp (disch := decide) [or_and, put_and])
theorem TableMatch.vfcmp (q : BitVec 1) (g : BitVec 3) (p : BitVec 7) (a : BitVec 5) (b : BitVec 5) (c : BitVec 4) : TableMatch.Statement (.vfcmp q g p a b c) := 
  tableMatch_of (0x76000000 ||| put q 24 ||| put g 21 ||| put p 14 ||| put a 9 ||| put b 4 ||| put c 0) rfl rfl (by simp (disch := decide) [or_and, put_and])
theorem TableMatch.pand (q : BitVec 1) (g : BitVec 3) (p : BitVec 7) (a : BitVec 7) (b : BitVec 7) : TableMatch.Statement (.pand q g p a b) := 
  tableMatch_of (0x78000000 ||| put q 24 ||| put g 21 ||| put p 14 ||| put a 7 ||| put b 0) rfl rfl (by simp (disch := decide) [or_and, put_and])
theorem TableMatch.por (q : BitVec 1) (g : BitVec 3) (p : BitVec 7) (a : BitVec 7) (b : BitVec 7) : TableMatch.Statement (.por q g p a b) := 
  tableMatch_of (0x7a000000 ||| put q 24 ||| put g 21 ||| put p 14 ||| put a 7 ||| put b 0) rfl rfl (by simp (disch := decide) [or_and, put_and])
theorem TableMatch.pxor (q : BitVec 1) (g : BitVec 3) (p : BitVec 7) (a : BitVec 7) (b : BitVec 7) : TableMatch.Statement (.pxor q g p a b) := 
  tableMatch_of (0x7c000000 ||| put q 24 ||| put g 21 ||| put p 14 ||| put a 7 ||| put b 0) rfl rfl (by simp (disch := decide) [or_and, put_and])
theorem TableMatch.pandn (q : BitVec 1) (g : BitVec 3) (p : BitVec 7) (a : BitVec 7) (b : BitVec 7) : TableMatch.Statement (.pandn q g p a b) := 
  tableMatch_of (0x7e000000 ||| put q 24 ||| put g 21 ||| put p 14 ||| put a 7 ||| put b 0) rfl rfl (by simp (disch := decide) [or_and, put_and])
theorem TableMatch.pcnt (q : BitVec 1) (g : BitVec 3) (d : BitVec 6) (a : BitVec 7) (m : BitVec 8) : TableMatch.Statement (.pcnt q g d a m) := 
  tableMatch_of (0x80000000 ||| put q 24 ||| put g 21 ||| put d 15 ||| put a 8 ||| put m 0) rfl rfl (by simp (disch := decide) [or_and, put_and])
theorem TableMatch.vqdeq (q : BitVec 1) (g : BitVec 3) (d : BitVec 5) (a : BitVec 5) (b : BitVec 5) (m : BitVec 2) : TableMatch.Statement (.vqdeq q g d a b m) := 
  tableMatch_of (0x90000000 ||| put q 24 ||| put g 21 ||| put d 16 ||| put a 11 ||| put b 6 ||| put m 0) rfl rfl (by simp (disch := decide) [or_and, put_and])
theorem TableMatch.vqnt (q : BitVec 1) (g : BitVec 3) (d : BitVec 5) (a : BitVec 5) (b : BitVec 5) (m : BitVec 2) : TableMatch.Statement (.vqnt q g d a b m) := 
  tableMatch_of (0x92000000 ||| put q 24 ||| put g 21 ||| put d 16 ||| put a 11 ||| put b 6 ||| put m 0) rfl rfl (by simp (disch := decide) [or_and, put_and])
theorem TableMatch.vrng (q : BitVec 1) (g : BitVec 3) (d : BitVec 5) (a : BitVec 5) (b : BitVec 5) (m : BitVec 6) : TableMatch.Statement (.vrng q g d a b m) := 
  tableMatch_of (0x94000000 ||| put q 24 ||| put g 21 ||| put d 16 ||| put a 11 ||| put b 6 ||| put m 0) rfl rfl (by simp (disch := decide) [or_and, put_and])
theorem TableMatch.mcall (g : BitVec 3) (r : BitVec 7) (a : BitVec 2) : TableMatch.Statement (.mcall g r a) := 
  tableMatch_of (0x02000000 ||| put g 21 ||| put r 14 ||| put a 0) rfl rfl (by simp (disch := decide) [or_and, put_and])
theorem TableMatch.bch (g : BitVec 3) (a : BitVec 3) : TableMatch.Statement (.bch g a) := 
  tableMatch_of (0x04000000 ||| put g 21 ||| put a 18) rfl rfl (by simp (disch := decide) [or_and, put_and])
theorem TableMatch.ech (g : BitVec 3) (a : BitVec 3) : TableMatch.Statement (.ech g a) := 
  tableMatch_of (0x06000000 ||| put g 21 ||| put a 18) rfl rfl (by simp (disch := decide) [or_and, put_and])
theorem TableMatch.mdrain (g : BitVec 3) (a : BitVec 3) (t : BitVec 5) (n : BitVec 5) (m : BitVec 5) : TableMatch.Statement (.mdrain g a t n m) := 
  tableMatch_of (0x08000000 ||| put g 21 ||| put a 18 ||| put t 13 ||| put n 5 ||| put m 0) rfl rfl (by simp (disch := decide) [or_and, put_and])
theorem TableMatch.mzero (g : BitVec 3) (a : BitVec 3) : TableMatch.Statement (.mzero g a) := 
  tableMatch_of (0x0a000000 ||| put g 21 ||| put a 18) rfl rfl (by simp (disch := decide) [or_and, put_and])
theorem TableMatch.mspill (g : BitVec 3) (a : BitVec 3) (t : BitVec 5) (h : BitVec 1) : TableMatch.Statement (.mspill g a t h) := 
  tableMatch_of (0x0c000000 ||| put g 21 ||| put a 18 ||| put t 13 ||| put h 0) rfl rfl (by simp (disch := decide) [or_and, put_and])
theorem TableMatch.mfill (g : BitVec 3) (a : BitVec 3) (t : BitVec 5) (h : BitVec 1) : TableMatch.Statement (.mfill g a t h) := 
  tableMatch_of (0x0e000000 ||| put g 21 ||| put a 18 ||| put t 13 ||| put h 0) rfl rfl (by simp (disch := decide) [or_and, put_and])
theorem TableMatch.mpwr (g : BitVec 3) (t : BitVec 5) : TableMatch.Statement (.mpwr g t) := 
  tableMatch_of (0x10000000 ||| put g 21 ||| put t 13) rfl rfl (by simp (disch := decide) [or_and, put_and])
theorem TableMatch.mpwrTab (g : BitVec 3) (t : BitVec 5) : TableMatch.Statement (.mpwrTab g t) := 
  tableMatch_of (0x10000001 ||| put g 21 ||| put t 13) rfl rfl (by simp (disch := decide) [or_and, put_and])
theorem TableMatch.mprd (g : BitVec 3) (t : BitVec 5) : TableMatch.Statement (.mprd g t) := 
  tableMatch_of (0x12000000 ||| put g 21 ||| put t 13) rfl rfl (by simp (disch := decide) [or_and, put_and])
theorem TableMatch.mprdTab (g : BitVec 3) (t : BitVec 5) : TableMatch.Statement (.mprdTab g t) := 
  tableMatch_of (0x12000001 ||| put g 21 ||| put t 13) rfl rfl (by simp (disch := decide) [or_and, put_and])
theorem TableMatch.tzero (g : BitVec 3) (d : BitVec 5) (m : BitVec 6) : TableMatch.Statement (.tzero g d m) := 
  tableMatch_of (0x20000000 ||| put g 21 ||| put d 16 ||| put m 0) rfl rfl (by simp (disch := decide) [or_and, put_and])
theorem TableMatch.tcopy (g : BitVec 3) (d : BitVec 5) (a : BitVec 5) : TableMatch.Statement (.tcopy g d a) := 
  tableMatch_of (0x22000000 ||| put g 21 ||| put d 16 ||| put a 11) rfl rfl (by simp (disch := decide) [or_and, put_and])
theorem TableMatch.tv2t (g : BitVec 3) (d : BitVec 5) (a : BitVec 5) (i : BitVec 5) : TableMatch.Statement (.tv2t g d a i) := 
  tableMatch_of (0x24000000 ||| put g 21 ||| put d 16 ||| put a 11 ||| put i 6) rfl rfl (by simp (disch := decide) [or_and, put_and])
theorem TableMatch.tt2v (g : BitVec 3) (d : BitVec 5) (a : BitVec 5) (i : BitVec 5) : TableMatch.Statement (.tt2v g d a i) := 
  tableMatch_of (0x26000000 ||| put g 21 ||| put d 16 ||| put a 11 ||| put i 6) rfl rfl (by simp (disch := decide) [or_and, put_and])
theorem TableMatch.ckleaf (g : BitVec 3) (t : BitVec 5) (r : BitVec 5) (c : BitVec 5) : TableMatch.Statement (.ckleaf g t r c) := 
  tableMatch_of (0x40000000 ||| put g 21 ||| put t 16 ||| put r 11 ||| put c 6) rfl rfl (by simp (disch := decide) [or_and, put_and])
theorem TableMatch.cknode (g : BitVec 3) (t : BitVec 5) (r : BitVec 5) (c : BitVec 5) : TableMatch.Statement (.cknode g t r c) := 
  tableMatch_of (0x42000000 ||| put g 21 ||| put t 16 ||| put r 11 ||| put c 6) rfl rfl (by simp (disch := decide) [or_and, put_and])
theorem TableMatch.ckback (g : BitVec 3) (t : BitVec 5) (r : BitVec 5) (c : BitVec 5) : TableMatch.Statement (.ckback g t r c) := 
  tableMatch_of (0x44000000 ||| put g 21 ||| put t 16 ||| put r 11 ||| put c 6) rfl rfl (by simp (disch := decide) [or_and, put_and])
theorem TableMatch.ckdiv (g : BitVec 3) (t : BitVec 5) (r : BitVec 5) (d : BitVec 6) : TableMatch.Statement (.ckdiv g t r d) := 
  tableMatch_of (0x46000000 ||| put g 21 ||| put t 16 ||| put r 11 ||| put d 0) rfl rfl (by simp (disch := decide) [or_and, put_and])
theorem TableMatch.cksamp (g : BitVec 3) (t : BitVec 5) (r : BitVec 5) (c : BitVec 5) : TableMatch.Statement (.cksamp g t r c) := 
  tableMatch_of (0x48000000 ||| put g 21 ||| put t 16 ||| put r 11 ||| put c 6) rfl rfl (by simp (disch := decide) [or_and, put_and])
theorem TableMatch.ixwalk (g : BitVec 3) (d : BitVec 5) (a : BitVec 5) (b : BitVec 5) : TableMatch.Statement (.ixwalk g d a b) := 
  tableMatch_of (0x4a000000 ||| put g 21 ||| put d 16 ||| put a 11 ||| put b 6) rfl rfl (by simp (disch := decide) [or_and, put_and])
theorem TableMatch.ixsplit (g : BitVec 3) (d : BitVec 5) (a : BitVec 5) (p : BitVec 6) : TableMatch.Statement (.ixsplit g d a p) := 
  tableMatch_of (0x4c000000 ||| put g 21 ||| put d 16 ||| put a 11 ||| put p 0) rfl rfl (by simp (disch := decide) [or_and, put_and])
theorem TableMatch.asort (g : BitVec 3) (d : BitVec 5) (a : BitVec 5) (b : BitVec 5) (m : BitVec 6) : TableMatch.Statement (.asort g d a b m) := 
  tableMatch_of (0x60000000 ||| put g 21 ||| put d 16 ||| put a 11 ||| put b 6 ||| put m 0) rfl rfl (by simp (disch := decide) [or_and, put_and])
theorem TableMatch.amrg (g : BitVec 3) (k : BitVec 2) (t : BitVec 5) (s : BitVec 6) : TableMatch.Statement (.amrg g k t s) := 
  tableMatch_of (0x62000000 ||| put g 21 ||| put k 19 ||| put t 14 ||| put s 8) rfl rfl (by simp (disch := decide) [or_and, put_and])
theorem TableMatch.cread (g : BitVec 3) (k : BitVec 2) (t : BitVec 5) (s : BitVec 6) : TableMatch.Statement (.cread g k t s) := 
  tableMatch_of (0x64000000 ||| put g 21 ||| put k 19 ||| put t 14 ||| put s 8) rfl rfl (by simp (disch := decide) [or_and, put_and])
theorem TableMatch.cclr (g : BitVec 3) (k : BitVec 2) (m : BitVec 2) : TableMatch.Statement (.cclr g k m) := 
  tableMatch_of (0x66000000 ||| put g 21 ||| put k 19 ||| put m 0) rfl rfl (by simp (disch := decide) [or_and, put_and])
theorem TableMatch.csamp (g : BitVec 3) (k : BitVec 2) (s : BitVec 6) : TableMatch.Statement (.csamp g k s) := 
  tableMatch_of (0x68000000 ||| put g 21 ||| put k 19 ||| put s 8) rfl rfl (by simp (disch := decide) [or_and, put_and])
theorem TableMatch.clpush (g : BitVec 3) (a : BitVec 5) (n : BitVec 4) : TableMatch.Statement (.clpush g a n) := 
  tableMatch_of (0x70000000 ||| put g 21 ||| put a 11 ||| put n 0) rfl rfl (by simp (disch := decide) [or_and, put_and])
theorem TableMatch.clpull (g : BitVec 3) (d : BitVec 5) : TableMatch.Statement (.clpull g d) := 
  tableMatch_of (0x72000000 ||| put g 21 ||| put d 16) rfl rfl (by simp (disch := decide) [or_and, put_and])
theorem TableMatch.clseal (g : BitVec 3) (n : BitVec 4) : TableMatch.Statement (.clseal g n) := 
  tableMatch_of (0x74000000 ||| put g 21 ||| put n 0) rfl rfl (by simp (disch := decide) [or_and, put_and])
theorem TableMatch.clcfg (g : BitVec 3) (a : BitVec 5) : TableMatch.Statement (.clcfg g a) := 
  tableMatch_of (0x76000000 ||| put g 21 ||| put a 11) rfl rfl (by simp (disch := decide) [or_and, put_and])
theorem TableMatch.clcfgEnd (g : BitVec 3) : TableMatch.Statement (.clcfgEnd g) := 
  tableMatch_of (0x76000001 ||| put g 21) rfl rfl (by simp (disch := decide) [or_and, put_and])
theorem TableMatch.ldd (q : BitVec 1) (g : BitVec 3) (d : BitVec 6) (b : BitVec 6) (c : BitVec 4) (f : BitVec 5) : TableMatch.Statement (.ldd q g d b c f) := 
  tableMatch_of (0x02000000 ||| put q 24 ||| put g 21 ||| put d 15 ||| put b 9 ||| put c 5 ||| put f 0) rfl rfl (by simp (disch := decide) [or_and, put_and])
theorem TableMatch.ldw (q : BitVec 1) (g : BitVec 3) (d : BitVec 6) (b : BitVec 6) (c : BitVec 4) (f : BitVec 5) : TableMatch.Statement (.ldw q g d b c f) := 
  tableMatch_of (0x04000000 ||| put q 24 ||| put g 21 ||| put d 15 ||| put b 9 ||| put c 5 ||| put f 0) rfl rfl (by simp (disch := decide) [or_and, put_and])
theorem TableMatch.ldwu (q : BitVec 1) (g : BitVec 3) (d : BitVec 6) (b : BitVec 6) (c : BitVec 4) (f : BitVec 5) : TableMatch.Statement (.ldwu q g d b c f) := 
  tableMatch_of (0x06000000 ||| put q 24 ||| put g 21 ||| put d 15 ||| put b 9 ||| put c 5 ||| put f 0) rfl rfl (by simp (disch := decide) [or_and, put_and])
theorem TableMatch.ldh (q : BitVec 1) (g : BitVec 3) (d : BitVec 6) (b : BitVec 6) (c : BitVec 4) (f : BitVec 5) : TableMatch.Statement (.ldh q g d b c f) := 
  tableMatch_of (0x08000000 ||| put q 24 ||| put g 21 ||| put d 15 ||| put b 9 ||| put c 5 ||| put f 0) rfl rfl (by simp (disch := decide) [or_and, put_and])
theorem TableMatch.ldhu (q : BitVec 1) (g : BitVec 3) (d : BitVec 6) (b : BitVec 6) (c : BitVec 4) (f : BitVec 5) : TableMatch.Statement (.ldhu q g d b c f) := 
  tableMatch_of (0x0a000000 ||| put q 24 ||| put g 21 ||| put d 15 ||| put b 9 ||| put c 5 ||| put f 0) rfl rfl (by simp (disch := decide) [or_and, put_and])
theorem TableMatch.ldb (q : BitVec 1) (g : BitVec 3) (d : BitVec 6) (b : BitVec 6) (c : BitVec 4) (f : BitVec 5) : TableMatch.Statement (.ldb q g d b c f) := 
  tableMatch_of (0x0c000000 ||| put q 24 ||| put g 21 ||| put d 15 ||| put b 9 ||| put c 5 ||| put f 0) rfl rfl (by simp (disch := decide) [or_and, put_and])
theorem TableMatch.ldbu (q : BitVec 1) (g : BitVec 3) (d : BitVec 6) (b : BitVec 6) (c : BitVec 4) (f : BitVec 5) : TableMatch.Statement (.ldbu q g d b c f) := 
  tableMatch_of (0x0e000000 ||| put q 24 ||| put g 21 ||| put d 15 ||| put b 9 ||| put c 5 ||| put f 0) rfl rfl (by simp (disch := decide) [or_and, put_and])
theorem TableMatch.std (g : BitVec 3) (d : BitVec 6) (b : BitVec 6) (c : BitVec 4) (f : BitVec 5) : TableMatch.Statement (.std g d b c f) := 
  tableMatch_of (0x10000000 ||| put g 21 ||| put d 15 ||| put b 9 ||| put c 5 ||| put f 0) rfl rfl (by simp (disch := decide) [or_and, put_and])
theorem TableMatch.stw (g : BitVec 3) (d : BitVec 6) (b : BitVec 6) (c : BitVec 4) (f : BitVec 5) : TableMatch.Statement (.stw g d b c f) := 
  tableMatch_of (0x12000000 ||| put g 21 ||| put d 15 ||| put b 9 ||| put c 5 ||| put f 0) rfl rfl (by simp (disch := decide) [or_and, put_and])
theorem TableMatch.sth (g : BitVec 3) (d : BitVec 6) (b : BitVec 6) (c : BitVec 4) (f : BitVec 5) : TableMatch.Statement (.sth g d b c f) := 
  tableMatch_of (0x14000000 ||| put g 21 ||| put d 15 ||| put b 9 ||| put c 5 ||| put f 0) rfl rfl (by simp (disch := decide) [or_and, put_and])
theorem TableMatch.stb (g : BitVec 3) (d : BitVec 6) (b : BitVec 6) (c : BitVec 4) (f : BitVec 5) : TableMatch.Statement (.stb g d b c f) := 
  tableMatch_of (0x16000000 ||| put g 21 ||| put d 15 ||| put b 9 ||| put c 5 ||| put f 0) rfl rfl (by simp (disch := decide) [or_and, put_and])
theorem TableMatch.vld (q : BitVec 1) (g : BitVec 3) (d : BitVec 5) (b : BitVec 6) (c : BitVec 4) (f : BitVec 6) : TableMatch.Statement (.vld q g d b c f) := 
  tableMatch_of (0x18000000 ||| put q 24 ||| put g 21 ||| put d 16 ||| put b 10 ||| put c 6 ||| put f 0) rfl rfl (by simp (disch := decide) [or_and, put_and])
theorem TableMatch.vst (g : BitVec 3) (d : BitVec 5) (b : BitVec 6) (c : BitVec 4) (f : BitVec 6) : TableMatch.Statement (.vst g d b c f) := 
  tableMatch_of (0x1a000000 ||| put g 21 ||| put d 16 ||| put b 10 ||| put c 6 ||| put f 0) rfl rfl (by simp (disch := decide) [or_and, put_and])
theorem TableMatch.lddp (q : BitVec 1) (g : BitVec 3) (d : BitVec 6) (b : BitVec 6) (c : BitVec 4) (f : BitVec 5) : TableMatch.Statement (.lddp q g d b c f) := 
  tableMatch_of (0x1c000000 ||| put q 24 ||| put g 21 ||| put d 15 ||| put b 9 ||| put c 5 ||| put f 0) rfl rfl (by simp (disch := decide) [or_and, put_and])
theorem TableMatch.vldp (q : BitVec 1) (g : BitVec 3) (d : BitVec 5) (b : BitVec 6) (c : BitVec 4) (f : BitVec 6) : TableMatch.Statement (.vldp q g d b c f) := 
  tableMatch_of (0x1e000000 ||| put q 24 ||| put g 21 ||| put d 16 ||| put b 10 ||| put c 6 ||| put f 0) rfl rfl (by simp (disch := decide) [or_and, put_and])
theorem TableMatch.vstp (g : BitVec 3) (d : BitVec 5) (b : BitVec 6) (c : BitVec 4) (f : BitVec 6) : TableMatch.Statement (.vstp g d b c f) := 
  tableMatch_of (0x20000000 ||| put g 21 ||| put d 16 ||| put b 10 ||| put c 6 ||| put f 0) rfl rfl (by simp (disch := decide) [or_and, put_and])
theorem TableMatch.tld (g : BitVec 3) (t : BitVec 5) (b : BitVec 6) (c : BitVec 4) : TableMatch.Statement (.tld g t b c) := 
  tableMatch_of (0x28000000 ||| put g 21 ||| put t 16 ||| put b 10 ||| put c 6) rfl rfl (by simp (disch := decide) [or_and, put_and])
theorem TableMatch.tst (g : BitVec 3) (t : BitVec 5) (b : BitVec 6) (c : BitVec 4) : TableMatch.Statement (.tst g t b c) := 
  tableMatch_of (0x2a000000 ||| put g 21 ||| put t 16 ||| put b 10 ||| put c 6) rfl rfl (by simp (disch := decide) [or_and, put_and])
theorem TableMatch.tgath (g : BitVec 3) (t : BitVec 5) (b : BitVec 6) (c : BitVec 4) (i : BitVec 5) (v : BitVec 1) : TableMatch.Statement (.tgath g t b c i v) := 
  tableMatch_of (0x2c000000 ||| put g 21 ||| put t 16 ||| put b 10 ||| put c 6 ||| put i 1 ||| put v 0) rfl rfl (by simp (disch := decide) [or_and, put_and])
theorem TableMatch.tscat (g : BitVec 3) (t : BitVec 5) (b : BitVec 6) (c : BitVec 4) (i : BitVec 5) (v : BitVec 1) : TableMatch.Statement (.tscat g t b c i v) := 
  tableMatch_of (0x2e000000 ||| put g 21 ||| put t 16 ||| put b 10 ||| put c 6 ||| put i 1 ||| put v 0) rfl rfl (by simp (disch := decide) [or_and, put_and])
theorem TableMatch.tscadd (g : BitVec 3) (t : BitVec 5) (b : BitVec 6) (c : BitVec 4) (i : BitVec 5) (v : BitVec 1) : TableMatch.Statement (.tscadd g t b c i v) := 
  tableMatch_of (0x30000000 ||| put g 21 ||| put t 16 ||| put b 10 ||| put c 6 ||| put i 1 ||| put v 0) rfl rfl (by simp (disch := decide) [or_and, put_and])
theorem TableMatch.aadd (g : BitVec 3) (d : BitVec 6) (b : BitVec 6) (s : BitVec 6) (o : BitVec 3) : TableMatch.Statement (.aadd g d b s o) := 
  tableMatch_of (0x40000000 ||| put g 21 ||| put d 15 ||| put b 9 ||| put s 3 ||| put o 0) rfl rfl (by simp (disch := decide) [or_and, put_and])
theorem TableMatch.aaddw (g : BitVec 3) (d : BitVec 6) (b : BitVec 6) (s : BitVec 6) (o : BitVec 3) : TableMatch.Statement (.aaddw g d b s o) := 
  tableMatch_of (0x42000000 ||| put g 21 ||| put d 15 ||| put b 9 ||| put s 3 ||| put o 0) rfl rfl (by simp (disch := decide) [or_and, put_and])
theorem TableMatch.afadd (g : BitVec 3) (d : BitVec 6) (b : BitVec 6) (s : BitVec 6) (o : BitVec 3) : TableMatch.Statement (.afadd g d b s o) := 
  tableMatch_of (0x44000000 ||| put g 21 ||| put d 15 ||| put b 9 ||| put s 3 ||| put o 0) rfl rfl (by simp (disch := decide) [or_and, put_and])
theorem TableMatch.adadd (g : BitVec 3) (d : BitVec 6) (b : BitVec 6) (s : BitVec 6) (o : BitVec 3) : TableMatch.Statement (.adadd g d b s o) := 
  tableMatch_of (0x46000000 ||| put g 21 ||| put d 15 ||| put b 9 ||| put s 3 ||| put o 0) rfl rfl (by simp (disch := decide) [or_and, put_and])
theorem TableMatch.amax (g : BitVec 3) (d : BitVec 6) (b : BitVec 6) (s : BitVec 6) (o : BitVec 3) : TableMatch.Statement (.amax g d b s o) := 
  tableMatch_of (0x48000000 ||| put g 21 ||| put d 15 ||| put b 9 ||| put s 3 ||| put o 0) rfl rfl (by simp (disch := decide) [or_and, put_and])
theorem TableMatch.amin (g : BitVec 3) (d : BitVec 6) (b : BitVec 6) (s : BitVec 6) (o : BitVec 3) : TableMatch.Statement (.amin g d b s o) := 
  tableMatch_of (0x4a000000 ||| put g 21 ||| put d 15 ||| put b 9 ||| put s 3 ||| put o 0) rfl rfl (by simp (disch := decide) [or_and, put_and])
theorem TableMatch.aor (g : BitVec 3) (d : BitVec 6) (b : BitVec 6) (s : BitVec 6) (o : BitVec 3) : TableMatch.Statement (.aor g d b s o) := 
  tableMatch_of (0x4c000000 ||| put g 21 ||| put d 15 ||| put b 9 ||| put s 3 ||| put o 0) rfl rfl (by simp (disch := decide) [or_and, put_and])
theorem TableMatch.aand (g : BitVec 3) (d : BitVec 6) (b : BitVec 6) (s : BitVec 6) (o : BitVec 3) : TableMatch.Statement (.aand g d b s o) := 
  tableMatch_of (0x4e000000 ||| put g 21 ||| put d 15 ||| put b 9 ||| put s 3 ||| put o 0) rfl rfl (by simp (disch := decide) [or_and, put_and])
theorem TableMatch.axchg (g : BitVec 3) (d : BitVec 6) (b : BitVec 6) (s : BitVec 6) (o : BitVec 3) : TableMatch.Statement (.axchg g d b s o) := 
  tableMatch_of (0x50000000 ||| put g 21 ||| put d 15 ||| put b 9 ||| put s 3 ||| put o 0) rfl rfl (by simp (disch := decide) [or_and, put_and])
theorem TableMatch.acas (g : BitVec 3) (d : BitVec 6) (b : BitVec 6) (s : BitVec 6) (o : BitVec 3) : TableMatch.Statement (.acas g d b s o) := 
  tableMatch_of (0x52000000 ||| put g 21 ||| put d 15 ||| put b 9 ||| put s 3 ||| put o 0) rfl rfl (by simp (disch := decide) [or_and, put_and])
theorem TableMatch.fence (g : BitVec 3) (m : BitVec 16) (k : BitVec 5) : TableMatch.Statement (.fence g m k) := 
  tableMatch_of (0x60000000 ||| put g 21 ||| put m 5 ||| put k 0) rfl rfl (by simp (disch := decide) [or_and, put_and])
theorem TableMatch.waitm (g : BitVec 3) (a : BitVec 6) (b : BitVec 6) (c : BitVec 6) (f : BitVec 3) : TableMatch.Statement (.waitm g a b c f) := 
  tableMatch_of (0x62000000 ||| put g 21 ||| put a 15 ||| put b 9 ||| put c 3 ||| put f 0) rfl rfl (by simp (disch := decide) [or_and, put_and])
theorem TableMatch.cpy (g : BitVec 3) (a : BitVec 6) (b : BitVec 6) (c : BitVec 6) : TableMatch.Statement (.cpy g a b c) := 
  tableMatch_of (0x70000000 ||| put g 21 ||| put a 15 ||| put b 9 ||| put c 3) rfl rfl (by simp (disch := decide) [or_and, put_and])
theorem TableMatch.cpyZero (g : BitVec 3) (a : BitVec 6) (c : BitVec 6) : TableMatch.Statement (.cpyZero g a c) := 
  tableMatch_of (0x70000001 ||| put g 21 ||| put a 15 ||| put c 3) rfl rfl (by simp (disch := decide) [or_and, put_and])
theorem TableMatch.cpyq (g : BitVec 3) (n : BitVec 6) (b : BitVec 6) (c : BitVec 6) : TableMatch.Statement (.cpyq g n b c) := 
  tableMatch_of (0x72000000 ||| put g 21 ||| put n 15 ||| put b 9 ||| put c 3) rfl rfl (by simp (disch := decide) [or_and, put_and])
theorem TableMatch.qpop (g : BitVec 3) (n : BitVec 3) (d : BitVec 6) : TableMatch.Statement (.qpop g n d) := 
  tableMatch_of (0x74000000 ||| put g 21 ||| put n 18 ||| put d 12) rfl rfl (by simp (disch := decide) [or_and, put_and])
theorem TableMatch.qpopBind (g : BitVec 3) (n : BitVec 3) (d : BitVec 6) : TableMatch.Statement (.qpopBind g n d) := 
  tableMatch_of (0x74000001 ||| put g 21 ||| put n 18 ||| put d 12) rfl rfl (by simp (disch := decide) [or_and, put_and])
theorem TableMatch.qstat (g : BitVec 3) (n : BitVec 3) (d : BitVec 6) : TableMatch.Statement (.qstat g n d) := 
  tableMatch_of (0x76000000 ||| put g 21 ||| put n 18 ||| put d 12) rfl rfl (by simp (disch := decide) [or_and, put_and])
theorem TableMatch.sbar (g : BitVec 3) (m : BitVec 16) (k : BitVec 5) : TableMatch.Statement (.sbar g m k) := 
  tableMatch_of (0x78000000 ||| put g 21 ||| put m 5 ||| put k 0) rfl rfl (by simp (disch := decide) [or_and, put_and])
theorem TableMatch.rinv (g : BitVec 3) (a : BitVec 6) (b : BitVec 6) (c : BitVec 6) (f : BitVec 3) : TableMatch.Statement (.rinv g a b c f) := 
  tableMatch_of (0x7a000000 ||| put g 21 ||| put a 15 ||| put b 9 ||| put c 3 ||| put f 0) rfl rfl (by simp (disch := decide) [or_and, put_and])
theorem TableMatch.rflush (g : BitVec 3) (a : BitVec 6) (b : BitVec 6) (c : BitVec 6) (f : BitVec 3) : TableMatch.Statement (.rflush g a b c f) := 
  tableMatch_of (0x7c000000 ||| put g 21 ||| put a 15 ||| put b 9 ||| put c 3 ||| put f 0) rfl rfl (by simp (disch := decide) [or_and, put_and])
theorem TableMatch.resv (g : BitVec 3) (h : BitVec 6) (b : BitVec 6) (c : BitVec 6) (f : BitVec 3) : TableMatch.Statement (.resv g h b c f) := 
  tableMatch_of (0x7e000000 ||| put g 21 ||| put h 15 ||| put b 9 ||| put c 3 ||| put f 0) rfl rfl (by simp (disch := decide) [or_and, put_and])
theorem TableMatch.rrel (g : BitVec 3) (h : BitVec 6) : TableMatch.Statement (.rrel g h) := 
  tableMatch_of (0x80000000 ||| put g 21 ||| put h 15) rfl rfl (by simp (disch := decide) [or_and, put_and])
theorem TableMatch.rrelAll (g : BitVec 3) : TableMatch.Statement (.rrelAll g) := 
  tableMatch_of (0x80000001 ||| put g 21) rfl rfl (by simp (disch := decide) [or_and, put_and])
theorem TableMatch.movp (g : BitVec 3) (p : BitVec 8) (s : BitVec 6) : TableMatch.Statement (.movp g p s) := 
  tableMatch_of (0x90000000 ||| put g 21 ||| put p 13 ||| put s 7) rfl rfl (by simp (disch := decide) [or_and, put_and])
theorem TableMatch.movfp (g : BitVec 3) (p : BitVec 8) (s : BitVec 6) : TableMatch.Statement (.movfp g p s) := 
  tableMatch_of (0x92000000 ||| put g 21 ||| put p 13 ||| put s 7) rfl rfl (by simp (disch := decide) [or_and, put_and])
theorem TableMatch.qpush (g : BitVec 3) (n : BitVec 3) (d : BitVec 6) : TableMatch.Statement (.qpush g n d) := 
  tableMatch_of (0x94000000 ||| put g 21 ||| put n 18 ||| put d 12) rfl rfl (by simp (disch := decide) [or_and, put_and])
theorem TableMatch.qpushBind (g : BitVec 3) (n : BitVec 3) (d : BitVec 6) : TableMatch.Statement (.qpushBind g n d) := 
  tableMatch_of (0x94000001 ||| put g 21 ||| put n 18 ||| put d 12) rfl rfl (by simp (disch := decide) [or_and, put_and])
theorem TableMatch.xfuDecode (g : BitVec 3) (u : BitVec 3) (s : BitVec 6) : TableMatch.Statement (.xfuDecode g u s) := 
  tableMatch_of (0x90020000 ||| put g 21 ||| put u 18 ||| put s 7) rfl rfl (by simp (disch := decide) [or_and, put_and])
theorem TableMatch.xfuZorder (g : BitVec 3) (u : BitVec 3) (s : BitVec 6) : TableMatch.Statement (.xfuZorder g u s) := 
  tableMatch_of (0x90022000 ||| put g 21 ||| put u 18 ||| put s 7) rfl rfl (by simp (disch := decide) [or_and, put_and])
theorem TableMatch.xfuUnz (g : BitVec 3) (u : BitVec 3) (s : BitVec 6) : TableMatch.Statement (.xfuUnz g u s) := 
  tableMatch_of (0x90024000 ||| put g 21 ||| put u 18 ||| put s 7) rfl rfl (by simp (disch := decide) [or_and, put_and])
theorem TableMatch.xfuCopy (g : BitVec 3) (u : BitVec 3) (s : BitVec 6) : TableMatch.Statement (.xfuCopy g u s) := 
  tableMatch_of (0x90026000 ||| put g 21 ||| put u 18 ||| put s 7) rfl rfl (by simp (disch := decide) [or_and, put_and])
theorem TableMatch.xfuUnpack4 (g : BitVec 3) (u : BitVec 3) (s : BitVec 6) : TableMatch.Statement (.xfuUnpack4 g u s) := 
  tableMatch_of (0x90028000 ||| put g 21 ||| put u 18 ||| put s 7) rfl rfl (by simp (disch := decide) [or_and, put_and])
theorem TableMatch.xfuSave (g : BitVec 3) (u : BitVec 3) (s : BitVec 6) : TableMatch.Statement (.xfuSave g u s) := 
  tableMatch_of (0x9002a000 ||| put g 21 ||| put u 18 ||| put s 7) rfl rfl (by simp (disch := decide) [or_and, put_and])
theorem TableMatch.xfuLoad (g : BitVec 3) (u : BitVec 3) (s : BitVec 6) : TableMatch.Statement (.xfuLoad g u s) := 
  tableMatch_of (0x9002c000 ||| put g 21 ||| put u 18 ||| put s 7) rfl rfl (by simp (disch := decide) [or_and, put_and])
theorem TableMatch.xfuAbort (g : BitVec 3) (u : BitVec 3) (s : BitVec 6) : TableMatch.Statement (.xfuAbort g u s) := 
  tableMatch_of (0x9002e000 ||| put g 21 ||| put u 18 ||| put s 7) rfl rfl (by simp (disch := decide) [or_and, put_and])
theorem TableMatch.microNop (pr : Fin 2048) (e : BitVec 1) : TableMatch.Statement (.microNop pr e) := nofun
theorem TableMatch.feta (pr : Fin 2048) (e : BitVec 1) (sel : BitVec 3) (x : BitVec 1) : TableMatch.Statement (.feta pr e sel x) := nofun
theorem TableMatch.fetb (pr : Fin 2048) (e : BitVec 1) (sel : BitVec 3) (x : BitVec 1) : TableMatch.Statement (.fetb pr e sel x) := nofun
theorem TableMatch.mac (pr : Fin 2048) (e : BitVec 1) : TableMatch.Statement (.mac pr e) := nofun
theorem TableMatch.macq (pr : Fin 2048) (e : BitVec 1) : TableMatch.Statement (.macq pr e) := nofun
theorem TableMatch.zpc (pr : Fin 2048) (e : BitVec 1) : TableMatch.Statement (.zpc pr e) := nofun
theorem TableMatch.zacc (pr : Fin 2048) (e : BitVec 1) : TableMatch.Statement (.zacc pr e) := nofun
theorem TableMatch.drn (pr : Fin 2048) (e : BitVec 1) (sel : BitVec 3) : TableMatch.Statement (.drn pr e sel) := nofun
theorem TableMatch.setk (pr : Fin 2048) (e : BitVec 1) (imm : BitVec 16) (m : BitVec 1) : TableMatch.Statement (.setk pr e imm m) := nofun
theorem TableMatch.microLoop (pr : Fin 2048) (e : BitVec 1) (target : BitVec 9) : TableMatch.Statement (.microLoop pr e target) := nofun
theorem TableMatch.brz (pr : Fin 2048) (e : BitVec 1) (target : BitVec 9) : TableMatch.Statement (.brz pr e target) := nofun
theorem TableMatch.waitt (pr : Fin 2048) (e : BitVec 1) : TableMatch.Statement (.waitt pr e) := nofun
theorem TableMatch.sigt (pr : Fin 2048) (e : BitVec 1) (sel : BitVec 3) : TableMatch.Statement (.sigt pr e sel) := nofun
theorem TableMatch.xpv (pr : Fin 2048) (e : BitVec 1) (h : BitVec 1) : TableMatch.Statement (.xpv pr e h) := nofun
theorem TableMatch.microWordLimit (pr : Fin 2048) : TableMatch.Statement (.microWordLimit pr) := nofun
theorem TableMatch.arrayWindow (pr : Fin 2048) : TableMatch.Statement (.arrayWindow pr) := nofun
theorem TableMatch.arrayOpStart (pr : Fin 2048) (coreB : Bool) : TableMatch.Statement (.arrayOpStart pr coreB) := nofun
theorem TableMatch.arrayOpComplete (pr : Fin 2048) : TableMatch.Statement (.arrayOpComplete pr) := nofun
theorem TableMatch.tileUnitOpComplete (core : Fin 4096) : TableMatch.Statement (.tileUnitOpComplete core) := nofun
theorem TableMatch.indexEngineComplete (core : Fin 4096) : TableMatch.Statement (.indexEngineComplete core) := nofun
theorem TableMatch.asortComplete (core : Fin 4096) : TableMatch.Statement (.asortComplete core) := nofun
theorem TableMatch.tileLoadComplete (core : Fin 4096) (k : Fin 8) : TableMatch.Statement (.tileLoadComplete core k) := nofun
theorem TableMatch.bulkStoreComplete (core : Fin 4096) (k : Fin 8) : TableMatch.Statement (.bulkStoreComplete core k) := nofun
theorem TableMatch.copyComplete (cl : Fin 512) (k : Fin 32) : TableMatch.Statement (.copyComplete cl k) := nofun
theorem TableMatch.streamElementArrive (ctx : Fin 16384) (q : Fin 8) : TableMatch.Statement (.streamElementArrive ctx q) := nofun
theorem TableMatch.fenceRetire (ctx : Fin 16384) : TableMatch.Statement (.fenceRetire ctx) := nofun
theorem TableMatch.rangeOpComplete (ctx : Fin 16384) : TableMatch.Statement (.rangeOpComplete ctx) := nofun
theorem TableMatch.xfuOpEnd (cl : Fin 512) (u : Fin 4) : TableMatch.Statement (.xfuOpEnd cl u) := nofun
theorem TableMatch.memoryDataReturn (ctx : Fin 16384) (cycles : Nat) : TableMatch.Statement (.memoryDataReturn ctx cycles) := nofun
theorem TableMatch.resultLand (ctx : Fin 16384) : TableMatch.Statement (.resultLand ctx) := nofun
theorem TableMatch.ckTagClear (ctx : Fin 16384) : TableMatch.Statement (.ckTagClear ctx) := nofun
theorem TableMatch.tileStatusValid (ctx : Fin 16384) (t : Fin 32) : TableMatch.Statement (.tileStatusValid ctx t) := nofun
theorem TableMatch.watchdog (ctx : Fin 16384) : TableMatch.Statement (.watchdog ctx) := nofun
theorem TableMatch.arbmodeWrite (ctx : Fin 16384) (val : W64) : TableMatch.Statement (.arbmodeWrite ctx val) := nofun
theorem TableMatch.launchStart (launch : Nat) : TableMatch.Statement (.launchStart launch) := nofun
theorem TableMatch.groupComplete (group : Nat) : TableMatch.Statement (.groupComplete group) := nofun
theorem TableMatch.launchComplete (launch : Nat) : TableMatch.Statement (.launchComplete launch) := nofun
theorem TableMatch.preemptStop (ctx : Fin 16384) : TableMatch.Statement (.preemptStop ctx) := nofun
theorem TableMatch.groupResume (group : Nat) : TableMatch.Statement (.groupResume group) := nofun
theorem TableMatch.mintRowSend (die : Fin 64) : TableMatch.Statement (.mintRowSend die) := nofun
theorem TableMatch.streamHoldRelease (die : Fin 64) : TableMatch.Statement (.streamHoldRelease die) := nofun
theorem TableMatch.mintIterationBoundary (die : Fin 64) : TableMatch.Statement (.mintIterationBoundary die) := nofun
theorem TableMatch.heldWriteApply (v : Fin 16) : TableMatch.Statement (.heldWriteApply v) := nofun
theorem TableMatch.balloonPass (v : Fin 16) : TableMatch.Statement (.balloonPass v) := nofun
theorem TableMatch.frameRestore (frame : Nat) : TableMatch.Statement (.frameRestore frame) := nofun
theorem TableMatch.hdrX (e : BitVec 1) (l1 : BitVec 7) (l2 : BitVec 7) (l3 : BitVec 7) : TableMatch.Statement (.hdrX e l1 l2 l3) := nofun
theorem TableMatch.unassignedOpcode (slot : Fin 4) (w : W32) : TableMatch.Statement (.unassignedOpcode slot w) := nofun
theorem TableMatch.instructionFetchFault (ctx : Fin 16384) : TableMatch.Statement (.instructionFetchFault ctx) := nofun
theorem TableMatch.vnop : TableMatch.Statement .vnop := 
  tableMatch_of (0x00000000) rfl rfl (by simp (disch := decide) [or_and, put_and])
theorem TableMatch.xnop : TableMatch.Statement .xnop := 
  tableMatch_of (0x00000000) rfl rfl (by simp (disch := decide) [or_and, put_and])
theorem TableMatch.mnop : TableMatch.Statement .mnop := 
  tableMatch_of (0x00000000) rfl rfl (by simp (disch := decide) [or_and, put_and])
theorem TableMatch.qtailWrite : TableMatch.Statement .qtailWrite := nofun
theorem TableMatch.qcfgWrite : TableMatch.Statement .qcfgWrite := nofun
theorem TableMatch.shareWrite : TableMatch.Statement .shareWrite := nofun
theorem TableMatch.pwrctlWrite : TableMatch.Statement .pwrctlWrite := nofun
theorem TableMatch.registerWrite : TableMatch.Statement .registerWrite := nofun
theorem TableMatch.launchAccept : TableMatch.Statement .launchAccept := nofun
theorem TableMatch.groupPlace : TableMatch.Statement .groupPlace := nofun
theorem TableMatch.collectiveStart : TableMatch.Statement .collectiveStart := nofun
theorem TableMatch.collectiveComplete : TableMatch.Statement .collectiveComplete := nofun
theorem TableMatch.quantumBoundary : TableMatch.Statement .quantumBoundary := nofun
theorem TableMatch.treasuryClose : TableMatch.Statement .treasuryClose := nofun
theorem TableMatch.handleRegister : TableMatch.Statement .handleRegister := nofun
theorem TableMatch.handleRemove : TableMatch.Statement .handleRemove := nofun
theorem TableMatch.mintMicrocodeReplace : TableMatch.Statement .mintMicrocodeReplace := nofun
theorem TableMatch.mailboxSeqWrite : TableMatch.Statement .mailboxSeqWrite := nofun
theorem TableMatch.generalCoreAccess : TableMatch.Statement .generalCoreAccess := nofun
theorem TableMatch.hostMemoryRequest : TableMatch.Statement .hostMemoryRequest := nofun
theorem TableMatch.remoteRequest : TableMatch.Statement .remoteRequest := nofun
theorem TableMatch.walvoFlitReceive : TableMatch.Statement .walvoFlitReceive := nofun
theorem TableMatch.portDown : TableMatch.Statement .portDown := nofun
theorem TableMatch.vaultLineWrite : TableMatch.Statement .vaultLineWrite := nofun
theorem TableMatch.frameService : TableMatch.Statement .frameService := nofun
theorem TableMatch.ratio : TableMatch.Statement .ratio := nofun
theorem TableMatch.donate : TableMatch.Statement .donate := nofun
theorem TableMatch.withdraw : TableMatch.Statement .withdraw := nofun
theorem TableMatch.demote : TableMatch.Statement .demote := nofun
theorem TableMatch.zeroFrames : TableMatch.Statement .zeroFrames := nofun
theorem TableMatch.promote : TableMatch.Statement .promote := nofun
theorem TableMatch.splitPage : TableMatch.Statement .splitPage := nofun
theorem TableMatch.classChange : TableMatch.Statement .classChange := nofun
theorem TableMatch.frameGrant : TableMatch.Statement .frameGrant := nofun
theorem TableMatch.grantRevoke : TableMatch.Statement .grantRevoke := nofun
theorem TableMatch.partitionCreate : TableMatch.Statement .partitionCreate := nofun
theorem TableMatch.partitionReset : TableMatch.Statement .partitionReset := nofun
theorem TableMatch.clusterDrain : TableMatch.Statement .clusterDrain := nofun
theorem TableMatch.spareSubstitution : TableMatch.Statement .spareSubstitution := nofun
theorem TableMatch.firmwareUpdate : TableMatch.Statement .firmwareUpdate := nofun
theorem TableMatch.vaultFirmwareReplace : TableMatch.Statement .vaultFirmwareReplace := nofun
theorem TableMatch.inspection : TableMatch.Statement .inspection := nofun
theorem TableMatch.watchdogIntervalSet : TableMatch.Statement .watchdogIntervalSet := nofun
theorem TableMatch.vfWeightSet : TableMatch.Statement .vfWeightSet := nofun
theorem TableMatch.exportWindowSet : TableMatch.Statement .exportWindowSet := nofun
theorem TableMatch.demotionTargetSet : TableMatch.Statement .demotionTargetSet := nofun
theorem TableMatch.vaultViewSet : TableMatch.Statement .vaultViewSet := nofun
theorem TableMatch.mailboxGrant : TableMatch.Statement .mailboxGrant := nofun
theorem TableMatch.microstoreImageLoad : TableMatch.Statement .microstoreImageLoad := nofun
theorem TableMatch.bucketTableLoad : TableMatch.Statement .bucketTableLoad := nofun
theorem TableMatch.moduleReset : TableMatch.Statement .moduleReset := nofun
theorem TableMatch.runtimeReady : TableMatch.Statement .runtimeReady := nofun
theorem TableMatch.bootTimeout : TableMatch.Statement .bootTimeout := nofun
theorem TableMatch.thermalReset : TableMatch.Statement .thermalReset := nofun
theorem TableMatch.throttleStep : TableMatch.Statement .throttleStep := nofun
theorem TableMatch.patrolScrub : TableMatch.Statement .patrolScrub := nofun
theorem TableMatch.softError : TableMatch.Statement .softError := nofun
theorem TableMatch.getVersion : TableMatch.Statement .getVersion := nofun
theorem TableMatch.getCapabilities : TableMatch.Statement .getCapabilities := nofun
theorem TableMatch.negotiateAlgorithms : TableMatch.Statement .negotiateAlgorithms := nofun
theorem TableMatch.getDigests : TableMatch.Statement .getDigests := nofun
theorem TableMatch.getCertificate : TableMatch.Statement .getCertificate := nofun
theorem TableMatch.challenge : TableMatch.Statement .challenge := nofun
theorem TableMatch.getMeasurements : TableMatch.Statement .getMeasurements := nofun
theorem TableMatch.spdmUnsupportedRequest : TableMatch.Statement .spdmUnsupportedRequest := nofun
theorem TableMatch.portRetrainComplete : TableMatch.Statement .portRetrainComplete := nofun
theorem TableMatch.nodeIdAssign : TableMatch.Statement .nodeIdAssign := nofun
theorem TableMatch.communicatorSet : TableMatch.Statement .communicatorSet := nofun
theorem TableMatch.mintSetLoad : TableMatch.Statement .mintSetLoad := nofun
theorem TableMatch.promotionBuildComplete : TableMatch.Statement .promotionBuildComplete := nofun

end Sys2Proof.Laws
end

