-- ==== Sys2Proof/Laws/Trap.lean ====
section
/-!
SUPPORT. What taking a trap can never change: memory, engines, and the registers and special registers of every context (R427).
-/
set_option Elab.async false
namespace Sys2Proof.Machine

/-- Memory, engines, and every context's registers and special registers are those of another state. -/
structure Kept (s t : State) : Prop where
  memory : SameMemory s t
  engines : SameEngines s t
  regs : ∀ g n, (t.ctx g).reg n = (s.ctx g).reg n
  special : ∀ g, SameSpecial (s.ctx g) (t.ctx g)

theorem Kept.refl (s : State) : Kept s s := ⟨.refl s, .refl s, fun _ _ => rfl, fun _ => .refl _⟩

theorem Kept.trans {s t u : State} (h : Kept s t) (k : Kept t u) : Kept s u :=
  ⟨h.memory.trans k.memory, h.engines.trans k.engines, fun g n => (k.regs g n).trans (h.regs g n),
    fun g => (h.special g).trans (k.special g)⟩

theorem Kept.foldl {β : Type} {f : State → β → State} (hf : ∀ s x, Kept s (f s x)) (l : List β) (s : State) : Kept s (l.foldl f s) := by
  induction l generalizing s with
  | nil => exact .refl s
  | cons x l ih => exact (hf s x).trans (ih _)

/-- A change that leaves contexts, memory and engines. -/
theorem Kept.of_ctxs {s t : State} (hc : t.ctxs = s.ctxs) (hm : SameMemory s t) (he : SameEngines s t) : Kept s t :=
  ⟨hm, he, fun g n => by simp [State.ctx, hc], fun g => by simp only [State.ctx, hc]; exact .refl _⟩

/-- A change of one context that leaves its registers and special registers. -/
theorem Kept.setCtx {s : State} (g : Nat) (c : Ctx) (hr : ∀ n, c.reg n = (s.ctx g).reg n) (hs : SameSpecial (s.ctx g) c) :
    Kept s (s.setCtx g c) := by
  refine ⟨⟨rfl, rfl, rfl, rfl⟩, ⟨fun _ => ⟨rfl, rfl, rfl, rfl, rfl⟩, rfl, fun _ => ⟨rfl, rfl, rfl⟩⟩, fun h n => ?_, fun h => ?_⟩
  · by_cases e : h = g
    · subst e; rw [State.ctx_setCtx_same]; exact hr n
    · rw [State.ctx_setCtx_other _ _ e]
  · by_cases e : h = g
    · subst e; rw [State.ctx_setCtx_same]; exact hs
    · rw [State.ctx_setCtx_other _ _ e]; exact .refl _

theorem Kept.modCtx {s : State} (g : Nat) (f : Ctx → Ctx) (hr : ∀ c n, (f c).reg n = c.reg n) (hs : ∀ c, SameSpecial c (f c)) :
    Kept s (s.modCtx g f) := .setCtx g _ (hr _) (hs _)

theorem violation_kept (kind cause part who : Nat) (a : W64) (s : State) : Kept s (violation kind cause part who a s) :=
  .of_ctxs rfl ⟨rfl, rfl, rfl, rfl⟩ ⟨fun _ => ⟨rfl, rfl, rfl, rfl, rfl⟩, rfl, fun _ => ⟨rfl, rfl, rfl⟩⟩

theorem errorRecord_kept (sev str : Nat) (p : Option Nat) (place : Nat) (a : W64) (s : State) :
    Kept s (errorRecord sev str p place a s) := by
  have same : ∀ t : State, t.ctxs = s.ctxs → t.mem = s.mem → t.poison = s.poison → t.frames = s.frames → t.vaults = s.vaults →
      t.cores = s.cores → t.arrays = s.arrays → t.clusters = s.clusters → Kept s t := fun t h1 h2 h3 h4 h5 h6 h7 h8 =>
    .of_ctxs h1 ⟨h2, h3, h4, h5⟩ ⟨fun k => by simp [State.core, h6], h7, fun k => by simp [State.cluster, h8]⟩
  unfold errorRecord
  dsimp only
  split
  · split <;> exact same _ rfl rfl rfl rfl rfl rfl rfl rfl
  · exact same _ rfl rfl rfl rfl rfl rfl rfl rfl

/-- A freeze keeps a context's registers. -/
theorem freeze_kept (g cause : Nat) (s : State) : Kept s (s.modCtx g fun c => c.freeze cause) :=
  .modCtx g _ (fun _ n => by cases n <;> rfl) fun _ =>
    ⟨⟨rfl, rfl, rfl, rfl, rfl⟩, ⟨rfl, rfl, rfl⟩, ⟨rfl, rfl⟩, rfl, ⟨rfl, rfl, rfl⟩, ⟨rfl, rfl, rfl⟩⟩

theorem report_kept (p : Nat) (r : BitVec 256) (s : State) : Kept s (report p r s) :=
  .of_ctxs rfl ⟨rfl, rfl, rfl, rfl⟩ ⟨fun _ => ⟨rfl, rfl, rfl, rfl, rfl⟩, rfl, fun _ => ⟨rfl, rfl, rfl⟩⟩

/-- A pending freeze for space is reported with its own cause and cleared. -/
theorem spaceRecord_kept (g : Nat) (s : State) : Kept s (spaceRecord g s) := by
  unfold spaceRecord
  split
  · refine .trans (t := s.modCtx g fun c => { c with boundaryFreeze := none }) ?_ (violation_kept ..)
    exact .modCtx g _ (fun _ n => by cases n <;> rfl) fun _ =>
      ⟨⟨rfl, rfl, rfl, rfl, rfl⟩, ⟨rfl, rfl, rfl⟩, ⟨rfl, rfl⟩, rfl, ⟨rfl, rfl, rfl⟩, ⟨rfl, rfl, rfl⟩⟩
  · exact .refl s

theorem freezeCtx_kept (g cause first : Nat) (info : W64) (s : State) : Kept s (freezeCtx g cause first info s) :=
  .trans (.trans (freeze_kept g cause s) (violation_kept ..)) (spaceRecord_kept ..)

theorem secondCause_kept (g cause : Nat) (info : W64) (s : State) : Kept s (secondCause g cause info s) := by
  unfold secondCause
  split
  · exact violation_kept ..
  · exact report_kept ..

/-- A saved context that freezes touches no hardware context. -/
theorem freezeSaved_kept (key : Nat) (s : State) : Kept s (freezeSaved key s) := by
  unfold freezeSaved
  split
  · split
    · exact .refl s
    · exact .of_ctxs rfl ⟨rfl, rfl, rfl, rfl⟩ ⟨fun _ => ⟨rfl, rfl, rfl, rfl, rfl⟩, rfl, fun _ => ⟨rfl, rfl, rfl⟩⟩
  · exact .refl s

/-- A context that blocks keeps its registers. -/
theorem blocked_kept (g : Nat) (w : Wait) (s : State) :
    Kept s (s.modCtx g fun c => { c with run := .blocked w, stalled := false }) :=
  .modCtx g _ (fun _ n => by cases n <;> rfl) fun _ =>
    ⟨⟨rfl, rfl, rfl, rfl, rfl⟩, ⟨rfl, rfl, rfl⟩, ⟨rfl, rfl⟩, rfl, ⟨rfl, rfl, rfl⟩, ⟨rfl, rfl, rfl⟩⟩

theorem modDie_kept (d : Nat) (f : Die → Die) (s : State) : Kept s (s.modDie d f) :=
  .of_ctxs rfl ⟨rfl, rfl, rfl, rfl⟩ ⟨fun _ => ⟨rfl, rfl, rfl, rfl, rfl⟩, rfl, fun _ => ⟨rfl, rfl, rfl⟩⟩

theorem stopMint_kept (d g cause : Nat) (info : W64) (s : State) : Kept s (stopMint d g cause info s) := by
  unfold stopMint
  split
  · exact .refl s
  · dsimp only
    generalize hx : State.each _ _ freezeSaved = u
    have hu : Kept s u := hx ▸ .trans (.trans (modDie_kept _ _ _) (.foldl (fun s h => freezeCtx_kept h _ _ _ s) _ _))
      (.foldl (fun s k => freezeSaved_kept k s) _ _)
    split
    · exact .trans hu (freezeCtx_kept ..)
    · exact hu

/-- The context as a trap enters it: stopped at its boundary, with the saved registers written (R427). -/
def Ctx.entered (c : Ctx) (cause : Nat) (info : W64) (mask : BitVec 4) (pc : W64) : Ctx :=
  { c.stopIssue with trapcause := BitVec.ofNat 8 cause, hm := true, trappc := pc, trapinfo := info, faultmask := mask
                     heldWrites := c.groupWrites, groupWrites := [], heldBar := c.holdBar, holdBar := none }

theorem Ctx.entered_kept (g cause : Nat) (info : W64) (mask : BitVec 4) (pc : W64) (r : Run) (pc' : W64) (s : State) :
    Kept s (s.setCtx g { (s.ctx g).entered cause info mask pc with run := r, pc := pc' }) :=
  .setCtx g _ (fun n => by cases n <;> rfl)
    ⟨⟨rfl, rfl, rfl, rfl, rfl⟩, ⟨rfl, rfl, rfl⟩, ⟨rfl, rfl⟩, rfl, ⟨rfl, rfl, rfl⟩, ⟨rfl, rfl, rfl⟩⟩

theorem enterTrap_kept (g cause : Nat) (info : W64) (mask : BitVec 4) (pc : W64) (s : State) :
    Kept s (enterTrap g cause info mask pc s) := by
  have h0 : Kept s (if cause = 0x14 ∧ !bit info 63 then consumed g info s else s) := by
    split
    · exact errorRecord_kept ..
    · exact .refl s
  unfold enterTrap
  dsimp only
  refine h0.trans ?_
  generalize (if cause = 0x14 ∧ !bit info 63 then consumed g info s else s) = u
  split
  · split
    · exact .trans (stopMint_kept ..) (secondCause_kept ..)
    · exact .trans (freezeCtx_kept ..) (secondCause_kept ..)
  · split
    · exact .trans (Ctx.entered_kept g cause info mask pc (u.ctx g).run (u.ctx g).pc u) (stopMint_kept _ _ _ _ _)
    · split
      · exact .trans (Ctx.entered_kept g cause info mask pc (u.ctx g).run (u.ctx g).pc u) (freezeCtx_kept ..)
      · split
        · exact Ctx.entered_kept g cause info mask pc .frameWait (u.ctx g).pc u
        · exact Ctx.entered_kept g cause info mask pc .ready (u.ctx g).trapvec u

/-- Passing issue changes no register, memory or engine. -/
theorem passIssue_kept (g : Nat) (s : State) : Kept s (passIssue g s) := by
  refine .of_ctxs rfl ⟨rfl, rfl, rfl, rfl⟩ ⟨fun k => ?_, rfl, fun _ => ⟨rfl, rfl, rfl⟩⟩
  by_cases h : k = coreOf g
  · subst h; simp [passIssue]
  · simp [passIssue, h]

/-- Taking a trap leaves memory, engines and every register that is not a trap register. -/
theorem takeTrap_kept (g cause : Nat) (info : W64) (mask : BitVec 4) (s : State) : Kept s (takeTrap g cause info mask s) := by
  unfold takeTrap
  dsimp only
  split
  · exact enterTrap_kept ..
  · exact .trans (enterTrap_kept _ _ _ _ _ _) (passIssue_kept _ _)

/-- A block leaves memory, engines and registers. -/
theorem blockCtx_kept (g : Nat) (w : Wait) (s : State) : Kept s (blockCtx g w s) :=
  .trans (blocked_kept _ _ _) (passIssue_kept _ _)

end Sys2Proof.Machine
end

