-- ==== Sys2Proof/Laws/Vaults.lean ====
section
/-!
SUPPORT. Zeroing a frame: what its bytes read as after, and that memory keeps its canonical form (R422, R441).
-/
set_option Elab.async false
namespace Sys2Proof.Machine

theorem memWfFrom_filter {m : Memory} {lo : Nat} (p : Host.Cell → Bool) (h : memWfFrom lo m = true) : memWfFrom lo (m.filter p) = true := by
  induction m generalizing lo with
  | nil => rfl
  | cons e m ih =>
    obtain ⟨a, b⟩ := e
    simp only [memWfFrom, Bool.and_eq_true, decide_eq_true_eq] at h
    cases hp : p (a, b)
    · rw [List.filter_cons_of_neg (by simp [hp])]
      exact ih (memWfFrom_mono h.2 (by omega))
    · rw [List.filter_cons_of_pos hp]
      simp only [memWfFrom, Bool.and_eq_true, decide_eq_true_eq]
      exact ⟨h.1, ih h.2⟩

theorem memWf_filter {m : Memory} (p : Host.Cell → Bool) (h : memWf m = true) : memWf (m.filter p) = true := memWfFrom_filter p h

/-- A byte whose address the filter keeps reads as before, one it drops reads as zero. -/
theorem readByte_filter (m : Memory) (q : Nat → Bool) (a : Nat) : readByte (m.filter fun c => q c.1) a = if q a then readByte m a else 0 := by
  induction m with
  | nil => simp [readByte]
  | cons e m ih =>
    obtain ⟨j, x⟩ := e
    cases hq : q j
    · rw [List.filter_cons_of_neg (by simp [hq]), ih]
      by_cases hj : j = a
      · subst hj; simp [hq]
      · simp [readByte, hj]
    · rw [List.filter_cons_of_pos (by simp [hq])]
      by_cases hj : j = a
      · subst hj; simp [readByte, hq]
      · simp [readByte, hj, ih]

theorem foldl_same_mem {β : Type} (f : State → β → State) (hf : ∀ s x, (f s x).mem = s.mem) (l : List β) (s : State) :
    (l.foldl f s).mem = s.mem := by
  induction l generalizing s with
  | nil => rfl
  | cons x l ih => exact (ih _).trans (hf s x)

@[simp] theorem wake_mem (x : Source) (since : Nat) (s : State) : (wake x since s).mem = s.mem := by
  unfold wake; split <;> rfl

/-- Ending held writes moves no byte of memory. -/
@[simp] theorem releaseHeld_mem (v : Nat) (p : HeldWrite → Bool) (s : State) : (releaseHeld v p s).mem = s.mem := by
  unfold releaseHeld
  dsimp only
  refine (foldl_same_mem _ (fun s x => ?_) _ _).trans rfl
  split
  · rfl
  · exact wake_mem ..

@[simp] theorem dropHeld_mem (v f : Nat) (s : State) : (dropHeld v f s).mem = s.mem := releaseHeld_mem ..

theorem zeroFrame_mem (f : Nat) (s : State) : (zeroFrame f s).mem = s.mem.filter fun c => decide (c.1 / 65536 ≠ f) := by
  unfold zeroFrame
  dsimp only
  split
  · exact dropHeld_mem ..
  · exact dropHeld_mem ..

theorem memWf_zeroFrame (f : Nat) {s : State} (h : memWf s.mem = true) : memWf (zeroFrame f s).mem = true := by
  rw [zeroFrame_mem]; exact memWf_filter _ h

/-- A zeroed frame reads as zeros, every other byte as before. -/
theorem zeroFrame_byteAt (f a : Nat) (s : State) : (zeroFrame f s).byteAt a = if a / 65536 = f then 0 else s.byteAt a := by
  rw [State.byteAt, zeroFrame_mem, readByte_filter s.mem (fun x => decide (x / 65536 ≠ f))]
  by_cases h : a / 65536 = f <;> simp [h, State.byteAt]

end Sys2Proof.Machine
end

