-- ==== Sys2Proof/Tests/Slice0.lean ====
section
/-!
SUPPORT. Tests of the model: words decoded, ill-formed terms refused, single steps on a small state, and for every statement states and
operands that meet its hypotheses. Expected values come from the manual's tables and examples, or from hand calculation on them.
-/
set_option Elab.async false
namespace Sys2Proof.Tests
open Sys2Proof Sys2Proof.Machine

/-! ## A small state -/

/-- 1 MiB of memory at address 0 with every right. -/
def entry0 : BitVec 256 := BitVec.ofNat 256 (2 ^ 41 + 15 * 2 ^ 48 + 15 * 2 ^ 112)

/-- Context 0 runs core program 0 of group 1 with 32 tiles, 1 KiB of scratch, a handler at 0x2000 and `entry0`. -/
def ctx0 : Ctx :=
  { Ctx.initial with run := .ready, pc := 0x1000, trapvec := 0x2000, swt := [(0, entry0)], scratchSize := 1024, tileCount := 32,
                     group := 1, launch := 1 }

/-- Group 1 of launch 1: four barrier slots, 4 KiB of cluster SRAM, transform unit 0. -/
def group1 : Group := { Group.initial with launch := 1, members := [(0, 0)], live := [0], bars := 4, csramSize := 4096, units := [0] }

/-- The machine in which context 0 is about to issue. -/
def s0 : State :=
  { State.reset with ctxs := [(0, ctx0)], groups := [(1, group1)], frames := (List.range 16).map fun f => (f, 1),
                     regs := { Regs.initial with ready := true } }

/-- `s0` with context 0 changed. -/
def at0 (f : Ctx → Ctx) : State := { s0 with ctxs := [(0, f ctx0)] }
/-- Scalar registers of context 0. -/
def withS (l : Tbl W64) : State := at0 fun c => { c with sregs := l }
/-- Scalar and vector registers of context 0. -/
def withSV (l : Tbl W64) (v : Tbl Vec) : State := at0 fun c => { c with sregs := l, vregs := v }
/-- Predicates of context 0. -/
def withP (l : Tbl W64) : State := at0 fun c => { c with pregs := l }
/-- A vector with the same 32 bits in every lane. -/
def splat (x : W32) : Vec := vecOf fun _ => x

/-- The state a meaning answers. -/
def after (i : Instr) (s : State) : State := match exec i s with | .next t => t | _ => State.reset
/-- Context 0 after it. -/
def ctxAfter (i : Instr) (s : State) : Ctx := (after i s).ctx 0
/-- The value of the last result put in flight, or the value of scalar `d` when it has landed. -/
def sAfter (i : Instr) (s : State) (d : BitVec 6) : W64 := (ctxAfter i s).s d
/-- The value in flight for a destination. -/
def inFlight (d : Dest) (i : Instr) (s : State) : Option (Vec × W64 × Nat) :=
  ((ctxAfter i s).flights.find? fun f => f.dest == d).map fun f => (f.val, f.mask, f.due)

/-! ## When an operation issues, as a Bool -/

def issuesB (i : Instr) (s : State) : Bool :=
  !(alone i s).guardPending s && (alone i s).active s && !(alone i s).operandPending s && (conflicts [alone i s]).isEmpty
    && (dependents (s.ctx s.cur).groupWrites [alone i s]).isEmpty && !((s.ctx s.cur).stream && slipsStream i)
    && decide ((s.ctx s.cur).flights.length + exposed i (guardMask i s) ≤ 48)

theorem issues_of {i : Instr} {s : State} (h : issuesB i s = true) : Issues i s := by
  simp only [issuesB, Bool.and_eq_true, Bool.not_eq_true', List.isEmpty_iff, decide_eq_true_eq] at h
  obtain ⟨⟨⟨⟨⟨⟨h1, h2⟩, h3⟩, h4⟩, h5⟩, h6⟩, h7⟩ := h
  exact ⟨h1, h2, h3, h4, h5, h6, h7⟩

/-- A check that passed. -/
def passed {α : Type} (x : Chk α) : Bool := match x with | .ok _ => true | .error _ => false

theorem ok_of_passed {α : Type} {x : Chk α} (h : passed x = true) : ∃ a, x = .ok a := by
  cases x with
  | ok a => exact ⟨a, rfl⟩
  | error e => exact absurd h (by simp [passed])

/-! ## One form of every slot operation under p0 -/

def forms0 : List Instr :=
  [.add 0 0 1 2 3 4, .sub 0 0 1 2 3 4, .and 0 0 1 2 3, .or 0 0 1 2 3, .xor 0 0 1 2 3, .andn 0 0 1 2 3, .shl 0 0 1 2 3 4, .shr 0 0 1 2 3 4, .sar 0 0 1
   2 3 4, .rot 0 0 1 2 3 4, .mul 0 0 1 2 3 4, .div 0 0 1 2 3 4, .min 0 0 1 2 3 4, .max 0 0 1 2 3 4, .bitc 0 0 1 2 3, .addi 0 0 1 2 3, .andi 0 0 1 2 3,
   .ori 0 0 1 2 3, .xori 0 0 1 2 3, .shli 0 0 1 2 3, .shri 0 0 1 2 3, .sari 0 0 1 2 3, .muli 0 0 1 2 3, .li 0 0 1 2, .lis 0 0 1 2, .addpc 0 0 1 2,
   .cmp 0 0 1 2 3 0, .cmpu 0 0 1 2 3 0, .cmpi 0 0 1 2 3 0, .pfrom 0 0 1 2, .br 0 0 1, .call 0 0 1, .brb 0 0 1, .ret 0 0, .lbt 0 0 1 2, .movb 0 0 1 2
   3, .loop 0 0 1 2, .csrd 0 0 1 2, .cswr 0 0 1 2, .mpset 0 0 1 2]
def forms1 : List Instr :=
  [.tcset 0 0 1 2, .tcget 0 0 1 2, .yield 0 0, .exit 0 0, .trap 0 0 1, .sysc 0 0 1, .brk 0 0 1, .grow 0 0 1 2, .bar 0 0 1, .barW 0 0 1, .barAw 0 0 1,
   .rfe 0 0, .savec 0 0 1 2, .loadc 0 0 1 2, .vadd 0 0 1 2 3 4, .vsub 0 0 1 2 3 4, .vmul 0 0 1 2 3 4, .vmin 0 0 1 2 3 4, .vmax 0 0 1 2 3 4, .vand 0 0
   1 2 3, .vor 0 0 1 2 3, .vxor 0 0 1 2 3, .vshl 0 0 1 2 3, .vshr 0 0 1 2 3, .vsar 0 0 1 2 3, .vadds 0 0 1 2 3 4, .vmuls 0 0 1 2 3 4, .vli 0 0 1 2,
   .vfadd 0 0 1 2 3, .vfsub 0 0 1 2 3, .vfmul 0 0 1 2 3, .vfma 0 0 1 2 3 4 1, .vfmin 0 0 1 2 3 4, .vfmax 0 0 1 2 3 4, .vfrcp 0 0 1 2, .vfrsq 0 0 1 2,
   .vfexp2 0 0 1 2, .vflog2 0 0 1 2, .vcvt 0 0 1 2 3, .vfclass 0 0 1 2 3]
def forms2 : List Instr :=
  [.vdadd 0 0 1 2 3 4, .vdmul 0 0 1 2 3, .vdmax 0 0 1 2 3 4, .vdcvt 0 0 1 2 3, .vdscl 0 0 1 2 3, .vperm 0 0 1 2 3 4, .vnib 0 0 1 2 3, .vshuf 0 0 1 2 3
   4, .vbcast 0 0 1 2 3, .vmovs 0 0 1 2 3 4, .vins 0 0 1 2 3 4, .viota 0 0 1 2, .vmov 0 0 1 2, .vred 0 0 1 2 3, .vscan 0 0 1 2 3, .vcmp 0 0 1 2 3 4,
   .vfcmp 0 0 1 2 3 4, .pand 0 0 1 2 3, .por 0 0 1 2 3, .pxor 0 0 1 2 3, .pandn 0 0 1 2 3, .pcnt 0 0 1 2 3, .vqdeq 0 0 1 2 3 0, .vqnt 0 0 1 2 3 0,
   .vrng 0 0 1 2 3 4, .mcall 0 1 2, .bch 0 1, .ech 0 1, .mdrain 0 1 2 3 4, .mzero 0 1, .mspill 0 1 2 1, .mfill 0 1 2 1, .mpwr 0 1, .mpwrTab 0 1, .mprd
   0 1, .mprdTab 0 1, .tzero 0 1 2, .tcopy 0 1 2, .tv2t 0 1 2 3, .tt2v 0 1 2 3]
def forms3 : List Instr :=
  [.ckleaf 0 1 2 3, .cknode 0 1 2 3, .ckback 0 1 2 3, .ckdiv 0 1 2 3, .cksamp 0 1 2 3, .ixwalk 0 1 2 3, .ixsplit 0 1 2 3, .asort 0 1 2 3 4, .amrg 0 1
   2 3, .cread 0 1 2 3, .cclr 0 1 2, .csamp 0 1 2, .clpush 0 1 2, .clpull 0 1, .clseal 0 1, .clcfg 0 1, .clcfgEnd 0, .ldd 0 0 1 2 3 4, .ldw 0 0 1 2 3
   4, .ldwu 0 0 1 2 3 4, .ldh 0 0 1 2 3 4, .ldhu 0 0 1 2 3 4, .ldb 0 0 1 2 3 4, .ldbu 0 0 1 2 3 4, .std 0 1 2 3 4, .stw 0 1 2 3 4, .sth 0 1 2 3 4,
   .stb 0 1 2 3 4, .vld 0 0 1 2 3 4, .vst 0 1 2 3 4, .lddp 0 0 1 2 3 4, .vldp 0 0 1 2 3 4, .vstp 0 1 2 3 4, .tld 0 1 2 3, .tst 0 1 2 3, .tgath 0 1 2 3
   4 1, .tscat 0 1 2 3 4 1, .tscadd 0 1 2 3 4 1, .aadd 0 1 2 3 4, .aaddw 0 1 2 3 4]
def forms4 : List Instr :=
  [.afadd 0 1 2 3 4, .adadd 0 1 2 3 4, .amax 0 1 2 3 4, .amin 0 1 2 3 4, .aor 0 1 2 3 4, .aand 0 1 2 3 4, .axchg 0 1 2 3 4, .acas 0 1 2 3 4, .fence 0
   1 2, .waitm 0 1 2 3 4, .cpy 0 1 2 3, .cpyZero 0 1 2, .cpyq 0 1 2 3, .qpop 0 1 2, .qpopBind 0 1 2, .qstat 0 1 2, .sbar 0 1 2, .rinv 0 1 2 3 4,
   .rflush 0 1 2 3 4, .resv 0 1 2 3 4, .rrel 0 1, .rrelAll 0, .movp 0 1 2, .movfp 0 1 2, .qpush 0 1 2, .qpushBind 0 1 2, .xfuDecode 0 1 2, .xfuZorder
   0 1 2, .xfuUnz 0 1 2, .xfuCopy 0 1 2, .xfuUnpack4 0 1 2, .xfuSave 0 1 2, .xfuLoad 0 1 2, .xfuAbort 0 1 2, .hdrT 0 0 1 2 7 7 7]


/-! ## States and operands that meet the hypotheses of each statement -/

theorem issues_forms0 : forms0.all (fun i => issuesB i s0) = true := by decide +kernel
theorem issues_forms1 : forms1.all (fun i => issuesB i s0) = true := by decide +kernel
theorem issues_forms2 : forms2.all (fun i => issuesB i s0) = true := by decide +kernel
theorem issues_forms3 : forms3.all (fun i => issuesB i s0) = true := by decide +kernel
theorem issues_forms4 : forms4.all (fun i => issuesB i s0) = true := by decide +kernel

/-- One form of every slot operation issues in `s0`: the statements whose one hypothesis is that an operation issues. -/
theorem witness_issues (i : Instr) (h : i ∈ forms0 ++ forms1 ++ forms2 ++ forms3 ++ forms4) : Issues i s0 := by
  simp only [List.mem_append] at h
  rcases h with (((h | h) | h) | h) | h
  · exact issues_of (List.all_eq_true.mp issues_forms0 i h)
  · exact issues_of (List.all_eq_true.mp issues_forms1 i h)
  · exact issues_of (List.all_eq_true.mp issues_forms2 i h)
  · exact issues_of (List.all_eq_true.mp issues_forms3 i h)
  · exact issues_of (List.all_eq_true.mp issues_forms4 i h)

theorem issues_list {s : State} {l : List Instr} (h : l.all (fun i => issuesB i s) = true) : ∀ i ∈ l, Issues i s :=
  fun i hi => issues_of (List.all_eq_true.mp h i hi)

/-- `s0` with the agenda naming a quantum boundary. -/
def sEvent : State := { s0 with agenda := [.event .quantumBoundary .none] }

theorem witness_StepRunsDecodedInstruction :
    (s0.agenda = [] ∧ (s0.core (coreOf s0.cur)).passing = false ∧ canIssue s0 s0.cur = true ∧ boundaryEvent s0.cur s0 = none
      ∧ heldByVault s0 s0.cur = false ∧ refillReady s0 s0.cur = true ∧ held (takeRefills s0.cur s0) s0.cur = false
      ∧ toSave s0 (coreOf s0.cur) = none ∧ ∃ b, fetch (passBar s0.cur (takeRefills s0.cur s0)) s0.cur = .ok b)
    ∧ ∃ t, exec .quantumBoundary { sEvent with agenda := [], request := .none } = .next t :=
  ⟨⟨rfl, by decide +kernel, by decide +kernel, Option.isNone_iff_eq_none.mp (by decide +kernel), by decide +kernel, by decide +kernel,
    by decide +kernel, Option.isNone_iff_eq_none.mp (by decide +kernel), ok_of_passed (by decide +kernel)⟩, ⟨_, rfl⟩⟩

/-- A bundle that holds `addi s4, s4, 40` (R334), its stop bit set, and three no-operations; one that holds a vector operation alone. -/
theorem witness_LoneBundleIsItsInstruction :
    (decodeSlot .c (slotWord 0x10020828 .c) = .ok (.addi 0 0 4 4 40) ∧ (slotKey (.addi 0 0 4 4 40)).1 ≠ 4
      ∧ ∀ sl, sl ≠ .c → slotWord 0x10020828 sl = if sl = .c then (if (slotKey (.addi 0 0 4 4 40)).2.1 = 1 then 0x80000000 else 0) else 0)
    ∧ (decodeSlot .v (slotWord 0x2605088600000000 .v) = .ok (.vfma 0 0 5 1 2 3 0) ∧ (slotKey (.vfma 0 0 5 1 2 3 0)).1 ≠ 4
      ∧ ∀ sl, sl ≠ .v → slotWord 0x2605088600000000 sl = if sl = .c then (if (slotKey (.vfma 0 0 5 1 2 3 0)).2.1 = 1 then 0x80000000 else 0) else 0) := by
  refine ⟨⟨by decide +kernel, by decide, ?_⟩, by decide +kernel, by decide, ?_⟩ <;> intro sl h <;> cases sl <;>
    first | exact absurd rfl h | decide +kernel

/-- A well-formed operation of each class at the ends of its fields, and a word of each class that decodes. -/
theorem witness_DecodeAndEncodeAgree :
    (slotClass (.addi 1 7 63 63 511) = some .c ∧ (Instr.addi 1 7 63 63 511).wf = true)
    ∧ (slotClass (.vfma 1 7 31 31 31 31 1) = some .v ∧ (Instr.vfma 1 7 31 31 31 31 1).wf = true)
    ∧ (slotClass (.asort 7 31 31 31 0) = some .x ∧ (Instr.asort 7 31 31 31 0).wf = true)
    ∧ (slotClass (.ldd 1 7 63 63 15 31) = some .m ∧ (Instr.ldd 1 7 63 63 15 31).wf = true)
    ∧ decodeSlot .c 0x10020828 = .ok (.addi 0 0 4 4 40) := by decide +kernel

/-- Guard p1 reads zero, so `(p1) add` does nothing. -/
theorem witness_FalseGuardDoesNothing :
    SlotAlone (.add 0 1 1 2 3 0) ∧ (alone (.add 0 1 1 2 3 0) s0).guardPending s0 = false ∧ (alone (.add 0 1 1 2 3 0) s0).active s0 = false
    ∧ conflicts [alone (.add 0 1 1 2 3 0) s0] = [] ∧ dependents (s0.ctx s0.cur).groupWrites [alone (.add 0 1 1 2 3 0) s0] = []
    ∧ ((s0.ctx s0.cur).stream && slipsStream (.add 0 1 1 2 3 0)) = false ∧ (s0.ctx s0.cur).flights.length ≤ 48 :=
  ⟨⟨by decide, trivial⟩, by decide +kernel, by decide +kernel, by decide +kernel, by decide +kernel, by decide +kernel, by decide +kernel⟩

/-- A result in flight for s2, due in four bundles. -/
def flight2 : Flight := { dest := .s 2, val := 7, mask := BitVec.allOnes 64, due := 4, squash := false, poison := none }

/-- `lddp s2, [s2]` writes s2 twice; a stream context meets a branch; the group has written s2; s2 is pending; 48 results are in flight. -/
theorem witness_DecodeChecksInOrder :
    (conflicts [alone (.lddp 0 0 2 2 0 0) s0] ≠ [])
    ∧ (let s := at0 fun c => { c with stream := true }; conflicts [alone (.br 0 0 1) s] = [] ∧ ((s.ctx s.cur).stream && slipsStream (.br 0 0 1)) = true)
    ∧ (let s := at0 fun c => { c with groupWrites := [.s 2] }; conflicts [alone (.add 0 0 1 2 3 0) s] = []
        ∧ ((s.ctx s.cur).stream && slipsStream (.add 0 0 1 2 3 0)) = false
        ∧ dependents (s.ctx s.cur).groupWrites [alone (.add 0 0 1 2 3 0) s] ≠ [])
    ∧ (let s := at0 fun c => { c with flights := [flight2] }; dependents (s.ctx s.cur).groupWrites [alone (.add 0 0 1 2 3 0) s] = []
        ∧ (alone (.add 0 0 1 2 3 0) s).active s = true ∧ (alone (.add 0 0 1 2 3 0) s).operandPending s = true)
    ∧ (let s := at0 fun c => { c with flights := List.replicate 48 { flight2 with dest := .s 9 } };
        (alone (.add 0 0 1 2 3 0) s).operandPending s = false ∧ (alone (.add 0 0 1 2 3 0) s).guardPending s = false
        ∧ (alone (.add 0 0 1 2 3 0) s).active s = true ∧ passed (issueAlone (.add 0 0 1 2 3 0) s) = true
        ∧ 48 < (s.ctx s.cur).flights.length + exposed (.add 0 0 1 2 3 0) (guardMask (.add 0 0 1 2 3 0) s)) := by
  refine ⟨?_, ?_, ?_, ?_, ?_⟩ <;> decide +kernel

theorem witness_AllOrNothing : SlotAlone (.add 0 0 1 2 3 0) ∧ ∃ t, exec (.add 0 0 1 2 3 0) s0 = .next t := ⟨⟨by decide, trivial⟩, ⟨_, rfl⟩⟩

theorem witness_ResultsLand : (0 < 1 ∧ 1 < 20) ∧ (s0.ctx s0.cur).pending (.v ((5 : BitVec 5)).toNat) = false := by decide +kernel

theorem witness_ScalarRegisterForms : ∀ i ∈ forms0.take 14, Issues i s0 := fun i h =>
  witness_issues i (by simp only [List.mem_append]; exact .inl (.inl (.inl (.inl (List.mem_of_mem_take h)))))

/-- DIV by zero, by −1 of the most negative number (R332), by 7; the bit counts. -/
theorem witness_DivisionAndBitCounts :
    (Issues (.div 0 0 1 2 3 3) s0 ∧ s0.rs 3 = 0)
    ∧ (let s := withS [(2, BitVec.ofInt 64 (-2 ^ 63)), (3, BitVec.allOnes 64)];
        Issues (.div 0 0 1 2 3 0) s ∧ s.rs 2 = BitVec.ofInt 64 (-2 ^ 63) ∧ s.rs 3 = BitVec.allOnes 64)
    ∧ (let s := withS [(2, 100), (3, 7)]; (∀ i ∈ [Instr.div 0 0 1 2 3 0, .div 0 0 1 2 3 1, .div 0 0 1 2 3 2, .div 0 0 1 2 3 3], Issues i s) ∧ s.rs 3 ≠ 0)
    ∧ ∀ i ∈ [Instr.bitc 0 0 1 2 0, .bitc 0 0 1 2 1, .bitc 0 0 1 2 2, .bitc 0 0 1 2 3, .bitc 0 0 1 2 4], Issues i s0 := by
  refine ⟨⟨issues_of ?_, ?_⟩, ⟨issues_of ?_, ?_, ?_⟩, ⟨issues_list ?_, ?_⟩, issues_list ?_⟩ <;> decide +kernel

theorem witness_ScalarImmediateForms :
    (∀ i ∈ [Instr.addi 0 0 1 2 256, .andi 0 0 1 2 511, .ori 0 0 1 2 511, .xori 0 0 1 2 255, .shli 0 0 1 2 63, .shri 0 0 1 2 63, .sari 0 0 1 2 63,
      .muli 0 0 1 2 511, .li 0 0 1 0x4000, .lis 0 0 1 0x7FFF, .addpc 0 0 1 0x4000], Issues i s0)
    ∧ 0x14 ≤ ((0x14000040 : W32).extractLsb' 24 7).toNat ∧ ((0x14000040 : W32).extractLsb' 24 7).toNat ≤ 0x16
    ∧ (0x14000040 : W32).extractLsb' 6 3 ≠ 0 := ⟨issues_list (by decide +kernel), by decide⟩

theorem witness_ScalarCompares :
    ∀ i ∈ [Instr.cmp 0 0 5 2 3 3, .cmpu 0 0 5 2 3 3, .cmpi 0 0 5 2 63 3, .pfrom 0 0 5 2], Issues i s0 := issues_list (by decide +kernel)

/-- Targets at 0x1000 and at 8, which is no bundle address; a loop with one iteration left and with two. -/
theorem witness_BranchForms :
    (let s := at0 fun c => { c with bregs := [(3, 0x1000), (7, 0x01FFFFFFFFFFFFF0)], sregs := [(4, 2), (5, 1)] };
      (∀ i ∈ [Instr.br 0 0 1, .call 0 0 1, .brb 0 0 3, .ret 0 0, .lbt 0 0 3 1, .movb 0 0 3 4 0, .movb 0 0 3 4 1, .loop 0 0 4 1, .loop 0 0 5 1], Issues i s)
      ∧ TargetOk (s.rb 3) ∧ TargetOk (s.rb 7) ∧ s.rs 4 - 1 ≠ 0 ∧ s.rs 5 - 1 = 0)
    ∧ (let s := at0 fun c => { c with bregs := [(3, 8), (7, 0x0200000000000000)] };
      Issues (.brb 0 0 3) s ∧ Issues (.ret 0 0) s ∧ ¬TargetOk (s.rb 3) ∧ ¬TargetOk (s.rb 7)) := by
  refine ⟨⟨issues_list ?_, ?_, ?_, ?_, ?_⟩, ⟨issues_of ?_, issues_of ?_, ?_, ?_⟩⟩ <;> first | (unfold TargetOk; decide +kernel) | decide +kernel

/-- Shape 3 over quad 1 (p4 to p7): each of its leaves, a bad target, a pending test and a pending target. -/
def sTree (k : Nat) (t : W64) : State := at0 fun c => { c with pregs := if k = 4 then [] else [(4 + k, 1)], bregs := [(2, t), (3, t), (4, t), (5, t)] }

theorem witness_ConditionTree :
    (∀ l < 4, Issues (.hdrT 0 3 1 2 7 7 7) (sTree l 0x1000) ∧ LeafIs 3 (fun k => (((sTree l 0x1000).ctx 0).p (4 + k)).getLsbD 0) l
      ∧ (∀ k ∈ shapeTests 3, ((sTree l 0x1000).ctx 0).pending (.p (4 + k)) = false) ∧ ((sTree l 0x1000).ctx 0).pending (.b (2 + l)) = false
      ∧ TargetOk ((sTree l 0x1000).rb (2 + l)) ∧ ¬TargetOk ((sTree l 8).rb (2 + l)))
    ∧ (Issues (.hdrT 0 3 1 2 7 7 7) (sTree 4 0) ∧ LeafIs 3 (fun k => (((sTree 4 0).ctx 0).p (4 + k)).getLsbD 0) 4)
    ∧ (let s := at0 fun c => { c with flights := [{ flight2 with dest := .p 5 }] }; Issues (.hdrT 0 3 1 2 7 7 7) s ∧ (s.ctx 0).pending (.p 5) = true)
    ∧ (let s := at0 fun c => { c with flights := [{ flight2 with dest := .b 2 }], pregs := [(4, 1)] };
        Issues (.hdrT 0 3 1 2 7 7 7) s ∧ LeafIs 3 (fun k => ((s.ctx 0).p (4 + k)).getLsbD 0) 0 ∧ (s.ctx 0).pending (.b 2) = true) := by
  refine ⟨fun l hl => ?_, ⟨issues_of ?_, ?_⟩, ⟨issues_of ?_, ?_⟩, ⟨issues_of ?_, ?_, ?_⟩⟩
  · have h4 : l = 0 ∨ l = 1 ∨ l = 2 ∨ l = 3 := by omega
    rcases h4 with rfl | rfl | rfl | rfl <;> refine ⟨issues_of ?_, ?_, ?_, ?_, ?_, ?_⟩ <;>
      first | (unfold TargetOk; decide +kernel) | (unfold LeafIs; decide +kernel) | decide +kernel
  all_goals first | (unfold LeafIs; decide +kernel) | decide +kernel

theorem witness_EmptyBundles : (s0.ctx s0.cur).flights.length ≤ 48 ∧ (1 : BitVec 7) ≠ 0 ∧ (0x1 : W32).extractLsb' 24 7 = 0
    ∧ (0x1 : W32).extractLsb' 0 24 ≠ 0 ∧ (0x100 : W32).extractLsb' 25 7 = 0 ∧ (0x100 : W32) ≠ 0
    ∧ (0x80000000 : BitVec 128).extractLsb' 0 31 = 0 ∧ (0x80000000 : BitVec 128).extractLsb' 32 96 = 0 := by decide +kernel


/-- The number register of TCOUNT's edge: tile 31 of 32 exists; with 4 tiles, header CSR 0x034 is past the count. -/
def sTiles4 : State := at0 fun c => { c with tileCount := 4 }

theorem witness_CsrReads :
    (Issues (.csrd 0 0 0x04F 1) s0 ∧ 0x04F - 0x030 < (s0.ctx s0.cur).tileCount) ∧ Issues (.csrd 0 0 0x062 1) s0
    ∧ Issues (.csrd 0 0 0x034 1) sTiles4 ∧ 0x030 ≤ (0x034 : BitVec 12).toNat ∧ (0x034 : BitVec 12).toNat ≤ 0x04F
    ∧ (sTiles4.ctx sTiles4.cur).tileCount ≤ (0x034 : BitVec 12).toNat - 0x030 :=
  ⟨⟨issues_of (by decide +kernel), by decide +kernel⟩, issues_of (by decide +kernel), issues_of (by decide +kernel), by decide, by decide,
    by decide +kernel⟩

/-- `s0` in handler mode, with s2 = 2 and an entry of the snapshot to replay. -/
def sHandler : State :=
  at0 fun c => { c with hm := true, trapcause := 0x11, trappc := 0x1010, sregs := [(2, 2)], snapshot := [flight2.snap 0] }

theorem witness_SpecialRegisterWrites :
    (∀ i ∈ [Instr.cswr 0 0 0x010 2, .cswr 0 0 0x011 2, .cswr 0 0 0x012 2, .cswr 0 0 0x013 2, .cswr 0 0 0x014 2, .cswr 0 0 0x015 2, .cswr 0 0 0x052 2,
        .cswr 0 0 0x055 2, .cswr 0 0 0x056 2, .cswr 0 0 0x100 2, .cswr 0 0 0x101 2, .cswr 0 0 0x020 2, .mpset 0 0 7 2, .tcset 0 0 31 2, .tcget 0 0 31 2],
        Issues i sHandler)
    ∧ ((sHandler.ctx sHandler.cur).hm = true ∧ (sHandler.array (pairOf sHandler.cur)).idle = true ∧ (sHandler.rs 2).extractLsb' 0 2 ≠ 3
        ∧ (∀ k < 4, tget 0 (sHandler.array (pairOf sHandler.cur)).accState k = 0) ∧ (31 : BitVec 5).toNat < (sHandler.ctx sHandler.cur).tileCount)
    ∧ (Issues (.cswr 0 0 0x052 2) s0 ∧ (s0.ctx s0.cur).hm = false)
    ∧ (Issues (.cswr 0 0 0x050 2) s0
        ∧ (0x050 : BitVec 12) ∉ ([0x010, 0x011, 0x012, 0x013, 0x014, 0x015, 0x020, 0x052, 0x055, 0x056, 0x100, 0x101] : List (BitVec 12)))
    ∧ (Issues (.cswr 0 0 0x020 2) (withS [(2, 3)]) ∧ ((withS [(2, 3)]).array (pairOf 0)).idle = true ∧ ((withS [(2, 3)]).rs 2).extractLsb' 0 2 = 3)
    ∧ Issues (.tcset 0 0 4 2) sTiles4 ∧ Issues (.tcget 0 0 4 2) sTiles4 ∧ (sTiles4.ctx sTiles4.cur).tileCount ≤ (4 : BitVec 5).toNat := by
  refine ⟨issues_list ?_, ⟨?_, ?_, ?_, ?_, ?_⟩, ⟨issues_of ?_, ?_⟩, ⟨issues_of ?_, ?_⟩, ⟨issues_of ?_, ?_, ?_⟩, issues_of ?_, issues_of ?_, ?_⟩ <;>
    decide +kernel

/-- Program 0 has arrived at slot 3 in phase 0. -/
def sArrived : State :=
  { at0 fun c => { c with tickets := [(3, 0)] } with groups := [(1, { group1 with live := [0, 1], slots := [(3, { phase := 0, arrived := [0] })] })] }

/-- Program 1 has yet to arrive; a copy of the context is under way. -/
def sOther : State := { s0 with groups := [(1, { group1 with live := [0, 1] })] }
def sBulk : State :=
  { at0 fun c => { c with memSeq := 1 } with
    clusters := [(0, { Cluster.initial with copies := [{ ctx := 0, oc := 0, stream := none, channel := 0, seq := 0 }] })] }

theorem witness_BarrierForms :
    ((∀ i ∈ [Instr.bar 0 0 3, .barW 0 0 3, .barAw 0 0 3], Issues i s0) ∧ (3 : BitVec 5).toNat < (s0.group (s0.ctx s0.cur).group).bars
      ∧ (s0.ctx s0.cur).program ∉ ((s0.group (s0.ctx s0.cur).group).slot 3).arrived ∧ tfind (s0.ctx s0.cur).tickets 3 = none)
    ∧ ((∀ i ∈ [Instr.bar 0 0 3, .barW 0 0 3, .barAw 0 0 3], Issues i sArrived) ∧ (3 : BitVec 5).toNat < (sArrived.group (sArrived.ctx sArrived.cur).group).bars
      ∧ (sArrived.ctx sArrived.cur).program ∈ ((sArrived.group (sArrived.ctx sArrived.cur).group).slot 3).arrived
      ∧ ¬∀ k, tfind (sArrived.ctx sArrived.cur).tickets (3 : BitVec 5).toNat = some k → k < ((sArrived.group (sArrived.ctx sArrived.cur).group).slot 3).phase)
    ∧ ((∀ i ∈ [Instr.bar 0 0 4, .barW 0 0 4, .barAw 0 0 4], Issues i s0) ∧ ¬(4 : BitVec 5).toNat < (s0.group (s0.ctx s0.cur).group).bars)
    ∧ (∀ s ∈ [s0, sOther, sBulk], (s.ctx 0).delayed = [] ∧ (s.ctx 0).program ∈ (s.group (s.ctx 0).group).live)
    ∧ (bulkPending 0 allClasses s0 = false ∧ ∀ z ∈ (s0.group 1).live, z ∈ ((s0.group 1).slot 3).arrived ∨ z = (s0.ctx 0).program)
    ∧ (bulkPending 0 allClasses sOther = false ∧ ∃ z ∈ (sOther.group 1).live, z ∉ ((sOther.group 1).slot 3).arrived ∧ z ≠ (sOther.ctx 0).program)
    ∧ bulkPending 0 allClasses sBulk = true := by
  refine ⟨⟨issues_list ?_, ?_, ?_, ?_⟩, ⟨issues_list ?_, ?_, ?_, fun h => absurd (h 0 ?_) ?_⟩, ⟨issues_list ?_, ?_⟩, ?_, ?_, ?_, ?_⟩ <;> decide +kernel

/-- A launch with 4 groups of at most 16, and s6 = 3, 12, 13 and 2^32 (R347). -/
def launch1 : Launch :=
  { part := 0, vf := 0, kobj := 0, gcount := 4, glimit := 16, args := 0, swtb := 0, hlist := 0, handles := [], waits := [], prio := 0, record := 0,
    taskid := 1, state := .ready, next := 4, exited := 0, status := 0, swtIdx := 0, swtCp := 0, preempts := 0, cyc := 0, energyNJ := 0 }
def sGrow : State := { withS [(6, 12), (7, 13), (8, 0x100000000)] with launches := [(1, launch1)] }

/-- A store of the context waits to perform. -/
def sGrowWaits : State :=
  { at0 fun c => { c with sregs := [(6, 12)], memSeq := 2, delayed := [{ seq := 1, oc := 15, act := .store [] }] } with launches := [(1, launch1)] }

/-- Bank 0 of the pair's array is the context's. -/
def sMat0 : State := { s0 with arrays := [(0, { MArray.initial with owners := [(0, 0)] })] }

theorem witness_GrowYieldAndExit :
    ((∀ i ∈ [Instr.grow 0 0 5 0, .grow 0 0 5 6, .grow 0 0 5 7, .grow 0 0 5 8], Issues i sGrow) ∧ tfind sGrow.launches (sGrow.ctx sGrow.cur).launch = some launch1
      ∧ 2 ^ 32 ≤ (sGrow.rs 8).toNat ∧ (sGrow.rs 0).toNat = 0 ∧ launch1.glimit < launch1.gcount + (sGrow.rs 7).toNat
      ∧ launch1.gcount + (sGrow.rs 6).toNat ≤ launch1.glimit ∧ earlier sGrow.cur allClasses (sGrow.ctx sGrow.cur).memSeq sGrow = false)
    ∧ (Issues (.grow 0 0 5 6) sGrowWaits ∧ tfind sGrowWaits.launches (sGrowWaits.ctx sGrowWaits.cur).launch = some launch1
      ∧ earlier sGrowWaits.cur allClasses (sGrowWaits.ctx sGrowWaits.cur).memSeq sGrowWaits = true)
    ∧ Issues (.yield 0 0) s0 ∧ Issues (.exit 0 0) s0 ∧ (s0.ctx 0).delayed = [] ∧ bulkPending 0 allClasses s0 = false
    ∧ (sBulk.ctx 0).delayed = [] ∧ bulkPending 0 allClasses sBulk = true ∧ tfind (sMat0.array (pairOf 0)).owners 0 = some 0
    ∧ ((sMat0.array (pairOf 0)).owners.map (·.1)).Nodup := by
  refine ⟨⟨issues_list ?_, ?_, ?_, ?_, ?_, ?_⟩, ⟨issues_of ?_, ?_⟩, issues_of ?_, issues_of ?_, ?_⟩ <;> decide +kernel

theorem witness_TrapEntry :
    (s0.ctx 0).hm = false ∧ (s0.ctx 0).stream = false ∧ (s0.ctx 0).trapvec ≠ 0 ∧ freezes 0x07 0 = false := by decide +kernel

theorem witness_TrapFreezes :
    (s0.ctx 0).stream = false ∧ (s0.ctx 0).hm = false ∧ freezes 0x04 0 = true
    ∧ (let s := at0 fun c => { c with trapvec := 0 }; (s.ctx 0).hm = false ∧ (s.ctx 0).trapvec = 0) ∧ (sHandler.ctx 0).hm = true
    ∧ (sHandler.ctx 0).stream = false := by decide +kernel

theorem witness_TrapFormsTrapAfterCommit :
    (s0.ctx s0.cur).hm = false ∧ (s0.ctx s0.cur).stream = false ∧ (s0.ctx s0.cur).boundaryFreeze = none ∧ (s0.ctx s0.cur).trapvec ≠ 0
    ∧ ∀ i ∈ [Instr.trap 0 0 0x1FFFFF, .sysc 0 0 5, .brk 0 0 0], Issues i s0 := by
  refine ⟨?_, ?_, ?_, ?_, issues_list ?_⟩ <;> decide +kernel

theorem witness_ReturnFromHandler :
    (Issues (.rfe 0 0) sHandler ∧ (sHandler.ctx sHandler.cur).hm = true ∧ TargetOk (sHandler.ctx sHandler.cur).trappc
      ∧ (∀ f ∈ (sHandler.ctx sHandler.cur).flights, f.poison = none) ∧ ∀ x ∈ (sHandler.ctx sHandler.cur).snapshot, 0 < x.dist)
    ∧ ((∀ i ∈ [Instr.rfe 0 0, .savec 0 0 127 2, .loadc 0 0 127 2], Issues i s0) ∧ (s0.ctx s0.cur).hm = false)
    ∧ (let s := at0 fun c => { c with hm := true, trappc := 0x0200000000000000 };
        Issues (.rfe 0 0) s ∧ (s.ctx s.cur).hm = true ∧ ¬TargetOk (s.ctx s.cur).trappc) := by
  refine ⟨⟨issues_of ?_, ?_, ?_, ?_, ?_⟩, ⟨issues_list ?_, ?_⟩, ⟨issues_of ?_, ?_, ?_⟩⟩ <;>
    first | (unfold TargetOk; decide +kernel) | decide +kernel

/-- A context with a result to squash and one to keep in flight, names its group has written, and a barrier it waits at. -/
def cBusy : Ctx :=
  { ctx0 with flights := [{ flight2 with squash := true }, { flight2 with dest := .v 3, due := 9 }], groupWrites := [.s 2, .v 3], holdBar := some 3 }

theorem witness_TrapThenReturnRestores :
    (∀ f ∈ cBusy.flights, f.poison = none ∧ ∀ op n z lo hi l, f.dest ≠ .ck op n z lo hi l)
    ∧ (cBusy.flights.filter fun f => decide (cBusy.bundles < f.due)).map (·.squash) = [true, false] ∧ cBusy.groupWrites = [.s 2, .v 3]
    ∧ cBusy.holdBar = some 3 := by
  refine ⟨fun f h => ?_, by decide +kernel, rfl, rfl⟩
  simp only [cBusy, List.mem_cons, List.not_mem_nil, or_false] at h
  rcases h with rfl | rfl <;> exact ⟨rfl, fun _ _ _ _ _ _ h => nomatch h⟩

/-! ### Vectors -/

theorem witness_VectorIntegerForms :
    ∀ i ∈ [Instr.vadd 1 0 5 1 2 2, .vsub 0 0 5 1 2 2, .vmul 0 0 5 1 2 2, .vmin 0 0 5 1 2 1, .vmax 0 0 5 1 2 1, .vand 0 0 5 1 2, .vor 0 0 5 1 2, .vxor 0 0 5 1 2,
      .vshl 0 0 5 1 2, .vshr 0 0 5 1 2, .vsar 0 0 5 1 2, .vadds 0 0 5 1 2 1, .vmuls 0 0 5 1 2 1, .vli 0 0 5 0x400], Issues i s0 := issues_list (by decide +kernel)

theorem witness_VectorFloatForms :
    (∀ i ∈ [Instr.vfadd 0 0 5 1 2, .vfsub 0 0 5 1 2, .vfmul 0 0 5 1 2, .vfma 0 0 5 1 2 3 1, .vfmin 0 0 5 1 2 1, .vfmax 0 0 5 1 2 0, .vfrcp 0 0 5 1,
      .vfrsq 0 0 5 1, .vfexp2 0 0 5 1, .vflog2 0 0 5 1, .vcvt 0 0 5 1 3, .vfclass 0 0 5 1 0, .vfclass 0 0 5 1 1, .vqdeq 0 0 5 1 2 3, .vqnt 0 0 5 1 2 0,
      .vrng 0 0 5 1 2 0, .vrng 0 0 5 1 2 1], Issues i s0)
    ∧ ((0x7F800001 : W32).extractLsb' 23 8 = 0xFF ∧ (0x7F800001 : W32).extractLsb' 0 23 ≠ 0)
    ∧ ¬((0x3F800000 : W32).extractLsb' 23 8 = 0xFF ∧ (0x3F800000 : W32).extractLsb' 0 23 ≠ 0) :=
  ⟨issues_list (by decide +kernel), by decide +kernel⟩

/-- The largest Ducat-64 number in element 3 and zeros elsewhere; s6 = 1. -/
def sDucat : State :=
  withSV [(6, 1)] [(1, vecOfElems fun k => if k = 3 then 0x3FFFFFFFFFFFFFFF else 0x4000000000000000), (2, vecOfElems fun _ => 0x3FFFFFFFFFFFFFFF)]
/-- Zeros of Ducat-64 everywhere. -/
def sDucat0 : State := withSV [] [(1, vecOfElems fun _ => 0x4000000000000000), (2, vecOfElems fun _ => 0x4000000000000000)]

def ducatForms : List Instr := [.vdadd 0 0 5 1 2 0, .vdadd 0 0 5 1 2 1, .vdmul 0 0 5 1 2, .vdmax 0 0 5 1 2 0, .vdmax 0 0 5 1 2 1, .vdscl 0 0 5 1 6,
  .vdcvt 0 0 5 1 0, .vdcvt 0 0 5 1 1, .vdcvt 0 0 5 1 2, .vdcvt 0 0 5 1 3, .vdcvt 0 0 5 1 4, .vdcvt 0 0 5 1 5, .vdcvt 0 0 5 1 6, .vdcvt 0 0 5 1 7]

/-- Every element in range; element 3 the first to leave it, in a sum, a product and a scaling. -/
theorem witness_DucatForms :
    ((∀ i ∈ ducatForms, Issues i sDucat0) ∧ ∀ k < 32, (dkAdd (elem (sDucat0.rv 1) k) (elem (sDucat0.rv 2) k)).isOk = true
        ∧ (dkMul (elem (sDucat0.rv 1) k) (elem (sDucat0.rv 2) k)).isOk = true ∧ (dkScale (elem (sDucat0.rv 1) k) 1).isOk = true
        ∧ (dk32Narrow (elem (sDucat0.rv 1) k)).isOk = true)
    ∧ ((∀ i ∈ ducatForms, Issues i sDucat) ∧ dkAdd (elem (sDucat.rv 1) 3) (elem (sDucat.rv 2) 3) = .error true
        ∧ dkMul (elem (sDucat.rv 1) 3) (elem (sDucat.rv 2) 3) = .error true ∧ dkScale (elem (sDucat.rv 1) 3) (sDucat.rs 6).toInt = .error true
        ∧ ((sDucat.ctx 0).p 0).getLsbD 6 = true ∧ ∀ j < 3, (dkAdd (elem (sDucat.rv 1) j) (elem (sDucat.rv 2) j)).isOk = true
          ∧ (dkMul (elem (sDucat.rv 1) j) (elem (sDucat.rv 2) j)).isOk = true ∧ (dkScale (elem (sDucat.rv 1) j) (sDucat.rs 6).toInt).isOk = true) := by
  refine ⟨⟨issues_list ?_, ?_⟩, issues_list ?_, ?_⟩ <;> decide +kernel

theorem witness_VectorMoves :
    (∀ i ∈ [Instr.vperm 0 0 5 1 2 0, .vperm 0 0 5 1 2 1, .vnib 0 0 5 1 31, .vshuf 0 0 5 1 2 3, .vbcast 0 0 5 6 1, .vins 0 0 5 1 6 3, .viota 0 0 5 1, .vmov 0 0 5 1,
      .vmovs 0 0 6 1 62 2], Issues i s0) ∧ ((s0.ctx s0.cur).p 0).getLsbD 62 = true
    ∧ Issues (.vmovs 0 1 6 1 62 2) (withP [(1, 1)]) ∧ (((withP [(1, 1)]).ctx 0).p 1).getLsbD 62 = false := by
  refine ⟨issues_list ?_, ?_, issues_of ?_, ?_⟩ <;> decide +kernel

/-- Largest Ducat-64 numbers whose sum leaves the range, and zeros whose sum does not. -/
def sDucatSum : State := withSV [] [(1, vecOfElems fun _ => 0x3FFFFFFFFFFFFFFF)]

theorem witness_VectorReductions :
    (∀ i ∈ [Instr.vred 0 0 5 1 5, .vscan 0 0 5 1 5, .vred 0 0 5 1 6, .vscan 0 0 5 1 7], Issues i sDucat0) ∧ (5 : BitVec 6).toNat ≤ 5 ∧ 5 < (6 : BitVec 6).toNat
    ∧ ((treeFold (redDk 6) 5 (redElems 6 ((sDucat0.ctx 0).p 0) (sDucat0.rv 1))).headD (.ok 0)).isOk = true
    ∧ ((List.range 32).all fun k => ((scanFold (redDk 6) 5 1 (redElems 6 ((sDucat0.ctx 0).p 0) (sDucat0.rv 1))).getD k (.ok 0)).isOk) = true
    ∧ (∀ i ∈ [Instr.vred 0 0 5 1 6, .vscan 0 0 5 1 6], Issues i sDucatSum)
    ∧ (treeFold (redDk 6) 5 (redElems 6 ((sDucatSum.ctx 0).p 0) (sDucatSum.rv 1))).headD (.ok 0) = .error (4, true)
    ∧ (scanFold (redDk 6) 5 1 (redElems 6 ((sDucatSum.ctx 0).p 0) (sDucatSum.rv 1))).getD 1 (.ok 0) = .error (0, true)
    ∧ ((scanFold (redDk 6) 5 1 (redElems 6 ((sDucatSum.ctx 0).p 0) (sDucatSum.rv 1))).getD 0 (.ok 0)).isOk = true := by
  refine ⟨issues_list ?_, ?_, ?_, ?_, ?_, issues_list ?_, ?_, ?_, ?_⟩ <;> decide +kernel

theorem witness_PredicateForms :
    (∀ i ∈ [Instr.vcmp 0 0 9 1 2 7, .vfcmp 0 0 9 1 2 7, .vfcmp 0 0 9 1 2 8, .pand 0 0 9 4 5, .por 0 0 9 4 5, .pxor 0 0 9 4 5, .pandn 0 0 9 4 5, .pcnt 0 0 6 4 0,
      .pcnt 0 0 6 4 1, .pcnt 0 0 6 4 2], Issues i s0) ∧ (7 : BitVec 4).toNat < 8 ∧ 8 ≤ (8 : BitVec 4).toNat := ⟨issues_list (by decide +kernel), by decide⟩


/-! ### Memory -/

/-- The value of a check that passed. -/
def okVal {α : Type} (x : Chk α) (d : α) : α := match x with | .ok a => a | .error _ => d

theorem ok_val {α : Type} {x : Chk α} (d : α) (h : passed x = true) : x = .ok (okVal x d) := by
  cases x with
  | ok a => rfl
  | error e => exact absurd h (by simp [passed])

theorem ok_unit {x : Chk Unit} (h : passed x = true) : x = .ok () := by obtain ⟨⟨⟩, e⟩ := ok_of_passed h; exact e

/-- A tile header of R167 without Z or T. -/
def hdrW (fmt rows cols grp stride : Nat) : W64 := BitVec.ofNat 64 (fmt + 16 * (rows - 1) + 1024 * (cols - 1) + 2 ^ 19 * grp + 2 ^ 32 * stride)

/-- Bases and lengths in scalar registers, tiles of the formats used, and a few bytes of memory. -/
def sMem : State :=
  { at0 fun c => { c with
      sregs := [(2, 0x4000), (3, 0x8000), (4, 0x400), (5, 0xFFFFFFFFFFFFFF81), (6, 0x4001), (7, 0x01FF000000000000), (8, 0x100000000000000), (9, 3)],
      vregs := [(1, splat 0x3F800000)], pregs := [(1, 0xFFFF0000)],
      tcregs := [(0, hdrW 0 4 8 0 0), (1, hdrW 11 4 4 0 0), (2, hdrW 12 4 2 0 0), (3, hdrW 5 4 8 0 0)] } with
    mem := [(0x3FF8, 0x80), (0x4000, 0x11), (0x4001, 0x92), (0x4007, 0xFE)] }

theorem witness_ScalarLoads :
    (∀ i ∈ [Instr.ldd 0 0 1 2 0 31, .ldw 0 0 1 2 0 15, .ldwu 0 0 1 2 0 16, .ldh 0 0 1 2 0 1, .ldhu 0 0 1 2 0 0, .ldb 0 0 1 2 0 1, .ldbu 0 0 1 2 0 1, .lddp 0 0 1 2 0 31],
      Issues i sMem)
    ∧ ∀ p ∈ ([(31, 8), (15, 4), (16, 4), (1, 2), (0, 2), (1, 1)] : List (BitVec 5 × Nat)), ∃ x,
      access1 sMem sMem.cur (addrOff (sMem.rs 2) (p.1.toInt * p.2)) p.2 .r 0 = .ok x ∧ inOrder sMem sMem.cur 0 [x] = .ok () := by
  have both (a : Nat) (n : Nat) (h : (match access1 sMem sMem.cur a n .r 0 with | .ok x => passed (inOrder sMem sMem.cur 0 [x]) | _ => false) = true) :
      ∃ x, access1 sMem sMem.cur a n .r 0 = .ok x ∧ inOrder sMem sMem.cur 0 [x] = .ok () := by
    cases e : access1 sMem sMem.cur a n .r 0 with
    | ok x => exact ⟨x, rfl, ok_unit (by simpa only [e] using h)⟩
    | error _ => simp [e] at h
  refine ⟨issues_list (by decide +kernel), fun p hp => both _ _ ?_⟩
  revert p
  decide +kernel

theorem witness_ScalarStores :
    (∀ i ∈ [Instr.std 0 1 2 0 31, .stw 0 1 2 0 16, .sth 0 1 2 0 15, .stb 0 1 2 0 1], Issues i sMem) ∧ memWf sMem.mem = true
    ∧ ∀ p ∈ ([(31, 8), (16, 4), (15, 2), (1, 1)] : List (BitVec 5 × Nat)),
      let x := access1 sMem sMem.cur (addrOff (sMem.rs 2) (p.1.toInt * p.2)) p.2 .w 0
      passed x = true ∧ (x.toOption.map (·.place)) = some (.dp 0 false (addrOff (sMem.rs 2) (p.1.toInt * p.2)))
      ∧ passed (storeInOrder sMem sMem.cur x.toOption.toList) = true
      ∧ storeHeld sMem.cur 0 (x.toOption.toList.map fun y => (y.place, p.2)) sMem = false := by
  refine ⟨issues_list (by decide +kernel), by decide +kernel, ?_⟩
  decide +kernel

theorem witness_VectorLoadsAndStores :
    (∀ i ∈ [Instr.vld 0 0 5 2 0 32, .vst 0 5 2 0 31, .vldp 0 0 5 2 0 63, .vstp 0 5 2 0 1], Issues i sMem)
    ∧ (∀ off ∈ ([-32 * 256, 31 * 256, 0] : List Int), ∀ k ∈ [Right.r, .w],
        let l := vecAccess { g := 0, gd := 0 } (sMem.rs 2) off k 0 sMem
        passed l = true ∧ passed (inOrder sMem 0 0 ((okVal l []).map (·.2))) = true ∧ passed (storeInOrder sMem 0 ((okVal l []).map (·.2))) = true)
    ∧ ((List.range 4).filter fun k => (List.range 16).any fun j => ((sMem.ctx sMem.cur).p 0).getLsbD (16 * k + j)) = [0, 1, 2, 3]
    ∧ (∀ i ∈ [Instr.vld 0 0 5 6 0 0, .vst 0 5 6 0 0, .vldp 0 0 5 6 0 0, .vstp 0 5 6 0 0], Issues i sMem) ∧ addrOff (sMem.rs 6) (0 * 256) % 64 ≠ 0
    ∧ (sMem.rs 6).toNat % 64 ≠ 0 :=
  ⟨issues_list (by decide +kernel), by decide +kernel, by decide +kernel, issues_list (by decide +kernel), by decide +kernel, by decide +kernel⟩

/-- The word at 0x4000 poisoned. -/
def sPoison : State := { sMem with poison := [0x100] }
/-- The largest Ducat-64 number at 0x4000 and in s3. -/
def sBig : State := { withS [(2, 0x4000), (3, 0x3FFFFFFFFFFFFFFF)] with mem := ([0x3F, 0xFF, 0xFF, 0xFF, 0xFF, 0xFF, 0xFF, 0xFF].reverse.zipIdx.map fun p => (0x4000 + p.2, p.1)) }

theorem witness_Atomics :
    (∀ i ∈ [Instr.aadd 0 1 2 3 0, .amax 0 1 2 3 0, .amin 0 1 2 3 0, .aor 0 1 2 3 0, .aand 0 1 2 3 0, .axchg 0 1 2 3 0, .acas 0 1 2 3 0, .aaddw 0 1 2 3 0,
      .afadd 0 1 2 3 0, .adadd 0 1 2 3 0], Issues i sMem ∧ Issues i sPoison ∧ Issues i sBig)
    ∧ (∀ s ∈ [sMem, sPoison, sBig], passed (afterAll s s.cur) = true)
    ∧ (∀ n ∈ [4, 8], (sMem.rs 2).toNat % n = 0 ∧ ∃ x, access sMem sMem.cur [((sMem.rs 2).toNat, n)] .a 15 scClass = .ok [x] ∧ poisonAt sMem x.place n = none
      ∧ inOrder sMem sMem.cur 15 [x] = .ok ())
    ∧ (∃ x, access sPoison sPoison.cur [((sPoison.rs 2).toNat, 8)] .a 15 scClass = .ok [x] ∧ poisonAt sPoison x.place 8 = some 0x4000
      ∧ inOrder sPoison sPoison.cur 15 [x] = .ok ())
    ∧ ∃ x, access sBig sBig.cur [((sBig.rs 2).toNat, 8)] .a 15 scClass = .ok [x] ∧ poisonAt sBig x.place 8 = none
      ∧ inOrder sBig sBig.cur 15 [x] = .ok () ∧ dkAdd (BitVec.ofNat 64 (leNat (readPlace sBig x.place 8))) (sBig.rs 3) = .error true := by
  refine ⟨fun i hi => ⟨?_, ?_, ?_⟩, ?_, ?_, ⟨_, rfl, ?_, ok_unit ?_⟩, ⟨_, rfl, ?_, ok_unit ?_, ?_⟩⟩
  · exact issues_list (by decide +kernel) i hi
  · exact issues_list (by decide +kernel) i hi
  · exact issues_list (by decide +kernel) i hi
  · decide +kernel
  · intro n hn
    simp only [List.mem_cons, List.not_mem_nil, or_false] at hn
    rcases hn with rfl | rfl
    · exact ⟨by decide +kernel, _, rfl, by decide +kernel, ok_unit (by decide +kernel)⟩
    · exact ⟨by decide +kernel, _, rfl, by decide +kernel, ok_unit (by decide +kernel)⟩
  all_goals decide +kernel

/-- Frame 1 not present, frame 2 in error (a reserved SIZE), and an entry without the execute right. -/
def sFrames : State :=
  { at0 fun c => { c with swt := [(0, BitVec.ofNat 256 (2 ^ 41 + 15 * 2 ^ 48 + 7 * 2 ^ 112))], sregs := [(2, 0x4001)] } with frames := [(0, 1), (2, 0x18 + 1)] }

theorem witness_TranslationAndAlignment :
    ((1023 : Nat) < 2 ^ 32 ∧ 1023 + 1 ≤ (s0.ctx 0).scratchSize ∧ (s0.ctx 0).scratchSize < 1017 + 8 ∧ Right.r ≠ .x)
    ∧ (inWindow 0x100000 = false ∧ 0x100000 < 2 ^ 57 ∧ (sFrames.ctx 0).entryFor 0x100000 8 = none)
    ∧ (∃ e, (sFrames.ctx 0).entryFor 0 16 = some e ∧ Right.x.ok (swRights e) = false ∧ Right.r.ok (swRights e) = true
        ∧ (swPhys e + viewOf (swLay e) 0x10000) / 65536 = 1 ∧ frError (sFrames.frame 1) = false ∧ frP (sFrames.frame 1) = false
        ∧ (swPhys e + viewOf (swLay e) 0x20000) / 65536 = 2 ∧ frError (sFrames.frame 2) = true
        ∧ frError (sFrames.frame 0) = false ∧ frP (sFrames.frame 0) = true ∧ frD (sFrames.frame 0) = false ∧ frC (sFrames.frame 0) = false)
    ∧ (let s := { sFrames with regs := { sFrames.regs with dpsizeGiB := 0 } }; s.dpBytes ≤ 0)
    ∧ (∀ i ∈ [Instr.ldd 0 0 1 2 0 0, .ldw 0 0 1 2 0 0, .ldwu 0 0 1 2 0 0, .ldh 0 0 1 2 0 0, .ldhu 0 0 1 2 0 0, .std 0 1 2 0 0, .stw 0 1 2 0 0, .sth 0 1 2 0 0,
        .aadd 0 1 2 3 0, .aaddw 0 1 2 3 0, .afadd 0 1 2 3 0, .adadd 0 1 2 3 0, .amax 0 1 2 3 0, .amin 0 1 2 3 0, .aor 0 1 2 3 0, .aand 0 1 2 3 0, .axchg 0 1 2 3 0,
        .acas 0 1 2 3 0], Issues i sFrames) ∧ ∀ n ∈ [8, 4, 2], (sFrames.rs 2).toNat % n ≠ 0 ∧ addrOff (sFrames.rs 2) (0 * (n : Int)) % n ≠ 0 :=
  ⟨by decide +kernel, by decide +kernel, ⟨_, rfl, by decide +kernel⟩, by decide +kernel, issues_list (by decide +kernel), by decide +kernel⟩

/-! ### Transfers, copies, streams, waits -/

/-- Tile 0 of `sMem` as FP32 4 x 8, tile 1 as U32 4 x 4, tile 2 as U32-I32 pairs 4 x 2, tile 3 as INT32 4 x 8. -/
theorem witness_TileTransfers :
    (∀ i ∈ [Instr.tld 0 0 2 0, .tst 0 0 2 0, .tgath 0 0 2 0 1 0, .tscat 0 0 2 0 2 1, .tscadd 0 0 2 0 1 0, .tscadd 0 3 2 0 1 0], Issues i sMem)
    ∧ (TileIs sMem 0 0 (Hdr.of (hdrW 0 4 8 0 0)) ∧ TileIs sMem 1 1 (Hdr.of (hdrW 11 4 4 0 0)) ∧ TileIs sMem 2 2 (Hdr.of (hdrW 12 4 2 0 0))
      ∧ TileIs sMem 3 3 (Hdr.of (hdrW 5 4 8 0 0)) ∧ TileHolds sMem 0 0 ∧ TileHolds sMem 1 0)
    ∧ (let h := Hdr.of (hdrW 0 4 8 0 0); h.rowLen ≤ h.pitch ∧ h.pitch % h.unit = 0 ∧ (sMem.rs 2).toNat % h.unit = 0 ∧ (sMem.core 0).xferQ.length < 8
      ∧ (∀ vs ∈ [h.allRows, [some 0, some 0, some 0, some 0]], ∀ k ∈ [Right.r, .w, .a], let l := rowAccess sMem.env h (sMem.rs 2) vs k 0 sMem
        passed l = true ∧ passed (inOrder sMem sMem.cur 0 ((okVal l []).flatMap (·.getD []))) = true)
      ∧ passed (ownSlot sMem sMem.cur 0) = true ∧ h.rows ≤ (Hdr.of (hdrW 11 4 4 0 0)).count) := by
  refine ⟨issues_list (by decide +kernel), ?_, ?_⟩
  · unfold TileIs TileHolds
    decide +kernel
  · decide +kernel

/-- Streams: 0 has an element, 1 is the consumer of a ring that holds one, 2 a producer with room, 3 a producer whose ring is full, 5 the
consumer of an empty ring, 4 unbound. -/
def sRings : State :=
  { at0 fun c => { c with
      sregs := [(2, 0x4000), (3, 0x8000), (4, 0x40), (5, 0x300000040)],
      streams := [(0, { binding := .copies, pending := [], arrived := [(5, none)] }), (1, { binding := .consumer 0 3, pending := [], arrived := [] }),
        (2, { binding := .producer 0 3, pending := [], arrived := [] }), (3, { binding := .producer 256 3, pending := [], arrived := [] }),
        (5, { binding := .consumer 512 3, pending := [], arrived := [] })] } with
    groups := [(1, { group1 with csram := [(0, 1), (256, 8)] })] }

theorem witness_CopiesAndStreams :
    ((∀ i ∈ [Instr.cpy 0 2 3 4, .cpyZero 0 2 4, .cpyq 0 0 2 4], Issues i sRings) ∧ copyLen (sRings.rs 4) = 64 ∧ (sRings.rs 4).extractLsb' 27 33 = 0
      ∧ (sRings.cluster (clusterOf sRings.cur)).copies.length < 32 ∧ (sRings.rs 2).toNat % 64 = 0 ∧ (sRings.rs 3).toNat % 64 = 0
      ∧ overlap (sRings.rs 2).toNat 64 (sRings.rs 3).toNat 64 = false
      ∧ (∀ l ∈ [rangePieces (sRings.rs 3).toNat 64 .r ++ rangePieces (sRings.rs 2).toNat 64 .c, rangePieces (sRings.rs 2).toNat 64 .c,
          rangePieces (sRings.rs 2).toNat 64 .r], let x := accessR sRings sRings.cur l (copyClass (sRings.rs 4)) anyClass
        passed x = true ∧ passed (inOrder sRings sRings.cur (copyClass (sRings.rs 4)) (okVal x [])) = true)
      ∧ ((sRings.ctx sRings.cur).stream' 0).pending.length < 4)
    ∧ ((∀ i ∈ [Instr.qpop 0 0 1, .qpop 0 1 1, .qpop 0 4 1, .qpop 0 5 1, .qpush 0 2 4, .qpush 0 3 4, .qpush 0 4 4, .qpopBind 0 0 5, .qpushBind 0 0 5, .qstat 0 0 1], Issues i sRings)
      ∧ (((sRings.ctx sRings.cur).stream' 0).binding = .copies ∧ ((sRings.ctx sRings.cur).stream' 0).arrived = [(5, none)])
      ∧ (((sRings.ctx sRings.cur).stream' 1).binding = .consumer 0 3 ∧ ringTail sRings 1 0 ≠ ringHead sRings 1 0)
      ∧ (((sRings.ctx sRings.cur).stream' 4).binding = .unbound ∧ ((sRings.ctx sRings.cur).stream' 4).arrived = [])
      ∧ (((sRings.ctx sRings.cur).stream' 5).binding = .consumer 512 3 ∧ ringTail sRings 1 512 = ringHead sRings 1 512)
      ∧ (((sRings.ctx sRings.cur).stream' 2).binding = .producer 0 3 ∧ ringUsed sRings 0 1 0 ≠ BitVec.ofNat 64 (2 ^ 3))
      ∧ (((sRings.ctx sRings.cur).stream' 3).binding = .producer 256 3 ∧ ringUsed sRings 0 1 256 = BitVec.ofNat 64 (2 ^ 3))
      ∧ (∀ off ∈ [0, 512], passed (inOrderAt sRings 0 15 [(.csram 1 off, 64 + 8 * 2 ^ 3)]) = true)
      ∧ ((sRings.ctx 0).delayed = [] ∧ bulkPending 0 allClasses sRings = false ∧ memWf (sRings.group (sRings.ctx 0).group).csram = true)
      ∧ (64 = ((sRings.rs 5).extractLsb' 0 32).toNat ∧ 3 = ((sRings.rs 5).extractLsb' 32 4).toNat ∧ (sRings.rs 5).extractLsb' 36 28 = 0
        ∧ passed (access sRings sRings.cur (pieces (0x1FF * 2 ^ 48 + 2 ^ 32 + 64) (64 + 8 * 2 ^ 3)) .r 0 anyClass) = true)) := by
  refine ⟨⟨issues_list ?_, ?_⟩, issues_list ?_, ?_⟩ <;> decide +kernel

/-- A marker of class 0, with a copy of that class still ahead of it in `sAhead`. -/
def sFence : State := at0 fun c => { c with fences := [{ mask := 1, scope := 1, seq := 1 }], memSeq := 2, sregs := [(2, 0x4000), (3, 1)] }
def sAhead : State := { sFence with clusters := [(0, { Cluster.initial with copies := [{ ctx := 0, oc := 0, stream := none, channel := 0, seq := 0 }] })] }

theorem witness_FencesAndWaits :
    (∀ i ∈ [Instr.fence 0 1 0, .sbar 0 1 0, .waitm 0 0 2 3 0, .waitm 0 0 2 3 1, .waitm 0 0 2 3 2, .waitm 0 0 2 3 3, .waitm 0 0 2 3 4], Issues i sFence)
    ∧ bulkPending sFence.cur 1 sFence = false ∧ (sFence.rs 2).toNat % 8 = 0
    ∧ ∃ x, access sFence sFence.cur [((sFence.rs 2).toNat, 8)] .r 0 scClass = .ok [x] ∧ BitVec.ofNat 64 (leNat (readPlace sFence x.place 8)) = (0 : W64)
      ∧ ¬((0 : W64) &&& sFence.rs 3 ≠ 0) ∧ (0 : W64).toNat < (sFence.rs 3).toNat
      ∧ ((sFence.ctx sFence.cur).delayed.any fun y => y.act.meets x.place 8) = false
      ∧ meetsUnread sFence.cur [(x.place, 8)] sFence = false
      ∧ ∀ f ∈ (sAhead.ctx 0).fences, f.seq < (sAhead.ctx 0).memSeq ∧ f.mask.getLsbD 0 = true
        ∧ bulkBefore 0 (if f.mask.getLsbD 15 then BitVec.allOnes 16 else f.mask) f.seq sAhead = true :=
  ⟨issues_list (by decide +kernel), by decide +kernel, by decide +kernel, _, rfl, by decide +kernel⟩

/-- In handler mode with a save area at 0x10000. -/
def sSave : State := at0 fun c => { c with hm := true, savebase := 0x10000, sregs := [(1, 0x8000), (2, 0x4000), (3, 0x400), (4, 0x10000), (5, 0x01FF000000000000)] }

theorem witness_RangesHandlesAndSaveAreas :
    ((∀ i ∈ [Instr.rinv 0 2 3 1 0, .rflush 0 2 3 1 1, .resv 0 5 2 3 1, .rrel 0 5, .rrelAll 0], Issues i sSave) ∧ (sSave.rs 2).toNat % 512 = 0
      ∧ (sSave.rs 3).toNat % 512 = 0 ∧ sSave.rs 3 ≠ 0 ∧ (sSave.rs 1).toNat % 8 = 0 ∧ inWindow (sSave.rs 2).toNat = false ∧ inWindow (sSave.rs 1).toNat = false
      ∧ (sSave.rs 3).toNat < 2 ^ 48 ∧ ∀ k ∈ [some Right.r, none], (rangeMiss sSave sSave.cur (sSave.rs 2).toNat (sSave.rs 3).toNat k).isEmpty = true)
    ∧ ((∀ i ∈ [Instr.rinv 0 2 3 5 0, .rflush 0 2 3 5 0], Issues i sSave) ∧ (sSave.rs 5).toNat % 8 = 0 ∧ inWindow (sSave.rs 5).toNat = true)
    ∧ (∃ x pb lay off, access sSave sSave.cur [((sSave.rs 1).toNat, 8)] .a 15 notHc = .ok [x] ∧ x.place = .dp pb lay off)
    ∧ ((∀ i ∈ [Instr.savec 0 0 0x1F 0, .loadc 0 0 0x17 4], Issues i sSave) ∧ (sSave.ctx sSave.cur).hm = true ∧ (sSave.ctx sSave.cur).savebase.toNat % 4096 = 0
      ∧ (sSave.rs 4).toNat % 4096 = 0 ∧ passed (enginesDone sSave sSave.cur 0x1F) = true
      ∧ passed (accessesDone sSave sSave.cur) = true
      ∧ (let ks := (List.range 7).filter fun k => (0x1F : BitVec 7).getLsbD k && (partBytes sSave sSave.cur k (sSave.ctx sSave.cur).trappc false).isSome
        passed (areaAccess sSave sSave.cur 0x10000 ks .w) = true
        ∧ passed (storeInOrder sSave sSave.cur ((okVal (areaAccess sSave sSave.cur 0x10000 ks .w) []).flatMap (·.2))) = true)
      ∧ (let l := okVal (areaAccess sSave sSave.cur 0x10000 [0, 1, 2, 4] .r) []; passed (areaAccess sSave sSave.cur 0x10000 [0, 1, 2, 4] .r) = true
        ∧ poisonOf sSave (l.flatMap (·.2)) = none ∧ (∀ p ∈ l, passed (partCheck sSave sSave.cur p.1 (readSectors sSave p.2)) = true)
        ∧ passed (storeInOrder sSave sSave.cur (l.flatMap (·.2))) = true)) := by
  refine ⟨⟨issues_list ?_, ?_⟩, ⟨issues_list ?_, ?_⟩, ⟨_, _, _, _, rfl, rfl⟩, issues_list ?_, ?_⟩ <;> decide +kernel


/-! ### Matrix array, tiles, circuits, index engine, Assay, Clearing, transform units -/

/-- A table entry of R189: valid, at word 512, reading A and B of any format. -/
def routine32 : W64 := 512 + 0x8000 + 3 * 2 ^ 16 + 15 * 2 ^ 27 + 15 * 2 ^ 31

/-- Context 0 owns bank 0 with accumulator 0 OPEN; its launch owns the task image; tiles 0 and 1 are a BF16 product of K = 32, 4 a full FP32
tile, 5 a small one, 6 half an accumulator; routine 32 reads A and B. -/
def sMat : State :=
  { at0 fun c => { c with
      tcregs := [(0, hdrW 1 4 32 0 0), (1, hdrW 1 32 4 0 0), (4, hdrW 0 32 32 0 0), (5, hdrW 0 4 8 0 0), (6, hdrW 8 16 32 0 0)],
      mpregs := [(1, 1), (3, 32), (7, 0x01200200)] } with
    arrays := [(0, { MArray.initial with accState := [(0, 1)], owners := [(0, 0)], table := [(32, routine32)] })],
    clusters := [(0, { Cluster.initial with image := some 1 })] }

theorem accFor_of {s : State} {k o : Nat} (h : (s.array (pairOf s.cur)).mode = 0 ∧ (k / 2 = 1 ↔ coreOf s.cur % 2 = 1)
    ∧ tfind (s.array (pairOf s.cur)).owners (k / 2) = some o ∧ o = s.cur ∧ (s.array (pairOf s.cur)).count (coreOf s.cur % 2 == 1) < 8) : AccFor s k := by
  obtain ⟨h0, h1, h2, h3, h4⟩ := h
  refine ⟨by simp only [h0]; exact h1, fun x hx => ?_, h4⟩
  rw [h2] at hx
  cases hx
  exact h3

theorem witness_MatrixForms :
    (∀ i ∈ [Instr.bch 0 1, .ech 0 0, .mzero 0 0, .mdrain 0 0 5 24 28, .mspill 0 0 6 1, .mfill 0 0 6 0, .mpwr 0 4, .mpwrTab 0 4, .mprd 0 4, .mprdTab 0 4,
        .mcall 0 32 0], Issues i sMat)
    ∧ AccFor sMat 0 ∧ AccFor sMat 1 ∧ MayRunMatrix sMat ∧ ownsImage sMat sMat.cur = true
    ∧ (tget 0 (sMat.array (pairOf sMat.cur)).accState 0 = 1 ∧ tget 0 (sMat.array (pairOf sMat.cur)).accState 1 ≠ 1)
    ∧ (TileIs sMat 4 4 (Hdr.of (hdrW 0 32 32 0 0)) ∧ TileIs sMat 5 5 (Hdr.of (hdrW 0 4 8 0 0)) ∧ TileIs sMat 6 6 (Hdr.of (hdrW 8 16 32 0 0))
      ∧ TileHolds sMat 4 0 ∧ TileHolds sMat 6 0 ∧ ∀ n ∈ [0, 1, 4, 6], (sMat.tile (coreOf sMat.cur) n).poison = [])
    ∧ ((∀ n ∈ [4, 5, 6], passed (unitSlot sMat sMat.cur n) = true) ∧ maddrOk ((sMat.ctx sMat.cur).mp 7) = true
      ∧ tabOk ((sMat.ctx sMat.cur).mp 7) 32 = true ∧ tabData 0 (tCnt ((sMat.ctx sMat.cur).mp 7)) = true ∧ 28 + 4 ≤ 32 ∧ 24 + 8 ≤ 32)
    ∧ (let mps := (List.range 8).map (sMat.ctx sMat.cur).mp; let ent := entrySeen sMat sMat.cur 32; let r := callTiles sMat sMat.cur mps ent;
      entValid ent = true ∧ entSc ent = false ∧ passed r = true ∧ callFormats 32 ent (okVal r []) = true ∧ callShape 32 mps (okVal r []) = true
      ∧ mpReserved mps = false ∧ callScales 32 mps (okVal r []) = true ∧ (∀ i < 8, (sMat.ctx sMat.cur).pending (.mp i) = false)
      ∧ (∀ x ∈ okVal r [], entRd ent x.1 = true → (sMat.tile (coreOf sMat.cur) x.2.1).full = true)
      ∧ (∀ x ∈ okVal r [], entWr ent x.1 = true → passed (unitSlot sMat sMat.cur x.2.1) = true)) := by
  refine ⟨issues_list ?_, accFor_of (o := 0) ?_, accFor_of (o := 0) ?_, ?_, ?_, ?_, ?_, ?_, ?_⟩
  · decide +kernel
  · decide +kernel
  · decide +kernel
  · have h : (sMat.array (pairOf sMat.cur)).mode.toNat = 0 := by decide +kernel
    simp [MayRunMatrix, h]
  · decide +kernel
  · decide +kernel
  · unfold TileIs TileHolds; decide +kernel
  · decide +kernel
  · decide +kernel

/-- Tiles: 0 FP32 4 x 8 of ones, 1 BF16 4 x 8, 2 an FP64 value that DK64 can hold, 3 DK64, 7 FP32 with an infinity. -/
def sTile : State :=
  { at0 fun c => { c with tcregs := [(0, hdrW 0 4 8 0 0), (1, hdrW 1 4 8 0 0), (2, hdrW 9 1 1 0 0), (3, hdrW 10 1 1 0 0)] } with
    cores := [(0, { Core.initial with tiles := [(2, { Tile.initial with data := 0x3FFFFFFFFFFFFFFF })] })] }

/-- Tile 5 is empty. -/
def sTileEmpty : State := { sTile with cores := [(0, { Core.initial with tiles := [(5, { Tile.initial with full := false, valid := false })] })] }
/-- The contexts of a core that wait on an empty tile, beside the one that issues. -/
def waitsAt (s : State) : List Nat := (passOrder s.cur).filter fun k => k != s.cur && (s.ctx k).run == .blocked .tileRead

theorem witness_TileForms :
    (∀ i ∈ [Instr.tzero 0 0 0, .tzero 0 0 1, .tcopy 0 1 0, .tcopy 0 3 2, .tv2t 0 0 1 15, .tt2v 0 5 0 15], Issues i sTile)
    ∧ TileIs sTile 0 0 (Hdr.of (hdrW 0 4 8 0 0)) ∧ TileIs sTile 1 1 (Hdr.of (hdrW 1 4 8 0 0)) ∧ TileIs sTile 2 2 (Hdr.of (hdrW 9 1 1 0 0))
    ∧ TileIs sTile 3 3 (Hdr.of (hdrW 10 1 1 0 0)) ∧ TileHolds sTile 0 0 ∧ TileHolds sTile 2 0x3FFFFFFFFFFFFFFF ∧ (sTile.core 0).tileQ.length + (waitsAt sTile).length < 8
    ∧ (Issues (.tt2v 0 5 5 15) sTileEmpty ∧ TileIs sTileEmpty 5 5 (Hdr.of 0) ∧ (sTileEmpty.tile (coreOf sTileEmpty.cur) 5).full = false
      ∧ (sTileEmpty.core 0).tileQ.length + (waitsAt sTileEmpty).length < 8)
    ∧ passed (ownSlot sTile sTile.cur 0) = true ∧ passed (ownSlot sTile sTile.cur 1) = true ∧ convPair 0 1 = true ∧ convPair 9 10 = true
    ∧ ((List.range 32).all fun k => (convElem 0 1 ((Hdr.of (hdrW 0 4 8 0 0)).getRow 0 k)).isOk) = true
    ∧ convElem 9 10 ((Hdr.of (hdrW 9 1 1 0 0)).getRow 0x3FFFFFFFFFFFFFFF 0) = .error true := by
  have e : TileIs sTileEmpty 5 5 (Hdr.of 0) := by unfold TileIs; decide +kernel
  have i : Issues (.tt2v 0 5 5 15) sTileEmpty := issues_of (by decide +kernel)
  simp only [i, e, true_and]
  refine ⟨issues_list (by decide +kernel), ?_⟩
  unfold TileIs TileHolds
  decide +kernel

/-- Records of R199: 0 a constant leaf of node 4, 1 a sum of nodes 0 and 1 into node 5. -/
def recLeaf : BitVec 1024 := BitVec.ofNat 1024 (4 + 4 * 2 ^ 24)
def recNode : BitVec 1024 := BitVec.ofNat 1024 (5 + 2 * 2 ^ 32 + 2 ^ (128 + 24))
/-- A record of no kind. -/
def recBad : BitVec 1024 := BitVec.ofNat 1024 (7 * 2 ^ 24)
def sCircuit : State :=
  { at0 fun c => { c with tcregs := [(0, hdrW 13 2 1 0 0)], deroff := 256, evbase := 0x80 } with
    cores := [(0, { Core.initial with tiles := [(0, { Tile.initial with data := (recNode ++ recLeaf).setWidth 32768 })] })] }

/-- Nodes 0 and 1 hold the largest Ducat-64 number, so that their sum leaves the range. -/
def sCircuitHigh : State :=
  { sCircuit with ctxs := [(0, { sCircuit.ctx 0 with scratch := writeBytes [] 0 (leBytes 8 0x3FFFFFFFFFFFFFFF ++ leBytes 8 0x3FFFFFFFFFFFFFFF) })] }
def sCircuitBad : State :=
  { sCircuit with cores := [(0, { Core.initial with tiles := [(0, { Tile.initial with data := (recNode ++ recBad).setWidth 32768 })] })] }

theorem witness_CircuitForms :
    (∀ i ∈ [Instr.ckleaf 0 0 0 0, .cknode 0 0 1 0, .ckback 0 0 1 0, .cksamp 0 0 1 0, .ckdiv 0 0 1 7], Issues i sCircuit)
    ∧ TileIs sCircuit 0 0 (Hdr.of (hdrW 13 2 1 0 0)) ∧ TileHolds sCircuit 0 ((recNode ++ recLeaf).setWidth 32768)
    ∧ (sCircuit.tile 0 0).poison = [] ∧ (sCircuit.ctx sCircuit.cur).qmr.toNat ≤ 4
    ∧ (∀ p ∈ ([(CkOp.leaf, recLeaf), (.node, recNode), (.back, recNode), (.samp, recNode), (.div, recNode)] : List (CkOp × BitVec 1024)),
      (CRec.of p.2).bad p.1.accepts = 0
      ∧ (∀ z ∈ (CRec.of p.2).names (sCircuit.ctx sCircuit.cur).ckEnv, z.1 + z.2 ≤ (sCircuit.ctx sCircuit.cur).scratchSize)
      ∧ (∀ w ∈ (p.1.run (sCircuit.ctx sCircuit.cur).ckEnv [(CRec.of p.2, 0)] (sCircuit.ctx sCircuit.cur)).reads, tfind (sCircuit.ctx sCircuit.cur).tags w = none)
      ∧ (p.1.run (sCircuit.ctx sCircuit.cur).ckEnv [(CRec.of p.2, 0)] (sCircuit.ctx sCircuit.cur)).err = none)
    ∧ passed (scratchInOrder sCircuit sCircuit.cur) = true
    ∧ (Issues (.cknode 0 0 1 0) sCircuitHigh ∧ TileIs sCircuitHigh 0 0 (Hdr.of (hdrW 13 2 1 0 0)) ∧ passed (scratchInOrder sCircuitHigh 0) = true
      ∧ (CkOp.node.run (sCircuitHigh.ctx 0).ckEnv [(CRec.of recNode, 0)] (sCircuitHigh.ctx 0)).err = some (0x07, 1))
    ∧ (Issues (.ckleaf 0 0 0 1) sCircuitBad ∧ TileIs sCircuitBad 0 0 (Hdr.of (hdrW 13 2 1 0 0))
      ∧ TileHolds sCircuitBad 0 ((recNode ++ recBad).setWidth 32768) ∧ passed (scratchInOrder sCircuitBad 0) = true ∧ (sCircuitBad.ctx 0).tags = [] ∧ (CRec.of recBad).bad CkOp.leaf.accepts = 1) := by
  refine ⟨issues_list (by decide +kernel), ?_, ?_, ?_, ?_, ?_, ?_, ⟨issues_of ?_, ?_⟩, ⟨issues_of ?_, ?_⟩⟩
  all_goals first | (unfold TileIs TileHolds; decide +kernel) | (unfold TileIs; decide +kernel) | (unfold TileHolds; decide +kernel) | decide +kernel

/-- Tile 0 a bitmap of 4 rows of 64, 1 a cursor, 2 a list of positions, 3 sorted entries and 4 an unsorted table of 64, 5 a split of 8. -/
def sIndex : State :=
  { at0 fun c => { c with tcregs := [(0, hdrW 11 4 2 0 0), (1, hdrW 11 1 2 0 0), (2, hdrW 12 4 4 0 0), (3, hdrW 12 8 8 0 0), (4, hdrW 12 8 8 0 0),
                          (5, hdrW 11 1 8 0 0)] } with
    cores := [(0, { Core.initial with tiles := [(0, { Tile.initial with data := 0x80000001 }), (4, { Tile.initial with data := 0x500000009 })] })] }

theorem witness_IndexAndAssayForms :
    (∀ i ∈ [Instr.ixwalk 0 2 0 1, .ixsplit 0 5 1 6, .asort 0 3 4 4 0, .cclr 0 1 2, .amrg 0 0 4 0, .cread 0 0 3 9, .csamp 0 0 9], Issues i sIndex)
    ∧ TileIs sIndex 0 0 (Hdr.of (hdrW 11 4 2 0 0)) ∧ TileIs sIndex 1 1 (Hdr.of (hdrW 11 1 2 0 0)) ∧ TileIs sIndex 2 2 (Hdr.of (hdrW 12 4 4 0 0))
    ∧ TileIs sIndex 3 3 (Hdr.of (hdrW 12 8 8 0 0)) ∧ TileIs sIndex 4 4 (Hdr.of (hdrW 12 8 8 0 0)) ∧ TileIs sIndex 5 5 (Hdr.of (hdrW 11 1 8 0 0))
    ∧ (∀ n ∈ [0, 1, 4], (sIndex.tile (coreOf sIndex.cur) n).poison = [])
    ∧ TileHolds sIndex 0 0x80000001 ∧ TileHolds sIndex 1 0 ∧ TileHolds sIndex 4 0x500000009 ∧ (sIndex.core 0).indexQ.length < 4
    ∧ (sIndex.core 0).assayQ = [] ∧ (∀ n ∈ [1, 2, 3, 5], passed (ownSlot sIndex sIndex.cur n) = true) ∧ 6 + 2 ≤ (Hdr.of (hdrW 11 1 8 0 0)).cols
    ∧ 64 ≤ (Hdr.of (hdrW 12 8 8 0 0)).count ∧ keyFmt 0 = keyFmt 0 := by
  refine ⟨issues_list (by decide +kernel), ?_⟩
  unfold TileIs TileHolds
  decide +kernel

/-- A session of group 1 whose stream 0 takes entries and has given one, and tiles of entries and of a configuration. -/
def session1 : Session :=
  { group := 1, spill := none, pinned := [], zview := [], kind := 1, mask := 3, sealed := 2, pushed := 1, last := [(0, 9)],
    buf := [{ key := 5, val := 7, stream := 0, seq := 0 }], runs := [], spills := 0, nextSeq := 1 }
def sClear : State :=
  { at0 fun c => { c with tcregs := [(0, hdrW 11 1 8 0 0), (1, hdrW 14 1 2 0 0), (2, hdrW 14 1 4 0 0)] } with
    cores := [(0, { Core.initial with tiles := [(0, { Tile.initial with data := 2 ^ 64 + 2 ^ 97 + 2 ^ 96 }),
      (1, { Tile.initial with data := 9 + 3 * 2 ^ 64 + (2 ^ 64 - 1) * 2 ^ 128 })] })] }
def sOpen : State := { sClear with clusters := [(0, { Cluster.initial with session := some session1 })] }

theorem witness_ClearingForms :
    ((Issues (.clcfg 0 0) sClear ∧ ∀ i ∈ [Instr.clseal 0 0, .clcfgEnd 0], Issues i sClear) ∧ TileIs sClear 0 0 (Hdr.of (hdrW 11 1 8 0 0))
      ∧ TileHolds sClear 0 (2 ^ 64 + 2 ^ 97 + 2 ^ 96) ∧ (sClear.cluster 0).session = none
      ∧ (let h := Hdr.of (hdrW 11 1 8 0 0); let d : TileBits := 2 ^ 64 + 2 ^ 97 + 2 ^ 96; h.getRow d 0 + 2 ^ 32 * h.getRow d 1 = 0 ∧ h.getRow d 2 = 1
        ∧ h.getRow d 3 = 3 ∧ ∀ i < 8, 4 ≤ i → h.getRow d i = 0))
    ∧ ((sClear.tile 0 0).poison = [] ∧ (sOpen.tile 0 1).poison = [])
    ∧ (∀ x, ¬((sClear.cluster (clusterOf sClear.cur)).session = some x ∧ x.group = (sClear.ctx sClear.cur).group))
    ∧ ((∀ i ∈ [Instr.clpush 0 1 0, .clseal 0 0, .clpull 0 2, .clcfgEnd 0], Issues i sOpen) ∧ TileIs sOpen 1 1 (Hdr.of (hdrW 14 1 2 0 0))
      ∧ TileHolds sOpen 1 (9 + 3 * 2 ^ 64 + (2 ^ 64 - 1) * 2 ^ 128) ∧ TileIs sOpen 2 2 (Hdr.of (hdrW 14 1 4 0 0))
      ∧ (sOpen.cluster (clusterOf sOpen.cur)).session = some session1 ∧ session1.group = (sOpen.ctx sOpen.cur).group
      ∧ session1.mask.getLsbD 0 = true ∧ session1.sealed.getLsbD 0 = false
      ∧ coordEntries (Hdr.of (hdrW 14 1 2 0 0)) (9 + 3 * 2 ^ 64 + (2 ^ 64 - 1) * 2 ^ 128) = [(9, 3)] ∧ (tget 0 session1.last 0 : W64).toNat ≤ 9
      ∧ session1.held.filter (fun y => session1.below y.key) ≠ []
      ∧ (emit session1.kind 4 0 (session1.held.filter fun y => session1.below y.key)).isOk = true ∧ passed (ownSlot sOpen sOpen.cur 2) = true) := by
  refine ⟨⟨⟨issues_of (by decide +kernel), issues_list (by decide +kernel)⟩, ?_⟩, by decide +kernel, ?_, issues_list (by decide +kernel), ?_⟩
  · unfold TileIs TileHolds; decide +kernel
  · rintro x ⟨h, -⟩
    rw [show (sClear.cluster (clusterOf sClear.cur)).session = none from by decide +kernel] at h
    cases h
  · unfold TileIs TileHolds; decide +kernel

/-- Unit 0's ports: SRC 0x10000, LEN 4096, tile 0, a table at 0x8000, no options, a coded length of 64, DST 0x20000. -/
def xfu1 : Xfu := { Xfu.initial with ports := [(0, 0x10000), (1, 4096), (3, 0x8000), (5, 64), (6, 0x20000)], group := some 1 }
def sUnit : State :=
  { at0 fun c => { c with tcregs := [(0, hdrW 0 4 8 0 0)], sregs := [(4, 0x123456789)] } with clusters := [(0, { Cluster.initial with xfus := [(0, xfu1)] })] }
def xjob : XfuJob :=
  { op := 3, ctx := 0, oc := 0, slot := some 0, newData := 0, status := 0, zeroStatus := 0, err := 0, nout := 64, valid := false, lens := 0, hist := 0,
    histLen := 0 }
/-- The unit runs an operation of context 0; the unit is another context's. -/
def sRunning : State := { sUnit with clusters := [(0, { Cluster.initial with xfus := [(0, { xfu1 with owner := some 0, job := some xjob })] })] }
def sTaken : State := { sUnit with clusters := [(0, { Cluster.initial with xfus := [(0, { xfu1 with owner := some 5 })] })] }

theorem witness_TransformUnits :
    (∀ i ∈ [Instr.movp 0 5 4, .movfp 0 16 4, .movp 0 32 4, .movfp 0 255 4, .xfuDecode 0 0 4, .xfuZorder 0 0 4, .xfuUnz 0 0 4, .xfuCopy 0 0 4, .xfuUnpack4 0 0 4, .xfuSave 0 0 4,
        .xfuLoad 0 0 4, .xfuAbort 0 0 4], Issues i sUnit)
    ∧ ((sUnit.group (sUnit.ctx sUnit.cur).group).units[5 / 32]? = some 0 ∧ (sUnit.group (sUnit.ctx sUnit.cur).group).units[32 / 32]? = none
      ∧ (sUnit.group (sUnit.ctx sUnit.cur).group).units[255 / 32]? = none ∧ (sUnit.xfu 0 0).owner = none ∧ (sUnit.xfu 0 0).job = none)
    ∧ TileIs sUnit 0 0 (Hdr.of (hdrW 0 4 8 0 0)) ∧ passed (ownSlot sUnit sUnit.cur 0) = true ∧ (sUnit.ctx sUnit.cur).pending (.tc 0) = false
    ∧ (overlap 0x10000 4096 0x20000 4096 = false ∧ overlap 0x10000 16 0x8000 64 = false
      ∧ ∀ l ∈ [rangePieces 0x10000 64 .r, rangePieces 0x10000 4096 .r ++ rangePieces 0x20000 4096 .w, rangePieces 0x10000 4096 .r,
          rangePieces 0x10000 16 .r ++ rangePieces 0x8000 64 .r, rangePieces 0x10000 4224 .w, rangePieces 0x10000 4224 .r],
        let x := accessR sUnit sUnit.cur l 0 anyClass
        passed x = true ∧ passed (inOrder sUnit sUnit.cur 0 (okVal x [])) = true)
    ∧ (Issues (.xfuAbort 0 0 4) sRunning ∧ (sRunning.xfu 0 0).job = some xjob ∧ (sRunning.xfu 0 0).owner = some sRunning.cur)
    ∧ (Issues (.movp 0 5 4) sTaken ∧ (sTaken.xfu 0 0).owner = some 5 ∧ 5 ≠ sTaken.cur) := by
  refine ⟨issues_list ?_, ?_, ?_, ?_, ?_, ?_, ⟨issues_of ?_, ?_⟩, ⟨issues_of ?_, ?_⟩⟩ <;> first | (unfold TileIs; decide +kernel) | decide +kernel


/-! ### Engines, landings -/

/-- A call of context 0 under way on array 0, at word 512, over 32 K indices. -/
def micro1 : MicroRun :=
  { ctx := 0, acc := 0, mps := [], tiles := [], scaleA := none, scaleB := none, upc := 512, kidx := 0, kcnt := 32, words := 5, faRows := 1,
    fa := [(1, 0x3F80)], fbCols := 1, fb := [(1, 0x4000)], fbGrp := 0, qa := [], qb := [], half := 0, wr := [], stat := [] }
def sMicro : State := { s0 with arrays := [(0, { MArray.initial with current := some (false, .mark 0), micro := some micro1 })] }
/-- The same call after 65,536 words. -/
def sMicroLong : State :=
  { s0 with arrays := [(0, { MArray.initial with current := some (false, .mark 0), micro := some { micro1 with words := 65536 } })] }

theorem witness_MicroOperations :
    (sMicro.array 0).micro = some micro1 ∧ micro1.words < 65536
    ∧ (sMicroLong.array 0).micro = some { micro1 with words := 65536 } ∧ 65536 ≤ ({ micro1 with words := 65536 } : MicroRun).words
    ∧ ((31 : Nat) < 32 ∧ mpRow micro1.mps + micro1.faRows ≤ 31) ∧ ((1 : Nat) < 32 ∧ mpCol micro1.mps + micro1.fbCols ≤ 1) := by
  decide +kernel

def writing (n : Nat) (l : List Nat) : Job := { ctx := 0, op := 0, oc := 0, writes := [(n, 0)], poison := [], frames := l }
def sector1 : Sector := { va := 0x4000, n := 64, place := .dp 0 false 0x4000, coh := none, demoted := none }
def copy1 (k : Nat) (q : Option Nat) : CopyJob := { ctx := 0, oc := 2, stream := q, channel := k, seq := k }
/-- Every engine of core 0, pair 0 and cluster 0 at work. -/
def sEngines : State :=
  { at0 fun c => { c with streams := [(0, { Stream.initial with binding := .copies, pending := [{ src := [sector1, sector1], oc := 2, seq := 1 }] }),
      (1, { Stream.initial with binding := .copies, pending := [{ src := [sector1], oc := 2, seq := 2 }] })] } with
    cores := [(0, { Core.initial with tiles := [(3, { Tile.initial with full := false, valid := false, writers := 1 })], tileQ := [writing 3 []], indexQ := [writing 4 []], assayQ := [writing 5 []], xferQ := [writing 6 [], { writing 6 [] with writes := [] }] })],
    arrays := [(0, { MArray.initial with queueA := [.clear 0 1] })],
    clusters := [(0, { Cluster.initial with copies := [copy1 0 none, copy1 1 (some 0), copy1 2 (some 1)], xfus := [(0, { Xfu.initial with job := some { xjob with slot := some 7 } })] })] }
/-- The array runs a clear of accumulator 1; core B has the window and an operation. -/
def sArrayRuns : State :=
  { s0 with arrays := [(0, { MArray.initial with current := some (false, .clear 0 1), acc := [(1, 5)], accState := [(1, 0)] })] }
def sArrayB : State := { s0 with arrays := [(0, { MArray.initial with queueB := [.clear 4 3], windowB := true })] }

/-- The copy's channel is frozen. -/
def sFrozenChannel : State := { sEngines with clusters := [(0, { sEngines.cluster 0 with frozenChannels := [0] })] }

theorem witness_EngineEvents :
    (sEngines.core 0).tileQ = [writing 3 []] ∧ (sEngines.core 0).indexQ = [writing 4 []] ∧ (sEngines.core 0).assayQ = [writing 5 []]
    ∧ ((sEngines.core 0).xferQ[0]? = some (writing 6 []) ∧ (writing 6 []).writes ≠ [])
    ∧ ((sEngines.core 0).xferQ[1]? = some { writing 6 [] with writes := [] })
    ∧ (sEngines.cluster 0).copies[0]? = some (copy1 0 none) ∧ (copy1 0 none).channel ∉ (sEngines.cluster 0).frozenChannels
    ∧ ((sFrozenChannel.cluster 0).copies[0]? = some (copy1 0 none) ∧ (copy1 0 none).channel ∈ (sFrozenChannel.cluster 0).frozenChannels)
    ∧ (∀ x ∈ ([(0, [sector1, sector1]), (1, [sector1])] : List (Nat × List Sector)),
        ((sEngines.ctx 0).stream' x.1).pending = [{ src := x.2, oc := 2, seq := x.1 + 1 }]
        ∧ ((sEngines.cluster 0).copies.findIdx? fun j => j.ctx == 0 && j.stream == some x.1 && j.seq == x.1 + 1) = some (x.1 + 1)
        ∧ (sEngines.cluster 0).copies[x.1 + 1]? = some (copy1 (x.1 + 1) (some x.1)) ∧ x.1 + 1 ∉ (sEngines.cluster 0).frozenChannels
        ∧ ((sEngines.ctx 0).stream' x.1).arrived.length + sector1.n / 8 ≤ 64)
    ∧ ((sEngines.array 0).current = none ∧ (sEngines.array 0).windowB = false ∧ (sEngines.array 0).queueA = [.clear 0 1])
    ∧ ((sArrayB.array 0).current = none ∧ (sArrayB.array 0).windowB = true ∧ (sArrayB.array 0).queueB = [.clear 4 3])
    ∧ ((sArrayRuns.array 0).current = some (false, .clear 0 1) ∧ (sArrayRuns.array 0).micro = none)
    ∧ (sEngines.xfu 0 0).job = some { xjob with slot := some 7 } := by
  decide +kernel

/-- Context 0 has a result due, a tag due, and an operation in flight on tile 2; 2,000 ms have passed. -/
def sLand : State :=
  { at0 fun c => { c with bundles := 10, tags := [(64, (9, 1))], flights := [{ dest := .s 5, val := 0, mask := 7, due := 10, squash := false, poison := none }] } with cycles := 6000000000 }
def sPreempt : State := at0 fun c => { c with preempt := true }
def sAway : State := at0 fun c => { c with run := .saved }
def sFrameWait : State := at0 fun c => { c with run := .frameWait }
/-- Nothing of the boundary of context 0 comes first. -/
def quietB (s : State) : Bool :=
  (s.ctx 0).boundaryFreeze.isNone && !(s.ctx 0).stalled && !heldByVault s 0 && (s.ctx 0).duePoison.isNone && (s.ctx 0).boundaryPoison.isEmpty
/-- Frame 3 is demoted and compressed in the LPDDR tier of Vault 0. -/
def sDemoted : State := { s0 with frames := [(3, 7 ||| 2 ^ 37)] }
/-- Context 0's bundle address is not 16-byte aligned, or has no entry. -/
def sNoCode : State := at0 fun c => { c with pc := 2 ^ 46 }

theorem witness_LandingEvents :
    ((sLand.ctx 0).pending (.s 6) = false ∧ (3 : Nat) < (sLand.ctx 0).tileCount)
    ∧ ((sLand.ctx 0).run.placed = true ∧ watchdogDue sLand 0 = true ∧ quietB sLand = true)
    ∧ (stallsHere sLand 0 = true ∧ stallsHere sAway 0 = false)
    ∧ ((sLand.array 0).idle = true ∧ (2 : W64).extractLsb' 0 2 ≠ 3 ∧ ∀ k < 4, tget 0 (sLand.array 0).accState k = 0)
    ∧ ((match fetch sNoCode 0 with | .error (.trap _ _) => true | _ => false) = true ∧ (sNoCode.ctx 0).run.placed = true
      ∧ (sNoCode.ctx 0).stream = false ∧ (boundaryEvent 0 sNoCode).isNone = true ∧ heldByVault sNoCode 0 = false ∧ refillReady sNoCode 0 = true
      ∧ held sNoCode 0 = false)
    ∧ (frP (sDemoted.frame 3) = true ∧ frD (sDemoted.frame 3) = true)
    ∧ ((sPreempt.ctx 0).run.placed = true ∧ (sPreempt.ctx 0).preempt = true ∧ (sPreempt.ctx 0).hm = false ∧ (sPreempt.ctx 0).stream = false
      ∧ watchdogDue sPreempt 0 = false ∧ quietB sPreempt = true) ∧ (sAway.ctx 0).run = .saved ∧ (sFrameWait.ctx 0).run = .frameWait := by
  decide +kernel


/-! ### Launches and dispatch -/

/-- A kernel object: core program 0 at 0x1000, with 4 tiles, 4 KiB of scratch and no more. -/
def kobj1 : Kobj := { entries := [(0, 0x1000)], tiles := 4, scratch := 4, stash := 0, csram := 0, bars := 0, xfu := 0, energy := 0, image := none }
def dw (i : Nat) (x : Nat) : BitVec 512 := BitVec.ofNat 512 (x * 2 ^ (64 * i))
/-- KOBJ 0x3000, one group, GLIMIT 4, ARGS 9, SWTB 0x4000, no handle, VF 0, record at 0x8000. -/
def desc1 : BitVec 512 := dw 0 0x3000 + dw 1 (1 + 4 * 2 ^ 32) + dw 2 9 + dw 3 0x4000 + dw 7 0x8000
/-- An all-reduce of f32 sums, 256 bytes a rank, communicator 7. -/
def desc2 : BitVec 512 := dw 1 (256 + 7 * 2 ^ 32) + dw 2 0x10000 + dw 3 0x20000 + dw 7 0x8000
/-- A queue in the host's memory (base bit 0 of CFG's place as R450 has it), enabled, 16 entries, with one descriptor. -/
def queue1 : Queue := { Queue.initial with cfg := 0x204, tail := 1 }
def own0 : Tbl Grant := (List.range 3).map fun f => (f, { Grant.initial with owner := some 0 })
def sQueue (d : BitVec 512) (q : Queue) : State :=
  { s0 with kobjs := [(0x3000, kobj1)], vfs := [(0, { Vf.initial with part := some 0 })], queues := [(0, q)], comms := [(7, [3])],
            regs := { Regs.initial with ready := true, dv := true, dpos := 3 }, grants := own0, request := .launchAccept 0 0 d }
def sAccept : State := sQueue desc1 queue1
/-- A descriptor whose group count is 0 is refused; queue 1 of the VF was written first, so that queue 0 must wait. -/
def sRefuse : State := sQueue (desc1 - dw 1 1) queue1
def sTurn : State := { sAccept with queues := [(0, queue1), (1, queue1)], tails := [(9, 0, 1), (5, 1, 1)] }
def sCollect : State := { sQueue desc2 { queue1 with cfg := 0x304 } with request := .collectiveStart 0 0 desc2 }
/-- A collective of an unknown communicator. -/
def sCollectBad : State := { sCollect with comms := [] }
def coll1 : Collective :=
  { part := 0, op := 0, ty := 0, bytes := 256, comm := 7, src := 0x10000, dst := 0x20000, record := 0x8000, handles := [], hlist := 0, waits := [], done := false }
def rank0 : RankData := { bytes := List.replicate 256 0, poison := [] }
def sReduce : State :=
  { sCollect with collectives := [(4, coll1)], mem := [(0x10000, 5)], request := .collectiveComplete 4 [rank0] [] }
/-- The same with a poisoned sector at SRC, and sector 3 of DST lost with a port. -/
def sReduceBad : State := { sReduce with poison := [0x401], request := .collectiveComplete 4 [rank0] [3] }

def task1 : Launch :=
  { part := 0, vf := 0, kobj := 0x3000, gcount := 1, glimit := 4, args := 9, swtb := 0x4000, hlist := 0, handles := [], waits := [], prio := 0, record := 0x8000,
    taskid := 0, state := .ready, next := 0, exited := 0, status := 0, swtIdx := 0, swtCp := 0, preempts := 0, cyc := 0, energyNJ := 0 }
/-- Launch 2 may place its group on cluster 0, which is empty and partition 0's. -/
def sPlace : State :=
  { State.reset with kobjs := [(0x3000, kobj1)], launches := [(2, task1)], vfs := [(0, { Vf.initial with part := some 0 })], nextGroup := 1,
                     clusters := [(0, { Cluster.initial with part := some 0 })], regs := { Regs.initial with ready := true }, frames := (List.range 16).map fun f => (f, 1), grants := own0,
                     request := .groupPlace 0 2 }
/-- The frames of some bytes are in the partition's reach and plain. -/
def plainB (s : State) (a n : Nat) : Bool :=
  (framesAt a n).all fun f => cpReach s 0 true f && !frC (s.frame f) && !frD (s.frame f)
def sTooLarge : State := { sPlace with kobjs := [(0x3000, { kobj1 with tiles := 33 })] }
def sWaiting : State := { sPlace with launches := [(2, { task1 with state := .waiting })] }
def sDone : State := { sPlace with launches := [(2, { task1 with next := 1, exited := 1 })] }

theorem witness_LaunchEvents :
    (∀ x ∈ ([(sAccept, desc1, none), (sRefuse, desc1 - dw 1 1, some 0x11), (sTurn, desc1, none)] : List (State × BitVec 512 × Option Nat)),
        memWf x.1.mem = true ∧ x.1.request = .launchAccept 0 0 x.2.1 ∧ (x.1.vf 0).part = some 0 ∧ (x.1.queue 0 0).pending = true
        ∧ (x.1.queue 0 0).collective = false ∧ x.1.descriptor 0 (x.1.queue 0 0) x.2.1 = x.2.1 ∧ launchStatus x.1 0 x.2.1 = x.2.2
        ∧ plainB x.1 (descDw x.2.1 7).toNat 32 = true)
    ∧ (nextQueue sAccept 0 = some (queueKey 0 0) ∧ nextQueue sRefuse 0 = some (queueKey 0 0) ∧ nextQueue sTurn 0 ≠ some (queueKey 0 0))
    ∧ (∀ x ∈ ([(sCollect, none), (sCollectBad, some 0x10)] : List (State × Option Nat)),
        x.1.request = .collectiveStart 0 0 desc2 ∧ (x.1.vf 0).part = some 0 ∧ (x.1.queue 0 0).pending = true ∧ (x.1.queue 0 0).collective = true
        ∧ nextQueue x.1 0 = some (queueKey 0 0) ∧ x.1.descriptor 0 (x.1.queue 0 0) desc2 = desc2 ∧ collectiveStatus x.1 0 desc2 = x.2)
    ∧ (memWf sReduce.mem = true ∧ sReduce.request = .collectiveComplete 4 [rank0] [] ∧ tfind sReduce.collectives 4 = some coll1
      ∧ rankOf sReduce coll1.comm.toNat = some 0 ∧ ((tfind sReduce.comms coll1.comm.toNat).getD []).length = 1 ∧ coll1.waits.all (idDone sReduce) = true
      ∧ coll1.done = false ∧ coll1.handles = [] ∧ coll1.inBytes 1 = 256 ∧ rank0.bytes.length = 256
      ∧ plainB sReduce coll1.dst 256 = true ∧ plainB sReduce coll1.record 32 = true)
    ∧ (sReduceBad.request = .collectiveComplete 4 [rank0] [3] ∧ tfind sReduceBad.collectives 4 = some coll1 ∧ rankOf sReduceBad coll1.comm.toNat = some 0
      ∧ coll1.waits.all (idDone sReduceBad) = true ∧ plainB sReduceBad coll1.dst (coll1.outBytes 1) = true ∧ plainB sReduceBad coll1.record 32 = true
      ∧ coll1.dst % 64 = 0 ∧ cpPoison sReduceBad coll1.part coll1.src (coll1.inBytes 1) = [1]
      ∧ ∀ j ∈ [1, 3], coll1.record / 64 ≠ coll1.dst / 64 + j ∧ (coll1.record + 31) / 64 ≠ coll1.dst / 64 + j ∧ 64 * j < coll1.outBytes 1
        ∧ (j ∈ coll1.spoiled 0 [[1]] ∨ j ∈ [3]))
    ∧ (tfind sWaiting.launches 2 = some { task1 with state := .waiting } ∧ task1.waits.all (idDone sWaiting) = true)
    ∧ (memWf sDone.mem = true ∧ tfind sDone.launches 2 = some { task1 with next := 1, exited := 1 } ∧ task1.gcount ≤ 1 ∧ task1.state = .ready
      ∧ task1.handles = [] ∧ plainB sDone task1.record 32 = true)
    ∧ tfind s0.bufHandles (bufKey 0 5) = none := by
  refine ⟨?_, ?_, ?_, ?_, ?_, ?_, ?_, ?_⟩ <;> decide +kernel

/-- Group 1's one context has exited; its group, pre-empted, waits to return; VF 0 has used energy; context 0 waits for frame 7. -/
def sExited : State := { s0 with groups := [(1, { group1 with live := [] })], ctxs := [(0, { ctx0 with run := .exited })] }
def sReturning : State :=
  { s0 with ctxs := [(0, Ctx.initial)], clusters := [(0, { Cluster.initial with part := some 0 })], vfs := [(0, { Vf.initial with part := some 0 })],
            saves := [(8, { ctx := { ctx0 with run := .saved }, home := 0, area := some 0, banks := [], units := [] })] }
def sTreasury : State :=
  { s0 with vfs := [(0, { Vf.initial with part := some 0, share := 65536, meter := 12345678, remainder := 999, balance := 5 })], request := .treasuryClose [(0, 1000000)] }
def sService : State :=
  { at0 fun c => { c with run := .frameWait, trapinfo := 0x70000 } with
    frames := (List.range 7).map fun f => (f, 1), grants := [(7, { Grant.initial with owner := some 0 })],
    request := .frameService 0 (some ((64 * 100) <<< 9)) }
/-- The same context with a handler, which has asked for frame 7. -/
def sAsks : State := { sService with ctxs := [(0, { ctx0 with hm := true, trapcause := 0x08, trapinfo := 0x70000 })] }
/-- Core program 0's table has a reserved bit in its first entry. -/
def sBadTable : State := { sPlace with mem := [(0x4005, 2), (0x401F, 0x80)] }
/-- A cycle of the second quantum. -/
def sQuantum : State := { s0 with cycles := 160000 }

theorem witness_DispatchEvents :
    (sPlace.request = .groupPlace 0 2 ∧ tfind sPlace.launches 2 = some task1 ∧ sPlace.regs.ready = true ∧ task1.hasNext = true
      ∧ (sPlace.kobj task1).tooLarge = false ∧ partClusters sPlace task1.part ≠ [] ∧ launchOpen sPlace 2 task1 = true
      ∧ servedBefore sPlace 0 2 task1 = false ∧ dieFits sPlace 0 2 task1 = some (0, [(0, 0, 0)])
      ∧ refusedTable (cpNote 0 0x4000 8192 (ownSegments task1 [(0, 0, 0)] sPlace)) task1 [(0, 0, 0)] = none)
    ∧ (sBadTable.request = .groupPlace 0 2 ∧ tfind sBadTable.launches 2 = some task1 ∧ launchOpen sBadTable 2 task1 = true
      ∧ servedBefore sBadTable 0 2 task1 = false ∧ dieFits sBadTable 0 2 task1 = some (0, [(0, 0, 0)])
      ∧ refusedTable (cpNote 0 0x4000 8192 (ownSegments task1 [(0, 0, 0)] sBadTable)) task1 [(0, 0, 0)] = some (0, 1, 0))
    ∧ (sTooLarge.request = .groupPlace 0 2 ∧ tfind sTooLarge.launches 2 = some task1 ∧ sTooLarge.regs.ready = true ∧ (sTooLarge.kobj task1).tooLarge = true)
    ∧ (tfind sExited.groups 1 = some { group1 with live := [] } ∧ group1.done = false ∧ ∀ m ∈ group1.members, ctxBusy sExited m.2 = false)
    ∧ (groupTurn sReturning 1 = true ∧ groupReturns sReturning 1 = true ∧ savedOf sReturning 1 ≠ []
      ∧ vfServed sReturning (sReturning.group 1).cluster ((((savedOf sReturning 1).map fun y => y.2.ctx.vf).head?).getD 0) = true)
    ∧ (sTreasury.request = .treasuryClose [(0, 1000000)] ∧ tfind sTreasury.vfs 0 ≠ none)
    ∧ (sQuantum.regs.quanta < sQuantum.cycles.toNat / 150000 ∧ s0.cycles.toNat / 150000 ≤ s0.regs.quanta)
    ∧ (sService.request = .frameService 0 (some ((64 * 100) <<< 9)) ∧ (sService.ctx 0).run = .frameWait
      ∧ installable sService (sService.ctx 0).part ((sService.ctx 0).trapinfo.toNat / 65536) = true
      ∧ (installFrame ((sService.ctx 0).trapinfo.toNat / 65536) ((64 * 100) <<< 9) sService).isSome = true)
    ∧ (handlesFrame (sAsks.ctx 0) = true ∧ sAsks.saves = [] ∧ installable sAsks (sAsks.ctx 0).part ((sAsks.ctx 0).trapinfo.toNat / 65536) = true
      ∧ (installFrame ((sAsks.ctx 0).trapinfo.toNat / 65536) ((64 * 100) <<< 9) sAsks).isSome = true) := by
  refine ⟨?_, ?_, ?_, ?_, ?_, ?_, ?_, ?_, ?_⟩ <;> decide +kernel


/-! ### The Mint, the host, other masters, ports -/

def mint1 : Mint :=
  { launch := 1, members := [0], table := [], rows := [], row := 0, rowsLeft := 1, first := 0, late := 0, hold := false, stopped := false, pool := [], tpp := 16, reqs := [], accept := [],
    drafts := [], occ := 0, act := 0, draft := 0, bucketOcc := 0, bucketD := 0, shrunk := false, evict := false,
    bucketIter := 0, iter := 0, running := true, waiting := false, evicting := false }
def launch0 : Launch := { task1 with part := 0, next := 1 }
def sMintLoad : State :=
  { s0 with launches := [(1, launch0)], clusters := [(0, { Cluster.initial with part := some 0 })], request := .mintSetLoad 0 1 [0] [5, 6] 16 }
/-- Context 0 runs the schedule of die 0's Mint; row 0 is four no-ops; then a set between two iterations, and one held on its row. -/
def sMint : State := { at0 fun c => { c with stream := true } with dies := [(0, { Die.initial with mint := some mint1 })] }
def mintIdle : Mint := { mint1 with running := false, rowsLeft := 0 }
def sMintIdle : State := { sMint with dies := [(0, { Die.initial with mint := some mintIdle })], request := .bucketTableLoad 0 [0x00100020] [0] }
/-- A row whose TT2V waits on tile 4, which is empty; a row whose C word no operation has. -/
def sBlocks : State :=
  { at0 fun c => { c with stream := true } with
    cores := [(0, { Core.initial with tiles := [(4, { Tile.initial with full := false, valid := false })] })],
    dies := [(0, { Die.initial with mint := some { mint1 with rows := [(0, BitVec.ofNat 128 ((encode (.tt2v 0 5 4 0)).toNat * 2 ^ 64))] } })] }
/-- A row whose load waits behind a store. -/
def sStallsRow : State :=
  { at0 fun c => { c with stream := true, sregs := [(2, 0x4000)], memSeq := 2, delayed := [{ seq := 1, oc := 15, act := .store [(.dp 0 false 0x4000, [0])] }] } with
    dies := [(0, { Die.initial with mint := some { mint1 with rows := [(0, BitVec.ofNat 128 ((encode (.ldd 0 0 5 2 0 0)).toNat * 2 ^ 96))] } })] }
/-- The last row has been sent, and the level below is to execute it: the row now blocks there. -/
def sLateBlocks : State :=
  { sBlocks with
    ctxs := [(4, { ctx0 with stream := true })], cores := [(1, { Core.initial with tiles := [(4, { Tile.initial with full := false, valid := false })] })],
    dies := [(0, { Die.initial with mint := some { mint1 with
      rowsLeft := 0, row := 1, late := 1, members := [4], rows := [(0, BitVec.ofNat 128 ((encode (.tt2v 0 5 4 0)).toNat * 2 ^ 64))] } })] }
def sStops : State := { sMint with dies := [(0, { Die.initial with mint := some { mint1 with rows := [(0, 0x7E000000)] } })] }
/-- Die 0's Mint as it stands. -/
def mintOf (s : State) : Mint := ((s.die 0).mint).getD mintIdle
/-- What the next cycle of the tree finds, and leaves. -/
def ready0 (s : State) : State := s.each (mintOf s).members takeRefills
def cycle0 (s : State) : State := rowCycle 0 (mintOf s).cycle (ready0 s)
def sHeld : State := { sMint with dies := [(0, { Die.initial with mint := some { mint1 with hold := true } })] }
/-- Mailbox 5 is number 0 of launch 1, with the task at its sending end. -/
def sMail : State :=
  { s0 with mailboxes := [(5, { part := some 0, launch := some 1, number := 0, bytes := [(16, 1)] })], request := .mailboxSeqWrite 0 0 77 }

theorem streamOf_one {s : State} {k core g : Nat}
    (h : (([0, 1, 2, 3].map fun i => 4 * core + i).filter fun g => (s.ctx g).launch == k && (s.ctx g).run.placed) = [g]) : streamOf s k core = some g := by
  simp only [streamOf, h, List.length_singleton, Nat.mod_one, List.getElem?_cons_zero]

theorem witness_MintEvents :
    ((sMintLoad.request = .mintSetLoad 0 1 [0] [5, 6] 16 ∧ tfind sMintLoad.launches 1 = some launch0 ∧ (sMintLoad.die 0).mint = none
        ∧ (sMintLoad.die 0).mintClosed = false)
      ∧ ∀ c ∈ [0], c / 64 = 0 ∧ (sMintLoad.cluster (c / 8)).part = some launch0.part ∧ ∃ g, streamOf sMintLoad 1 c = some g)
    ∧ (sMintIdle.request = .bucketTableLoad 0 [0x00100020] [0] ∧ (sMintIdle.die 0).mint = some mintIdle ∧ mintIdle.running = false
      ∧ bucketBad 0x00100020 = false)
    ∧ ((sMintIdle.die 0).mint = some mintIdle ∧ mintIdle.stopped = false ∧ mintIdle.busy = false
      ∧ ∀ g ∈ mintIdle.members, (sMintIdle.ctx g).preempt = false ∧ (sMintIdle.ctx g).stream = true ∧ (sMintIdle.ctx g).run.placed = true
        ∧ refillReady sMintIdle g = true)
    ∧ ((∀ s ∈ [sMint, sBlocks, sStops, sStallsRow], (s.die 0).mint = some (mintOf s) ∧ (mintOf s).stopped = false ∧ (mintOf s).busy = true ∧ (mintOf s).hold = false
          ∧ mintReady s (mintOf s) = true ∧ (mintOf s).rowsLeft ≠ 0 ∧ (mintOf s).cycle ≠ [])
      ∧ (setBlocks 0 mint1 (ready0 sMint) = false ∧ (setStalls mint1.cycle (ready0 sMint)).isNone = true ∧ mintStopped (cycle0 sMint) 0 = false
        ∧ ∀ x ∈ mint1.cycle, rowCommitted x.1 (ready0 sMint) (cycle0 sMint) = true)
      ∧ (setBlocks 0 (mintOf sBlocks) (ready0 sBlocks) = true ∧ wayBlocks (mintOf sBlocks) (ready0 sBlocks) = false
        ∧ mintStopped (caughtUp 0 (mintOf sBlocks) (ready0 sBlocks)) 0 = false)
      ∧ ((sLateBlocks.die 0).mint = some (mintOf sLateBlocks) ∧ (mintOf sLateBlocks).stopped = false ∧ (mintOf sLateBlocks).busy = true
        ∧ (mintOf sLateBlocks).hold = false ∧ mintReady sLateBlocks (mintOf sLateBlocks) = true ∧ (mintOf sLateBlocks).rowsLeft = 0
        ∧ setBlocks 0 (mintOf sLateBlocks) (ready0 sLateBlocks) = true)
      ∧ (setBlocks 0 (mintOf sStallsRow) (ready0 sStallsRow) = false ∧ (setStalls (mintOf sStallsRow).cycle (ready0 sStallsRow)).isSome = true)
      ∧ (setBlocks 0 (mintOf sStops) (ready0 sStops) = false ∧ (setStalls (mintOf sStops).cycle (ready0 sStops)).isNone = true
        ∧ mintStopped (cycle0 sStops) 0 = true))
    ∧ ((sHeld.die 0).mint = some { mint1 with hold := true } ∧ setBlocks 0 { mint1 with hold := true } sHeld = false)
    ∧ (sMail.request = .mailboxSeqWrite 0 0 77 ∧ (sMail.ctx 0).run.placed = true ∧ mintReadOk sMail 0 (0x4000 + 0x400 * 0) = true
      ∧ mintStoreOk sMail 0 (0x4000 + 0x400 * 0) 8 0 = true)
    ∧ ((s0.mailbox 5).launch = none ∧ (sMintLoad.cluster 0).image = none ∧ sMintLoad.regs.mini = false ∧ tfind sMintLoad.launches 1 = some launch0
      ∧ (sMintLoad.cluster 0).part = some launch0.part) := by
  refine ⟨⟨by decide +kernel, ?_⟩, by decide +kernel, by decide +kernel, ⟨by decide +kernel, by decide +kernel, by decide +kernel, by decide +kernel, by decide +kernel⟩, by decide +kernel,
    by decide +kernel, by decide +kernel⟩
  intro c hc
  obtain rfl : c = 0 := by simpa using hc
  exact ⟨by decide, by decide +kernel, 0, streamOf_one (by decide +kernel)⟩

def acc8 (a : Nat) : Access := { kind := .read, addr := a, size := 8, data := 0, poison := false }
/-- Frame 1 belongs to partition 3, which VF 2 and hart 4 serve; frames 16 and 17 are its memory to give out. -/
def sHost (r : Request) : State :=
  { s0 with vfs := [(2, { Vf.initial with part := some 3 })], grants := [(1, { Grant.initial with owner := some 3 })], harts := [(4, { Hart.initial with part := some 3 })],
            queues := [(queueKey 2 1, { queue1 with cfg := 0x204, tail := 3 })], mem := [(0x10008, 0x5A)],
            regs := { Regs.initial with ready := true, exportBase := 0x10000, exportLen := 0x10000, exportPart := some 3 }, request := r }
/-- The same module in minimal mode. -/
def sMini : State := { sHost .none with regs := { Regs.initial with mini := true } }
def sFrozenHart : State := { sHost (.generalCoreAccess 4 (acc8 0x10008)) with harts := [(4, { Hart.initial with part := some 3, frozen := some 5 })] }
def sRetrain (r : Request) : State := { sHost r with ports := [(6, { Port.initial with state := 1 })] }
def sShare : State := { sHost (.shareWrite 2 0x8000) with vfs := [(1, { Vf.initial with share := 0x8000 }), (2, { Vf.initial with part := some 3 })] }

theorem witness_HostAndPortEvents :
    (((sHost (.qtailWrite 2 1 16)).queue 2 1).err = false ∧ ((16 : W32) - 3).toNat + ((3 : W32) - 0).toNat ≤ 2 ^ ((sHost (.qtailWrite 2 1 16)).queue 2 1).log
      ∧ 2 ^ ((sHost (.qtailWrite 2 1 17)).queue 2 1).log < ((17 : W32) - 3).toNat + ((3 : W32) - 0).toNat
      ∧ ((sHost (.qtailWrite 2 1 17)).queue 2 1).tail = 3 ∧ ((sHost (.qtailWrite 2 1 17)).queue 2 1).head = 0)
    ∧ (sHost (.qcfgWrite 2 1 0x204)).request = .qcfgWrite 2 1 0x204
    ∧ sShare.vfs.foldl (fun n e => if e.1 = 2 then n else n + e.2.share) 0 + ((0x8000 : W64).extractLsb' 0 16).toNat ≤ 65536
    ∧ (1000 ≤ ((1000 : W64).extractLsb' 0 13).toNat ∧ ((6400 : W64).extractLsb' 0 13).toNat ≤ 6400)
    ∧ ((4 : Nat) ≠ 8 ∧ (48 < 512 ∧ 48 % 32 = 16) ∧ (40 < 512 ∧ 40 % 32 = 8))
    ∧ ((∀ f ∈ accFrames (acc8 0x10008) 0x10008, hostAdmits (sHost .none) (some 2) false f = true) ∧ (∀ p ∈ pieces 0x10008 8, probe (sHost .none) p.1 = .ok none)
      ∧ poisonIn (sHost .none) 0x10008 8 = none ∧ ∃ f ∈ accFrames (acc8 0x20000) 0x20000, hostAdmits (sHost .none) (some 2) (accWrites (acc8 0x20000)) f = false)
    ∧ ((sHost .none).regs.mini = false ∧ sMini.regs.mini = true)
    ∧ ((sHost .none).refusedNodes = [] ∧ (sHost .none).regs.exportPart = some 3 ∧ 8 + 8 ≤ (sHost .none).regs.exportLen
      ∧ (∀ f ∈ accFrames (acc8 8) (0x10000 + 8), ((sHost .none).grant f).owner = some 3) ∧ (∀ p ∈ pieces (0x10000 + 8) 8, probe (sHost .none) p.1 = .ok none)
      ∧ poisonIn (sHost .none) (0x10000 + 8) 8 = none)
    ∧ ((sFrozenHart.hart 4).frozen ≠ none ∧ ((sHost .none).hart 4).frozen = none ∧ ((sHost .none).hart 4).part = some 3 ∧ (0x10008 + 8 : Nat) ≤ 2 ^ 48
      ∧ ∀ f ∈ accFrames (acc8 0x10008) 0x10008, hartAdmits (sHost .none) 3 false f = true)
    ∧ ((65536 / 65536 : Nat) ≤ ((sHost .none).grants.filter fun g => decide (65536 / 65536 ≤ g.1 ∧ g.1 < 65536 / 65536 + 65536 / 65536) && g.2.owner == some 3).length
      ∧ 65536 + 65536 ≤ (sHost .none).dpBytes)
    ∧ (((sHost .none).port 6).state = 0 ∧ ((sHost .none).port 6).expect = 0 ∧ ((sRetrain .none).port 6).state = 1) := by
  decide +kernel


/-! ### Vaults, management, boot -/

/-- Partition 3 owns frames 1 (uncompressed), 2 (compressed in the LPDDR tier of Vault 0) and 32 to 63 (a small page's worth). -/
def own3 : Grant := { Grant.initial with owner := some 3 }
def vault1 : Vault := { Vault.initial with ratio := [(2, 32)], frameOwner := [(2, 3)] }
def sVault (r : Request) : State :=
  { s0 with frames := [(1, 1), (2, 3 ||| 2 ^ 37)] ++ (List.range 32).map fun f => (32 + f, 1),
            grants := [(1, own3), (2, own3)] ++ (List.range 32).map fun f => (32 + f, own3), vaults := [(0, vault1)], mem := [(0x20005, 9), (0x30000, 7)], request := r }
def sVaultWith (v : Vault) (r : Request) : State := { sVault r with vaults := [(0, v)] }
/-- The Vault holds a write; wants chunks with frame 2 donated; builds a 2 MiB page, of frames at machine frame `k`, or of frames that
are no longer all there. -/
def held1 (l : Nat) : HeldWrite := { src := none, line := l, off := 0, data := List.replicate 512 0, since := 0 }
def sHolds : State := sVaultWith { vault1 with held := [held1 300] } .none
def sHoldsGone : State := sVaultWith { vault1 with held := [held1 400] } .none
def sWants : State := sVaultWith { vault1 with fresh := [], step := 1, donated := [2] } .none
def sBuilds (k : Nat) : State :=
  { sVaultWith { vault1 with building := [(32, 1)] } (.promotionBuildComplete 0) with
    frames := (List.range 32).map fun f => (32 + f, BitVec.ofNat 64 (1 + 64 * k * 2 ^ 9)) }
def sGone : State := { sBuilds 0 with frames := [(32, 1)] }
/-- Frame 2's lines with metadata of class 15. -/
def sBadLine : State := sVaultWith { vault1 with lineMeta := [(256, 0xF)] } (.vaultLineWrite 256 0 [1])
/-- The engine at each of its steps. -/
def sStep (k : Nat) (d : List Nat) (r : Tbl Nat) : State := sVaultWith { vault1 with fresh := [], step := k, donated := d, ratio := r, demotionTarget := true } .none
def sTarget : State := sVaultWith { vault1 with demotionTarget := true } (.demote 3 2 1)

theorem writeLine_same {v : Vault} {line p : Nat} {bs : List Byte} (h : lineSize (lineClasses bs) = wordSize (tget 0 v.lineMeta line)) :
    ∃ w, v.writeLine line p bs = .done w := by
  simp only [Vault.writeLine, h, if_true]
  exact ⟨_, rfl⟩

/-- A page of frames in the HBM4E tier is built where none of the Vault's frames lies. -/
theorem buildPage_isSome {v f size u : Nat} {s : State} (hf : frTier (s.frame f) = false)
    (hu : ∀ e ∈ s.frames, frUnit e.2 < u ∨ u + pageFrames size ≤ frUnit e.2) (hl : ∀ x ∈ frameRange f (pageFrames size), frTier (s.frame x) = false)
    (hq : (s.vault v).quotas ≤ (s.vault v).vcap - (s.vault v).target) : (buildPage v f size u s).isSome = true := by
  have ht : (s.frames.any fun e => frP e.2 && !frC e.2 && frVault e.2 == v && frTier e.2 == false
      && decide (u ≤ frUnit e.2 ∧ frUnit e.2 < u + pageFrames size)) = false := by
    simp only [List.any_eq_false, Bool.and_eq_true, decide_eq_true_eq]
    rintro e he ⟨-, h1, h2⟩
    have := hu e he
    omega
  have hfold (l : List Nat) : (∀ x ∈ l, frTier (s.frame x) = false) → ∀ t : State, l.foldl (fun t x => leaveRaw (s.frame x) t) t = t := by
    induction l with
    | nil => exact fun _ _ => rfl
    | cons x l ih =>
      intro h t
      simp only [List.foldl_cons, leaveRaw, h x (List.mem_cons_self ..), Bool.false_eq_true, if_false]
      exact ih (fun y hy => h y (List.mem_cons_of_mem _ hy)) t
  have hw : ∀ w : Vault, ((({ s with frames := s.frames.map fun e => if f ≤ e.1 ∧ e.1 < f + pageFrames size then
      (e.1, builtEntry e.2 (s.frame f) u size (e.1 - f)) else e } : State).modVault v fun _ => w).vault v) = w := fun w => by
    simp [State.modVault, State.vault]
  simp only [buildPage, hf, ht, Bool.false_eq_true, if_false, hfold _ hl, hw]
  rw [if_neg]
  · rfl
  · exact Nat.not_lt.mpr hq

/-- The engine's choice of place is open; one of two states leaves it free. -/
theorem builds_somewhere : ∃ k, ∃ u, buildPage 0 32 1 (builtBase ((sBuilds k).vault 0) (frTier ((sBuilds k).frame 32)) (Config.promoteBase (sBuilds k).tick)
    (pageFrames 1)) (sBuilds k) = some u := by
  have h : ∀ k ∈ [0, 64], frTier ((sBuilds k).frame 32) = false ∧ (∀ e ∈ (sBuilds k).frames, frUnit e.2 = k)
      ∧ (∀ x ∈ frameRange 32 (pageFrames 1), frTier ((sBuilds k).frame x) = false)
      ∧ ((sBuilds k).vault 0).quotas ≤ ((sBuilds k).vault 0).vcap - ((sBuilds k).vault 0).target := by decide +kernel
  have hb (w : Vault) : builtBase w false (Config.promoteBase (sBuilds 0).tick) (pageFrames 1) % 32 = 0 := by
    simp [builtBase, pageFrames, Nat.mul_mod_left]
  have key (k : Nat) (hk : k ∈ [0, 64]) (hu : k < builtBase ((sBuilds k).vault 0) false (Config.promoteBase (sBuilds 0).tick) (pageFrames 1)
      ∨ builtBase ((sBuilds k).vault 0) false (Config.promoteBase (sBuilds 0).tick) (pageFrames 1) + 32 ≤ k) : ∃ u, buildPage 0 32 1
      (builtBase ((sBuilds k).vault 0) (frTier ((sBuilds k).frame 32)) (Config.promoteBase (sBuilds k).tick) (pageFrames 1)) (sBuilds k) = some u := by
    obtain ⟨h1, h2, h3, h4⟩ := h k hk
    refine Option.isSome_iff_exists.mp (buildPage_isSome h1 (fun e he => ?_) h3 h4)
    rw [h2 e he, h1]
    exact hu
  have same : builtBase ((sBuilds 64).vault 0) false (Config.promoteBase (sBuilds 0).tick) (pageFrames 1)
      = builtBase ((sBuilds 0).vault 0) false (Config.promoteBase (sBuilds 0).tick) (pageFrames 1) := rfl
  have h32 := hb ((sBuilds 0).vault 0)
  by_cases h0 : builtBase ((sBuilds 0).vault 0) false (Config.promoteBase (sBuilds 0).tick) (pageFrames 1) = 0
  · exact ⟨64, key 64 (by decide) (.inr (by rw [same, h0]; decide))⟩
  · exact ⟨0, key 0 (by decide) (.inl (by omega))⟩

theorem witness_VaultEvents :
    (memWf (sVault .none).mem = true ∧ 510 + 2 ≤ 512 ∧ 512 * (384 + 1) ≤ (sVault .none).dpBytes ∧ (sVault .none).regs.mini = false
      ∧ frD ((sVault .none).frame (384 / 128)) = false ∧ (sVault .none).lineHome 384 = none)
    ∧ ((sVault .none).lineHome 256 = some (0, 3) ∧ ((sVault .none).vault 0).badLine 256 = false ∧ frD ((sVault .none).frame 2) = false)
    ∧ (sBadLine.request = .vaultLineWrite 256 0 [1] ∧ sBadLine.lineHome 256 = some (0, 3) ∧ (sBadLine.vault 0).badLine 256 = true)
    ∧ ((sHolds.vault 0).held = [held1 300] ∧ frP (sHolds.frame (300 / 128)) = true ∧ frC (sHolds.frame (300 / 128)) = true
      ∧ frD (sHolds.frame (300 / 128)) = false ∧ (sHoldsGone.vault 0).held = [held1 400] ∧ frP (sHoldsGone.frame (400 / 128)) = false
      ∧ ∃ w, (sHolds.vault 0).writeLine 300 ((sHolds.vault 0).ownerOf (300 / 128)) (readBytes sHolds.mem (512 * 300) 512) = .done w)
    ∧ ((sWants.vault 0).wants = true ∧ (sWants.vault 0).exhausted = false ∧ donation sWants 0 = some 2)
    ∧ ((((sVault .none).vault 0).wants = false)
      ∧ (let v := (sVaultWith { vault1 with fresh := [], exhausted := true } .none).vault 0; v.wants = true ∧ v.exhausted = true ∧ v.held = [])
      ∧ (∀ x ∈ ([(sStep 0 [] [], 0), (sStep 1 [2] [], 1), (sStep 1 [] [], 1), (sStep 2 [] [], 2), (sStep 3 [] [(2, 32)], 3), (sStep 3 [] [], 3)]
          : List (State × Nat)), (x.1.vault 0).wants = true ∧ (x.1.vault 0).exhausted = false ∧ (x.1.vault 0).step = x.2
            ∧ (x.1.vault 0).demotionTarget = true)
      ∧ donation (sStep 1 [2] []) 0 = some 2 ∧ donation (sStep 1 [] []) 0 = none ∧ demotionVictim (sStep 3 [] [(2, 32)]) 0 = some 2
      ∧ frVault ((sStep 3 [] [(2, 32)]).frame 2) = 0 ∧ demotionVictim (sStep 3 [] []) 0 = none)
    ∧ (ownsLc (sVault .none) 3 2 1 = true ∧ frVault ((sVault .none).frame 2) = 0
      ∧ ({ vault1 with ratio := tset vault1.ratio 2 16 } : Vault).quotas ≤ vault1.vcap - vault1.target)
    ∧ ownsAll (sVault .none) 3 2 1 = true
    ∧ (ownsLc sTarget 3 2 1 = true ∧ frD (sTarget.frame 2) = false ∧ pinned sTarget 2 = false ∧ (sTarget.vault (frVault (sTarget.frame 2))).demotionTarget = true)
    ∧ (ownsAll (sVault .none) 3 1 1 = true ∧ frSize ((sVault .none).frame 1) ≠ 3)
    ∧ (buildable (sVault .none) 3 32 1 = true ∧ (32, 1) ∉ ((sVault .none).vault (frVault ((sVault .none).frame 32))).building)
    ∧ (∀ k ∈ [0, 64], ((sBuilds k).vault 0).building = [(32, 1)] ∧ ((sBuilds k).grant 32).owner = some 3 ∧ buildable (sBuilds k) 3 32 1 = true
      ∧ frVault ((sBuilds k).frame 32) = 0 ∧ ∀ x < 64, 32 ≤ x → pinned (sBuilds k) x = false)
    ∧ ((sGone.vault 0).building = [(32, 1)] ∧ buildable sGone 3 32 1 = false ∧ ∀ p, (sGone.grant 32).owner = some p → p = 3) := by
  refine ⟨by decide +kernel, by decide +kernel, by decide +kernel, ⟨by decide +kernel, by decide +kernel, by decide +kernel, by decide +kernel,
      by decide +kernel, by decide +kernel, writeLine_same (by decide +kernel)⟩, by decide +kernel, by decide +kernel,
    by decide +kernel, by decide +kernel, by decide +kernel, by decide +kernel, by decide +kernel, by decide +kernel, by decide +kernel, by decide +kernel, ?_⟩
  intro p h
  rw [show (sGone.grant 32).owner = some 3 from by decide +kernel] at h
  exact (Option.some.inj h).symm

/-- Segment `grad` of the worked example in frame 2, with its two runs at chunks 4 and 8 of Vault 0 (R470). -/
def sGrad : State :=
  { sVaultWith { vault1 with lineMeta := [(256, 0x400000004), (257, 0x800000054)] } .none with
    mem := [(0x20002, 0x80), (0x20003, 0x4B), (0x2000A, 0x40), (0x2000B, 0x3F), (0x20202, 0x60), (0x20203, 0x40), (0x20242, 0x40), (0x20243, 0xC0)] }

theorem test_gradient_runs :
    lineSize (lineClasses (readBytes sGrad.mem 0x20000 512)) = 1 ∧ lineSize (lineClasses (readBytes sGrad.mem 0x20200 512)) = 2
    ∧ sGrad.chunk 0 4 = [0, 0, 0x80, 0x4B, 0, 0, 0, 0, 0, 0, 0, 0, 0, 0, 0xC0, 0xF3] ++ (List.replicate 6 [0, 0, 0x80, 0xB4]).flatten ++ List.replicate 24 0
    ∧ sGrad.chunk 0 8 = [0, 0, 0x60, 0x40, 0, 0, 0, 0, 0, 0, 0, 0] ++ (List.replicate 7 [0, 0, 0xA0, 0xBF]).flatten
        ++ [0, 0, 0x40, 0xC0, 0, 0, 0, 0] ++ List.replicate 16 0
    ∧ sGrad.chunk 0 9 = List.replicate 64 0 := by
  decide +kernel

/-- A sector's address past a base below an offset is exact (R7): base 64, offset -256, lanes 48 to 63. -/
theorem test_vector_address : vecAddr 64 (-256) 3 = 0 := by decide +kernel

/-- A verified image with the highest security version. -/
def good : FwImage := { digest := 5, version := 9, svn := 0xFFFF, fetched := true, rsaOk := true, slhOk := true, keyRevoked := false }
def bad : FwImage := { good with rsaOk := false }

theorem imageReason_good (i : Nat) : imageReason i good = none := by
  have h : ¬ (0xFFFF#16 < Config.minSvn i) := by bv_omega
  simp [imageReason, good, h]
theorem imageReason_bad (i : Nat) : imageReason i bad = some 2 := rfl

def grant1 : GrantReq :=
  { part := 3, frame := 20, count := 1, shared := none, hostOpen := false, coh := 0, owner := some 0, compressed := false, r16 := none, mloc := some 64, zero := false }
def sManage (r : Request) : State :=
  { s0 with parts := [(3, { Part.initial with present := true })], grants := [(9, own3), (10, own3)], frames := [(9, 1), (10, 1)],
            vfs := [(2, { Vf.initial with part := some 3 })], clusters := [(0, { Cluster.initial with part := some 0 }), (4, { Cluster.initial with part := some 3, closed := true })],
            dies := [(0, { Die.initial with mint := some mintIdle })], regs := { Regs.initial with ready := true, fwver := [(2, 9), (3, 9)], spdmSession := true }, request := r }
/-- A cluster on its way to a spare, and one that has none left. -/
def sSwap (r : Request) : State := { sManage r with regs := { (sManage r).regs with swapping := some 4 } }
def sReopened : State := { sSwap .none with clusters := [(4, { Cluster.initial with part := some 3 })] }
def sNoSpare : State := { sSwap .none with regs := { (sSwap .none).regs with clmap := [(0, 0)] } }
/-- Context 0, of partition 3, is frozen. -/
def sInspect : State := { sManage (.inspection 0 0x90000) with ctxs := [(0, { ctx0 with run := .frozen 5, part := 3, sregs := [(4, 77)] })] }

theorem witness_ManagementEvents :
    (grantOk (sManage .none) grant1 = true ∧ grant1.mloc = some 64 ∧ (64 : Nat) % 64 = 0 ∧ mlocInService (sManage .none) 64 = true ∧ retiredIn (sManage .none) 64 = false ∧ (64 : Nat) / 2 ^ 28 % 2 = 0
      ∧ grant1.count = 1 ∧ ∀ x ∈ (sManage .none).frames, frP x.2 = true → frC x.2 = false → (x.2.extractLsb' 9 33).toNat ≠ 64)
    ∧ ((sManage .none).regs.spdmSession = true ∧ s0.regs.spdmSession = false)
    ∧ (pinned (sManage .none) 9 = false ∧ mapped { sManage .none with ctxs := [] } 9 = false ∧ ownsAll { sManage .none with ctxs := [] } 3 9 1 = true
      ∧ ((sManage .none).frames.map (·.1)).Nodup ∧ ((sManage .none).grants.map (·.1)).Nodup)
    ∧ ((∀ c ∈ [4, 5], c < 512 ∧ (((sManage .none).cluster c).part = none ∧ clusterEmpty (sManage .none) c = true ∧ (sManage .none).regs.swapping ≠ some c ∨ ((sManage .none).cluster c).part = some 3))
      ∧ (∀ c ∈ (sManage .none).clusters, c.2.part = some 3 → c.1 ∈ [4, 5]) ∧ (∀ v ∈ [2, 7], v < 1024 ∧ (((sManage .none).vf v).part = none ∨ ((sManage .none).vf v).part = some 3))
      ∧ ∀ h ∈ [31], h < 32 ∧ (((sManage .none).hart h).part = none ∨ ((sManage .none).hart h).part = some 3))
    ∧ (((sManage .none).cluster 4).closed = true ∧ clusterEmpty (sManage .none) 4 = true ∧ (sManage .none).regs.swapping = none
      ∧ (sManage .none).regs.mini = false ∧ spareOf ((sSwap .none).clmapOf (4 / 8)) = some 8 ∧ (sSwap .none).regs.swapping = some 4
      ∧ ((sSwap .none).cluster 4).closed = true ∧ clusterEmpty (sSwap .none) 4 = true ∧ (sNoSpare.cluster 4).closed = true
      ∧ clusterEmpty sNoSpare 4 = true ∧ (sReopened.cluster 4).closed = false ∧ sReopened.regs.swapping = some 4
      ∧ sNoSpare.regs.swapping = some 4 ∧ spareOf (sNoSpare.clmapOf (4 / 8)) = none ∧ (sNoSpare.cluster 4).part = some 3)
    ∧ (tget 0 (sManage .none).regs.fwver 2 = good.version ∧ tget 0 (sManage .none).regs.fwver 3 = good.version)
    ∧ (((sManage .none).die 0).mint = some mintIdle ∧ mintIdle.busy = false)
    ∧ ((sInspect.ctx 0).run.isFrozen = true ∧ 0x90000 % 4096 = 0 ∧ 0x90000 + 65536 ≤ sInspect.dpBytes
      ∧ ownsAll sInspect (sInspect.ctx 0).part (0x90000 / 65536) ((0x90000 + 65535) / 65536 + 1 - 0x90000 / 65536) = true ∧ memWf sInspect.mem = true
      ∧ (∀ f ∈ framesAt 0x90000 65536, cpReach sInspect (sInspect.ctx 0).part true f = true ∧ frC (sInspect.frame f) = false ∧ frD (sInspect.frame f) = false)
      ∧ (sInspect.ctx 0).snapshot.length ≤ 48 ∧ (sInspect.ctx 0).flights.length ≤ 48) := by
  refine ⟨?_, ?_, ?_, ?_, ?_, ?_, ?_, ?_⟩ <;> decide +kernel

/-- A reset with no failed start, and one after three; boot has started. -/
def parts1 : Parts := { florinok := 1, memhbm := 1, memlp := 15 }
def sReset (l : List FwImage) : State := { s0 with request := .moduleReset parts1 l }
def sFailed : State := { s0 with regs := { Regs.initial with fails := 3 }, request := .moduleReset parts1 [] }
def sStarting : State := { s0 with regs := { Regs.initial with starting := true, stage := 3 } }

theorem witness_BootAndErrorEvents :
    ((sReset [bad]).request = .moduleReset parts1 (bad :: []) ∧ (sReset [bad]).regs.fails < 3 ∧ imageReason 0 bad = some 2)
    ∧ ((List.replicate 5 good).length = 5 ∧ ∀ i < 5, ∃ f, (List.replicate 5 good)[i]? = some f ∧ imageReason i f = none)
    ∧ ((sReset []).request = .moduleReset parts1 [] ∧ (sReset []).regs.fails < 3) ∧ s0.regs.mini = false
    ∧ (sFailed.request = .moduleReset parts1 [] ∧ sFailed.regs.fails = 3 ∧ sFailed.regs.updated = false)
    ∧ sStarting.regs.starting = true ∧ s0.lineHome (5 / 8) = none ∧ ((true && false) = false) := by
  refine ⟨⟨rfl, by decide, imageReason_bad 0⟩, ⟨rfl, fun i hi => ⟨good, ?_, imageReason_good i⟩⟩, by decide, by decide, by decide, by decide, by decide,
    by decide⟩
  rw [List.getElem?_replicate]; simp [hi]

/-! ### Frames and invariants -/

/-- A register form whose exec is a next state; loads and tile writers that issue; a step from a canonical memory. -/
theorem witness_frames :
    registerForm (.add 0 0 3 4 5 0) = true ∧ (match exec (.add 0 0 3 4 5 0) s0 with | .next _ => true | _ => false) = true
    ∧ ((∀ i ∈ [Instr.ldd 0 0 5 3 15 0, .vld 0 0 5 3 15 0, .tzero 0 0 0, .csamp 0 0 5],
        (issueAlone i (withS [(3, 0x100)])).isOk = true ∧ (match exec i (withS [(3, 0x100)]) with | .next _ => true | _ => false) = true))
    ∧ memWf s0.mem = true ∧ (match step s0 with | .next _ => true | _ => false) = true := by
  decide +kernel


/-! ### Decoding: a word of every slot operation, composed from the fields of its row in spec/opcode_table.json (R86 to R99) -/

def words0 : List (W32 × Instr) :=
  [(0x80000000, .nop 1), (0x81B79949, .add 1 5 47 12 41 1), (0x82B79949, .sub 1 5 47 12 41 1), (0x83B79948, .and 1 5 47 12 41),
   (0x84B79948, .or 1 5 47 12 41), (0x85B79948, .xor 1 5 47 12 41), (0x86B79948, .andn 1 5 47 12 41), (0x87B79949, .shl 1 5 47 12 41 1),
   (0x88B79949, .shr 1 5 47 12 41 1), (0x89B79949, .sar 1 5 47 12 41 1), (0x8AB79949, .rot 1 5 47 12 41 1), (0x8BB79949, .mul 1 5 47 12 41 1),
   (0x8CB79949, .div 1 5 47 12 41 1), (0x8DB79949, .min 1 5 47 12 41 1), (0x8EB79949, .max 1 5 47 12 41 1), (0x8FB79801, .bitc 1 5 47 12 1),
   (0x90B79929, .addi 1 5 47 12 297), (0x91B79929, .andi 1 5 47 12 297), (0x92B79929, .ori 1 5 47 12 297), (0x93B79929, .xori 1 5 47 12 297),
   (0x94B79829, .shli 1 5 47 12 41), (0x95B79829, .shri 1 5 47 12 41), (0x96B79829, .sari 1 5 47 12 41), (0x97B79929, .muli 1 5 47 12 297),
   (0x98B7848C, .li 1 5 47 1164)]
def words1 : List (W32 × Instr) :=
  [(0x99B7848C, .lis 1 5 47 1164), (0x9AB7848C, .addpc 1 5 47 1164), (0xA0BBCCA6, .cmp 1 5 111 12 41 2), (0xA1BBCCA6, .cmpu 1 5 111 12 41 2),
   (0xA2BBCCA6, .cmpi 1 5 111 12 41 2), (0xA3BBCC00, .pfrom 1 5 111 12), (0xB0A003EF, .br 1 5 1007), (0xB1A003EF, .call 1 5 1007),
   (0xB2BC0000, .brb 1 5 7), (0xB3A00000, .ret 1 5), (0xB4BC048C, .lbt 1 5 7 1164), (0xB5A00E61, .movb 1 5 7 12 1), (0xB6B7848C, .loop 1 5 47 1164),
   (0xC0A02A60, .csrd 1 5 21 12), (0xC1A02A60, .cswr 1 5 21 12), (0xC2A00260, .mpset 1 5 1 12), (0xC3A01E60, .tcset 1 5 15 12),
   (0xC4A01E60, .tcget 1 5 15 12), (0xC5A00000, .yield 1 5), (0xC6A00000, .exit 1 5), (0xC7A003EF, .trap 1 5 1007), (0xC8A003EF, .sysc 1 5 1007),
   (0xC9A003EF, .brk 1 5 1007), (0xCAB79800, .grow 1 5 47 12), (0xCBA01E00, .bar 1 5 15)]
def words2 : List (W32 × Instr) :=
  [(0xCBA01E01, .barW 1 5 15), (0xCBA01E02, .barAw 1 5 15), (0xCCA00000, .rfe 1 5), (0xCDA00260, .savec 1 5 1 12), (0xCEA00260, .loadc 1 5 1 12),
   (0xFFE7C298, .hdrT 1 6 15 4 1 2 3), (0x03AF6241, .vadd 1 5 15 12 9 1), (0x05AF6241, .vsub 1 5 15 12 9 1), (0x07AF6241, .vmul 1 5 15 12 9 1),
   (0x09AF6241, .vmin 1 5 15 12 9 1), (0x0BAF6241, .vmax 1 5 15 12 9 1), (0x0DAF6240, .vand 1 5 15 12 9), (0x0FAF6240, .vor 1 5 15 12 9),
   (0x11AF6240, .vxor 1 5 15 12 9), (0x13AF6240, .vshl 1 5 15 12 9), (0x15AF6240, .vshr 1 5 15 12 9), (0x17AF6240, .vsar 1 5 15 12 9),
   (0x19AF6521, .vadds 1 5 15 12 41 1), (0x1BAF6521, .vmuls 1 5 15 12 41 1), (0x1DAF048C, .vli 1 5 15 1164), (0x21AF6240, .vfadd 1 5 15 12 9),
   (0x23AF6240, .vfsub 1 5 15 12 9), (0x25AF6240, .vfmul 1 5 15 12 9), (0x27AF624D, .vfma 1 5 15 12 9 6 1), (0x29AF6241, .vfmin 1 5 15 12 9 1)]
def words3 : List (W32 × Instr) :=
  [(0x2BAF6241, .vfmax 1 5 15 12 9 1), (0x2DAF6000, .vfrcp 1 5 15 12), (0x2FAF6000, .vfrsq 1 5 15 12), (0x31AF6000, .vfexp2 1 5 15 12),
   (0x33AF6000, .vflog2 1 5 15 12), (0x35AF6001, .vcvt 1 5 15 12 1), (0x37AF6001, .vfclass 1 5 15 12 1), (0x41AF6241, .vdadd 1 5 15 12 9 1),
   (0x43AF6240, .vdmul 1 5 15 12 9), (0x45AF6241, .vdmax 1 5 15 12 9 1), (0x47AF6001, .vdcvt 1 5 15 12 1), (0x49AF6520, .vdscl 1 5 15 12 41),
   (0x61AF6241, .vperm 1 5 15 12 9 1), (0x63AF6001, .vnib 1 5 15 12 1), (0x65AF6241, .vshuf 1 5 15 12 9 1), (0x67AF0181, .vbcast 1 5 15 12 1),
   (0x69B7B091, .vmovs 1 5 47 12 9 1), (0x6BAF6521, .vins 1 5 15 12 41 1), (0x6DAF0001, .viota 1 5 15 1), (0x6FAF6000, .vmov 1 5 15 12),
   (0x71AF6001, .vred 1 5 15 12 1), (0x73AF6001, .vscan 1 5 15 12 1), (0x75BBD896, .vcmp 1 5 111 12 9 6), (0x77BBD896, .vfcmp 1 5 111 12 9 6),
   (0x79BBC629, .pand 1 5 111 12 41)]
def words4 : List (W32 × Instr) :=
  [(0x7BBBC629, .por 1 5 111 12 41), (0x7DBBC629, .pxor 1 5 111 12 41), (0x7FBBC629, .pandn 1 5 111 12 41), (0x81B78C01, .pcnt 1 5 47 12 1),
   (0x91AF6241, .vqdeq 1 5 15 12 9 1), (0x93AF6241, .vqnt 1 5 15 12 9 1), (0x95AF6241, .vrng 1 5 15 12 9 1), (0x02B48003, .mcall 5 82 3),
   (0x04AC0000, .bch 5 3), (0x06AC0000, .ech 5 3), (0x08ADE181, .mdrain 5 3 15 12 1), (0x0AAC0000, .mzero 5 3), (0x0CADE000, .mspill 5 3 15 0),
   (0x0EADE000, .mfill 5 3 15 0), (0x10A24000, .mpwr 5 18), (0x10A24001, .mpwrTab 5 18), (0x12A24000, .mprd 5 18), (0x12A24001, .mprdTab 5 18),
   (0x20B20001, .tzero 5 18 1), (0x22B27800, .tcopy 5 18 15), (0x24B27A40, .tv2t 5 18 15 9), (0x26B27A40, .tt2v 5 18 15 9),
   (0x40B219C0, .ckleaf 5 18 3 7), (0x42B219C0, .cknode 5 18 3 7), (0x44B219C0, .ckback 5 18 3 7)]
def words5 : List (W32 × Instr) :=
  [(0x46B2780C, .ckdiv 5 18 15 12), (0x48B219C0, .cksamp 5 18 3 7), (0x4AA53A40, .ixwalk 5 5 7 9), (0x4CB2780C, .ixsplit 5 18 15 12),
   (0x60B27B01, .asort 5 18 15 12 1), (0x62B3CC00, .amrg 5 2 15 12), (0x64B3CC00, .cread 5 2 15 12), (0x66B00001, .cclr 5 2 1),
   (0x68B02F00, .csamp 5 2 47), (0x70A0900F, .clpush 5 18 15), (0x72B20000, .clpull 5 18), (0x74A00002, .clseal 5 2), (0x76A09000, .clcfg 5 18),
   (0x76A00001, .clcfgEnd 5), (0x03B79926, .ldd 1 5 47 12 9 6), (0x05B79926, .ldw 1 5 47 12 9 6), (0x07B79926, .ldwu 1 5 47 12 9 6),
   (0x09B79926, .ldh 1 5 47 12 9 6), (0x0BB79926, .ldhu 1 5 47 12 9 6), (0x0DB79926, .ldb 1 5 47 12 9 6), (0x0FB79926, .ldbu 1 5 47 12 9 6),
   (0x10A95F89, .std 5 18 47 12 9), (0x12A95F89, .stw 5 18 47 12 9), (0x14A95F89, .sth 5 18 47 12 9), (0x16A95F89, .stb 5 18 47 12 9)]
def words6 : List (W32 × Instr) :=
  [(0x19AF3246, .vld 1 5 15 12 9 6), (0x1AB2BF29, .vst 5 18 47 12 41), (0x1DB79926, .lddp 1 5 47 12 9 6), (0x1FAF3246, .vldp 1 5 15 12 9 6),
   (0x20B2BF29, .vstp 5 18 47 12 41), (0x28B2BF00, .tld 5 18 47 12), (0x2AB2BF00, .tst 5 18 47 12), (0x2CA5BF12, .tgath 5 5 47 12 9 0),
   (0x2EB2BF12, .tscat 5 18 47 12 9 0), (0x30B2BF12, .tscadd 5 18 47 12 9 0), (0x40A95E62, .aadd 5 18 47 12 2), (0x42A95E62, .aaddw 5 18 47 12 2),
   (0x44A95E62, .afadd 5 18 47 12 2), (0x46A95E62, .adadd 5 18 47 12 2), (0x48A95E62, .amax 5 18 47 12 2), (0x4AA95E62, .amin 5 18 47 12 2),
   (0x4CA95E62, .aor 5 18 47 12 2), (0x4EA95E62, .aand 5 18 47 12 2), (0x50A95E62, .axchg 5 18 47 12 2), (0x52A95E62, .acas 5 18 47 12 2),
   (0x60A00123, .fence 5 9 3), (0x62A95E61, .waitm 5 18 47 12 1), (0x70A95E60, .cpy 5 18 47 12), (0x70A90179, .cpyZero 5 18 47),
   (0x72A2DE60, .cpyq 5 5 47 12)]
def words7 : List (W32 × Instr) :=
  [(0x74AAF000, .qpop 5 2 47), (0x74AAF001, .qpopBind 5 2 47), (0x76AAF000, .qstat 5 2 47), (0x78A00123, .sbar 5 9 3), (0x7AA95E1D, .rinv 5 18 47 3 5),
   (0x7CA95E1C, .rflush 5 18 47 3 4), (0x7EA4DE61, .resv 5 9 47 12 1), (0x80A48000, .rrel 5 9), (0x80A00001, .rrelAll 5), (0x90A5F780, .movp 5 47 47),
   (0x92A6F780, .movfp 5 55 47), (0x94AAF000, .qpush 5 2 47), (0x94AAF001, .qpushBind 5 2 47), (0x90AA1780, .xfuDecode 5 2 47),
   (0x90AA3780, .xfuZorder 5 2 47), (0x90AA5780, .xfuUnz 5 2 47), (0x90AA7780, .xfuCopy 5 2 47), (0x90AA9780, .xfuUnpack4 5 2 47),
   (0x90AAB780, .xfuSave 5 2 47), (0x90AAD780, .xfuLoad 5 2 47), (0x90AAF780, .xfuAbort 5 2 47), (0x00000000, .vnop), (0x00000000, .xnop),
   (0x00000000, .mnop)]

/-- A word decodes in the slot of its operation to the operation, and is its encoding. -/
def decodesTo (p : W32 × Instr) : Bool :=
  match slotClass p.2 with
  | some sl => (match decodeSlot sl p.1 with | .ok i => i == p.2 | .error _ => false) && encode p.2 == p.1
  | none => false

theorem test_words0 : words0.all decodesTo = true := by decide +kernel
theorem test_words1 : words1.all decodesTo = true := by decide +kernel
theorem test_words2 : words2.all decodesTo = true := by decide +kernel
theorem test_words3 : words3.all decodesTo = true := by decide +kernel
theorem test_words4 : words4.all decodesTo = true := by decide +kernel
theorem test_words5 : words5.all decodesTo = true := by decide +kernel
theorem test_words6 : words6.all decodesTo = true := by decide +kernel
theorem test_words7 : words7.all decodesTo = true := by decide +kernel

/-! ### Ill-formed terms: one or more for each check of Sys2Proof/WellFormed.lean, refused with cause 0x01 (R85) -/

def ill0 : List Instr :=
  [.add 1 5 47 12 41 2, .sub 1 5 47 12 41 2, .shl 1 5 47 12 41 2, .shr 1 5 47 12 41 2, .sar 1 5 47 12 41 2, .rot 1 5 47 12 41 2, .mul 1 5 47 12 41 4,
   .div 1 5 47 12 41 4, .min 1 5 47 12 41 2, .max 1 5 47 12 41 2, .bitc 1 5 47 12 5, .movb 1 5 7 12 2, .csrd 1 5 5 12, .csrd 1 5 22 12, .csrd 1 5 258 12,
   .cswr 1 5 5 12, .cswr 1 5 22 12, .cswr 1 5 258 12, .savec 1 5 0 12, .loadc 1 5 0 12, .hdrT 1 7 15 4 7 7 7, .hdrT 1 0 15 4 1 7 7, .hdrT 1 6 15 4 4 7 7,
   .hdrT 1 2 15 4 0 3 7, .hdrT 1 3 15 4 0 0 5, .vadd 1 5 15 12 9 3, .vsub 1 5 15 12 9 3, .vmul 1 5 15 12 9 3, .vmin 1 5 15 12 9 2, .vmax 1 5 15 12 9 2]
def ill1 : List Instr :=
  [.vadds 1 5 15 12 41 2, .vmuls 1 5 15 12 41 2, .vfmin 1 5 15 12 9 2, .vfmax 1 5 15 12 9 2, .vcvt 1 5 15 12 10, .vfclass 1 5 15 12 2,
   .vdadd 1 5 15 12 9 2, .vdmax 1 5 15 12 9 2, .vperm 1 5 15 12 9 2, .vshuf 1 5 15 12 9 4, .vbcast 1 5 15 12 2, .vmovs 1 5 47 12 9 3,
   .vmovs 1 5 47 12 1 2, .vins 1 5 15 12 41 4, .viota 1 5 15 2, .vred 1 5 15 12 8, .vscan 1 5 15 12 8, .vcmp 1 5 111 12 9 8, .pcnt 1 5 47 12 3,
   .vrng 1 5 15 12 9 2, .bch 5 4, .ech 5 4, .mdrain 5 4 15 12 1, .mzero 5 4, .mspill 5 4 15 0, .mfill 5 4 15 0, .tzero 5 18 2, .tv2t 5 18 15 16,
   .tt2v 5 18 15 16, .ckleaf 5 18 31 1]
def ill2 : List Instr :=
  [.ckleaf 5 18 1 31, .cknode 5 18 31 1, .cknode 5 18 1 31, .ckback 5 18 31 1, .ckback 5 18 1 31, .cksamp 5 18 31 1, .cksamp 5 18 1 31, .ixwalk 5 3 3 9,
   .ixwalk 5 3 1 3, .ixwalk 5 1 3 3, .asort 5 18 15 12 3, .cclr 5 2 3, .tgath 5 3 47 12 3 0, .aadd 5 18 47 12 4, .aaddw 5 18 47 12 4, .afadd 5 18 47 12 4,
   .adadd 5 18 47 12 4, .amax 5 18 47 12 4, .amin 5 18 47 12 4, .aor 5 18 47 12 4, .aand 5 18 47 12 4, .axchg 5 18 47 12 4, .acas 5 18 47 12 4,
   .fence 5 0 0, .fence 5 1 6, .waitm 5 0 47 12 5, .waitm 5 1 47 12 0, .waitm 5 1 47 12 4, .cpyq 5 8 47 12, .sbar 5 0 0]
def ill3 : List Instr :=
  [.sbar 5 1 6, .rinv 5 18 47 1 6, .rinv 5 18 47 0 0, .rflush 5 18 47 1 6, .rflush 5 18 47 0 0, .resv 5 16 47 12 1, .rrel 5 16, .movp 5 128 47,
   .movp 5 31 47, .movfp 5 128 47, .movfp 5 24 47, .xfuDecode 5 4 47, .xfuZorder 5 4 47, .xfuUnz 5 4 47, .xfuCopy 5 4 47, .xfuUnpack4 5 4 47,
   .xfuSave 5 4 47, .xfuLoad 5 4 47, .xfuAbort 5 4 47]

/-- An operation that is not well formed, and whose encoding its slot refuses. -/
def refusedForm (i : Instr) : Bool :=
  !i.wf && match slotClass i with
    | some sl => (match decodeSlot sl (encode i) with | .ok _ => false | .error _ => true)
    | none => false

theorem test_ill_formed0 : ill0.all refusedForm = true := by decide +kernel
theorem test_ill_formed1 : ill1.all refusedForm = true := by decide +kernel
theorem test_ill_formed2 : ill2.all refusedForm = true := by decide +kernel
theorem test_ill_formed3 : ill3.all refusedForm = true := by decide +kernel

/-- Micro-words by R190 and R191: OP in bits 63:58, E in bit 57, SEL in bits 2:0, X in bit 3, IMM in bits 15:0 with X in bit 16 for SETK, T in
bits 8:0, X in bit 0 for XPV; OP 0x0E is unassigned. -/
theorem test_micro_words :
    decodeMicro 3 0x0600000000000009 = some (.feta 3 1 1 1) ∧ decodeMicro 3 0x0800000000000002 = some (.fetb 3 0 2 0)
    ∧ decodeMicro 3 0x0C00000000000000 = some (.mac 3 0) ∧ decodeMicro 3 0x1000000000000000 = some (.macq 3 0)
    ∧ decodeMicro 3 0x1400000000000000 = some (.zpc 3 0) ∧ decodeMicro 3 0x1A00000000000000 = some (.zacc 3 1)
    ∧ decodeMicro 3 0x1C00000000000004 = some (.drn 3 0 4) ∧ decodeMicro 3 0x2000000000010020 = some (.setk 3 0 0x20 1)
    ∧ decodeMicro 3 0x24000000000001FE = some (.microLoop 3 0 0x1FE) ∧ decodeMicro 3 0x2800000000000005 = some (.brz 3 0 5)
    ∧ decodeMicro 3 0x2C00000000000000 = some (.waitt 3 0) ∧ decodeMicro 3 0x3200000000000003 = some (.sigt 3 1 3)
    ∧ decodeMicro 3 0x3400000000000001 = some (.xpv 3 0 1) ∧ decodeMicro 3 0x0000000000000000 = some (.microNop 3 0)
    ∧ decodeMicro 3 0x3800000000000000 = none := by
  decide +kernel

/-- Words composed by hand from the encoding tables: `amrg c0, t9`, `cread c1, t3, s4`, `waitm.eq [s11], s5`, `qpop s5, q2`, `vfma v5, v1, v2, v3` (R86 to R99). -/
theorem test_example_words :
    decodeSlot .x 0x62024000 = .ok (.amrg 0 0 9 0) ∧ decodeSlot .x 0x66000000 = .ok (.cclr 0 0 0) ∧ decodeSlot .x 0x68000700 = .ok (.csamp 0 0 7)
    ∧ decodeSlot .x 0x6408C400 = .ok (.cread 0 1 3 4) ∧ decodeSlot .m 0x62001629 = .ok (.waitm 0 0 11 5 1) ∧ decodeSlot .m 0x74085000 = .ok (.qpop 0 2 5)
    ∧ decodeSlot .v 0x26050886 = .ok (.vfma 0 0 5 1 2 3 0) ∧ decodeSlot .c 0x98028FF8 = .ok (.li 1 0 5 0xFF8) ∧ decodeSlot .c 0x99028004 = .ok (.lis 1 0 5 4) := by
  decide +kernel


/-! ### The manual's worked examples, one step each -/

/-- The 64-bit value in flight for scalar `n`. -/
def sVal (n : Nat) (i : Instr) (s : State) : Option (W64 × Nat) := (inFlight (.s n) i s).map fun r => (r.1.setWidth 64, r.2.2)
/-- The first lanes in flight for vector `n`. -/
def vVal (n k : Nat) (i : Instr) (s : State) : Option (List W32) := (inFlight (.v n) i s).map fun r => (List.range k).map (lane r.1)
def lanes (l : List W32) : Vec := vecOf fun i => l.getD i 0

/-- 02, R55: MUL of 6 by 6 lands 36 three bundles on; the wrap of ADD and its `.w` form; division corners of R332. -/
theorem test_scalar_values :
    sVal 3 (.mul 0 0 3 1 1 0) (withS [(1, 6)]) = some (36, 3)
    ∧ sAfter (.add 0 0 5 3 4 0) (withS [(3, 0xFFFFFFFFFFFFFFFF), (4, 2)]) 5 = 1
    ∧ sAfter (.add 0 0 5 3 4 1) (withS [(3, 0x7FFFFFFF), (4, 1)]) 5 = 0xFFFFFFFF80000000
    ∧ (sVal 5 (.div 0 0 5 3 4 0) (withS [(3, 7)])).map (·.1) = some 0xFFFFFFFFFFFFFFFF
    ∧ (sVal 5 (.div 0 0 5 3 4 2) (withS [(3, 7)])).map (·.1) = some 7
    ∧ (sVal 5 (.div 0 0 5 3 4 0) (withS [(3, 0x8000000000000000), (4, 0xFFFFFFFFFFFFFFFF)])).map (·.1) = some 0x8000000000000000 := by
  decide +kernel

/-- 07, R159: the reduction order gives 1.0; R157 and R156: VNIB and VQDEQ of the fragment. -/
theorem test_vector_examples :
    vVal 2 3 (.vred 0 0 2 1 1) (withSV [] [(1, lanes [0x4B800000, 0x3F800000, 0x3F800000, 0xCB800000])]) = some [0x3F800000, 0, 0]
    ∧ vVal 7 5 (.vnib 0 0 7 4 0) (withSV [] [(4, lanes [0xC8A3])]) = some [3, 10, 8, 12, 0]
    ∧ vVal 8 5 (.vqdeq 0 0 8 7 9 1) (withSV [] [(7, lanes [3, 10, 8, 12]), (9, lanes [0x00083800])])
      = some [0xC0200000, 0x3F800000, 0, 0x40000000, 0xC0800000] := by
  decide +kernel

/-- 08, R169: element (5, 6) of an 8 by 8 FP32 tile in Z order, transposed, and row-major. -/
theorem test_tile_offsets :
    (Hdr.of 0x21C70).index 5 6 = 54 ∧ ({ Hdr.of 0x21C70 with t := true } : Hdr).index 5 6 = 57 ∧ (Hdr.of 0x1C70).index 5 6 = 46 := by decide +kernel

/-- Tiles of the worked example of R186: 1 by 96 BF16, A +0 but 2^16, 1.0 and -2^16, B +0 but 2^16, 1.0 and 2^16 at K 0, 32 and 64. -/
def orderA : TileBits := BitVec.ofNat 32768 (0x4780 + 0x3F80 * 2 ^ 512 + 0xC780 * 2 ^ 1024)
def orderB : TileBits := BitVec.ofNat 32768 (0x4780 + 0x3F80 * 2 ^ 512 + 0x4780 * 2 ^ 1024)
def sCall (o : ArrOp) : State := { s0 with arrays := [(0, { MArray.initial with current := some (false, o), acc := [(0, 0)] })] }
def elemAfter (o : ArrOp) : Nat := accAt (((after (.arrayOpComplete 0) (sCall o)).array 0).accBits 0) 0 0

/-- 08, R186: three k-steps commit in order, and the last leaves +0; after two the accumulator is 2^32. -/
theorem test_commit_order :
    elemAfter (.call 0 0 1 [0, 1, 0, 96, 0, 0, 0, 0] [(0, 0, hdrW 1 1 96 0 0, orderA), (1, 1, hdrW 1 1 96 0 0, orderB)] none none 0) = 0
    ∧ elemAfter (.call 0 0 1 [0, 1, 0, 64, 0, 0, 0, 0] [(0, 0, hdrW 1 1 96 0 0, orderA), (1, 1, hdrW 1 1 96 0 0, orderB)] none none 0) = 0x4F80000000 := by
  decide +kernel

/-- 06, R132: a Q4A group of 32 with scale 0.5 and zero point 8 gives 32.0. -/
theorem test_quantised_call :
    elemAfter (.call 0 0 3 [0, 1, 0, 32, 0, 0, 0, 0]
      [(0, 0, hdrW 1 1 32 0 0, BitVec.ofNat 32768 ((List.range 32).map fun k => 0x3F80 * 2 ^ (16 * k)).sum),
       (1, 1, hdrW 7 32 2 1 0, BitVec.ofNat 32768 ((List.range 32).map fun k => (if k < 16 then 8 else 12) * 2 ^ (8 * k)).sum)]
      (some (lanes [0x00083800])) none 0) = 0x4200000000 := by
  decide +kernel

/-- 06: draining (2 - 2^-9) x 2^127 into BF16 overflows to infinity, and a NaN becomes 0x7FC0. -/
theorem test_drain_overflow :
    drainInto 0 (Hdr.of (hdrW 1 1 2 0 0)) (BitVec.ofNat _ (255 * 2 ^ 31 - 2 ^ 22 + 0x7FC0000000 * 2 ^ 40)) 0 0 1 2 = (0x7FC07F80, 7) := by decide +kernel

/-- 09: the sum over one variable. Records 0 to 2 in tile 0, nodes at 0x100, derivatives 0x100 above, evidence at 0x80. -/
def rec0 : BitVec 1024 := 0x02000001
def rec1 : BitVec 1024 := BitVec.ofNat 1024 (0x02000002 + 2 ^ 64)
def rec2 : BitVec 1024 := BitVec.ofNat 1024 (0x1000000200000003 + 2 ^ 128 + 2 * 2 ^ 152 + 0x7FFE0000 * 2 ^ 512 + 0x7FFF8000 * 2 ^ 544)
def sSum (q : BitVec 3) (scr : Memory) : State :=
  { at0 fun c => { c with tcregs := [(0, hdrW 13 3 1 0 0)], deroff := 256, evbase := 0x80, nodebase := 0x100, qmr := q, scratchSize := 4096, scratch := scr } with
    cores := [(0, { Core.initial with tiles := [(0, { Tile.initial with data := (rec2 ++ rec1 ++ rec0).setWidth 32768 })] })] }
/-- Nodes 1 and 2 as the leaf pass leaves them, with their derivatives +0: +0 is 0x4000_0000_0000_0000, 1.0 is 0. -/
def leaves (a b : W64) (ev : Memory) : Memory :=
  writeBytes (writeBytes ev 0x108 (leBytes 8 a.toNat ++ leBytes 8 b.toNat)) 0x208 (leBytes 8 0x4000000000000000 ++ leBytes 8 0x4000000000000000)
def scr8 (i : Instr) (s : State) (a : Nat) : W64 := BitVec.ofNat 64 (leNat (readBytes (ctxAfter i s).scratch a 8))

theorem test_circuit_forward :
    (scr8 (.ckleaf 0 0 0 1) (sSum 0 [(0x80, 1)]) 0x108 = 0x4000000000000000 ∧ scr8 (.ckleaf 0 0 0 1) (sSum 0 [(0x80, 1)]) 0x110 = 0)
    ∧ scr8 (.cknode 0 0 2 0) (sSum 0 (leaves 0x4000000000000000 0 [(0x80, 1)])) 0x118 = 0x7FFFFFFF80000000
    ∧ scr8 (.cknode 0 0 2 0) (sSum 1 (leaves 0 0 [])) 0x118 = 0 ∧ scr8 (.cknode 0 0 2 0) (sSum 3 (leaves 0 0 [])) 0x118 = 0x7FFFFFFF80000000 := by
  decide +kernel

theorem test_circuit_back :
    (scr8 (.ckback 0 0 0 2) (sSum 1 (leaves 0 0 [])) 0x208 = 0x7FFFFFFE00000000 ∧ scr8 (.ckback 0 0 0 2) (sSum 1 (leaves 0 0 [])) 0x210 = 0x7FFFFFFF80000000)
    ∧ (ctxAfter (.ckleaf 0 0 0 1) (sSum 0 [(0x80, 1)])).tags = [(33, 8, 0), (34, 9, 1), (65, 8, 0), (66, 9, 1)] := by
  decide +kernel

/-- 09, R215 and R216: the walk of ten bits and the split in four; the cursor reads 4,096 and 10. -/
def mask10 : TileBits :=
  BitVec.ofNat 32768 ([(0, 1), (3, 2), (3, 40), (9, 0), (17, 5), (17, 63), (30, 7), (41, 8), (52, 9), (63, 63)].map fun p => 2 ^ (64 * p.1 + p.2)).sum
def sWalk (l : Tbl Tile) : State :=
  { at0 fun c => { c with tcregs := [(4, hdrW 11 1 8 0 0), (5, hdrW 11 64 2 0 0), (6, hdrW 12 2 8 0 0), (7, hdrW 11 1 8 0 0)] } with
    cores := [(0, { Core.initial with tiles := l })] }
def tileRow (i : Instr) (s : State) (h : W64) (slot k : Nat) : Nat := (Hdr.of h).getRow ((after i s).tile 0 slot).data k

theorem test_index_walk :
    (let i : Instr := .ixwalk 0 6 5 4; let s := sWalk [(5, { Tile.initial with data := mask10 })];
      tileRow i s (hdrW 12 2 8 0 0) 6 0 = 2 ^ 32 ∧ tileRow i s (hdrW 12 2 8 0 0) 6 2 = 3 + 40 * 2 ^ 32 ∧ tileRow i s (hdrW 12 2 8 0 0) 6 9 = 63 + 63 * 2 ^ 32
      ∧ tileRow i s (hdrW 12 2 8 0 0) 6 10 = 2 ^ 64 - 1 ∧ tileRow i s (hdrW 11 1 8 0 0) 4 0 = 4096 ∧ tileRow i s (hdrW 11 1 8 0 0) 4 1 = 10)
    ∧ (List.range 5).map (tileRow (.ixsplit 0 7 4 3) (sWalk [(4, { Tile.initial with data := 4096 + 10 * 2 ^ 32 })]) (hdrW 11 1 8 0 0) 7) = [0, 2, 5, 7, 10] := by
  decide +kernel

/-- 10: ties of ASORT, and the same words as dk32 keys. -/
def ties : TileBits :=
  BitVec.ofNat 32768 (0x740000000 + 0x37FC00000 * 2 ^ 64 + 0x140000000 * 2 ^ 128 + 0x980000000 * 2 ^ 192 + (2 ^ 4096 - 2 ^ 256))
def sTies : State :=
  { at0 fun c => { c with tcregs := [(8, hdrW 12 8 8 0 0), (9, hdrW 12 8 8 0 0)] } with cores := [(0, { Core.initial with tiles := [(8, { Tile.initial with data := ties })] })] }

theorem test_sort_ties :
    [0, 1, 2, 3, 4, 63].map (tileRow (.asort 0 9 8 8 0) sTies (hdrW 12 8 8 0 0) 9)
      = [0x140000000, 0x740000000, 0x980000000, 0x37FC00000, 0xFFFFFFFFFFFFFFFF, 0xFFFFFFFFFFFFFFFF]
    ∧ [0, 1, 2, 3, 62, 63].map (tileRow (.asort 0 9 8 8 2) sTies (hdrW 12 8 8 0 0) 9)
      = [0x37FC00000, 0x140000000, 0x740000000, 0xFFFFFFFFFFFFFFFF, 0xFFFFFFFFFFFFFFFF, 0x980000000] := by
  decide +kernel

/-- 10, R227: the pull of key 5 adds stream 0 first: value 2^24, tag 0x0003_0003; key 9 stays. -/
def fourEntries : List ClrEntry :=
  [{ key := 5, val := 0x3F800000, stream := 1, seq := 0 }, { key := 5, val := 0x3F800000, stream := 1, seq := 1 },
   { key := 5, val := 0x4B800000, stream := 0, seq := 2 }, { key := 9, val := 0x40400000, stream := 0, seq := 3 }]
def session2 : Session := { session1 with kind := 0, pushed := 3, last := [(0, 9), (1, 5)], nextSeq := 4, buf := fourEntries }
def sSession : State := { sOpen with clusters := [(0, { Cluster.initial with session := some session2 })] }

theorem test_pull_order :
    tileRow (.clpull 0 2) sSession (hdrW 14 1 4 0 0) 2 0 = 5 + 0x4B800000 * 2 ^ 64 + 0x00030003 * 2 ^ 96
    ∧ tileRow (.clpull 0 2) sSession (hdrW 14 1 4 0 0) 2 1 = 2 ^ 64 - 1
    ∧ (((after (.clpull 0 2) sSession).cluster 0).session.map fun x => x.buf.map (·.key)) = some [9] := by
  decide +kernel

/-- 13, R292: TSCADD adds in ascending m: word 5 stays 2^24, word 2 becomes 3.0. -/
def sScatter : State :=
  { at0 fun c => { c with tcregs := [(7, 0x20), (8, 0x80B)], sregs := [(11, 0x4000)] } with
    mem := [(0x4016, 0x80), (0x4017, 0x4B)]
    cores := [(0, { Core.initial with tiles := [(7, { Tile.initial with data := 0x3F800000404000003F800000 }), (8, { Tile.initial with data := 0x50000000200000005 })] })] }

theorem test_scatter_add :
    (after (.tscadd 0 7 11 0 8 0) sScatter).mem = [(0x400A, 0x40), (0x400B, 0x40), (0x4016, 0x80), (0x4017, 0x4B)] := by decide +kernel

/-- 14, R314 to R318: the block of 16 nibbles of 1 expands into a 1 by 8 UINT8 tile, ERR 0. -/
def sExpand : State :=
  { at0 fun c => { c with tcregs := [(3, 0x1C04)], scratch := writeBytes [] 0 (leBytes 8 0x10 ++ leBytes 8 0x40000110001C00F1 ++ [0x02, 0x18]) } with
    clusters := [(0, { Cluster.initial with xfus := [(0, { Xfu.initial with ports := [(0, 0x01FF000000000000), (2, 3), (5, 64)], group := some 1 })] })] }

theorem test_decode_block :
    (((after (.xfuDecode 0 0 0) sExpand).xfu 0 0).job.map fun j => (j.err, j.newData, j.nout)) = some (0, 0x1111111111111111, 16) := by decide +kernel

/-- 16, R367: PROJ and BAL of VF 7 read 0x0000_1D4C_0000_2EE0. -/
def sEnergy : State :=
  { at0 fun c => { c with vf := 7 } with
    vfs := [(7, { Vf.initial with balance := 12000, share := 0x2000 })], launches := [(1, { task1 with vf := 7 })],
    groups := [(1, { group1 with estimate := 9000000, metered := 4500000 }), (2, { group1 with estimate := 6000000, metered := 7000000 })],
    regs := { Regs.initial with ready := true, allow := 6000 }, request := .treasuryClose [(7, 90000000)] }

theorem test_treasury :
    csrRead sEnergy 0 0x60 = 0x00001D4C00002EE0 ∧ ((after .treasuryClose { sEnergy with groups := [] }).vf 7).balance = -3000 := by decide +kernel

/-- 17: with FREE 1 the Mint runs bucket (2, 1); with FREE 0 request B leaves and bucket (1, 7) runs with 2 pages free. -/
def mintX (pool : List Nat) : Mint :=
  { mintIdle with
    tpp := 16, pool := pool, table := (List.range 32).map fun k => (16 + k, 0x80000000),
    reqs := [(0, { active := true, prio := 5, tokens := 30, pages := [1, 2] }), (1, { active := true, prio := 2, tokens := 48, pages := [3, 4, 5] })],
    drafts := [(0, [(8, 7)]), (1, [(8, 4)])] }
def sMintX (pool : List Nat) : State := { sMint with dies := [(0, { Die.initial with mint := some (mintX pool) })] }

theorem test_mint_boundary :
    (let t := after (.mintIterationBoundary 0) (sMintX [9]); (csrRead t 0 0x82).toNat % 4096 = 0x112)
    ∧ (let t := after (.mintIterationBoundary 0) (sMintX []); csrRead t 0 0x80 = 0x0101 ∧ csrRead t 0 0x81 = 7 ∧ (csrRead t 0 0x82).toNat % 4096 = 0x271
      ∧ ((t.die 0).mint.map fun m => m.pool) = some [4, 5]) := by
  decide +kernel

/-- 18, R405: BOOTSTAT of the example's three reads. -/
theorem test_bootstat :
    bootStat { Regs.initial with stage := 2, fails := 2, reason := 3, svn := 3 } = 0x00030382
    ∧ bootStat { Regs.initial with mini := true, fails := 3, reason := 3, svn := 3 } = 0x000303E0
    ∧ bootStat { Regs.initial with stage := 4, ready := true, svn := 3 } = 0x00030014 := by
  decide +kernel

/-- 19, R408 to R411: line 5 takes one chunk, metadata 0x0123_4567_0000_0210; grown, 0x0200_0000_0000_5210. -/
def line5 : List Byte :=
  List.replicate 64 0 ++ (List.range 8).flatMap (fun _ => leBytes 8 0x3F800000) ++ (List.range 8).flatMap (fun i => leBytes 8 (100 + i)) ++ List.replicate 320 0
def line5b : List Byte := line5.take 192 ++ (List.range 8).flatMap (fun i => leBytes 8 (i * 0x123456789AB)) ++ line5.drop 256

theorem test_compressed_line :
    lineSize (lineClasses line5) = 1 ∧ lineWord (lineClasses line5) 0x01234567 = 0x0123456700000210
    ∧ lineSize (lineClasses line5b) = 2 ∧ lineWord (lineClasses line5b) 0x02000000 = 0x0200000000005210 := by
  decide +kernel

/-- 19: a partition at 52,794 of 52,800 chunks: growing from 1 to 2 stays within quota, from 1 to 8 draws 8 from the Reserve. -/
def vault9 (u : Nat) : Vault :=
  { Vault.initial with
    used := [(3, u)], lists := [(1, (List.range 300).map fun i => 16 * i), (2, (List.range 300).map fun i => 16 * i + 4)], fresh := [],
    ratio := (List.range 100).map fun f => (f, 32), frameOwner := (List.range 100).map fun f => (f, 3), vcap := 0x4000000 + 52800 }

theorem test_quota :
    (((vault9 52794).allocate 2 1 3).map fun r => (r.2.1, r.2.2.used, r.2.2.reserved)) = some (false, [(3, 52795)], 0x4000000)
    ∧ (((vault9 52795).allocate 8 1 3).map fun r => (r.2.1, r.2.2.used, r.2.2.reserved, r.2.2.prdraw)) = some (true, [(3, 52802)], 0x4000000 - 8, [(3, 8)]) := by
  decide +kernel

/-- 20: TRAP with `s4` in flight: the snapshot holds it with its distance; 21, R455: the all-reduce of three ranks gives 2^24. -/
theorem test_trap_snapshot :
    (let c := ctxAfter (.trap 0 0 9) (at0 fun c => { c with bundles := 5, flights := [{ dest := .s 4, val := 42, mask := 0xFFFFFFFFFFFFFFFF, due := 7, squash := false, poison := none }] });
      c.snapshot.map (fun x => (x.kind, x.index, x.dist)) = [(0, 4, 1)] ∧ c.trapinfo = 9 ∧ c.trappc = 0x1010 ∧ c.hm = true)
    ∧ reduceBytes 0 [leBytes 4 0x4B800000, leBytes 4 0x3F800000, leBytes 4 0x3F800000] 0 1 = leBytes 4 0x4B800000 := by
  decide +kernel

/-- 01, R35 and R37: CLMAP(37) and the COREPOS of core 5 of its logical cluster 6. -/
def sDie37 : State := { s0 with regs := { Regs.initial with clmap := [(37, 0x000001FF87654320)] } }
theorem test_corepos : csrRead sDie37 (4 * (64 * 37 + 8 * 6 + 5)) 4 = 0x00079975 := by decide +kernel

/-- 04, R82: a load with `.q` in flight is discarded by the taken branch; without it the load stays in flight. -/
theorem test_squash :
    let f (q : Bool) : Flight := { dest := .s 5, val := 1, mask := 0xFFFFFFFFFFFFFFFF, due := 24, squash := q, poison := none }
    (ctxAfter (.br 0 0 7) (at0 fun c => { c with bundles := 21, flights := [f true] })).flights = []
    ∧ (ctxAfter (.br 0 0 7) (at0 fun c => { c with bundles := 21, flights := [f false] })).flights = [f false]
    ∧ (ctxAfter (.br 0 0 7) s0).pc = 0x1070 := by
  decide +kernel

/-- Loads extend, an unaligned one traps with cause 0x06 and its address, and a store writes its bytes, lowest first (R282, R283, R285). -/
theorem test_loads_and_stores :
    (sVal 5 (.ldb 0 0 5 3 15 0) { withS [(3, 0x4001)] with mem := [(0x4001, 0x92)] }).map (·.1) = some 0xFFFFFFFFFFFFFF92
    ∧ (let c := ctxAfter (.ldd 0 0 5 3 15 0) (withS [(3, 0x4001)]); c.trapcause = 0x06 ∧ c.trapinfo = 0x4001 ∧ c.pc = 0x2000)
    ∧ (after (.sth 0 4 3 15 0) (withS [(3, 0x4002), (4, 0xA1B2)])).mem = [(0x4002, 0xB2), (0x4003, 0xA1)] := by
  decide +kernel

end Sys2Proof.Tests
end

section
/-!
PROOF. A condition tree alone in its bundle (R91, R93): which leaf the model chooses, what the header answers at issue for
each state of its tests and of its chosen target, and from these the obligation.
-/
namespace Sys2Proof.Machine

/-- R91's table, read row by row, is the model's choice of leaf. -/
theorem shapeLeaf_of_leafIs {shape leaf : Nat} {t : Nat → Bool} (h : LeafIs shape t leaf) : shapeLeaf shape t = leaf := by
  match shape with
  | 0 | 1 | 2 | 3 =>
    refine Eq.trans ?_ h.symm
    simp only [shapeLeaf, leastFrom]
    split_ifs <;> rfl
  | 4 | 5 => exact h.symm
  | _ + 6 =>
    refine Eq.trans ?_ h.symm
    change 2 * (t 0).toNat + (t 1).toNat = (if t 0 then 2 else 0) + if t 1 then 1 else 0
    cases t 0 <;> cases t 1 <;> rfl

/-- p0 discards its results, so none ever makes it pending (R46). -/
theorem Ctx.pending_p_zero (c : Ctx) : c.pending (.p 0) = false := by
  rw [Ctx.pending, List.any_eq_false]
  intro f _
  cases f.dest <;> simp [Dest.isName]

theorem Ctx.ne_zero_of_pending_p {c : Ctx} {n : Nat} (h : c.pending (.p n) = true) : n ≠ 0 := by
  rintro rfl
  simp [Ctx.pending_p_zero] at h

theorem targetOk_eq_ok {t : W64} (h : TargetOk t) : targetOk t = .ok () := by
  obtain ⟨hlow, hhigh⟩ := h
  simp [targetOk, Chk.need, bits, hlow, hhigh]

theorem targetOk_eq_trap {t : W64} (h : ¬TargetOk t) : targetOk t = .error (.trap 0x06 t) := by
  have hb : (bits t 0 4 == 0 && bits t 57 7 == 0) = false := by simpa [TargetOk, bits] using h
  rw [targetOk, hb]
  rfl

/-- A register branch takes a target that passes the check of R338. -/
theorem branchReg_eq_branchTo {e : Env} {k : Nat} {s : State} (h : TargetOk ((s.ctx e.g).b k)) :
    branchReg e k s = branchTo ((s.ctx e.g).b k) := by
  simp only [branchReg, targetOk_eq_ok h]
  rfl

theorem branchReg_eq_trap {e : Env} {k : Nat} {s : State} (h : ¬TargetOk ((s.ctx e.g).b k)) :
    branchReg e k s = .error (.trap 0x06 ((s.ctx e.g).b k)) := by
  simp only [branchReg, targetOk_eq_trap h]
  rfl

section
variable {e : Env} {h : BitVec 3} {q : BitVec 5} {b : BitVec 3} {s : State}

/-- A pending test stops the header whatever the other tests would choose (R93). -/
theorem issueHdrT_of_test_pending {k : Nat} (hk : k ∈ shapeTests h.toNat) (hp : (s.ctx e.g).pending (.p (4 * q.toNat + k)) = true) :
    issueHdrT e h q b s = .error .early := by
  have hany : ((shapeTests h.toNat).any fun i => 4 * q.toNat + i != 0 && (s.ctx e.g).pending (.p (4 * q.toNat + i))) = true :=
    List.any_eq_true.mpr ⟨k, hk, by rw [hp, Bool.and_true]; exact bne_iff_ne.mpr (Ctx.ne_zero_of_pending_p hp)⟩
  simp only [issueHdrT, hany]
  rfl

/-- With every test landed and the leaf chosen, what is left of the header: leaf 4 continues in sequence, and another reads its
target register. -/
theorem issueHdrT_of_leaf {l : Nat} (hr : ∀ k ∈ shapeTests h.toNat, (s.ctx e.g).pending (.p (4 * q.toNat + k)) = false)
    (hl : LeafIs h.toNat (fun k => ((s.ctx e.g).p (4 * q.toNat + k)).getLsbD 0) l) :
    issueHdrT e h q b s = if l = 4 then nothing else
      (Chk.need (!(s.ctx e.g).pending (.b ((b.toNat + l) % 8))) .early).bind fun _ => branchReg e ((b.toNat + l) % 8) s := by
  have hany : ((shapeTests h.toNat).any fun i => 4 * q.toNat + i != 0 && (s.ctx e.g).pending (.p (4 * q.toNat + i))) = false :=
    List.any_eq_false.mpr fun k hk => by simp [hr k hk]
  have hleaf : treeLeaf (s.ctx e.g) h.toNat q.toNat = l := shapeLeaf_of_leafIs hl
  simp only [issueHdrT, hany, hleaf]
  rfl

variable {l : Nat} (hr : ∀ k ∈ shapeTests h.toNat, (s.ctx e.g).pending (.p (4 * q.toNat + k)) = false)
  (hl : LeafIs h.toNat (fun k => ((s.ctx e.g).p (4 * q.toNat + k)).getLsbD 0) l) (h4 : l < 4)
include hr hl h4

/-- A pending target of the chosen leaf stops the header (R93). -/
theorem issueHdrT_of_target_pending (hp : (s.ctx e.g).pending (.b ((b.toNat + l) % 8)) = true) :
    issueHdrT e h q b s = .error .early := by
  rw [issueHdrT_of_leaf hr hl, if_neg h4.ne, hp]
  rfl

/-- A header whose chosen target has landed branches as BRB does (R93). -/
theorem issueHdrT_of_target_ready (hp : (s.ctx e.g).pending (.b ((b.toNat + l) % 8)) = false) :
    issueHdrT e h q b s = branchReg e ((b.toNat + l) % 8) s := by
  rw [issueHdrT_of_leaf hr hl, if_neg h4.ne, hp]
  rfl

end

/-- A tree header whose tags are all unused stands alone in its bundle. -/
theorem slotAlone_hdrT (e : BitVec 1) (h : BitVec 3) (q : BitVec 5) (b : BitVec 3) : SlotAlone (.hdrT e h q b 7 7 7) :=
  ⟨Nat.zero_ne_add_one 3, rfl, rfl, rfl⟩

/-- Alone in its bundle the header answers as it does under no guard (R86). -/
theorem issueAlone_hdrT (e : BitVec 1) (h : BitVec 3) (q : BitVec 5) (b x y z : BitVec 3) (s : State) :
    issueAlone (.hdrT e h q b x y z) s = issueHdrT s.env h q b s := rfl

/-- Settles O15, from what the header answers at issue in each case of R93. -/
theorem conditionTree : Obligations.ConditionTree := by
  intro e h q b _ i test ready reg
  have hi : SlotAlone i := slotAlone_hdrT e h q b
  have hissue (s : State) : issueAlone i s = issueHdrT s.env h q b s := issueAlone_hdrT ..
  refine ⟨fun l h4 s hs hP => ?taken, fun s hs hP => ?sequence, fun l h4 s hs hP => ?badTarget, fun k hk s hs hp => ?testPending,
    fun l h4 s hs hr hl hp => ?targetPending⟩
  case taken =>
    obtain ⟨hr, hl, hp, ht⟩ := hP
    refine exec_completes hi hs ?_
    rw [hissue, issueHdrT_of_target_ready (e := s.env) hr hl h4 hp]
    exact branchReg_eq_branchTo (e := s.env) ht
  case sequence =>
    obtain ⟨hr, hl⟩ := hP
    refine exec_completes hi hs ?_
    rw [hissue, issueHdrT_of_leaf (e := s.env) hr hl]
    rfl
  case badTarget =>
    obtain ⟨hr, hl, hp, ht⟩ := hP
    refine exec_traps hi hs ?_
    rw [hissue, issueHdrT_of_target_ready (e := s.env) hr hl h4 hp]
    exact branchReg_eq_trap (e := s.env) ht
  case testPending =>
    rw [exec_issues hi hs, hissue, issueHdrT_of_test_pending (e := s.env) hk hp]
  case targetPending =>
    rw [exec_issues hi hs, hissue, issueHdrT_of_target_pending (e := s.env) hr hl h4 hp]

end Sys2Proof.Machine
end

section
/-!
PROOF. Words of opcode zero (R84, R99): what they decode to, what a bundle of four of them issues, and how a bundle without an
operation issues.
-/
namespace Sys2Proof.Machine

/-! ## Bundles without an operation -/

/-- A bundle without an operation commits empty when its words are legal. -/
theorem issueSlots_empty {g : Nat} {s : State} (hroom : (s.ctx g).flights.length ≤ 48) (stop : Bool) :
    issueSlots g stop [] [] s = commitBundle g stop [] [] s := by
  simp [issueSlots, issueOps, conflicts, rfeBeside, slips, dependents, inFlight, Results.early, Results.traps, Results.block,
    Results.stall, Results.late, Nat.not_lt.mpr hroom]

/-- A bundle without an operation marks its illegal words (R103). -/
theorem issueSlots_empty_bad {g : Nat} {bad : List Nat} (h : bad ≠ []) (stop : Bool) (s : State) :
    issueSlots g stop bad [] s = takeTrap g 0x01 0 (slotMask bad) s := by
  simp [issueSlots, conflicts, rfeBeside, h]

theorem runNop_eq {s : State} (hroom : (s.ctx s.cur).flights.length ≤ 48) (stop : BitVec 1) :
    runNop stop s = .next (commitBundle s.cur (stop == 1) [] [] s) := by
  rw [runNop, issueSlots_empty hroom]

/-- A header that lends nothing is an empty bundle. -/
theorem exec_hdrX_zero {s : State} (hroom : (s.ctx s.cur).flights.length ≤ 48) (e : BitVec 1) :
    exec (.hdrX e 0 0 0) s = .next (commitBundle s.cur (e == 1) [] [] s) :=
  congrArg Host.Outcome.next (issueSlots_empty hroom _)

/-- A header that lends to one no-operation, marked with the header's own slot (R88). -/
theorem exec_hdrX_lends {l : BitVec 7} (hl : l ≠ 0) (e : BitVec 1) (s : State) :
    exec (.hdrX e l 0 0) s = .next (takeTrap s.cur 0x01 0 0b0011 s)
      ∧ exec (.hdrX e 0 l 0) s = .next (takeTrap s.cur 0x01 0 0b0101 s)
      ∧ exec (.hdrX e 0 0 l) s = .next (takeTrap s.cur 0x01 0 0b1001 s) := by
  have trap {l1 l2 l3 : BitVec 7} {bad : List Nat} (hne : bad ≠ [])
      (hbad : (if l1 = 0 then [] else [0, 1]) ++ (if l2 = 0 then [] else [0, 2]) ++ (if l3 = 0 then [] else [0, 3]) = bad) :
      exec (.hdrX e l1 l2 l3) s = .next (takeTrap s.cur 0x01 0 (slotMask bad) s) := by
    subst hbad
    exact congrArg Host.Outcome.next (issueSlots_empty_bad hne _ s)
  exact ⟨trap (bad := [0, 1]) nofun (by rw [if_neg hl]; rfl), trap (bad := [0, 2]) nofun (by rw [if_neg hl]; rfl),
    trap (bad := [0, 3]) nofun (by rw [if_neg hl]; rfl)⟩

/-! ## Fields of a word -/

theorem field_eq_zero_iff {w lo n : Nat} {x : BitVec w} : x.extractLsb' lo n = 0 ↔ ∀ i < n, x.getLsbD (lo + i) = false := by
  refine ⟨fun h i hi => ?_, fun h => BitVec.eq_of_getLsbD_eq fun i hi => ?_⟩
  · have hb := congrArg (fun v : BitVec n => v.getLsbD i) h
    simpa [hi] using hb
  · simp [h i hi]

/-- A part of a field that is zero is zero. -/
theorem part_eq_zero {w n lo lo' n' : Nat} {x : BitVec w} (h : x.extractLsb' lo n = 0) (hlo : lo ≤ lo' := by decide)
    (hn : lo' + n' ≤ lo + n := by decide) : x.extractLsb' lo' n' = 0 := by
  rw [field_eq_zero_iff] at h ⊢
  intro i hi
  have hbit := h (lo' - lo + i) (by omega)
  rwa [show lo + (lo' - lo + i) = lo' + i by omega] at hbit

/-- A field of a field is a field of the word. -/
theorem field_of_field {w lo n lo' n' : Nat} (x : BitVec w) (h : lo' + n' ≤ n) :
    (x.extractLsb' lo n).extractLsb' lo' n' = x.extractLsb' (lo + lo') n' := by
  apply BitVec.eq_of_getLsbD_eq
  intro i hi
  simp [hi, show lo' + i < n by omega, Nat.add_assoc]

/-! ## Words of opcode zero -/

/-- The no-operation of a slot, with the stop bit where the slot has one (R84). -/
def noopOf (sl : Slot) (w : W32) : Instr :=
  match sl with
  | .c => .nop (w.extractLsb' 31 1)
  | .v => .vnop
  | .x => .xnop
  | .m => .mnop

/-- The lowest bit of a slot's opcode of seven bits; a no-operation uses none of the bits below it (R84, R99). -/
def opcodeLo : Slot → Nat
  | .c => 24
  | _ => 25

theorem opcodeLo_of_ne_c {sl : Slot} (h : sl ≠ .c) : opcodeLo sl = 25 := by
  cases sl
  case c => exact absurd rfl h
  case v | x | m => rfl

theorem wf_noopOf (sl : Slot) (w : W32) : (noopOf sl w).wf = true := by cases sl <;> rfl

theorem rowOf_opcode_zero {sl : Slot} {w : W32} (h : w.extractLsb' (opcodeLo sl) 7 = 0) : rowOf sl w = some (noopOf sl w) := by
  cases sl <;> simp only [opcodeLo] at h
  case c => simp only [rowOf, rowC, fld, h]; rfl
  case v => simp only [rowOf, rowV, fld, h]; rfl
  case x => simp only [rowOf, rowX, fld, h]; rfl
  case m => simp only [rowOf, rowM, fld, h]; rfl

/-- A word of opcode zero in W1, W2 or W3 has no bit beside its unused ones. -/
theorem unused_eq_zero_iff {w : W32} (h : w.extractLsb' 25 7 = 0) : w.extractLsb' 0 25 = 0 ↔ w = 0 := by
  refine ⟨fun hu => BitVec.eq_of_getLsbD_eq fun i hi => ?_, fun hw => by rw [hw]; rfl⟩
  rw [field_eq_zero_iff] at h hu
  rcases Nat.lt_or_ge i 25 with hlow | hhigh
  · simpa using hu i hlow
  · have hbit := h (i - 25) (by omega)
    rw [Nat.add_sub_cancel' hhigh] at hbit
    simpa using hbit

theorem encode_nop (e : BitVec 1) : encode (.nop e) = 0x00000000 ||| put e 31 := rfl

/-- NOP keeps of its word the stop bit alone. -/
theorem encode_nop_eq_iff {w : W32} (h : w.extractLsb' 24 7 = 0) : encode (.nop (w.extractLsb' 31 1)) = w ↔ w.extractLsb' 0 24 = 0 := by
  have hbit (i : Nat) (hi : i < 32) : (encode (.nop (w.extractLsb' 31 1))).getLsbD i = (decide (i = 31) && w.getLsbD i) := by
    rcases Nat.lt_or_ge i 31 with hlt | hge
    · simp [encode_nop, put, hlt, Nat.ne_of_lt hlt]
    · obtain rfl : i = 31 := by omega
      simp [encode_nop, put]
  rw [field_eq_zero_iff] at h ⊢
  refine ⟨fun he i hi => ?_, fun hu => BitVec.eq_of_getLsbD_eq fun i hi => ?_⟩
  · rw [Nat.zero_add, ← he, hbit i (by omega), decide_eq_false (by omega), Bool.false_and]
  · rw [hbit i hi]
    rcases Nat.lt_or_ge i 24 with hlow | hhigh
    · have hz := hu i hlow
      rw [Nat.zero_add] at hz
      rw [hz, Bool.and_false]
    · rcases Nat.lt_or_ge i 31 with hop | hstop
      · have hz := h (i - 24) (by omega)
        rw [Nat.add_sub_cancel' hhigh] at hz
        rw [hz, Bool.and_false]
      · rw [decide_eq_true (by omega), Bool.true_and]

theorem encode_noopOf_eq_iff {sl : Slot} {w : W32} (h : w.extractLsb' (opcodeLo sl) 7 = 0) :
    encode (noopOf sl w) = w ↔ w.extractLsb' 0 (opcodeLo sl) = 0 := by
  cases sl
  case c => exact encode_nop_eq_iff h
  case v | x | m => exact eq_comm.trans (unused_eq_zero_iff h).symm

/-- A word of opcode zero is its slot's no-operation, or refused for an unused bit (R84). -/
theorem decodeSlot_opcode_zero {sl : Slot} {w : W32} (h : w.extractLsb' (opcodeLo sl) 7 = 0) :
    decodeSlot sl w = if w.extractLsb' 0 (opcodeLo sl) = 0 then .ok (noopOf sl w) else .error .reservedField := by
  simp only [decodeSlot, rowOf_opcode_zero h, wf_noopOf, ne_eq, encode_noopOf_eq_iff h, if_true, ite_not]

/-! ## Bundles whose four opcodes are zero -/

/-- A word of opcode zero in W0 is no header (R86). -/
theorem not_header_of_opcode_zero {w : W32} (h : w.extractLsb' 24 7 = 0) : isHdrX w = false ∧ isHdrT w = false := by
  have hz : w.getLsbD (23 + 1) = false := field_eq_zero_iff.mp h 0 (by decide)
  have hne {v : BitVec 8} (hv : v.getLsbD 1 = true) : (fld w 23 8 &&& 0xFF == v) = false := by
    rw [beq_eq_false_iff_ne]
    rintro rfl
    rw [BitVec.getLsbD_and, fld, BitVec.getLsbD_extractLsb', hz] at hv
    simp at hv
  exact ⟨hne rfl, hne rfl⟩

theorem lentBad_no_header {w : W32} (h : w.extractLsb' 24 7 = 0) (n : Nat) (row : Option Instr) : lentBad w n row = false := by
  simp [lentBad, not_header_of_opcode_zero h]

/-- Without a header a slot's word is illegal only where it does not decode. -/
theorem badSlots_no_header {b : BitVec 128} (h : (slotWord b .c).extractLsb' 24 7 = 0) :
    badSlots b = (slotsOf b).flatMap fun x => if x.2.2.isOk then [] else [x.1] := by
  unfold badSlots
  congr 1
  funext ⟨n, w, r⟩
  simp only [lentBad_no_header h, Bool.and_false]
  cases r <;> rfl

/-- The slots whose unused bits are not all zero, in a bundle whose four opcodes are. -/
def illegalNoops (b : BitVec 128) : List Nat :=
  (if b.extractLsb' 0 24 = 0 then [] else [0]) ++ (if b.extractLsb' 32 25 = 0 then [] else [1])
    ++ (if b.extractLsb' 64 25 = 0 then [] else [2]) ++ (if b.extractLsb' 96 25 = 0 then [] else [3])

/-- Bit 0 of a slot's word in its bundle (R76). -/
def slotLo : Slot → Nat
  | .c => 0
  | .v => 32
  | .x => 64
  | .m => 96

theorem slotWord_field (b : BitVec 128) (sl : Slot) {lo n : Nat} (h : lo + n ≤ 32) :
    (slotWord b sl).extractLsb' lo n = b.extractLsb' (slotLo sl + lo) n := by
  cases sl <;> exact field_of_field b h

/-- The opcodes of the four slots of a bundle are zero. -/
def OpcodesZero (b : BitVec 128) : Prop := ∀ sl, b.extractLsb' (slotLo sl + opcodeLo sl) 7 = 0

section
variable {b : BitVec 128} (h : OpcodesZero b)
include h

theorem slotWord_opcode_zero (sl : Slot) : (slotWord b sl).extractLsb' (opcodeLo sl) 7 = 0 :=
  (slotWord_field b sl (by cases sl <;> decide)).trans (h sl)

theorem decodeSlot_slotWord (sl : Slot) : decodeSlot sl (slotWord b sl) =
    if b.extractLsb' (slotLo sl) (opcodeLo sl) = 0 then .ok (noopOf sl (slotWord b sl)) else .error .reservedField := by
  rw [decodeSlot_opcode_zero (slotWord_opcode_zero h sl), slotWord_field b sl (by cases sl <;> decide), Nat.add_zero]

theorem isOk_decodeSlot_slotWord (sl : Slot) :
    (decodeSlot sl (slotWord b sl)).isOk = true ↔ b.extractLsb' (slotLo sl) (opcodeLo sl) = 0 := by
  rw [decodeSlot_slotWord h]
  split_ifs with hz
  · exact iff_of_true rfl hz
  · exact iff_of_false Bool.false_ne_true hz

theorem badSlots_opcodes_zero : badSlots b = illegalNoops b := by
  rw [badSlots_no_header (slotWord_opcode_zero h .c)]
  simp [slotsOf, isOk_decodeSlot_slotWord h, slotLo, opcodeLo, illegalNoops]

theorem bundleOps_opcodes_zero (g : Nat) (s : State) : bundleOps g b s = [] := by
  have hop (leaf n : Nat) (sl : Slot) : toOp g (slotWord b .c) leaf (n, slotWord b sl, decodeSlot sl (slotWord b sl)) = none := by
    rw [decodeSlot_slotWord h]
    cases sl <;> split_ifs <;> rfl
  simp [bundleOps, slotsOf, hop]

/-- A bundle whose opcodes are zero issues no operation. -/
theorem issueBundle_opcodes_zero (g : Nat) (s : State) :
    issueBundle g b s = issueSlots g (b.getLsbD 31) (illegalNoops b) [] s := by
  have hstop : (slotWord b .c).getLsbD 31 = b.getLsbD 31 := by simp [slotWord, fld]
  rw [issueBundle, badSlots_opcodes_zero h, bundleOps_opcodes_zero h, hstop]

/-- A bundle of four no-operations commits empty. -/
theorem issueBundle_noops {g : Nat} {s : State} (hroom : (s.ctx g).flights.length ≤ 48) (hl : illegalNoops b = []) :
    issueBundle g b s = commitBundle g (b.getLsbD 31) [] [] s := by
  rw [issueBundle_opcodes_zero h, hl, issueSlots_empty hroom]

/-- A nonzero unused bit of a no-operation is cause 0x01 with its slot marked. -/
theorem issueBundle_illegal_noop {n : Nat} (hn : illegalNoops b = [n]) (g : Nat) (s : State) :
    issueBundle g b s = takeTrap g 0x01 0 (slotMask [n]) s := by
  rw [issueBundle_opcodes_zero h, hn, issueSlots_empty_bad (List.cons_ne_nil n [])]

end

/-- Settles O16, from what a bundle without an operation issues. -/
theorem emptyBundles : Obligations.EmptyBundles := by
  intro s hroom
  refine ⟨runNop_eq hroom, runNop_eq hroom 0, runNop_eq hroom 0, runNop_eq hroom 0, exec_hdrX_zero hroom,
    fun e l hl => exec_hdrX_lends hl e s, fun n w => ?unassigned, fun w hop hu => ?decodeC, fun sl w hsl hop hw => ?decodeOther,
    fun b => ⟨fun hc hr => ?noops, fun hu hop hr => ?badC, fun hc hu hop hr => ?badV, fun hc hu hop hr => ?badX, fun hr hu hop => ?badM⟩⟩
  case unassigned =>
    have hmask : ∀ n : Fin 4, slotMask [n.val] = 1 <<< n.val := by decide
    exact congrArg (fun m => Host.Outcome.next (takeTrap s.cur 0x01 0 m s)) (hmask n)
  case decodeC => exact (decodeSlot_opcode_zero (sl := .c) hop).trans (if_neg hu)
  case decodeOther =>
    have hu : ¬ w.extractLsb' 0 25 = 0 := mt (unused_eq_zero_iff hop).mp hw
    have hlo := opcodeLo_of_ne_c hsl
    exact (decodeSlot_opcode_zero (by rwa [hlo])).trans (if_neg (by rwa [hlo]))
  case noops =>
    have hz : OpcodesZero b
      | .c => part_eq_zero hc
      | .v | .x | .m => part_eq_zero hr
    refine issueBundle_noops hz hroom ?_
    rw [illegalNoops, if_pos (part_eq_zero hc), if_pos (part_eq_zero hr), if_pos (part_eq_zero hr), if_pos (part_eq_zero hr)]
    rfl
  case badC =>
    have hz : OpcodesZero b
      | .c => hop
      | .v | .x | .m => part_eq_zero hr
    refine issueBundle_illegal_noop hz (n := 0) ?_ _ _
    rw [illegalNoops, if_neg hu, if_pos (part_eq_zero hr), if_pos (part_eq_zero hr), if_pos (part_eq_zero hr)]
    rfl
  case badV =>
    have hz : OpcodesZero b
      | .c => part_eq_zero hc
      | .v => hop
      | .x | .m => part_eq_zero hr
    refine issueBundle_illegal_noop hz (n := 1) ?_ _ _
    rw [illegalNoops, if_pos (part_eq_zero hc), if_neg hu, if_pos (part_eq_zero hr), if_pos (part_eq_zero hr)]
    rfl
  case badX =>
    have hz : OpcodesZero b
      | .c | .v => part_eq_zero hc
      | .x => hop
      | .m => part_eq_zero hr
    refine issueBundle_illegal_noop hz (n := 2) ?_ _ _
    rw [illegalNoops, if_pos (part_eq_zero hc), if_pos (part_eq_zero hc), if_neg hu, if_pos (part_eq_zero hr)]
    rfl
  case badM =>
    have hz : OpcodesZero b
      | .c | .v | .x => part_eq_zero hr
      | .m => hop
    refine issueBundle_illegal_noop hz (n := 3) ?_ _ _
    rw [illegalNoops, if_pos (part_eq_zero hr), if_pos (part_eq_zero hr), if_pos (part_eq_zero hr), if_neg hu]
    rfl

end Sys2Proof.Machine
end

section
/-!
PROOF. The V-slot operations on predicates (R160 to R163): the two searches and the count of bits, what each operation commits, and
from these the obligation.
-/
namespace Sys2Proof.Machine

/-! ## Counting and searching bits -/

theorem popNat_eq_countP (x n : Nat) : popNat x n = (List.range n).countP x.testBit := by
  induction n with
  | zero => rfl
  | succ n ih => rw [popNat, ih, List.range_succ, List.countP_append, List.countP_singleton, Nat.add_comm]

section
variable {f : Nat → Bool}

theorem leastFrom_eq_none {i0 n : Nat} (h : leastFrom f i0 n = none) : ∀ i, i0 ≤ i → i < i0 + n → f i = false := by
  induction n generalizing i0 with
  | zero => intro i _ _; omega
  | succ n ih =>
    rw [leastFrom] at h
    split_ifs at h with h0
    intro i hle hlt
    rcases hle.eq_or_lt with rfl | hgt
    · exact Bool.eq_false_of_not_eq_true h0
    · exact ih h i hgt (by omega)

theorem leastFrom_eq_some {i0 n k : Nat} (h : leastFrom f i0 n = some k) :
    k < i0 + n ∧ f k = true ∧ ∀ i, i0 ≤ i → i < k → f i = false := by
  induction n generalizing i0 with
  | zero => exact nomatch h
  | succ n ih =>
    rw [leastFrom] at h
    split_ifs at h with h0
    · obtain rfl := Option.some.inj h
      exact ⟨by omega, h0, fun i _ _ => by omega⟩
    · obtain ⟨hk, hf, hbefore⟩ := ih h
      refine ⟨by omega, hf, fun i hle hlt => ?_⟩
      rcases hle.eq_or_lt with rfl | hgt
      · exact Bool.eq_false_of_not_eq_true h0
      · exact hbefore i hgt hlt

theorem greatestBelow_eq_none {n : Nat} (h : greatestBelow f n = none) : ∀ i < n, f i = false := by
  induction n with
  | zero => intro i _; omega
  | succ n ih =>
    rw [greatestBelow] at h
    split_ifs at h with hn
    intro i hi
    rcases Nat.lt_succ_iff_lt_or_eq.mp hi with hlt | rfl
    · exact ih h i hlt
    · exact Bool.eq_false_of_not_eq_true hn

theorem greatestBelow_eq_some {n k : Nat} (h : greatestBelow f n = some k) :
    k < n ∧ f k = true ∧ ∀ i, k < i → i < n → f i = false := by
  induction n with
  | zero => exact nomatch h
  | succ n ih =>
    rw [greatestBelow] at h
    split_ifs at h with hn
    · obtain rfl := Option.some.inj h
      exact ⟨by omega, hn, fun i _ _ => by omega⟩
    · obtain ⟨hk, hf, hafter⟩ := ih h
      refine ⟨by omega, hf, fun i hgt hi => ?_⟩
      rcases Nat.lt_succ_iff_lt_or_eq.mp hi with hlt | rfl
      · exact hafter i hgt hlt
      · exact Bool.eq_false_of_not_eq_true hn

end

/-! ## The relations of VCMP (R160) -/

section
variable (u v : W32)

theorem vcmpRel_eq : vcmpRel 0 u v = (u == v) := rfl
theorem vcmpRel_ne : vcmpRel 1 u v = (u != v) := rfl
theorem vcmpRel_lt : vcmpRel 2 u v = decide (u.toInt < v.toInt) := rfl
theorem vcmpRel_le : vcmpRel 3 u v = decide (u.toInt ≤ v.toInt) := rfl
theorem vcmpRel_ltu : vcmpRel 4 u v = decide (u.toNat < v.toNat) := rfl
theorem vcmpRel_leu : vcmpRel 5 u v = decide (u.toNat ≤ v.toNat) := rfl
theorem vcmpRel_any : vcmpRel 6 u v = (u &&& v != 0) := rfl
theorem vcmpRel_none : vcmpRel 7 u v = (u &&& v == 0) := rfl

end

/-! ## What PCNT finds (R163) -/

theorem pcntVal_count (u : W64) : pcntVal 0 u = (List.range 64).countP fun i => u.getLsbD i :=
  popNat_eq_countP u.toNat 64

theorem pcntVal_first (u : W64) :
    pcntVal 1 u ≤ 64 ∧ (∀ i < pcntVal 1 u, u.getLsbD i = false) ∧ (pcntVal 1 u < 64 → u.getLsbD (pcntVal 1 u) = true) := by
  cases h : leastFrom (fun i => bit u i) 0 64 with
  | none =>
    have hval : pcntVal 1 u = 64 := congrArg (Option.getD · 64) h
    rw [hval]
    exact ⟨le_rfl, fun i hi => leastFrom_eq_none h i i.zero_le (by omega), fun hlt => absurd hlt (lt_irrefl 64)⟩
  | some k =>
    have hval : pcntVal 1 u = k := congrArg (Option.getD · 64) h
    obtain ⟨hk, hset, hbefore⟩ := leastFrom_eq_some h
    rw [hval]
    exact ⟨by omega, fun i hi => hbefore i i.zero_le hi, fun _ => hset⟩

theorem pcntVal_last (u : W64) :
    (u = 0 → pcntVal 2 u = 64)
      ∧ (u ≠ 0 → pcntVal 2 u < 64 ∧ u.getLsbD (pcntVal 2 u) = true ∧ ∀ i, pcntVal 2 u < i → i < 64 → u.getLsbD i = false) := by
  cases h : greatestBelow (fun i => bit u i) 64 with
  | none =>
    have hzero : u = 0 := BitVec.eq_of_getLsbD_eq fun i hi => (greatestBelow_eq_none h i hi).trans BitVec.getLsbD_zero.symm
    exact ⟨fun _ => congrArg (Option.getD · 64) h, fun hne => absurd hzero hne⟩
  | some k =>
    have hval : pcntVal 2 u = k := congrArg (Option.getD · 64) h
    obtain ⟨hk, hset, hafter⟩ := greatestBelow_eq_some h
    rw [hval]
    refine ⟨?_, fun _ => ⟨hk, hset, hafter⟩⟩
    rintro rfl
    exact absurd hset (by simp [bit])

/-! ## What the operations commit -/

/-- An operation completes with the commit it answers at issue, its lane mask the predicate that the guard field names (R80). -/
theorem completes_of_issueAlone {i : Instr} (hi : SlotAlone i) (c : W64 → State → Commit)
    (h : ∀ s, issueAlone i s = .ok (c (guardMask i s) s)) :
    Completes i fun s => c ((s.ctx s.cur).p (slotKey i).2.2.toNat) s := fun s hs =>
  exec_completes hi hs ((h s).trans (by rw [guardMask_eq]))

theorem slotAlone_of_slot_v {i : Instr} (h : (slotKey i).1 = 1) : SlotAlone i := by
  refine ⟨by rw [h]; decide, ?_⟩
  split
  · exact absurd h Nat.zero_ne_one
  · trivial

section
variable (q : BitVec 1) (g : BitVec 3) (p x y : BitVec 7) (d : BitVec 6) (a b : BitVec 5)

/-- VCMP writes its relation in every bit that the mask includes, zero in the others (R142, R160). -/
theorem completes_vcmp {c : BitVec 4} {f : W32 → W32 → Bool} (hf : ∀ u v, vcmpRel c.toNat u v = f u v) :
    Completes (.vcmp q g p a b c) fun s => toP s p
      (predOf fun i => ((s.ctx s.cur).p g.toNat).getLsbD i && f (lane (s.rv a) i) (lane (s.rv b) i)) (BitVec.allOnes 64) 2 q := by
  obtain rfl : vcmpRel c.toNat = f := funext fun u => funext (hf u)
  exact completes_of_issueAlone (slotAlone_of_slot_v rfl)
    (fun m s => toP s p (predOf fun i => m.getLsbD i && vcmpRel c.toNat (lane (s.rv a) i) (lane (s.rv b) i)) (BitVec.allOnes 64) 2 q)
    fun _ => rfl

/-- VFCMP with cc below 8 compares FP32 lanes under the lane mask (R161). -/
theorem completes_vfcmp_lanes {c : BitVec 4} (hc : c.toNat < 8) :
    Completes (.vfcmp q g p a b c) fun s => toP s p
      (predOf fun i => ((s.ctx s.cur).p g.toNat).getLsbD i && fcmp32 c.toNat (lane (s.rv a) i) (lane (s.rv b) i))
      (BitVec.allOnes 64) 4 q :=
  completes_of_issueAlone (slotAlone_of_slot_v rfl)
    (fun m s => toP s p (predOf fun i => m.getLsbD i && fcmp32 c.toNat (lane (s.rv a) i) (lane (s.rv b) i)) (BitVec.allOnes 64) 4 q)
    fun _ => if_pos hc

/-- VFCMP with cc from 8 on compares Ducat-64 elements under the element mask (R141, R161). -/
theorem completes_vfcmp_elems {c : BitVec 4} (hc : 8 ≤ c.toNat) :
    Completes (.vfcmp q g p a b c) fun s => toP s p
      (predOf fun i => bit (elemMask ((s.ctx s.cur).p g.toNat)) i && dkRel (c.toNat - 8) (elem (s.rv a) (i / 2)) (elem (s.rv b) (i / 2)))
      (BitVec.allOnes 64) 5 q :=
  completes_of_issueAlone (slotAlone_of_slot_v rfl)
    (fun m s => toP s p (predOf fun i => bit (elemMask m) i && dkRel (c.toNat - 8) (elem (s.rv a) (i / 2)) (elem (s.rv b) (i / 2)))
      (BitVec.allOnes 64) 5 q)
    fun _ => if_neg (not_lt.mpr hc)

/-- An operation of the V slot that answers at issue as a bitwise operation of two predicates merges its result under the mask (R162). -/
theorem completes_pred2 {i : Instr} {g : BitVec 3} {op : W64 → W64 → W64} (hi : slotKey i = (1, 0, g))
    (h : ∀ s, issueAlone i s = pred2 (alone i s).env q p x y op s) :
    Completes i fun s => toP s p (op (s.rp x) (s.rp y)) ((s.ctx s.cur).p g.toNat) 1 q := by
  have hc := completes_of_issueAlone (slotAlone_of_slot_v (by rw [hi])) (fun m s => toP s p (op (s.rp x) (s.rp y)) m 1 q) h
  rwa [hi] at hc

/-- PCNT lands what it finds in its operand under the mask (R163). -/
theorem completes_pcnt (k : BitVec 8) :
    Completes (.pcnt q g d x k) fun s => onCtx s fun z =>
      z.land (.s d.toNat) ((BitVec.ofNat 64 (pcntVal k.toNat (s.rp x &&& (s.ctx s.cur).p g.toNat)) : W64).setWidth 2048)
        (BitVec.allOnes 64) 1 (q == 1) none :=
  completes_of_issueAlone (slotAlone_of_slot_v rfl)
    (fun m s => onCtx s fun z => z.land (.s d.toNat) ((BitVec.ofNat 64 (pcntVal k.toNat (s.rp x &&& m)) : W64).setWidth 2048)
      (BitVec.allOnes 64) 1 (q == 1) none)
    fun _ => rfl

end

/-- Settles O31, from what each operation commits and what the searches of PCNT find. -/
theorem predicateForms : Obligations.PredicateForms := by
  intro q g p x y d a b c m cmp two cnt
  have compare {k : BitVec 4} {f : W32 → W32 → Bool} (hf : ∀ u v, vcmpRel k.toNat u v = f u v) : cmp k f := completes_vcmp q g p a b hf
  have find {k : BitVec 8} {f : W64 → Nat → Prop} (hf : ∀ u, f u (pcntVal k.toNat u)) : cnt k f := fun s hs =>
    ⟨_, hf _, completes_pcnt q g x d k s hs⟩
  have merge {i : Instr} {op : W64 → W64 → W64} (hi : slotKey i = (1, 0, g))
      (h : ∀ s, issueAlone i s = pred2 (alone i s).env q p x y op s) : two i op := completes_pred2 q p x y hi h
  -- Each clause below is matched by the statement's own abbreviation, not by what it stands for.
  clear_value cmp two cnt
  refine ⟨compare vcmpRel_eq, compare vcmpRel_ne, compare vcmpRel_lt, compare vcmpRel_le, compare vcmpRel_ltu, compare vcmpRel_leu,
    compare vcmpRel_any, compare vcmpRel_none, completes_vfcmp_lanes q g p a b, completes_vfcmp_elems q g p a b,
    ?and, ?or, ?xor, ?andn, fun z v u => ⟨z.write_p0 v u, z.p_zero⟩, ?count, ?first, ?last⟩
  case and | or | xor | andn => exact merge rfl fun _ => rfl
  case count => exact find pcntVal_count
  case first => exact find pcntVal_first
  case last => exact find pcntVal_last

end Sys2Proof.Machine
end

section
/-!
PROOF. The scalar operations of the C slot (R69, R331 to R337): the value each form lands, what an operation that lands one result
commits, and from these the four obligations.
-/
namespace Sys2Proof.Machine

/-! ## What an operation that lands one result commits -/

/-- The tree header is the one operation of slot C with a lone form of its own (R92), and it writes no register. -/
theorem slotAlone_of_slot_c {i : Instr} (hn : (slotKey i).1 = 0) (hd : destOf i ≠ []) : SlotAlone i := by
  refine ⟨by rw [hn]; decide, ?_⟩
  split
  · exact absurd rfl hd
  · trivial

section
variable {i : Instr} {s : State} {d : BitVec 6} {p : BitVec 7} {lat : Nat}

/-- A C-slot operation that answers at issue with a value for a scalar register completes with that value. -/
theorem exec_landS {x : W64} (hs : Issues i s) (h : issueAlone i s = landS s.env d x lat) (hn : (slotKey i).1 = 0 := by rfl)
    (hd : destOf i = [.s d.toNat] := by rfl) : exec i s = .next (done i (toS s d x lat) s) :=
  exec_completes (slotAlone_of_slot_c hn (by simp [hd])) hs h

theorem completesWhen_landS {P : State → Prop} {x y : State → W64} (h : ∀ s, issueAlone i s = landS s.env d (x s) lat)
    (hxy : ∀ s, P s → x s = y s) (hn : (slotKey i).1 = 0 := by rfl) (hd : destOf i = [.s d.toNat] := by rfl) :
    CompletesWhen i P fun s => toS s d (y s) lat := fun s hs hP =>
  exec_landS hs ((h s).trans (by rw [hxy s hP])) hn hd

theorem completes_landS {x y : State → W64} (h : ∀ s, issueAlone i s = landS s.env d (x s) lat) (hxy : ∀ s, x s = y s)
    (hn : (slotKey i).1 = 0 := by rfl) (hd : destOf i = [.s d.toNat] := by rfl) : Completes i fun s => toS s d (y s) lat := fun s hs =>
  completesWhen_landS (P := fun _ => True) h (fun s _ => hxy s) hn hd s hs trivial

/-- A C-slot operation that answers at issue with 64 bits for a predicate completes with them under every lane (R336). -/
theorem completes_landP {x : State → W64}
    (h : ∀ s, issueAlone i s = commitCtx s.cur fun c => c.landP p (x s) (BitVec.allOnes 64) 1 false)
    (hn : (slotKey i).1 = 0 := by rfl) (hd : destOf i = [.p p.toNat] := by rfl) :
    Completes i fun s => toP s p (x s) (BitVec.allOnes 64) 1 0 := fun s hs =>
  exec_completes (slotAlone_of_slot_c hn (by simp [hd])) hs (h s)

end

/-! ## Values of the register forms (R331) -/

section
variable (x y : W64)

theorem add_word : sx32 (lo32 x + lo32 y) = sx (x + y) := by
  rw [lo32, lo32, ← BitVec.setWidth_add x y (by decide)]
  rfl

theorem sub_word : sx32 (lo32 x - lo32 y) = sx (x - y) := by
  have hneg : lo32 (-y) = -lo32 y := BitVec.setWidth_neg_of_le (by decide)
  rw [BitVec.sub_eq_add_neg, BitVec.sub_eq_add_neg, ← hneg, add_word]

/-- The `.w` forms take their amount from bits 4:0 of the whole register. -/
theorem amt32_lo32 : amt32 (lo32 y) = y.toNat % 32 := by
  rw [amt32, lo32, BitVec.toNat_setWidth]
  omega

theorem shl_word : sx32 (lo32 x <<< amt32 (lo32 y)) = sx (x <<< (y.toNat % 32)) := by
  rw [amt32_lo32, lo32, ← BitVec.setWidth_shiftLeft_of_le (by decide)]
  rfl

theorem shr_word : sx32 (lo32 x >>> amt32 (lo32 y)) = sx (x.extractLsb' 0 32 >>> (y.toNat % 32) |>.setWidth 64) := by
  rw [amt32_lo32, lo32, BitVec.setWidth_eq_extractLsb' (by decide), sx, BitVec.setWidth_setWidth_of_le _ (by decide), BitVec.setWidth_eq]
  rfl

/-- Sign extension keeps the number, so it commutes with a shift that divides the number. -/
theorem sar_word : sx32 ((lo32 x).sshiftRight (amt32 (lo32 y))) = (sx x).sshiftRight (y.toNat % 32) := by
  apply BitVec.eq_of_toInt_eq
  rw [amt32_lo32, sx32, sx, BitVec.toInt_signExtend_of_le (by decide), BitVec.toInt_sshiftRight, BitVec.toInt_sshiftRight,
    BitVec.toInt_signExtend_of_le (by decide)]
  rfl

theorem rot_word :
    sx32 ((lo32 x).rotateLeft (amt32 (lo32 y))) = ((x.setWidth 32 : W32).rotateLeft (y.toNat % 32)).signExtend 64 := by
  rw [amt32_lo32]
  rfl

theorem upper_half_ofInt (z : Int) : (BitVec.ofInt 128 z).extractLsb' 64 64 = BitVec.ofInt 64 (z / 2 ^ 64) := by
  apply BitVec.eq_of_toNat_eq
  rw [BitVec.extractLsb'_toNat, BitVec.toNat_ofInt, BitVec.toNat_ofInt, Nat.shiftRight_eq_div_pow]
  omega

theorem mulVal_high_signed : mulVal 1 x y = (x.signExtend 128 * y.signExtend 128).extractLsb' 64 64 := by
  have hprod : x.signExtend 128 * y.signExtend 128 = BitVec.ofInt 128 (x.toInt * y.toInt) := (BitVec.ofInt_mul ..).symm
  rw [hprod, upper_half_ofInt]
  rfl

theorem mulVal_high_unsigned : mulVal 2 x y = (x.setWidth 128 * y.setWidth 128).extractLsb' 64 64 := by
  have hprod : x.setWidth 128 * y.setWidth 128 = BitVec.ofInt 128 (x.toNat * y.toNat : Nat) := by
    rw [BitVec.ofInt_natCast, BitVec.ofNat_mul, BitVec.ofNat_toNat, BitVec.ofNat_toNat]
  rw [hprod, upper_half_ofInt]
  exact (BitVec.ofInt_natCast ..).symm

theorem minVal_signed : minVal 0 x y = if y.toInt < x.toInt then y else x := by simp [minVal, BitVec.slt_iff_toInt_lt]
theorem minVal_unsigned : minVal 1 x y = if y.toNat < x.toNat then y else x := by simp [minVal, BitVec.ult_iff_lt, BitVec.lt_def]
theorem maxVal_signed : maxVal 0 x y = if x.toInt < y.toInt then y else x := by simp [maxVal, BitVec.slt_iff_toInt_lt]
theorem maxVal_unsigned : maxVal 1 x y = if x.toNat < y.toNat then y else x := by simp [maxVal, BitVec.ult_iff_lt, BitVec.lt_def]

end

/-- Settles O10, from the value each form lands. -/
theorem scalarRegisterForms : Obligations.ScalarRegisterForms := by
  intro e g d a b
  refine ⟨⟨?add, ?addW⟩, ⟨?sub, ?subW⟩, ?and, ?or, ?xor, ?andn, ⟨?shl, ?shlW⟩, ⟨?shr, ?shrW⟩, ⟨?sar, ?sarW⟩, ⟨?rot, ?rotW⟩,
    ⟨?mul, ?mulHigh, ?mulHighU, ?mulW⟩, ⟨?min, ?minU⟩, ?max, ?maxU, fun c v m => ⟨c.write_s0 v m, c.s_zero⟩⟩
  case add | sub | and | or | xor | andn | shl | shr | sar | rot | mul | mulW => exact completes_landS (fun _ => rfl) fun _ => rfl
  case addW => exact completes_landS (fun _ => rfl) fun _ => add_word ..
  case subW => exact completes_landS (fun _ => rfl) fun _ => sub_word ..
  case shlW => exact completes_landS (fun _ => rfl) fun _ => shl_word ..
  case shrW => exact completes_landS (fun _ => rfl) fun _ => shr_word ..
  case sarW => exact completes_landS (fun _ => rfl) fun _ => sar_word ..
  case rotW => exact completes_landS (fun _ => rfl) fun _ => rot_word ..
  case mulHigh => exact completes_landS (fun _ => rfl) fun _ => mulVal_high_signed ..
  case mulHighU => exact completes_landS (fun _ => rfl) fun _ => mulVal_high_unsigned ..
  case min => exact completes_landS (fun _ => rfl) fun _ => minVal_signed ..
  case minU => exact completes_landS (fun _ => rfl) fun _ => minVal_unsigned ..
  case max => exact completes_landS (fun _ => rfl) fun _ => maxVal_signed ..
  case maxU => exact completes_landS (fun _ => rfl) fun _ => maxVal_unsigned ..

/-! ## Division (R332) -/

theorem divVal_zero (f : BitVec 3) (x : W64) : divVal f x 0 = if f.toNat ≤ 1 then BitVec.allOnes 64 else x := if_pos rfl

section
variable {y : W64} (x : W64) (hy : y ≠ 0)
include hy

theorem divVal_quot : divVal 0 x y = BitVec.ofInt 64 (x.toInt.tdiv y.toInt) := if_neg hy
theorem divVal_quotU : divVal 1 x y = BitVec.ofNat 64 (x.toNat / y.toNat) := (if_neg hy).trans BitVec.udiv_def
theorem divVal_rem : divVal 2 x y = BitVec.ofInt 64 (x.toInt.tmod y.toInt) := if_neg hy
theorem divVal_remU : divVal 3 x y = BitVec.ofNat 64 (x.toNat % y.toNat) := (if_neg hy).trans BitVec.umod_def

end

/-- The one quotient that does not fit wraps to its dividend. -/
theorem divVal_overflow : divVal 0 (BitVec.ofInt 64 (-2 ^ 63)) (BitVec.allOnes 64) = BitVec.ofInt 64 (-2 ^ 63) := by decide

/-! ## Bit counts and reversals (R333) -/

section
variable (x : W64)

theorem exists_clz : ∃ n : Nat, bitcVal 0 x = BitVec.ofNat 64 n
    ∧ n ≤ 64 ∧ (∀ i < n, x.getLsbD (63 - i) = false) ∧ (n < 64 → x.getLsbD (63 - n) = true) := by
  by_cases hx : x = 0
  · subst hx
    exact ⟨64, rfl, le_rfl, fun _ _ => BitVec.getLsbD_zero, fun h => absurd h (lt_irrefl 64)⟩
  · have hne : x.toNat ≠ 0 := fun h => hx (BitVec.eq_of_toNat_eq h)
    have hlog : Nat.log2 x.toNat < 64 := (Nat.log2_lt hne).mpr x.isLt
    refine ⟨63 - Nat.log2 x.toNat, congrArg (BitVec.ofNat 64) (if_neg hx), by omega, fun i hi => ?_, fun _ => ?_⟩
    · exact Nat.testBit_lt_two_pow (Nat.lt_log2_self.trans_le (Nat.pow_le_pow_right (by decide) (by omega)))
    · rw [show 63 - (63 - Nat.log2 x.toNat) = Nat.log2 x.toNat by omega]
      exact Nat.testBit_log2 hne

/-- CTZ counts up to the first set bit, which PCNT finds too (R163). -/
theorem exists_ctz : ∃ n : Nat, bitcVal 1 x = BitVec.ofNat 64 n
    ∧ n ≤ 64 ∧ (∀ i < n, x.getLsbD i = false) ∧ (n < 64 → x.getLsbD n = true) := ⟨pcntVal 1 x, rfl, pcntVal_first x⟩

theorem bitcVal_popc : bitcVal 2 x = BitVec.ofNat 64 ((List.range 64).countP fun i => x.getLsbD i) :=
  congrArg (BitVec.ofNat 64) (pcntVal_count x)

/-- Part `i` of the parts in reverse order is part `n - 1 - i`. -/
theorem part_reverseParts {k : Nat} (x : BitVec k) (w : Nat) {n i : Nat} (h : i < n) :
    (BitVec.ofNat (w * n) (reverseParts w n x.toNat)).extractLsb' (w * i) w = x.extractLsb' (w * (n - 1 - i)) w := by
  rw [← Laws.part_ofNat (fun i => x.extractLsb' (w * (n - 1 - i)) w) h]
  simp only [reverseParts, BitVec.extractLsb'_toNat, Nat.shiftRight_eq_div_pow]

theorem bitcVal_brev {i : Nat} (h : i < 64) : (bitcVal 3 x).getLsbD i = x.getLsbD (63 - i) := by
  have hbit := congrArg (fun v : BitVec 1 => v.getLsbD 0) (part_reverseParts x 1 h)
  change (BitVec.ofNat 64 (reverseParts 1 64 x.toNat)).getLsbD i = _
  simpa using hbit

theorem bitcVal_bswap {i : Nat} (h : i < 8) : (bitcVal 4 x).extractLsb' (8 * i) 8 = x.extractLsb' (8 * (7 - i)) 8 :=
  part_reverseParts x 8 h

end

theorem exec_bitc {e : BitVec 1} {g : BitVec 3} {d a : BitVec 6} {f : BitVec 3} {s : State} (hs : Issues (.bitc e g d a f) s) :
    exec (.bitc e g d a f) s = .next (done (.bitc e g d a f) (toS s d (bitcVal f (s.rs a)) 1) s) := exec_landS hs rfl

/-- Settles O11, from the values of the divisions and of the counts. -/
theorem divisionAndBitCounts : Obligations.DivisionAndBitCounts := by
  intro e g d a b
  refine ⟨fun f _ => ?byZero, ?quot, ?quotU, ?rem, ?remU, ?overflow, fun s hs => ?clz, fun s hs => ?ctz, ?popc,
    fun s hs => ⟨_, exec_bitc hs, fun i => bitcVal_brev (s.rs a)⟩, fun s hs => ⟨_, exec_bitc hs, fun i => bitcVal_bswap (s.rs a)⟩⟩
  case byZero => exact completesWhen_landS (fun _ => rfl) fun s hb => (congrArg (divVal f _) hb).trans (divVal_zero ..)
  case quot => exact completesWhen_landS (fun _ => rfl) fun _ => divVal_quot _
  case quotU => exact completesWhen_landS (fun _ => rfl) fun _ => divVal_quotU _
  case rem => exact completesWhen_landS (fun _ => rfl) fun _ => divVal_rem _
  case remU => exact completesWhen_landS (fun _ => rfl) fun _ => divVal_remU _
  case overflow => exact completesWhen_landS (fun _ => rfl) fun s ⟨ha, hb⟩ => (congrArg₂ (divVal 0) ha hb).trans divVal_overflow
  case clz =>
    obtain ⟨n, hval, hn⟩ := exists_clz (s.rs a)
    exact ⟨n, hval ▸ exec_bitc hs, hn⟩
  case ctz =>
    obtain ⟨n, hval, hn⟩ := exists_ctz (s.rs a)
    exact ⟨n, hval ▸ exec_bitc hs, hn⟩
  case popc => exact completes_landS (fun _ => rfl) fun _ => bitcVal_popc _

/-! ## Immediate forms (R69, R334, R335) -/

theorem lis_value (x : W64) (w : BitVec 15) : (x <<< 15) ||| zext64 w = x.extractLsb' 0 49 ++ w := by
  apply BitVec.eq_of_getLsbD_eq
  intro i hi
  rw [BitVec.getLsbD_append]
  by_cases h : i < 15
  · simp [zext64, hi, h]
  · have hx : i - 15 < 49 := by omega
    simp [zext64, hi, h, hx, BitVec.getLsbD_of_ge w i (not_lt.mp h), -BitVec.getLsbD_eq_getElem]

/-- A field under a mask that covers it is the field of what the mask leaves. -/
theorem field_of_masked {x m v : W32} {lo n : Nat} (h : x &&& m = v) (hm : m.extractLsb' lo n = BitVec.allOnes n) :
    x.extractLsb' lo n = v.extractLsb' lo n := by
  rw [← h, BitVec.extractLsb'_and, hm, BitVec.and_allOnes]

/-- A word that differs from its row of the opcode table in a field the row fixes is refused (R85). -/
theorem decodeSlot_fixed_field_ne {sl : Slot} {w m v : W32} {i : Instr} {lo n : Nat} (hrow : rowOf sl w = some i)
    (hm : encode i &&& m = v) (hfix : m.extractLsb' lo n = BitVec.allOnes n) (hne : w.extractLsb' lo n ≠ v.extractLsb' lo n) :
    decodeSlot sl w = .error .reservedField := by
  have he : encode i ≠ w := by
    rintro rfl
    exact hne (field_of_masked hm hfix)
  simp only [decodeSlot, hrow, he, ne_eq, not_false_eq_true, if_true]

/-- A shift amount of more than 6 bits is refused (R334). -/
theorem decodeSlot_long_shift {w : W32} (hlo : 0x14 ≤ (w.extractLsb' 24 7).toNat) (hhi : (w.extractLsb' 24 7).toNat ≤ 0x16)
    (hne : w.extractLsb' 6 3 ≠ 0) : decodeSlot .c w = .error .reservedField := by
  have hop : (w.extractLsb' 24 7).toNat = 0x14 ∨ (w.extractLsb' 24 7).toNat = 0x15 ∨ (w.extractLsb' 24 7).toNat = 0x16 := by omega
  rcases hop with h | h | h
  · exact decodeSlot_fixed_field_ne (by simp only [rowOf, rowC, fld, h]; rfl) (Laws.TableMatch.shli _ _ _ _ _ _ rfl) (by decide) hne
  · exact decodeSlot_fixed_field_ne (by simp only [rowOf, rowC, fld, h]; rfl) (Laws.TableMatch.shri _ _ _ _ _ _ rfl) (by decide) hne
  · exact decodeSlot_fixed_field_ne (by simp only [rowOf, rowC, fld, h]; rfl) (Laws.TableMatch.sari _ _ _ _ _ _ rfl) (by decide) hne

/-- Settles O12: each immediate form lands the value its issue computes, and only LIS spells it otherwise. -/
theorem scalarImmediateForms : Obligations.ScalarImmediateForms := by
  intro e g d a i n w
  refine ⟨?addi, ?andi, ?ori, ?xori, ?shli, ?shri, ?sari, ?muli, ?li, ?lis, ?addpc, rfl, fun _ => decodeSlot_long_shift⟩
  case lis => exact completes_landS (fun _ => rfl) fun _ => lis_value ..
  case addi | andi | ori | xori | shli | shri | sari | muli | li | addpc => exact completes_landS (fun _ => rfl) fun _ => rfl

/-! ## Compares (R336, R337) -/

/-- Settles O13: each compare answers at issue with its relation, spread over the predicate. -/
theorem scalarCompares : Obligations.ScalarCompares := by
  intro e g p a b rel imm
  have compare {i : Instr} {r : State → Bool} (h : ∀ s, issueAlone i s = landRel s.env p (r s)) (hn : (slotKey i).1 = 0 := by rfl)
      (hd : destOf i = [.p p.toNat] := by rfl) : Completes i fun s => rel s (r s) := completes_landP h hn hd
  refine ⟨⟨?eq, ?ne, ?lt, ?le⟩, ⟨?ltu, ?leu, ?any, ?none⟩, ⟨?eqImm, ?neImm, ?ltImm, ?leImm⟩, ?pfrom,
    fun c v m => ⟨c.write_p0 v m, c.p_zero⟩⟩
  case pfrom => exact completes_landP fun _ => rfl
  case eq | ne | lt | le | ltu | leu | any | none | eqImm | neImm | ltImm | leImm => exact compare fun _ => rfl

end Sys2Proof.Machine
end

section
/-!
PROOF. Slot words and the operations they stand for (R76 to R99): what a field of a word composed of fields is, and from it that
decoding and encoding are inverse.
-/
set_option Elab.async false
namespace Sys2Proof.Machine

/-! ## Fields of a composed word -/

theorem fld_or {k : Nat} (x y : BitVec k) (lo n : Nat) : fld (x ||| y) lo n = fld x lo n ||| fld y lo n := BitVec.extractLsb'_or

/-- A field reads back where it was put. -/
@[simp] theorem fld_put_same {n lo : Nat} (x : BitVec n) (h : lo + n ≤ 32) : fld (put x lo) lo n = x := by
  apply BitVec.eq_of_getLsbD_eq
  intro i hi
  simp [fld, put, hi, show lo + i < 32 by omega, show ¬ lo + i < lo by omega]

/-- A field leaves zero in every field that lies below or above it. -/
@[simp] theorem fld_put_apart {n lo lo' n' : Nat} (x : BitVec n) (h : lo' + n' ≤ lo ∨ lo + n ≤ lo') : fld (put x lo) lo' n' = 0 := by
  apply BitVec.eq_of_getLsbD_eq
  intro i hi
  rcases h with h | h
  · simp [fld, put, show lo' + i < lo by omega]
  · simp [fld, put, BitVec.getLsbD_of_ge x (lo' + i - lo) (by omega)]

/-- The low bits of a field. -/
theorem fld_put_low {n lo n' : Nat} (x : BitVec n) (h : lo + n ≤ 32) (hn : n' ≤ n) : fld (put x lo) lo n' = x.extractLsb' 0 n' := by
  have hx := congrArg (fun y : BitVec n => y.extractLsb' 0 n') (fld_put_same x h)
  rwa [fld, field_of_field _ (by omega)] at hx

@[simp] theorem fld_ofNat {k : Nat} (x lo n : Nat) (h : lo + n ≤ k): fld (BitVec.ofNat k x) lo n = BitVec.ofNat n (x / 2 ^ lo) := by
  apply BitVec.eq_of_getLsbD_eq
  intro i hi
  have hk : lo + i < k := by omega
  simp [fld, hi, hk, BitVec.getLsbD_ofNat, Nat.testBit_div_two_pow, Nat.add_comm i lo, -BitVec.getLsbD_eq_getElem]

@[simp] theorem fld_or_put_apart {n lo lo' n' : Nat} (w : W32) (x : BitVec n) (h : lo' + n' ≤ lo ∨ lo + n ≤ lo') :
    fld (w ||| put x lo) lo' n' = fld w lo' n' := by
  rw [fld_or, fld_put_apart x h]; exact BitVec.or_zero

@[simp] theorem fld_or_put_same {n lo : Nat} (w : W32) (x : BitVec n) (h : lo + n ≤ 32) (hw : fld w lo n = 0) : fld (w ||| put x lo) lo n = x := by
  rw [fld_or, fld_put_same x h, hw]; exact BitVec.zero_or

/-! ## The row of an encoded operation -/

theorem rowC_encode_low :
    (∀ e, rowOf .c (encode (.nop e)) = some (.nop e))
    ∧ (∀ C ∈ [Instr.add, .sub, .shl, .shr, .sar, .rot, .mul, .div, .min, .max], ∀ e g d a b f,
      rowOf .c (encode (C e g d a b f)) = some (C e g d a b f))
    ∧ (∀ C ∈ [Instr.and, .or, .xor, .andn, .shli, .shri, .sari], ∀ e g d a b,
      rowOf .c (encode (C e g d a b)) = some (C e g d a b))
    ∧ (∀ e g d a f, rowOf .c (encode (.bitc e g d a f)) = some (.bitc e g d a f)) := by
  simp only [List.forall_mem_cons, List.not_mem_nil, false_implies, implies_true, and_true]
  and_intros
  all_goals
    intros
    delta encode
    dsimp only
    simp [rowOf, rowC]

theorem rowC_encode_mid :
    (∀ C ∈ [Instr.addi, .andi, .ori, .xori, .muli], ∀ e g d a i,
      rowOf .c (encode (C e g d a i)) = some (C e g d a i))
    ∧ (∀ C ∈ [Instr.li, .lis, .addpc, .loop], ∀ e g d i,
      rowOf .c (encode (C e g d i)) = some (C e g d i))
    ∧ (∀ C ∈ [Instr.cmp, .cmpu, .cmpi], ∀ e g p a b c,
      rowOf .c (encode (C e g p a b c)) = some (C e g p a b c))
    ∧ (∀ C ∈ [Instr.pfrom, .savec, .loadc], ∀ e g p a,
      rowOf .c (encode (C e g p a)) = some (C e g p a))
    ∧ (∀ C ∈ [Instr.br, .call, .trap, .sysc, .brk], ∀ e g d,
      rowOf .c (encode (C e g d)) = some (C e g d)) := by
  simp only [List.forall_mem_cons, List.not_mem_nil, false_implies, implies_true, and_true]
  and_intros
  all_goals
    intros
    delta encode
    dsimp only
    simp [rowOf, rowC]

theorem rowC_encode_high :
    (∀ e g k, rowOf .c (encode (.brb e g k)) = some (.brb e g k))
    ∧ (∀ C ∈ [Instr.ret, .yield, .exit, .rfe], ∀ e g,
      rowOf .c (encode (C e g)) = some (C e g))
    ∧ (∀ e g k d, rowOf .c (encode (.lbt e g k d)) = some (.lbt e g k d))
    ∧ (∀ e g k s f, rowOf .c (encode (.movb e g k s f)) = some (.movb e g k s f))
    ∧ (∀ C ∈ [Instr.csrd, .cswr], ∀ e g r s,
      rowOf .c (encode (C e g r s)) = some (C e g r s))
    ∧ (∀ e g m s, rowOf .c (encode (.mpset e g m s)) = some (.mpset e g m s))
    ∧ (∀ C ∈ [Instr.tcset, .tcget], ∀ e g t s,
      rowOf .c (encode (C e g t s)) = some (C e g t s))
    ∧ (∀ e g d a, rowOf .c (encode (.grow e g d a)) = some (.grow e g d a))
    ∧ (∀ C ∈ [Instr.bar, .barW, .barAw], ∀ e g n,
      rowOf .c (encode (C e g n)) = some (C e g n))
    ∧ (∀ e h q b x y z, rowOf .c (encode (.hdrT e h q b x y z)) = some (.hdrT e h q b x y z))
    ∧ (∀ e l1 l2 l3, rowOf .c (encode (.hdrX e l1 l2 l3)) = some (.hdrX e l1 l2 l3)) := by
  simp only [List.forall_mem_cons, List.not_mem_nil, false_implies, implies_true, and_true]
  and_intros
  all_goals
    intros
    delta encode
    dsimp only
    simp [rowOf, rowC]

theorem rowV_encode_low :
    (∀ C ∈ [Instr.vadd, .vsub, .vmul, .vmin, .vmax, .vfmin, .vfmax, .vdadd, .vdmax, .vperm, .vshuf, .vrng], ∀ q g d a b m,
      rowOf .v (encode (C q g d a b m)) = some (C q g d a b m)) := by
  simp only [List.forall_mem_cons, List.not_mem_nil, false_implies, implies_true, and_true]
  and_intros
  all_goals
    intros
    delta encode
    dsimp only
    simp [rowOf, rowV]

theorem rowV_encode_mid :
    (∀ C ∈ [Instr.vand, .vor, .vxor, .vshl, .vshr, .vsar, .vfadd, .vfsub, .vfmul, .vdmul, .vnib], ∀ q g d a b,
      rowOf .v (encode (C q g d a b)) = some (C q g d a b))
    ∧ (∀ C ∈ [Instr.vadds, .vmuls, .vins], ∀ q g d a s m,
      rowOf .v (encode (C q g d a s m)) = some (C q g d a s m))
    ∧ (∀ q g d i, rowOf .v (encode (.vli q g d i)) = some (.vli q g d i))
    ∧ (∀ q g d a b c m, rowOf .v (encode (.vfma q g d a b c m)) = some (.vfma q g d a b c m))
    ∧ (∀ C ∈ [Instr.vfrcp, .vfrsq, .vfexp2, .vflog2, .vmov], ∀ q g d a,
      rowOf .v (encode (C q g d a)) = some (C q g d a)) := by
  simp only [List.forall_mem_cons, List.not_mem_nil, false_implies, implies_true, and_true]
  and_intros
  all_goals
    intros
    delta encode
    dsimp only
    simp [rowOf, rowV]

theorem rowV_encode_high :
    (∀ C ∈ [Instr.vcvt, .vfclass, .vdscl, .vred, .vscan], ∀ q g d a m,
      rowOf .v (encode (C q g d a m)) = some (C q g d a m))
    ∧ (∀ q g d a m, rowOf .v (encode (.vdcvt q g d a m)) = some (.vdcvt q g d a m))
    ∧ (∀ q g d s m, rowOf .v (encode (.vbcast q g d s m)) = some (.vbcast q g d s m))
    ∧ (∀ q g d a l m, rowOf .v (encode (.vmovs q g d a l m)) = some (.vmovs q g d a l m))
    ∧ (∀ q g d m, rowOf .v (encode (.viota q g d m)) = some (.viota q g d m))
    ∧ (∀ C ∈ [Instr.vcmp, .vfcmp], ∀ q g p a b c,
      rowOf .v (encode (C q g p a b c)) = some (C q g p a b c))
    ∧ (∀ C ∈ [Instr.pand, .por, .pxor, .pandn], ∀ q g p a b,
      rowOf .v (encode (C q g p a b)) = some (C q g p a b))
    ∧ (∀ q g d a m, rowOf .v (encode (.pcnt q g d a m)) = some (.pcnt q g d a m))
    ∧ (∀ C ∈ [Instr.vqdeq, .vqnt], ∀ q g d a b m,
      rowOf .v (encode (C q g d a b m)) = some (C q g d a b m)) := by
  simp only [List.forall_mem_cons, List.not_mem_nil, false_implies, implies_true, and_true]
  and_intros
  all_goals
    intros
    delta encode
    dsimp only
    simp [rowOf, rowV]

theorem rowX_encode_low :
    (∀ g r a, rowOf .x (encode (.mcall g r a)) = some (.mcall g r a))
    ∧ (∀ C ∈ [Instr.bch, .ech, .mzero], ∀ g a,
      rowOf .x (encode (C g a)) = some (C g a))
    ∧ (∀ g a t n m, rowOf .x (encode (.mdrain g a t n m)) = some (.mdrain g a t n m))
    ∧ (∀ C ∈ [Instr.mspill, .mfill], ∀ g a t h,
      rowOf .x (encode (C g a t h)) = some (C g a t h))
    ∧ (∀ C ∈ [Instr.mpwr, .mpwrTab, .mprd, .mprdTab, .clpull, .clcfg], ∀ g t,
      rowOf .x (encode (C g t)) = some (C g t))
    ∧ (∀ g d m, rowOf .x (encode (.tzero g d m)) = some (.tzero g d m))
    ∧ (∀ g d a, rowOf .x (encode (.tcopy g d a)) = some (.tcopy g d a)) := by
  simp only [List.forall_mem_cons, List.not_mem_nil, false_implies, implies_true, and_true]
  and_intros
  all_goals
    intros
    delta encode
    dsimp only
    simp [rowOf, rowX]

theorem rowX_encode_mid :
    (∀ C ∈ [Instr.tv2t, .tt2v, .ckleaf, .cknode, .ckback, .cksamp, .ixwalk], ∀ g d a i,
      rowOf .x (encode (C g d a i)) = some (C g d a i))
    ∧ (∀ C ∈ [Instr.ckdiv, .ixsplit], ∀ g t r d,
      rowOf .x (encode (C g t r d)) = some (C g t r d))
    ∧ (∀ g d a b m, rowOf .x (encode (.asort g d a b m)) = some (.asort g d a b m))
    ∧ (∀ C ∈ [Instr.amrg, .cread], ∀ g k t s,
      rowOf .x (encode (C g k t s)) = some (C g k t s))
    ∧ (∀ g k m, rowOf .x (encode (.cclr g k m)) = some (.cclr g k m))
    ∧ (∀ g k s, rowOf .x (encode (.csamp g k s)) = some (.csamp g k s))
    ∧ (∀ g a n, rowOf .x (encode (.clpush g a n)) = some (.clpush g a n))
    ∧ (∀ g n, rowOf .x (encode (.clseal g n)) = some (.clseal g n))
    ∧ (∀ g, rowOf .x (encode (.clcfgEnd g)) = some (.clcfgEnd g)) := by
  simp only [List.forall_mem_cons, List.not_mem_nil, false_implies, implies_true, and_true]
  and_intros
  all_goals
    intros
    delta encode
    dsimp only
    simp [rowOf, rowX]

theorem rowM_encode_low :
    (∀ C ∈ [Instr.ldd, .ldw, .ldwu, .ldh, .ldhu, .ldb, .ldbu, .lddp], ∀ q g d b c f,
      rowOf .m (encode (C q g d b c f)) = some (C q g d b c f))
    ∧ (∀ C ∈ [Instr.std, .stw, .sth, .stb], ∀ g d b c f,
      rowOf .m (encode (C g d b c f)) = some (C g d b c f))
    ∧ (∀ C ∈ [Instr.vld, .vldp], ∀ q g d b c f,
      rowOf .m (encode (C q g d b c f)) = some (C q g d b c f))
    ∧ (∀ C ∈ [Instr.vst, .vstp], ∀ g d b c f,
      rowOf .m (encode (C g d b c f)) = some (C g d b c f))
    ∧ (∀ C ∈ [Instr.tld, .tst], ∀ g t b c,
      rowOf .m (encode (C g t b c)) = some (C g t b c)) := by
  simp only [List.forall_mem_cons, List.not_mem_nil, false_implies, implies_true, and_true]
  and_intros
  all_goals
    intros
    delta encode
    dsimp only
    simp [rowOf, rowM]

theorem rowM_encode_mid :
    (∀ C ∈ [Instr.tgath, .tscat, .tscadd], ∀ g t b c i v,
      rowOf .m (encode (C g t b c i v)) = some (C g t b c i v))
    ∧ (∀ C ∈ [Instr.aadd, .aaddw, .afadd, .adadd, .amax, .amin, .aor, .aand, .axchg, .acas, .waitm, .rinv, .rflush, .resv], ∀ g d b s o,
      rowOf .m (encode (C g d b s o)) = some (C g d b s o))
    ∧ (∀ C ∈ [Instr.fence, .sbar], ∀ g m k,
      rowOf .m (encode (C g m k)) = some (C g m k)) := by
  simp only [List.forall_mem_cons, List.not_mem_nil, false_implies, implies_true, and_true]
  and_intros
  all_goals
    intros
    delta encode
    dsimp only
    simp [rowOf, rowM]

theorem rowM_encode_high :
    (∀ C ∈ [Instr.cpy, .cpyq], ∀ g a b c,
      rowOf .m (encode (C g a b c)) = some (C g a b c))
    ∧ (∀ g a c, rowOf .m (encode (.cpyZero g a c)) = some (.cpyZero g a c))
    ∧ (∀ C ∈ [Instr.qpop, .qpopBind, .qstat, .qpush, .qpushBind, .xfuDecode, .xfuZorder, .xfuUnz, .xfuCopy,
      .xfuUnpack4, .xfuSave, .xfuLoad, .xfuAbort], ∀ g n d,
      rowOf .m (encode (C g n d)) = some (C g n d))
    ∧ (∀ g h, rowOf .m (encode (.rrel g h)) = some (.rrel g h))
    ∧ (∀ g, rowOf .m (encode (.rrelAll g)) = some (.rrelAll g))
    ∧ (∀ g p s, rowOf .m (encode (.movfp g p s)) = some (.movfp g p s)) := by
  simp only [List.forall_mem_cons, List.not_mem_nil, false_implies, implies_true, and_true]
  and_intros
  all_goals
    intros
    delta encode
    dsimp only
    simp [rowOf, rowM, movpRow]

/-! ## The slot of a row -/

theorem slotClass_of_rowC {w : W32} {i : Instr} (h : rowC w = some i) : slotClass i = some .c := by
  delta rowC at h
  repeat' split at h
  all_goals cases h
  all_goals rfl

theorem slotClass_of_rowV {w : W32} {i : Instr} (h : rowV w = some i) : slotClass i = some .v := by
  delta rowV at h
  repeat' split at h
  all_goals cases h
  all_goals rfl

theorem slotClass_of_rowX {w : W32} {i : Instr} (h : rowX w = some i) : slotClass i = some .x := by
  delta rowX at h
  repeat' split at h
  all_goals cases h
  all_goals rfl

theorem slotClass_of_movpRow {w : W32} {i : Instr} (h : movpRow w = some i) : slotClass i = some .m := by
  delta movpRow at h
  repeat' split at h
  all_goals cases h
  all_goals rfl

theorem slotClass_of_rowM {w : W32} {i : Instr} (h : rowM w = some i) : slotClass i = some .m := by
  delta rowM at h
  repeat' split at h
  case h_44 => exact slotClass_of_movpRow h
  all_goals cases h
  all_goals rfl

/-- What a row of a slot's map gives is an operation of the slot. -/
theorem slotClass_of_rowOf {sl : Slot} {w : W32} {i : Instr} (h : rowOf sl w = some i) : slotClass i = some sl := by
  cases sl
  case c => exact slotClass_of_rowC h
  case v => exact slotClass_of_rowV h
  case x => exact slotClass_of_rowX h
  case m => exact slotClass_of_rowM h

/-! ## Decoding what an operation encodes to -/

/-- The ports below 16 of a unit are operands, not triggers (R308, R313). -/
theorem movpRow_operand {w : W32} (h : (fld w 13 5).toNat < 16) : movpRow w = some (.movp (fld w 21 3) (fld w 13 8) (fld w 7 6)) := by
  delta movpRow
  split
  case h_9 => rfl
  all_goals omega

theorem rowM_encode_movp {g : BitVec 3} {p : BitVec 8} {s : BitVec 6} (hp : p.toNat % 32 < 16) :
    rowOf .m (encode (.movp g p s)) = some (.movp g p s) := by
  have hport : (fld (encode (.movp g p s)) 13 5).toNat < 16 := by
    delta encode
    simpa [fld_or, fld_put_low, BitVec.extractLsb'_toNat] using hp
  delta encode at hport ⊢
  dsimp only at hport ⊢
  simp [rowOf, rowM]
  exact (movpRow_operand hport).trans (by simp)

theorem rowOf_eq_of_slotClass {i : Instr} {sl sl' : Slot} {w : W32} (hs : slotClass i = some sl) (hr : rowOf sl' w = some i) :
    rowOf sl w = some i := by
  rw [slotClass_of_rowOf hr] at hs
  cases hs
  exact hr

theorem rowOf_encode {i : Instr} {sl : Slot} (hs : slotClass i = some sl) (hwf : i.wf = true) : rowOf sl (encode i) = some i := by
  obtain ⟨hNop, hAdd, hAnd, hBitc⟩ := rowC_encode_low
  obtain ⟨hAddi, hLi, hCmp, hPfrom, hBr⟩ := rowC_encode_mid
  obtain ⟨hBrb, hRet, hLbt, hMovb, hCsrd, hMpset, hTcset, hGrow, hBar, hHdrT, hHdrX⟩ := rowC_encode_high
  have hVadd := rowV_encode_low
  obtain ⟨hVand, hVadds, hVli, hVfma, hVfrcp⟩ := rowV_encode_mid
  obtain ⟨hVcvt, hVdcvt, hVbcast, hVmovs, hViota, hVcmp, hPand, hPcnt, hVqdeq⟩ := rowV_encode_high
  obtain ⟨hMcall, hBch, hMdrain, hMspill, hMpwr, hTzero, hTcopy⟩ := rowX_encode_low
  obtain ⟨hTv2t, hCkdiv, hAsort, hAmrg, hCclr, hCsamp, hClpush, hClseal, hClcfgEnd⟩ := rowX_encode_mid
  obtain ⟨hLdd, hStd, hVld, hVst, hTld⟩ := rowM_encode_low
  obtain ⟨hTgath, hAadd, hFence⟩ := rowM_encode_mid
  obtain ⟨hCpy, hCpyZero, hQpop, hRrel, hRrelAll, hMovfp⟩ := rowM_encode_high
  cases i
  case nop => exact rowOf_eq_of_slotClass hs (hNop ..)
  case add | sub | shl | shr | sar | rot | mul | div | min | max => exact rowOf_eq_of_slotClass hs (hAdd _ (by simp) ..)
  case and | or | xor | andn | shli | shri | sari => exact rowOf_eq_of_slotClass hs (hAnd _ (by simp) ..)
  case bitc => exact rowOf_eq_of_slotClass hs (hBitc ..)
  case addi | andi | ori | xori | muli => exact rowOf_eq_of_slotClass hs (hAddi _ (by simp) ..)
  case li | lis | addpc | loop => exact rowOf_eq_of_slotClass hs (hLi _ (by simp) ..)
  case cmp | cmpu | cmpi => exact rowOf_eq_of_slotClass hs (hCmp _ (by simp) ..)
  case pfrom | savec | loadc => exact rowOf_eq_of_slotClass hs (hPfrom _ (by simp) ..)
  case br | call | trap | sysc | brk => exact rowOf_eq_of_slotClass hs (hBr _ (by simp) ..)
  case brb => exact rowOf_eq_of_slotClass hs (hBrb ..)
  case ret | yield | exit | rfe => exact rowOf_eq_of_slotClass hs (hRet _ (by simp) ..)
  case lbt => exact rowOf_eq_of_slotClass hs (hLbt ..)
  case movb => exact rowOf_eq_of_slotClass hs (hMovb ..)
  case csrd | cswr => exact rowOf_eq_of_slotClass hs (hCsrd _ (by simp) ..)
  case mpset => exact rowOf_eq_of_slotClass hs (hMpset ..)
  case tcset | tcget => exact rowOf_eq_of_slotClass hs (hTcset _ (by simp) ..)
  case grow => exact rowOf_eq_of_slotClass hs (hGrow ..)
  case bar | barW | barAw => exact rowOf_eq_of_slotClass hs (hBar _ (by simp) ..)
  case hdrT => exact rowOf_eq_of_slotClass hs (hHdrT ..)
  case hdrX => exact rowOf_eq_of_slotClass hs (hHdrX ..)
  case vadd | vsub | vmul | vmin | vmax | vfmin | vfmax | vdadd | vdmax | vperm | vshuf | vrng =>
    exact rowOf_eq_of_slotClass hs (hVadd _ (by simp) ..)
  case vand | vor | vxor | vshl | vshr | vsar | vfadd | vfsub | vfmul | vdmul | vnib => exact rowOf_eq_of_slotClass hs (hVand _ (by simp) ..)
  case vadds | vmuls | vins => exact rowOf_eq_of_slotClass hs (hVadds _ (by simp) ..)
  case vli => exact rowOf_eq_of_slotClass hs (hVli ..)
  case vfma => exact rowOf_eq_of_slotClass hs (hVfma ..)
  case vfrcp | vfrsq | vfexp2 | vflog2 | vmov => exact rowOf_eq_of_slotClass hs (hVfrcp _ (by simp) ..)
  case vcvt | vfclass | vdscl | vred | vscan => exact rowOf_eq_of_slotClass hs (hVcvt _ (by simp) ..)
  case vdcvt => exact rowOf_eq_of_slotClass hs (hVdcvt ..)
  case vbcast => exact rowOf_eq_of_slotClass hs (hVbcast ..)
  case vmovs => exact rowOf_eq_of_slotClass hs (hVmovs ..)
  case viota => exact rowOf_eq_of_slotClass hs (hViota ..)
  case vcmp | vfcmp => exact rowOf_eq_of_slotClass hs (hVcmp _ (by simp) ..)
  case pand | por | pxor | pandn => exact rowOf_eq_of_slotClass hs (hPand _ (by simp) ..)
  case pcnt => exact rowOf_eq_of_slotClass hs (hPcnt ..)
  case vqdeq | vqnt => exact rowOf_eq_of_slotClass hs (hVqdeq _ (by simp) ..)
  case mcall => exact rowOf_eq_of_slotClass hs (hMcall ..)
  case bch | ech | mzero => exact rowOf_eq_of_slotClass hs (hBch _ (by simp) ..)
  case mdrain => exact rowOf_eq_of_slotClass hs (hMdrain ..)
  case mspill | mfill => exact rowOf_eq_of_slotClass hs (hMspill _ (by simp) ..)
  case mpwr | mpwrTab | mprd | mprdTab | clpull | clcfg => exact rowOf_eq_of_slotClass hs (hMpwr _ (by simp) ..)
  case tzero => exact rowOf_eq_of_slotClass hs (hTzero ..)
  case tcopy => exact rowOf_eq_of_slotClass hs (hTcopy ..)
  case tv2t | tt2v | ckleaf | cknode | ckback | cksamp | ixwalk => exact rowOf_eq_of_slotClass hs (hTv2t _ (by simp) ..)
  case ckdiv | ixsplit => exact rowOf_eq_of_slotClass hs (hCkdiv _ (by simp) ..)
  case asort => exact rowOf_eq_of_slotClass hs (hAsort ..)
  case amrg | cread => exact rowOf_eq_of_slotClass hs (hAmrg _ (by simp) ..)
  case cclr => exact rowOf_eq_of_slotClass hs (hCclr ..)
  case csamp => exact rowOf_eq_of_slotClass hs (hCsamp ..)
  case clpush => exact rowOf_eq_of_slotClass hs (hClpush ..)
  case clseal => exact rowOf_eq_of_slotClass hs (hClseal ..)
  case clcfgEnd => exact rowOf_eq_of_slotClass hs (hClcfgEnd ..)
  case ldd | ldw | ldwu | ldh | ldhu | ldb | ldbu | lddp => exact rowOf_eq_of_slotClass hs (hLdd _ (by simp) ..)
  case std | stw | sth | stb => exact rowOf_eq_of_slotClass hs (hStd _ (by simp) ..)
  case vld | vldp => exact rowOf_eq_of_slotClass hs (hVld _ (by simp) ..)
  case vst | vstp => exact rowOf_eq_of_slotClass hs (hVst _ (by simp) ..)
  case tld | tst => exact rowOf_eq_of_slotClass hs (hTld _ (by simp) ..)
  case tgath | tscat | tscadd => exact rowOf_eq_of_slotClass hs (hTgath _ (by simp) ..)
  case aadd | aaddw | afadd | adadd | amax | amin | aor | aand | axchg | acas | waitm | rinv | rflush | resv =>
    exact rowOf_eq_of_slotClass hs (hAadd _ (by simp) ..)
  case fence | sbar => exact rowOf_eq_of_slotClass hs (hFence _ (by simp) ..)
  case cpy | cpyq => exact rowOf_eq_of_slotClass hs (hCpy _ (by simp) ..)
  case cpyZero => exact rowOf_eq_of_slotClass hs (hCpyZero ..)
  case qpop | qpopBind | qstat | qpush | qpushBind | xfuDecode | xfuZorder | xfuUnz | xfuCopy | xfuUnpack4 | xfuSave | xfuLoad | xfuAbort =>
    exact rowOf_eq_of_slotClass hs (hQpop _ (by simp) ..)
  case rrel => exact rowOf_eq_of_slotClass hs (hRrel ..)
  case rrelAll => exact rowOf_eq_of_slotClass hs (hRrelAll ..)
  case movfp => exact rowOf_eq_of_slotClass hs (hMovfp ..)
  case movp => exact rowOf_eq_of_slotClass hs (rowM_encode_movp (of_decide_eq_true hwf).2)
  case vnop => exact rowOf_eq_of_slotClass (sl' := .v) hs rfl
  case xnop => exact rowOf_eq_of_slotClass (sl' := .x) hs rfl
  case mnop => exact rowOf_eq_of_slotClass (sl' := .m) hs rfl
  all_goals exact absurd hs nofun

theorem decodeSlot_encode {i : Instr} {sl : Slot} (hs : slotClass i = some sl) (hwf : i.wf = true) : decodeSlot sl (encode i) = .ok i := by
  simp [decodeSlot, rowOf_encode hs hwf, hwf]

theorem of_decodeSlot {sl : Slot} {w : W32} {i : Instr} (h : decodeSlot sl w = .ok i) :
    encode i = w ∧ i.wf = true ∧ slotClass i = some sl := by
  unfold decodeSlot at h
  split at h
  next => cases h
  next j hrow =>
    split at h
    next => cases h
    next henc =>
      split at h
      next hwf =>
        cases h
        exact ⟨not_not.mp henc, hwf, slotClass_of_rowOf hrow⟩
      next => cases h

/-- Settles O5: a word composed of fields gives each field back, so the row of an operation's word is the operation; and a decoded
word passed the comparison with its encoding. -/
theorem decodeAndEncodeAgree : Obligations.DecodeAndEncodeAgree :=
  ⟨fun _ _ => decodeSlot_encode, fun _ _ _ => of_decodeSlot⟩

end Sys2Proof.Machine
end

section
/-!
PROOF. Issue of a lone operation (R10, R46, R50, R54 to R56, R80, R103): the order of its checks, and what it can do.
-/
set_option Elab.async false
namespace Sys2Proof.Machine

/-! ## The checks of a lone operation (R103) -/

theorem conflicts_one (o : SlotOp) (h : conflicts [o] ≠ []) : conflicts [o] = [o.n] := by
  unfold conflicts at h ⊢
  rw [List.filter_cons] at h ⊢
  split at h <;> simp_all

theorem dependents_one {ws : List Name} (o : SlotOp) (h : dependents ws [o] ≠ []) : dependents ws [o] = [o.n] := by
  unfold dependents at h ⊢
  rw [List.filter_cons] at h ⊢
  split at h <;> simp_all

/-- Whether a context of a set refuses the slot of a lone operation (R63, R350). -/
theorem slips_one (g : Nat) (o : SlotOp) (s : State) :
    slips g [o] s = if ((s.ctx g).stream && slipsStream o.instr) = true then [o.n] else [] := by
  unfold slips
  cases (s.ctx g).stream <;> cases h : slipsStream o.instr <;> simp [h]

/-- Slots that are all one slot mark that slot alone. -/
theorem slotMask_same {n : Nat} {l : List Nat} (hne : l ≠ []) (h : ∀ k ∈ l, k = n) : slotMask l = slotMask [n] := by
  have hfold (l : List Nat) (m : BitVec 4) (hl : ∀ k ∈ l, k = n) (hm : m ||| 1#4 <<< n = m) : l.foldl (fun m i => m ||| (1#4 <<< i)) m = m := by
    induction l with
    | nil => rfl
    | cons k l ih =>
      obtain rfl := hl k (List.mem_cons_self ..)
      rw [List.foldl_cons, hm]
      exact ih fun j hj => hl j (List.mem_cons_of_mem _ hj)
  cases l with
  | nil => exact absurd rfl hne
  | cons k l =>
    obtain rfl := h k (List.mem_cons_self ..)
    exact hfold l _ (fun j hj => h j (List.mem_cons_of_mem _ hj)) (by rw [BitVec.or_assoc, BitVec.or_self])

section
variable {g : Nat} {stop : Bool} {ws : List Name} {o : SlotOp} {s : State}

theorem issueSlots_conflict (h : conflicts [o] ≠ []) : issueSlots g stop [] [o] s = takeTrap g 0x01 0 (slotMask [o.n]) s := by
  simp [issueSlots, conflicts_one o h, rfeBeside_one]

theorem issueSlots_slip (hc : conflicts [o] = []) (h : ((s.ctx g).stream && slipsStream o.instr) = true) :
    issueSlots g stop [] [o] s = takeTrap g 0x0C 0 (slotMask [o.n]) s := by
  rw [issueSlots, slips_one, if_pos h, hc, rfeBeside_one]
  rfl

theorem issueSlots_dependent (hc : conflicts [o] = []) (hs : ((s.ctx g).stream && slipsStream o.instr) = false)
    (h : dependents (s.ctx g).groupWrites [o] ≠ []) : issueSlots g stop [] [o] s = takeTrap g 0x02 0 (slotMask [o.n]) s := by
  rw [issueSlots, slips_one, hs, dependents_one o h, hc, rfeBeside_one]
  rfl

/-- The one active slot of a lone operation that answers `early`. -/
theorem early_one (r : Issue) : ∀ k ∈ Results.early [(o, r)], k = o.n := by
  rcases r with (_ | _ | _ | _ | _) | _ <;> simp [Results.early]

/-- A pending guard, or a pending operand of an active operation, is cause 0x03 (R54, R80, R103). -/
theorem issueOps_pending (h : o.guardPending s = true ∨ o.active s = true ∧ o.operandPending s = true) :
    issueOps g stop ws [o] s = takeTrap g 0x03 0 (slotMask [o.n]) s := by
  have hearly {l : List Nat} (hne : l ≠ []) (hl : ∀ k ∈ l, k = o.n) (r : State) :
      (if !l.isEmpty then takeTrap g 0x03 0 (slotMask l) s else r) = takeTrap g 0x03 0 (slotMask [o.n]) s := by
    rw [slotMask_same hne hl]
    cases l with
    | nil => exact absurd rfl hne
    | cons k l => rfl
  refine hearly ?_ ?_ _
  · rcases h with h | ⟨ha, hp⟩
    · simp [h]
    · simp [ha, hp]
  · intro k hk
    rcases List.mem_append.mp hk with hk | hk
    · cases hg : o.guardPending s <;> cases ha : o.active s <;> cases hp : o.operandPending s <;> simp_all
    · cases ha : o.active s
      · simp [ha, Results.early] at hk
      · exact early_one (o.issue o.env s) k (by simpa [ha] using hk)

/-- More than 48 results in flight, once the operation's own checks pass, are cause 0x03 with TRAPINFO 1 (R56; log 16, log 55). -/
theorem issueOps_limit {c : Commit} (hg : o.guardPending s = false) (ha : o.active s = true) (hp : o.operandPending s = false)
    (hc : o.issue o.env s = .ok c) (h : 48 < (s.ctx g).flights.length + exposed o.instr (o.env.mask s)) :
    issueOps g stop ws [o] s = takeTrap g 0x03 1 (slotMask [o.n]) s := by
  simp [issueOps, ha, hg, hp, hc, h, inFlight, Results.early, Results.traps]

/-! ## All that a lone operation can do -/

/-- Past the checks of its bundle and group, a lone operation commits, commits empty, stalls, blocks or traps, as it answers at issue. -/
theorem issueOps_one_cases (g : Nat) (stop : Bool) (ws : List Name) (o : SlotOp) (s : State) :
    (∃ c, o.issue o.env s = .ok c ∧ issueOps g stop ws [o] s = commitBundle g stop ws [(o, .ok c)] s)
    ∨ issueOps g stop ws [o] s = commitBundle g stop ws [] s
    ∨ (∃ f, o.issue o.env s = .error (.stall f) ∧ issueOps g stop ws [o] s = stallCtx g f s)
    ∨ (∃ w, o.issue o.env s = .error (.block w) ∧ issueOps g stop ws [o] s = blockCtx g w s)
    ∨ ∃ cause info mask, issueOps g stop ws [o] s = takeTrap g cause info mask s := by
  have trap {t : State} {cause : Nat} {info : W64} {mask : BitVec 4} (h : t = takeTrap g cause info mask s) :
      ∃ cause info mask, t = takeTrap g cause info mask s := ⟨cause, info, mask, h⟩
  by_cases hpend : o.guardPending s = true ∨ o.active s = true ∧ o.operandPending s = true
  · exact .inr (.inr (.inr (.inr (trap (issueOps_pending hpend)))))
  obtain ⟨hg, hap⟩ := not_or.mp hpend
  have hg : o.guardPending s = false := by simpa using hg
  cases ha : o.active s
  case false =>
    by_cases hroom : (s.ctx g).flights.length ≤ 48
    · exact .inr (.inl (issueOps_inactive ha hg hroom))
    · refine .inr (.inr (.inr (.inr (trap (cause := 0x03) (info := 1) (mask := slotMask []) ?_))))
      simp [issueOps, ha, hg, inFlight, Results.early, Results.traps, not_le.mp hroom]
  case true =>
    have hp : o.operandPending s = false := by simpa [ha] using hap
    by_cases hroom : (s.ctx g).flights.length + exposed o.instr (o.env.mask s) ≤ 48
    · rw [issueOps_active ha hg hp hroom]
      rcases o.issue o.env s with (_ | ⟨cause, info⟩ | ⟨cause, info⟩ | w | f) | c
      · exact .inr (.inr (.inr (.inr ⟨_, _, _, rfl⟩)))
      · exact .inr (.inr (.inr (.inr ⟨_, _, _, rfl⟩)))
      · exact .inr (.inr (.inr (.inr ⟨_, _, _, rfl⟩)))
      · exact .inr (.inr (.inr (.inl ⟨w, rfl, rfl⟩)))
      · exact .inr (.inr (.inl ⟨f, rfl, rfl⟩))
      · exact .inl ⟨c, rfl, rfl⟩
    · have hfull : 48 < inFlight g [o] s := by simpa [inFlight] using hroom
      refine .inr (.inr (.inr (.inr ?_)))
      rcases h : o.issue o.env s with (_ | _ | _ | _ | _) | _ <;>
        simp only [issueOps, List.filter_cons, List.filter_nil, List.map_cons, List.map_nil, List.filterMap_cons, List.filterMap_nil,
          if_true, Bool.false_eq_true, if_false, ha, hg, hp, h, hfull, Results.early, Results.traps] <;>
        exact ⟨_, _, _, rfl⟩

theorem issueSlots_one_cases (g : Nat) (stop : Bool) (o : SlotOp) (s : State) :
    issueSlots g stop [] [o] s = issueOps g stop (o.writes.filter Name.grouped) [o] s
    ∨ ∃ cause info mask, issueSlots g stop [] [o] s = takeTrap g cause info mask s := by
  by_cases hc : conflicts [o] = []
  case neg => exact .inr ⟨_, _, _, issueSlots_conflict hc⟩
  cases hs : (s.ctx g).stream && slipsStream o.instr
  case true => exact .inr ⟨_, _, _, issueSlots_slip hc hs⟩
  by_cases hd : dependents (s.ctx g).groupWrites [o] = []
  case neg => exact .inr ⟨_, _, _, issueSlots_dependent hc hs hd⟩
  exact .inl (issueSlots_one hc hs hd)

end

section
variable {i : Instr} {s t : State}

/-- A lone operation commits, is skipped, stalls in place, blocks or traps (R10, R103). -/
theorem exec_alone_cases (hi : SlotAlone i) (h : exec i s = .next t) :
    (∃ c, issueAlone i s = .ok c ∧ t = done i c s) ∨ t = skipped i s
    ∨ (∃ f, issueAlone i s = .error (.stall f) ∧ t = stallCtx s.cur f s)
    ∨ (∃ w, issueAlone i s = .error (.block w) ∧ t = blockCtx s.cur w s)
    ∨ ∃ cause info mask, t = takeTrap s.cur cause info mask s := by
  rw [exec_alone hi] at h
  obtain rfl := Host.Outcome.next.inj h
  rcases issueSlots_one_cases s.cur ((slotKey i).2.1 == 1) (alone i s) s with hops | htrap
  · rw [hops]
    exact issueOps_one_cases _ _ _ (alone i s) s
  · exact .inr (.inr (.inr (.inr htrap)))

theorem Kept.unchanged (h : Kept s t) : Unchanged s t := ⟨h.memory, h.engines, fun g => ⟨h.special g, h.regs g⟩⟩

/-- Settles O6: an inactive operation leaves its bundle nothing to commit. -/
theorem falseGuardDoesNothing : Obligations.FalseGuardDoesNothing := by
  intro i s hi hg ha hc hd hs hr
  rw [exec_alone hi, issueSlots_one hc hs hd, issueOps_inactive ha hg hr]
  rfl

/-- Settles O7: each check of R103 decides once those before it pass. -/
theorem decodeChecksInOrder : Obligations.DecodeChecksInOrder := by
  intro i s hi
  rw [exec_alone hi]
  refine ⟨fun hc => ?_, fun hc hs => ?_, fun hc hs hd => ?_, fun hc hs hd hp => ?_, fun c hc hs hd hg ha hp hissue hfull => ?_⟩
  · exact congrArg _ (issueSlots_conflict hc)
  · exact congrArg _ (issueSlots_slip hc hs)
  · exact congrArg _ (issueSlots_dependent hc hs hd)
  · exact congrArg _ ((issueSlots_one hc hs hd).trans (issueOps_pending hp))
  · exact congrArg _ ((issueSlots_one hc hs hd).trans (issueOps_limit hg ha hp hissue hfull))

/-- Settles O8: a trap and a block leave all but the trap registers and the run state of the context. -/
theorem allOrNothing : Obligations.AllOrNothing := by
  intro i s t hi h
  rcases exec_alone_cases hi h with hdone | hskip | hstall | ⟨w, -, rfl⟩ | ⟨cause, info, mask, rfl⟩
  · exact .inl hdone
  · exact .inr (.inl hskip)
  · exact .inr (.inr (.inl hstall))
  · exact .inr (.inr (.inr (blockCtx_kept ..).unchanged))
  · exact .inr (.inr (.inr (takeTrap_kept ..).unchanged))

end

end Sys2Proof.Machine
end

section
/-!
PROOF. Where the results of a lone operation land (R54, R55, R70), reset and steps, and the bundle that holds a lone operation (R76, R77,
R84, R86, R92).
-/
set_option Elab.async false
namespace Sys2Proof.Machine

/-! ## Results land -/

theorem Ctx.s_eq_of_reg {c c' : Ctx} {d : BitVec 6} (h : c'.reg (.s d.toNat) = c.reg (.s d.toNat)) : c'.s d = c.s d := by
  have hz : d = 0#6 ↔ d.toNat = 0 := BitVec.toNat_inj.symm
  have hv := congrArg (BitVec.setWidth 64) (Option.some.inj h)
  simpa [Ctx.s, hz] using hv

theorem Ctx.v_eq_of_reg {c c' : Ctx} {d : BitVec 5} (h : c'.reg (.v d.toNat) = c.reg (.v d.toNat)) : c'.v d = c.v d :=
  Option.some.inj h

@[simp] theorem Ctx.advance_flights (c : Ctx) (j : Nat) (tgt : Option W64) (stop : Bool) (ws : List Name) :
    (c.advance j tgt stop ws).flights = c.flights := rfl

@[simp] theorem Ctx.advance_bundles (c : Ctx) (j : Nat) (tgt : Option W64) (stop : Bool) (ws : List Name) :
    (c.advance j tgt stop ws).bundles = j + 1 := rfl

@[simp] theorem Ctx.advance_reg (c : Ctx) (j : Nat) (tgt : Option W64) (stop : Bool) (ws : List Name) (n : Name) :
    (c.advance j tgt stop ws).reg n = c.reg n := by cases n <;> rfl

/-- The one masked vector write of a bundle, over the lanes it leaves. -/
theorem Ctx.lane_v_write (c : Ctx) (d : BitVec 5) (x : Vec) (m : W64) {l : Nat} (hl : l < 64) :
    lane ((c.write (.v d.toNat) x m).v d) l = if m.getLsbD l then lane x l else lane (c.v d) l := by
  simp only [Ctx.write, Ctx.v, tget_tset_same]
  split
  case isTrue hm => rw [hm, BitVec.getLsbD_allOnes, decide_eq_true hl, if_pos rfl]
  case isFalse => exact Laws.lane_mergeLanes m (tget 0 c.vregs d.toNat) x hl

/-- The write a landing list ends with, where nothing else in flight targets its register. -/
theorem Ctx.deliver_write (c : Ctx) (l : List Flight) (f : Flight) (h : c.flights = l ++ [f]) (hf : f.lands c.bundles = true) :
    ∃ c' : Ctx, (∀ n, (∀ k ∈ l, k.dest.isName n = false) → c'.reg n = c.reg n) ∧
      ∀ n, c.deliver.reg n = (c'.write f.dest f.val f.mask).reg n :=
  ⟨_, fun n hn => foldl_write_other _ c n fun k hk => hn k (List.mem_filter.mp hk).1, fun n => c.deliver_last l f h hf n⟩

/-- Settles O9: the landing of a result is the last write of its bundle's boundary, or is still in flight after it. -/
theorem resultsLand : Obligations.ResultsLand := by
  refine ⟨fun i s d x lat hlat => ?_, fun i s d x m q hp l hl => ?_⟩
  · obtain ⟨w, hctx, -⟩ := done_onCtx i (fun c => c.landS d x lat) s
    simp only [toS, hctx]
    generalize hc : ((s.ctx s.cur).landS d x lat).advance (s.ctx s.cur).bundles none ((slotKey i).2.1 == 1)
      ((alone i s).writes.filter Name.grouped) = c
    obtain ⟨hbundles, hpc⟩ : c.bundles = (s.ctx s.cur).bundles + 1 ∧ c.pc = (s.ctx s.cur).pc + 16 := by rw [← hc]; exact ⟨rfl, rfl⟩
    generalize hf : Flight.mk (.s d.toNat) (x.setWidth 2048) (BitVec.allOnes 64) ((s.ctx s.cur).bundles + lat) false none = f
    have hfl : c.flights = (s.ctx s.cur).flights ++ [f] := by rw [← hc, ← hf]; rfl
    refine ⟨c.deliver_rest.bundles.trans hbundles, c.deliver_rest.pc.trans hpc, fun h1 => ?_, fun h1 hd => ?_⟩
    · obtain ⟨c', -, hlast⟩ := c.deliver_write _ f hfl (by simp [Flight.lands, ← hf, hbundles, h1])
      calc _ = (c'.write f.dest f.val f.mask).s d := Ctx.s_eq_of_reg (hlast _)
        _ = _ := by rw [← hf]; exact c'.s_write d x _
    · have hmem : f ∈ c.deliver.flights := by
        rw [c.deliver_flights, hfl]
        refine List.mem_filter.mpr ⟨by simp, ?_⟩
        simp [Flight.lands, ← hf, hbundles]
        omega
      have hval : f.val.setWidth 64 = x := by rw [← hf]; simp
      have hd' : d.toNat ≠ 0 := fun h => hd (BitVec.eq_of_toNat_eq h)
      exact ⟨List.any_eq_true.mpr ⟨f, hmem, by simp [← hf, Dest.isName, hd']⟩, f, hmem, by rw [← hf], hval, by rw [← hf]⟩
  · obtain ⟨w, hctx, -⟩ := done_onCtx i (fun c => c.landV d x m 1 (q == 1)) s
    simp only [toV, hctx]
    generalize hc : ((s.ctx s.cur).landV d x m 1 (q == 1)).advance (s.ctx s.cur).bundles none ((slotKey i).2.1 == 1)
      ((alone i s).writes.filter Name.grouped) = c
    generalize hf : Flight.mk (.v d.toNat) x m ((s.ctx s.cur).bundles + 1) (q == 1) none = f
    have hfl : c.flights = (s.ctx s.cur).flights ++ [f] := by rw [← hc, ← hf]; rfl
    obtain ⟨c', hkept, hlast⟩ := c.deliver_write _ f hfl (by simp [Flight.lands, ← hf, ← hc])
    have hold : c'.v d = s.rv d := by
      rw [Ctx.v_eq_of_reg (hkept _ fun k hk => by simpa using List.any_eq_false.mp hp k hk), ← hc]
      rfl
    calc _ = lane ((c'.write f.dest f.val f.mask).v d) l := congrArg (lane · l) (Ctx.v_eq_of_reg (hlast _))
      _ = _ := by rw [← hf, c'.lane_v_write d x m hl, hold]

/-! ## Reset and steps -/

/-- Settles O1: reset lists no context, no frame and no grant. -/
theorem resetLeavesNothingPlaced : Obligations.ResetLeavesNothingPlaced := by
  refine ⟨fun _ => rfl, fun _ => rfl, fun _ => rfl, rfl, rfl, rfl, rfl, fun g n => ?_, fun _ _ => rfl, fun _ => rfl, fun g n hn => if_neg hn,
    fun _ => ⟨rfl, rfl⟩⟩
  exact ite_self (c := n = 0) 0

/-- Settles O60. -/
theorem resetMemoryCanonical : Obligations.ResetMemoryCanonical := ⟨rfl, rfl⟩

/-- Settles O4: each word is decoded as it stands. -/
theorem decodeOfWrittenWords : Obligations.DecodeOfWrittenWords := by
  unfold Obligations.DecodeOfWrittenWords
  decide

/-- What a context that may issue is offered where nothing comes before its bundle. -/
theorem offer_bundle {s : State} {g : Nat} {b : BitVec 128} (hb : boundaryEvent g s = none) (hv : heldByVault s g = false)
    (hr : refillReady s g = true) (hh : held (takeRefills g s) g = false) (hf : fetch (passBar g (takeRefills g s)) g = .ok b) :
    offer g s = issueBundle g b (touchFetch g (passBar g (takeRefills g s))) := by
  simp [offer, hb, hv, hr, hh, offerBundle, hf]

/-- Settles O2: the agenda decides who moves, and a core whose context may issue offers it its bundle. -/
theorem stepRunsDecodedInstruction : Obligations.StepRunsDecodedInstruction := by
  refine ⟨fun s b ha hp hi hb hv hr hh hs hf => ?_, fun s t i req l ha ht => ?_⟩
  · simp [step, ha, stepLocal, hs, hp, hi, offer_bundle hb hv hr hh hf]
  · simp [step, ha, ht]

/-! ## The bundle of a lone operation -/

/-- The number of a slot (R77). -/
def slotNum : Slot → Nat
  | .c => 0
  | .v => 1
  | .x => 2
  | .m => 3

section
variable {w : W32} {i : Instr}

/-- The guard of a C operation and its stop bit are fields of its word (R78, R86). -/
theorem slotKey_of_rowC (h : rowC w = some i) (hn : (slotKey i).1 ≠ 4) : slotKey i = (0, fld w 31 1, guardOf i w) := by
  delta rowC at h
  split at h
  case h_1 => cases h; exact absurd rfl hn
  case h_54 =>
    split at h
    · cases h; exact absurd rfl hn
    · cases h; rfl
  all_goals repeat' split at h
  all_goals cases h
  all_goals rfl

/-- The guard of an operation of V, X or M is bits 23:21 of its word (R79). -/
theorem slotKey_of_rowV (h : rowV w = some i) (hn : (slotKey i).1 ≠ 4) : slotKey i = (1, 0, guardOf i w) := by
  delta rowV at h
  split at h
  case h_1 => cases h; exact absurd rfl hn
  all_goals cases h
  all_goals rfl

theorem slotKey_of_rowX (h : rowX w = some i) (hn : (slotKey i).1 ≠ 4) : slotKey i = (2, 0, guardOf i w) := by
  delta rowX at h
  split at h
  case h_1 => cases h; exact absurd rfl hn
  all_goals repeat' split at h
  all_goals cases h
  all_goals rfl

theorem slotKey_of_movpRow (h : movpRow w = some i) : slotKey i = (3, 0, guardOf i w) := by
  delta movpRow at h
  split at h
  all_goals cases h
  all_goals rfl

theorem slotKey_of_rowM (h : rowM w = some i) (hn : (slotKey i).1 ≠ 4) : slotKey i = (3, 0, guardOf i w) := by
  delta rowM at h
  split at h
  case h_1 => cases h; exact absurd rfl hn
  case h_44 => exact slotKey_of_movpRow h
  all_goals repeat' split at h
  all_goals cases h
  all_goals rfl

/-- Slot, stop bit and guard of an operation are those of its word; W0 alone has a stop bit (R77 to R79). -/
theorem slotKey_of_rowOf {sl : Slot} (h : rowOf sl w = some i) (hn : (slotKey i).1 ≠ 4) :
    slotKey i = (slotNum sl, if sl = .c then fld w 31 1 else 0, guardOf i w) := by
  cases sl
  case c => exact slotKey_of_rowC h hn
  case v => exact slotKey_of_rowV h hn
  case x => exact slotKey_of_rowX h hn
  case m => exact slotKey_of_rowM h hn

theorem header_bits (h : isHdrX w = true ∨ isHdrT w = true) : (fld w 24 7).toNat = 0x7F ∧ (isHdrX w = true → fld w 23 1 = 0) := by
  have hop : fld w 24 7 = fld (fld w 23 8) 1 7 := (field_of_field (lo := 23) (n := 8) (lo' := 1) (n' := 7) w (by decide)).symm
  have hform : fld w 23 1 = fld (fld w 23 8) 0 1 := (field_of_field (lo := 23) (n := 8) (lo' := 0) (n' := 1) w (by decide)).symm
  simp only [isHdrX, isHdrT, beq_iff_eq] at h ⊢
  rw [hop, hform]
  generalize fld w 23 8 = x at h ⊢
  revert x
  decide

/-- A word of W0 that decodes to an operation is no operand header, and a tree header only where the operation is one (R86). -/
theorem header_of_rowC (h : rowC w = some i) (hn : (slotKey i).1 ≠ 4) : isHdrX w = false ∧ (isHdrT w = true →
    i = .hdrT (fld w 31 1) (fld w 20 3) (fld w 15 5) (fld w 12 3) (fld w 9 3) (fld w 6 3) (fld w 3 3)) := by
  by_cases h7 : (fld w 24 7).toNat = 0x7F
  case neg =>
    have hno (hh : isHdrX w = true ∨ isHdrT w = true) : False := h7 (header_bits hh).1
    exact ⟨by simpa using fun hx => hno (.inl hx), fun ht => (hno (.inr ht)).elim⟩
  simp only [rowC, h7] at h
  by_cases hform : fld w 23 1 = 0
  · rw [if_pos hform] at h
    cases h
    exact absurd rfl hn
  · rw [if_neg hform] at h
    cases h
    exact ⟨by simpa using fun hx => hform ((header_bits (.inl hx)).2 hx), fun _ => rfl⟩

theorem isHdrT_encode (e : BitVec 1) (h : BitVec 3) (q : BitVec 5) (b x y z : BitVec 3) : isHdrT (encode (.hdrT e h q b x y z)) = true := by
  delta encode
  dsimp only
  simp [isHdrT]

/-- An operation that no tree header encodes stands alone with its own meaning. -/
theorem slotAlone_of_not_header (hn : (slotKey i).1 ≠ 4) (h : isHdrT (encode i) = false) : SlotAlone i := by
  refine ⟨hn, ?_⟩
  cases i
  case hdrT => simp [isHdrT_encode] at h
  all_goals trivial

/-- The stop bit of a word, as one bit. -/
theorem getLsbD_eq_fld (k : Nat) : w.getLsbD k = (fld w k 1 == 1) := by
  have hbit : (fld w k 1).getLsbD 0 = w.getLsbD k := by simp [fld]
  rw [← hbit]
  generalize fld w k 1 = x
  revert x
  decide
end

/-! ### The slots beside it -/

/-- What a word means that stands in a slot beside a lone operation. -/
def IsNoopAt (b : BitVec 128) (sl : Slot) : Prop := ∃ j, decodeSlot sl (slotWord b sl) = .ok j ∧ isNoop j = true

theorem toOp_noop {g : Nat} {w0 w : W32} {leaf n : Nat} {j : Instr} (h : isNoop j = true) : toOp g w0 leaf (n, w, .ok j) = none := by
  cases j
  case nop | vnop | xnop | mnop => rfl
  all_goals exact absurd h Bool.false_ne_true

theorem toOp_operation {g : Nat} {w0 w : W32} {leaf n : Nat} {i : Instr} (h : (slotKey i).1 ≠ 4) : toOp g w0 leaf (n, w, .ok i) =
    some { n := n, instr := i, env := slotEnv g w0 leaf n (guardOf i w), issue := issueOf i } := by
  cases i
  all_goals first | rfl | exact absurd rfl h

theorem lentBad_without_header {w0 : W32} (hx : isHdrX w0 = false) (ht : isHdrT w0 = false) (n : Nat) (row : Option Instr) :
    lentBad w0 n row = false := by
  simp [lentBad, hx, ht]

theorem slotEnv_without_header {w0 : W32} (hx : isHdrX w0 = false) (ht : isHdrT w0 = false) (g leaf n : Nat) (gd : BitVec 3) :
    slotEnv g w0 leaf n gd = { g := g, gd := gd } := by
  simp [slotEnv, hx, ht]

section
variable {b : BitVec 128} {sl : Slot} {i : Instr} (hi : decodeSlot sl (slotWord b sl) = .ok i)
  (hother : ∀ sl', sl' ≠ sl → IsNoopAt b sl')
include hi hother

theorem slotsOf_lone_filterMap (hn : (slotKey i).1 ≠ 4) (g leaf : Nat) (w0 : W32) : (slotsOf b).filterMap (toOp g w0 leaf) =
    [{ n := slotNum sl, instr := i, env := slotEnv g w0 leaf (slotNum sl) (guardOf i (slotWord b sl)), issue := issueOf i }] := by
  have hnone (n : Nat) (sl' : Slot) (h : sl' ≠ sl) : toOp g w0 leaf (n, slotWord b sl', decodeSlot sl' (slotWord b sl')) = none := by
    obtain ⟨j, hj, hnoop⟩ := hother sl' h
    rw [hj, toOp_noop hnoop]
  have hsome (n : Nat) : toOp g w0 leaf (n, slotWord b sl, decodeSlot sl (slotWord b sl)) =
      some { n := n, instr := i, env := slotEnv g w0 leaf n (guardOf i (slotWord b sl)), issue := issueOf i } := by
    rw [hi, toOp_operation hn]
  cases sl
  all_goals simp [slotsOf, hnone, hsome, slotNum]

theorem badSlots_lone (hx : isHdrX (slotWord b .c) = false) (ht : isHdrT (slotWord b .c) = false) : badSlots b = [] := by
  have hok (sl' : Slot) : ∃ j, decodeSlot sl' (slotWord b sl') = .ok j := by
    by_cases h : sl' = sl
    · exact h ▸ ⟨i, hi⟩
    · obtain ⟨j, hj, -⟩ := hother sl' h
      exact ⟨j, hj⟩
  obtain ⟨c, hc⟩ := hok .c
  obtain ⟨v, hv⟩ := hok .v
  obtain ⟨x, hx'⟩ := hok .x
  obtain ⟨m, hm⟩ := hok .m
  simp [badSlots, slotsOf, lentBad_without_header hx ht, hc, hv, hx', hm]

/-- A lone operation that is no header and stands beside none. -/
theorem issueBundle_lone (hn : (slotKey i).1 ≠ 4) (hx : isHdrX (slotWord b .c) = false) (ht : isHdrT (slotWord b .c) = false)
    (hkey : slotKey i = (slotNum sl, fld (slotWord b .c) 31 1, guardOf i (slotWord b sl))) (s : State) :
    issueBundle s.cur b s = issueSlots s.cur ((slotKey i).2.1 == 1) [] [alone i s] s := by
  have hops : bundleOps s.cur b s = [alone i s] := by
    rw [bundleOps, slotsOf_lone_filterMap hi hother hn, slotEnv_without_header hx ht, alone, hkey]
  have hstop : (slotWord b .c).getLsbD 31 = ((slotKey i).2.1 == 1) := by rw [hkey, getLsbD_eq_fld]
  rw [issueBundle, badSlots_lone hi hother hx ht, hops, hstop]

end

theorem rowOf_of_decodeSlot {sl : Slot} {w : W32} {i : Instr} (h : decodeSlot sl w = .ok i) : rowOf sl w = some i := by
  obtain ⟨rfl, hwf, hs⟩ := of_decodeSlot h
  exact rowOf_encode hs hwf

/-! ### The tree header alone (R90, R92) -/

/-- A path tag beside a no-operation is at fault unless it is 7, where the tree's shape and the tag are legal (R92). -/
theorem lentBad_tree {w0 : W32} {n : Nat} {j : Instr} (hx : isHdrX w0 = false) (ht : isHdrT w0 = true) (hshape : fld w0 20 3 ≠ 7)
    (hlegal : tagLegal (fld w0 20 3).toNat (pathTag w0 n).toNat = true) (hj : isNoop j = true) :
    lentBad w0 n (some j) = (pathTag w0 n != 7) := by
  have hs : ¬ fld w0 20 3 = 7#3 := hshape
  simp [lentBad, hx, ht, hs, hlegal, hj]

theorem issueBundle_tree {b : BitVec 128} {e : BitVec 1} {h : BitVec 3} {q : BitVec 5} {r x y z : BitVec 3}
    (hi : decodeSlot .c (slotWord b .c) = .ok (.hdrT e h q r x y z)) (hother : ∀ sl', sl' ≠ .c → IsNoopAt b sl') (s : State) :
    exec (.hdrT e h q r x y z) s = .next (issueBundle s.cur b s) := by
  obtain ⟨henc, hwf, -⟩ := of_decodeSlot hi
  have hn : (slotKey (.hdrT e h q r x y z)).1 ≠ 4 := Nat.zero_ne_add_one 3
  have ht : isHdrT (slotWord b .c) = true := by rw [← henc, isHdrT_encode]
  have hrow := rowOf_of_decodeSlot hi
  obtain ⟨hx, hfields⟩ := header_of_rowC hrow hn
  have hops : bundleOps s.cur b s = [{ n := 0, instr := .hdrT e h q r x y z, env := { g := s.cur }, issue := fun v s => issueHdrT v h q r s }] :=
    slotsOf_lone_filterMap hi hother hn ..
  obtain ⟨rfl, rfl, rfl, rfl, rfl, rfl, rfl⟩ := Instr.hdrT.inj (hfields ht)
  obtain ⟨hshape, hlx, hly, hlz⟩ := of_decide_eq_true hwf
  obtain ⟨v, hv, hvn⟩ := hother .v (by decide)
  obtain ⟨u, hu, hun⟩ := hother .x (by decide)
  obtain ⟨m, hm, hmn⟩ := hother .m (by decide)
  have hbad : badSlots b = (if pathTag (slotWord b .c) 1 = 7 then [] else [0, 1]) ++ (if pathTag (slotWord b .c) 2 = 7 then [] else [0, 2])
      ++ if pathTag (slotWord b .c) 3 = 7 then [] else [0, 3] := by
    simp [badSlots, slotsOf, slotAt, hi, hv, hu, hm, rowOf_of_decodeSlot hv, rowOf_of_decodeSlot hu, rowOf_of_decodeSlot hm,
      lentBad_tree (n := 1) hx ht hshape hlx hvn, lentBad_tree (n := 2) hx ht hshape hly hun, lentBad_tree (n := 3) hx ht hshape hlz hmn]
  rw [issueBundle, hops, hbad, getLsbD_eq_fld]
  rfl

/-- Settles O3: the other words are no-operations, which are no slots of the bundle, and lend nothing. -/
theorem loneBundleIsItsInstruction : Obligations.LoneBundleIsItsInstruction := by
  intro s b sl i hi hn hw
  have hother : ∀ sl', sl' ≠ sl → IsNoopAt b sl' := by
    intro sl' h
    have hop : (slotWord b sl').extractLsb' (opcodeLo sl') 7 = 0 ∧ (slotWord b sl').extractLsb' 0 (opcodeLo sl') = 0 := by
      rw [hw sl' h]
      generalize (slotKey i).2.1 = e
      revert e
      cases sl' <;> decide
    exact ⟨_, (decodeSlot_opcode_zero hop.1).trans (if_pos hop.2), by cases sl' <;> rfl⟩
  have hkey := slotKey_of_rowOf (rowOf_of_decodeSlot hi) hn
  obtain ⟨henc, -, hs⟩ := of_decodeSlot hi
  by_cases hsl : sl = .c
  case pos =>
    subst hsl
    obtain ⟨hx, ht⟩ := header_of_rowC (rowOf_of_decodeSlot hi) hn
    cases hT : isHdrT (slotWord b .c)
    case true =>
      rw [ht hT] at hi ⊢
      exact issueBundle_tree hi hother s
    case false =>
      rw [exec_alone (slotAlone_of_not_header hn (by rw [henc, hT])), issueBundle_lone hi hother hn hx hT hkey]
  case neg =>
    rw [if_neg hsl] at hkey
    have hW0 : slotWord b .c = 0 := by
      rw [hw .c (Ne.symm hsl), hkey]
      rfl
    have hX : isHdrX (slotWord b .c) = false := by rw [hW0]; rfl
    have hT : isHdrT (slotWord b .c) = false := by rw [hW0]; rfl
    have halone : SlotAlone i := by
      refine ⟨hn, ?_⟩
      cases i
      case hdrT => exact absurd (Option.some.inj (show some Slot.c = some sl from hs)).symm hsl
      all_goals trivial
    rw [exec_alone halone, issueBundle_lone hi hother hn hX hT (by rw [hkey, hW0]; rfl)]

end Sys2Proof.Machine
end

section
/-!
PROOF. Branches and special registers (R82, R338 to R344).
-/
set_option Elab.async false
namespace Sys2Proof.Machine

/-! ## What an operation answers at issue decides what it does -/

section
variable {i : Instr} {P : State → Prop}

theorem completes_of_issue {c : State → Commit} (hi : SlotAlone i) (h : ∀ s, issueAlone i s = .ok (c s)) : Completes i c :=
  fun s hs => exec_completes hi hs (h s)

theorem completesWhen_of_issue {c : State → Commit} (hi : SlotAlone i) (h : ∀ s, P s → issueAlone i s = .ok (c s)) : CompletesWhen i P c :=
  fun s hs hp => exec_completes hi hs (h s hp)

theorem trapsWhen_of_issue {cause : Nat} {info : State → W64} (hi : SlotAlone i)
    (h : ∀ s, P s → issueAlone i s = .error (.trap cause (info s))) : TrapsWhen i P cause info :=
  fun s hs hp => exec_traps hi hs (h s hp)

/-- A check made while stalling traps as an issue check does. -/
theorem trapsWhen_of_issue_late {cause : Nat} {info : State → W64} (hi : SlotAlone i)
    (h : ∀ s, P s → issueAlone i s = .error (.late cause (info s))) : TrapsWhen i P cause info :=
  fun s hs hp => by rw [exec_issues hi hs, h s hp]

theorem blocksWhen_of_issue {w : Wait} (hi : SlotAlone i) (h : ∀ s, P s → issueAlone i s = .error (.block w)) : BlocksWhen i P w :=
  fun s hs hp => exec_blocks hi hs (h s hp)

/-- A slot operation that is no tree header stands alone. -/
theorem slotAlone_of_not_hdrT (hn : (slotKey i).1 ≠ 4 := by exact of_decide_eq_true rfl)
    (h : (match i with | .hdrT .. => false | _ => true) = true := by rfl) : SlotAlone i := by
  refine ⟨hn, ?_⟩
  cases i
  case hdrT => exact absurd h Bool.false_ne_true
  all_goals trivial

end

/-- A check that holds lets the rest of the issue go on. -/
theorem Chk.bind_of_true {α : Type} {b : Bool} {st : Stop} {f : Unit → Chk α} (h : b = true) : (Chk.need b st >>= f) = f () := by
  rw [h]
  rfl

/-- A check that fails stops the slot. -/
theorem Chk.bind_of_false {α : Type} {b : Bool} {st : Stop} {f : Unit → Chk α} (h : b = false) : (Chk.need b st >>= f) = .error st := by
  rw [h]
  rfl

/-! ## Branches -/

/-- A bundle that took a branch: its target, its group and the results it squashed (R82, R102). -/
theorem done_branch (i : Instr) (t : W64) (s : State) :
    ∃ w, (done i { target := some t } s).ctx s.cur =
      { (((s.ctx s.cur).squashAfter (s.ctx s.cur).bundles).advance (s.ctx s.cur).bundles (some t) ((slotKey i).2.1 == 1)
          ((alone i s).writes.filter Name.grouped)).deliver with watch := w } := by
  have e : done i { target := some t } s = _ := commitBundle_one s.cur _ _ (alone i s) id (some t) s
  obtain ⟨w, hctx, -⟩ := afterAct_spec s.cur ((slotKey i).2.1 == 1) ((alone i s).writes.filter Name.grouped) (alone i s) (some t) s s
  exact ⟨w, by rw [e]; exact hctx⟩

/-- What a bundle leaves depends on its effect at the state it issues in alone. -/
theorem done_congr (i : Instr) {f f' : State → State} (target : Option W64) {s : State} (h : f s = f' s) :
    done i { act := f, target := target } s = done i { act := f', target := target } s := by
  simp only [done, commitBundle_one, h]

/-- Settles O14: the target of a register form is checked, and the bundle after a taken branch starts a new group. -/
theorem branchForms : Obligations.BranchForms := by
  intro e g
  refine ⟨fun d => ?br, fun d s hs => ?call, fun k => ⟨?brb, ?brbBad⟩, ⟨?ret, ?retBad⟩, fun k d => ?lbt, fun k r => ⟨?toB, ?fromB⟩,
    fun c w => ⟨?taken, ?falls⟩, fun i s t => ?squash⟩
  case br | lbt | toB | fromB => exact completes_of_issue slotAlone_of_not_hdrT fun _ => rfl
  case call =>
    rw [exec_completes slotAlone_of_not_hdrT hs (c := { act := fun t => t.modCtx s.cur fun c => _, target := _ }) rfl]
    exact congrArg _ (done_congr _ _ rfl)
  case brb | ret => exact completesWhen_of_issue slotAlone_of_not_hdrT fun s ht => branchReg_eq_branchTo (e := s.env) ht
  case brbBad | retBad => exact trapsWhen_of_issue slotAlone_of_not_hdrT fun s ht => branchReg_eq_trap (e := s.env) ht
  case taken =>
    refine completesWhen_of_issue slotAlone_of_not_hdrT fun s h => ?_
    calc issueAlone (.loop e g c w) s
        = .ok { act := (toS s c (s.rs c - 1) 1).act, target := if s.rs c - 1 ≠ 0 then some (pcTarget s.env s w) else none } := rfl
      _ = .ok { act := (toS s c (s.rs c - 1) 1).act, target := some (pcTarget s.env s w) } := by rw [if_pos h]
  case falls =>
    refine completesWhen_of_issue slotAlone_of_not_hdrT fun s h => ?_
    calc issueAlone (.loop e g c w) s
        = .ok { act := (toS s c (s.rs c - 1) 1).act, target := if s.rs c - 1 ≠ 0 then some (pcTarget s.env s w) else none } := rfl
      _ = .ok (toS s c 0 1) := by rw [h]; rfl
  case squash =>
    obtain ⟨w, hctx⟩ := done_branch i t s
    simp only [hctx]
    have hrest := Ctx.deliver_rest (((s.ctx s.cur).squashAfter (s.ctx s.cur).bundles).advance (s.ctx s.cur).bundles (some t)
      ((slotKey i).2.1 == 1) ((alone i s).writes.filter Name.grouped))
    refine ⟨hrest.pc, hrest.groupWrites.trans ?_, hrest.bundles, fun f hf => ?_⟩
    · exact if_pos (Bool.or_true _)
    · have hf := (List.mem_filter.mp (Ctx.deliver_flights _ ▸ hf)).1
      obtain ⟨hmem, hkeep⟩ := List.mem_filter.mp hf
      exact ⟨hmem, fun ⟨hq, hj⟩ => by simp [hq, hj] at hkeep⟩

/-! ## Special registers, parameters, headers -/

/-- The tile status CSRs of headers the context has not are refused (R343). -/
theorem csrd_header_ok {r n : Nat} (h : 0x030 ≤ r ∧ r ≤ 0x04F → r - 0x030 < n) :
    (!(decide (0x030 ≤ r ∧ r ≤ 0x04F)) || decide (r - 0x030 < n)) = true := by
  by_cases hr : 0x030 ≤ r ∧ r ≤ 0x04F
  · simp [h hr]
  · simp [hr]

/-- Settles O17. -/
theorem csrReads : Obligations.CsrReads := by
  intro e g r d
  refine ⟨?reads, ?header, fun s k => ⟨rfl, rfl, rfl, rfl, rfl, rfl, rfl, ?cause, rfl, rfl, rfl, rfl, rfl, rfl, rfl, rfl, rfl⟩⟩
  case reads => exact completesWhen_of_issue slotAlone_of_not_hdrT fun s h => Chk.bind_of_true (csrd_header_ok h)
  case header =>
    refine trapsWhen_of_issue slotAlone_of_not_hdrT fun s ⟨hlo, hhi, hn⟩ => Chk.bind_of_false ?_
    show (!(decide (0x030 ≤ r.toNat ∧ r.toNat ≤ 0x04F)) || decide (r.toNat - 0x030 < (s.ctx s.cur).tileCount)) = false
    simp [hlo, hhi, hn]
  case cause =>
    show BitVec.ofNat 64 ((s.ctx k).trapcause.toNat + 256 * (s.ctx k).hm.toNat) = _
    cases (s.ctx k).hm
    · simp
    · simp [BitVec.ofNat_add, BitVec.add_comm]

/-- Clearing the low bits of a field leaves its high ones over zeros. -/
theorem field_and_high {k : Nat} (x : BitVec k) (lo m n : Nat) :
    x.extractLsb' lo (m + n) &&& (BitVec.allOnes (m + n) <<< n) = x.extractLsb' (lo + n) m ++ 0#n := by
  apply BitVec.eq_of_getLsbD_eq
  intro i hi
  by_cases hn : i < n
  · simp [BitVec.getLsbD_append, hi, hn, -BitVec.getLsbD_eq_getElem]
  · simp [BitVec.getLsbD_append, hi, hn, show i - n < m by omega, show i - n < m + n by omega, show lo + n + (i - n) = lo + i by omega, -BitVec.getLsbD_eq_getElem]

/-- A register whose low bits are not writable (R343). -/
theorem and_high {m n : Nat} (x : BitVec (m + n)) : x &&& (BitVec.allOnes (m + n) <<< n) = x.extractLsb' n m ++ 0#n := by
  simpa using field_and_high x 0 m n

/-- Keeping the low bits of a register is a field of it. -/
theorem and_low (x : W64) : x &&& 0x0000FFFFFFFFFFFF = (x.extractLsb' 0 48).setWidth 64 := by
  apply BitVec.eq_of_getLsbD_eq
  intro i hi
  rw [show (0x0000FFFFFFFFFFFF : W64) = (BitVec.allOnes 48).setWidth 64 by decide]
  simp only [BitVec.getLsbD_and, BitVec.getLsbD_setWidth, BitVec.getLsbD_allOnes, BitVec.getLsbD_extractLsb', hi, decide_true,
    Bool.true_and, Nat.zero_add, Bool.and_comm]

section
variable (e : BitVec 1) (g : BitVec 3) (r : BitVec 12) (v : BitVec 6)

/-- A number R342 lists as read-only, or as writable in handler mode only, is refused outside it (R341). -/
theorem issueCswr_refused {s : State} (h : csrWritable r.toNat (s.ctx s.cur).hm = false) :
    issueAlone (.cswr e g r v) s = .error (.trap 0x0B (0x0B + r.setWidth 64 <<< 16)) := by
  have hinfo : BitVec.ofNat 64 (0x0B + 2 ^ 16 * r.toNat) = 0x0B + r.setWidth 64 <<< 16 := by
    have hr := r.isLt
    apply BitVec.eq_of_toNat_eq
    simp [Nat.shiftLeft_eq]
    omega
  rw [← hinfo]
  exact Chk.bind_of_false h

theorem issueCswr_writes {s : State} {f : Ctx → Ctx} (h : csrWritable r.toNat (s.ctx s.cur).hm = true) (hr : r ≠ 0x020)
    (hf : ∀ c : Ctx, c.csrWrite r.toNat (s.rs v) = f c) : issueAlone (.cswr e g r v) s = .ok (onCtx s f) := by
  rw [← funext hf]
  exact (Chk.bind_of_true h).trans (if_neg hr)

/-- ARBMODE waits for its array, and then the write is checked (R179). -/
theorem issueCswr_arbmode {s : State} (h : (s.array (pairOf s.cur)).idle = true) : issueAlone (.cswr e g 0x020 v) s =
    if (s.array (pairOf s.cur)).modeOk (s.rs v) then .ok { act := fun t => t.modArray (pairOf s.cur) fun a => a.setMode (s.rs v) }
    else .error (.late 0x0B 6) := by
  have hopen : issueAlone (.cswr e g 0x020 v) s = (do
      Chk.need ((s.array (pairOf s.cur)).modeOk (s.rs v)) (.late 0x0B 6)
      commit fun t => t.modArray (pairOf s.cur) fun a => a.setMode (s.rs v)) :=
    (Chk.bind_of_true (b := csrWritable 0x020 (s.ctx s.cur).hm) rfl).trans (Chk.bind_of_true h)
  rw [hopen]
  cases hm : (s.array (pairOf s.cur)).modeOk (s.rs v)
  · exact Chk.bind_of_false rfl
  · exact Chk.bind_of_true rfl

theorem cswr_completes {f : W64 → Ctx → Ctx} (h : ∀ hm, csrWritable r.toNat hm = true) (hr : r ≠ 0x020)
    (hf : ∀ (x : W64) (c : Ctx), c.csrWrite r.toNat x = f x c) : Completes (.cswr e g r v) (fun s => onCtx s (f (s.rs v))) :=
  completes_of_issue slotAlone_of_not_hdrT fun s => issueCswr_writes e g r v (h _) hr (hf (s.rs v))

end

theorem modeOk_iff (a : MArray) (x : W64) :
    a.modeOk x = true ↔ x.extractLsb' 0 2 ≠ 3 ∧ ∀ k < 4, tget 0 a.accState k = 0 := by
  have hacc : (∀ k < 4, tget 0 a.accState k = 0) ↔ ∀ k ∈ [0, 1, 2, 3], tget 0 a.accState k = 0 := by
    simp only [show ∀ k, k ∈ [0, 1, 2, 3] ↔ k < 4 by simp; omega]
  rw [hacc]
  simp [MArray.modeOk, bits]

theorem not_modeOk_iff (a : MArray) (x : W64) :
    a.modeOk x = false ↔ x.extractLsb' 0 2 = 3 ∨ ∃ k < 4, tget 0 a.accState k ≠ 0 := by
  rw [← Bool.not_eq_true, modeOk_iff]
  simp [imp_iff_not_or]

theorem csrWritable_readOnly {r : BitVec 12} {hm : Bool}
    (h : r ∉ ([0x010, 0x011, 0x012, 0x013, 0x014, 0x015, 0x020, 0x052, 0x055, 0x056, 0x100, 0x101] : List (BitVec 12))) :
    csrWritable r.toNat hm = false := by
  have hne (n : Nat) (hr : r ≠ BitVec.ofNat 12 n) : r.toNat ≠ n := fun e => hr (by rw [← e]; simp)
  simp only [List.mem_cons, List.not_mem_nil, or_false, not_or] at h
  obtain ⟨h0, h1, h2, h3, h4, h5, h6, h7, h8, h9, h10, h11⟩ := h
  simp [csrWritable, hne _ h0, hne _ h1, hne _ h2, hne _ h3, hne _ h4, hne _ h5, hne _ h6, hne _ h7, hne _ h8, hne _ h9,
    hne _ h10, hne _ h11]

/-- The accepted and the refused writes of ARBMODE once the array is idle (R177, R179). -/
theorem cswr_arbmode (e : BitVec 1) (g : BitVec 3) (v : BitVec 6) :
    CompletesWhen (.cswr e g 0x020 v) (fun s => (s.array (pairOf s.cur)).idle = true ∧ (s.rs v).extractLsb' 0 2 ≠ 3
          ∧ ∀ k < 4, tget 0 (s.array (pairOf s.cur)).accState k = 0)
        (fun s => { act := fun t => t.modArray (pairOf s.cur) fun a => { a with mode := (s.rs v).extractLsb' 0 2, cutA := false, cutB := false, windowB := false } })
    ∧ TrapsWhen (.cswr e g 0x020 v) (fun s => (s.array (pairOf s.cur)).idle = true ∧ ((s.rs v).extractLsb' 0 2 = 3
          ∨ ∃ k < 4, tget 0 (s.array (pairOf s.cur)).accState k ≠ 0)) 0x0B (fun _ => 6) := by
  constructor
  · refine completesWhen_of_issue slotAlone_of_not_hdrT fun s ⟨hidle, hmode⟩ => ?_
    rw [issueCswr_arbmode e g v hidle, if_pos ((modeOk_iff _ _).mpr hmode)]
    rfl
  · refine trapsWhen_of_issue_late slotAlone_of_not_hdrT fun s ⟨hidle, hmode⟩ => ?_
    rw [issueCswr_arbmode e g v hidle, if_neg (by rw [(not_modeOk_iff _ _).mpr hmode]; exact Bool.false_ne_true)]

/-- MPSET checks nothing; TCSET and TCGET check their header (R344). -/
theorem parameterForms (e : BitVec 1) (g m : BitVec 3) (t : BitVec 5) (v : BitVec 6) :
    Completes (.mpset e g m v) (fun s => toMp s m.toNat (s.rs v))
    ∧ CompletesWhen (.tcset e g t v) (fun s => t.toNat < (s.ctx s.cur).tileCount) (fun s => toTc s t.toNat (s.rs v))
    ∧ CompletesWhen (.tcget e g t v) (fun s => t.toNat < (s.ctx s.cur).tileCount) (fun s => toS s v ((s.ctx s.cur).tc t.toNat) 1)
    ∧ TrapsWhen (.tcset e g t v) (fun s => (s.ctx s.cur).tileCount ≤ t.toNat) 0x0D (fun _ => 0x11)
    ∧ TrapsWhen (.tcget e g t v) (fun s => (s.ctx s.cur).tileCount ≤ t.toNat) 0x0D (fun _ => 0x11) := by
  refine ⟨?mpset, ?tcset, ?tcget, ?tcsetBad, ?tcgetBad⟩
  case mpset => exact completes_of_issue slotAlone_of_not_hdrT fun _ => rfl
  case tcset | tcget => exact completesWhen_of_issue slotAlone_of_not_hdrT fun s h => Chk.bind_of_true (decide_eq_true h)
  case tcsetBad | tcgetBad =>
    exact trapsWhen_of_issue slotAlone_of_not_hdrT fun s h => Chk.bind_of_false (decide_eq_false (not_lt.mpr h))

/-- Settles O18. -/
theorem specialRegisterWrites : Obligations.SpecialRegisterWrites := by
  refine ⟨fun e g v => ?_, parameterForms⟩
  refine ⟨?qmr, ?evbase, ?nodebase, ?deroff, ?rngkey, ?sampcfg, ?trapvec, ?savebase, ?ckseq, ?sampctr, ?trappc, ?trappcBad, fun r hr => ?readOnly,
    cswr_arbmode e g v⟩
  case qmr =>
    exact cswr_completes e g 0x010 v (f := fun x c => { c with qmr := x.extractLsb' 0 3 }) (fun _ => rfl) (by decide)
      fun _ _ => rfl
  case evbase =>
    exact cswr_completes e g 0x011 v (f := fun x c => { c with evbase := x.extractLsb' 2 17 ++ 0#2 }) (fun _ => rfl) (by decide)
      fun x c => congrArg (fun y => { c with evbase := y }) (field_and_high x 0 17 2)
  case nodebase =>
    exact cswr_completes e g 0x012 v (f := fun x c => { c with nodebase := x.extractLsb' 4 15 ++ 0#4 }) (fun _ => rfl) (by decide)
      fun x c => congrArg (fun y => { c with nodebase := y }) (field_and_high x 0 15 4)
  case deroff =>
    exact cswr_completes e g 0x013 v (f := fun x c => { c with deroff := x.extractLsb' 4 19 ++ 0#4 }) (fun _ => rfl) (by decide)
      fun x c => congrArg (fun y => { c with deroff := y }) (field_and_high x 0 19 4)
  case rngkey =>
    exact cswr_completes e g 0x014 v (f := fun x c => { c with rngkey := x }) (fun _ => rfl) (by decide)
      fun _ _ => rfl
  case sampcfg =>
    exact cswr_completes e g 0x015 v (f := fun x c => { c with sampcfg := (x.extractLsb' 0 48).setWidth 64 }) (fun _ => rfl) (by decide)
      fun x c => congrArg (fun y => { c with sampcfg := y }) (and_low x)
  case trapvec =>
    exact cswr_completes e g 0x055 v (f := fun x c => { c with trapvec := x.extractLsb' 4 60 ++ 0#4 }) (fun _ => rfl) (by decide)
      fun x c => congrArg (fun y => { c with trapvec := y }) (and_high (m := 60) (n := 4) x)
  case savebase =>
    exact cswr_completes e g 0x056 v (f := fun x c => { c with savebase := x.extractLsb' 12 52 ++ 0#12 }) (fun _ => rfl) (by decide)
      fun x c => congrArg (fun y => { c with savebase := y }) (and_high (m := 52) (n := 12) x)
  case ckseq =>
    exact cswr_completes e g 0x100 v (f := fun x c => { c with ckseq := x.extractLsb' 0 32 }) (fun _ => rfl) (by decide)
      fun _ _ => rfl
  case sampctr =>
    exact cswr_completes e g 0x101 v (f := fun x c => { c with sampctr := x }) (fun _ => rfl) (by decide)
      fun _ _ => rfl
  case trappc =>
    refine completesWhen_of_issue slotAlone_of_not_hdrT fun s h => issueCswr_writes e g _ v h (by decide) fun c => ?_
    exact congrArg (fun y => { c with trappc := y, heldWrites := [], heldBar := none }) (and_high (m := 60) (n := 4) (s.rs v))
  case trappcBad => exact trapsWhen_of_issue slotAlone_of_not_hdrT fun s h => issueCswr_refused e g _ v (by rw [h]; rfl)
  case readOnly => exact trapsWhen_of_issue slotAlone_of_not_hdrT fun s _ => issueCswr_refused e g r v (csrWritable_readOnly hr)

end Sys2Proof.Machine
end

section
/-!
PROOF. Releases, barrier slots, growth and leaving (R255, R262, R345 to R349).
-/
set_option Elab.async false
namespace Sys2Proof.Machine

/-! ## An operation that waits for everything earlier -/

theorem bit_allClasses {m : BitVec 16} {oc : Nat} (h : bit m oc = true) : bit allClasses oc = true := by
  rw [bit, allClasses, BitVec.getLsbD_allOnes]
  exact decide_eq_true (BitVec.lt_of_getLsbD h)

/-- What is under way of some classes and below a number is under way of all and below a greater one. -/
theorem bulkBefore_mono {g : Nat} {m : BitVec 16} {q q' : Nat} {s : State} (hq : q ≤ q') (h : bulkBefore g m q s = true) :
    bulkBefore g allClasses q' s = true := by
  have hon {c oc seq : Nat} (h : (c == g && bit m oc && decide (seq < q)) = true) :
      (c == g && bit allClasses oc && decide (seq < q')) = true := by
    simp only [Bool.and_eq_true, decide_eq_true_eq] at h ⊢
    exact ⟨⟨h.1.1, bit_allClasses h.1.2⟩, by omega⟩
  simp only [bulkBefore, Bool.or_eq_true, List.any_eq_true] at h ⊢
  rcases h with (⟨j, hj, h⟩ | ⟨j, hj, h⟩) | ⟨x, hx, h⟩
  · exact .inl (.inl ⟨j, hj, hon h⟩)
  · exact .inl (.inr ⟨j, hj, hon h⟩)
  · refine .inr ⟨x, hx, ?_⟩
    cases hjob : x.2.job with
    | none => simp [hjob] at h
    | some j =>
      simp only [hjob] at h ⊢
      exact hon h

/-- The operation joined to the list of its context, with the next number. -/
def joinLate (g oc : Nat) (l : Late) (s : State) : State :=
  s.modCtx g fun c => ({ c with delayed := c.delayed ++ [{ oc := oc, seq := c.memSeq, act := l }] } : Ctx).nextSeq

theorem issueLate_eq (g oc : Nat) (l : Late) (s : State) : issueLate g oc l s = drainLate g (joinLate g oc l s) := rfl

/-- A release with nothing before it in the list is ready when it fits and no bulk operation is under way: no marker holds it longer. -/
theorem lateReady_alone {g : Nat} {d : Delayed} {s : State} (hd : (s.ctx g).delayed = [d]) (hr : d.releases = true) :
    lateReady g d s = (d.act.fits s && !bulkBefore g allClasses d.seq s) := by
  have hbefore : (s.ctx g).delayed.filter (fun e => decide (e.seq < d.seq)) = [] := by simp [hd]
  cases hb : bulkBefore g allClasses d.seq s
  case true => simp [lateReady, hbefore, hr, hb]
  case false =>
    have hfence : fenceHolds g d.oc d.seq s = false := by
      rw [fenceHolds, List.any_eq_false]
      intro f _ hf
      obtain ⟨hlt, he⟩ := Bool.and_eq_true_iff.mp hf
      have hlt : f.seq < d.seq := of_decide_eq_true hlt
      rcases Bool.or_eq_true_iff.mp he with hbulk | hlate
      · rw [bulkBefore_mono hlt.le hbulk] at hb
        cases hb
      · rw [hd] at hlate
        simp at hlate
        omega
    simp [lateReady, hbefore, hr, hb, hfence]

/-- A release issued with nothing before it in the list performs at once, or waits in the list. -/
theorem issueLate_alone {g oc : Nat} {l : Late} {s : State} (hd : (s.ctx g).delayed = [])
    (hr : (Delayed.mk oc (s.ctx g).memSeq l).releases = true) :
    issueLate g oc l s = if (l.fits s && !bulkPending g allClasses s) = true
      then claimHeld g (joinLate g oc l s) (performLate g l ((joinLate g oc l s).modCtx g fun c =>
        { c with delayed := c.delayed.filter fun e => e.seq ≠ (s.ctx g).memSeq }))
      else joinLate g oc l s := by
  have hone : ((joinLate g oc l s).ctx g).delayed = [{ oc := oc, seq := (s.ctx g).memSeq, act := l }] := by
    simp [joinLate, Ctx.nextSeq, hd]
  have hfits : l.fits (joinLate g oc l s) = l.fits s := by cases l <;> rfl
  have hready := lateReady_alone hone hr
  rw [issueLate_eq, drainLate, hone, List.foldl_cons, List.foldl_nil, hready, hfits]
  rfl

/-! ## Barrier slots -/

theorem performLate_arrive_group {g n : Nat} {s : State} (hlive : (s.ctx g).program ∈ (s.group (s.ctx g).group).live) :
    (performLate g (.arrive n) s).group (s.ctx g).group = (s.group (s.ctx g).group).arrive n (s.ctx g).program := by
  simp [performLate, hlive]

/-- The slot after an arrival: the last participant's completes the phase, another's joins the set (R345). -/
theorem Group.slot_arrive (x : Group) (n j : Nat) : (x.arrive n j).slot n =
    if x.live.all ((x.slot n).arrived ++ [j]).contains then { phase := (x.slot n).phase + 1, arrived := [] }
    else { x.slot n with arrived := (x.slot n).arrived ++ [j] } := by
  have hne : ((x.slot n).arrived ++ [j]).isEmpty = false := by simp
  have hjoin : ({ x with slots := tset x.slots n { x.slot n with arrived := (x.slot n).arrived ++ [j] } } : Group).slot n
      = { x.slot n with arrived := (x.slot n).arrived ++ [j] } := tget_tset_same ..
  simp only [Group.arrive, Group.barCheck, hjoin, hne, Bool.not_false, Bool.true_and]
  split
  · exact tget_tset_same ..
  · exact hjoin

theorem all_contains_snoc {l a : List Nat} {j : Nat} : l.all (a ++ [j]).contains = true ↔ ∀ z ∈ l, z ∈ a ∨ z = j := by
  simp [List.all_eq_true]

/-- The context of an arrival with the phase as its ticket. -/
def takeTicket (g n : Nat) (s : State) : State :=
  s.modCtx g fun c => { c with tickets := tset c.tickets n ((s.group (s.ctx g).group).slot n).phase }

theorem barArrive_eq (g n : Nat) (s : State) : barArrive g n s = issueLate g 15 (.arrive n) (takeTicket g n s) := rfl

section
variable {g n : Nat} {s : State} (hd : (s.ctx g).delayed = [])
include hd

/-- An arrival with no bulk operation under way is counted at once (R262). -/
theorem issueLate_arrive_counted (hb : bulkPending g allClasses s = false) (hlive : (s.ctx g).program ∈ (s.group (s.ctx g).group).live) :
    (issueLate g 15 (.arrive n) s).group (s.ctx g).group = (s.group (s.ctx g).group).arrive n (s.ctx g).program
      ∧ ((issueLate g 15 (.arrive n) s).ctx g).tickets = (s.ctx g).tickets := by
  rw [issueLate_alone hd rfl, if_pos (by rw [hb]; rfl)]
  generalize hu : (joinLate g 15 (.arrive n) s).modCtx g (fun c => { c with delayed := c.delayed.filter fun e => e.seq ≠ (s.ctx g).memSeq }) = u
  obtain ⟨hprog, hgrp, htick⟩ : (u.ctx g).program = (s.ctx g).program ∧ (u.ctx g).group = (s.ctx g).group
      ∧ (u.ctx g).tickets = (s.ctx g).tickets := by simp [← hu, joinLate, Ctx.nextSeq]
  have hgroup : u.group = s.group := by rw [← hu]; rfl
  obtain ⟨hctxs, -, -, -, -, -, -, -, hgroups⟩ := claimHeld_spec g (joinLate g 15 (.arrive n) s) (performLate g (.arrive n) u)
  have hgroups (k : Nat) : (claimHeld g (joinLate g 15 (.arrive n) s) (performLate g (.arrive n) u)).group k
      = (performLate g (.arrive n) u).group k := by simp only [State.group, hgroups]
  constructor
  · have harr := performLate_arrive_group (g := g) (n := n) (s := u) (by rwa [hprog, hgrp, hgroup])
    rw [hgroups, ← hgrp, harr, hprog, hgrp, hgroup]
  · rw [claimHeld_ctx]
    exact htick

theorem barArrive_counted (hb : bulkPending g allClasses s = false) (hlive : (s.ctx g).program ∈ (s.group (s.ctx g).group).live) :
    (barArrive g n s).group (s.ctx g).group = (s.group (s.ctx g).group).arrive n (s.ctx g).program
      ∧ tfind ((barArrive g n s).ctx g).tickets n = some ((s.group (s.ctx g).group).slot n).phase := by
  obtain ⟨hprog, hgrp, hdel, hseq, htick⟩ : ((takeTicket g n s).ctx g).program = (s.ctx g).program
      ∧ ((takeTicket g n s).ctx g).group = (s.ctx g).group ∧ ((takeTicket g n s).ctx g).delayed = (s.ctx g).delayed
      ∧ ((takeTicket g n s).ctx g).memSeq = (s.ctx g).memSeq
      ∧ ((takeTicket g n s).ctx g).tickets = tset (s.ctx g).tickets n ((s.group (s.ctx g).group).slot n).phase := by simp [takeTicket]
  have hbulk : bulkPending g allClasses (takeTicket g n s) = false := by rw [bulkPending, hseq]; exact hb
  obtain ⟨hcount, hkeep⟩ := issueLate_arrive_counted (n := n) (hdel.trans hd) hbulk (by rw [hprog, hgrp]; exact hlive)
  rw [hgrp, hprog] at hcount
  exact ⟨hcount, by rw [barArrive_eq, hkeep, htick, tfind_tset_same]⟩

/-- An arrival behind a bulk operation waits in the list (R262). -/
theorem barArrive_waits (hb : bulkPending g allClasses s = true) :
    (barArrive g n s).group (s.ctx g).group = s.group (s.ctx g).group
      ∧ (∃ d ∈ ((barArrive g n s).ctx g).delayed, d.act = .arrive n)
      ∧ tfind ((barArrive g n s).ctx g).tickets n = some ((s.group (s.ctx g).group).slot n).phase := by
  have hdel : ((takeTicket g n s).ctx g).delayed = [] := by simpa [takeTicket] using hd
  have hseq : ((takeTicket g n s).ctx g).memSeq = (s.ctx g).memSeq := by simp [takeTicket]
  have hbulk : bulkPending g allClasses (takeTicket g n s) = true := by rw [bulkPending, hseq]; exact hb
  have hwait : barArrive g n s = joinLate g 15 (.arrive n) (takeTicket g n s) := by
    rw [barArrive_eq, issueLate_alone hdel rfl, if_neg (by rw [hbulk]; exact Bool.false_ne_true)]
  rw [hwait]
  refine ⟨rfl, ⟨{ oc := 15, seq := (s.ctx g).memSeq, act := .arrive n }, ?_, rfl⟩, ?_⟩
  · simp [joinLate, Ctx.nextSeq, takeTicket]
  · simp [joinLate, Ctx.nextSeq, takeTicket, tfind_tset_same]

end

section
variable {s : State} {g n : Nat}

theorem barDeclared_ok (h : n < (s.group (s.ctx g).group).bars) : barDeclared s g n = .ok () := by
  rw [barDeclared, decide_eq_true h]
  rfl

theorem barDeclared_fails (h : ¬ n < (s.group (s.ctx g).group).bars) : barDeclared s g n = .error (.trap 0x0B 9) := by
  rw [barDeclared, decide_eq_false h]
  rfl

/-- A context has arrived when it is counted on the slot or its arrival waits in its list. -/
theorem barOnce_eq : barOnce s g n = if (s.ctx g).program ∈ ((s.group (s.ctx g).group).slot n).arrived ∨ ∃ d ∈ (s.ctx g).delayed, d.act = .arrive n
    then .error (.trap 0x0B 0x0C) else .ok () := by
  unfold barOnce
  split_ifs with h
  · rcases h with h | ⟨d, hd, h⟩
    · simp [h, Chk.need]
    · have hany : ((s.ctx g).delayed.any fun d => d.act == .arrive n) = true := List.any_eq_true.mpr ⟨d, hd, by simp [h]⟩
      simp [hany, Chk.need]
  · obtain ⟨hcount, hlate⟩ := not_or.mp h
    have hany : ((s.ctx g).delayed.any fun d => d.act == .arrive n) = false :=
      List.any_eq_false.mpr fun d hd hact => hlate ⟨d, hd, eq_of_beq hact⟩
    simp [hcount, hany, Chk.need]

theorem barWaits_iff : barWaits s g n = false ↔
    ∀ k, tfind (s.ctx g).tickets n = some k → k < ((s.group (s.ctx g).group).slot n).phase := by
  unfold barWaits
  cases tfind (s.ctx g).tickets n <;> simp

end

/-- A check that passed lets the rest of the issue go on. -/
theorem Chk.bind_of_ok {α β : Type} {x : Chk α} {a : α} {f : α → Chk β} (h : x = .ok a) : (x >>= f) = f a := by
  rw [h]
  rfl

/-- A check that stopped the slot stops the rest. -/
theorem Chk.bind_of_error {α β : Type} {x : Chk α} {st : Stop} {f : α → Chk β} (h : x = .error st) : (x >>= f) = .error st := by
  rw [h]
  rfl

/-- Settles O19: an arrival is a release, so the list of the context decides when it is counted. -/
theorem barrierForms : Obligations.BarrierForms := by
  intro e g n declared here passed
  have honce {s : State} (h : ¬ here s) : barOnce s s.cur n.toNat = .ok () := barOnce_eq.trans (if_neg h)
  refine ⟨?bar, ?wait, ?blocks, ?arriveWait, ?undeclared, ?twice, fun s k j => ?phase⟩
  case bar | arriveWait =>
    exact completesWhen_of_issue slotAlone_of_not_hdrT fun s ⟨hdec, hh⟩ => (Chk.bind_of_ok (barDeclared_ok hdec)).trans (Chk.bind_of_ok (honce hh))
  case wait =>
    exact completesWhen_of_issue slotAlone_of_not_hdrT fun s ⟨hdec, hp⟩ =>
      (Chk.bind_of_ok (barDeclared_ok hdec)).trans (Chk.bind_of_true (congrArg not (barWaits_iff.mpr hp)))
  case blocks =>
    refine blocksWhen_of_issue slotAlone_of_not_hdrT fun s ⟨hdec, hp⟩ =>
      (Chk.bind_of_ok (barDeclared_ok hdec)).trans (Chk.bind_of_false ?_)
    have hw : barWaits s s.cur n.toNat = true := by rw [← Bool.not_eq_false]; exact mt barWaits_iff.mp hp
    exact congrArg not hw
  case undeclared =>
    simp only [List.forall_mem_cons, List.not_mem_nil, false_implies, implies_true, and_true]
    refine ⟨?_, ?_, ?_⟩
    all_goals exact trapsWhen_of_issue slotAlone_of_not_hdrT fun s hdec => Chk.bind_of_error (barDeclared_fails hdec)
  case twice =>
    simp only [List.forall_mem_cons, List.not_mem_nil, false_implies, implies_true, and_true]
    refine ⟨?_, ?_⟩
    all_goals exact trapsWhen_of_issue slotAlone_of_not_hdrT fun s ⟨hdec, hh⟩ =>
      (Chk.bind_of_ok (barDeclared_ok hdec)).trans (Chk.bind_of_error (barOnce_eq.trans (if_pos hh)))
  case phase =>
    intro x t y hd hlive
    cases hb : bulkPending k allClasses s
    case false =>
      obtain ⟨hcount, htick⟩ := barArrive_counted (n := j) hd hb hlive
      have hy : y.slot j = _ := (congrArg (Group.slot · j) hcount).trans (x.slot_arrive j (s.ctx k).program)
      refine ⟨htick, fun _ hall => ?_, fun _ ⟨z, hz, hnot, hne⟩ => ?_, nofun⟩
      · rw [if_pos (all_contains_snoc.mpr hall)] at hy
        rw [hy]
        exact ⟨rfl, rfl⟩
      · rw [if_neg fun hall => (all_contains_snoc.mp hall z hz).elim hnot hne] at hy
        rw [hy]
        exact ⟨rfl, rfl⟩
    case true =>
      obtain ⟨hsame, hlist, htick⟩ := barArrive_waits (n := j) hd hb
      exact ⟨htick, nofun, nofun, fun _ => ⟨congrArg (Group.slot · j) hsame, hlist⟩⟩

/-! ## Growth (R347) -/

/-- GROW puts back its launch with the growth, and lands the answer. -/
def growTo (s : State) (d : BitVec 6) (r : Launch × W64) : Commit :=
  { act := fun t => ({ t with launches := tset t.launches (s.ctx s.cur).launch r.1 } : State).modCtx s.cur fun c => c.landS d r.2 1 }

/-- Once nothing of its context is under way, GROW answers with the growth of its launch. -/
theorem issueGrow_eq (e : BitVec 1) (g : BitVec 3) (d a : BitVec 6) {l : Launch} {s : State} (hl : tfind s.launches (s.ctx s.cur).launch = some l)
    (hn : (s.rs a).toNat < 2 ^ 32) (he : earlier s.cur allClasses (s.ctx s.cur).memSeq s = false) :
    issueAlone (.grow e g d a) s = .ok (growTo s d (growth l (s.rs a).toNat)) := by
  refine (Chk.bind_of_true (decide_eq_true hn)).trans ((Chk.bind_of_true (congrArg not he)).trans ?_)
  show (match tfind s.launches (s.ctx s.cur).launch with
    | none => landS s.env d (BitVec.allOnes 64) 1
    | some l => Except.ok (growTo s d (growth l (s.rs a).toNat))) = _
  rw [hl]

theorem growth_zero (l : Launch) : growth l 0 = (l, BitVec.ofNat 64 l.gcount) := rfl

theorem growth_past {l : Launch} {n : Nat} (hn : 0 < n) (h : l.glimit < l.gcount + n) : growth l n = (l, BitVec.allOnes 64) := by
  rw [growth, if_neg (by omega), if_pos h]

theorem growth_within {l : Launch} {n : Nat} (hn : 0 < n) (h : l.gcount + n ≤ l.glimit) :
    growth l n = ({ l with gcount := l.gcount + n }, BitVec.ofNat 64 l.gcount) := by
  rw [growth, if_neg (by omega), if_neg (by omega)]

/-! ## Leaving (R180, R346, R349) -/

theorem tfind_eq_none {α : Type} {t : Tbl α} {k : Nat} (h : k ∉ t.map (·.1)) : tfind t k = none := by
  induction t with
  | nil => rfl
  | cons x t ih =>
    simp only [List.map_cons, List.mem_cons, not_or] at h
    rw [tfind, if_neg (Ne.symm h.1), ih h.2]

theorem tfind_tdel_same {α : Type} {t : Tbl α} {k : Nat} (h : (t.map (·.1)).Nodup) : tfind (tdel t k) k = none := by
  induction t with
  | nil => rfl
  | cons x t ih =>
    obtain ⟨hx, ht⟩ := List.nodup_cons.mp h
    by_cases hk : x.1 = k
    · rw [tdel, if_pos hk]
      exact tfind_eq_none (hk ▸ hx)
    · rw [tdel, if_neg hk, tfind, if_neg hk, ih ht]

theorem tfind_tdel_other {α : Type} {t : Tbl α} {k j : Nat} (h : j ≠ k) : tfind (tdel t k) j = tfind t j := by
  induction t with
  | nil => rfl
  | cons x t ih =>
    by_cases hk : x.1 = k
    · rw [tdel, if_pos hk, tfind, if_neg (by omega)]
    · rw [tdel, if_neg hk, tfind, tfind, ih]

theorem tdel_sublist {α : Type} (t : Tbl α) (k : Nat) : (tdel t k).Sublist t := by
  induction t with
  | nil => exact .slnil
  | cons x t ih =>
    by_cases hk : x.1 = k
    · rw [tdel, if_pos hk]
      exact List.sublist_cons_self x t
    · rw [tdel, if_neg hk]
      exact ih.cons_cons x

/-- A bank that its owner gives up is free and both its accumulators are IDLE (R180). -/
def MArray.BankFree (a : MArray) (b : Nat) : Prop :=
  tfind a.owners b = none ∧ tget 0 a.accState (2 * b) = 0 ∧ tget 0 a.accState (2 * b + 1) = 0

theorem MArray.release_free {a : MArray} {b : Nat} (h : (a.owners.map (·.1)).Nodup) : (a.release b).BankFree b :=
  ⟨tfind_tdel_same h, by simp [MArray.release, tget_tset_other], by simp [MArray.release]⟩

theorem MArray.BankFree.release_other {a : MArray} {b b' : Nat} (h : a.BankFree b) (hb : b ≠ b') : (a.release b').BankFree b := by
  obtain ⟨ho, hlo, hhi⟩ := h
  refine ⟨(tfind_tdel_other hb).trans ho, ?_, ?_⟩
  · simp only [MArray.release]
    rw [tget_tset_other _ _ _ (by omega), tget_tset_other _ _ _ (by omega), hlo]
  · simp only [MArray.release]
    rw [tget_tset_other _ _ _ (by omega), tget_tset_other _ _ _ (by omega), hhi]

theorem MArray.releaseAll_free {a : MArray} {g b : Nat} (h : (a.owners.map (·.1)).Nodup) (hb : b < 2) (ho : tfind a.owners b = some g) :
    (a.releaseAll g).BankFree b := by
  have hall : a.releaseAll g = [0, 1].foldl (fun a b => if tfind a.owners b = some g then a.release b else a) a := rfl
  rw [hall, List.foldl_cons, List.foldl_cons, List.foldl_nil]
  obtain rfl | rfl : b = 0 ∨ b = 1 := by omega
  · rw [if_pos ho]
    split
    · exact (MArray.release_free h).release_other (by decide)
    · exact MArray.release_free h
  · have hkeep : tfind (if tfind a.owners 0 = some g then a.release 0 else a).owners 1 = some g := by
      split
      · exact (tfind_tdel_other (by decide)).trans ho
      · exact ho
    rw [if_pos hkeep]
    refine MArray.release_free ?_
    split
    · exact h.sublist ((tdel_sublist _ _).map _)
    · exact h

/-- What a context's leaving does to its cluster's units and copies leaves what is under way (R311, R349). -/
theorem endCtx_bulkBefore (k : Nat) (m : BitVec 16) (q : Nat) (s : State) : bulkBefore k m q (endCtx k s) = bulkBefore k m q s := by
  have hx : ((endCtx k s).core (coreOf k)).xferQ = (s.core (coreOf k)).xferQ := by simp [endCtx, passIssue]
  have hc : ((endCtx k s).cluster (clusterOf k)).copies =
      (s.cluster (clusterOf k)).copies.map fun j => if j.ctx == k then { j with stream := none } else j := by simp [endCtx, passIssue]
  have hu : ((endCtx k s).cluster (clusterOf k)).xfus = (s.cluster (clusterOf k)).xfus.map fun e => (e.1, e.2.leave k) := by simp [endCtx, passIssue]
  have hjob (x : Xfu) : (x.leave k).job = x.job := by
    unfold Xfu.leave
    split <;> rfl
  have hcopy (j : CopyJob) : (if j.ctx == k then { j with stream := none } else j).ctx = j.ctx
      ∧ (if j.ctx == k then { j with stream := none } else j).oc = j.oc ∧ (if j.ctx == k then { j with stream := none } else j).seq = j.seq := by
    split <;> exact ⟨rfl, rfl, rfl⟩
  simp only [bulkBefore, hx, hc, hu, List.any_map, Function.comp_def, hjob, hcopy]

theorem Group.barCheck_live (x : Group) (n : Nat) : (x.barCheck n).live = x.live := by
  unfold Group.barCheck
  dsimp only
  split <;> rfl

theorem Group.leave_live (x : Group) (j : Nat) : (x.leave j).live = x.live.filter (· ≠ j) := by
  have hfold (l : List Nat) (y : Group) : (l.foldl Group.barCheck y).live = y.live := by
    induction l generalizing y with
    | nil => rfl
    | cons n l ih => rw [List.foldl_cons, ih, Group.barCheck_live]
  unfold Group.leave
  dsimp only
  split
  · rfl
  · exact hfold _ _

theorem setPins_groups (fs : List Nat) (on : Bool) (s : State) : (setPins fs on s).groups = s.groups := by
  unfold setPins State.each
  induction fs generalizing s with
  | nil => rfl
  | cons f fs ih => exact (ih _).trans rfl

theorem closeSession_groups (cl : Nat) (s : State) : (closeSession cl s).groups = s.groups := by
  unfold closeSession
  split
  · rfl
  · exact setPins_groups ..

/-- Leaving takes the program of the context from its group's participants (R346). -/
theorem leaveGroup_live (g : Nat) (s : State) : ((leaveGroup g s).group (s.ctx g).group).live =
    (s.group (s.ctx g).group).live.filter (· ≠ (s.ctx g).program) := by
  have hmod : ((s.modGroup (s.ctx g).group fun x => x.leave (s.ctx g).program).group (s.ctx g).group).live =
      (s.group (s.ctx g).group).live.filter (· ≠ (s.ctx g).program) := by rw [State.group_modGroup_same, Group.leave_live]
  unfold leaveGroup
  dsimp only
  split
  · rw [State.group, closeSession_groups]
    exact hmod
  · exact hmod

section
variable {k : Nat} {s : State} (hd : (s.ctx k).delayed = [])
include hd

/-- With nothing of it under way a context leaves its group at once (R346). -/
theorem issueLate_leave_at_once (hb : bulkPending k allClasses s = false) :
    (s.ctx k).program ∉ ((issueLate k 15 .leave s).group (s.ctx k).group).live := by
  rw [issueLate_alone hd rfl, if_pos (by rw [hb]; rfl), State.group, (claimHeld_spec ..).2.2.2.2.2.2.2.2]
  generalize hu : ((joinLate k 15 .leave s).modCtx k (fun c => { c with delayed := c.delayed.filter fun e => e.seq ≠ (s.ctx k).memSeq })).modCtx k
    (fun c => { c with fences := [] }) = u
  obtain ⟨hprog, hgrp⟩ : (u.ctx k).program = (s.ctx k).program ∧ (u.ctx k).group = (s.ctx k).group := by
    simp [← hu, joinLate, Ctx.nextSeq]
  have hlive := leaveGroup_live k u
  rw [hprog, hgrp] at hlive
  have hperf : performLate k .leave ((joinLate k 15 .leave s).modCtx k fun c => { c with delayed := c.delayed.filter fun e => e.seq ≠ (s.ctx k).memSeq })
      = leaveGroup k u := congrArg (leaveGroup k) hu
  rw [hperf]
  rw [State.group] at hlive
  rw [hlive]
  simp

/-- Behind a bulk operation its leaving waits in the list. -/
theorem issueLate_leave_waits (hb : bulkPending k allClasses s = true) :
    (issueLate k 15 .leave s).groups = s.groups ∧ ∃ d ∈ ((issueLate k 15 .leave s).ctx k).delayed, d.act = .leave := by
  rw [issueLate_alone hd rfl, if_neg (by rw [hb]; exact Bool.false_ne_true)]
  exact ⟨rfl, { oc := 15, seq := (s.ctx k).memSeq, act := .leave }, by simp [joinLate, Ctx.nextSeq], rfl⟩

end

/-- A bundle whose operation changes nothing goes on to the next with what lands. -/
theorem done_nothing (i : Instr) (s : State) : ∃ w, (done i {} s).ctx s.cur =
    { ((s.ctx s.cur).advance (s.ctx s.cur).bundles none ((slotKey i).2.1 == 1) ((alone i s).writes.filter Name.grouped)).deliver with watch := w } := by
  have e : done i {} s = _ := commitBundle_one s.cur _ _ (alone i s) id none s
  obtain ⟨w, hctx, -⟩ := afterAct_spec s.cur ((slotKey i).2.1 == 1) ((alone i s).writes.filter Name.grouped) (alone i s) none s s
  exact ⟨w, by rw [e]; exact hctx⟩

@[simp] theorem Ctx.reg_watch (c : Ctx) (w : Nat) (n : Name) : ({ c with watch := w } : Ctx).reg n = c.reg n := by cases n <;> rfl

/-- YIELD's bundle commits as one that changes nothing, and its core passes issue (R348). -/
theorem done_yield (i : Instr) (s : State) : done i { yield := true } s = passIssue s.cur (done i {} s) := by
  simp [done, commitBundle, Results.commits]

/-- EXIT's bundle commits as one that changes nothing, and then the context ends (R349). -/
theorem done_exit (i : Instr) (s : State) : done i { exit := true } s = exitCtx s.cur (done i {} s) := by
  simp [done, commitBundle, Results.commits]

@[simp] theorem passIssue_ctx (g : Nat) (s : State) (h : Nat) : (passIssue g s).ctx h = s.ctx h := rfl

theorem passIssue_passing (g : Nat) (s : State) : ((passIssue g s).core (coreOf g)).passing = true := by simp [passIssue]

/-- Settles O20: growth by cases of the count, leaving by what of the context is under way. -/
theorem growYieldAndExit : Obligations.GrowYieldAndExit := by
  refine ⟨fun e g d a l s hs => ?grow, fun e g s => ⟨fun hs => ⟨?yield, ?ready⟩, fun hs => ?exit, fun k => ?leaves⟩⟩
  case grow =>
    intro k n put i hl
    refine ⟨fun hn => ?big, fun hn he => ?stalls, fun hn he => ?grows⟩
    case big => exact exec_traps slotAlone_of_not_hdrT hs (Chk.bind_of_false (decide_eq_false (not_lt.mpr hn)))
    case stalls =>
      have hissue : issueAlone i s = .error (.stall (orderProgress s.cur)) :=
        (Chk.bind_of_true (decide_eq_true hn)).trans (Chk.bind_of_error (congrArg (Chk.need · _) (congrArg not he)))
      rw [exec_issues slotAlone_of_not_hdrT hs, hissue]
    case grows =>
      have hissue := issueGrow_eq e g d a hl hn he
      refine ⟨fun h0 => ?_, fun h0 hlim => ?_, fun h0 hlim => ?_⟩
      · exact exec_completes slotAlone_of_not_hdrT hs (hissue.trans (by rw [show (s.rs a).toNat = 0 from h0, growth_zero]; rfl))
      · exact exec_completes slotAlone_of_not_hdrT hs (hissue.trans (by rw [growth_past h0 hlim]; rfl))
      · exact exec_completes slotAlone_of_not_hdrT hs (hissue.trans (by rw [growth_within h0 hlim]; rfl))
  case yield => rw [exec_completes slotAlone_of_not_hdrT hs (c := { yield := true }) rfl, done_yield]
  case ready =>
    intro t
    obtain ⟨w, hctx⟩ := done_nothing (.yield e g) s
    have hctx : t.ctx s.cur = _ := hctx
    have hrest := Ctx.deliver_rest ((s.ctx s.cur).advance (s.ctx s.cur).bundles none ((slotKey (.yield e g)).2.1 == 1)
      ((alone (.yield e g) s).writes.filter Name.grouped))
    rw [hctx]
    exact ⟨hrest.run, passIssue_passing .., hrest.pc, fun n hn =>
      (Ctx.reg_watch _ w n).trans ((Ctx.deliver_reg ((s.ctx s.cur).advance _ _ _ _) n hn).trans (Ctx.advance_reg ..))⟩
  case exit => rw [exec_completes slotAlone_of_not_hdrT hs (c := { exit := true }) rfl, done_exit]; rfl
  case leaves =>
    intro t
    have hctx : t.ctx k = { s.ctx k with
        run := .exited, flights := [], tags := [], handles := [], streams := [], preempt := false, holdBar := none, heldBar := none } := by simp [t, endCtx]
    have harr : t.array (pairOf k) = (s.array (pairOf k)).releaseAll k := by simp [t, endCtx, passIssue]
    have hgroups : t.groups = s.groups := by simp [t, endCtx, passIssue]
    have hbulk : bulkPending k allClasses t = bulkPending k allClasses s := by
      rw [bulkPending, hctx]
      exact endCtx_bulkBefore ..
    have hdel (hd : (s.ctx k).delayed = []) : (t.ctx k).delayed = [] := by rw [hctx]; exact hd
    refine ⟨by rw [hctx], passIssue_passing .., by rw [hctx], by rw [hctx], by rw [hctx], fun hnd b hb ho => ?_, fun hd hb => ?_, fun hd hb => ?_⟩
    · rw [harr]
      exact MArray.releaseAll_free hnd hb ho
    · have h := issueLate_leave_at_once (hdel hd) (hbulk.trans hb)
      rwa [hctx] at h
    · obtain ⟨hsame, hlist⟩ := issueLate_leave_waits (hdel hd) (hbulk.trans hb)
      refine ⟨?_, hlist⟩
      simp only [State.group, hsame, hgroups]

end Sys2Proof.Machine
end

section
/-!
PROOF. Traps and returns (R343, R351 to R354, R427 to R434).
-/
set_option Elab.async false
namespace Sys2Proof.Machine

/-! ## Where a trap leaves its context -/

@[simp] theorem violation_ctx (kind cause part who : Nat) (a : W64) (s : State) (h : Nat) : (violation kind cause part who a s).ctx h = s.ctx h := rfl

@[simp] theorem errorRecord_ctx (sev str : Nat) (p : Option Nat) (place : Nat) (a : W64) (s : State) (h : Nat) :
    (errorRecord sev str p place a s).ctx h = s.ctx h := by
  unfold errorRecord
  dsimp only
  split
  · split <;> rfl
  · rfl

@[simp] theorem consumed_ctx (g : Nat) (info : W64) (s : State) (h : Nat) : (consumed g info s).ctx h = s.ctx h := errorRecord_ctx ..

@[simp] theorem secondCause_ctx (g cause : Nat) (info : W64) (s : State) (h : Nat) : (secondCause g cause info s).ctx h = s.ctx h := by
  unfold secondCause
  split <;> rfl

/-- A frozen context, and any freeze for space that was to come is reported at once (R393, R420). -/
theorem freezeCtx_ctx (g cause first : Nat) (info : W64) (s : State) :
    (freezeCtx g cause first info s).ctx g = { (s.ctx g).freeze cause with boundaryFreeze := none } := by
  unfold freezeCtx spaceRecord
  simp only [violation_ctx, State.ctx_modCtx_same]
  split
  · simp
  next hnone =>
    rw [violation_ctx, State.ctx_modCtx_same]
    exact congrArg (fun b => { (s.ctx g).freeze cause with boundaryFreeze := b }) hnone

/-- The report of poison that a trap may make first. -/
theorem reported_ctx {P : Prop} [Decidable P] (g : Nat) (info : W64) (s : State) (h : Nat) :
    (if P then consumed g info s else s).ctx h = s.ctx h := by
  split
  · exact consumed_ctx ..
  · rfl

section
variable {g cause : Nat} {info : W64} {mask : BitVec 4} {pc : W64} {s : State} (hstream : (s.ctx g).stream = false)
include hstream

/-- A trap in handler mode freezes, and the first trap's registers stay (R354). -/
theorem enterTrap_in_handler (hm : (s.ctx g).hm = true) : (enterTrap g cause info mask pc s).ctx g = { (s.ctx g).freeze cause with boundaryFreeze := none } := by
  simp [enterTrap, reported_ctx, hm, hstream, freezeCtx_ctx]

variable (hm : (s.ctx g).hm = false)
include hm

/-- Outside handler mode the context is entered, and then freezes, waits or goes to its handler. -/
theorem enterTrap_outside : ∃ u : State, (∀ h, u.ctx h = s.ctx h) ∧ enterTrap g cause info mask pc s =
    if freezes cause info || (decide ((s.ctx g).trapvec = 0) && cause != 0x08) then
      freezeCtx g cause cause info (u.setCtx g ((s.ctx g).entered cause info mask pc))
    else if (s.ctx g).trapvec = 0 then u.setCtx g { (s.ctx g).entered cause info mask pc with run := .frameWait }
    else u.setCtx g { (s.ctx g).entered cause info mask pc with run := .ready, pc := (s.ctx g).trapvec } := by
  refine ⟨if cause = 0x14 ∧ !bit info 63 then consumed g info s else s, reported_ctx g info s, ?_⟩
  have hu : (if cause = 0x14 ∧ !bit info 63 then consumed g info s else s).ctx g = s.ctx g := reported_ctx g info s g
  unfold enterTrap
  dsimp only
  generalize (if cause = 0x14 ∧ !bit info 63 then consumed g info s else s) = u at hu
  rw [hu, if_neg (by simp [hm])]
  exact if_neg (Bool.eq_false_iff.1 hstream)

/-- A cause that freezes, or that finds no handler (R428). -/
theorem enterTrap_freezes (h : freezes cause info = true ∨ (s.ctx g).trapvec = 0 ∧ cause ≠ 0x08) :
    (enterTrap g cause info mask pc s).ctx g = { ((s.ctx g).entered cause info mask pc).freeze cause with boundaryFreeze := none } := by
  obtain ⟨u, -, he⟩ := enterTrap_outside (cause := cause) (info := info) (mask := mask) (pc := pc) hstream hm
  have hc : (freezes cause info || (decide ((s.ctx g).trapvec = 0) && cause != 0x08)) = true := by simpa using h
  rw [he, if_pos hc, freezeCtx_ctx, State.ctx_setCtx_same]

/-- A frame that is not present, with no handler, is the runtime's (R431). -/
theorem enterTrap_frameWait (hf : freezes cause info = false) (hv : (s.ctx g).trapvec = 0) (hc : cause = 0x08) :
    (enterTrap g cause info mask pc s).ctx g = { (s.ctx g).entered cause info mask pc with run := .frameWait } := by
  obtain ⟨u, -, he⟩ := enterTrap_outside (cause := cause) (info := info) (mask := mask) (pc := pc) hstream hm
  rw [he, if_neg (by rw [hf, hc]; simp), if_pos hv, State.ctx_setCtx_same]

/-- A trap with a handler goes on at TRAPVEC (R427). -/
theorem enterTrap_handler (hf : freezes cause info = false) (hv : (s.ctx g).trapvec ≠ 0) :
    (enterTrap g cause info mask pc s).ctx g = { (s.ctx g).entered cause info mask pc with run := .ready, pc := (s.ctx g).trapvec } := by
  obtain ⟨u, -, he⟩ := enterTrap_outside (cause := cause) (info := info) (mask := mask) (pc := pc) hstream hm
  rw [he, if_neg (by rw [hf, decide_eq_false hv]; simp), if_neg hv, State.ctx_setCtx_same]

end

/-- A trap taken with a handler leaves the context ready, at TRAPVEC. -/
theorem takeTrap_handler {g cause : Nat} {info : W64} {mask : BitVec 4} {s : State} (hstream : (s.ctx g).stream = false) (hm : (s.ctx g).hm = false)
    (hf : freezes cause info = false) (hv : (s.ctx g).trapvec ≠ 0) : (takeTrap g cause info mask s).ctx g =
      { (s.ctx g).entered cause info mask (s.ctx g).pc with run := .ready, pc := (s.ctx g).trapvec } := by
  have h := enterTrap_handler (mask := mask) (pc := (s.ctx g).pc) hstream hm hf hv
  unfold takeTrap
  dsimp only
  rw [if_pos (by rw [h]; rfl), h]

/-- A trap taken where the context stops issuing passes issue (R40, R42). -/
theorem takeTrap_passes {g cause : Nat} {info : W64} {mask : BitVec 4} {s : State}
    (h : ((enterTrap g cause info mask (s.ctx g).pc s).ctx g).run.isReady = false) :
    takeTrap g cause info mask s = passIssue g (enterTrap g cause info mask (s.ctx g).pc s) := by
  unfold takeTrap
  exact if_neg (by simp [h])

/-- A result that a snapshot holds is poisoned or still has bundles to go. -/
theorem Ctx.snapshotNow_distant (c : Ctx) : c.snapshotNow.all (fun e => e.poison || decide (0 < e.dist)) = true := by
  rw [List.all_eq_true]
  intro e he
  obtain ⟨f, hf, rfl⟩ := List.mem_map.1 he
  have hl : f.lands c.bundles = false := by simpa using (List.mem_filter.1 hf).2
  rw [Flight.lands, Bool.and_eq_false_iff] at hl
  obtain hd | hp := hl
  · have : c.bundles < f.due := by simpa using hd
    have hdist : 0 < (f.snap c.bundles).dist := Nat.sub_pos_of_lt this
    simp [hdist]
  · have : (f.snap c.bundles).poison = true := by
      show f.poison.isSome = true
      rw [← Option.not_isNone, hp]; rfl
    simp [this]

/-- Settles O21: outside handler mode a trap enters its handler. -/
theorem trapEntry : Obligations.TrapEntry := by
  intro g cause info mask s hm hstream hv hf t c
  have hc : c = _ := takeTrap_handler hstream hm hf hv
  rw [hc]
  exact ⟨rfl, rfl, rfl, rfl, rfl, rfl, rfl, rfl, fun n => rfl, rfl, Ctx.snapshotNow_distant _,
    fun n => by cases n <;> rfl, (takeTrap_kept g cause info mask s).memory.mem⟩

/-- Settles O22: the cause freezes the context, which keeps the first trap's registers in handler mode. -/
theorem trapFreezes : Obligations.TrapFreezes := by
  intro g cause info mask s hstream t
  refine ⟨fun hm h => ?_, fun hm hc hv => ?_, fun hm => ?_⟩
  · have he := enterTrap_freezes (info := info) (mask := mask) (pc := (s.ctx g).pc) hstream hm h
    have ht : t = _ := takeTrap_passes (by rw [he]; rfl)
    rw [ht, passIssue_ctx, he]
    exact ⟨rfl, rfl, rfl, rfl, passIssue_passing ..⟩
  · have he := enterTrap_frameWait (info := info) (mask := mask) (pc := (s.ctx g).pc) hstream hm (by subst hc; rfl) hv hc
    have ht : t = _ := takeTrap_passes (by rw [he]; rfl)
    rw [ht, passIssue_ctx, he]
    exact ⟨rfl, rfl⟩
  · have he := enterTrap_in_handler (cause := cause) (info := info) (mask := mask) (pc := (s.ctx g).pc) hstream hm
    have ht : t = _ := takeTrap_passes (by rw [he]; rfl)
    rw [ht, passIssue_ctx, he]
    exact ⟨rfl, ⟨rfl, rfl, rfl, rfl, rfl, rfl⟩, rfl⟩

/-! ## A trap after the commit (R351) -/

theorem Ctx.write_boundaryFreeze (c : Ctx) (d : Dest) (v : Vec) (m : W64) : (c.write d v m).boundaryFreeze = c.boundaryFreeze := by
  cases d with
  | s n => by_cases h : n = 0 <;> simp [Ctx.write, h]
  | p n => by_cases h : n = 0 <;> simp [Ctx.write, h]
  | _ => rfl

theorem foldl_write_boundaryFreeze (l : List Flight) (c : Ctx) :
    (l.foldl (fun c f => c.write f.dest f.val f.mask) c).boundaryFreeze = c.boundaryFreeze := by
  induction l generalizing c with
  | nil => rfl
  | cons f l ih => rw [List.foldl_cons, ih, Ctx.write_boundaryFreeze]

theorem Ctx.deliver_boundaryFreeze (c : Ctx) : c.deliver.boundaryFreeze = c.boundaryFreeze := foldl_write_boundaryFreeze ..

/-- A bundle whose operation traps after it has committed: where no freeze for space is due, the trap is taken at the boundary. -/
theorem done_post (i : Instr) (p : Nat × W64) (s : State) (hb : (s.ctx s.cur).boundaryFreeze = none) :
    done i { post := some p } s = takeTrap s.cur p.1 p.2 0 (done i {} s) := by
  have hd : ∀ c : Ctx, c.boundaryFreeze = none → c.deliver.boundaryFreeze = none := fun c h => (c.deliver_boundaryFreeze).trans h
  obtain ⟨cause, info⟩ := p
  have hd' := hd ((s.ctx s.cur).advance (s.ctx s.cur).bundles none ((slotKey i).2.1 == 1) ((alone i s).writes.filter Name.grouped)) hb
  simp only [Ctx.advance] at hd'
  simp [done, commitBundle, Results.commits, claimHeld_same] at hd' ⊢
  rw [hd']

theorem done_nothing_mem (i : Instr) (s : State) : (done i {} s).mem = s.mem := by
  have e : done i {} s = _ := commitBundle_one s.cur _ _ (alone i s) id none s
  obtain ⟨-, -, -, hmem, -⟩ := afterAct_spec s.cur ((slotKey i).2.1 == 1) ((alone i s).writes.filter Name.grouped) (alone i s) none s s
  rw [e]
  exact hmem.mem.trans (claimHeld_spec ..).2.2.1

/-- Settles O23: the bundle commits empty and the trap is taken at the boundary after it. -/
theorem trapFormsTrapAfterCommit : Obligations.TrapFormsTrapAfterCommit := by
  intro e g code s hm hstream hb hv p hp hi
  obtain ⟨i, cause⟩ := p
  have key : exec i s = .next (takeTrap s.cur cause (code.setWidth 64) 0 (done i {} s)) ∧ freezes cause (code.setWidth 64) = false := by
    simp only [List.mem_cons, List.not_mem_nil, or_false, Prod.mk.injEq] at hp
    obtain ⟨rfl, rfl⟩ | ⟨rfl, rfl⟩ | ⟨rfl, rfl⟩ := hp
    · exact ⟨(exec_completes slotAlone_of_not_hdrT hi rfl).trans (congrArg Host.Outcome.next (done_post _ (0x11, code.setWidth 64) s hb)), rfl⟩
    · exact ⟨(exec_completes slotAlone_of_not_hdrT hi rfl).trans (congrArg Host.Outcome.next (done_post _ (0x12, code.setWidth 64) s hb)), rfl⟩
    · exact ⟨(exec_completes slotAlone_of_not_hdrT hi rfl).trans (congrArg Host.Outcome.next (done_post _ (0x13, code.setWidth 64) s hb)), rfl⟩
  obtain ⟨hexec, hf⟩ := key
  obtain ⟨w, hd⟩ := done_nothing i s
  set c := ((s.ctx s.cur).advance (s.ctx s.cur).bundles none ((slotKey i).2.1 == 1) ((alone i s).writes.filter Name.grouped)) with hc
  have rest := c.deliver_rest
  have ht := takeTrap_handler (cause := cause) (info := code.setWidth 64) (mask := 0) (s := done i {} s) (g := s.cur)
    (by rw [hd]; exact rest.place.1.trans hstream) (by rw [hd]; exact rest.trap.2.1.trans hm) hf
    (by rw [hd]; exact fun h => hv (rest.special.vectors.1.symm.trans h))
  refine ⟨_, hexec, ?_⟩
  rw [ht, hd]
  exact ⟨rest.special.vectors.1, rfl, rfl, rfl, rfl, rest.pc, rest.bundles, (takeTrap_kept ..).memory.mem.trans (done_nothing_mem i s)⟩

/-! ## The return (R352, R434) -/

/-- The context after the bundle of an RFE: the handler's results landed, the snapshot replayed. -/
theorem done_rfe (i : Instr) (s : State) : ∃ w, (done i { rfe := true } s).ctx s.cur =
    { (((s.ctx s.cur).advance (s.ctx s.cur).bundles none ((slotKey i).2.1 == 1) ((alone i s).writes.filter Name.grouped)).rfe
        s.cycles.toNat).deliver with watch := w } := by
  unfold done
  set ws := (alone i s).writes.filter Name.grouped
  generalize ((slotKey i).2.1 == 1) = stop
  let d := (((s.ctx s.cur).advance (s.ctx s.cur).bundles none stop ws).rfe s.cycles.toNat).deliver
  let u := meter s.cur (bundleEnergy [i]) (spendTime s.cur (s.setCtx s.cur d))
  have hu : u.ctx s.cur = d := by
    rw [((spendTime_accounted ..).trans (meter_accounted ..)).ctx, State.ctx_setCtx_same]
  have e : commitBundle s.cur stop ws [(alone i s, .ok { rfe := true })] s =
      if !(s.ctx s.cur).run.isReady || resetsWatchdog i then resetWatch s.cur u else u := by
    simp [commitBundle, Results.commits, claimHeld_same, u, d, Ctx.advance, alone]
  rw [e]
  split
  · exact ⟨u.cycles.toNat, by simp [resetWatch, hu, d]⟩
  · exact ⟨d.watch, hu⟩

/-- Where every held result has bundles to go, none of the replay lands at the bundle it returns to. -/
theorem Ctx.rfe_deliver (c : Ctx) (now : Nat) (hd : ∀ x ∈ c.snapshot, 0 < x.dist) :
    (c.rfe now).deliver.flights = c.snapshot.map (·.flight c.bundles) ∧ ∀ n, (c.rfe now).deliver.reg n = (c.rfe now).reg n := by
  have rest := foldl_write_rest c.flights c
  have hf : (c.rfe now).flights = c.snapshot.map (·.flight c.bundles) := by
    show (c.flights.foldl (fun c f => c.write f.dest f.val f.mask) c).snapshot.map
      (fun x => x.flight (c.flights.foldl (fun c f => c.write f.dest f.val f.mask) c).bundles) = _
    rw [rest.trap.2.2.2.2.2, rest.bundles]
  have hb : (c.rfe now).bundles = c.bundles := rest.bundles
  have hl : ∀ f ∈ (c.rfe now).flights, f.lands (c.rfe now).bundles = false := by
    rw [hf, hb]
    intro f hm
    obtain ⟨x, hx, rfl⟩ := List.mem_map.1 hm
    have : ¬ (x.flight c.bundles).due ≤ c.bundles := by
      have := hd x hx
      show ¬ c.bundles + x.dist ≤ c.bundles
      omega
    simp [Flight.lands, this]
  have hnone : (c.rfe now).flights.filter (·.lands (c.rfe now).bundles) = [] := List.filter_eq_nil_iff.2 fun f h => by simp [hl f h]
  refine ⟨?_, fun n => ?_⟩
  · rw [Ctx.deliver_flights, ← hf]
    exact List.filter_eq_self.2 fun f h => by simp [hl f h]
  · unfold Ctx.deliver Ctx.landDue
    rw [hnone]
    cases n <;> rfl

/-- Registers over a return: those the handler's results write. -/
theorem Ctx.rfe_reg (c : Ctx) (now : Nat) (n : Name) :
    (c.rfe now).reg n = (c.flights.foldl (fun c f => c.write f.dest f.val f.mask) c).reg n := by
  cases n <;> rfl

/-- Settles O24: RFE checks its mode, its target and the handler's results, and returns; the forms of a handler alone trap outside it. -/
theorem returnFromHandler : Obligations.ReturnFromHandler := by
  intro e g s
  refine ⟨fun hi hm ht hp => ?returns, fun m r i hmem => ?outside, fun hi hm ht => ?target⟩
  case returns =>
    have hnone : (s.ctx s.cur).flights.findSome? (·.poison) = none := List.findSome?_eq_none_iff.2 hp
    have hissue : issueAlone (.rfe e g) s = .ok { rfe := true } := by
      refine (Chk.bind_of_true hm).trans ((Chk.bind_of_ok (targetOk_eq_ok ht)).trans ?_)
      show (match (s.ctx s.cur).flights.findSome? (·.poison) with
        | some info => Except.error (Stop.trap 0x14 info) | none => Except.ok { rfe := true : Commit }) = _
      rw [hnone]
    have hexec := exec_completes slotAlone_of_not_hdrT hi hissue
    refine ⟨hexec, _, hexec, ?_⟩
    obtain ⟨w, hd⟩ := done_rfe (.rfe e g) s
    set c := (s.ctx s.cur).advance (s.ctx s.cur).bundles none ((slotKey (.rfe e g)).2.1 == 1) ((alone (.rfe e g) s).writes.filter Name.grouped)
    have rest := (c.rfe s.cycles.toNat).deliver_rest
    have held := foldl_write_rest c.flights c
    rw [hd]
    refine ⟨rest.trap.2.1, rest.pc, rest.trap.2.2.2.2.2, fun n hn hx => ?_, fun hx => (c.rfe_deliver _ hx).1⟩
    calc _ = (c.rfe s.cycles.toNat).deliver.reg n := Ctx.reg_watch ..
      _ = (c.rfe s.cycles.toNat).reg n := (c.rfe_deliver _ hx).2 n
      _ = (c.flights.foldl (fun c f => c.write f.dest f.val f.mask) c).reg n := c.rfe_reg _ n
      _ = c.reg n := foldl_write_other _ _ _ fun f hf => by simpa using List.any_eq_false.1 hn f hf
      _ = (s.ctx s.cur).reg n := Ctx.advance_reg ..
  case outside =>
    simp only [List.mem_cons, List.not_mem_nil, or_false] at hmem
    obtain rfl | rfl | rfl := hmem <;>
      exact trapsWhen_of_issue slotAlone_of_not_hdrT fun s hm => Chk.bind_of_false hm
  case target =>
    exact exec_traps slotAlone_of_not_hdrT hi ((Chk.bind_of_true hm).trans (Chk.bind_of_error (targetOk_eq_trap ht)))

/-! ## There and back -/

/-- A result that is neither poisoned nor of the transform units comes back from its snapshot entry as it was. -/
theorem Flight.snap_flight (f : Flight) (j : Nat) (hp : f.poison = none) (hd : ∀ op n z lo hi l, f.dest ≠ .ck op n z lo hi l) (hj : j ≤ f.due) :
    (f.snap j).flight j = f := by
  obtain ⟨dest, val, mask, due, squash, poison⟩ := f
  obtain rfl : poison = none := hp
  have hdue : j + (due - j) = due := Nat.add_sub_cancel' hj
  cases dest with
  | ck op n z lo hi l => exact absurd rfl (hd op n z lo hi l)
  | _ => simp [Flight.snap, Snap.flight, Snap.dest, Dest.code, hdue]

/-- What of unpoisoned results has not landed. -/
theorem lands_eq_false {f : Flight} (hp : f.poison = none) (j : Nat) : (!f.lands j) = decide (j < f.due) := by
  have : decide (j < f.due) = !decide (f.due ≤ j) := by rw [← decide_not, decide_eq_decide, Nat.not_le]
  simp [Flight.lands, hp, this]

/-- Settles O25: the snapshot holds what has not landed, and each entry gives its result back. -/
theorem trapThenReturnRestores : Obligations.TrapThenReturnRestores := by
  intro c cause info mask r now hc h t
  refine ⟨?_, rfl, rfl, rfl, rfl, fun n => by cases n <;> rfl⟩
  have hkept : c.flights.filter (fun f => !f.lands c.bundles) = c.flights.filter (fun f => decide (c.bundles < f.due)) :=
    List.filter_congr fun f hf => lands_eq_false (hc f hf).1 c.bundles
  calc t.flights = c.snapshotNow.map (·.flight c.bundles) := rfl
    _ = (c.flights.filter fun f => decide (c.bundles < f.due)).map fun f => (f.snap c.bundles).flight c.bundles := by
      rw [Ctx.snapshotNow, hkept, List.map_map]; rfl
    _ = c.flights.filter fun f => decide (c.bundles < f.due) := by
      refine (List.map_congr_left fun f hf => ?_).trans (List.map_id _)
      obtain ⟨hmem, hdue⟩ := List.mem_filter.1 hf
      exact f.snap_flight _ (hc f hmem).1 (hc f hmem).2 (Nat.le_of_lt (by simpa using hdue))

end Sys2Proof.Machine
end

section
/-!
PROOF. Vector forms that have no check of their own: integer lanes and moves (R140, R142, R145, R155 to R158).
-/
set_option Elab.async false
namespace Sys2Proof.Machine

/-! ## What the lane forms commit -/

section
variable {i : Instr} {q : BitVec 1} {g : BitVec 3} {d a b : BitVec 5} {lat : Nat}

/-- A vector result under the lane mask, on which it may depend too. -/
theorem completes_landVec_mask {x : W64 → State → Vec} (hi : slotKey i = (1, 0, g))
    (h : ∀ s, issueAlone i s = landVec (alone i s).env q d (x (guardMask i s) s) lat s) :
    Completes i fun s => toV s d (x ((s.ctx s.cur).p g.toNat) s) ((s.ctx s.cur).p g.toNat) lat q := by
  have hc := completes_of_issueAlone (slotAlone_of_slot_v (by rw [hi])) (fun m s => toV s d (x m s) m lat q) h
  rwa [hi] at hc

theorem completes_landVec {x y : State → Vec} (hi : slotKey i = (1, 0, g))
    (h : ∀ s, issueAlone i s = landVec (alone i s).env q d (x s) lat s) (hxy : ∀ s, x s = y s) :
    Completes i fun s => toV s d (y s) ((s.ctx s.cur).p g.toNat) lat q := by
  obtain rfl : x = y := funext hxy
  exact completes_landVec_mask (x := fun _ => x) hi h

/-- A form of two vectors computes lane by lane (R140). -/
theorem completes_lanes2 {op f : W32 → W32 → W32} (hi : slotKey i = (1, 0, g))
    (h : ∀ s, issueAlone i s = lanes2 (alone i s).env q d a b op lat s) (hf : ∀ x y, op x y = f x y) :
    Completes i fun s => toV s d (vecOf fun k => f (lane (s.rv a) k) (lane (s.rv b) k)) ((s.ctx s.cur).p g.toNat) lat q :=
  completes_landVec hi h fun _ => congrArg vecOf (funext fun _ => hf ..)

/-- A form of one vector computes lane by lane. -/
theorem completes_lanes1 {op : State → W32 → W32} (hi : slotKey i = (1, 0, g))
    (h : ∀ s, issueAlone i s = lanes1 (alone i s).env q d a (op s) lat s) :
    Completes i fun s => toV s d (vecOf fun k => op s (lane (s.rv a) k)) ((s.ctx s.cur).p g.toNat) lat q :=
  completes_landVec (x := fun s => vecOf fun k => op s (lane (s.rv a) k)) hi h fun _ => rfl

end

/-! ## The lane functions (R145) -/

theorem sat_eq_clamp (x lo hi : Int) (h : lo ≤ hi) : sat x lo hi = max lo (min hi x) := by
  unfold sat
  split_ifs <;> omega

section
variable (x y : W32)

theorem vaddLane_wrap : vaddLane 0 x y = x + y := rfl
theorem vsubLane_wrap : vsubLane 0 x y = x - y := rfl
theorem vmulLane_low : vmulLane 0 x y = x * y := rfl
theorem vaddLane_signed : vaddLane 1 x y = BitVec.ofInt 32 (max (-2 ^ 31) (min (2 ^ 31 - 1) (x.toInt + y.toInt))) :=
  congrArg (BitVec.ofInt 32) (sat_eq_clamp _ _ _ (by decide))
theorem vaddLane_unsigned : vaddLane 2 x y = BitVec.ofInt 32 (max 0 (min (2 ^ 32 - 1) ((x.toNat : Int) + y.toNat))) :=
  congrArg (BitVec.ofInt 32) (sat_eq_clamp _ _ _ (by decide))
theorem vsubLane_signed : vsubLane 1 x y = BitVec.ofInt 32 (max (-2 ^ 31) (min (2 ^ 31 - 1) (x.toInt - y.toInt))) :=
  congrArg (BitVec.ofInt 32) (sat_eq_clamp _ _ _ (by decide))
theorem vsubLane_unsigned : vsubLane 2 x y = BitVec.ofInt 32 (max 0 (min (2 ^ 32 - 1) ((x.toNat : Int) - y.toNat))) :=
  congrArg (BitVec.ofInt 32) (sat_eq_clamp _ _ _ (by decide))

/-- The high half of a 64-bit value. -/
theorem high_word_ofInt (z : Int) : (BitVec.ofInt 64 z).extractLsb' 32 32 = BitVec.ofInt 32 (z / 2 ^ 32) := by
  apply BitVec.eq_of_toNat_eq
  rw [BitVec.extractLsb'_toNat, BitVec.toNat_ofInt, BitVec.toNat_ofInt, Nat.shiftRight_eq_div_pow]
  omega

theorem vmulLane_high_signed : vmulLane 1 x y = (x.signExtend 64 * y.signExtend 64).extractLsb' 32 32 := by
  have hprod : x.signExtend 64 * y.signExtend 64 = BitVec.ofInt 64 (x.toInt * y.toInt) := (BitVec.ofInt_mul ..).symm
  rw [hprod, high_word_ofInt]
  rfl

theorem vmulLane_high_unsigned : vmulLane 2 x y = (x.setWidth 64 * y.setWidth 64).extractLsb' 32 32 := by
  have hprod : x.setWidth 64 * y.setWidth 64 = BitVec.ofInt 64 (x.toNat * y.toNat : Nat) := by
    rw [BitVec.ofInt_natCast, BitVec.ofNat_mul, BitVec.ofNat_toNat, BitVec.ofNat_toNat]
  rw [hprod, high_word_ofInt]
  exact (BitVec.ofInt_natCast ..).symm

theorem vminLane_signed : vminLane 0 x y = if y.toInt < x.toInt then y else x := by simp [vminLane, BitVec.slt_iff_toInt_lt]
theorem vminLane_unsigned : vminLane 1 x y = if y.toNat < x.toNat then y else x := by simp [vminLane, BitVec.ult_iff_lt, BitVec.lt_def]
theorem vmaxLane_signed : vmaxLane 0 x y = if x.toInt < y.toInt then y else x := by simp [vmaxLane, BitVec.slt_iff_toInt_lt]
theorem vmaxLane_unsigned : vmaxLane 1 x y = if x.toNat < y.toNat then y else x := by simp [vmaxLane, BitVec.ult_iff_lt, BitVec.lt_def]

theorem vshlLane_eq : vshlLane x y = if 32 ≤ y.toNat % 256 then 0 else x <<< (y.toNat % 256) := by
  split
  next h => exact BitVec.shiftLeft_eq_zero h
  · rfl

theorem vshrLane_eq : vshrLane x y = if 32 ≤ y.toNat % 256 then 0 else x >>> (y.toNat % 256) := by
  split
  next h => exact BitVec.ushiftRight_eq_zero h
  · rfl

end

/-! ## The forms of two vectors -/

section
variable (q : BitVec 1) (g : BitVec 3) (d a b : BitVec 5) {f : W32 → W32 → W32}

theorem completes_vadd {m : BitVec 6} (hf : ∀ x y, vaddLane m.toNat x y = f x y) :
    Completes (.vadd q g d a b m) fun s => toV s d (vecOf fun k => f (lane (s.rv a) k) (lane (s.rv b) k)) ((s.ctx s.cur).p g.toNat) 2 q :=
  completes_lanes2 rfl (fun _ => rfl) hf
theorem completes_vsub {m : BitVec 6} (hf : ∀ x y, vsubLane m.toNat x y = f x y) :
    Completes (.vsub q g d a b m) fun s => toV s d (vecOf fun k => f (lane (s.rv a) k) (lane (s.rv b) k)) ((s.ctx s.cur).p g.toNat) 2 q :=
  completes_lanes2 rfl (fun _ => rfl) hf
theorem completes_vmul {m : BitVec 6} (hf : ∀ x y, vmulLane m.toNat x y = f x y) :
    Completes (.vmul q g d a b m) fun s => toV s d (vecOf fun k => f (lane (s.rv a) k) (lane (s.rv b) k)) ((s.ctx s.cur).p g.toNat) 2 q :=
  completes_lanes2 rfl (fun _ => rfl) hf
theorem completes_vmin {m : BitVec 6} (hf : ∀ x y, vminLane m.toNat x y = f x y) :
    Completes (.vmin q g d a b m) fun s => toV s d (vecOf fun k => f (lane (s.rv a) k) (lane (s.rv b) k)) ((s.ctx s.cur).p g.toNat) 2 q :=
  completes_lanes2 rfl (fun _ => rfl) hf
theorem completes_vmax {m : BitVec 6} (hf : ∀ x y, vmaxLane m.toNat x y = f x y) :
    Completes (.vmax q g d a b m) fun s => toV s d (vecOf fun k => f (lane (s.rv a) k) (lane (s.rv b) k)) ((s.ctx s.cur).p g.toNat) 2 q :=
  completes_lanes2 rfl (fun _ => rfl) hf
theorem completes_vand :
    Completes (.vand q g d a b) fun s => toV s d (vecOf fun k => lane (s.rv a) k &&& lane (s.rv b) k) ((s.ctx s.cur).p g.toNat) 2 q :=
  completes_lanes2 (op := (· &&& ·)) (f := (· &&& ·)) rfl (fun _ => rfl) fun _ _ => rfl
theorem completes_vor :
    Completes (.vor q g d a b) fun s => toV s d (vecOf fun k => lane (s.rv a) k ||| lane (s.rv b) k) ((s.ctx s.cur).p g.toNat) 2 q :=
  completes_lanes2 (op := (· ||| ·)) (f := (· ||| ·)) rfl (fun _ => rfl) fun _ _ => rfl
theorem completes_vxor :
    Completes (.vxor q g d a b) fun s => toV s d (vecOf fun k => lane (s.rv a) k ^^^ lane (s.rv b) k) ((s.ctx s.cur).p g.toNat) 2 q :=
  completes_lanes2 (op := (· ^^^ ·)) (f := (· ^^^ ·)) rfl (fun _ => rfl) fun _ _ => rfl
theorem completes_vshl :
    Completes (.vshl q g d a b) fun s => toV s d (vecOf fun k => vshlLane (lane (s.rv a) k) (lane (s.rv b) k)) ((s.ctx s.cur).p g.toNat) 2 q :=
  completes_lanes2 (op := vshlLane) (f := vshlLane) rfl (fun _ => rfl) fun _ _ => rfl
theorem completes_vshr :
    Completes (.vshr q g d a b) fun s => toV s d (vecOf fun k => vshrLane (lane (s.rv a) k) (lane (s.rv b) k)) ((s.ctx s.cur).p g.toNat) 2 q :=
  completes_lanes2 (op := vshrLane) (f := vshrLane) rfl (fun _ => rfl) fun _ _ => rfl
theorem completes_vsar :
    Completes (.vsar q g d a b) fun s => toV s d (vecOf fun k => (lane (s.rv a) k).sshiftRight ((lane (s.rv b) k).toNat % 256)) ((s.ctx s.cur).p g.toNat) 2 q :=
  completes_lanes2 (op := vsarLane) (f := vsarLane) rfl (fun _ => rfl) fun _ _ => rfl

end

/-! ## The forms with a scalar or an immediate (R140) -/

section
variable (q : BitVec 1) (g : BitVec 3) (d a : BitVec 5) (r : BitVec 6)

theorem completes_vadds : Completes (.vadds q g d a r 0) fun s =>
    toV s d (vecOf fun k => lane (s.rv a) k + (s.rs r).setWidth 32) ((s.ctx s.cur).p g.toNat) 2 q :=
  completes_lanes1 (op := fun s x => x + (s.rs r).setWidth 32) rfl fun _ => rfl
theorem completes_vmuls : Completes (.vmuls q g d a r 0) fun s =>
    toV s d (vecOf fun k => lane (s.rv a) k * (s.rs r).setWidth 32) ((s.ctx s.cur).p g.toNat) 2 q :=
  completes_lanes1 (op := fun s x => x * (s.rs r).setWidth 32) rfl fun _ => rfl
theorem completes_vadds_float : Completes (.vadds q g d a r 1) fun s =>
    toV s d (vecOf fun k => fadd (lane (s.rv a) k) ((s.rs r).setWidth 32)) ((s.ctx s.cur).p g.toNat) 4 q :=
  completes_lanes1 (op := fun s x => fadd x ((s.rs r).setWidth 32)) rfl fun _ => rfl
theorem completes_vmuls_float : Completes (.vmuls q g d a r 1) fun s =>
    toV s d (vecOf fun k => fmul (lane (s.rv a) k) ((s.rs r).setWidth 32)) ((s.ctx s.cur).p g.toNat) 4 q :=
  completes_lanes1 (op := fun s x => fmul x ((s.rs r).setWidth 32)) rfl fun _ => rfl
theorem completes_vli (w : BitVec 11) : Completes (.vli q g d w) fun s =>
    toV s d (vecOf fun _ => w.signExtend 32) ((s.ctx s.cur).p g.toNat) 2 q :=
  completes_landVec (x := fun _ => vecOf fun _ => BitVec.ofInt 32 w.toInt) rfl (fun _ => rfl) fun _ => rfl

end

/-- Settles O26, from the lane function of each form. -/
theorem vectorIntegerForms : Obligations.VectorIntegerForms := by
  intro q g d a b r w m lanes clampS clampU
  have vadd (k : BitVec 6) {f : W32 → W32 → W32} (hf : ∀ x y, vaddLane k.toNat x y = f x y) : lanes (.vadd q g d a b k) f := completes_vadd q g d a b hf
  have vsub (k : BitVec 6) {f : W32 → W32 → W32} (hf : ∀ x y, vsubLane k.toNat x y = f x y) : lanes (.vsub q g d a b k) f := completes_vsub q g d a b hf
  have vmul (k : BitVec 6) {f : W32 → W32 → W32} (hf : ∀ x y, vmulLane k.toNat x y = f x y) : lanes (.vmul q g d a b k) f := completes_vmul q g d a b hf
  have vmin (k : BitVec 6) {f : W32 → W32 → W32} (hf : ∀ x y, vminLane k.toNat x y = f x y) : lanes (.vmin q g d a b k) f := completes_vmin q g d a b hf
  have vmax (k : BitVec 6) {f : W32 → W32 → W32} (hf : ∀ x y, vmaxLane k.toNat x y = f x y) : lanes (.vmax q g d a b k) f := completes_vmax q g d a b hf
  have shift {i : Instr} {op f : W32 → W32 → W32} (h : lanes i op) (hf : ∀ x y, op x y = f x y) : lanes i f := by
    obtain rfl : op = f := funext fun x => funext (hf x)
    exact h
  have shl := shift (completes_vshl q g d a b) vshlLane_eq
  have shr := shift (completes_vshr q g d a b) vshrLane_eq
  exact ⟨(vadd 0 vaddLane_wrap :), (vadd 1 vaddLane_signed :), (vadd 2 vaddLane_unsigned :), (vsub 0 vsubLane_wrap :), (vsub 1 vsubLane_signed :),
    (vsub 2 vsubLane_unsigned :), (vmul 0 vmulLane_low :), (vmul 1 vmulLane_high_signed :), (vmul 2 vmulLane_high_unsigned :),
    (vmin 0 vminLane_signed :), (vmin 1 vminLane_unsigned :), (vmax 0 vmaxLane_signed :), (vmax 1 vmaxLane_unsigned :),
    completes_vand q g d a b, completes_vor q g d a b, completes_vxor q g d a b, shl, shr, completes_vsar q g d a b,
    completes_vadds q g d a r, completes_vmuls q g d a r, completes_vadds_float q g d a r, completes_vmuls_float q g d a r, completes_vli q g d w⟩

/-! ## Moves (R155 to R158) -/

/-- A form that gives each lane from its number. -/
theorem completes_vecOf {i : Instr} {q : BitVec 1} {g : BitVec 3} {d : BitVec 5} {f : State → Nat → W32} (hi : slotKey i = (1, 0, g))
    (h : ∀ s, issueAlone i s = landVec (alone i s).env q d (vecOf (f s)) 2 s) :
    Completes i fun s => toV s d (vecOf (f s)) ((s.ctx s.cur).p g.toNat) 2 q := completes_landVec hi h fun _ => rfl

/-- VMOVS lands the lane it names where the mask bit of that lane is set (R142, R157). -/
theorem completesWhen_vmovs {q : BitVec 1} {g : BitVec 3} {a : BitVec 5} {r l : BitVec 6} {k : BitVec 4} {f : State → W64}
    (h : ∀ s, (match k.toNat with
      | 0 => sext64 (lane (s.rv a) l.toNat) | 1 => zext64 (lane (s.rv a) l.toNat) | _ => lane (s.rv a) (l.toNat + 1) ++ lane (s.rv a) l.toNat) = f s) :
    CompletesWhen (.vmovs q g r a l k) (fun s => ((s.ctx s.cur).p g.toNat).getLsbD l.toNat = true)
      fun s => onCtx s fun c => c.land (.s r.toNat) ((f s).setWidth 2048) (BitVec.allOnes 64) 2 (q == 1) none :=
  completesWhen_of_issue slotAlone_of_not_hdrT fun s hm => by
    rw [← h s]
    exact if_pos ((congrArg (·.getLsbD l.toNat) (guardMask_eq (.vmovs q g r a l k) s)).trans hm)

theorem completesWhen_vmovs_masked (q : BitVec 1) (g : BitVec 3) (a : BitVec 5) (r l : BitVec 6) (k : BitVec 4) :
    CompletesWhen (.vmovs q g r a l k) (fun s => ((s.ctx s.cur).p g.toNat).getLsbD l.toNat = false) fun _ => {} :=
  completesWhen_of_issue slotAlone_of_not_hdrT fun s hm => by
    have hbit : bit (guardMask (.vmovs q g r a l k) s) l.toNat = false := (congrArg (bit · l.toNat) (guardMask_eq _ s)).trans hm
    exact if_neg (Bool.eq_false_iff.1 hbit)

/-- Settles O29: each form says from which lanes a lane comes. -/
theorem vectorMoves : Obligations.VectorMoves := by
  intro q g d a b r l n m v A B lo hi
  refine ⟨?perm, ?permBytes, ?nib, ?shuf0, ?shuf1, ?shuf2, ?shuf3, ?bcast, ?bcast2, ?ins0, ?ins1, ?ins2, ?ins3, ?iota, ?iotaMask, ?mov,
    ⟨?movs0, ?movs1, ?movs2⟩, fun k => completesWhen_vmovs_masked q g a r l k⟩
  case perm | nib | shuf0 | shuf1 | shuf2 | shuf3 | bcast | ins0 | ins1 | ins2 | ins3 | iota | mov =>
    exact completes_vecOf rfl fun _ => rfl
  case bcast2 =>
    refine completes_landVec rfl (fun _ => rfl) fun s => congrArg vecOf (funext fun k => ?_)
    exact if_congr (by simp) rfl rfl
  case permBytes => exact completes_landVec rfl (fun _ => rfl) fun _ => rfl
  case iotaMask =>
    refine completes_landVec_mask (x := fun m _ => vecOf fun k => BitVec.ofNat 32 ((List.range k).countP fun j => m.getLsbD j)) rfl fun s => ?_
    refine congrArg (fun x => landVec (alone (.viota q g d 1) s).env q d (vecOf x) 2 s) (funext fun k => ?_)
    exact congrArg (BitVec.ofNat 32) (popNat_eq_countP (guardMask (.viota q g d 1) s).toNat k)
  case movs0 | movs1 | movs2 => exact completesWhen_vmovs fun _ => rfl

end Sys2Proof.Machine
end

section
/-!
PROOF. Ducat forms, reductions and scans (R134, R135, R141 to R143, R152 to R154, R159).
-/
set_option Elab.async false
namespace Sys2Proof.Machine

/-! ## The lowest element that left the range (R121) -/

section
variable {act : Nat → Bool} {f : Nat → Except Bool W64}

/-- What element `i` reports to the check: the side on which it left the range. -/
def rangeFault (act : Nat → Bool) (f : Nat → Except Bool W64) (i : Nat) : Option (Bool × Nat) :=
  if act i then (match f i with | .error b => some (b, i) | .ok _ => none) else none

theorem rangeCheck_eq : rangeCheck act f = ((List.range 32).findSome? (rangeFault act f)).elim (.ok ()) fun x => .error (rangeTrap x.1 x.2) := by
  show (match (List.range 32).findSome? (rangeFault act f) with
    | some (b, i) => (.error (rangeTrap b i) : Chk Unit) | none => .ok ()) = _
  cases (List.range 32).findSome? (rangeFault act f) <;> rfl

theorem rangeFault_eq_none {i : Nat} (h : act i = true → ∃ x, f i = .ok x) : rangeFault act f i = none := by
  by_cases ha : act i = true
  · obtain ⟨x, hx⟩ := h ha
    rw [rangeFault, if_pos ha, hx]
  · exact if_neg ha

theorem rangeCheck_ok (h : ∀ k < 32, act k = true → ∃ x, f k = .ok x) : rangeCheck act f = .ok () := by
  rw [rangeCheck_eq, List.findSome?_eq_none_iff.2 fun i hi => rangeFault_eq_none (h i (List.mem_range.1 hi))]
  rfl

theorem rangeCheck_error {k : Nat} {above : Bool} (hk : k < 32) (ha : act k = true) (hf : f k = .error above)
    (hbefore : ∀ j < k, act j = true → ∃ x, f j = .ok x) : rangeCheck act f = .error (rangeTrap above k) := by
  have hsplit : List.range 32 = List.range k ++ k :: (List.range (31 - k)).map (k + 1 + ·) := by
    rw [show 32 = k + (1 + (31 - k)) by omega, List.range_add, List.range_add, List.map_append, List.map_map]
    simp only [List.range_one, List.map_cons, List.map_nil, Nat.add_zero, List.singleton_append]
    exact congrArg (fun l => List.range k ++ k :: l) (List.map_congr_left fun i _ => (Nat.add_assoc k 1 i).symm)
  have hfault : rangeFault act f k = some (above, k) := by rw [rangeFault, if_pos ha, hf]
  rw [rangeCheck_eq, List.findSome?_eq_some_iff.2 ⟨_, k, _, hsplit, hfault, fun j hj => rangeFault_eq_none (hbefore j (List.mem_range.1 hj))⟩]
  rfl

end

/-- The two ways to write the TRAPINFO of an element. -/
theorem rangeTrap_eq (above : Bool) (k : Nat) : rangeTrap above k = .trap 0x07 (BitVec.ofNat 64 ((if above then 1 else 0) + 256 * k)) := by
  cases above <;> rfl

/-- An element acts where the even bit of its lanes is set (R141). -/
theorem elemMask_even (m : W64) {k : Nat} (hk : k < 32) : bit (elemMask m) (2 * k) = m.getLsbD (2 * k) := by
  rw [elemMask, bit, Laws.predOf_bit _ (by omega), Nat.mul_div_cancel_left k (by decide)]
  rfl

/-! ## Forms that give each element a value or leave the range -/

section
variable {i : Instr} {q : BitVec 1} {g : BitVec 3} {d : BitVec 5} {f : State → Nat → Except Bool W64} (hk : slotKey i = (1, 0, g))
include hk

/-- Whether element `k` acts under the guard's mask. -/
theorem elems_acts (s : State) {k : Nat} (hlt : k < 32) :
    bit (elemMask ((alone i s).env.mask s)) (2 * k) = ((s.ctx s.cur).p g.toNat).getLsbD (2 * k) := by
  rw [elemMask_even _ hlt]
  have hm := guardMask_eq i s
  rw [hk] at hm
  exact congrArg (·.getLsbD (2 * k)) hm

variable (h : ∀ s, issueAlone i s = elems (alone i s).env q d (f s) s)
include h

theorem exec_elems_done {s : State} {v : Nat → W64} (hi : Issues i s)
    (hok : ∀ k < 32, ((s.ctx s.cur).p g.toNat).getLsbD (2 * k) = true → f s k = .ok (v k))
    (hoff : ∀ k, ((s.ctx s.cur).p g.toNat).getLsbD (2 * k) = false → v k = okOr0 (f s k)) :
    exec i s = .next (done i (toV s d (vecOfElems v) (elemMask ((s.ctx s.cur).p g.toNat)) 5 q) s) := by
  have hv : v = fun k => okOr0 (f s k) := funext fun k => by
    by_cases ha : ((s.ctx s.cur).p g.toNat).getLsbD (2 * k) = true
    · have hlt : k < 32 := by
        by_contra hge
        rw [BitVec.getLsbD_of_ge _ _ (by omega)] at ha
        exact nomatch ha
      rw [hok k hlt ha]
      rfl
    · exact hoff k (Bool.eq_false_iff.2 ha)
  refine exec_completes (slotAlone_of_slot_v (by rw [hk])) hi ((h s).trans ?_)
  refine (Chk.bind_of_ok (rangeCheck_ok fun k hlt ha => ⟨v k, hok k hlt ?_⟩)).trans ?_
  · exact (elems_acts hk s hlt).symm.trans ha
  · have hm := guardMask_eq i s
    rw [hk] at hm
    rw [hv, ← hm]
    rfl

theorem exec_elems_trapped {s : State} {k : Nat} {above : Bool} (hi : Issues i s) (hlt : k < 32)
    (ha : ((s.ctx s.cur).p g.toNat).getLsbD (2 * k) = true) (hf : f s k = .error above)
    (hbefore : ∀ j < k, ((s.ctx s.cur).p g.toNat).getLsbD (2 * j) = true → ∃ x, f s j = .ok x) :
    exec i s = .next (trapped i 0x07 (BitVec.ofNat 64 ((if above then 1 else 0) + 256 * k)) s) := by
  refine exec_traps (slotAlone_of_slot_v (by rw [hk])) hi ((h s).trans ?_)
  rw [← rangeTrap_eq]
  exact Chk.bind_of_error (rangeCheck_error hlt ((elems_acts hk s hlt).trans ha) hf fun j hj haj =>
    hbefore j hj ((elems_acts hk s (by omega)).symm.trans haj))

end

/-! ## VDCVT (R153) -/

section
variable (e : Env) (q hi : BitVec 1) (d a : BitVec 5) (s : State)

theorem issueVdcvt_widen : issueVdcvt e q d a (hi ++ 0#2) s
    = elems e q d (fun k => .ok (dk32Widen (lane ((s.ctx e.g).v a) (k + 32 * hi.toNat)))) s := by
  obtain rfl | rfl := BitVec.eq_zero_or_eq_one hi <;> rfl

theorem issueVdcvt_ofFp : issueVdcvt e q d a (hi ++ 2#2) s
    = elems e q d (fun k => .ok (dkOfFp (f32 (lane ((s.ctx e.g).v a) (k + 32 * hi.toNat))))) s := by
  obtain rfl | rfl := BitVec.eq_zero_or_eq_one hi <;> rfl

/-- The half a narrowing writes, and zeros in the other. -/
def narrowHalf (off : Nat) (x : Nat → W32) : Vec := vecOf fun l => if off ≤ l ∧ l < off + 32 then x (l - off) else 0

theorem issueVdcvt_narrow : issueVdcvt e q d a (hi ++ 1#2) s =
    (do rangeCheck (fun k => bit (e.mask s) (k + 32 * hi.toNat)) fun k => (dk32Narrow (elem ((s.ctx e.g).v a) k)).map fun x => x.setWidth 64
        landVec e q d (narrowHalf (32 * hi.toNat) fun k =>
          match dk32Narrow (elem ((s.ctx e.g).v a) k) with | .ok x => x | .error _ => 0) 5 s) := by
  obtain rfl | rfl := BitVec.eq_zero_or_eq_one hi <;> rfl

theorem issueVdcvt_toFp : issueVdcvt e q d a (hi ++ 3#2) s =
    landVec e q d (narrowHalf (32 * hi.toNat) fun k => toF32 (dkToFp (elem ((s.ctx e.g).v a) k))) 5 s := by
  obtain rfl | rfl := BitVec.eq_zero_or_eq_one hi <;> rfl

end

section
variable (q : BitVec 1) (g : BitVec 3) (d a : BitVec 5) (hi : BitVec 1)

theorem vdcvt_narrow_mask (s : State) (k : Nat) : bit ((alone (.vdcvt q g d a (hi ++ 1#2)) s).env.mask s) (k + 32 * hi.toNat)
    = ((s.ctx s.cur).p g.toNat).getLsbD (k + 32 * hi.toNat) :=
  congrArg (·.getLsbD (k + 32 * hi.toNat)) (guardMask_eq (.vdcvt q g d a (hi ++ 1#2)) s)

theorem completesWhen_vdcvt_narrow : CompletesWhen (.vdcvt q g d a (hi ++ 1#2))
    (fun s => ∀ k < 32, ((s.ctx s.cur).p g.toNat).getLsbD (k + 32 * hi.toNat) = true → ∃ x, dk32Narrow (elem (s.rv a) k) = .ok x)
    fun s => toV s d (narrowHalf (32 * hi.toNat) fun k => match dk32Narrow (elem (s.rv a) k) with | .ok x => x | .error _ => 0)
      ((s.ctx s.cur).p g.toNat) 5 q :=
  completesWhen_of_issue (slotAlone_of_slot_v rfl) fun s hok => by
    refine (issueVdcvt_narrow (alone (.vdcvt q g d a (hi ++ 1#2)) s).env q hi d a s).trans ((Chk.bind_of_ok (rangeCheck_ok fun k hk ha => ?_)).trans ?_)
    · obtain ⟨x, hx⟩ := hok k hk ((vdcvt_narrow_mask q g d a hi s k).symm.trans ha)
      exact ⟨x.setWidth 64, congrArg (Except.map _) hx⟩
    · have hm : guardMask (.vdcvt q g d a (hi ++ 1#2)) s = (s.ctx s.cur).p g.toNat := guardMask_eq _ s
      rw [← hm]
      rfl

theorem exec_vdcvt_narrow_trapped {s : State} {k : Nat} {above : Bool} (h : Issues (.vdcvt q g d a (hi ++ 1#2)) s) (hk : k < 32)
    (ha : ((s.ctx s.cur).p g.toNat).getLsbD (k + 32 * hi.toNat) = true) (hf : dk32Narrow (elem (s.rv a) k) = .error above)
    (hbefore : ∀ j < k, ((s.ctx s.cur).p g.toNat).getLsbD (j + 32 * hi.toNat) = true → ∃ x, dk32Narrow (elem (s.rv a) j) = .ok x) :
    exec (.vdcvt q g d a (hi ++ 1#2)) s
      = .next (trapped (.vdcvt q g d a (hi ++ 1#2)) 0x07 (BitVec.ofNat 64 ((if above then 1 else 0) + 256 * k)) s) := by
  refine exec_traps (slotAlone_of_slot_v rfl) h ((issueVdcvt_narrow (alone (.vdcvt q g d a (hi ++ 1#2)) s).env q hi d a s).trans ?_)
  rw [← rangeTrap_eq]
  refine Chk.bind_of_error (rangeCheck_error hk ((vdcvt_narrow_mask q g d a hi s k).trans ha) (congrArg (Except.map _) hf) fun j hj haj => ?_)
  obtain ⟨x, hx⟩ := hbefore j hj ((vdcvt_narrow_mask q g d a hi s j).symm.trans haj)
  exact ⟨x.setWidth 64, congrArg (Except.map _) hx⟩

end

/-- Settles O28: the elements that act decide whether the form completes. -/
theorem ducatForms : Obligations.DucatForms := by
  intro q g d a b r m act em form
  have forms {i : Instr} {f : State → Nat → Except Bool W64} (hk : slotKey i = (1, 0, g))
      (h : ∀ s, issueAlone i s = elems (alone i s).env q d (f s) s) : form i f :=
    ⟨fun s v hi hok hoff => exec_elems_done hk h hi hok hoff, fun s k above hi hlt ha hf hb => exec_elems_trapped hk h hi hlt ha hf hb⟩
  refine ⟨forms rfl fun _ => rfl, forms rfl fun _ => rfl, forms rfl fun _ => rfl, forms rfl fun _ => rfl, forms rfl fun _ => rfl, forms rfl fun _ => rfl,
    fun hi => ⟨forms rfl fun s => issueVdcvt_widen _ q hi d a s, forms rfl fun s => issueVdcvt_ofFp _ q hi d a s,
      completesWhen_vdcvt_narrow q g d a hi, fun s k above h hk ha hf hb => exec_vdcvt_narrow_trapped q g d a hi h hk ha hf hb,
      completes_landVec rfl (fun s => issueVdcvt_toFp _ q hi d a s) fun _ => rfl⟩⟩

/-! ## Reductions and scans (R134, R135, R159) -/

section
variable (q : BitVec 1) (g : BitVec 3) (d a : BitVec 5) {n : BitVec 6}

theorem completes_vred (hn : n.toNat ≤ 5) : Completes (.vred q g d a n) fun s =>
    toV s d (((treeFold (redOp n.toNat).1 6 (redLanes n.toNat ((s.ctx s.cur).p g.toNat) (s.rv a))).headD 0).setWidth 2048) (BitVec.allOnes 64) 6 q :=
  completes_of_issueAlone (slotAlone_of_slot_v rfl)
    (fun m s => toV s d (((treeFold (redOp n.toNat).1 6 (redLanes n.toNat m (s.rv a))).headD 0).setWidth 2048) (BitVec.allOnes 64) 6 q)
    fun _ => if_pos hn

theorem completes_vscan (hn : n.toNat ≤ 5) : Completes (.vscan q g d a n) fun s =>
    toV s d (vecOf fun i => (scanFold (redOp n.toNat).1 6 1 (redLanes n.toNat ((s.ctx s.cur).p g.toNat) (s.rv a))).getD i 0) (BitVec.allOnes 64) 6 q :=
  completes_of_issueAlone (slotAlone_of_slot_v rfl)
    (fun m s => toV s d (vecOf fun i => (scanFold (redOp n.toNat).1 6 1 (redLanes n.toNat m (s.rv a))).getD i 0) (BitVec.allOnes 64) 6 q)
    fun _ => if_pos hn

/-- The Ducat reduction of a vector. -/
def dkReduced (n : BitVec 6) (m : W64) (v : Vec) : Except (Nat × Bool) W64 := (treeFold (redDk n.toNat) 5 (redElems n.toNat m v)).headD (.ok 0)

/-- Element `k` of the Ducat scan of a vector. -/
def dkScanned (n : BitVec 6) (m : W64) (v : Vec) (k : Nat) : Except (Nat × Bool) W64 :=
  (scanFold (redDk n.toNat) 5 1 (redElems n.toNat m v)).getD k (.ok 0)

variable (hn : 5 < n.toNat) {s : State}
include hn

theorem issueAlone_vred_ducat : issueAlone (.vred q g d a n) s = match dkReduced n ((s.ctx s.cur).p g.toNat) (s.rv a) with
    | .ok x => .ok (toV s d (x.setWidth 2048) (BitVec.allOnes 64) 6 q)
    | .error b => .error (rangeTrap b.2 0) := by
  have hm : guardMask (.vred q g d a n) s = (s.ctx s.cur).p g.toNat := guardMask_eq _ s
  rw [← hm]
  refine (if_neg (Nat.not_le.2 hn)).trans ?_
  show (match dkReduced n (guardMask (.vred q g d a n) s) (s.rv a) with
    | .ok x => landWhole (alone (.vred q g d a n) s).env q d (x.setWidth 2048) 6
    | .error b => .error (rangeTrap b.2 0)) = _
  cases dkReduced n (guardMask (.vred q g d a n) s) (s.rv a) <;> rfl

theorem issueAlone_vscan_ducat : issueAlone (.vscan q g d a n) s =
    (do rangeCheck (fun _ => true) fun k => (dkScanned n ((s.ctx s.cur).p g.toNat) (s.rv a) k).mapError (·.2)
        .ok (toV s d (vecOfElems fun k => okOr0 ((dkScanned n ((s.ctx s.cur).p g.toNat) (s.rv a) k).mapError (·.2))) (BitVec.allOnes 64) 6 q)) := by
  have hm : guardMask (.vscan q g d a n) s = (s.ctx s.cur).p g.toNat := guardMask_eq _ s
  rw [← hm]
  exact if_neg (Nat.not_le.2 hn)

theorem exec_vred_done {x : W64} (hi : Issues (.vred q g d a n) s) (hx : dkReduced n ((s.ctx s.cur).p g.toNat) (s.rv a) = .ok x) :
    exec (.vred q g d a n) s = .next (done (.vred q g d a n) (toV s d (x.setWidth 2048) (BitVec.allOnes 64) 6 q) s) :=
  exec_completes (slotAlone_of_slot_v rfl) hi (by rw [issueAlone_vred_ducat q g d a hn, hx])

theorem exec_vred_trapped {lag : Nat} {hi : Bool} (h : Issues (.vred q g d a n) s)
    (hx : dkReduced n ((s.ctx s.cur).p g.toNat) (s.rv a) = .error (lag, hi)) :
    exec (.vred q g d a n) s = .next (trapped (.vred q g d a n) 0x07 (BitVec.ofNat 64 hi.toNat) s) :=
  exec_traps (slotAlone_of_slot_v rfl) h (by rw [issueAlone_vred_ducat q g d a hn, hx]; rfl)

theorem exec_vscan_done (hi : Issues (.vscan q g d a n) s) (hx : ∀ k < 32, ∃ x, dkScanned n ((s.ctx s.cur).p g.toNat) (s.rv a) k = .ok x) :
    exec (.vscan q g d a n) s = .next (done (.vscan q g d a n)
      (toV s d (vecOfElems fun k => okOr0 ((dkScanned n ((s.ctx s.cur).p g.toNat) (s.rv a) k).mapError (·.2))) (BitVec.allOnes 64) 6 q) s) := by
  refine exec_completes (slotAlone_of_slot_v rfl) hi ((issueAlone_vscan_ducat q g d a hn).trans (Chk.bind_of_ok (rangeCheck_ok fun k hk _ => ?_)))
  obtain ⟨x, hx⟩ := hx k hk
  exact ⟨x, congrArg (Except.mapError _) hx⟩

theorem exec_vscan_trapped {k lag : Nat} {hi : Bool} (hk : k < 32) (h : Issues (.vscan q g d a n) s)
    (hx : dkScanned n ((s.ctx s.cur).p g.toNat) (s.rv a) k = .error (lag, hi))
    (hbefore : ∀ j < k, ∃ x, dkScanned n ((s.ctx s.cur).p g.toNat) (s.rv a) j = .ok x) :
    exec (.vscan q g d a n) s = .next (trapped (.vscan q g d a n) 0x07 (BitVec.ofNat 64 (hi.toNat + 256 * k)) s) := by
  refine exec_traps (slotAlone_of_slot_v rfl) h ((issueAlone_vscan_ducat q g d a hn).trans
    (Chk.bind_of_error (rangeCheck_error hk rfl (congrArg (Except.mapError _) hx) fun j hj _ => ?_)))
  obtain ⟨x, hx⟩ := hbefore j hj
  exact ⟨x, congrArg (Except.mapError _) hx⟩

end

/-! ## The tree of a sum -/

theorem treeLevel_map {α β : Type} {op : α → α → α} {op' : β → β → β} {f : α → β} (hf : ∀ x y, f (op x y) = op' (f x) (f y)) (l : List α) :
    treeLevel op' (l.map f) = (treeLevel op l).map f := by
  induction l using treeLevel.induct with
  | case1 a b t ih => simp [treeLevel, ih, hf]
  | case2 l h =>
    match l with
    | [] => simp [treeLevel]
    | [a] => simp [treeLevel]
    | a :: b :: t => exact absurd rfl (h a b t)

theorem treeFold_map {α β : Type} {op : α → α → α} {op' : β → β → β} {f : α → β} (hf : ∀ x y, f (op x y) = op' (f x) (f y)) (n : Nat) (l : List α) :
    treeFold op' n (l.map f) = (treeFold op n l).map f := by
  induction n generalizing l with
  | zero => rfl
  | succ n ih => rw [treeFold, treeLevel_map hf, ih, treeFold]

theorem treeLevel_sum (l : List Nat) : (treeLevel (· + ·) l).sum = l.sum := by
  induction l using treeLevel.induct with
  | case1 a b t ih => simp [treeLevel, ih, Nat.add_assoc]
  | case2 l h =>
    match l with
    | [] => simp [treeLevel]
    | [a] => simp [treeLevel]
    | a :: b :: t => exact absurd rfl (h a b t)

theorem treeLevel_length {α : Type} (op : α → α → α) (l : List α) : (treeLevel op l).length = (l.length + 1) / 2 := by
  induction l using treeLevel.induct with
  | case1 a b t ih => simp [treeLevel, ih]; omega
  | case2 l h =>
    match l with
    | [] => simp [treeLevel]
    | [a] => simp [treeLevel]
    | a :: b :: t => exact absurd rfl (h a b t)

/-- The tree of a sum of `2^n` numbers ends with their sum. -/
theorem treeFold_sum (n : Nat) (l : List Nat) (h : l.length = 2 ^ n) : treeFold (· + ·) n l = [l.sum] := by
  induction n generalizing l with
  | zero =>
    obtain ⟨x, rfl⟩ := List.length_eq_one_iff.1 h
    simp [treeFold]
  | succ n ih =>
    rw [treeFold, ih _ (by rw [treeLevel_length, h, Nat.pow_succ]; omega), treeLevel_sum]

/-- An integer sum is that of the active lanes modulo 2^32 (R159). -/
theorem redSum_eq (mask : W64) (v : Vec) : (treeFold (redOp 0).1 6 (redLanes 0 mask v)).headD 0
    = BitVec.ofNat 32 (((List.range 64).map fun i => if mask.getLsbD i then (lane v i).toNat else 0).sum) := by
  have hl : redLanes 0 mask v = ((List.range 64).map fun i => if mask.getLsbD i then (lane v i).toNat else 0).map (BitVec.ofNat 32) := by
    rw [redLanes, List.map_map]
    refine List.map_congr_left fun i _ => ?_
    by_cases hb : mask.getLsbD i = true
    · simp [bit, hb]
    · simp [bit, hb, redOp]
  rw [hl, treeFold_map (op := (· + ·)) (op' := (redOp 0).1) fun x y => BitVec.ofNat_add x y, treeFold_sum 6 _ (by simp)]
  rfl

/-- Settles O30: each form lands the result of its tree or of its scan. -/
theorem vectorReductions : Obligations.VectorReductions := by
  intro q g d a n m whole
  refine ⟨fun hn => ⟨completes_vred q g d a hn, completes_vscan q g d a hn⟩, fun hn s => ⟨fun hi => ⟨fun x hx => ?_, fun lag hi' hx => ?_⟩,
    fun hi hx => ?_, fun k hk lag hi' h hx hb => ?_⟩, redSum_eq⟩
  · exact exec_vred_done q g d a hn hi hx
  · exact exec_vred_trapped q g d a hn hi hx
  · exact exec_vscan_done q g d a hn hi hx
  · exact exec_vscan_trapped q g d a hn hk h hx hb

end Sys2Proof.Machine
end

section
/-!
PROOF. FP32 lane forms, dequantising, quantising and the generator (R146 to R151, R164 to R166).
-/
set_option Elab.async false
namespace Sys2Proof.Machine

/-! ## NaN operands (R125, R146 to R148) -/

/-- An FP32 word is a NaN by its exponent and fraction fields. -/
def Nan32 (u : W32) : Prop := u.extractLsb' 23 8 = 0xFF ∧ u.extractLsb' 0 23 ≠ 0

theorem isNan32_iff (u : W32) : isNan32 u = true ↔ Nan32 u := by
  have hexp : u.toNat / 2 ^ 23 % 2 ^ 8 = (u.extractLsb' 23 8).toNat := by rw [BitVec.extractLsb'_toNat, Nat.shiftRight_eq_div_pow]
  have hfrac : u.toNat % 2 ^ 23 = (u.extractLsb' 0 23).toNat := by rw [BitVec.extractLsb'_toNat, Nat.shiftRight_zero]
  unfold isNan32 f32 Fmt.decode
  simp only [fp32, Fmt.expMask, hexp, hfrac]
  unfold Nan32
  rw [← BitVec.toNat_inj, Ne, ← BitVec.toNat_inj]
  change _ ↔ (u.extractLsb' 23 8).toNat = 255 ∧ ¬(u.extractLsb' 0 23).toNat = 0
  generalize (u.extractLsb' 23 8).toNat = e
  generalize (u.extractLsb' 0 23).toNat = f
  split_ifs with he hf h0
  · exact ⟨fun h => (nomatch h), fun h => absurd hf h.2⟩
  · exact ⟨fun _ => ⟨he, hf⟩, fun _ => rfl⟩
  · exact ⟨fun h => (nomatch h), fun h => absurd h.1 he⟩
  · exact ⟨fun h => (nomatch h), fun h => absurd h.1 he⟩

theorem isNan32_true {u : W32} (h : Nan32 u) : isNan32 u = true := (isNan32_iff u).2 h
theorem isNan32_false {u : W32} (h : ¬Nan32 u) : isNan32 u = false := Bool.eq_false_iff.2 fun hn => h ((isNan32_iff u).1 hn)

section
variable {x y z : W32} {op : FpVal → FpVal → FpVal} {neg : Bool}

theorem binF32_nan_left (hx : Nan32 x) : binF32 op x y = x ||| 0x00400000 := if_pos (isNan32_true hx)

theorem binF32_nan_right (hx : ¬Nan32 x) (hy : Nan32 y) : binF32 op x y = y ||| 0x00400000 := by
  rw [binF32, if_neg (by simp [isNan32_false hx]), if_pos (isNan32_true hy)]
  rfl

/-- The last step of an FP32 operation: rounding, or the canonical NaN it makes itself. -/
def roundOrNan (v : FpVal) : W32 := match v with | .nan _ => canonNan32 | v => toF32 v

theorem roundOrNan_number {v : FpVal} (hv : v.isNan = false) : roundOrNan v = toF32 v := by
  cases v with
  | nan s => exact nomatch hv
  | inf s => rfl
  | fin s m e => rfl

theorem binF32_numbers (hx : ¬Nan32 x) (hy : ¬Nan32 y) (hv : (op (f32 x) (f32 y)).isNan = false) : binF32 op x y = toF32 (op (f32 x) (f32 y)) := by
  rw [binF32, if_neg (by simp [isNan32_false hx]), if_neg (by simp [isNan32_false hy])]
  exact roundOrNan_number hv

theorem ffma_nan_first (hx : Nan32 x) : ffma neg x y z = x ||| 0x00400000 := if_pos (isNan32_true hx)

theorem ffma_nan_second (hx : ¬Nan32 x) (hy : Nan32 y) : ffma neg x y z = y ||| 0x00400000 := by
  rw [ffma, if_neg (by simp [isNan32_false hx]), if_pos (isNan32_true hy)]
  rfl

theorem ffma_nan_third (hx : ¬Nan32 x) (hy : ¬Nan32 y) (hz : Nan32 z) : ffma neg x y z = z ||| 0x00400000 := by
  rw [ffma, if_neg (by simp [isNan32_false hx]), if_neg (by simp [isNan32_false hy]), if_pos (isNan32_true hz)]
  rfl

/-- The fused form rounds the exact sum once (R147). -/
theorem ffma_numbers (hx : ¬Nan32 x) (hy : ¬Nan32 y) (hz : ¬Nan32 z) {v : FpVal}
    (hv : v = if neg then ((f32 x).mul (f32 y)).neg else (f32 x).mul (f32 y)) (hs : (v.add (f32 z)).isNan = false) :
    ffma neg x y z = toF32 (v.add (f32 z)) := by
  rw [ffma, if_neg (by simp [isNan32_false hx]), if_neg (by simp [isNan32_false hy]), if_neg (by simp [isNan32_false hz])]
  dsimp only
  rw [← hv]
  cases v with
  | nan s => exact nomatch hs
  | inf s => exact roundOrNan_number hs
  | fin s m e => exact roundOrNan_number hs

/-- With its modifier a minimum or maximum gives the first NaN, quieted (R148). -/
theorem fminmax_propagate_left (hx : Nan32 x) : fminmax neg true x y = x ||| 0x00400000 := by simp [fminmax, isNan32_true hx, quiet32]

theorem fminmax_propagate_right (hx : ¬Nan32 x) (hy : Nan32 y) : fminmax neg true x y = y ||| 0x00400000 := by
  simp [fminmax, isNan32_false hx, isNan32_true hy, quiet32]

/-- Without it a NaN beside a number is ignored. -/
theorem fminmax_two_nans (hx : Nan32 x) (hy : Nan32 y) : fminmax neg false x y = x ||| 0x00400000 := by
  simp [fminmax, isNan32_true hx, isNan32_true hy, quiet32]

theorem fminmax_ignores_left (hx : Nan32 x) (hy : ¬Nan32 y) : fminmax neg false x y = y := by simp [fminmax, isNan32_true hx, isNan32_false hy]

theorem fminmax_ignores_right (hx : ¬Nan32 x) (hy : Nan32 y) : fminmax neg false x y = x := by simp [fminmax, isNan32_false hx, isNan32_true hy]

end

/-! ## The forms -/

section
variable (q : BitVec 1) (g : BitVec 3) (d a b c : BitVec 5)

/-- What a form of two vectors at 4 bundles says of each lane. -/
theorem completes_float2 {i : Instr} {op : W32 → W32 → W32} (hi : slotKey i = (1, 0, g))
    (h : ∀ s, issueAlone i s = lanes2 (alone i s).env q d a b op 4 s) :
    Completes i fun s => toV s d (vecOf fun k => op (lane (s.rv a) k) (lane (s.rv b) k)) ((s.ctx s.cur).p g.toNat) 4 q :=
  completes_lanes2 (op := op) (f := op) hi h fun _ _ => rfl

theorem completes_vfadd : Completes (.vfadd q g d a b) fun s =>
    toV s d (vecOf fun k => fadd (lane (s.rv a) k) (lane (s.rv b) k)) ((s.ctx s.cur).p g.toNat) 4 q :=
  completes_float2 q g d a b (op := fadd) rfl fun _ => rfl
theorem completes_vfsub : Completes (.vfsub q g d a b) fun s =>
    toV s d (vecOf fun k => fsub (lane (s.rv a) k) (lane (s.rv b) k)) ((s.ctx s.cur).p g.toNat) 4 q :=
  completes_float2 q g d a b (op := fsub) rfl fun _ => rfl
theorem completes_vfmul : Completes (.vfmul q g d a b) fun s =>
    toV s d (vecOf fun k => fmul (lane (s.rv a) k) (lane (s.rv b) k)) ((s.ctx s.cur).p g.toNat) 4 q :=
  completes_float2 q g d a b (op := fmul) rfl fun _ => rfl
theorem completes_vfmin (m : BitVec 6) : Completes (.vfmin q g d a b m) fun s =>
    toV s d (vecOf fun k => fminmax false (m == 1) (lane (s.rv a) k) (lane (s.rv b) k)) ((s.ctx s.cur).p g.toNat) 4 q :=
  completes_float2 q g d a b (op := fminmax false (m == 1)) rfl fun _ => rfl
theorem completes_vfmax (m : BitVec 6) : Completes (.vfmax q g d a b m) fun s =>
    toV s d (vecOf fun k => fminmax true (m == 1) (lane (s.rv a) k) (lane (s.rv b) k)) ((s.ctx s.cur).p g.toNat) 4 q :=
  completes_float2 q g d a b (op := fminmax true (m == 1)) rfl fun _ => rfl

theorem completes_vfma (n : BitVec 1) : Completes (.vfma q g d a b c n) fun s =>
    toV s d (vecOf fun k => ffma (n == 1) (lane (s.rv a) k) (lane (s.rv b) k) (lane (s.rv c) k)) ((s.ctx s.cur).p g.toNat) 4 q :=
  completes_landVec (x := fun s => vecOf fun k => ffma (n == 1) (lane (s.rv a) k) (lane (s.rv b) k) (lane (s.rv c) k)) rfl (fun _ => rfl) fun _ => rfl

/-- A form of one vector whose lane function asks nothing else of the state. -/
theorem completes_float1 {i : Instr} {op : W32 → W32} {lat : Nat} (hi : slotKey i = (1, 0, g))
    (h : ∀ s, issueAlone i s = lanes1 (alone i s).env q d a op lat s) :
    Completes i fun s => toV s d (vecOf fun k => op (lane (s.rv a) k)) ((s.ctx s.cur).p g.toNat) lat q :=
  completes_lanes1 (op := fun _ => op) hi h

theorem completes_vfrcp : Completes (.vfrcp q g d a) fun s =>
    toV s d (vecOf fun k => frcp (lane (s.rv a) k)) ((s.ctx s.cur).p g.toNat) 8 q :=
  completes_float1 q g d a (op := frcp) rfl fun _ => rfl
theorem completes_vfrsq : Completes (.vfrsq q g d a) fun s =>
    toV s d (vecOf fun k => frsq (lane (s.rv a) k)) ((s.ctx s.cur).p g.toNat) 8 q :=
  completes_float1 q g d a (op := frsq) rfl fun _ => rfl
theorem completes_vfexp2 : Completes (.vfexp2 q g d a) fun s =>
    toV s d (vecOf fun k => fexp2 (lane (s.rv a) k)) ((s.ctx s.cur).p g.toNat) 8 q :=
  completes_float1 q g d a (op := fexp2) rfl fun _ => rfl
theorem completes_vflog2 : Completes (.vflog2 q g d a) fun s =>
    toV s d (vecOf fun k => flog2 (lane (s.rv a) k)) ((s.ctx s.cur).p g.toNat) 8 q :=
  completes_float1 q g d a (op := flog2) rfl fun _ => rfl
theorem completes_vcvt (m : BitVec 6) : Completes (.vcvt q g d a m) fun s =>
    toV s d (vecOf fun k => vcvtLane m.toNat (lane (s.rv a) k)) ((s.ctx s.cur).p g.toNat) 4 q :=
  completes_float1 q g d a (op := vcvtLane m.toNat) rfl fun _ => rfl
theorem completes_vfclass : Completes (.vfclass q g d a 0) fun s =>
    toV s d (vecOf fun k => fclass32 (lane (s.rv a) k)) ((s.ctx s.cur).p g.toNat) 4 q :=
  completes_float1 q g d a (op := fclass32) rfl fun _ => rfl

theorem completes_vfclass_ducat : Completes (.vfclass q g d a 1) fun s =>
    toV s d (vecOfElems fun k => (dkClass (elem (s.rv a) k)).setWidth 64) (elemMask ((s.ctx s.cur).p g.toNat)) 5 q := fun _ hi =>
  exec_elems_done (f := fun s k => .ok ((dkClass (elem (s.rv a) k)).setWidth 64)) rfl (fun _ => rfl) hi (fun _ _ _ => rfl) fun _ _ => rfl

/-- The scale entry of a lane: that of lane 0, or its own (R164). -/
theorem completes_vqdeq (n : BitVec 2) : Completes (.vqdeq q g d a b n) fun s =>
    toV s d (vecOf fun k => vqdeqLane (n.getLsbD 0) (lane (s.rv a) k) (lane (s.rv b) (if n.getLsbD 1 then k else 0))) ((s.ctx s.cur).p g.toNat) 4 q :=
  completes_landVec (x := fun s => vecOf fun k => vqdeqLane (n.getLsbD 0) (lane (s.rv a) k) (lane (s.rv b) (if n.getLsbD 1 then k else 0)))
    rfl (fun _ => rfl) fun _ => rfl

theorem completes_vqnt (n : BitVec 2) : Completes (.vqnt q g d a b n) fun s =>
    toV s d (vecOf fun k => vqntLane (n.getLsbD 0) (lane (s.rv a) k) (lane (s.rv b) (if n.getLsbD 1 then k else 0))) ((s.ctx s.cur).p g.toNat) 4 q :=
  completes_landVec (x := fun s => vecOf fun k => vqntLane (n.getLsbD 0) (lane (s.rv a) k) (lane (s.rv b) (if n.getLsbD 1 then k else 0)))
    rfl (fun _ => rfl) fun _ => rfl

theorem completes_vrng_first : Completes (.vrng q g d a b 0) fun s =>
    toV s d (vecOf fun k => (rng (s.ctx s.cur).rngkey (lane (s.rv a) k) (lane (s.rv b) k)).1) ((s.ctx s.cur).p g.toNat) 2 q :=
  completes_landVec (x := fun s => vecOf fun k => (rng (s.ctx s.cur).rngkey (lane (s.rv a) k) (lane (s.rv b) k)).1) rfl (fun _ => rfl) fun _ => rfl

theorem completes_vrng_second : Completes (.vrng q g d a b 1) fun s =>
    toV s d (vecOf fun k => (rng (s.ctx s.cur).rngkey (lane (s.rv a) k) (lane (s.rv b) k)).2) ((s.ctx s.cur).p g.toNat) 2 q :=
  completes_landVec (x := fun s => vecOf fun k => (rng (s.ctx s.cur).rngkey (lane (s.rv a) k) (lane (s.rv b) k)).2) rfl (fun _ => rfl) fun _ => rfl

end

/-- Settles O27: the forms lane by lane, NaN operands in their order, one rounding, and the special operands of R149. -/
theorem vectorFloatForms : Obligations.VectorFloatForms := by
  refine ⟨fun q g d a b c n m6 => ?_, fun q g d a b n => ⟨completes_vqdeq q g d a b n, completes_vqnt q g d a b n, completes_vrng_first q g d a b,
    completes_vrng_second q g d a b⟩⟩
  intro m two one
  refine ⟨completes_vfadd q g d a b, completes_vfsub q g d a b, completes_vfmul q g d a b, completes_vfma q g d a b c n, completes_vfmin q g d a b m6,
    completes_vfmax q g d a b m6, completes_vfrcp q g d a, completes_vfrsq q g d a, completes_vfexp2 q g d a, completes_vflog2 q g d a,
    completes_vcvt q g d a m6, completes_vfclass q g d a, completes_vfclass_ducat q g d a, fun x y z neg => ?_⟩
  intro nan quiet
  refine ⟨fun hx => ⟨binF32_nan_left hx, binF32_nan_left hx, binF32_nan_left hx, ffma_nan_first hx, fminmax_propagate_left hx⟩,
    fun hx hy => ⟨binF32_nan_right hx hy, binF32_nan_right hx hy, binF32_nan_right hx hy, ffma_nan_second hx hy, fminmax_propagate_right hx hy⟩,
    fun hx hy hz => ffma_nan_third hx hy hz, fun hx hy => fminmax_two_nans hx hy, fun hx hy => fminmax_ignores_left hx hy,
    fun hx hy => fminmax_ignores_right hx hy, by decide, by decide, by decide,
    fun hx hy => ⟨fun hv => binF32_numbers hx hy hv, fun hv => binF32_numbers hx hy hv, fun hz v hv hs => ffma_numbers hx hy hz hv hs⟩,
    by decide, by decide, by decide, by decide, by decide, by decide, by decide, by decide, by decide, by decide, by decide, by decide⟩

end Sys2Proof.Machine
end

section
/-!
PROOF. Scalar loads and stores (R254 to R256, R281 to R286).
-/
set_option Elab.async false
namespace Sys2Proof.Machine

/-! ## Values of bytes -/

theorem leNat_lt (bs : List Byte) : leNat bs < 256 ^ bs.length := by
  induction bs with
  | nil => exact Nat.one_pos
  | cons b bs ih =>
    have hb := b.isLt
    rw [leNat, List.length_cons, Nat.pow_succ]
    omega

@[simp] theorem length_readPlace (s : State) (p : Place) (n : Nat) : (readPlace s p n).length = n := by
  cases p with
  | dp base lay off => cases lay <;> simp [readPlace]
  | _ => simp [readPlace]

theorem leNat_readPlace_lt (s : State) (p : Place) (n : Nat) : leNat (readPlace s p n) < 256 ^ n := by
  simpa using leNat_lt (readPlace s p n)

/-- A zero-extended load of a value that fits its width. -/
theorem zextLoad_eq {w n : Nat} (h : n < 2 ^ w) : zextLoad n = (BitVec.ofNat w n).setWidth 64 := by
  apply BitVec.eq_of_toNat_eq
  rw [zextLoad, BitVec.toNat_ofNat, BitVec.toNat_setWidth, BitVec.toNat_ofNat, Nat.mod_eq_of_lt h]

/-! ## Loads -/

section
variable {q : BitVec 1} {d b : BitVec 6} {c : BitVec 4} {f : BitVec 5} {i : Instr} {s : State} {x : Sector}

/-- What a load does when nothing stops it: its frame is touched, its value lands with the poison it met. -/
def loadCommit (q : BitVec 1) (d : BitVec 6) (size : Nat) (v : W64) (x : Sector) (s : State) : Commit :=
  { act := fun t => (touchRead [x] t).modCtx s.cur fun z =>
      z.land (.s d.toNat) (v.setWidth 2048) (BitVec.allOnes 64) x.latency (q == 1) (poisonAt s x.place size) }

theorem exec_loadS {size : Nat} {ext : Nat → W64} {v : W64} (hi : SlotAlone i) (hs : Issues i s)
    (h : issueAlone i s = loadS (alone i s).env q d b c f size ext s)
    (hx : access1 s s.cur (addrOff (s.rs b) (f.toInt * size)) size .r c.toNat = .ok x) (ho : inOrder s s.cur c.toNat [x] = .ok ())
    (hv : ext (leNat (readPlace s x.place size)) = v) : exec i s = .next (done i (loadCommit q d size v x s) s) := by
  subst hv
  exact exec_completes hi hs (h.trans ((Chk.bind_of_ok hx).trans (Chk.bind_of_ok ho)))

/-- LDDP lands the doubleword at its base and the base moved by its offset (R286). -/
theorem exec_lddp {g : BitVec 3} (hs : Issues (.lddp q g d b c f) s) (hx : access1 s s.cur (s.rs b).toNat 8 .r c.toNat = .ok x)
    (ho : inOrder s s.cur c.toNat [x] = .ok ()) :
    exec (.lddp q g d b c f) s = .next (done (.lddp q g d b c f) (does fun t => (touchRead [x] t).modCtx s.cur fun z =>
      (z.land (.s d.toNat) ((BitVec.ofNat 64 (leNat (readPlace s x.place 8)) : W64).setWidth 2048) (BitVec.allOnes 64) x.latency (q == 1)
        (poisonAt s x.place 8)).land (.s b.toNat) ((s.rs b + BitVec.ofInt 64 (f.toInt * 8)).setWidth 2048) (BitVec.allOnes 64) 1 (q == 1) none) s) :=
  exec_completes slotAlone_of_not_hdrT hs ((Chk.bind_of_ok hx).trans (Chk.bind_of_ok ho))

end

/-- Settles O32: each form lands the bytes it reads, extended. -/
theorem scalarLoads : Obligations.ScalarLoads := by
  intro q g d b c f rd ld
  refine ⟨fun s x hs hx ho => ?_, fun s x hs hx ho => ?_, fun s x hs hx ho => ?_, fun s x hs hx ho => ?_, fun s x hs hx ho => ?_,
    fun s x hs hx ho => ?_, fun s x hs hx ho => ?_, fun s x hs hx ho => exec_lddp hs hx ho⟩
  · exact exec_loadS slotAlone_of_not_hdrT hs rfl hx ho rfl
  · exact exec_loadS slotAlone_of_not_hdrT hs rfl hx ho rfl
  · exact exec_loadS slotAlone_of_not_hdrT hs rfl hx ho (zextLoad_eq (leNat_readPlace_lt s x.place 4))
  · exact exec_loadS slotAlone_of_not_hdrT hs rfl hx ho rfl
  · exact exec_loadS slotAlone_of_not_hdrT hs rfl hx ho (zextLoad_eq (leNat_readPlace_lt s x.place 2))
  · exact exec_loadS slotAlone_of_not_hdrT hs rfl hx ho rfl
  · exact exec_loadS slotAlone_of_not_hdrT hs rfl hx ho (zextLoad_eq (leNat_readPlace_lt s x.place 1))

/-! ## Stores -/

section
variable {d b : BitVec 6} {c : BitVec 4} {f : BitVec 5} {i : Instr} {s : State} {x : Sector} {size : Nat}

theorem exec_storeS (hi : SlotAlone i) (hs : Issues i s) (h : issueAlone i s = storeS (alone i s).env d b c f size s)
    (hx : access1 s s.cur (addrOff (s.rs b) (f.toInt * size)) size .w c.toNat = .ok x) (ho : storeInOrder s s.cur [x] = .ok ()) :
    exec i s = .next (done i { act := putStores s.cur c.toNat [(x.place, leBytes size (s.rs d).toNat)] } s) :=
  exec_completes hi hs (h.trans ((Chk.bind_of_ok hx).trans (Chk.bind_of_ok ho)))

/-- A store to device-physical memory that nothing holds writes when its bundle commits. -/
theorem putStores_dp {g oc base off : Nat} {bs : List Byte} (h : storeHeld g oc [(.dp base false off, bs.length)] s = false) :
    putStores g oc [(.dp base false off, bs)] s = writeDp (base + off) bs s := by
  unfold putStores
  exact if_neg (by simpa using h)

/-- What a bundle that wrote device-physical memory leaves: its bytes, no other byte, no other context, and no register that no result in
flight targets. -/
theorem done_writeDp (i : Instr) {f : State → State} {a : Nat} {bs : List Byte} (hf : f s = writeDp a bs s) (hwf : memWf s.mem = true) :
    let t := done i { act := f } s
    readBytes t.mem a bs.length = bs ∧ (∀ j, j < a ∨ a + bs.length ≤ j → t.byteAt j = s.byteAt j)
      ∧ (∀ h n, h ≠ s.cur → (t.ctx h).reg n = (s.ctx h).reg n)
      ∧ (∀ n, (s.ctx s.cur).pending n = false → (t.ctx s.cur).reg n = (s.ctx s.cur).reg n)
      ∧ SameSpecial (s.ctx s.cur) (t.ctx s.cur) ∧ SameTrap (s.ctx s.cur) (t.ctx s.cur) := by
  intro t
  have e : t = _ := commitBundle_one s.cur _ _ (alone i s) f none s
  obtain ⟨w, hctx, hother, hmem, -⟩ := afterAct_spec s.cur ((slotKey i).2.1 == 1) ((alone i s).writes.filter Name.grouped) (alone i s) none (f s) s
  rw [← e] at hctx hother hmem
  rw [hf] at hctx hother hmem
  have htm : t.mem = writeBytes s.mem a bs := by
    rw [hmem.mem, (claimHeld_spec s.cur s _).2.2.1, writeDp_mem]
  obtain ⟨bf, hbf⟩ := writeDp_ctx a bs s s.cur
  simp only [Option.isSome_none, Bool.false_eq_true, if_false] at hctx
  rw [hbf] at hctx
  set c : Ctx := ({ s.ctx s.cur with boundaryFreeze := bf } : Ctx).advance (s.ctx s.cur).bundles none ((slotKey i).2.1 == 1)
    ((alone i s).writes.filter Name.grouped) with hc
  have rest := c.deliver_rest
  refine ⟨by rw [htm]; exact readBytes_writeBytes a bs hwf, fun j hj => ?_, fun h n hh => ?_, fun n hn => ?_, ?_, ?_⟩
  · rw [State.byteAt, htm]
    exact readByte_writeBytes_outside s.mem bs hj
  · obtain ⟨b', hb'⟩ := writeDp_ctx a bs s h
    rw [hother h hh, hb']
    cases n <;> rfl
  · rw [hctx]
    calc _ = c.deliver.reg n := Ctx.reg_watch ..
      _ = c.reg n := c.deliver_reg n hn
      _ = (s.ctx s.cur).reg n := by cases n <;> rfl
  · rw [hctx]
    exact ⟨rest.special.params, rest.special.random, rest.special.vectors, rest.special.cands, rest.special.streams, rest.special.scratch⟩
  · rw [hctx]
    exact rest.trap

/-- A store to device-physical memory that nothing holds, and its frame. -/
theorem exec_storeS_dp {base off : Nat} (hexec : exec i s = .next (done i { act := putStores s.cur c.toNat [(x.place, leBytes size (s.rs d).toNat)] } s))
    (hwf : memWf s.mem = true) (hp : x.place = .dp base false off) (hh : storeHeld s.cur c.toNat [(x.place, size)] s = false) :
    ∃ t, exec i s = .next t ∧ readBytes t.mem (base + off) size = leBytes size (s.rs d).toNat
      ∧ (∀ a, a < base + off ∨ base + off + size ≤ a → t.byteAt a = s.byteAt a)
      ∧ (∀ h n, h ≠ s.cur → (t.ctx h).reg n = (s.ctx h).reg n) ∧ (∀ n, (s.ctx s.cur).pending n = false → (t.ctx s.cur).reg n = (s.ctx s.cur).reg n)
      ∧ SameSpecial (s.ctx s.cur) (t.ctx s.cur) ∧ SameTrap (s.ctx s.cur) (t.ctx s.cur) := by
  rw [hp] at hh
  have hput : putStores s.cur c.toNat [(x.place, leBytes size (s.rs d).toNat)] s = writeDp (base + off) (leBytes size (s.rs d).toNat) s := by
    rw [hp]
    exact putStores_dp (by simpa using hh)
  have h := done_writeDp i hput hwf
  rw [length_leBytes] at h
  exact ⟨_, hexec, h⟩

end

/-- Settles O33: each form writes the low bytes of its register. -/
theorem scalarStores : Obligations.ScalarStores := by
  intro g d b c f p hp s x hs hx ho
  have hexec : exec p.1 s = .next (done p.1 { act := putStores s.cur c.toNat [(x.place, leBytes p.2 (s.rs d).toNat)] } s) := by
    simp only [List.mem_cons, List.not_mem_nil, or_false] at hp
    obtain rfl | rfl | rfl | rfl := hp <;> exact exec_storeS slotAlone_of_not_hdrT hs rfl hx ho
  exact ⟨hexec, fun base off hwf hplace hheld => exec_storeS_dp hexec hwf hplace hheld⟩

end Sys2Proof.Machine
end

section
/-!
PROOF. Vector loads and stores, atomics, translation and alignment (R65, R66, R236 to R243, R254, R282, R287, R293 to R295).
-/
set_option Elab.async false
namespace Sys2Proof.Machine

/-! ## The sectors of an access that passed its checks (R282) -/

theorem foldl_eq_none {α β : Type} {f : Option β → α → Option β} {P : α → Prop} (hf : ∀ acc r, f acc r = none → acc = none ∧ P r)
    {l : List α} {acc : Option β} (h : l.foldl f acc = none) : acc = none ∧ ∀ r ∈ l, P r := by
  induction l generalizing acc with
  | nil => exact ⟨h, fun r hr => (nomatch hr)⟩
  | cons r l ih =>
    obtain ⟨hacc, hl⟩ := ih h
    obtain ⟨hacc, hr⟩ := hf _ _ hacc
    exact ⟨hacc, fun r' hm => (List.mem_cons.1 hm).elim (fun e => e ▸ hr) (hl r')⟩

/-- No fault is the lowest where every sector translates. -/
theorem lowestFault_eq_none {rs : List (Nat × Except (Nat × W64) Sector)} (h : lowestFault rs = none) : ∀ r ∈ rs, ∃ x, r.2 = .ok x := by
  unfold lowestFault at h
  refine (foldl_eq_none (fun acc r hr => ?_) (Option.map_eq_none_iff.1 h)).2
  split at hr
  next x hx => exact ⟨hr, x, hx⟩
  · split at hr
    · split at hr <;> exact nomatch hr
    · exact nomatch hr

theorem filterMap_toOption {ε : Type} {rs : List (Nat × Except ε Sector)} (h : ∀ r ∈ rs, ∃ x, r.2 = .ok x) :
    rs.map (·.2) = (rs.filterMap fun r => r.2.toOption).map Except.ok := by
  induction rs with
  | nil => rfl
  | cons r rs ih =>
    obtain ⟨x, hx⟩ := h r (by simp)
    simp [hx, Except.toOption, ih fun r' hr => h r' (by simp [hr])]

/-- An access that passed its checks is the sectors it translates to. -/
theorem checkSectors_ok {rs : List (Nat × Except (Nat × W64) Sector)} {tag : Sector → Bool} {bad : Option Nat → Bool} {l : List Sector}
    (h : checkSectors rs tag bad = .ok l) : rs.map (·.2) = l.map Except.ok := by
  unfold checkSectors at h
  split at h
  · exact nomatch h
  next hf =>
    rw [filterMap_toOption (lowestFault_eq_none hf)]
    dsimp only at h
    split at h
    · exact nomatch h
    · split at h
      · exact nomatch h
      · split at h
        · exact nomatch h
        · rw [Except.ok.inj h]

/-- A sector that translates stands at the address and has the length that were asked for. -/
theorem xlateParts_ok {s : State} {g va n oc : Nat} {parts : List (Nat × Nat)} {k : Right} {x : Sector}
    (h : xlateParts s g va n parts k oc = .ok x) : x.va = va ∧ x.n = n := by
  unfold xlateParts at h
  split at h
  · cases hp : windowPlace s g va n parts k oc with
    | error e => rw [hp] at h; exact nomatch h
    | ok p => rw [hp] at h; cases h; exact ⟨rfl, rfl⟩
  · split at h
    · exact nomatch h
    · split at h
      · exact nomatch h
      · split at h
        · exact nomatch h
        · dsimp only at h
          split at h
          · exact nomatch h
          · split at h
            · exact nomatch h
            · cases h; exact ⟨rfl, rfl⟩

/-! ## Vector accesses (R287) -/

theorem isEmpty_filter_not {α : Type} (p : α → Bool) (l : List α) : (!(l.filter p).isEmpty) = l.any p := by
  induction l with
  | nil => rfl
  | cons a l ih => cases h : p a <;> simp_all

/-- The sectors with an active lane. -/
theorem vecSectors_eq (m : W64) : vecSectors m = (List.range 4).filter fun k => (List.range 16).any fun j => m.getLsbD (16 * k + j) :=
  List.filter_congr fun _ _ => isEmpty_filter_not _ _

theorem addrOff_zero (base : W64) : addrOff base 0 = base.toNat := by
  unfold addrOff
  rw [if_neg (by omega)]
  omega

theorem vecAddr_first (base : W64) (off : Int) : vecAddr base off 0 = addrOff base off := by simp [vecAddr]

section
variable {e : Env} {base : W64} {off : Int} {k : Right} {c : BitVec 4} {s : State}

/-- A vector access that passed: the sectors with an active lane, each at its own address. -/
theorem vecAccess_ok {l : List (Nat × Sector)} (h : vecAccess e base off k c s = .ok l) :
    l.map (·.1) = vecSectors (e.mask s) ∧ ∀ x ∈ l, x.2.va = vecAddr base off x.1 ∧ x.2.n = 64 := by
  obtain ha | ha := Bool.eq_false_or_eq_true (vecAddr base off 0 % 64 == 0)
  case inr => rw [vecAccess, show aligned (vecAddr base off 0) 64 = .error _ from if_neg (by simp [ha])] at h; exact nomatch h
  rw [vecAccess, show aligned (vecAddr base off 0) 64 = .ok () from if_pos ha] at h
  simp only [bind, Except.bind] at h
  split at h
  · exact nomatch h
  next l' hl' =>
    have hsecs := checkSectors_ok hl'
    rw [List.map_map] at hsecs
    have hlen : (vecSectors (e.mask s)).length = l'.length := by simpa using congrArg List.length hsecs
    obtain rfl := Except.ok.inj h
    refine ⟨List.map_fst_zip hlen.le, fun x hx => ?_⟩
    obtain ⟨i, hi, hget⟩ := List.getElem_of_mem hx
    rw [List.length_zip] at hi
    have hxi : x = ((vecSectors (e.mask s))[i], l'[i]) := by rw [← hget, List.getElem_zip]
    have hok := List.getElem_of_eq hsecs (i := i) (by simpa using (by omega : i < (vecSectors (e.mask s)).length))
    simp only [List.getElem_map, Function.comp] at hok
    rw [hxi]
    exact xlateParts_ok hok

theorem vecAccess_misaligned (h : vecAddr base off 0 % 64 ≠ 0) :
    vecAccess e base off k c s = .error (.trap 0x06 (BitVec.ofNat 64 (vecAddr base off 0))) :=
  Chk.bind_of_error (if_neg (by simpa using h))

end

/-- What a vector store writes: whole sectors, or the words of active lanes. -/
theorem mem_storeLanes {m : W64} {v : Vec} {l : List (Nat × Sector)} {x : Place × List Byte} (h : x ∈ storeLanes m v l) :
    ∃ y ∈ l, (x.1 = y.2.place ∧ x.2.length = 64 ∧ ∀ j < 16, m.getLsbD (16 * y.1 + j) = true)
      ∨ ∃ j < 16, m.getLsbD (16 * y.1 + j) = true ∧ x.1 = y.2.place.plus (4 * j) ∧ x.2 = leBytes 4 (lane v (16 * y.1 + j)).toNat := by
  obtain ⟨y, hy, hx⟩ := List.mem_flatMap.1 h
  refine ⟨y, hy, ?_⟩
  dsimp only at hx
  split at hx
  next hall =>
    obtain rfl := List.mem_singleton.1 hx
    refine .inl ⟨rfl, ?_, fun j hj => ?_⟩
    · rw [List.length_flatMap, List.map_congr_left (g := fun _ => 4) fun i _ => length_leBytes .., List.map_const', hall]
      rfl
    · exact List.length_filter_eq_length_iff.1 (hall.trans List.length_range.symm) j (List.mem_range.2 hj)
  · obtain ⟨j, hj, rfl⟩ := List.mem_map.1 hx
    obtain ⟨hlt, hm⟩ := List.mem_filter.1 hj
    exact .inr ⟨j, List.mem_range.1 hlt, hm, rfl, rfl⟩

section
variable (q : BitVec 1) (g : BitVec 3) (d : BitVec 5) (b : BitVec 6) (c : BitVec 4) (f : BitVec 6)

/-- The lanes a vector load lands. -/
def landLanes (q : BitVec 1) (g : BitVec 3) (d : BitVec 5) (s : State) (l : List (Nat × Sector)) (z : Ctx) : Ctx :=
  z.land (.v d.toNat) (vecOfSectors s l) ((s.ctx s.cur).p g.toNat) ((l.map fun x => x.2.latency).headD 4) (q == 1) (poisonOf s (l.map (·.2)))

variable {s : State} {l : List (Nat × Sector)}

theorem exec_vld (hi : Issues (.vld q g d b c f) s) (hl : vecAccess { g := s.cur, gd := g } (s.rs b) (f.toInt * 256) .r c s = .ok l)
    (ho : inOrder s s.cur c.toNat (l.map (·.2)) = .ok ()) : exec (.vld q g d b c f) s = .next (done (.vld q g d b c f)
      (does fun t => (touchRead (l.map (·.2)) t).modCtx s.cur (landLanes q g d s l)) s) := by
  have hm : guardMask (.vld q g d b c f) s = (s.ctx s.cur).p g.toNat := guardMask_eq _ s
  refine exec_completes slotAlone_of_not_hdrT hi ((Chk.bind_of_ok hl).trans ((Chk.bind_of_ok ho).trans ?_))
  unfold landLanes
  rw [← hm]
  rfl

theorem exec_vldp (hi : Issues (.vldp q g d b c f) s) (hl : vecAccess { g := s.cur, gd := g } (s.rs b) 0 .r c s = .ok l)
    (ho : inOrder s s.cur c.toNat (l.map (·.2)) = .ok ()) : exec (.vldp q g d b c f) s = .next (done (.vldp q g d b c f)
      (does fun t => (touchRead (l.map (·.2)) t).modCtx s.cur fun z => (landLanes q g d s l z).land (.s b.toNat)
        ((s.rs b + BitVec.ofInt 64 (f.toInt * 256)).setWidth 2048) (BitVec.allOnes 64) 1 (q == 1) none) s) := by
  have hm : guardMask (.vldp q g d b c f) s = (s.ctx s.cur).p g.toNat := guardMask_eq _ s
  refine exec_completes slotAlone_of_not_hdrT hi ((Chk.bind_of_ok hl).trans ((Chk.bind_of_ok ho).trans ?_))
  unfold landLanes
  rw [← hm]
  rfl

theorem exec_vst (hi : Issues (.vst g d b c f) s) (hl : vecAccess { g := s.cur, gd := g } (s.rs b) (f.toInt * 256) .w c s = .ok l)
    (ho : storeInOrder s s.cur (l.map (·.2)) = .ok ()) : exec (.vst g d b c f) s = .next (done (.vst g d b c f)
      (does (putStores s.cur c.toNat (storeLanes ((s.ctx s.cur).p g.toNat) (s.rv d) l))) s) := by
  have hm : guardMask (.vst g d b c f) s = (s.ctx s.cur).p g.toNat := guardMask_eq _ s
  refine exec_completes slotAlone_of_not_hdrT hi ((Chk.bind_of_ok hl).trans ((Chk.bind_of_ok ho).trans ?_))
  rw [← hm]
  rfl

theorem exec_vstp (hi : Issues (.vstp g d b c f) s) (hl : vecAccess { g := s.cur, gd := g } (s.rs b) 0 .w c s = .ok l)
    (ho : storeInOrder s s.cur (l.map (·.2)) = .ok ()) : exec (.vstp g d b c f) s = .next (done (.vstp g d b c f)
      (does fun t => (putStores s.cur c.toNat (storeLanes ((s.ctx s.cur).p g.toNat) (s.rv d) l) t).modCtx s.cur fun z =>
        z.landS b (s.rs b + BitVec.ofInt 64 (f.toInt * 256)) 1) s) := by
  have hm : guardMask (.vstp g d b c f) s = (s.ctx s.cur).p g.toNat := guardMask_eq _ s
  refine exec_completes slotAlone_of_not_hdrT hi ((Chk.bind_of_ok hl).trans ((Chk.bind_of_ok ho).trans ?_))
  rw [← hm]
  rfl

/-- A base with an offset that is no multiple of 64. -/
theorem vecAccess_near {e : Env} {k : Right} (h : addrOff (s.rs b) (f.toInt * 256) % 64 ≠ 0) :
    vecAccess e (s.rs b) (f.toInt * 256) k c s = .error (.trap 0x06 (BitVec.ofNat 64 (addrOff (s.rs b) (f.toInt * 256)))) := by
  rw [← vecAddr_first] at h ⊢
  exact vecAccess_misaligned h

theorem vecAccess_base {e : Env} {k : Right} (h : (s.rs b).toNat % 64 ≠ 0) : vecAccess e (s.rs b) 0 k c s = .error (.trap 0x06 (s.rs b)) := by
  have hv : vecAddr (s.rs b) 0 0 = (s.rs b).toNat := (vecAddr_first _ 0).trans (addrOff_zero _)
  have hm := vecAccess_misaligned (e := e) (k := k) (c := c) (s := s) (base := s.rs b) (off := 0) (by rw [hv]; exact h)
  rwa [hv, BitVec.ofNat_toNat, BitVec.setWidth_eq] at hm

end

/-- Settles O34: the sectors with an active lane, where each form finds them and what it does with them. -/
theorem vectorLoadsAndStores : Obligations.VectorLoadsAndStores := by
  intro q g d b c f m e secs near next lands ld loads stores put
  refine ⟨fun s l hi hl => exec_vld q g d b c f hi hl.1 hl.2, fun s l hi hl => exec_vst g d b c f hi hl.1 hl.2,
    fun s l hi hl => exec_vldp q g d b c f hi hl.1 hl.2, fun s l hi hl => exec_vstp g d b c f hi hl.1 hl.2,
    ⟨?vld, ?vst, ?vldp, ?vstp⟩, fun s off k l hl => ?sectors⟩
  case vld | vst => exact trapsWhen_of_issue slotAlone_of_not_hdrT fun s h => Chk.bind_of_error (vecAccess_near b c f h)
  case vldp | vstp => exact trapsWhen_of_issue slotAlone_of_not_hdrT fun s h => Chk.bind_of_error (vecAccess_base b c h)
  case sectors =>
    obtain ⟨hks, hat⟩ := vecAccess_ok hl
    have hm : (e s).mask s = m s := by simp [Env.mask, Env.guardIndex, e, m]
    exact ⟨by rw [hks, hm]; exact vecSectors_eq (m s), hat, fun x hx => mem_storeLanes hx⟩

end Sys2Proof.Machine
end

section
/-!
PROOF. Atomics, translation and alignment (R65, R66, R236 to R243, R255, R282, R293 to R295).
-/
set_option Elab.async false
namespace Sys2Proof.Machine

/-! ## Atomics -/

/-- An atomic reaches its word, and nothing earlier holds it (R255, R294). -/
structure ReachesWord (b : BitVec 6) (o : BitVec 3) (n : Nat) (s : State) (x : Sector) : Prop where
  aligned : (s.rs b).toNat % n = 0
  access : access s s.cur [((s.rs b).toNat, n)] .a 15 scClass = .ok [x]
  ordered : inOrder s s.cur 15 [x] = .ok ()
  released : o.getLsbD 1 = true → afterAll s s.cur = .ok ()

section
variable {d b r : BitVec 6} {o : BitVec 3} {s : State} {x : Sector} {size : Nat} {op : Nat → Except Bool Nat} {res : Nat → W64} {i : Instr}
  (hi : SlotAlone i) (h : issueAlone i s = atomic (alone i s).env d b o size op res s) (hs : Issues i s) (hw : ReachesWord b o size s x)
include h hw

/-- An atomic that reaches its word answers by the word's poison and by its operation. -/
theorem issueAlone_atomic : issueAlone i s =
    (match poisonAt s x.place size with
      | some info => .error (.late 0x14 info)
      | none =>
        match op (leNat (readPlace s x.place size)) with
        | .error hi => .error (.late 0x07 (BitVec.ofNat 64 hi.toNat))
        | .ok new => commit fun t => (writePlace x.place (leBytes size new) t).modCtx s.cur fun c =>
            c.landS d (res (leNat (readPlace s x.place size))) 1) := by
  refine h.trans ((Chk.bind_of_true (beq_iff_eq.2 hw.aligned)).trans ((Chk.bind_of_ok hw.access).trans ((Chk.bind_of_ok hw.ordered).trans ?_)))
  by_cases hr : releases o = true
  · exact (if_pos hr).trans (Chk.bind_of_ok (hw.released hr))
  · exact if_neg hr

include hi hs

theorem exec_atomic {new : Nat} (hp : poisonAt s x.place size = none) (hop : op (leNat (readPlace s x.place size)) = .ok new) :
    exec i s = .next (done i (does fun t => (writePlace x.place (leBytes size new) t).modCtx s.cur fun c =>
      c.landS d (res (leNat (readPlace s x.place size))) 1) s) := by
  refine exec_completes hi hs ((issueAlone_atomic h hw).trans ?_)
  rw [hp, hop]
  rfl

theorem exec_atomic_range {above : Bool} (hp : poisonAt s x.place size = none) (hop : op (leNat (readPlace s x.place size)) = .error above) :
    exec i s = .next (trapped i 0x07 (if above then 1 else 0) s) := by
  rw [exec_issues hi hs, issueAlone_atomic h hw, hp, hop]
  cases above <;> rfl

theorem exec_atomic_poisoned {info : W64} (hp : poisonAt s x.place size = some info) : exec i s = .next (trapped i 0x14 info s) := by
  rw [exec_issues hi hs, issueAlone_atomic h hw, hp]

end

section
variable {d b r : BitVec 6} {o : BitVec 3} {s : State} {x : Sector} {i : Instr} (hi : SlotAlone i) (hs : Issues i s)
include hi hs

/-- A 64-bit atomic writes what its operation gives and lands the old value. -/
theorem exec_atomic64 {op : W64 → W64 → Except Bool W64} {new : W64} (h : issueAlone i s = atomic64 (alone i s).env d b r o op s)
    (hw : ReachesWord b o 8 s x) (hp : poisonAt s x.place 8 = none)
    (hop : op (BitVec.ofNat 64 (leNat (readPlace s x.place 8))) (s.rs r) = .ok new) :
    exec i s = .next (done i (does fun t => (writePlace x.place (leBytes 8 new.toNat) t).modCtx s.cur fun c =>
      c.landS d (BitVec.ofNat 64 (leNat (readPlace s x.place 8))) 1) s) :=
  exec_atomic (op := fun old => (op (BitVec.ofNat 64 old) (s.rs r)).map (·.toNat)) (res := (BitVec.ofNat 64 ·)) hi h hs hw hp
    (congrArg (Except.map _) hop)

/-- A 32-bit atomic does so with 32 bits. -/
theorem exec_atomic32 {op : W32 → W32 → W32} {res : Nat → W64} {v : W64} (h : issueAlone i s = atomic32 (alone i s).env d b r o op res s)
    (hw : ReachesWord b o 4 s x) (hp : poisonAt s x.place 4 = none) (hv : res (leNat (readPlace s x.place 4)) = v) :
    exec i s = .next (done i (does fun t => (writePlace x.place (leBytes 4
      (op (BitVec.ofNat 32 (leNat (readPlace s x.place 4))) ((s.rs r).setWidth 32)).toNat) t).modCtx s.cur fun c => c.landS d v 1) s) := by
  subst hv
  exact exec_atomic (op := fun old => .ok (op (BitVec.ofNat 32 old) ((s.rs r).setWidth 32)).toNat) (res := res) hi h hs hw hp rfl

end

/-- An operation that is an atomic on a word of `n` bytes. -/
structure AtomicForm (d b : BitVec 6) (o : BitVec 3) (i : Instr) (n : Nat) : Prop where
  slot : SlotAlone i
  issue : ∀ s, ∃ op res, issueAlone i s = atomic (alone i s).env d b o n op res s

section
variable {d b r : BitVec 6} {o : BitVec 3} {i : Instr} (hi : SlotAlone i)
include hi

theorem atomicForm_of_64 {op : State → W64 → W64 → Except Bool W64} (h : ∀ s, issueAlone i s = atomic64 (alone i s).env d b r o (op s) s) :
    AtomicForm d b o i 8 :=
  ⟨hi, fun s => ⟨fun old => (op s (BitVec.ofNat 64 old) (s.rs r)).map BitVec.toNat, (BitVec.ofNat 64 ·), h s⟩⟩

theorem atomicForm_of_32 {op : W32 → W32 → W32} {res : Nat → W64} (h : ∀ s, issueAlone i s = atomic32 (alone i s).env d b r o op res s) :
    AtomicForm d b o i 4 :=
  ⟨hi, fun s => ⟨fun old => .ok (op (BitVec.ofNat 32 old) ((s.rs r).setWidth 32)).toNat, res, h s⟩⟩

end

/-- The atomics of R293, each with the size of its word. -/
theorem atomicForm_of_mem (g : BitVec 3) (d b r : BitVec 6) (o : BitVec 3) : ∀ p ∈ ([(.aadd g d b r o, 8), (.aaddw g d b r o, 4), (.afadd g d b r o, 4),
    (.adadd g d b r o, 8), (.amax g d b r o, 8), (.amin g d b r o, 8), (.aor g d b r o, 8), (.aand g d b r o, 8), (.axchg g d b r o, 8),
    (.acas g d b r o, 8)] : List (Instr × Nat)), AtomicForm d b o p.1 p.2 := by
  simp only [List.forall_mem_cons]
  refine ⟨?_, ?_, ?_, ?_, ?_, ?_, ?_, ?_, ?_, ?_, fun p hp => (nomatch hp)⟩
  · exact atomicForm_of_64 (op := fun _ o v => .ok (o + v)) slotAlone_of_not_hdrT fun _ => rfl
  · exact atomicForm_of_32 (op := (· + ·)) (res := sextLoad 32) slotAlone_of_not_hdrT fun _ => rfl
  · exact atomicForm_of_32 (op := fadd) (res := zextLoad) slotAlone_of_not_hdrT fun _ => rfl
  · exact atomicForm_of_64 (op := fun _ => dkAdd) slotAlone_of_not_hdrT fun _ => rfl
  · exact atomicForm_of_64 (op := fun _ o v => .ok (if o.slt v then v else o)) slotAlone_of_not_hdrT fun _ => rfl
  · exact atomicForm_of_64 (op := fun _ o v => .ok (if v.slt o then v else o)) slotAlone_of_not_hdrT fun _ => rfl
  · exact atomicForm_of_64 (op := fun _ o v => .ok (o ||| v)) slotAlone_of_not_hdrT fun _ => rfl
  · exact atomicForm_of_64 (op := fun _ o v => .ok (o &&& v)) slotAlone_of_not_hdrT fun _ => rfl
  · exact atomicForm_of_64 (op := fun _ _ v => .ok v) slotAlone_of_not_hdrT fun _ => rfl
  · exact atomicForm_of_64 (op := fun s o v => .ok (if o = s.rs d then v else o)) slotAlone_of_not_hdrT fun _ => rfl

theorem slt_choice (x y u v : W64) : (if x.slt y then u else v) = if x.toInt < y.toInt then u else v :=
  if_congr BitVec.slt_iff_toInt_lt rfl rfl

/-- Settles O35: each atomic by its operation. -/
theorem atomics : Obligations.Atomics := by
  intro g d b r o word put old oldW a64 a32
  have reach {n : Nat} {s : State} {x : Sector} (h : word s n x) : ReachesWord b o n s x := ⟨h.1, h.2.1, h.2.2.1, h.2.2.2⟩
  refine ⟨?add, ?max, ?min, ?or, ?and, ?xchg, ?cas, ?addw, ?fadd, ?dadd, ?range, ?poisoned⟩
  case add => exact fun s x hs hw hp => exec_atomic64 (op := fun o v => .ok (o + v)) slotAlone_of_not_hdrT hs rfl (reach hw) hp rfl
  case max =>
    exact fun s x hs hw hp => exec_atomic64 (op := fun o v => .ok (if o.slt v then v else o)) slotAlone_of_not_hdrT hs rfl (reach hw) hp
      (congrArg Except.ok (slt_choice ..))
  case min =>
    exact fun s x hs hw hp => exec_atomic64 (op := fun o v => .ok (if v.slt o then v else o)) slotAlone_of_not_hdrT hs rfl (reach hw) hp
      (congrArg Except.ok (slt_choice ..))
  case or => exact fun s x hs hw hp => exec_atomic64 (op := fun o v => .ok (o ||| v)) slotAlone_of_not_hdrT hs rfl (reach hw) hp rfl
  case and => exact fun s x hs hw hp => exec_atomic64 (op := fun o v => .ok (o &&& v)) slotAlone_of_not_hdrT hs rfl (reach hw) hp rfl
  case xchg => exact fun s x hs hw hp => exec_atomic64 (op := fun _ v => .ok v) slotAlone_of_not_hdrT hs rfl (reach hw) hp rfl
  case cas =>
    exact fun s x hs hw hp => exec_atomic64 (op := fun o v => .ok (if o = s.rs d then v else o)) slotAlone_of_not_hdrT hs rfl (reach hw) hp rfl
  case addw => exact fun s x hs hw hp => exec_atomic32 (op := (· + ·)) (res := sextLoad 32) slotAlone_of_not_hdrT hs rfl (reach hw) hp rfl
  case fadd =>
    exact fun s x hs hw hp => exec_atomic32 (op := Machine.fadd) (res := zextLoad) slotAlone_of_not_hdrT hs rfl (reach hw) hp
      (zextLoad_eq (leNat_readPlace_lt s x.place 4))
  case dadd => exact fun s x v hs hw hp hv => exec_atomic64 (op := dkAdd) slotAlone_of_not_hdrT hs rfl (reach hw) hp hv
  case range =>
    exact fun s x above hs hw hp hv => exec_atomic_range
      (op := fun old => (dkAdd (BitVec.ofNat 64 old) (s.rs r)).map (·.toNat)) (res := (BitVec.ofNat 64 ·)) (d := d) slotAlone_of_not_hdrT rfl hs (reach hw) hp
      (congrArg (Except.map _) hv)
  case poisoned =>
    intro p hmem s x info hs hw hp
    obtain ⟨hi, hissue⟩ := atomicForm_of_mem g d b r o p hmem
    obtain ⟨op, res, h⟩ := hissue s
    exact exec_atomic_poisoned hi h hs (reach hw) hp

/-! ## The local window (R65, R66) -/

theorem windowPlace_fetch {s : State} {g va n oc : Nat} {ps : List (Nat × Nat)} : windowPlace s g va n ps .x oc = .error (0x04, BitVec.ofNat 64 va) := by
  unfold windowPlace
  exact if_pos rfl

section
variable {s : State} {g o n oc : Nat} {k : Right} (ho : o < 2 ^ 32)
include ho

theorem inWindow_scratch : inWindow (0x1FF * 2 ^ 48 + o) = true := by
  rw [inWindow, beq_iff_eq]
  omega

theorem window_offset : (0x1FF * 2 ^ 48 + o) % 2 ^ 32 = o := by omega

theorem window_part : (0x1FF * 2 ^ 48 + o) / 2 ^ 32 % 65536 = 0 := by omega

/-- An access of the window translates to its place there. -/
theorem xlate_window : xlate s g (0x1FF * 2 ^ 48 + o) n k oc = (windowPlace s g (0x1FF * 2 ^ 48 + o) n [(0, n)] k oc).map fun p =>
    { va := 0x1FF * 2 ^ 48 + o, n := n, place := p, coh := none, demoted := none } := if_pos (inWindow_scratch ho)

theorem windowPlace_scratch (hk : k ≠ .x) : windowPlace s g (0x1FF * 2 ^ 48 + o) n [(0, n)] k oc =
    if o + n ≤ (s.ctx g).scratchSize then .ok (.scratch g o) else .error (0x04, BitVec.ofNat 64 (0x1FF * 2 ^ 48 + o)) := by
  unfold windowPlace
  rw [window_offset ho, if_neg hk, window_part ho]
  rfl

theorem xlate_scratch (hk : k ≠ .x) (hin : o + n ≤ (s.ctx g).scratchSize) : xlate s g (0x1FF * 2 ^ 48 + o) n k oc =
    .ok { va := 0x1FF * 2 ^ 48 + o, n := n, place := .scratch g o, coh := none, demoted := none } := by
  rw [xlate_window ho, windowPlace_scratch ho hk, if_pos hin]
  rfl

theorem xlate_past_scratch (hk : k ≠ .x) (hout : (s.ctx g).scratchSize < o + n) :
    xlate s g (0x1FF * 2 ^ 48 + o) n k oc = .error (0x04, BitVec.ofNat 64 (0x1FF * 2 ^ 48 + o)) := by
  rw [xlate_window ho, windowPlace_scratch ho hk, if_neg (Nat.not_le.2 hout)]
  rfl

/-- No bundle is fetched from the window. -/
theorem xlate_window_fetch : xlate s g (0x1FF * 2 ^ 48 + o) n .x oc = .error (0x04, BitVec.ofNat 64 (0x1FF * 2 ^ 48 + o)) := by
  rw [xlate_window ho, windowPlace_fetch]
  rfl

end

/-! ## Translation (R236 to R243) -/

section
variable {s : State} {g va n oc : Nat} {k : Right}

theorem xlate_high (hlo : 2 ^ 57 ≤ va) (hhi : va < 2 ^ 64) : xlate s g va n k oc = .error (0x04, BitVec.ofNat 64 va) := by
  have hw : inWindow va = false := by
    rw [inWindow, beq_eq_false_iff_ne]
    omega
  rw [xlate, xlateParts, if_neg (by simp [hw]), if_pos hlo]

variable (hw : inWindow va = false) (hlt : va < 2 ^ 57)
include hw hlt

theorem xlate_no_entry (h : (s.ctx g).entryFor va n = none) : xlate s g va n k oc = .error (0x04, BitVec.ofNat 64 va) := by
  rw [xlate, xlateParts, if_neg (by simp [hw]), if_neg (Nat.not_le.2 hlt), h]

variable {e : BitVec 256} (h : (s.ctx g).entryFor va n = some e)
include h

theorem xlate_no_right (hr : k.ok (swRights e) = false) : xlate s g va n k oc = .error (0x05, BitVec.ofNat 64 va) := by
  rw [xlate, xlateParts, if_neg (by simp [hw]), if_neg (Nat.not_le.2 hlt), h]
  exact if_pos (by simp [hr])

variable (hr : k.ok (swRights e) = true)
include hr

/-- An access of an entry that has the right it needs goes by the probe of its frame. -/
theorem xlate_probe : xlate s g va n k oc = (match probe s (swPhys e + viewOf (swLay e) (va - swBase e)) with
    | .error x => .error x
    | .ok d => if (k = .w || k = .a) && spillAt s (swPhys e + (va - swBase e)) then .error (0x05, BitVec.ofNat 64 va)
        else .ok { va := va, n := n, place := .dp (swPhys e) (swLay e) (va - swBase e), coh := some (swCoh e), demoted := d }) := by
  rw [xlate, xlateParts, if_neg (by simp [hw]), if_neg (Nat.not_le.2 hlt), h]
  exact if_neg (by simp [hr])

theorem xlate_probe_error {x : Nat × W64} (hp : probe s (swPhys e + viewOf (swLay e) (va - swBase e)) = .error x) :
    xlate s g va n k oc = .error x := by
  rw [xlate_probe hw hlt h hr, hp]

/-- A read or a fetch that passes reaches the frames of its entry. -/
theorem xlate_reads (hp : probe s (swPhys e + viewOf (swLay e) (va - swBase e)) = .ok none) (hk : k = .r ∨ k = .x) :
    xlate s g va n k oc = .ok { va := va, n := n, place := .dp (swPhys e) (swLay e) (va - swBase e), coh := some (swCoh e), demoted := none } := by
  rw [xlate_probe hw hlt h hr, hp]
  obtain rfl | rfl := hk <;> rfl

end

section
variable {s : State} {pa : Nat}

theorem probe_beyond (h : s.dpBytes ≤ pa) : probe s pa = .error (0x08, BitVec.ofNat 64 pa) := if_pos h

variable (h : pa < s.dpBytes)
include h

theorem probe_in_error (he : frError (s.frame (pa / 65536)) = true) : probe s pa = .error (0x14, BitVec.ofNat 64 (pa / 64 * 64)) :=
  (if_neg (Nat.not_le.2 h)).trans (if_pos he)

variable (he : frError (s.frame (pa / 65536)) = false)
include he

theorem probe_not_present (hp : frP (s.frame (pa / 65536)) = false) : probe s pa = .error (0x08, BitVec.ofNat 64 pa) :=
  (if_neg (Nat.not_le.2 h)).trans ((if_neg (by simp [he])).trans (if_pos (by simp [hp])))

theorem probe_plain (hp : frP (s.frame (pa / 65536)) = true) (hd : frD (s.frame (pa / 65536)) = false) (hc : frC (s.frame (pa / 65536)) = false) :
    probe s pa = .ok none :=
  (if_neg (Nat.not_le.2 h)).trans ((if_neg (by simp [he])).trans ((if_neg (by simp [hp])).trans
    ((if_neg (by simp [hd])).trans (if_neg (by simp [hc])))))

end

/-! ## Alignment (R282, R294) -/

theorem aligned_error {va n : Nat} (h : va % n ≠ 0) : aligned va n = .error (.trap 0x06 (BitVec.ofNat 64 va)) := if_neg (by simpa using h)

theorem access1_misaligned {s : State} {g va n oc : Nat} {k : Right} (h : va % n ≠ 0) :
    access1 s g va n k oc = .error (.trap 0x06 (BitVec.ofNat 64 va)) := Chk.bind_of_error (aligned_error h)

/-- An operation whose first check is a plain access of `n` bytes at base + offset × n. -/
structure AccessForm (b : BitVec 6) (f : BitVec 5) (i : Instr) (n : Nat) : Prop where
  slot : SlotAlone i
  issue : ∀ s, ∃ k oc, ∃ rest : Sector → Issue, issueAlone i s = (access1 s s.cur (addrOff (s.rs b) (f.toInt * n)) n k oc >>= rest)

section
variable {q : BitVec 1} {d b : BitVec 6} {c : BitVec 4} {f : BitVec 5} {i : Instr} {n : Nat} (hi : SlotAlone i)
include hi

theorem accessForm_of_load {ext : Nat → W64} (h : ∀ s, issueAlone i s = loadS (alone i s).env q d b c f n ext s) : AccessForm b f i n :=
  ⟨hi, fun s => ⟨.r, c.toNat, _, h s⟩⟩

theorem accessForm_of_store (h : ∀ s, issueAlone i s = storeS (alone i s).env d b c f n s) : AccessForm b f i n :=
  ⟨hi, fun s => ⟨.w, c.toNat, _, h s⟩⟩

end

theorem AccessForm.misaligned {b : BitVec 6} {f : BitVec 5} {i : Instr} {n : Nat} (h : AccessForm b f i n) :
    TrapsWhen i (fun s => addrOff (s.rs b) (f.toInt * n) % n ≠ 0) 0x06 fun s => BitVec.ofNat 64 (addrOff (s.rs b) (f.toInt * n)) :=
  trapsWhen_of_issue h.slot fun s hs => by
    obtain ⟨k, oc, rest, hissue⟩ := h.issue s
    rw [hissue]
    exact Chk.bind_of_error (access1_misaligned hs)

theorem accessForm_of_mem (q : BitVec 1) (g : BitVec 3) (d b : BitVec 6) (c : BitVec 4) (f : BitVec 5) :
    ∀ p ∈ ([(.ldd q g d b c f, 8), (.ldw q g d b c f, 4), (.ldwu q g d b c f, 4), (.ldh q g d b c f, 2), (.ldhu q g d b c f, 2),
        (.std g d b c f, 8), (.stw g d b c f, 4), (.sth g d b c f, 2)] : List (Instr × Nat)), AccessForm b f p.1 p.2 := by
  simp only [List.forall_mem_cons]
  refine ⟨?_, ?_, ?_, ?_, ?_, ?_, ?_, ?_, fun p hp => (nomatch hp)⟩
  · exact accessForm_of_load (q := q) (d := d) (c := c) (ext := zextLoad) slotAlone_of_not_hdrT fun _ => rfl
  · exact accessForm_of_load (q := q) (d := d) (c := c) (ext := sextLoad 32) slotAlone_of_not_hdrT fun _ => rfl
  · exact accessForm_of_load (q := q) (d := d) (c := c) (ext := zextLoad) slotAlone_of_not_hdrT fun _ => rfl
  · exact accessForm_of_load (q := q) (d := d) (c := c) (ext := sextLoad 16) slotAlone_of_not_hdrT fun _ => rfl
  · exact accessForm_of_load (q := q) (d := d) (c := c) (ext := zextLoad) slotAlone_of_not_hdrT fun _ => rfl
  · exact accessForm_of_store (d := d) (c := c) slotAlone_of_not_hdrT fun _ => rfl
  · exact accessForm_of_store (d := d) (c := c) slotAlone_of_not_hdrT fun _ => rfl
  · exact accessForm_of_store (d := d) (c := c) slotAlone_of_not_hdrT fun _ => rfl

theorem ofNat_toNat_self (x : W64) : BitVec.ofNat 64 x.toNat = x := by simp

theorem trapsWhen_lddp_misaligned (q : BitVec 1) (g : BitVec 3) (d b : BitVec 6) (c : BitVec 4) (f : BitVec 5) :
    TrapsWhen (.lddp q g d b c f) (fun s => (s.rs b).toNat % 8 ≠ 0) 0x06 fun s => s.rs b :=
  trapsWhen_of_issue slotAlone_of_not_hdrT fun s h => by
    have hx : access1 s s.cur (s.rs b).toNat 8 .r c.toNat = .error (.trap 0x06 (s.rs b)) := by
      rw [access1_misaligned h, ofNat_toNat_self]
    exact Chk.bind_of_error hx

theorem AtomicForm.misaligned {d b : BitVec 6} {o : BitVec 3} {i : Instr} {n : Nat} (h : AtomicForm d b o i n) :
    TrapsWhen i (fun s => (s.rs b).toNat % n ≠ 0) 0x06 fun s => s.rs b :=
  trapsWhen_of_issue h.slot fun s hs => by
    obtain ⟨op, res, hissue⟩ := h.issue s
    have ha : aligned (s.rs b).toNat n = .error (.trap 0x06 (s.rs b)) := by rw [aligned_error hs, ofNat_toNat_self]
    rw [hissue]
    exact Chk.bind_of_error ha

/-- Settles O36: the window, the checks of translation in their order, and alignment before them. -/
theorem translationAndAlignment : Obligations.TranslationAndAlignment := by
  refine ⟨⟨fun s g o n oc k ho _ => ?window, fun s g va n oc k hw hlt => ?checks⟩, fun q g d b r c f o =>
    ⟨fun p hp => (accessForm_of_mem q g d b c f p hp).misaligned, trapsWhen_lddp_misaligned q g d b c f,
      fun p hp => (atomicForm_of_mem g d b r o p hp).misaligned⟩⟩
  case window =>
    exact ⟨fun hk hin => xlate_scratch ho hk hin, fun hk hout => xlate_past_scratch ho hk hout, xlate_window_fetch ho,
      fun va hlo hhi => xlate_high hlo hhi⟩
  case checks =>
    refine ⟨fun h => xlate_no_entry hw hlt h, fun e h => ⟨fun hr => xlate_no_right hw hlt h hr, fun hr => ?_⟩⟩
    have faults {x : Nat × W64} := xlate_probe_error (x := x) (n := n) (oc := oc) hw hlt h hr
    exact ⟨fun hb => faults (probe_beyond hb), fun hb he => faults (probe_in_error hb he), fun hb he hp => faults (probe_not_present hb he hp),
      fun hb he hp hd hc hk => xlate_reads hw hlt h hr (probe_plain hb he hp hd hc) hk⟩

end Sys2Proof.Machine
end

section
/-!
PROOF. Tile operands, and tile transfers (R167, R168, R195, R288 to R292).
-/
set_option Elab.async false
namespace Sys2Proof.Machine

/-! ## Tile operands -/

section
variable {s : State}

theorem tileOperand_ok {t : BitVec 5} {n : Nat} {h : Hdr} (ht : TileIs s t n h) : tileOperand s s.cur t = .ok (n, h) := by
  obtain ⟨hcount, hvalid, rfl, rfl⟩ := ht
  exact (Chk.bind_of_true (by simpa using hcount)).trans (Chk.bind_of_true hvalid)

/-- Several tiles, each of them in range and with a valid header. -/
theorem tileOperands_ok {ts : List Nat} (h : ∀ t ∈ ts, t < (s.ctx s.cur).tileCount ∧ hdrValid ((s.ctx s.cur).tc t) = true) :
    tileOperands s s.cur ts = .ok (ts.map fun t => ((s.ctx s.cur).tileBase + t, Hdr.of ((s.ctx s.cur).tc t))) :=
  (Chk.bind_of_true (List.all_eq_true.2 fun t ht => by simpa using (h t ht).1)).trans
    (Chk.bind_of_true (List.all_eq_true.2 fun t ht => (h t ht).2))

theorem tileOperands_two {t t' : BitVec 5} {n n' : Nat} {h h' : Hdr} (ht : TileIs s t n h) (ht' : TileIs s t' n' h') :
    tileOperands s s.cur [t.toNat, t'.toNat] = .ok [(n, h), (n', h')] := by
  obtain ⟨hc, hv, rfl, rfl⟩ := ht
  obtain ⟨hc', hv', rfl, rfl⟩ := ht'
  exact tileOperands_ok (ts := [t.toNat, t'.toNat]) (by simp [hc, hv, hc', hv'])

theorem fullTile_ok {n : Nat} {d : TileBits} (h : TileHolds s n d) : fullTile s s.cur n = .ok d := by
  obtain ⟨hfull, rfl⟩ := h
  exact if_pos hfull

theorem tilePoison_eq_none {k n : Nat} {l : List Nat} (h : ∀ y ∈ l, y ∉ (s.tile k n).poison) : tilePoison s k n l = none := by
  have hnone : (l.find? fun x => (s.tile k n).poison.contains x) = none := List.find?_eq_none.2 fun y hy => by simpa using h y hy
  rw [tilePoison, hnone]
  rfl

theorem cleanSectors_ok {n : Nat} {d : TileBits} {l : List Nat} (h : TileHolds s n d) (hp : ∀ y ∈ l, y ∉ (s.tile (coreOf s.cur) n).poison) :
    cleanSectors s s.cur n l = .ok d := by
  refine (Chk.bind_of_ok (fullTile_ok h)).trans ?_
  rw [tilePoison_eq_none hp]

end

theorem queueRoom_ok {q : List Job} {n : Nat} (h : q.length < n) : queueRoom q n = .ok () := if_pos (by simpa using h)

/-! ## The rows of a transfer (R289) -/

/-- What a transfer needs of its stride, its base and the queue. -/
structure RowsFit (b : BitVec 6) (s : State) (h : Hdr) : Prop where
  stride : h.rowLen ≤ h.pitch
  unit : h.pitch % h.unit = 0
  base : (s.rs b).toNat % h.unit = 0
  room : (s.core (coreOf s.cur)).xferQ.length < 8

section
variable {b : BitVec 6} {s : State} {h : Hdr} {n : Nat}

theorem rowLimits_ok (hf : RowsFit b s h) : rowLimits h (s.rs b) = .ok () :=
  (Chk.bind_of_true (by simp [hf.stride, hf.unit])).trans (if_pos (by simpa using hf.base))

/-- A transfer that has room and is in its order starts. -/
theorem xferRoom_ok {e : Env} {oc : Nat} {l : List (Option (List Sector))} (hg : e.g = s.cur) (hf : RowsFit b s h)
    (ho : inOrder s s.cur oc (l.flatMap (·.getD [])) = .ok ()) : xferRoom e oc l s = .ok () := by
  unfold xferRoom
  rw [hg]
  exact (Chk.bind_of_ok (queueRoom_ok hf.room)).trans ho

/-- The data a load fills a tile with: row `m` as memory holds it, zeros where there is none. -/
def loadedData (s : State) (h : Hdr) (old : TileBits) (l : List (Option (List Sector))) : TileBits :=
  h.fill old fun m k => match l.getD m none with
    | some r => h.rowElem (readRow s r) k
    | none => fmtZero h.fmt

theorem getD_map_readRow (s : State) (l : List (Option (List Sector))) (m : Nat) :
    (l.map fun r => r.map (readRow s)).getD m none = (l.getD m none).map (readRow s) := by
  simp only [List.getD_eq_getElem?_getD, List.getElem?_map]
  cases l[m]? <;> rfl

theorem loadRows_ok {e : Env} {oc : Nat} {l : List (Option (List Sector))} (hg : e.g = s.cur) (hf : RowsFit b s h)
    (ho : inOrder s s.cur oc (l.flatMap (·.getD [])) = .ok ()) (hown : ownSlot s s.cur n = .ok ()) :
    loadRows e n h oc l s = .ok (does fun u => xferJob e oc [(n, h.status (loadedData s h (s.tile (coreOf s.cur) n).data l) false)]
      (poisonsOf u (l.flatMap (·.getD []))) l (touchRead (l.flatMap (·.getD [])) (u.modTile (coreOf s.cur) n fun z =>
        z.write h.sectors (loadedData s h (s.tile (coreOf s.cur) n).data l) (h.status (loadedData s h (s.tile (coreOf s.cur) n).data l) false)))) := by
  have hdata : (h.fill (s.tile (coreOf s.cur) n).data fun m k => match (l.map fun r => r.map (readRow s)).getD m none with
      | some r => h.rowElem r k
      | none => fmtZero h.fmt) = loadedData s h (s.tile (coreOf s.cur) n).data l := by
    refine congrArg (h.fill _) (funext fun m => funext fun k => ?_)
    rw [getD_map_readRow]
    cases l.getD m none <;> rfl
  rw [← hdata]
  refine (Chk.bind_of_ok (xferRoom_ok hg hf ho)).trans ((Chk.bind_of_ok (hg ▸ hown)).trans ?_)
  rw [hg]
  rfl

/-- A load that issues: what it commits. -/
theorem exec_loadRows {i : Instr} {oc : BitVec 4} {l : List (Option (List Sector))} (hi : SlotAlone i) (hs : Issues i s)
    (hissue : issueAlone i s = loadRows (alone i s).env n h oc.toNat l s) (hf : RowsFit b s h)
    (ho : inOrder s s.cur oc.toNat (l.flatMap (·.getD [])) = .ok ()) (hown : ownSlot s s.cur n = .ok ()) :
    exec i s = .next (done i (does fun u => xferJob s.env oc.toNat [(n, h.status (loadedData s h (s.tile (coreOf s.cur) n).data l) false)]
      (poisonsOf s (l.flatMap (·.getD []))) l (touchRead (l.flatMap (·.getD [])) (u.modTile (coreOf s.cur) n fun z =>
        z.write h.sectors (loadedData s h (s.tile (coreOf s.cur) n).data l) (h.status (loadedData s h (s.tile (coreOf s.cur) n).data l) false)))) s) := by
  rw [exec_completes hi hs (hissue.trans (loadRows_ok rfl hf ho hown))]
  exact congrArg Host.Outcome.next (done_congr i none rfl)

/-- What a store of rows commits: its bytes, row by row, and the poison of the tile with them. -/
theorem exec_storeRows {i : Instr} {oc : BitVec 4} {d : TileBits} {l : List (Option (List Sector))} (hi : SlotAlone i) (hs : Issues i s)
    (hissue : issueAlone i s = storeRows (alone i s).env n h oc.toNat l s) (hf : RowsFit b s h)
    (ho : inOrder s s.cur oc.toNat (l.flatMap (·.getD [])) = .ok ()) (hd : TileHolds s n d) :
    exec i s = .next (done i (does fun u => xferJob s.env oc.toNat [] [] l (storePoison s.env n (s.tile (coreOf s.cur) n) h l
      ((List.range h.rows).foldl (fun u m => match l.getD m none with | some r => writeSectors r (h.rowBytes d m) u | none => u) u))) s) := by
  obtain ⟨-, rfl⟩ := hd
  exact exec_completes hi hs (hissue.trans (Chk.bind_of_ok (xferRoom_ok rfl hf ho)))

end

/-! ## Rows by an index tile (R291) -/

/-- The memory rows an index tile names: entry `m` of it, or none for all ones. -/
structure IndexedRows (x : BitVec 5) (v : BitVec 1) (s : State) (h : Hdr) (vs : List (Option Nat)) (n : Nat) (hx : Hdr) (d : TileBits) : Prop where
  tile : TileIs s x n hx
  holds : TileHolds s n d
  fmt : hx.fmt = 12 ∨ (hx.fmt = 11 ∧ v = 0)
  count : h.rows ≤ hx.count
  clean : ∀ y ∈ viewSectors hx h.rows, y ∉ (s.tile (coreOf s.cur) n).poison
  rows : vs = (List.range h.rows).map fun m => if (if v = 1 then hx.getRow d m / 2 ^ 32 else hx.getRow d m) % 2 ^ 32 = 0xFFFFFFFF then none
    else some ((if v = 1 then hx.getRow d m / 2 ^ 32 else hx.getRow d m) % 2 ^ 32)

theorem indexedRows_ok {t x : BitVec 5} {b : BitVec 6} {v : BitVec 1} {fmtOk : Nat → Bool} {e : Env} {s : State} {n m : Nat} {h hx : Hdr} {d : TileBits}
    {vs : List (Option Nat)} (hg : e.g = s.cur) (ht : TileIs s t n h) (hix : IndexedRows x v s h vs m hx d) (hf : RowsFit b s h) (hfmt : fmtOk h.fmt = true) :
    indexedRows e t x b v fmtOk s = .ok (n, h, vs) := by
  have hfmts : (fmtOk h.fmt && (hx.fmt == 12 || (hx.fmt == 11 && v == 0))) = true := by
    rw [hfmt]
    simpa using hix.fmt
  unfold indexedRows
  rw [hg, hix.rows]
  exact (Chk.bind_of_ok (tileOperands_two ht hix.tile)).trans ((Chk.bind_of_true hfmts).trans ((Chk.bind_of_true (decide_eq_true hix.count)).trans
    ((Chk.bind_of_ok (rowLimits_ok hf)).trans (Chk.bind_of_ok (cleanSectors_ok hix.holds hix.clean)))))

/-! ## The forms -/

section
variable {g : BitVec 3} {t x : BitVec 5} {b : BitVec 6} {oc : BitVec 4} {v : BitVec 1} {s : State} {n m : Nat} {h hx : Hdr} {d dx : TileBits}
  {vs : List (Option Nat)} {l : List (Option (List Sector))} (ht : TileIs s t n h) (hf : RowsFit b s h)
include ht hf

theorem issueAlone_tld (hl : rowAccess s.env h (s.rs b) h.allRows .r oc.toNat s = .ok l) :
    issueAlone (.tld g t b oc) s = loadRows (alone (.tld g t b oc) s).env n h oc.toNat l s :=
  (Chk.bind_of_ok (tileOperand_ok ht)).trans ((Chk.bind_of_ok (rowLimits_ok hf)).trans (Chk.bind_of_ok hl))

theorem issueAlone_tst (hl : rowAccess s.env h (s.rs b) h.allRows .w oc.toNat s = .ok l) (hd : TileHolds s n d) :
    issueAlone (.tst g t b oc) s = storeRows (alone (.tst g t b oc) s).env n h oc.toNat l s :=
  (Chk.bind_of_ok (tileOperand_ok ht)).trans ((Chk.bind_of_ok (rowLimits_ok hf)).trans ((Chk.bind_of_ok hl).trans (Chk.bind_of_ok (fullTile_ok hd))))

variable (hix : IndexedRows x v s h vs m hx dx)
include hix

theorem issueAlone_tgath (hl : rowAccess s.env h (s.rs b) vs .r oc.toNat s = .ok l) :
    issueAlone (.tgath g t b oc x v) s = loadRows (alone (.tgath g t b oc x v) s).env n h oc.toNat l s :=
  (Chk.bind_of_ok (indexedRows_ok rfl ht hix hf rfl)).trans (Chk.bind_of_ok hl)

theorem issueAlone_tscat (hl : rowAccess s.env h (s.rs b) vs .w oc.toNat s = .ok l) (hd : TileHolds s n d) :
    issueAlone (.tscat g t b oc x v) s = storeRows (alone (.tscat g t b oc x v) s).env n h oc.toNat l s :=
  (Chk.bind_of_ok (indexedRows_ok rfl ht hix hf rfl)).trans ((Chk.bind_of_ok hl).trans (Chk.bind_of_ok (fullTile_ok hd)))

/-- TSCADD adds each element of its tile at the place its row and column name (R292). -/
theorem exec_tscadd (hs : Issues (.tscadd g t b oc x v) s) (hfmt : h.fmt = 0 ∨ h.fmt = 5 ∨ h.fmt = 11)
    (hl : rowAccess s.env h (s.rs b) vs .a oc.toNat s = .ok l) (ho : inOrder s s.cur oc.toNat (l.flatMap (·.getD [])) = .ok ()) (hd : TileHolds s n d) :
    exec (.tscadd g t b oc x v) s = .next (done (.tscadd g t b oc x v) (does fun u =>
      xferJob s.env oc.toNat [] [] l (storePoison s.env n (s.tile (coreOf s.cur) n) h l (addRows s.env h (s.tile (coreOf s.cur) n) d l u))) s) :=
  exec_completes slotAlone_of_not_hdrT hs ((Chk.bind_of_ok (indexedRows_ok rfl ht hix hf (by obtain h0 | h0 | h0 := hfmt <;> simp [h0]))).trans
    ((Chk.bind_of_ok hl).trans ((Chk.bind_of_ok (fullTile_ok hd)).trans (Chk.bind_of_ok (xferRoom_ok rfl hf ho)))))

end

/-- Settles O37: each transfer by the rows it moves. -/
theorem tileTransfers : Obligations.TileTransfers := by
  intro g t x b oc v fits straight indexed secs load store
  have rowsFit {s : State} {h : Hdr} (hf : fits s h) : RowsFit b s h := ⟨hf.1, hf.2.1, hf.2.2.1, hf.2.2.2⟩
  have byIndex {s : State} {h : Hdr} {vs : List (Option Nat)} (hv : indexed s h vs) : ∃ m hx d, IndexedRows x v s h vs m hx d := by
    obtain ⟨m, hx, d, h1, h2, h3, h4, h5, h6⟩ := hv
    exact ⟨m, hx, d, ⟨h1, h2, h3, h4, h5, h6⟩⟩
  refine ⟨fun s n h vs l hs ht hv hf hl ho hown => ?tld, fun s n h vs l hs ht hv hf hl ho hown => ?tgath, fun s n h vs l d hs ht hv hf hl ho hd => ?tst,
    fun s n h vs l d hs ht hv hf hl ho hd => ?tscat, fun s n h vs l d hs ht hv hf hfmt hl ho hd => ?tscadd⟩
  case tld =>
    obtain rfl : vs = h.allRows := hv
    exact exec_loadRows slotAlone_of_not_hdrT hs (issueAlone_tld ht (rowsFit hf) hl) (rowsFit hf) ho hown
  case tgath =>
    obtain ⟨m, hx, dx, hix⟩ := byIndex hv
    exact exec_loadRows slotAlone_of_not_hdrT hs (issueAlone_tgath ht (rowsFit hf) hix hl) (rowsFit hf) ho hown
  case tst =>
    obtain rfl : vs = h.allRows := hv
    exact exec_storeRows slotAlone_of_not_hdrT hs (issueAlone_tst ht (rowsFit hf) hl hd) (rowsFit hf) ho hd
  case tscat =>
    obtain ⟨m, hx, dx, hix⟩ := byIndex hv
    exact exec_storeRows slotAlone_of_not_hdrT hs (issueAlone_tscat ht (rowsFit hf) hix hl hd) (rowsFit hf) ho hd
  case tscadd =>
    obtain ⟨m, hx, dx, hix⟩ := byIndex hv
    exact exec_tscadd ht (rowsFit hf) hix hs hfmt hl ho hd

end Sys2Proof.Machine
end

section
/-! PROOF. Copies and streams: a push that is held because its ring is full moves no tail. -/

set_option Elab.async false
namespace Sys2Proof.Machine

/-- A reset state whose ring at offset 0 has a tail of 1 and a head of 0: with one element per ring, a full ring. -/
def fullRing : State := { State.reset with groups := [((State.reset.ctx 0).group, { Group.initial with csram := [(0, 1)] })] }

theorem fullRing_pending : (fullRing.ctx 0).delayed = [] ∧ bulkPending 0 allClasses fullRing = false
    ∧ memWf (fullRing.group (fullRing.ctx 0).group).csram = true := by decide +kernel

theorem fullRing_push_tail : ringTail (issueLate 0 15 (.push (fullRing.ctx 0).group 0 0 0) fullRing) (fullRing.ctx 0).group 0
    ≠ ringTail fullRing (fullRing.ctx 0).group 0 + 1 := by decide +kernel

/-- Refutes O38: its clause on a push says nothing of room in the ring, and a push into the full ring of `fullRing` is held, so the tail
stays as it is (R255, R304). -/
theorem not_copiesAndStreams : ¬ Obligations.CopiesAndStreams := by
  rintro ⟨-, hstreams⟩
  obtain ⟨-, -, -, -, hpush, -⟩ := hstreams 0 0 0
  obtain ⟨hdelayed, hbulk, hwf⟩ := fullRing_pending
  exact fullRing_push_tail (hpush fullRing 0 0 0 0 hdelayed hbulk hwf).1

end Sys2Proof.Machine
end

section
/-! PROOF. Fences, SBAR and WAITM: what holds an access, and what a wait reads. -/

set_option Elab.async false
namespace Sys2Proof.Machine

theorem aligned_ok {va n : Nat} (h : va % n = 0) : aligned va n = .ok () := if_pos (by simpa using h)

/-! ## Markers (R256, R297) -/

/-- A marker of the class of an access, with a bulk operation before it under way, holds the access. -/
theorem fenceHolds_of_bulkBefore {s : State} {k oc q : Nat} {f : FenceMark} (hf : f ∈ (s.ctx k).fences) (hq : f.seq < q)
    (hoc : f.mask.getLsbD oc = true) (hb : bulkBefore k f.classes f.seq s = true) : fenceHolds k oc q s = true := by
  have hwaits : f.waits oc = f.classes := if_pos hoc
  unfold fenceHolds
  rw [List.any_eq_true]
  exact ⟨f, hf, by simp [hq, hwaits, earlier, hb]⟩

theorem inOrderAt_of_fenceHolds {s : State} {k oc : Nat} {ps : List (Place × Nat)} (h : fenceHolds k oc (s.ctx k).memSeq s = true) :
    inOrderAt s k oc ps ≠ .ok () := by
  unfold inOrderAt
  simp [h]

theorem storeHeld_of_fenceHolds {s : State} {k oc : Nat} {ps : List (Place × Nat)} (h : fenceHolds k oc (s.ctx k).memSeq s = true) :
    storeHeld k oc ps s = true := by
  simp [storeHeld, h]

/-! ## WAITM (R299) -/

theorem waitCond_bits (w c m : W64) : waitCond 0 w c m = true ↔ w &&& c ≠ 0 := bne_iff_ne
theorem waitCond_eq (w c m : W64) : waitCond 1 w c m = true ↔ w &&& m = c := beq_iff_eq
theorem waitCond_ne (w c m : W64) : waitCond 2 w c m = true ↔ w &&& m ≠ c := bne_iff_ne
theorem waitCond_le (w c m : W64) : waitCond 3 w c m = true ↔ c.toNat ≤ w.toNat := decide_eq_true_iff
theorem waitCond_lt (w c m : W64) : waitCond 4 w c m = true ↔ w.toNat < c.toNat := decide_eq_true_iff

section
variable {g : BitVec 3} {a b c : BitVec 6} {f : BitVec 3} {s : State} {x : Sector}

/-- The word WAITM compares, and what its field makes of it. -/
def waitHolds (a c : BitVec 6) (f : BitVec 3) (x : Sector) (s : State) : Bool :=
  waitCond f (BitVec.ofNat 64 (leNat (readPlace s x.place 8))) (s.rs c) (if a = 0 then BitVec.allOnes 64 else s.rs a)

/-- WAITM once its word is reached and nothing earlier of its context is still to write or to read it. -/
theorem issueAlone_waitm (ha : (s.rs b).toNat % 8 = 0) (hx : access s s.cur [((s.rs b).toNat, 8)] .r 0 scClass = .ok [x])
    (hlate : ((s.ctx s.cur).delayed.any fun y => y.act.meets x.place 8) = false) (hread : meetsUnread s.cur [(x.place, 8)] s = false) :
    issueAlone (.waitm g a b c f) s = (do
      match poisonAt s x.place 8 with
      | some info => .error (.late 0x14 info)
      | none => .ok ()
      Chk.need (waitHolds a c f x s) (.block .waitm)
      commit (touchRead [x])) := by
  refine (Chk.bind_of_ok (aligned_ok ha)).trans ((Chk.bind_of_ok hx).trans (Chk.bind_of_true ?_))
  have hl : (((s.ctx s.cur).delayed.any fun d => d.act.meets x.place 8) || meetsUnread s.cur [(x.place, 8)] s) = false := by
    rw [hlate, hread]
    rfl
  exact (by simpa using hl : ((!((s.ctx s.cur).delayed.any fun d => d.act.meets x.place 8)) && !meetsUnread s.cur [(x.place, 8)] s) = true)

end

theorem exec_waitm {g : BitVec 3} {a b c : BitVec 6} {f : BitVec 3} {s : State} {x : Sector} {P : Prop} (hs : Issues (.waitm g a b c f) s)
    (ha : (s.rs b).toNat % 8 = 0) (hx : access s s.cur [((s.rs b).toNat, 8)] .r 0 scClass = .ok [x])
    (hlate : ((s.ctx s.cur).delayed.any fun y => y.act.meets x.place 8) = false) (hread : meetsUnread s.cur [(x.place, 8)] s = false)
    (hP : waitHolds a c f x s = true ↔ P) :
    (∀ info, poisonAt s x.place 8 = some info → exec (.waitm g a b c f) s = .next (trapped (.waitm g a b c f) 0x14 info s))
      ∧ (poisonAt s x.place 8 = none →
        (P → exec (.waitm g a b c f) s = .next (done (.waitm g a b c f) (does (touchRead [x])) s))
        ∧ (¬P → exec (.waitm g a b c f) s = .next (blockCtx s.cur .waitm s))) := by
  have hissue := issueAlone_waitm (g := g) (a := a) (c := c) (f := f) ha hx hlate hread
  refine ⟨fun info hp => ?poisoned, fun hp => ⟨fun h => ?holds, fun h => ?waits⟩⟩
  case poisoned =>
    rw [hp] at hissue
    rw [exec_issues slotAlone_of_not_hdrT hs, hissue]
    rfl
  case holds =>
    rw [hp] at hissue
    exact exec_completes slotAlone_of_not_hdrT hs (hissue.trans (Chk.bind_of_true (hP.mpr h)))
  case waits =>
    rw [hp] at hissue
    exact exec_blocks slotAlone_of_not_hdrT hs (hissue.trans (Chk.bind_of_false (Bool.eq_false_iff.mpr fun hw => h (hP.mp hw))))

/-- Settles O39: a marker holds what its mask names, SBAR stalls while bulk operations are pending, WAITM reads one word. -/
theorem fencesAndWaits : Obligations.FencesAndWaits := by
  intro g m k a b c
  refine ⟨?fence, ?sbar, ?waitm, ?held, ?retire⟩
  case fence => exact completes_of_issue slotAlone_of_not_hdrT fun s => rfl
  case sbar =>
    refine completesWhen_of_issue slotAlone_of_not_hdrT fun s hb => ?_
    exact if_neg (Bool.eq_false_iff.mp hb)
  case waitm =>
    refine ⟨fun s x hs hx hl hr => ?_, fun s x hs hx hl hr => ?_, fun s x hs hx hl hr => ?_, fun s x hs hx hl hr => ?_, fun s x hs hx hl hr => ?_⟩
    · exact exec_waitm hs hx.1 hx.2 hl hr (waitCond_bits _ _ _)
    · exact exec_waitm hs hx.1 hx.2 hl hr (waitCond_eq _ _ _)
    · exact exec_waitm hs hx.1 hx.2 hl hr (waitCond_ne _ _ _)
    · exact exec_waitm hs hx.1 hx.2 hl hr (waitCond_le _ _ _)
    · exact exec_waitm hs hx.1 hx.2 hl hr (waitCond_lt _ _ _)
  case held =>
    intro s k oc f ps hf hq hoc hb
    have hold := fenceHolds_of_bulkBefore hf hq hoc hb
    exact ⟨inOrderAt_of_fenceHolds hold, storeHeld_of_fenceHolds hold⟩
  case retire => exact fun s x => rfl

end Sys2Proof.Machine
end

section
/-! PROOF. Range operations, handles, and the save area. -/

set_option Elab.async false
namespace Sys2Proof.Machine

/-! ## Range operations (R306) -/

/-- An access that reaches device-physical memory is outside the local window (R65). -/
theorem inWindow_of_access_dp {s : State} {g va n oc pb off : Nat} {lay : Bool} {k : Right} {bad : Option Nat → Bool} {x : Sector}
    (h : access s g [(va, n)] k oc bad = .ok [x]) (hx : x.place = .dp pb lay off) : inWindow va = false := by
  have hx' : xlate s g va n k oc = .ok x := (List.cons.inj (checkSectors_ok h)).1
  rw [Bool.eq_false_iff]
  intro hw
  unfold xlate xlateParts at hx'
  rw [if_pos hw] at hx'
  rcases hp : windowPlace s g va n [(0, n)] k oc with e | p
  · rw [hp] at hx'
    exact nomatch hx'
  · rw [hp] at hx'
    obtain rfl := Except.ok.inj hx'
    obtain rfl : p = .dp pb lay off := hx
    revert hp
    unfold windowPlace
    simp only
    repeat' split
    all_goals exact nofun

section
variable {a b c : BitVec 6} {s : State}

/-- The range part of RINV and RFLUSH, which lies in one entry with the read right. -/
structure RangeOk (a b c : BitVec 6) (s : State) : Prop where
  base : (s.rs a).toNat % 64 = 0
  len : (s.rs b).toNat % 64 = 0
  short : (s.rs b).toNat < 2 ^ 48
  object : (s.rs c).toNat % 8 = 0
  entry : s.rs b = 0 ∨ rangeMiss s s.cur (s.rs a).toNat (s.rs b).toNat (some .r) = []

/-- The device-physical byte a barrier object starts at. -/
def objectOf (l : List Sector) : Option Nat :=
  l.findSome? fun y => match y.place with | .dp pb lay off => some (dpByte pb lay off 0) | _ => none

theorem objectOf_dp {x : Sector} {pb off : Nat} {lay : Bool} (h : x.place = .dp pb lay off) : objectOf [x] = some (dpByte pb lay off 0) := by
  simp [objectOf, h]

/-- The operation a range form queues. -/
def rangeQueued (flush : Bool) (a b : BitVec 6) (f : BitVec 3) (s : State) (obj : Nat) (z : Ctx) : Ctx :=
  { z with
    ranges := z.ranges ++ [{ flush := flush, base := (s.rs a).toNat, len := (s.rs b).toNat, scope := f.toNat, object := obj, seq := z.memSeq }]
    memSeq := z.memSeq + 1 }

/-- With the range's own checks passed, a range form is left with the checks of its object. -/
theorem rangeOp_eq {e : Env} (hg : e.g = s.cur) (flush : Bool) (f : BitVec 3) (h : RangeOk a b c s) :
    rangeOp e flush a b c f s = (do
      let l ← checkSectors (objectSector s s.cur (s.rs c).toNat) (·.tagged s) notHc
      match objectOf l with
      | some obj => commitCtx s.cur (rangeQueued flush a b f s obj)
      | none => nothing) := by
  have hlen : ((s.rs b).toNat % 64 == 0 && decide ((s.rs b).toNat < 2 ^ 48)) = true := by
    rw [h.len, decide_eq_true h.short]
    rfl
  have hmiss : (if s.rs b = 0 then [] else rangeMiss s s.cur (s.rs a).toNat (s.rs b).toNat (some .r)) = [] := by
    by_cases hb : s.rs b = 0
    · rw [if_pos hb]
    · rw [if_neg hb]
      exact h.entry.resolve_left hb
  have hall : misaligned (s.rs a).toNat 64 ++ (if s.rs b = 0 then [] else rangeMiss s s.cur (s.rs a).toNat (s.rs b).toNat (some .r))
      ++ misaligned (s.rs c).toNat 8 ++ objectSector s s.cur (s.rs c).toNat = objectSector s s.cur (s.rs c).toNat := by
    rw [hmiss]
    simp [misaligned, h.base, h.object]
  unfold rangeOp
  rw [hg]
  refine (Chk.bind_of_true hlen).trans ?_
  rw [← hall]
  rfl

theorem rangeOp_queues {e : Env} (hg : e.g = s.cur) (flush : Bool) (f : BitVec 3) (h : RangeOk a b c s) {x : Sector} {pb off : Nat} {lay : Bool}
    (hx : access s s.cur [((s.rs c).toNat, 8)] .a 15 notHc = .ok [x]) (hp : x.place = .dp pb lay off) :
    rangeOp e flush a b c f s = .ok (onCtx s (rangeQueued flush a b f s (dpByte pb lay off 0))) := by
  have hobj : objectSector s s.cur (s.rs c).toNat = xlates s s.cur [((s.rs c).toNat, 8, .a)] 15 :=
    if_neg (Bool.eq_false_iff.mp (inWindow_of_access_dp hx hp))
  rw [rangeOp_eq hg flush f h, hobj]
  refine (Chk.bind_of_ok hx).trans ?_
  rw [objectOf_dp hp]
  rfl

/-- A barrier object in the local window lies in no frame that takes atomics (R66). -/
theorem rangeOp_window {e : Env} (hg : e.g = s.cur) (flush : Bool) (f : BitVec 3) (h : RangeOk a b c s) (hw : inWindow (s.rs c).toNat = true) :
    rangeOp e flush a b c f s = .error (.trap 0x09 (s.rs c)) := by
  have hobj : objectSector s s.cur (s.rs c).toNat =
      [((s.rs c).toNat, .ok { va := (s.rs c).toNat, n := 8, place := .mint s.cur 0, coh := none, demoted := none })] := if_pos hw
  rw [rangeOp_eq hg flush f h, hobj]
  refine Chk.bind_of_error ?_
  rw [← ofNat_toNat_self (s.rs c)]
  simp [checkSectors, lowestFault, Sector.tagged, lowestVa, notHc, Except.toOption]

end

/-- The oldest range operation completes once everything earlier has. -/
theorem rangeEnd_eq (g : Nat) (s : State) : rangeEnd g s = (match (s.ctx g).ranges with
    | [] => s
    | r :: rs => if earlier g allClasses r.seq s then s
      else if s.poison.contains (r.object / 64) then
        consumed g (BitVec.ofNat 64 (r.object / 64 * 64)) (s.modCtx g fun z => { z with ranges := rs })
      else writeBack r.object (leBytes 8 (readDw s.mem r.object + 1).toNat) (s.modCtx g fun z => { z with ranges := rs })) := rfl

/-! ## Handles (R248, R307) -/

theorem issueAlone_resv {g : BitVec 3} {a b c : BitVec 6} {f : BitVec 3} {s : State} (hb : (s.rs b).toNat % 512 = 0)
    (hc : (s.rs c).toNat % 512 = 0) (h0 : s.rs c ≠ 0) (hw : inWindow (s.rs b).toNat = false)
    (hm : rangeMiss s s.cur (s.rs b).toNat (s.rs c).toNat none = []) :
    issueAlone (.resv g a b c f) s = .ok (onCtx s fun z => { z with
      handles := tset z.handles a.toNat { base := (s.rs b).toNat, len := (s.rs c).toNat, prio := f.toNat } }) := by
  have hbase : ((s.rs b).toNat % 512 == 0) = true := by simp [hb]
  have hlen : ((s.rs c).toNat % 512 == 0 && s.rs c != 0) = true := by
    rw [hc, bne_iff_ne.mpr h0]
    rfl
  have hwin : (!inWindow (s.rs b).toNat) = true := by simp [hw]
  refine (Chk.bind_of_true hbase).trans ((Chk.bind_of_true hlen).trans ((Chk.bind_of_true hwin).trans ?_))
  show (match lowestFault (rangeMiss s s.cur (s.rs b).toNat (s.rs c).toNat none) with | some (cause, info) => _ | none => _) = _
  rw [hm]
  rfl

/-! ## The save area (R353, R433 to R437) -/

theorem allChk_ok {α : Type} {f : α → Chk Unit} {l : List α} (h : ∀ x ∈ l, f x = .ok ()) : allChk f l = .ok () := by
  induction l with
  | nil => rfl
  | cons x l ih =>
    rw [allChk, h x (by simp)]
    exact ih fun y hy => h y (by simp [hy])

/-- What SAVEC and LOADC ask before they reach their area, and the accesses and engines they come after. -/
structure AreaReady (r : BitVec 6) (m : BitVec 7) (s : State) : Prop where
  handler : (s.ctx s.cur).hm = true
  base : (if r = 0 then (s.ctx s.cur).savebase else s.rs r).toNat % 4096 = 0
  engines : enginesDone s s.cur m = .ok ()
  accesses : accessesDone s s.cur = .ok ()

section
variable {g : BitVec 3} {e : BitVec 1} {m : BitVec 7} {r : BitVec 6} {s : State} {l : List (Nat × List Sector)} (h : AreaReady r m s)
  (ho : storeInOrder s s.cur (l.flatMap (·.2)) = .ok ())
include h ho

theorem issueAlone_savec (hl : areaAccess s s.cur (if r = 0 then (s.ctx s.cur).savebase else s.rs r).toNat ((List.range 7).filter fun k =>
      m.getLsbD k && (partBytes s s.cur k (s.ctx s.cur).trappc false).isSome) .w = .ok l) :
    issueAlone (.savec e g m r) s = .ok (does fun u =>
      (l.map fun p => (p.2, (partBytes s s.cur p.1 (s.ctx s.cur).trappc false).getD [])).foldl (fun u p => writeSectors p.1 p.2 u) u) :=
  (Chk.bind_of_true h.handler).trans ((Chk.bind_of_ok (aligned_ok h.base)).trans ((Chk.bind_of_ok hl).trans
    ((Chk.bind_of_ok h.accesses).trans ((Chk.bind_of_ok ho).trans (Chk.bind_of_ok h.engines)))))

theorem issueAlone_loadc (hl : areaAccess s s.cur (if r = 0 then (s.ctx s.cur).savebase else s.rs r).toNat ((List.range 7).filter fun k =>
      m.getLsbD k && (k != 6 || (s.unitOwned s.cur).isSome)) .r = .ok l) (hp : poisonOf s (l.flatMap (·.2)) = none)
    (hc : ∀ p ∈ l, partCheck s s.cur p.1 (readSectors s p.2) = .ok ()) :
    issueAlone (.loadc e g m r) s = .ok (does fun u =>
      (l.map fun p => (p.1, readSectors s p.2)).foldl (fun u p => applyPart s.cur p.1 p.2 u) (touchRead (l.flatMap (·.2)) u)) := by
  have hparts : allChk (fun p : Nat × List Byte => partCheck s s.cur p.1 p.2) (l.map fun p => (p.1, readSectors s p.2)) = .ok () := by
    refine allChk_ok fun x hx => ?_
    obtain ⟨p, hp, rfl⟩ := List.mem_map.mp hx
    exact hc p hp
  refine (Chk.bind_of_true h.handler).trans ((Chk.bind_of_ok (aligned_ok h.base)).trans ((Chk.bind_of_ok hl).trans ?_))
  show (match poisonOf s (l.flatMap (·.2)) with | some info => _ | none => _) = _
  rw [hp]
  exact (Chk.bind_of_ok hparts).trans ((Chk.bind_of_ok h.accesses).trans ((Chk.bind_of_ok ho).trans (Chk.bind_of_ok h.engines)))

end

/-- Settles O40: each form by its checks in their order. -/
theorem rangesHandlesAndSaveAreas : Obligations.RangesHandlesAndSaveAreas := by
  refine ⟨?ranges, ?area⟩
  case ranges =>
    intro g a b c f range op
    refine ⟨fun s x obj hs hr => ?rinv, fun s x obj hs hr => ?rflush, fun i hi => ?window, ?resv, ?rrel, ?rrelAll, fun s x => ?complete⟩
    case rinv =>
      obtain ⟨ha, hb, hb', hc, hm, hx, pb, lay, off, hp, rfl⟩ := hr
      exact exec_completes slotAlone_of_not_hdrT hs (rangeOp_queues rfl false f ⟨ha, hb, hb', hc, hm⟩ hx hp)
    case rflush =>
      obtain ⟨ha, hb, hb', hc, hm, hx, pb, lay, off, hp, rfl⟩ := hr
      exact exec_completes slotAlone_of_not_hdrT hs (rangeOp_queues rfl true f ⟨ha, hb, hb', hc, hm⟩ hx hp)
    case window =>
      simp only [List.mem_cons, List.not_mem_nil, or_false] at hi
      rcases hi with rfl | rfl
      · exact trapsWhen_of_issue slotAlone_of_not_hdrT fun s ⟨ha, hb, hb', hc, hm, hw⟩ => rangeOp_window rfl false f ⟨ha, hb, hb', hc, hm⟩ hw
      · exact trapsWhen_of_issue slotAlone_of_not_hdrT fun s ⟨ha, hb, hb', hc, hm, hw⟩ => rangeOp_window rfl true f ⟨ha, hb, hb', hc, hm⟩ hw
    case resv => exact completesWhen_of_issue slotAlone_of_not_hdrT fun s ⟨hb, hc, h0, hw, hm⟩ => issueAlone_resv hb hc h0 hw hm
    case rrel => exact completes_of_issue slotAlone_of_not_hdrT fun s => rfl
    case rrelAll => exact completes_of_issue slotAlone_of_not_hdrT fun s => rfl
    case complete => exact congrArg Host.Outcome.next (rangeEnd_eq x.val s)
  case area =>
    intro g e m r base ready
    have areaReady {s : State} (h : ready s) : AreaReady r m s := ⟨h.1, h.2.1, h.2.2.1, h.2.2.2⟩
    refine ⟨fun s l hs h hl ho => ?savec, fun s l hs h hl hp hc ho => ?loadc⟩
    case savec => exact exec_completes slotAlone_of_not_hdrT hs (issueAlone_savec (areaReady h) ho hl)
    case loadc => exact exec_completes slotAlone_of_not_hdrT hs (issueAlone_loadc (areaReady h) ho hl hp hc)

end Sys2Proof.Machine
end

section
/-! PROOF. Accumulator operations, the microprogram store and MCALL: the checks of R195, and what each queues. -/

set_option Elab.async false
namespace Sys2Proof.Machine

/-! ## Accumulators (R178, R180, R196) -/

section
variable {s : State} {k : Nat}

theorem accAvail_ok (h : AccFor s k) : accAvail (s.array (pairOf s.cur)) s.cur k = .ok () := by
  obtain ⟨hmode, -, -⟩ := h
  unfold accAvail
  rw [Chk.need_ok]
  generalize (s.array (pairOf s.cur)).mode.toNat = m at hmode ⊢
  rcases m with _ | _ | m
  · change ((k / 2 == 1) == isB s.cur) = true
    rw [beq_iff_eq, Bool.eq_iff_iff, isB, beq_iff_eq, beq_iff_eq]
    exact hmode
  · simpa [isB] using hmode
  · simpa [isB] using hmode

theorem bankFree_ok (h : AccFor s k) : bankFree (s.array (pairOf s.cur)) s.cur k = .ok () := by
  obtain ⟨-, hown, -⟩ := h
  unfold bankFree
  rw [Chk.need_ok, Option.all_eq_true]
  exact fun o ho => beq_iff_eq.mpr (hown o ho)

theorem arrayRoom_ok (h : (s.array (pairOf s.cur)).count (isB s.cur) < 8) : arrayRoom (s.array (pairOf s.cur)) s.cur = .ok () :=
  if_pos (decide_eq_true h)

theorem AccFor.room (h : AccFor s k) : arrayRoom (s.array (pairOf s.cur)) s.cur = .ok () := by
  obtain ⟨-, -, hroom⟩ := h
  exact arrayRoom_ok hroom

theorem coreAvail_ok (h : MayRunMatrix s) : coreAvail (s.array (pairOf s.cur)) s.cur = .ok () := by
  unfold coreAvail
  rw [Chk.need_ok]
  unfold MayRunMatrix at h
  by_cases h1 : (s.array (pairOf s.cur)).mode = 1
  · simp only [h1, isB] at h ⊢
    simp_all
  · by_cases h2 : (s.array (pairOf s.cur)).mode = 2
    · simp only [h2, isB] at h ⊢
      simp_all
    · rw [beq_eq_false_iff_ne.mpr h1, beq_eq_false_iff_ne.mpr h2]
      rfl

end

@[simp] theorem MArray.push_accState (a : MArray) (g : Nat) (o : ArrOp) : (a.push g o).accState = a.accState := by
  unfold MArray.push
  split <;> rfl

@[simp] theorem MArray.push_state (a : MArray) (g : Nat) (o : ArrOp) (k : Nat) : (a.push g o).state k = a.state k := by
  simp [MArray.state]

theorem MArray.move_accState (z : MArray) (c j x : Nat) : (z.move c j x).accState = tset z.accState j x := by
  unfold MArray.move
  dsimp only
  split <;> rfl

/-- An accumulator moves by itself, and its bank is owned exactly while one of its two is not IDLE. -/
theorem MArray.move_owner {z : MArray} (hz : (z.owners.map (·.1)).Nodup) (c j x : Nat) :
    tfind (z.move c j x).owners (j / 2) =
      if tget 0 (z.move c j x).accState (2 * (j / 2)) = 0 ∧ tget 0 (z.move c j x).accState (2 * (j / 2) + 1) = 0 then none else some c := by
  rw [MArray.move_accState]
  unfold MArray.move MArray.state
  dsimp only
  by_cases h : tget 0 (tset z.accState j x) (2 * (j / 2)) = 0 ∧ tget 0 (tset z.accState j x) (2 * (j / 2) + 1) = 0
  · rw [if_pos h, if_pos h]
    exact tfind_tdel_same hz
  · rw [if_neg h, if_neg h]
    exact tfind_tset_same _ _ _

theorem State.modArray_congr {s : State} {p : Nat} {f f' : MArray → MArray} (h : f (s.array p) = f' (s.array p)) : s.modArray p f = s.modArray p f' := by
  simp only [State.modArray, h]

section
variable {g a : BitVec 3} {t n m : BitVec 5} {hi : BitVec 1} {s : State} {slot : Nat} {h : Hdr} {d : TileBits}

theorem issueAlone_bch (hk : AccFor s a.toNat) (hst : (s.array (pairOf s.cur)).state a.toNat ≠ 1) :
    issueAlone (.bch g a) s = .ok (does fun u => u.modArray (pairOf s.cur) fun z =>
      (z.push s.cur (if z.state a.toNat = 0 then .clear s.cur a.toNat else .mark s.cur)).move s.cur a.toNat 1) :=
  (Chk.bind_of_ok (accAvail_ok hk)).trans ((Chk.bind_of_ok (bankFree_ok hk)).trans
    ((Chk.bind_of_true (bne_iff_ne.mpr hst)).trans (Chk.bind_of_ok hk.room)))

theorem issueAlone_ech (hk : AccFor s a.toNat) (hst : (s.array (pairOf s.cur)).state a.toNat = 1) :
    issueAlone (.ech g a) s = .ok (does fun u => u.modArray (pairOf s.cur) fun z =>
      (z.push s.cur (.mark s.cur)).move s.cur a.toNat 2) :=
  (Chk.bind_of_ok (accAvail_ok hk)).trans ((Chk.bind_of_ok (bankFree_ok hk)).trans
    ((Chk.bind_of_true (beq_iff_eq.mpr hst)).trans (Chk.bind_of_ok hk.room)))

theorem issueAlone_mzero (hk : AccFor s a.toNat) :
    issueAlone (.mzero g a) s = .ok (does fun u => u.modArray (pairOf s.cur) fun z =>
      (z.push s.cur (.clear s.cur a.toNat)).move s.cur a.toNat (afterFill (z.state a.toNat))) :=
  (Chk.bind_of_ok (accAvail_ok hk)).trans ((Chk.bind_of_ok (bankFree_ok hk)).trans (Chk.bind_of_ok hk.room))

theorem issueAlone_mdrain (hk : AccFor s a.toNat) (ht : TileIs s t slot h) (hu : unitSlot s s.cur slot = .ok ()) (hf : h.fmt ≤ 5 ∨ h.fmt = 8)
    (hfit : m.toNat + h.rows ≤ 32 ∧ n.toNat + h.cols ≤ 32) :
    issueAlone (.mdrain g a t n m) s = .ok (does (arrayEmit s.cur slot h.sectors
      (.drain s.cur a.toNat slot ((s.ctx s.cur).tc t.toNat) m.toNat n.toNat) fun z => z.move s.cur a.toNat (afterDrain (z.state a.toNat)))) := by
  have hfmt : drainFmt h.fmt = true := by simpa [drainFmt] using hf
  exact (Chk.bind_of_ok (accAvail_ok hk)).trans ((Chk.bind_of_ok (tileOperand_ok ht)).trans ((Chk.bind_of_true hfmt).trans
    ((Chk.bind_of_true (decide_eq_true hfit)).trans ((Chk.bind_of_ok (bankFree_ok hk)).trans ((Chk.bind_of_ok hk.room).trans (Chk.bind_of_ok hu))))))

/-- The shape of a tile that holds half an accumulator. -/
structure HalfAcc (h : Hdr) : Prop where
  fmt : h.fmt = 8
  rows : h.rows = 16
  cols : h.cols = 32
  z : h.z = false
  t : h.t = false

theorem spillTile_ok (ht : TileIs s t slot h) (hh : HalfAcc h) : spillTile s s.cur t = .ok (slot, h) := by
  have hshape : (h.rows == 16 && h.cols == 32 && !h.z && !h.t) = true := by simp [hh.rows, hh.cols, hh.z, hh.t]
  exact (Chk.bind_of_ok (tileOperand_ok ht)).trans ((Chk.bind_of_true (beq_iff_eq.mpr hh.fmt)).trans (Chk.bind_of_true hshape))

theorem issueAlone_mspill (hk : AccFor s a.toNat) (ht : TileIs s t slot h) (hu : unitSlot s s.cur slot = .ok ()) (hh : HalfAcc h) :
    issueAlone (.mspill g a t hi) s = .ok (does (arrayEmit s.cur slot h.sectors
      (.spill s.cur a.toNat slot ((s.ctx s.cur).tc t.toNat) (hi == 1)) fun z => z.move s.cur a.toNat (afterDrain (z.state a.toNat)))) :=
  (Chk.bind_of_ok (accAvail_ok hk)).trans ((Chk.bind_of_ok (spillTile_ok ht hh)).trans ((Chk.bind_of_ok (bankFree_ok hk)).trans
    ((Chk.bind_of_ok hk.room).trans (Chk.bind_of_ok hu))))

theorem cleanTile_ok {k : Nat} (hd : TileHolds s slot d) (hc : ∀ x < (k + 63) / 64, x ∉ (s.tile (coreOf s.cur) slot).poison) :
    cleanTile s s.cur slot k = .ok d := cleanSectors_ok hd fun x hx => hc x (List.mem_range.mp hx)

theorem issueAlone_mfill (hk : AccFor s a.toNat) (ht : TileIs s t slot h) (hh : HalfAcc h) (hd : cleanTile s s.cur slot 4096 = .ok d) :
    issueAlone (.mfill g a t hi) s = .ok (does fun u => u.modArray (pairOf s.cur) fun z =>
      (z.push s.cur (.fill s.cur a.toNat ((s.ctx s.cur).tc t.toNat) d (hi == 1))).move s.cur a.toNat (afterFill (z.state a.toNat))) :=
  (Chk.bind_of_ok (accAvail_ok hk)).trans ((Chk.bind_of_ok (spillTile_ok ht hh)).trans ((Chk.bind_of_ok (bankFree_ok hk)).trans
    ((Chk.bind_of_ok hd).trans (Chk.bind_of_ok hk.room))))

/-! ## The microprogram store (R189, R193) -/

/-- What the four store forms ask. -/
structure StoreForm (t : BitVec 5) (s : State) (slot : Nat) (h : Hdr) : Prop where
  tile : TileIs s t slot h
  size : h.count * fmtBits h.fmt = 32768
  runs : MayRunMatrix s
  image : ownsImage s s.cur = true
  room : (s.array (pairOf s.cur)).count (isB s.cur) < 8

theorem storeChecks_ok {ok : Bool} (hs : StoreForm t s slot h) (hok : ok = true) : storeChecks s s.cur t ok = .ok (slot, h) := by
  have hown : (ownsImage s s.cur && ok) = true := by rw [hs.image, hok]; rfl
  exact (Chk.bind_of_ok (coreAvail_ok hs.runs)).trans ((Chk.bind_of_true hown).trans ((Chk.bind_of_ok (tileOperand_ok hs.tile)).trans
    (Chk.bind_of_true (beq_iff_eq.mpr hs.size))))

theorem issueAlone_mpwr (hs : StoreForm t s slot h) (hw : maddrOk ((s.ctx s.cur).mp 7) = true) (hd : cleanTile s s.cur slot 4096 = .ok d) :
    issueAlone (.mpwr g t) s = .ok (does fun u => u.modArray (pairOf s.cur) fun z =>
      z.push s.cur (.storeWrite s.cur (mAddr ((s.ctx s.cur).mp 7)) d)) :=
  (Chk.bind_of_ok (storeChecks_ok hs hw)).trans ((Chk.bind_of_ok hd).trans (Chk.bind_of_ok (arrayRoom_ok hs.room)))

theorem issueAlone_mpwrTab (hs : StoreForm t s slot h) (hw : tabOk ((s.ctx s.cur).mp 7) 32 = true) (hholds : TileHolds s slot d)
    (htab : tabData d (tCnt ((s.ctx s.cur).mp 7)) = true) (hd : cleanTile s s.cur slot (8 * tCnt ((s.ctx s.cur).mp 7)) = .ok d) :
    issueAlone (.mpwrTab g t) s = .ok (does fun u => u.modArray (pairOf s.cur) fun z =>
      z.push s.cur (.tabWrite s.cur (tEnt ((s.ctx s.cur).mp 7)) (tCnt ((s.ctx s.cur).mp 7)) d)) := by
  have hslot : (s.tile (coreOf s.cur) ((s.ctx s.cur).tileBase + t.toNat)).data = d := by
    obtain ⟨-, -, rfl, -⟩ := hs.tile
    exact hholds.2
  have hok : (tabOk ((s.ctx s.cur).mp 7) 32 && !(decide (t.toNat < (s.ctx s.cur).tileCount)
      && (s.tile (coreOf s.cur) ((s.ctx s.cur).tileBase + t.toNat)).full
      && !tabData (s.tile (coreOf s.cur) ((s.ctx s.cur).tileBase + t.toNat)).data (tCnt ((s.ctx s.cur).mp 7)))) = true := by
    simp [hw, hslot, htab]
  exact (Chk.bind_of_ok (storeChecks_ok hs hok)).trans ((Chk.bind_of_ok hd).trans (Chk.bind_of_ok (arrayRoom_ok hs.room)))

theorem issueAlone_mprd (hs : StoreForm t s slot h) (hw : maddrOk ((s.ctx s.cur).mp 7) = true) (hu : unitSlot s s.cur slot = .ok ()) :
    issueAlone (.mprd g t) s = .ok (does (arrayEmit s.cur slot (List.range 64)
      (.storeRead s.cur (mAddr ((s.ctx s.cur).mp 7)) slot ((s.ctx s.cur).tc t.toNat)) id)) :=
  (Chk.bind_of_ok (storeChecks_ok hs hw)).trans ((Chk.bind_of_ok (arrayRoom_ok hs.room)).trans (Chk.bind_of_ok hu))

theorem issueAlone_mprdTab (hs : StoreForm t s slot h) (hw : tabOk ((s.ctx s.cur).mp 7) 0 = true) (hu : unitSlot s s.cur slot = .ok ()) :
    issueAlone (.mprdTab g t) s = .ok (does (arrayEmit s.cur slot (List.range (tCnt ((s.ctx s.cur).mp 7) / 8))
      (.tabRead s.cur (tEnt ((s.ctx s.cur).mp 7)) (tCnt ((s.ctx s.cur).mp 7)) slot ((s.ctx s.cur).tc t.toNat)) id)) :=
  (Chk.bind_of_ok (storeChecks_ok hs hw)).trans ((Chk.bind_of_ok (arrayRoom_ok hs.room)).trans (Chk.bind_of_ok hu))

end

/-! ## MCALL (R184, R185) -/

theorem forM_ok {α : Type} {f : α → Chk Unit} {l : List α} (h : ∀ x ∈ l, f x = .ok ()) : l.forM f = .ok () := by
  induction l with
  | nil => rfl
  | cons x l ih => exact (Chk.bind_of_ok (h x (by simp))).trans (ih fun y hy => h y (by simp [hy]))

section
variable {s : State} {ent : W64} {ts : List (Nat × Nat × W64 × TileBits)}

/-- The tiles a call reads, without a poisoned sector in their images. -/
theorem callPoison_none (h : ∀ x ∈ ts, entRd ent x.1 = true → ∀ y < ((Hdr.of x.2.2.1).image + 63) / 64, y ∉ (s.tile (coreOf s.cur) x.2.1).poison) :
    (ts.findSome? fun t => if entRd ent t.1 then tilePoison s (coreOf s.cur) t.2.1 (firstSectors (Hdr.of t.2.2.1).image) else none) = none := by
  refine List.findSome?_eq_none_iff.mpr fun x hx => ?_
  by_cases hr : entRd ent x.1 = true
  · rw [if_pos hr]
    exact tilePoison_eq_none fun y hy => h x hx hr y (List.mem_range.mp hy)
  · exact if_neg hr

/-- What a call needs beside its accumulator, in the order of R184 and R185. -/
structure CallFits (s : State) (n : Nat) (ts : List (Nat × Nat × W64 × TileBits)) (mps : List W64) (ent : W64) : Prop where
  valid : entValid ent = true
  params : ∀ i < 8, (s.ctx s.cur).pending (.mp i) = false
  scales : entSc ent = true → (s.ctx s.cur).pending (.v (bits (mps.getD 4 0) 0 5).toNat) = false
    ∧ (mpV2 mps = true → (s.ctx s.cur).pending (.v (bits (mps.getD 4 0) 16 5).toNat) = false)
  tiles : callTiles s s.cur mps ent = .ok ts
  formats : callFormats n ent ts = true
  shape : callShape n mps ts = true
  reserved : mpReserved mps = false
  supplied : callScales n mps ts = true
  full : ∀ x ∈ ts, entRd ent x.1 = true → (s.tile (coreOf s.cur) x.2.1).full = true
  clean : ∀ x ∈ ts, entRd ent x.1 = true → ∀ y < ((Hdr.of x.2.2.1).image + 63) / 64, y ∉ (s.tile (coreOf s.cur) x.2.1).poison
  free : ∀ slot ∈ ((ts.filter fun x => entWr ent x.1).map (·.2.1)).dedup, unitSlot s s.cur slot = .ok ()

theorem issueAlone_mcall {g : BitVec 3} {r : BitVec 7} {b : BitVec 2} (hk : AccFor s b.toNat) (hst : (s.array (pairOf s.cur)).state b.toNat = 1)
    (hc : CallFits s r.toNat ts ((List.range 8).map (s.ctx s.cur).mp) (entrySeen s s.cur r.toNat)) :
    issueAlone (.mcall g r b) s = .ok (does fun u =>
      (u.each ((ts.filter fun x => entWr (entrySeen s s.cur r.toNat) x.1).map (·.2.1)).dedup fun slot u =>
        u.modTile (coreOf s.cur) slot (Tile.issueWrite [])).modArray (pairOf s.cur) fun z =>
          z.push s.cur (.call s.cur b.toNat r.toNat ((List.range 8).map (s.ctx s.cur).mp) ts
            (if entSc (entrySeen s s.cur r.toNat) then some ((s.ctx s.cur).v (((s.ctx s.cur).mp 4).extractLsb' 0 5)) else none)
            (if entSc (entrySeen s s.cur r.toNat) && mpV2 ((List.range 8).map (s.ctx s.cur).mp)
              then some ((s.ctx s.cur).v (((s.ctx s.cur).mp 4).extractLsb' 16 5)) else none) (entrySeen s s.cur r.toNat))) := by
  have hparams : ((List.range 8).all fun i => !(s.ctx s.cur).pending (.mp i)) = true :=
    List.all_eq_true.mpr fun i hi => by simp [hc.params i (List.mem_range.mp hi)]
  have hscales : (!(entSc (entrySeen s s.cur r.toNat) && ((s.ctx s.cur).pending (.v (bits (((List.range 8).map (s.ctx s.cur).mp).getD 4 0) 0 5).toNat)
      || (mpV2 ((List.range 8).map (s.ctx s.cur).mp)
        && (s.ctx s.cur).pending (.v (bits (((List.range 8).map (s.ctx s.cur).mp).getD 4 0) 16 5).toNat))))) = true := by
    have h := hc.scales
    revert h
    generalize entSc _ = sc
    generalize mpV2 _ = v2
    cases sc
    · simp
    · intro h
      obtain ⟨ha, hb⟩ := h rfl
      cases v2
      · simpa using ha
      · simpa using ⟨ha, hb rfl⟩
  have hreserved : (!mpReserved ((List.range 8).map (s.ctx s.cur).mp)) = true := by simp [hc.reserved]
  have hfull : (ts.all fun t => !entRd (entrySeen s s.cur r.toNat) t.1 || (s.tile (coreOf s.cur) t.2.1).full) = true := by
    refine List.all_eq_true.mpr fun x hx => ?_
    cases hr : entRd (entrySeen s s.cur r.toNat) x.1
    · rfl
    · exact hc.full x hx hr
  refine (Chk.bind_of_true hparams).trans ((Chk.bind_of_ok (accAvail_ok hk)).trans ((Chk.bind_of_ok (bankFree_ok hk)).trans
    ((Chk.bind_of_true (beq_iff_eq.mpr hst)).trans ((Chk.bind_of_true hc.valid).trans ((Chk.bind_of_true hscales).trans
    ((Chk.bind_of_ok hc.tiles).trans ((Chk.bind_of_true hc.formats).trans ((Chk.bind_of_true hc.shape).trans ((Chk.bind_of_true hreserved).trans
    ((Chk.bind_of_true hc.supplied).trans ((Chk.bind_of_true hfull).trans ((Chk.bind_of_ok hk.room).trans ?_))))))))))))
  show (match ts.findSome? fun t => if entRd (entrySeen s s.cur r.toNat) t.1 then
      tilePoison s (coreOf s.cur) t.2.1 (firstSectors (Hdr.of t.2.2.1).image) else none with | some info => _ | none => _) = _
  rw [callPoison_none hc.clean]
  exact Chk.bind_of_ok (forM_ok hc.free)

end

/-- Settles O41: each form by its checks; what it queues reads the array as the issue saw it. -/
theorem matrixForms : Obligations.MatrixForms := by
  intro g a t n m hi k A push emit clean st drained filled write half w store
  have halfAcc {h : Hdr} (hh : half h) : HalfAcc h := by
    obtain ⟨h1, h2, h3, h4, h5⟩ := hh
    exact ⟨h1, h2, h3, h4, h5⟩
  have storeForm {s : State} {slot : Nat} {h : Hdr} (hs : store s slot h) : StoreForm t s slot h := by
    obtain ⟨h1, h2, h3, h4, h5⟩ := hs
    exact ⟨h1, h2, h3, h4, h5⟩
  refine ⟨fun s hs hp => ?bch, ?ech, fun s hs hk => ?mzero, fun s slot h hs hk hw hf hm hn => ?mdrain, fun s slot h hs hk hw hh => ?mspill,
    fun s slot h d hs hk ht hh hd hc => ?mfill, fun s slot h d hs hst hok hd hc => ?mpwr, fun s slot h d hs hst hok hd hc htab => ?mpwrTab,
    fun s slot h hs hst hok hu => ?mprd, fun s slot h hs hst hok hu => ?mprdTab, fun z c j x hz => ?move, fun s r b ts hs => ?mcall⟩
  case bch =>
    rw [exec_completes slotAlone_of_not_hdrT hs (issueAlone_bch hp.1 hp.2)]
    rfl
  case ech => exact completesWhen_of_issue slotAlone_of_not_hdrT fun s hp => issueAlone_ech hp.1 hp.2
  case mzero =>
    rw [exec_completes slotAlone_of_not_hdrT hs (issueAlone_mzero hk)]
    rfl
  case mdrain =>
    rw [exec_completes slotAlone_of_not_hdrT hs (issueAlone_mdrain hk hw.1 hw.2 hf ⟨hm, hn⟩)]
    exact congrArg Host.Outcome.next (done_congr _ none (State.modArray_congr (by simp only [MArray.push_state]; rfl)))
  case mspill =>
    rw [exec_completes slotAlone_of_not_hdrT hs (issueAlone_mspill hk hw.1 hw.2 (halfAcc hh))]
    exact congrArg Host.Outcome.next (done_congr _ none (State.modArray_congr (by simp only [MArray.push_state]; rfl)))
  case mfill =>
    rw [exec_completes slotAlone_of_not_hdrT hs (issueAlone_mfill hk ht (halfAcc hh) (cleanTile_ok hd hc))]
    rfl
  case mpwr => exact exec_completes slotAlone_of_not_hdrT hs (issueAlone_mpwr (storeForm hst) hok (cleanTile_ok hd hc))
  case mpwrTab => exact exec_completes slotAlone_of_not_hdrT hs (issueAlone_mpwrTab (storeForm hst) hok hd htab (cleanTile_ok hd hc))
  case mprd => exact exec_completes slotAlone_of_not_hdrT hs (issueAlone_mprd (storeForm hst) hok hu)
  case mprdTab => exact exec_completes slotAlone_of_not_hdrT hs (issueAlone_mprdTab (storeForm hst) hok hu)
  case move =>
    refine ⟨?_, fun i hi => ?_, MArray.move_owner hz c j x⟩
    · rw [MArray.move_accState]
      exact tget_tset_same 0 _ _ _
    · rw [MArray.move_accState]
      exact tget_tset_other 0 _ _ hi
  case mcall =>
    intro c mps ent va vb wr hk hopen hv hpar hsc htiles hfmt hshape hres hsup hfull hclean hfree
    exact exec_completes slotAlone_of_not_hdrT hs
      (issueAlone_mcall hk hopen ⟨hv, hpar, hsc, htiles, hfmt, hshape, hres, hsup, hfull, hclean, hfree⟩)

end Sys2Proof.Machine
end

section
/-! PROOF. The tile unit's instructions (R172 to R176). -/

set_option Elab.async false
namespace Sys2Proof.Machine

/-- The contexts of the core, but the one that issues, that wait on an empty tile and so hold a queue entry (R172). -/
def tileWaiters (s : State) : List Nat := (passOrder s.cur).filter fun k => k != s.cur && (s.ctx k).run == .blocked .tileRead

section
variable {s : State}

theorem tileRoom_ok (h : (s.core (coreOf s.cur)).tileQ.length + (tileWaiters s).length < 8) : tileRoom s s.cur = .ok () :=
  if_pos (decide_eq_true h)

/-- What the forms that write a tile ask. -/
structure TileOut (d : BitVec 5) (s : State) (slot : Nat) (h : Hdr) : Prop where
  tile : TileIs s d slot h
  room : (s.core (coreOf s.cur)).tileQ.length + (tileWaiters s).length < 8
  own : ownSlot s s.cur slot = .ok ()

variable {g : BitVec 3} {d a i : BitVec 5} {m : BitVec 6} {slot : Nat} {h : Hdr}

theorem issueAlone_tzero (ho : TileOut d s slot h) :
    issueAlone (.tzero g d m) s = .ok (does (tileJob s.env slot (if m = 0 then h.sectors else List.range 64)
      (if m = 0 then h.fill 0 fun _ _ => fmtZero h.fmt else 0) 0)) :=
  (Chk.bind_of_ok (tileOperand_ok ho.tile)).trans ((Chk.bind_of_ok (tileRoom_ok ho.room)).trans (Chk.bind_of_ok ho.own))

theorem issueAlone_tv2t (ho : TileOut d s slot h) :
    issueAlone (.tv2t g d a i) s = .ok (does (tileJob s.env slot ((List.range 4).map (4 * i.toNat + ·))
      (setBits (s.tile (coreOf s.cur) slot).data (2048 * i.toNat) (s.rv a))
      (statusOf h.fmt (setBits (s.tile (coreOf s.cur) slot).data (2048 * i.toNat) (s.rv a)) (h.indices.filter fun k =>
        decide (2048 * i.toNat ≤ fmtBits h.fmt * k ∧ fmtBits h.fmt * k < 2048 * (i.toNat + 1))) false))) :=
  (Chk.bind_of_ok (tileOperand_ok ho.tile)).trans ((Chk.bind_of_ok (tileRoom_ok ho.room)).trans (Chk.bind_of_ok ho.own))

/-! ## TT2V (R176) -/

/-- The first sector of a piece that is poisoned. -/
def piecePoison (t : Tile) (i : BitVec 5) : Option Nat := (List.range 4).find? fun k => t.poison.contains (4 * i.toNat + k)

/-- TT2V once it has its queue entry, which it holds while it waits. -/
theorem issueAlone_tt2v (ht : TileIs s a slot h)
    (hr : (s.core (coreOf s.cur)).tileQ.length + (tileWaiters s).length < 8 ∨ (s.ctx s.cur).run = .blocked .tileRead) :
    issueAlone (.tt2v g d a i) s = (do
      Chk.need (s.tile (coreOf s.cur) slot).full (.block .tileRead)
      commitCtx s.cur fun c => c.land (.v d.toNat) ((s.tile (coreOf s.cur) slot).data.extractLsb' (2048 * i.toNat) 2048) (BitVec.allOnes 64) 4 false
        ((piecePoison (s.tile (coreOf s.cur) slot) i).map fun k => tileInfo slot (4 * i.toNat + k))) := by
  have hroom : (if (s.ctx s.cur).run == .blocked .tileRead then Except.ok () else tileRoom s s.cur) = .ok () := by
    by_cases hb : (s.ctx s.cur).run = .blocked .tileRead
    · rw [if_pos (beq_iff_eq.mpr hb)]
    · rw [if_neg (mt beq_iff_eq.mp hb)]
      exact tileRoom_ok (hr.resolve_right hb)
  refine (Chk.bind_of_ok (tileOperand_ok ht)).trans ?_
  by_cases hb : ((s.ctx s.cur).run == .blocked .tileRead) = true
  · exact (if_pos hb).trans rfl
  · exact (if_neg hb).trans (Chk.bind_of_ok ((if_neg hb).symm.trans hroom))

end

/-! ## TCOPY (R174) -/

section
variable {ha hd : Hdr} {x : TileBits}

/-- The next element of a tile copied, unless one before it left the range. -/
def tcopyElem (ha hd : Hdr) (x : TileBits) (acc : Except (Nat × Bool) (List (Nat × Bool))) (k : Nat) : Except (Nat × Bool) (List (Nat × Bool)) :=
  match acc with
  | .error e => .error e
  | .ok l => match convElem ha.fmt hd.fmt (ha.getRow x k) with
    | .ok r => .ok (l ++ [r])
    | .error hi => .error (k, hi)

theorem tcopyElems_eq : tcopyElems ha hd x = (List.range ha.count).foldl (tcopyElem ha hd x) (.ok []) := rfl

theorem tcopyElem_ok {l : List (Nat × Bool)} {k : Nat} {r : Nat × Bool} (h : convElem ha.fmt hd.fmt (ha.getRow x k) = .ok r) :
    tcopyElem ha hd x (.ok l) k = .ok (l ++ [r]) := by
  simp only [tcopyElem, h]

/-- The elements below `n` that convert are converted in order. -/
theorem tcopyPrefix_ok {l : List (Nat × Bool)} {n : Nat} (hn : n ≤ l.length)
    (h : ∀ k (hk : k < n), convElem ha.fmt hd.fmt (ha.getRow x k) = .ok l[k]) :
    (List.range n).foldl (tcopyElem ha hd x) (.ok []) = .ok (l.take n) := by
  induction n with
  | zero => rfl
  | succ n ih =>
    rw [List.range_succ, List.foldl_append, ih (by omega) fun k hk => h k (by omega)]
    have hstep := tcopyElem_ok (l := l.take n) (h n (by omega))
    rw [List.take_append_getElem] at hstep
    exact hstep

theorem tcopyElems_ok {l : List (Nat × Bool)} (hl : l.length = ha.count)
    (h : ∀ k (hk : k < l.length), convElem ha.fmt hd.fmt (ha.getRow x k) = .ok l[k]) : tcopyElems ha hd x = .ok l := by
  rw [tcopyElems_eq, ← hl, tcopyPrefix_ok le_rfl h, List.take_length]

theorem foldl_tcopyElem_error (e : Nat × Bool) (ks : List Nat) : ks.foldl (tcopyElem ha hd x) (.error e) = .error e := by
  induction ks with
  | nil => rfl
  | cons k ks ih => exact ih

/-- The lowest element that leaves the range is the one named. -/
theorem tcopyElems_error {k : Nat} {hi : Bool} (hk : k < ha.count) (hbelow : ∀ j < k, ∃ y, convElem ha.fmt hd.fmt (ha.getRow x j) = .ok y)
    (h : convElem ha.fmt hd.fmt (ha.getRow x k) = .error hi) : tcopyElems ha hd x = .error (k, hi) := by
  choose f hf using hbelow
  have hpre : (List.range k).foldl (tcopyElem ha hd x) (.ok []) = .ok ((List.ofFn fun j : Fin k => f j j.isLt).take k) :=
    tcopyPrefix_ok (by simp) fun j hj => by simpa using hf j hj
  obtain ⟨n, hn⟩ := Nat.exists_eq_add_of_lt hk
  have hstep : tcopyElem ha hd x (.ok ((List.ofFn fun j : Fin k => f j j.isLt).take k)) k = .error (k, hi) := by simp only [tcopyElem, h]
  rw [tcopyElems_eq, hn, Nat.add_assoc, List.range_add, List.foldl_append, hpre, Nat.add_comm n, Nat.add_comm 1, List.range_succ_eq_map, List.map_cons,
    List.foldl_cons, Nat.add_zero, hstep, foldl_tcopyElem_error]

/-- What TCOPY asks of its two tiles before it reads them. -/
structure CopyForm (d a : BitVec 5) (s : State) (sd : Nat) (hd : Hdr) (sa : Nat) (ha : Hdr) (x : TileBits) : Prop where
  dst : TileIs s d sd hd
  src : TileIs s a sa ha
  holds : TileHolds s sa x
  fmt : ha.fmt = hd.fmt ∨ convPair ha.fmt hd.fmt = true
  rows : ha.rows = hd.rows
  cols : ha.cols = hd.cols

variable {g : BitVec 3} {d a : BitVec 5} {s : State} {sd sa : Nat}

/-- The tile TCOPY writes. -/
def copiedTile (s : State) (sd : Nat) (hd : Hdr) (l : List (Nat × Bool)) : TileBits :=
  hd.fill (s.tile (coreOf s.cur) sd).data fun r c => (l.getD (r * hd.cols + c) (0, false)).1

theorem issueAlone_tcopy (hc : CopyForm d a s sd hd sa ha x) :
    issueAlone (.tcopy g d a) s = (match tcopyElems ha hd x with
      | .error (k, hi) => .error (.trap 0x07 (BitVec.ofNat 64 (hi.toNat + 65536 * k)))
      | .ok l => do
        tileRoom s s.cur
        ownSlot s s.cur sd
        commit fun u =>
          let v := tileJob s.env sd hd.sectors (copiedTile s sd hd l) (hd.status (copiedTile s sd hd l) (l.any (·.2)))
            (consumedTile s.cur sa ha.image (s.tile (coreOf s.cur) sa) u)
          if (s.tile (coreOf s.cur) sa).poison.isEmpty then v
          else v.modTile (coreOf s.cur) sd (·.spoil (tcopyPoison (s.tile (coreOf s.cur) sa) ha hd))) := by
  have hfmt : (ha.fmt == hd.fmt || convPair ha.fmt hd.fmt) = true := by
    rw [Bool.or_eq_true, beq_iff_eq]
    exact hc.fmt
  have hshape : (ha.rows == hd.rows && ha.cols == hd.cols) = true := by simp [hc.rows, hc.cols]
  exact (Chk.bind_of_ok (tileOperands_two hc.dst hc.src)).trans ((Chk.bind_of_true hfmt).trans
    ((Chk.bind_of_true hshape).trans ((Chk.bind_of_ok (fullTile_ok hc.holds)).trans rfl)))

end

/-- Settles O42: each form by its checks, and what it queues. -/
theorem tileForms : Obligations.TileForms := by
  intro g d a i waits room out old job
  have tileOut {s : State} {slot : Nat} {h : Hdr} (ho : out s slot h) : TileOut d s slot h := by
    obtain ⟨h1, h2, h3⟩ := ho
    exact ⟨h1, h2, h3⟩
  refine ⟨fun s slot h hs ho => ?tzero, fun s slot h m hm hs ho => ?tzeroRaw, fun s sd hd sa ha x l hs ho hta hx hf hr hc hl hk => ?tcopy,
    fun s sd hd sa ha x k hi hs htd hta hx hf hr hc hk hbelow hbad => ?range, fun s slot h hs ho => ?tv2t, fun s slot h x hs ht hx hr => ?tt2v,
    fun s slot h hs ht he hr => ?empty⟩
  case tzero => exact exec_completes slotAlone_of_not_hdrT hs (issueAlone_tzero (tileOut ho))
  case tzeroRaw =>
    rw [exec_completes slotAlone_of_not_hdrT hs (issueAlone_tzero (tileOut ho)), if_neg hm, if_neg hm]
    rfl
  case tcopy =>
    obtain ⟨htd, hroom, hown⟩ := ho
    have hissue := issueAlone_tcopy (g := g) ⟨htd, hta, hx, hf, hr, hc⟩
    rw [tcopyElems_ok hl hk] at hissue
    exact exec_completes slotAlone_of_not_hdrT hs (hissue.trans ((Chk.bind_of_ok (tileRoom_ok hroom)).trans (Chk.bind_of_ok hown)))
  case range =>
    have hissue := issueAlone_tcopy (g := g) ⟨htd, hta, hx, hf, hr, hc⟩
    rw [tcopyElems_error hk hbelow hbad] at hissue
    exact exec_traps slotAlone_of_not_hdrT hs hissue
  case tv2t => exact exec_completes slotAlone_of_not_hdrT hs (issueAlone_tv2t (tileOut ho))
  case tt2v =>
    obtain ⟨hfull, rfl⟩ := hx
    exact exec_completes slotAlone_of_not_hdrT hs ((issueAlone_tt2v ht hr).trans (Chk.bind_of_true hfull))
  case empty => exact exec_blocks slotAlone_of_not_hdrT hs ((issueAlone_tt2v ht hr).trans (Chk.bind_of_false he))

end Sys2Proof.Machine
end

section
/-! PROOF. The Circuit Tree Unit's instructions: their checks in the order of R213, and the words they write. -/
set_option Elab.async false
namespace Sys2Proof.Machine

/-! ## The checks of R213 -/

/-- The records an instruction reads, row by row. -/
def ckRecs (h : Hdr) (x : TileBits) (r : BitVec 5) (c : Nat) : List (CRec × Nat) :=
  (List.range c).map fun i => (CRec.of (BitVec.ofNat 1024 (h.get x (r.toNat + i) 0)), i)

/-- The tile of a CK instruction. -/
structure CkTile (t r : BitVec 5) (s : State) (slot : Nat) (h : Hdr) (x : TileBits) (c : Nat) : Prop where
  tile : TileIs s t slot h
  holds : TileHolds s slot x
  fmt : h.fmt = 13
  rows : r.toNat + c ≤ h.rows
  cols : h.cols = 1
  mode : (s.ctx s.cur).qmr.toNat ≤ 4

/-- What a CK instruction does with an evaluation that reads no pending word. -/
def ckResult (o : CkOp) (s : State) (slot : Nat) (h : Hdr) (r : BitVec 5) (rs : List (CRec × Nat)) (st : CkSt)
    (fin : CkEnv → List (CRec × Nat) → CkSt → Issue) : Issue :=
  match rs.find? fun r => r.1.bad o.accepts != 0 with
  | some r => .error (.trap 0x0E (BitVec.ofNat 64 (r.1.bad o.accepts + 256 * r.2)))
  | none =>
    match ((rs.flatMap fun r => r.1.names (s.ctx s.cur).ckEnv).filter fun a => decide ((s.ctx s.cur).scratchSize < a.1 + a.2)).map (·.1) |>.min? with
    | some off => .error (.trap 0x04 (BitVec.ofNat 64 (0x1FF * 2 ^ 48 + off)))
    | none =>
      match (s.tile (coreOf s.cur) slot).poison.find? fun p => rs.any fun q => h.index (r.toNat + q.2) 0 == p / 2 with
      | some p => .error (.late 0x14 (tileInfo slot p))
      | none =>
      match st.err with
      | some (cause, info) => .error (.late cause info)
      | none => fin (s.ctx s.cur).ckEnv rs st

section
variable {t r : BitVec 5} {s : State} {slot : Nat} {h : Hdr} {x : TileBits} {c : Nat} {o : CkOp} {e : Env}
  {fin : CkEnv → List (CRec × Nat) → CkSt → Issue}

theorem issueCk_eq (hg : e.g = s.cur) (ht : CkTile t r s slot h x c) (ho : scratchInOrder s s.cur = .ok ())
    (hreads : ∀ w ∈ (o.run (s.ctx s.cur).ckEnv ((ckRecs h x r c).filter fun y => y.1.bad o.accepts == 0) (s.ctx s.cur)).reads,
      tfind (s.ctx s.cur).tags w = none) :
    issueCk o e t r c fin s = ckResult o s slot h r (ckRecs h x r c)
      (o.run (s.ctx s.cur).ckEnv ((ckRecs h x r c).filter fun y => y.1.bad o.accepts == 0) (s.ctx s.cur)) fin := by
  have htile : (do
      let (slot, h) ← tileOperand s e.g t
      Chk.need (h.fmt == 13) (.trap 0x0D 0x13)
      Chk.need (decide (r.toNat + c ≤ h.rows) && h.cols == 1) (.trap 0x0D 0x14)
      .ok (slot, h) : Chk (Nat × Hdr)) = .ok (slot, h) := by
    rw [hg]
    exact (Chk.bind_of_ok (tileOperand_ok ht.tile)).trans ((Chk.bind_of_true (beq_iff_eq.mpr ht.fmt)).trans
      (Chk.bind_of_true (by simp [ht.rows, ht.cols])))
  have hmode : decide ((s.ctx s.cur).ckEnv.mode ≤ 4) = true := decide_eq_true ht.mode
  have hfull : (decide ((s.ctx s.cur).ckEnv.mode ≤ 4) || (s.tile (coreOf s.cur) slot).full) = true := by
    rw [hmode]
    rfl
  have htags : (!((o.run (s.ctx s.cur).ckEnv ((ckRecs h x r c).filter fun y => y.1.bad o.accepts == 0) (s.ctx s.cur)).reads.any
      fun w => (tfind (s.ctx s.cur).tags w).isSome)) = true := by
    rw [Bool.not_eq_true', List.any_eq_false]
    intro w hw
    rw [hreads w hw]
    exact Bool.false_ne_true
  unfold issueCk
  dsimp only
  rw [htile, hg]
  exact (Chk.bind_of_true hfull).trans ((Chk.bind_of_ok (fullTile_ok ht.holds)).trans ((Chk.bind_of_ok ho).trans
    ((Chk.bind_of_true htags).trans (Chk.bind_of_true hmode))))

/-- The evaluation of records that are all well formed and within scratch, none of them poisoned. -/
structure CkRuns (t r : BitVec 5) (s : State) (o : CkOp) (slot : Nat) (h : Hdr) (x : TileBits) (c : Nat) : Prop where
  tile : CkTile t r s slot h x c
  clean : (s.tile (coreOf s.cur) slot).poison = []
  order : scratchInOrder s s.cur = .ok ()
  good : ∀ y ∈ ckRecs h x r c, y.1.bad o.accepts = 0
  within : ∀ y ∈ ckRecs h x r c, ∀ z ∈ y.1.names (s.ctx s.cur).ckEnv, z.1 + z.2 ≤ (s.ctx s.cur).scratchSize
  reads : ∀ w ∈ (o.run (s.ctx s.cur).ckEnv (ckRecs h x r c) (s.ctx s.cur)).reads, tfind (s.ctx s.cur).tags w = none

theorem CkRuns.filter_good (hr : CkRuns t r s o slot h x c) : ((ckRecs h x r c).filter fun y => y.1.bad o.accepts == 0) = ckRecs h x r c :=
  List.filter_eq_self.mpr fun y hy => beq_iff_eq.mpr (hr.good y hy)

theorem ckResult_runs (hr : CkRuns t r s o slot h x c) (st : CkSt) :
    ckResult o s slot h r (ckRecs h x r c) st fin = (match st.err with
      | some (cause, info) => .error (.late cause info)
      | none => fin (s.ctx s.cur).ckEnv (ckRecs h x r c) st) := by
  have hgood : ((ckRecs h x r c).find? fun r => r.1.bad o.accepts != 0) = none :=
    List.find?_eq_none.mpr fun y hy => by simp [hr.good y hy]
  have hwithin : (((ckRecs h x r c).flatMap fun r => r.1.names (s.ctx s.cur).ckEnv).filter fun a =>
      decide ((s.ctx s.cur).scratchSize < a.1 + a.2)) = [] := by
    refine List.filter_eq_nil_iff.mpr fun a ha => ?_
    obtain ⟨y, hy, hay⟩ := List.mem_flatMap.mp ha
    simpa using hr.within y hy a hay
  unfold ckResult
  rw [hgood, hwithin, hr.clean]
  rfl

theorem issueCk_runs (hg : e.g = s.cur) (hr : CkRuns t r s o slot h x c) :
    issueCk o e t r c fin s = (match (o.run (s.ctx s.cur).ckEnv (ckRecs h x r c) (s.ctx s.cur)).err with
      | some (cause, info) => .error (.late cause info)
      | none => fin (s.ctx s.cur).ckEnv (ckRecs h x r c) (o.run (s.ctx s.cur).ckEnv (ckRecs h x r c) (s.ctx s.cur))) := by
  have hreads := hr.reads
  rw [← hr.filter_good] at hreads
  rw [issueCk_eq hg hr.tile hr.order hreads, hr.filter_good, ckResult_runs hr]

/-- The first record, in row order, that is malformed or not accepted is the one named (R199, R213). -/
theorem issueCk_badRecord (hg : e.g = s.cur) (ht : CkTile t r s slot h x c) (ho : scratchInOrder s s.cur = .ok ()) (htags : (s.ctx s.cur).tags = [])
    {k : Nat} (hk : k < c) (hbad : (CRec.of (BitVec.ofNat 1024 (h.get x (r.toNat + k) 0))).bad o.accepts ≠ 0)
    (hbelow : ∀ j < k, (CRec.of (BitVec.ofNat 1024 (h.get x (r.toNat + j) 0))).bad o.accepts = 0) :
    issueCk o e t r c fin s =
      .error (.trap 0x0E (BitVec.ofNat 64 ((CRec.of (BitVec.ofNat 1024 (h.get x (r.toNat + k) 0))).bad o.accepts + 256 * k))) := by
  have hfind : ((ckRecs h x r c).find? fun r => r.1.bad o.accepts != 0) = some (CRec.of (BitVec.ofNat 1024 (h.get x (r.toNat + k) 0)), k) := by
    obtain ⟨n, rfl⟩ := Nat.exists_eq_add_of_lt hk
    have hpre : ((List.range k).map fun i => (CRec.of (BitVec.ofNat 1024 (h.get x (r.toNat + i) 0)), i)).find? (fun r => r.1.bad o.accepts != 0) = none :=
      List.find?_eq_none.mpr fun y hy => by
        obtain ⟨j, hj, rfl⟩ := List.mem_map.mp hy
        simp [hbelow j (List.mem_range.mp hj)]
    rw [ckRecs, Nat.add_assoc, List.range_add, List.map_append, List.find?_append, hpre, Nat.add_comm n, Nat.add_comm 1, List.range_succ_eq_map]
    simp [hbad]
  rw [issueCk_eq hg ht ho fun w _ => by rw [htags]; rfl]
  unfold ckResult
  rw [hfind]

end

/-! ## The words written (R205, R206) -/

/-- The words of a list copied from one memory into another. -/
theorem readByte_copyWords (m mem : Memory) (offs : List Nat) {a : Nat} (h : ∀ o ∈ offs, a < o ∨ o + 8 ≤ a) :
    readByte (offs.foldl (fun m o => writeBytes m o (readBytes mem o 8)) m) a = readByte m a := by
  induction offs generalizing m with
  | nil => rfl
  | cons o offs ih =>
    rw [List.foldl_cons, ih _ fun y hy => h y (by simp [hy])]
    exact readByte_writeBytes_outside m _ (by simpa [readBytes] using h o (by simp))

theorem ckCommit_scratch (o : CkOp) (v : CkEnv) (count : Nat) (st : CkSt) (c : Ctx) :
    (ckCommit o v count st c).scratch = (st.wrote.map fun w => 8 * w.1).foldl (fun m o => writeBytes m o (readBytes st.mem o 8)) c.scratch := by
  unfold ckCommit
  dsimp only
  split <;> rfl

section
variable (g : BitVec 3) (t r n : BitVec 5) (d : BitVec 6) (s : State)

/-- What CKDIV lands (R212). -/
def ckDivFin (d : BitVec 6) (s : State) (v : CkEnv) (rs : List (CRec × Nat)) (_ : CkSt) : Issue :=
  match rs with
  | (rec', _) :: _ => match ckQuotient v rec' (s.ctx s.cur) with
    | .ok x => commitCtx s.cur fun c => c.landS d x 8
    | .error hi => .error (.late 0x07 (BitVec.ofNat 64 hi.toNat))
  | [] => nothing

/-- What the other four write. -/
def ckFin (o : CkOp) (n : BitVec 5) (s : State) (v : CkEnv) (_ : List (CRec × Nat)) (st : CkSt) : Issue :=
  commitCtx s.cur (ckCommit o v (n.toNat + 1) st)

theorem issueAlone_ckleaf : issueAlone (.ckleaf g t r n) s = issueCk .leaf (alone (.ckleaf g t r n) s).env t r (n.toNat + 1) (ckFin .leaf n s) s := rfl
theorem issueAlone_cknode : issueAlone (.cknode g t r n) s = issueCk .node (alone (.cknode g t r n) s).env t r (n.toNat + 1) (ckFin .node n s) s := rfl
theorem issueAlone_ckback : issueAlone (.ckback g t r n) s = issueCk .back (alone (.ckback g t r n) s).env t r (n.toNat + 1) (ckFin .back n s) s := rfl
theorem issueAlone_cksamp : issueAlone (.cksamp g t r n) s = issueCk .samp (alone (.cksamp g t r n) s).env t r (n.toNat + 1) (ckFin .samp n s) s := rfl
theorem issueAlone_ckdiv : issueAlone (.ckdiv g t r d) s = issueCk .div (alone (.ckdiv g t r d) s).env t r 1 (ckDivFin d s) s := rfl

end

theorem ckQuotient_of {s : State} {y : CRec} {v : W64} (hv : if (s.ctx s.cur).qmr = 2
      then dkDiv (readDw (s.ctx s.cur).scratch ((s.ctx s.cur).ckEnv.node y.id 0)) (readDw (s.ctx s.cur).scratch ((s.ctx s.cur).ckEnv.node y.id 1)) = .ok v
      else v = readDw (s.ctx s.cur).scratch ((s.ctx s.cur).ckEnv.node y.id 0)) : ckQuotient (s.ctx s.cur).ckEnv y (s.ctx s.cur) = .ok v := by
  unfold ckQuotient
  by_cases h2 : (s.ctx s.cur).qmr = 2
  · rw [if_pos h2] at hv
    exact (if_pos (congrArg BitVec.toNat h2)).trans hv
  · rw [if_neg h2] at hv
    exact (if_neg fun hm => h2 (BitVec.eq_of_toNat_eq hm)).trans (congrArg Except.ok hv.symm)

/-- Settles O43: the evaluation decides between its fault and its words, once every earlier check has passed. -/
theorem circuitForms : Obligations.CircuitForms := by
  intro g t r n d recs run tile runs ok traps form
  have ckTile {s : State} {slot : Nat} {h : Hdr} {x : TileBits} {c : Nat} (ht : tile s slot h x c) : CkTile t r s slot h x c := by
    obtain ⟨h1, h2, h3, h4, h5, h6⟩ := ht
    exact ⟨h1, h2, h3, h4, h5, h6⟩
  have ckRuns {s : State} {o : CkOp} {slot : Nat} {h : Hdr} {x : TileBits} {c : Nat} (hr : runs s o slot h x c) : CkRuns t r s o slot h x c := by
    obtain ⟨h1, h2, h3, h4, h5⟩ := hr
    exact ⟨ckTile h1, h2, h3, fun y hy => (h4 y hy).1, fun y hy => (h4 y hy).2, h5⟩
  have trapsOf {i : Instr} {o : CkOp} {c : Nat} {fin : State → CkEnv → List (CRec × Nat) → CkSt → Issue} (hi : SlotAlone i)
      (hissue : ∀ s, issueAlone i s = issueCk o (alone i s).env t r c (fin s) s) : traps i o c := by
    refine ⟨fun s slot h x cause info hs hr herr => ?_, ?_⟩
    · have hres := (hissue s).trans (issueCk_runs rfl (ckRuns hr))
      rw [show (o.run (s.ctx s.cur).ckEnv (ckRecs h x r c) (s.ctx s.cur)).err = some (cause, info) from herr] at hres
      rw [exec_issues hi hs, hres]
    · intro s slot h x k hs ht ho htags hk bad hbad hbelow
      exact exec_traps hi hs ((hissue s).trans (issueCk_badRecord rfl (ckTile ht) ho htags hk hbad hbelow))
  have formOf {i : Instr} {o : CkOp} (hi : SlotAlone i) (hissue : ∀ s, issueAlone i s =
      issueCk o (alone i s).env t r (n.toNat + 1) (ckFin o n s) s) : form i o := by
    intro s slot h x hs hok
    have hres := (hissue s).trans (issueCk_runs rfl (ckRuns hok.1))
    rw [show (o.run (s.ctx s.cur).ckEnv (ckRecs h x r (n.toNat + 1)) (s.ctx s.cur)).err = none from hok.2] at hres
    exact exec_completes hi hs hres
  refine ⟨trapsOf slotAlone_of_not_hdrT (issueAlone_ckleaf g t r n), trapsOf slotAlone_of_not_hdrT (issueAlone_cknode g t r n),
    trapsOf slotAlone_of_not_hdrT (issueAlone_ckback g t r n), trapsOf slotAlone_of_not_hdrT (issueAlone_cksamp g t r n),
    trapsOf slotAlone_of_not_hdrT (issueAlone_ckdiv g t r d), formOf slotAlone_of_not_hdrT (issueAlone_ckleaf g t r n),
    formOf slotAlone_of_not_hdrT (issueAlone_cknode g t r n), formOf slotAlone_of_not_hdrT (issueAlone_ckback g t r n),
    formOf slotAlone_of_not_hdrT (issueAlone_cksamp g t r n),
    fun o v count st c a ha => ?frame, fun s slot h x v y hs hok hy hv => ?div⟩
  case frame =>
    rw [ckCommit_scratch]
    refine readByte_copyWords _ _ _ fun o ho => ?_
    obtain ⟨w, hw, rfl⟩ := List.mem_map.mp ho
    exact ha w hw
  case div =>
    have hres := (issueAlone_ckdiv g t r d s).trans (issueCk_runs rfl (ckRuns hok.1))
    obtain ⟨i, hi⟩ : ∃ i, ckRecs h x r 1 = [(y, i)] := by
      obtain ⟨z, hz, rfl⟩ := List.map_eq_singleton_iff.mp hy
      exact ⟨z.2, hz⟩
    rw [show (CkOp.div.run (s.ctx s.cur).ckEnv (ckRecs h x r 1) (s.ctx s.cur)).err = none from hok.2, hi] at hres
    simp only [ckDivFin, ckQuotient_of hv] at hres
    exact exec_completes slotAlone_of_not_hdrT hs hres

end Sys2Proof.Machine
end

section
/-! PROOF. The index engine and the Assay unit (R214 to R222). -/
set_option Elab.async false
namespace Sys2Proof.Machine

theorem tileOperands_three {s : State} {t t' t'' : BitVec 5} {n n' n'' : Nat} {h h' h'' : Hdr} (ht : TileIs s t n h) (ht' : TileIs s t' n' h')
    (ht'' : TileIs s t'' n'' h'') : tileOperands s s.cur [t.toNat, t'.toNat, t''.toNat] = .ok [(n, h), (n', h'), (n'', h'')] := by
  obtain ⟨hc, hv, rfl, rfl⟩ := ht
  obtain ⟨hc', hv', rfl, rfl⟩ := ht'
  obtain ⟨hc'', hv'', rfl, rfl⟩ := ht''
  exact tileOperands_ok (ts := [t.toNat, t'.toNat, t''.toNat]) (by simp [hc, hv, hc', hv', hc'', hv''])

/-- A tile's view is never empty: its header counts rows and columns from one. -/
theorem TileIs.count_pos {s : State} {t : BitVec 5} {n : Nat} {h : Hdr} (ht : TileIs s t n h) : 0 < h.count := by
  obtain ⟨-, -, -, rfl⟩ := ht
  exact Nat.mul_pos (Nat.succ_pos _) (Nat.succ_pos _)

/-! ## The walk of a bitmap (R215) -/

section
variable {set : Nat → Bool} {total cap : Nat}

/-- What a walk has found once it stops: the set positions from where it stood, up to its room. -/
theorem walkBits_found {f pos : Nat} {out : List Nat} (hf : f = total - pos) (hout : out.length ≤ cap) :
    (walkBits set total cap f pos out).2 = out ++ ((List.range' pos f).filter set).take (cap - out.length) := by
  induction f generalizing pos out with
  | zero => simp [walkBits]
  | succ f ih =>
    unfold walkBits
    by_cases hroom : pos < total ∧ out.length < cap
    · rw [if_pos hroom, List.range'_succ]
      by_cases hset : set pos = true
      · rw [if_pos hset, ih (by omega) (by simp; omega), List.filter_cons_of_pos hset, List.append_assoc]
        obtain ⟨k, hk⟩ : ∃ k, cap - out.length = k + 1 := ⟨cap - out.length - 1, by omega⟩
        rw [hk, List.take_succ_cons, show cap - (out ++ [pos]).length = k by simp; omega]
        rfl
      · rw [if_neg hset, ih (by omega) hout, List.filter_cons_of_neg hset]
    · rw [if_neg hroom, show cap - out.length = 0 by omega]
      simp

/-- Where it stops: past the bitmap, or just past the position that filled its room. -/
theorem walkBits_stop {f pos : Nat} {out : List Nat} (hf : f = total - pos) (hpos : pos ≤ total)
    (hout : out.length < cap ∨ out.length = cap ∧ pos = out.getLastD 0 + 1) :
    (walkBits set total cap f pos out).1 = if (walkBits set total cap f pos out).2.length < cap then total
      else (walkBits set total cap f pos out).2.getLastD 0 + 1 := by
  induction f generalizing pos out with
  | zero =>
    obtain rfl : pos = total := by omega
    rcases hout with h | ⟨h, hlast⟩
    · exact (if_pos h).symm
    · exact (if_neg (by show ¬out.length < cap; omega)).symm ▸ hlast
  | succ f ih =>
    unfold walkBits
    by_cases hroom : pos < total ∧ out.length < cap
    · rw [if_pos hroom]
      refine ih (by omega) (by omega) ?_
      by_cases hset : set pos = true
      · rw [if_pos hset]
        rcases Nat.lt_or_ge (out.length + 1) cap with h | h
        · exact .inl (by simpa using h)
        · exact .inr ⟨by simp; omega, by simp⟩
      · rw [if_neg hset]
        exact .inl hroom.2
    · rw [if_neg hroom]
      rcases hout with h | ⟨h, hlast⟩
      · exact absurd ⟨by omega, h⟩ hroom
      · exact (if_neg (by show ¬out.length < cap; omega)).symm ▸ hlast

/-- The positions from `start` on are those of the whole bitmap that lie there. -/
theorem filter_range'_eq (start : Nat) :
    (List.range' start (total - start)).filter set = (List.range total).filter fun q => decide (start ≤ q) && set q := by
  have hsplit : List.range total = List.range (min start total) ++ List.range' start (total - start) := by
    rw [List.range_eq_range', List.range_eq_range']
    rcases Nat.le_total start total with h | h
    · rw [Nat.min_eq_left h]
      have := List.range'_append (s := 0) (m := start) (n := total - start) (step := 1)
      rw [Nat.one_mul, Nat.zero_add, Nat.add_sub_cancel' h] at this
      exact this.symm
    · rw [Nat.min_eq_right h, Nat.sub_eq_zero_of_le h]
      simp
  rw [hsplit, List.filter_append]
  have hlow : (List.range (min start total)).filter (fun q => decide (start ≤ q) && set q) = [] :=
    List.filter_eq_nil_iff.mpr fun q hq => by
      have : ¬start ≤ q := by have := List.mem_range.mp hq; omega
      simp [this]
  rw [hlow, List.nil_append]
  refine List.filter_congr fun q hq => ?_
  have : start ≤ q := (List.mem_range'_1.mp hq).1
  simp [this]

end

/-- The positions IXWALK lists. -/
def walkFound (set : Nat → Bool) (total cap start : Nat) : List Nat := ((List.range total).filter fun q => decide (start ≤ q) && set q).take cap

theorem walkBits_start {set : Nat → Bool} {total cap : Nat} (start : Nat) :
    (walkBits set total cap (total - start) start []).2 = walkFound set total cap start := by
  rw [walkBits_found rfl (Nat.zero_le _), filter_range'_eq]
  rfl

theorem walkBits_cursor {set : Nat → Bool} {total cap : Nat} (hcap : 0 < cap) (start : Nat) :
    (if start < total then (walkBits set total cap (total - start) start []).1 else start) =
      if start < total then (if (walkFound set total cap start).length < cap then total else (walkFound set total cap start).getLastD 0 + 1) else start := by
  by_cases h : start < total
  · rw [if_pos h, if_pos h, walkBits_stop rfl h.le (.inl hcap), walkBits_start]
  · rw [if_neg h, if_neg h]

/-! ## The index engine's operations -/

section
variable {g : BitVec 3} {d a b : BitVec 5} {p : BitVec 6} {s : State} {sd sa sb : Nat} {hd ha hb : Hdr} {x y : TileBits}

/-- An engine with room for an operation, whose destination no one else is to write. -/
structure IndexFree (s : State) (slot : Nat) : Prop where
  room : (s.core (coreOf s.cur)).indexQ.length < 4
  own : ownSlot s s.cur slot = .ok ()

/-- Whether position `q` of a bitmap is set. -/
def bitmapSet (ha : Hdr) (x : TileBits) (q : Nat) : Bool := (ha.get x (q / (32 * ha.cols)) (q % (32 * ha.cols) / 32)).testBit (q % 32)

/-- The tiles of IXWALK. -/
structure WalkForm (d a b : BitVec 5) (s : State) (sd : Nat) (hd : Hdr) (sa : Nat) (ha : Hdr) (sb : Nat) (hb : Hdr) (x y : TileBits) : Prop where
  dst : TileIs s d sd hd
  map : TileIs s a sa ha
  cursor : TileIs s b sb hb
  mapHolds : TileHolds s sa x
  cursorHolds : TileHolds s sb y
  mapFmt : ha.fmt = 11
  cursorFmt : hb.fmt = 11
  dstFmt : hd.fmt = 12
  cols : 2 ≤ hb.cols
  free : IndexFree s sd
  own : ownSlot s s.cur sb = .ok ()
  mapClean : ∀ z ∈ firstSectors ha.image, z ∉ (s.tile (coreOf s.cur) sa).poison
  cursorClean : ∀ z ∈ elemSectors 11 (hb.index 0 0), z ∉ (s.tile (coreOf s.cur) sb).poison

/-- The tiles an IXWALK writes: what the walk `r` found, and the cursor. -/
def walkJob (s : State) (sd : Nat) (hd : Hdr) (sb : Nat) (hb : Hdr) (y : TileBits) (found : List Nat) (c stop : Nat) : State → State :=
  let outD := hd.fill (s.tile (coreOf s.cur) sd).data fun i j => match found[i * hd.cols + j]? with | some q => q / c + 2 ^ 32 * (q % c) | none => 2 ^ 64 - 1
  let outB := setElem (setElem y 11 (hb.index 0 0) stop) 11 (hb.index 0 1) found.length
  indexJob s.env [(sd, hd.sectors, outD, hd.status outD false), (sb, [], outB, hb.status outB false)]

theorem issueAlone_ixwalk (hw : WalkForm d a b s sd hd sa ha sb hb x y) :
    issueAlone (.ixwalk g d a b) s = .ok (does (walkJob s sd hd sb hb y
      (walkBits (bitmapSet ha x) (ha.rows * (32 * ha.cols)) hd.count (ha.rows * (32 * ha.cols) - hb.get y 0 0) (hb.get y 0 0) []).2 (32 * ha.cols)
      (if hb.get y 0 0 < ha.rows * (32 * ha.cols) then
        (walkBits (bitmapSet ha x) (ha.rows * (32 * ha.cols)) hd.count (ha.rows * (32 * ha.cols) - hb.get y 0 0) (hb.get y 0 0) []).1
        else hb.get y 0 0))) := by
  have hfmt : (ha.fmt == 11 && hb.fmt == 11 && hd.fmt == 12) = true := by simp [hw.mapFmt, hw.cursorFmt, hw.dstFmt]
  exact (Chk.bind_of_ok (tileOperands_three hw.dst hw.map hw.cursor)).trans ((Chk.bind_of_true hfmt).trans
    ((Chk.bind_of_true (decide_eq_true hw.cols)).trans ((Chk.bind_of_ok (cleanSectors_ok hw.mapHolds hw.mapClean)).trans
    ((Chk.bind_of_ok (cleanSectors_ok hw.cursorHolds hw.cursorClean)).trans ((Chk.bind_of_ok (queueRoom_ok hw.free.room)).trans
    ((Chk.bind_of_ok hw.free.own).trans (Chk.bind_of_ok hw.own)))))))

theorem exec_ixwalk (hs : Issues (.ixwalk g d a b) s) (hw : WalkForm d a b s sd hd sa ha sb hb x y) :
    exec (.ixwalk g d a b) s = .next (done (.ixwalk g d a b) (does (walkJob s sd hd sb hb y
      (walkFound (bitmapSet ha x) (ha.rows * (32 * ha.cols)) hd.count (hb.get y 0 0)) (32 * ha.cols)
      (if hb.get y 0 0 < ha.rows * (32 * ha.cols) then
        (if (walkFound (bitmapSet ha x) (ha.rows * (32 * ha.cols)) hd.count (hb.get y 0 0)).length < hd.count then ha.rows * (32 * ha.cols)
          else (walkFound (bitmapSet ha x) (ha.rows * (32 * ha.cols)) hd.count (hb.get y 0 0)).getLastD 0 + 1)
        else hb.get y 0 0))) s) := by
  rw [exec_completes slotAlone_of_not_hdrT hs (issueAlone_ixwalk hw), walkBits_cursor hw.dst.count_pos, walkBits_start]

/-- The starts IXSPLIT writes (R216). -/
def splitStarts (hd : Hdr) (old : TileBits) (n parts : Nat) : TileBits :=
  (List.range (parts + 1)).foldl (fun z j => setElem z 11 (hd.index 0 j) (j * n / parts)) old

theorem issueAlone_ixsplit (htd : TileIs s d sd hd) (hta : TileIs s a sa ha) (hx : TileHolds s sa x) (hfa : ha.fmt = 11) (hfd : hd.fmt = 11)
    (hca : 2 ≤ ha.cols) (hcd : p.toNat + 2 ≤ hd.cols) (hfree : IndexFree s sd)
    (hclean : ∀ z ∈ elemSectors 11 (ha.index 0 1), z ∉ (s.tile (coreOf s.cur) sa).poison) :
    issueAlone (.ixsplit g d a p) s = .ok (does (indexJob s.env [(sd, wholeSectors 11 ((List.range (p.toNat + 2)).map (hd.index 0 ·)),
      splitStarts hd (s.tile (coreOf s.cur) sd).data (ha.get x 0 1) (p.toNat + 1),
      hd.status (splitStarts hd (s.tile (coreOf s.cur) sd).data (ha.get x 0 1) (p.toNat + 1)) false)])) := by
  have hfmt : (ha.fmt == 11 && hd.fmt == 11) = true := by simp [hfa, hfd]
  exact (Chk.bind_of_ok (tileOperands_two htd hta)).trans ((Chk.bind_of_true hfmt).trans ((Chk.bind_of_true (decide_eq_true ⟨hca, hcd⟩)).trans
    ((Chk.bind_of_ok (cleanSectors_ok hx hclean)).trans ((Chk.bind_of_ok (queueRoom_ok hfree.room)).trans (Chk.bind_of_ok hfree.own)))))

end

/-! ## The Assay unit -/

theorem rankInsert_perm (ty : Nat) (x : W64) (l : List W64) : (rankInsert ty x l).Perm (x :: l) := by
  induction l with
  | nil => exact .refl _
  | cons y l ih =>
    unfold rankInsert
    split
    · exact .refl _
    · exact (ih.cons y).trans (.swap x y l)

/-- Sorting keeps the entries (R217). -/
theorem rankSort_perm (ty : Nat) (l : List W64) : (rankSort ty l).Perm l := by
  suffices h : ∀ acc, (l.foldl (fun acc x => rankInsert ty x acc) acc).Perm (acc ++ l) from h []
  induction l with
  | nil => simp
  | cons x l ih =>
    intro acc
    exact (ih (rankInsert ty x acc)).trans (((rankInsert_perm ty x acc).append_right l).trans List.perm_middle.symm)

section
variable {g : BitVec 3} {d a b t : BitVec 5} {m : BitVec 6} {k : BitVec 2} {r : BitVec 6} {s : State} {sd sa sb slot : Nat} {h hd ha hb : Hdr}
  {x y : TileBits}

theorem assayIdle_ok (hi : ∀ j ∈ (s.core (coreOf s.cur)).assayQ, j.ctx ≠ s.cur) : assayIdle s s.cur = .ok () := by
  unfold assayIdle
  rw [Chk.need_ok, Bool.not_eq_true', List.any_eq_false]
  exact fun j hj => by simpa using hi j hj

/-- Entry `i` of an ASORT: key from one tile, value from the other. -/
def sortEntry (ha hb : Hdr) (x y : TileBits) (i : Nat) : W64 :=
  (if hb.fmt = 12 then BitVec.ofNat 32 (hb.getRow y i / 2 ^ 32) else BitVec.ofNat 32 (hb.getRow y i) : W32) ++ BitVec.ofNat 32 (ha.getRow x i)

/-- The tiles of ASORT. -/
structure SortForm (d a b : BitVec 5) (m : BitVec 6) (s : State) (sd : Nat) (hd : Hdr) (sa : Nat) (ha : Hdr) (sb : Nat) (hb : Hdr) (x y : TileBits) :
    Prop where
  dst : TileIs s d sd hd
  keys : TileIs s a sa ha
  vals : TileIs s b sb hb
  keysHold : TileHolds s sa x
  valsHold : TileHolds s sb y
  dstFmt : hd.fmt = 12
  keysFmt : ha.fmt = 12 ∨ ha.fmt = keyFmt m.toNat
  valsFmt : hb.fmt = 12 ∨ hb.fmt = 11 ∨ hb.fmt = 5
  dstCount : 64 ≤ hd.count
  keysCount : 64 ≤ ha.count
  valsCount : 64 ≤ hb.count
  room : (s.core (coreOf s.cur)).assayQ.length < 4
  own : ownSlot s s.cur sd = .ok ()
  keysClean : ∀ z ∈ viewSectors ha 64, z ∉ (s.tile (coreOf s.cur) sa).poison
  valsClean : ∀ z ∈ viewSectors hb 64, z ∉ (s.tile (coreOf s.cur) sb).poison

theorem issueAlone_asort (hf : SortForm d a b m s sd hd sa ha sb hb x y) :
    issueAlone (.asort g d a b m) s = .ok (does fun u =>
      (u.modTile (coreOf s.cur) sd fun z => z.write (entrySectors hd)
        (putEntries hd (s.tile (coreOf s.cur) sd).data (rankSort m.toNat ((List.range 64).map (sortEntry ha hb x y)))) 0).modCore (coreOf s.cur) fun z =>
          { z with assayQ := z.assayQ ++ [tileEntry s.cur [(sd, 0)]] }) := by
  have hfmt : (hd.fmt == 12 && (ha.fmt == 12 || ha.fmt == keyFmt m.toNat) && (hb.fmt == 12 || hb.fmt == 11 || hb.fmt == 5)) = true := by
    simpa [and_assoc, or_assoc] using ⟨hf.dstFmt, hf.keysFmt, hf.valsFmt⟩
  exact (Chk.bind_of_ok (tileOperands_three hf.dst hf.keys hf.vals)).trans ((Chk.bind_of_true hfmt).trans
    ((Chk.bind_of_true (decide_eq_true ⟨hf.dstCount, hf.keysCount, hf.valsCount⟩)).trans
    ((Chk.bind_of_ok (cleanSectors_ok hf.keysHold hf.keysClean)).trans ((Chk.bind_of_ok (cleanSectors_ok hf.valsHold hf.valsClean)).trans
    ((Chk.bind_of_ok (queueRoom_ok hf.room)).trans (Chk.bind_of_ok hf.own))))))

/-- How many entries an AMRG takes. -/
def mergeCount (r : BitVec 6) (s : State) : Nat := if r = 0 then 64 else min (s.rs r).toNat 64

/-- The best 64 of a register and of a tile's entries. -/
def merged (k : BitVec 2) (r : BitVec 6) (s : State) (h : Hdr) (x : TileBits) : List W64 :=
  (rankSort ((s.ctx s.cur).cand k).ty (((s.ctx s.cur).cand k).valid ++ (List.range (mergeCount r s)).map fun i => BitVec.ofNat 64 (h.getRow x i))).take 64

theorem issueAlone_amrg (hi : ∀ j ∈ (s.core (coreOf s.cur)).assayQ, j.ctx ≠ s.cur) (ht : TileIs s t slot h) (hx : TileHolds s slot x) (hf : h.fmt = 12)
    (hn : mergeCount r s ≤ h.count) (hc : ∀ z ∈ viewSectors h (mergeCount r s), z ∉ (s.tile (coreOf s.cur) slot).poison) :
    issueAlone (.amrg g k t r) s = .ok (onCtx s fun z => { z with
      cands := tset z.cands k.toNat { (s.ctx s.cur).cand k with count := (merged k r s h x).length, entries := merged k r s h x } }) :=
  (Chk.bind_of_ok (tileOperand_ok ht)).trans ((Chk.bind_of_true (beq_iff_eq.mpr hf)).trans ((Chk.bind_of_true (decide_eq_true hn)).trans
    ((Chk.bind_of_ok (cleanSectors_ok hx hc)).trans (Chk.bind_of_ok (assayIdle_ok hi)))))

theorem issueAlone_cread (hi : ∀ j ∈ (s.core (coreOf s.cur)).assayQ, j.ctx ≠ s.cur) (ht : TileIs s t slot h) (hf : h.fmt = 12) (hn : 64 ≤ h.count)
    (ho : ownSlot s s.cur slot = .ok ()) :
    issueAlone (.cread g k t r) s = .ok (does fun u =>
      (u.modTile (coreOf s.cur) slot fun z => (z.write (entrySectors h) (putEntries h (s.tile (coreOf s.cur) slot).data
        (((s.ctx s.cur).cand k).valid ++ List.replicate (64 - ((s.ctx s.cur).cand k).count) (BitVec.allOnes 64))) 0).finish
          ((u.ctx s.cur).bundles + 1)).modCtx s.cur fun z => z.landS r (BitVec.ofNat 64 ((s.ctx s.cur).cand k).count) 2) :=
  (Chk.bind_of_ok (tileOperand_ok ht)).trans ((Chk.bind_of_true (beq_iff_eq.mpr hf)).trans ((Chk.bind_of_true (decide_eq_true hn)).trans
    ((Chk.bind_of_ok (assayIdle_ok hi)).trans (Chk.bind_of_ok ho))))

end

/-- Settles O44: the walk as a filter of the bitmap, and the Assay unit's forms by their checks. -/
theorem indexAndAssayForms : Obligations.IndexAndAssayForms := by
  refine ⟨?index, ?assay⟩
  case index =>
    intro g d a b p free clean old
    refine ⟨?walk, ?split⟩
    case walk =>
      intro s sd hd sa ha sb hb x y hs h1 h2 h3 h4 h5 h6 h7 h8 h9 hfree h11 h12 h13
      exact exec_ixwalk hs ⟨h1, h2, h3, h4, h5, h6, h7, h8, h9, ⟨hfree.1, hfree.2⟩, h11, h12, h13⟩
    case split =>
      intro s sd hd sa ha x hs htd hta hx hfa hfd hca hcd hfree hclean
      exact exec_completes slotAlone_of_not_hdrT hs (issueAlone_ixsplit htd hta hx hfa hfd hca hcd ⟨hfree.1, hfree.2⟩ hclean)
  case assay =>
    intro g d a b t m k f r idle clean c
    refine ⟨?sort, rankSort_perm, ?clear, ?merge, ?read, ?draw⟩
    case sort =>
      intro s sd hd sa ha sb hb x y hs h1 h2 h3 h4 h5 h6 h7 h8 h9 h10 h11 h12 h13 h14 h15
      exact exec_completes slotAlone_of_not_hdrT hs (issueAlone_asort ⟨h1, h2, h3, h4, h5, h6, h7, h8, h9, h10, h11, h12, h13, h14, h15⟩)
    case clear => exact completesWhen_of_issue slotAlone_of_not_hdrT fun s hi => Chk.bind_of_ok (assayIdle_ok hi)
    case merge =>
      intro s slot h x hs hi ht hx hf n hn hclean
      exact exec_completes slotAlone_of_not_hdrT hs (issueAlone_amrg hi ht hx hf hn hclean)
    case read =>
      intro s slot h hs hi ht hf hn ho
      rw [exec_completes slotAlone_of_not_hdrT hs (issueAlone_cread hi ht hf hn ho)]
      exact congrArg Host.Outcome.next (done_congr _ none rfl)
    case draw => exact completesWhen_of_issue slotAlone_of_not_hdrT fun s hi => Chk.bind_of_ok (assayIdle_ok hi)

end Sys2Proof.Machine
end

section
/-! PROOF. Clearing sessions (R223 to R229). -/
set_option Elab.async false
namespace Sys2Proof.Machine

/-! ## What a bundle leaves of its effect -/

section
variable (i : Instr) (f : State → State) (s : State)

theorem done_engines : SameEngines (f s) (done i (does f) s) := by
  have e : done i (does f) s = _ := commitBundle_one s.cur _ _ (alone i s) f none s
  obtain ⟨-, -, -, -, heng, -⟩ := afterAct_spec s.cur ((slotKey i).2.1 == 1) ((alone i s).writes.filter Name.grouped) (alone i s) none (f s) s
  rw [e]
  exact heng

theorem done_mem : (done i (does f) s).mem = (f s).mem := by
  have e : done i (does f) s = _ := commitBundle_one s.cur _ _ (alone i s) f none s
  obtain ⟨-, -, -, hmem, -⟩ := afterAct_spec s.cur ((slotKey i).2.1 == 1) ((alone i s).writes.filter Name.grouped) (alone i s) none (f s) s
  rw [e]
  exact hmem.mem.trans (claimHeld_spec ..).2.2.1

theorem done_session (k : Nat) : ((done i (does f) s).cluster k).session = ((f s).cluster k).session := ((done_engines i f s).clusters k).2.1

theorem done_tile (k slot : Nat) : (done i (does f) s).tile k slot = (f s).tile k slot := by
  have h : ((done i (does f) s).core k).tiles = ((f s).core k).tiles := ((done_engines i f s).cores k).1
  simp only [State.tile, Core.tile, h]

/-- A register with no result in flight is as the effect left it. -/
theorem done_reg {n : Name} (h : ((f s).ctx s.cur).pending n = false) : ((done i (does f) s).ctx s.cur).reg n = ((f s).ctx s.cur).reg n := by
  have e : done i (does f) s = _ := commitBundle_one s.cur _ _ (alone i s) f none s
  obtain ⟨w, hctx, -⟩ := afterAct_spec s.cur ((slotKey i).2.1 == 1) ((alone i s).writes.filter Name.grouped) (alone i s) none (f s) s
  rw [e, hctx]
  simp only [Option.isSome_none, Bool.false_eq_true, if_false]
  exact (Ctx.reg_watch ..).trans ((Ctx.deliver_reg (((f s).ctx s.cur).advance _ _ _ _) n h).trans (Ctx.advance_reg ..))

end

/-! ## Sessions -/

theorem setPins_spec (fs : List Nat) (on : Bool) (s : State) : (setPins fs on s).clusters = s.clusters ∧ (setPins fs on s).cores = s.cores
    ∧ (setPins fs on s).ctxs = s.ctxs ∧ (setPins fs on s).mem = s.mem := by
  unfold setPins State.each
  induction fs generalizing s with
  | nil => exact ⟨rfl, rfl, rfl, rfl⟩
  | cons f fs ih => exact ih _

theorem setPins_cluster (fs : List Nat) (on : Bool) (s : State) (k : Nat) : (setPins fs on s).cluster k = s.cluster k := by
  rw [State.cluster, (setPins_spec fs on s).1]
  rfl

/-- Closing a session leaves its cluster without one, and the cores, the contexts and memory as they were. -/
theorem closeSession_spec (cl : Nat) (s : State) : ((closeSession cl s).cluster cl).session = none ∧ (closeSession cl s).cores = s.cores
    ∧ (closeSession cl s).ctxs = s.ctxs ∧ (closeSession cl s).mem = s.mem := by
  unfold closeSession
  split
  next h => exact ⟨h, rfl, rfl, rfl⟩
  next x h =>
    obtain ⟨-, h2, h3, h4⟩ := setPins_spec (x.pinned.filter fun f => !((s.modCluster cl fun c => { c with session := none }).clusters.flatMap fun c =>
      match c.2.session with | some y => y.pinned | none => []).contains f) false (s.modCluster cl fun c => { c with session := none })
    refine ⟨?_, h2, h3, h4⟩
    dsimp only
    rw [setPins_cluster]
    simp [State.modCluster, State.setCluster, State.cluster]

theorem setSession_session (g : Nat) (x : Session) (s : State) : ((setSession g x s).cluster (clusterOf g)).session = some x := by
  simp [setSession, State.modCluster, State.setCluster, State.cluster]

/-- The issuing context's group has a session open in its cluster. -/
structure OwnSession (s : State) (x : Session) : Prop where
  is : (s.cluster (clusterOf s.cur)).session = some x
  group : x.group = (s.ctx s.cur).group

theorem ownSession_ok {s : State} {x : Session} (h : OwnSession s x) : ownSession s s.cur = .ok x := by
  unfold ownSession
  rw [h.is]
  exact if_pos h.group

theorem ownSession_none {s : State} (h : ∀ x, ¬OwnSession s x) : ownSession s s.cur = .error (.trap 0x0F 1) := by
  unfold ownSession
  split
  next x hx => exact if_neg fun hg => h x ⟨hx, hg⟩
  · rfl

theorem streamOpen_ok {x : Session} {n : Nat} (hm : x.mask.getLsbD n = true) (hs : x.sealed.getLsbD n = false) : streamOpen x n = .ok () :=
  (Chk.bind_of_true hm).trans (if_pos (by
    show (!x.sealed.getLsbD n) = true
    rw [hs]
    rfl))

section
variable {g : BitVec 3} {a : BitVec 5} {n : BitVec 4} {s : State} {slot : Nat} {h : Hdr} {d : TileBits} {x : Session}

/-! ## CLCFG (R225) -/

/-- The session a CLCFG without a spill area opens. -/
def openedSession (s : State) (h : Hdr) (d : TileBits) : Session :=
  { group := (s.ctx s.cur).group, spill := none, pinned := [], zview := [], kind := h.getRow d 2, mask := BitVec.ofNat 16 (h.getRow d 3),
    sealed := 0, pushed := 0, last := [], buf := [], runs := [], spills := 0, nextSeq := 0 }

/-- The configuration a CLCFG reads, without a spill area. -/
structure CfgTile (h : Hdr) (d : TileBits) : Prop where
  base : h.getRow d 0 + 2 ^ 32 * h.getRow d 1 = 0
  kind : h.getRow d 2 ≤ 2
  maskPos : 0 < h.getRow d 3
  mask : h.getRow d 3 < 65536
  rest : ∀ i, 4 ≤ i → i < 8 → h.getRow d i = 0

theorem issueAlone_clcfg (ht : TileIs s a slot h) (hd : TileHolds s slot d) (hc : ∀ y ∈ viewSectors h 8, y ∉ (s.tile (coreOf s.cur) slot).poison)
    (hf : h.fmt = 11) (hn : 8 ≤ h.count) (hfree : (s.cluster (clusterOf s.cur)).session = none) (hcfg : CfgTile h d) :
    issueAlone (.clcfg g a) s = .ok (does (setSession s.cur (openedSession s h d))) := by
  have hnone : ((s.cluster (clusterOf s.cur)).session.all (·.group != (s.ctx s.cur).group)) = true := by
    rw [hfree]
    rfl
  have hgood : ((h.getRow d 0 + 2 ^ 32 * h.getRow d 1) % 4096 == 0 && !inWindow (h.getRow d 0 + 2 ^ 32 * h.getRow d 1) && decide (h.getRow d 2 ≤ 2)
      && decide (0 < h.getRow d 3 ∧ h.getRow d 3 < 65536) && [4, 5, 6, 7].all (fun i => h.getRow d i == 0)) = true := by
    rw [hcfg.base, decide_eq_true hcfg.kind, decide_eq_true ⟨hcfg.maskPos, hcfg.mask⟩]
    simp [hcfg.rest, inWindow]
  have hblock : (s.cluster (clusterOf s.cur)).session.isNone = true := by
    rw [hfree]
    rfl
  refine (Chk.bind_of_ok (tileOperand_ok ht)).trans ((Chk.bind_of_true (beq_iff_eq.mpr hf)).trans ((Chk.bind_of_true (decide_eq_true hn)).trans
    ((Chk.bind_of_true hnone).trans ((Chk.bind_of_ok (cleanSectors_ok hd hc)).trans ((Chk.bind_of_true hgood).trans ?_)))))
  refine (if_pos hcfg.base).trans ((Chk.bind_of_true hblock).trans ?_)
  exact congrArg (fun b => Except.ok (does (setSession s.cur { openedSession s h d with spill := b }))) (if_pos hcfg.base)

/-! ## CLPUSH (R226) -/

/-- The entries of a push, as the network keeps them. -/
def pushed (n : BitVec 4) (x : Session) (es : List (W64 × W32)) : List ClrEntry :=
  es.zipIdx.map fun p => { key := p.1.1, val := p.1.2, stream := n.toNat, seq := x.nextSeq + p.2 }

/-- What stays of an entry when it moves. -/
def ClrEntry.data (e : ClrEntry) : W64 × W32 × Nat := (e.key, e.val, e.stream)

theorem pushed_data (n : BitVec 4) (x : Session) (es : List (W64 × W32)) :
    (pushed n x es).map (fun e => (e.key, e.val, e.stream)) = es.map fun e => (e.1, e.2, n.toNat) := by
  rw [pushed, List.map_map]
  conv_rhs => rw [← List.zipIdx_map_fst 0 es, List.map_map]
  rfl

/-- The session after a push. -/
def pushedSession (n : BitVec 4) (x : Session) (es : List (W64 × W32)) : Session :=
  { x with pushed := x.pushed ||| (1#16 <<< n.toNat), last := tset x.last n.toNat (es.getLastD (0, 0)).1, nextSeq := x.nextSeq + es.length }

theorem leastFrom_ge {f : Nat → Bool} {i0 n k : Nat} (h : leastFrom f i0 n = some k) : i0 ≤ k := by
  induction n generalizing i0 with
  | zero => exact nomatch h
  | succ n ih =>
    rw [leastFrom] at h
    split at h
    · exact (Option.some.inj h).le
    · exact (Nat.le_succ i0).trans (ih h)

theorem keyDrop_none {es : List (W64 × W32)}
    (h : ∀ j, 0 < j → j < es.length → ¬((es.getD j (0, 0)).1.toNat < (es.getD (j - 1) (0, 0)).1.toNat)) : keyDrop es = none := by
  unfold keyDrop
  rcases hk : leastFrom (fun j => ((es.getD j (0, 0)).1).ult (es.getD (j - 1) (0, 0)).1) 1 (es.length - 1) with _ | j
  · rfl
  · obtain ⟨hlt, htrue, -⟩ := leastFrom_eq_some hk
    have hpos := leastFrom_ge hk
    exact absurd (BitVec.ult_iff_toNat_lt.mp htrue) (h j hpos (by omega))

/-- What a push into a session asks of the entries of its tile. -/
structure PushFits (n : BitVec 4) (x : Session) (es : List (W64 × W32)) : Prop where
  rising : ∀ j, 0 < j → j < es.length → ¬((es.getD j (0, 0)).1.toNat < (es.getD (j - 1) (0, 0)).1.toNat)
  follows : x.pushed.getLsbD n.toNat = true → es ≠ [] → (tget 0 x.last n.toNat : W64).toNat ≤ ((es.headD (0, 0)).1).toNat
  room : x.buf.length + es.length ≤ 65536

/-- The effect of a push. -/
def pushAct (g : Nat) (n : BitVec 4) (x : Session) (es : List (W64 × W32)) (s : State) : State :=
  if es.isEmpty then s else pushEntries g (pushed n x es) (pushedSession n x es) s

theorem issueAlone_clpush (ht : TileIs s a slot h) (hd : TileHolds s slot d) (hc : ∀ y ∈ firstSectors h.image, y ∉ (s.tile (coreOf s.cur) slot).poison)
    (hf : h.fmt = 14) (ho : OwnSession s x) (hs : streamOpen x n.toNat = .ok ()) (hfit : PushFits n x (coordEntries h d)) :
    issueAlone (.clpush g a n) s = .ok (does (pushAct s.cur n x (coordEntries h d))) := by
  have hfollows : ((coordEntries h d).isEmpty || !(bit x.pushed n.toNat)
      || !(((coordEntries h d).headD (0, 0)).1.ult (tget 0 x.last n.toNat))) = true := by
    rcases hes : coordEntries h d with _ | ⟨y, es⟩
    · rfl
    · have hfol := hfit.follows
      rw [hes] at hfol
      cases hp : bit x.pushed n.toNat
      · rfl
      · have := hfol hp (by simp)
        simpa [BitVec.ult_eq_decide] using this
  have hroom : decide ((coordEntries h d).length ≤ bufCap - x.buf.length + (if x.spill.isSome then bufCap * (16 - x.runs.length) else 0)) = true := by
    have := hfit.room
    refine decide_eq_true (le_trans ?_ (Nat.le_add_right _ _))
    show _ ≤ 65536 - x.buf.length
    omega
  refine (Chk.bind_of_ok (tileOperand_ok ht)).trans ((Chk.bind_of_true (beq_iff_eq.mpr hf)).trans ((Chk.bind_of_ok (ownSession_ok ho)).trans
    ((Chk.bind_of_ok hs).trans ((Chk.bind_of_ok (cleanSectors_ok hd hc)).trans ?_))))
  show (match keyDrop (coordEntries h d) with | some j => _ | none => _) = _
  rw [keyDrop_none hfit.rising]
  refine (Chk.bind_of_true hfollows).trans ((Chk.bind_of_true hroom).trans ?_)
  unfold pushAct
  cases (coordEntries h d).isEmpty <;> rfl

/-- The session a push leaves. -/
theorem pushAct_session (ho : OwnSession s x) {es : List (W64 × W32)} (hroom : x.buf.length + es.length ≤ 65536) :
    ∃ y, ((pushAct s.cur n x es s).cluster (clusterOf s.cur)).session = some y ∧ y.buf = x.buf ++ pushed n x es ∧ y.runs = x.runs := by
  rcases es with _ | ⟨e, es⟩
  · exact ⟨x, ho.is, by simp [pushed], rfl⟩
  · have hlen : (pushed n x (e :: es)).length ≤ bufCap - (pushedSession n x (e :: es)).buf.length := by
      rw [pushed, List.length_map, List.length_zipIdx]
      show _ ≤ 65536 - x.buf.length
      omega
    refine ⟨{ pushedSession n x (e :: es) with buf := x.buf ++ pushed n x (e :: es) }, ?_, rfl, rfl⟩
    show ((pushEntries s.cur (pushed n x (e :: es)) (pushedSession n x (e :: es)) s).cluster (clusterOf s.cur)).session = _
    unfold pushEntries
    dsimp only
    rw [if_pos hlen]
    exact setSession_session ..

/-! ## CLSEAL, CLPULL, CLCFG.END (R225 to R228) -/

theorem issueAlone_clseal (ho : OwnSession s x) (hs : streamOpen x n.toNat = .ok ()) :
    issueAlone (.clseal g n) s = .ok (does (setSession s.cur { x with sealed := x.sealed ||| (1#16 <<< n.toNat) })) :=
  (Chk.bind_of_ok (ownSession_ok ho)).trans (Chk.bind_of_ok hs)

/-- The entries of a session below its frontier. -/
def Session.ready (x : Session) : List ClrEntry := x.held.filter fun y => x.below y.key

/-- What a pull leaves. -/
def pullAct (s : State) (slot : Nat) (h : Hdr) (x : Session) (out : List Nat) (ks : List W64) (u : State) : State :=
  let v := u.modTile (coreOf s.cur) slot fun t =>
    (t.write h.sectors (h.fill (s.tile (coreOf s.cur) slot).data fun i j => out.getD (i * h.cols + j) (2 ^ 64 - 1)) 0).finish ((u.ctx s.cur).bundles + 1)
  if x.frontier.isNone && (x.remove ks).held.isEmpty && decide (out.length < h.count) then closeSession (clusterOf s.cur) v
  else setSession s.cur (x.remove ks) v

theorem issueAlone_clpull {out : List Nat} {ks : List W64} (ht : TileIs s a slot h) (hf : h.fmt = 14) (ho : OwnSession s x)
    (hready : x.ready ≠ [] ∨ x.frontier = none) (hemit : emit x.kind h.count 0 x.ready = .ok (out, ks)) (hown : ownSlot s s.cur slot = .ok ()) :
    issueAlone (.clpull g a) s = .ok (does (pullAct s slot h x out ks)) := by
  have hr : (!x.ready.isEmpty || x.frontier.isNone) = true := by
    rcases hready with hr | hr
    · simp [hr]
    · simp [hr]
  refine (Chk.bind_of_ok (tileOperand_ok ht)).trans ((Chk.bind_of_true (beq_iff_eq.mpr hf)).trans ((Chk.bind_of_ok (ownSession_ok ho)).trans
    ((Chk.bind_of_true hr).trans ?_)))
  show (match emit x.kind h.count 0 x.ready with | .error (j, hi) => _ | .ok (out, ks) => _) = _
  rw [hemit]
  exact Chk.bind_of_ok hown

@[simp] theorem Tile.finish_data (t : Tile) (j : Nat) : (t.finish j).data = t.data := by
  unfold Tile.finish
  split <;> rfl

theorem State.tile_modTile_same (s : State) (k slot : Nat) (f : Tile → Tile) : (s.modTile k slot f).tile k slot = f (s.tile k slot) := by
  simp [State.modTile, State.modCore, State.setCore, State.tile, State.core, Core.setTile, Core.tile]

theorem pullAct_tile {out : List Nat} {ks : List W64} (u : State) : ((pullAct s slot h x out ks u).tile (coreOf s.cur) slot).data =
    h.fill (s.tile (coreOf s.cur) slot).data fun i j => out.getD (i * h.cols + j) (2 ^ 64 - 1) := by
  set v := u.modTile (coreOf s.cur) slot fun t =>
    (t.write h.sectors (h.fill (s.tile (coreOf s.cur) slot).data fun i j => out.getD (i * h.cols + j) (2 ^ 64 - 1)) 0).finish ((u.ctx s.cur).bundles + 1)
    with hv
  have hcores : (pullAct s slot h x out ks u).cores = v.cores := by
    unfold pullAct
    dsimp only
    split
    · exact (closeSession_spec ..).2.1
    · rfl
  have hcore : (pullAct s slot h x out ks u).core (coreOf s.cur) = v.core (coreOf s.cur) := by rw [State.core, hcores]; rfl
  rw [State.tile, hcore]
  show (v.tile (coreOf s.cur) slot).data = _
  rw [hv, State.tile_modTile_same, Tile.finish_data]
  rfl

theorem pullAct_session {out : List Nat} {ks : List W64} (u : State) : ((pullAct s slot h x out ks u).cluster (clusterOf s.cur)).session =
    if x.frontier = none ∧ (x.remove ks).held = [] ∧ out.length < h.count then none else some (x.remove ks) := by
  unfold pullAct
  dsimp only
  by_cases hclose : x.frontier = none ∧ (x.remove ks).held = [] ∧ out.length < h.count
  · rw [if_pos hclose, if_pos (by simp [hclose.1, hclose.2.1, hclose.2.2])]
    exact (closeSession_spec ..).1
  · rw [if_neg hclose, if_neg (by simpa [and_assoc] using hclose)]
    exact setSession_session ..

end

/-- Settles O45: each form by its checks, and the session it leaves in its cluster. -/
theorem clearingForms : Obligations.ClearingForms := by
  intro g a n own canTake clean
  have ownSess {s : State} {x : Session} (h : own s x) : OwnSession s x := ⟨h.1, h.2⟩
  have opened {x : Session} (h : canTake x) : streamOpen x n.toNat = .ok () := streamOpen_ok h.1 h.2
  refine ⟨?cfg, ?push, ?sealed, ?pull, ?close, ?none⟩
  case cfg =>
    intro s slot h d hs ht hd hc hf hn hfree hbase hkind hpos hmask hrest
    refine ⟨_, openedSession s h d,
      exec_completes slotAlone_of_not_hdrT hs (issueAlone_clcfg ht hd hc hf hn hfree ⟨hbase, hkind, hpos, hmask, hrest⟩), ?_,
      rfl, rfl, rfl, rfl, rfl, rfl, rfl⟩
    rw [done_session]
    exact setSession_session ..
  case push =>
    intro s slot h d x hs ht hd hc hf ho hopen es hrise hfol hroom
    obtain ⟨y, hy, hbuf, hruns⟩ := pushAct_session (n := n) (ownSess ho) (es := es) hroom
    refine ⟨_, y, exec_completes slotAlone_of_not_hdrT hs (issueAlone_clpush ht hd hc hf (ownSess ho) (opened hopen) ⟨hrise, hfol, hroom⟩), ?_, ?_⟩
    · rw [done_session]
      exact hy
    · rw [Session.held, hbuf, hruns, List.map_append, List.map_append, pushed_data]
  case sealed =>
    intro s x hs ho hopen
    exact exec_completes slotAlone_of_not_hdrT hs (issueAlone_clseal (ownSess ho) (opened hopen))
  case pull =>
    intro s slot h x out ks hs ht hf ho hready hemit hown
    refine ⟨_, exec_completes slotAlone_of_not_hdrT hs (issueAlone_clpull ht hf (ownSess ho) hready hemit hown), ?_, ?_⟩
    · rw [done_tile]
      exact pullAct_tile s
    · rw [done_session]
      exact pullAct_session s
  case close =>
    intro s x hs ho
    refine ⟨_, exec_completes slotAlone_of_not_hdrT hs (c := does (closeSession (clusterOf s.cur))) (Chk.bind_of_ok (ownSession_ok (ownSess ho))), ?_, ?_,
      fun m hm => ?_⟩
    · rw [done_session]
      exact (closeSession_spec ..).1
    · rw [done_mem]
      exact (closeSession_spec ..).2.2.2
    · have hctx : (closeSession (clusterOf s.cur) s).ctx s.cur = s.ctx s.cur := by
        rw [State.ctx, (closeSession_spec ..).2.2.1]
        rfl
      rw [done_reg _ _ _ (by rw [hctx]; exact hm), hctx]
  case none =>
    intro i hi
    have noSession {s : State} (h : ∀ x, ¬own s x) : ownSession s s.cur = .error (.trap 0x0F 1) := ownSession_none fun x hx => h x ⟨hx.is, hx.group⟩
    simp only [List.mem_cons, List.not_mem_nil, or_false] at hi
    rcases hi with rfl | rfl
    · exact trapsWhen_of_issue slotAlone_of_not_hdrT fun s h => Chk.bind_of_error (noSession h)
    · exact trapsWhen_of_issue slotAlone_of_not_hdrT fun s h => Chk.bind_of_error (noSession h)

end Sys2Proof.Machine
end

section
/-! PROOF. Transform units (R308 to R325): what a trigger starts, and what starting leaves of the unit. -/
set_option Elab.async false
namespace Sys2Proof.Machine

/-! ## What leaves every unit as it was -/

/-- The units of every cluster are those of another state. -/
structure SameUnits (s t : State) : Prop where
  xfu : ∀ cl n, t.xfu cl n = s.xfu cl n

theorem SameUnits.refl (s : State) : SameUnits s s := ⟨fun _ _ => rfl⟩
theorem SameUnits.trans {s t u : State} (h : SameUnits s t) (k : SameUnits t u) : SameUnits s u :=
  ⟨fun cl n => (k.xfu cl n).trans (h.xfu cl n)⟩

theorem SameUnits.of_clusters {s t : State} (h : t.clusters = s.clusters) : SameUnits s t :=
  ⟨fun cl n => by simp [State.xfu, State.cluster, h]⟩

theorem SameUnits.foldl {β : Type} (f : State → β → State) (hf : ∀ s x, SameUnits s (f s x)) (l : List β) (s : State) : SameUnits s (l.foldl f s) := by
  induction l generalizing s with
  | nil => exact .refl s
  | cons x l ih => exact (hf s x).trans (ih _)

theorem SameUnits.of_engines {s t : State} (h : SameEngines s t) : SameUnits s t :=
  ⟨fun cl n => by simp only [State.xfu, Cluster.xfu, (h.clusters cl).1]⟩

theorem violation_units (src cause p place : Nat) (a : W64) (s : State) : SameUnits s (violation src cause p place a s) := .of_clusters rfl

theorem errorRecord_units (sev str : Nat) (p : Option Nat) (place : Nat) (a : W64) (s : State) : SameUnits s (errorRecord sev str p place a s) := by
  unfold errorRecord
  dsimp only
  split
  · split <;> exact .of_clusters rfl
  · exact .of_clusters rfl

theorem consumed_units (g : Nat) (info : W64) (s : State) : SameUnits s (consumed g info s) := errorRecord_units ..

theorem modCluster_units {k : Nat} {f : Cluster → Cluster} (s : State) (hf : (f (s.cluster k)).xfus = (s.cluster k).xfus) : SameUnits s (s.modCluster k f) := by
  refine ⟨fun cl n => ?_⟩
  by_cases h : cl = k
  · subst h
    simp [State.xfu, Cluster.xfu, hf]
  · simp [State.xfu, h]

theorem freezeChannel_units (cl ch cause part : Nat) (a : W64) (s : State) : SameUnits s (freezeChannel cl ch cause part a s) := by
  unfold freezeChannel
  dsimp only
  split
  · exact .refl s
  · exact (modCluster_units (k := cl) (f := fun c => { c with frozenChannels := c.frozenChannels ++ [ch] }) s rfl).trans (violation_units ..)

theorem decideSpace_units (v : Nat) (s : State) : SameUnits s (decideSpace v s) := by
  unfold decideSpace
  dsimp only
  split
  · exact .refl s
  · refine .foldl _ (fun s b => ?_) _ _
    split
    · exact .refl s
    · refine .trans ?_ (.foldl _ (fun s c => freezeChannel_units ..) _ _)
      have hv : SameUnits s (s.each ((s.ctxs.filter fun c => c.2.part == b.1 && c.2.run.frozenElse).map (·.1)
          ++ (s.saves.filter fun x => x.2.ctx.part == b.1 && x.2.ctx.run.frozenElse).map fun x => x.2.home)
          fun g s => violation 0 0x0A b.1 g (BitVec.ofNat 64 (512 * b.2)) s) := SameUnits.foldl _ (fun s g => violation_units ..) _ s
      exact hv.trans (.of_clusters rfl)

theorem noteLine_units (l : Nat) (s : State) : SameUnits s (noteLine l s) := by
  have hold : ∀ v p, SameUnits s (holdWrite v l p s) := fun v p =>
    (SameUnits.of_clusters (State.modVault_clusters ..)).trans (errorRecord_units ..)
  unfold noteLine
  split
  · exact .refl s
  · dsimp only
    split
    · exact .refl s
    · split
      · exact hold ..
      · split
        · exact (SameUnits.of_clusters (State.modVault_clusters ..)).trans (decideSpace_units ..)
        · exact hold ..

theorem noteLines_units (a n : Nat) (s : State) : SameUnits s (noteLines a n s) := by
  unfold noteLines
  split
  · exact .refl s
  · exact .foldl _ (fun s l => noteLine_units ..) _ _

theorem mintStore_units (g off : Nat) (bs : List Byte) (s : State) : SameUnits s (mintStore g off bs s) := by
  refine .of_clusters ?_
  unfold mintStore
  split
  · rfl
  · split
    · rfl
    · dsimp only
      split <;> rfl

theorem writePlace_units (p : Place) (bs : List Byte) (s : State) : SameUnits s (writePlace p bs s) := by
  cases p with
  | dp base lay off => cases lay with
    | false =>
      have h : SameUnits s { s with
          mem := writeBytes s.mem (base + off) bs
          poison := s.poison.filter fun x => !decide (base + off ≤ 64 * x ∧ 64 * x + 64 ≤ base + off + bs.length) } := .of_clusters rfl
      exact h.trans (noteLines_units ..)
    | true =>
      have h : SameUnits s { s with mem := bs.zipIdx.foldl (fun m b => writeByte m (dpByte base true off b.2) b.1) s.mem } := .of_clusters rfl
      exact h.trans (noteLines_units ..)
  | scratch g off => exact .of_clusters rfl
  | csram k off => exact .of_clusters rfl
  | mint g off => exact mintStore_units ..

theorem writeSectors_units (l : List Sector) (bs : List Byte) (s : State) : SameUnits s (writeSectors l bs s) := by
  induction l generalizing bs s with
  | nil => exact .refl s
  | cons x l ih => exact (writePlace_units ..).trans (ih ..)

theorem touchRead_units (l : List Sector) (s : State) : SameUnits s (touchRead l s) := by
  refine SameUnits.foldl (fun s f => touchFrame f s) (fun s f => ?_) _ s
  unfold touchFrame
  dsimp only
  split
  · exact .of_clusters rfl
  · exact .refl s

theorem zmove_units (un : Bool) (dst : List Sector) (va : Nat) (src : List Byte) (clean : Nat) (s : State) : SameUnits s (zmove un dst va src clean s) := by
  unfold zmove
  dsimp only
  split
  · exact writeSectors_units ..
  · refine .foldl _ (fun s g => ?_) _ _
    split
    · split
      · exact writePlace_units ..
      · exact writePlace_units ..
      · exact writePlace_units ..
      · exact .refl s
    · exact .refl s

theorem bump_units (s : State) : SameUnits s s.bump := .of_clusters rfl

theorem State.xfu_modXfu_same (s : State) (cl n : Nat) (f : Xfu → Xfu) : (s.modXfu cl n f).xfu cl n = f (s.xfu cl n) := by
  simp [State.modXfu, State.xfu, Cluster.xfu]

/-! ## A trigger that passed its checks (R311, R312, R315) -/

/-- What starting does. -/
def startAct (g cl n op : Nat) (j : XfuJob) (l : List Sector) (whole : List Nat) (p : Option W64) (f : State → State) (u : State) : State :=
  let u := touchRead l u
  let u := match p with
    | some info => consumed g info (f u)
    | none => f u
  let u := match j.slot with
    | some slot => u.modTile (coreOf g) slot (Tile.issueWrite whole)
    | none => u
  (u.modXfu cl n fun x => { x with job := some { j with frames := framesOf l, seq := (u.ctx g).memSeq }
                                   op := op, owner := some g, wrote := false }).modCtx g Ctx.nextSeq

/-- A unit that is idle, and free or the context's own, with the slot of its tile free and its accesses in their order. -/
structure UnitFree (s : State) (n : Nat) (slot : Option Nat) (l : List Sector) : Prop where
  idle : (s.xfu (clusterOf s.cur) n).job = none
  owner : ∀ o, (s.xfu (clusterOf s.cur) n).owner = some o → o = s.cur
  slot : ∀ k, slot = some k → ownSlot s s.cur k = .ok ()
  order : inOrder s s.cur (s.xfu (clusterOf s.cur) n).oc l = .ok ()

section
variable {s : State} {n op : Nat} {j : XfuJob} {l : List Sector} {whole : List Nat} {p : Option W64} {f : State → State} {e : Env}

theorem owner_all {o : Option Nat} {g : Nat} (h : ∀ k, o = some k → k = g) : (o.all (· == g)) = true :=
  (Option.all_eq_true _ _).mpr fun k hk => beq_iff_eq.mpr (h k hk)

theorem startXfu_ok (hg : e.g = s.cur) (hu : UnitFree s n j.slot l) :
    startXfu e (clusterOf s.cur) n (s.xfu (clusterOf s.cur) n) op j l whole p f s = .ok (does (startAct s.cur (clusterOf s.cur) n op j l whole p f)) := by
  have hidle : (s.xfu (clusterOf s.cur) n).job.isNone = true := by
    rw [hu.idle]
    rfl
  unfold startXfu
  rw [hg]
  refine (Chk.bind_of_true (owner_all hu.owner)).trans ((Chk.bind_of_true hidle).trans ?_)
  rcases hj : j.slot with _ | k
  · refine (Chk.bind_of_ok hu.order).trans ?_
    refine congrArg (fun f => Except.ok (does f)) (funext fun u => ?_)
    simp only [startAct, hj] <;> rfl
  · refine (Chk.bind_of_ok (hu.slot k hj)).trans ((Chk.bind_of_ok hu.order).trans ?_)
    refine congrArg (fun f => Except.ok (does f)) (funext fun u => ?_)
    simp only [startAct, hj] <;> rfl

/-- What starting leaves of the unit: its operation and its owner; its ports are as they were. -/
theorem startAct_xfu (cl : Nat) (hf : ∀ u, SameUnits u (f u)) (u : State) : ∃ fr q,
    (startAct s.cur cl n op j l whole p f u).xfu cl n =
      { u.xfu cl n with job := some { j with frames := fr, seq := q }, op := op, owner := some s.cur, wrote := false } := by
  have h1 : SameUnits u (match p with | some info => consumed s.cur info (f (touchRead l u)) | none => f (touchRead l u)) := by
    refine (touchRead_units l u).trans ((hf _).trans ?_)
    cases p with
    | none => exact .refl _
    | some info => exact consumed_units ..
  set v := (match p with | some info => consumed s.cur info (f (touchRead l u)) | none => f (touchRead l u)) with hv
  have h2 : SameUnits u (match j.slot with | some slot => v.modTile (coreOf s.cur) slot (Tile.issueWrite whole) | none => v) := by
    refine h1.trans ?_
    cases j.slot with
    | none => exact .refl _
    | some slot => exact .of_clusters rfl
  set w := (match j.slot with | some slot => v.modTile (coreOf s.cur) slot (Tile.issueWrite whole) | none => v) with hw
  refine ⟨framesOf l, (w.ctx s.cur).memSeq, ?_⟩
  show ((w.modXfu cl n fun x => { x with job := some { j with frames := framesOf l, seq := (w.ctx s.cur).memSeq }
                                         op := op, owner := some s.cur, wrote := false }).modCtx s.cur Ctx.nextSeq).xfu cl n = _
  rw [(SameUnits.of_clusters (State.modCtx_clusters ..)).xfu cl n, State.xfu_modXfu_same, h2.xfu cl n]

/-- The slot a trigger will write is empty. -/
theorem startAct_tile {k : Nat} (cl : Nat) (hk : j.slot = some k) (u : State) :
    ((startAct s.cur cl n op j l whole p f u).tile (coreOf s.cur) k).full = false := by
  unfold startAct
  rw [hk]
  set v := (match p with | some info => consumed s.cur info (f (touchRead l u)) | none => f (touchRead l u))
  show ((v.modTile (coreOf s.cur) k (Tile.issueWrite whole)).tile (coreOf s.cur) k).full = false
  rw [State.tile_modTile_same]
  rfl

/-- A trigger starts its operation on a unit. -/
def Starts (i : Instr) (s : State) (n op : Nat) (slot : Option Nat) : Prop :=
  ∃ t j, exec i s = .next t ∧ (t.xfu (clusterOf s.cur) n).job = some j ∧ j.op = op ∧ j.ctx = s.cur ∧ j.slot = slot
    ∧ (t.xfu (clusterOf s.cur) n).op = op ∧ (t.xfu (clusterOf s.cur) n).owner = some s.cur
    ∧ (∀ k, slot = some k → (t.tile (coreOf s.cur) k).full = false)
    ∧ (t.xfu (clusterOf s.cur) n).ports = (s.xfu (clusterOf s.cur) n).ports

theorem starts_of_startXfu {i : Instr} (hi : SlotAlone i) (hs : Issues i s) (hu : UnitFree s n j.slot l) (hop : j.op = op) (hctx : j.ctx = s.cur)
    (hf : ∀ u, SameUnits u (f u))
    (hissue : issueAlone i s = startXfu (alone i s).env (clusterOf s.cur) n (s.xfu (clusterOf s.cur) n) op j l whole p f s) :
    Starts i s n op j.slot := by
  obtain ⟨fr, q, hx⟩ := startAct_xfu (s := s) (n := n) (op := op) (j := j) (l := l) (whole := whole) (p := p) (clusterOf s.cur) hf s
  set act := startAct s.cur (clusterOf s.cur) n op j l whole p f with hact
  have hxfu : (done i (does act) s).xfu (clusterOf s.cur) n = _ := ((SameUnits.of_engines (done_engines i act s)).xfu (clusterOf s.cur) n).trans hx
  refine ⟨_, { j with frames := fr, seq := q }, exec_completes hi hs (hissue.trans (startXfu_ok rfl hu)), ?_, hop, hctx, rfl, ?_, ?_, fun k hk => ?_, ?_⟩
  · rw [hxfu]
  · rw [hxfu]
  · rw [hxfu]
  · rw [done_tile]
    exact startAct_tile (clusterOf s.cur) hk s
  · rw [hxfu]

end

/-! ## Ports and tiles (R312 to R314) -/

section
variable {s : State} {x : Xfu} {u : BitVec 3} {n : Nat}

theorem unitOf_ok {g k n : Nat} (h : (s.group (s.ctx g).group).units[k]? = some n) : unitOf s g k = .ok n := by
  unfold unitOf
  rw [h]

theorem unitOf_none {g k : Nat} (h : (s.group (s.ctx g).group).units[k]? = none) : unitOf s g k = .error (.trap 0x0B 7) := by
  unfold unitOf
  rw [h]

theorem optsCheck_decode (h : tget 0 x.ports 4 &&& 0xFFFFFFFFFFFFFF0C = 0) : optsCheck x true = .ok () := by
  refine if_pos ?_
  simpa using h

theorem optsCheck_other (h : tget 0 x.ports 4 &&& 0xFFFFFFFFFFFFFF0F = 0) : optsCheck x false = .ok () := by
  have part (m : W64) (hm : (0xFFFFFFFFFFFFFF0F : W64) &&& m = m) : tget 0 x.ports 4 &&& m = 0 := by
    rw [← hm, ← BitVec.and_assoc, h]
    exact BitVec.zero_and
  refine if_pos ?_
  rw [part 0xFFFFFFFFFFFFFF0C#64 (by decide), part 3#64 (by decide)]
  rfl

/-- The tile DTILE names. -/
structure DTile (s : State) (x : Xfu) (slot : Nat) (h : Hdr) : Prop where
  index : x.port 2 < 32
  tile : TileIs s (BitVec.ofNat 5 (x.port 2)) slot h
  settled : (s.ctx s.cur).pending (.tc (x.port 2)) = false

theorem dtile_ok {slot : Nat} {h : Hdr} (ht : DTile s x slot h) : dtile s s.cur x = .ok (slot, h) := by
  have hmod : x.port 2 % 32 = x.port 2 := Nat.mod_eq_of_lt ht.index
  have hnat : (BitVec.ofNat 5 (x.port 2)).toNat = x.port 2 := by
    rw [BitVec.toNat_ofNat]
    exact hmod
  obtain ⟨hcount, hvalid, rfl, rfl⟩ := ht.tile
  rw [hnat] at hcount hvalid ⊢
  unfold dtile
  rw [hmod]
  have hpend : (!(s.ctx s.cur).pending (.tc (x.port 2))) = true := by
    rw [ht.settled]
    rfl
  exact (Chk.bind_of_true hpend).trans ((Chk.bind_of_true (decide_eq_true hcount)).trans (Chk.bind_of_true hvalid))

theorem DTile.short {slot : Nat} {h : Hdr} (ht : DTile s x slot h) : (x.port 2 / 32 == 0) = true := by
  have := ht.index
  rw [beq_iff_eq]
  omega

theorem portCheck_bind {α : Type} {ok : Bool} {v : Nat} {f : Unit → Chk α} (h : ok = true) : (portCheck ok v >>= f) = f () := Chk.bind_of_true h

end

/-! ## The triggers -/

section
variable {g u : BitVec 3} {r : BitVec 6} {s : State} {n slot : Nat} {h : Hdr} {l : List Sector}

/-- The unit a trigger of the issuing context names. -/
def State.ownUnit (s : State) (n : Nat) : Xfu := s.xfu (clusterOf s.cur) n

/-- The job of a DECODE that starts. -/
def decodeJob (s : State) (x : Xfu) (slot : Nat) (h : Hdr) (l : List Sector) : XfuJob :=
  let blk := readSectors s (l.take (x.port 5 / 64))
  let tbl := if x.tbl then some (readSectors s (l.drop (x.port 5 / 64))) else none
  let r := if (poisonOf s l).isSome then { err := 6, out := [] } else decodeRun blk tbl h.image x.cont x.valid x.hist x.histLen
  let w := if x.cont then min 128 x.histLen else 0
  let j : XfuJob := { x.keep 0 s.cur r.err with
    slot := some slot, hdr := (s.ctx s.cur).tc (x.port 2 % 32), blk := blk, runLens := effLens blk tbl, carried := w
    nibs := if x.cont then histNibs x.hist w else [], oldLens := x.lens, oldHist := x.hist, oldLen := x.histLen }
  j.decoded r

/-- The ports of a DECODE in their limits. -/
structure DecodePorts (x : Xfu) : Prop where
  opts : tget 0 x.ports 4 &&& 0xFFFFFFFFFFFFFF0C = 0
  src : x.port 0 % 64 = 0
  len : x.port 5 % 64 = 0
  lo : 64 ≤ x.port 5
  hi : x.port 5 ≤ 16384
  table : x.tbl = true → x.port 3 % 16 = 0 ∧ overlap (x.port 0) (x.port 5) (x.port 3) 16 = false

theorem issueAlone_xfuDecode (hn : (s.group (s.ctx s.cur).group).units[u.toNat]? = some n) (ht : DTile s (s.ownUnit n) slot h)
    (hp : DecodePorts (s.ownUnit n))
    (hl : accessR s s.cur (rangePieces ((s.ownUnit n).port 0) ((s.ownUnit n).port 5) .r
      ++ if (s.ownUnit n).tbl then rangePieces ((s.ownUnit n).port 3) 16 .r else []) (s.ownUnit n).oc anyClass = .ok l) :
    issueAlone (.xfuDecode g u r) s = startXfu (alone (.xfuDecode g u r) s).env (clusterOf s.cur) n (s.ownUnit n) 0
      (decodeJob s (s.ownUnit n) slot h l) l (List.range 64) (poisonOf s l) id s := by
  have hlen : ((s.ownUnit n).port 5 % 64 == 0 && decide (64 ≤ (s.ownUnit n).port 5 ∧ (s.ownUnit n).port 5 ≤ 16384)) = true := by
    rw [hp.len, decide_eq_true ⟨hp.lo, hp.hi⟩]
    rfl
  have htab : (!(s.ownUnit n).tbl || (s.ownUnit n).port 3 % 16 == 0) = true := by
    cases htbl : (s.ownUnit n).tbl
    · rfl
    · simpa using (hp.table htbl).1
  have hover : (!(s.ownUnit n).tbl || !overlap ((s.ownUnit n).port 0) ((s.ownUnit n).port 5) ((s.ownUnit n).port 3) 16) = true := by
    cases htbl : (s.ownUnit n).tbl
    · rfl
    · simpa using (hp.table htbl).2
  exact (Chk.bind_of_ok (unitOf_ok hn)).trans ((Chk.bind_of_ok (dtile_ok ht)).trans ((Chk.bind_of_ok (optsCheck_decode hp.opts)).trans
    ((portCheck_bind ht.short).trans ((portCheck_bind (beq_iff_eq.mpr hp.src)).trans ((portCheck_bind hlen).trans ((portCheck_bind htab).trans
    ((portCheck_bind hover).trans (Chk.bind_of_ok hl))))))))

/-- The ports of ZORDER and UNZ in their limits. -/
structure BlockPorts (x : Xfu) : Prop where
  opts : tget 0 x.ports 4 &&& 0xFFFFFFFFFFFFFF0F = 0
  src : x.port 0 % 4096 = 0
  len : x.port 1 % 4096 = 0
  lo : 4096 ≤ x.port 1
  hi : x.port 1 ≤ 262144
  dst : x.port 6 % 4096 = 0
  apart : overlap (x.port 0) (x.port 1) (x.port 6) (x.port 1) = false

theorem issueZ_eq {e : Env} (hg : e.g = s.cur) (op : Nat) (un : Bool) (hn : (s.group (s.ctx s.cur).group).units[u.toNat]? = some n)
    (hp : BlockPorts (s.ownUnit n))
    (hl : accessR s s.cur (rangePieces ((s.ownUnit n).port 0) ((s.ownUnit n).port 1) .r ++ rangePieces ((s.ownUnit n).port 6) ((s.ownUnit n).port 1) .w)
      (s.ownUnit n).oc anyClass = .ok l) :
    issueZ e u op un s = startXfu e (clusterOf s.cur) n (s.ownUnit n) op
      ((s.ownUnit n).keep op s.cur (if cleanLen s (l.take ((s.ownUnit n).port 1 / 64)) < (s.ownUnit n).port 1 then 6 else 0)) l []
      (poisonOf s (l.take ((s.ownUnit n).port 1 / 64)))
      (zmove un (l.drop ((s.ownUnit n).port 1 / 64)) ((s.ownUnit n).port 6) (readSectors s (l.take ((s.ownUnit n).port 1 / 64)))
        (cleanLen s (l.take ((s.ownUnit n).port 1 / 64)))) s := by
  have hlen : ((s.ownUnit n).port 1 % 4096 == 0 && decide (4096 ≤ (s.ownUnit n).port 1 ∧ (s.ownUnit n).port 1 ≤ 262144)) = true := by
    rw [hp.len, decide_eq_true ⟨hp.lo, hp.hi⟩]
    rfl
  have hover : (!overlap ((s.ownUnit n).port 0) ((s.ownUnit n).port 1) ((s.ownUnit n).port 6) ((s.ownUnit n).port 1)) = true := by
    rw [hp.apart]
    rfl
  obtain ⟨k, gd⟩ := e
  obtain rfl : k = s.cur := hg
  exact (Chk.bind_of_ok (unitOf_ok hn)).trans ((Chk.bind_of_ok (optsCheck_other hp.opts)).trans ((portCheck_bind (beq_iff_eq.mpr hp.src)).trans
    ((portCheck_bind hlen).trans ((portCheck_bind (beq_iff_eq.mpr hp.dst)).trans ((portCheck_bind hover).trans (Chk.bind_of_ok hl))))))

/-- The ports of COPY in their limits. -/
structure CopyPorts (x : Xfu) : Prop where
  opts : tget 0 x.ports 4 &&& 0xFFFFFFFFFFFFFF0F = 0
  src : x.port 0 % 64 = 0
  len : x.port 1 % 64 = 0
  lo : 64 ≤ x.port 1
  hi : x.port 1 ≤ 4096

/-- The job of a COPY that starts. -/
def copyJob (s : State) (x : Xfu) (slot : Nat) (h : Hdr) (l : List Sector) : XfuJob :=
  let d := setBits (s.tile (coreOf s.cur) slot).data 0 (BitVec.ofNat (8 * cleanLen s l) (leNat ((readSectors s l).take (cleanLen s l))))
  { x.keep 3 s.cur (if cleanLen s l < x.port 1 then 6 else 0) with
    slot := some slot, newData := d, status := h.statusBelow d (cleanLen s l), zeroStatus := h.status 0 false }

theorem issueAlone_xfuCopy (hn : (s.group (s.ctx s.cur).group).units[u.toNat]? = some n) (ht : DTile s (s.ownUnit n) slot h)
    (hp : CopyPorts (s.ownUnit n))
    (hl : accessR s s.cur (rangePieces ((s.ownUnit n).port 0) ((s.ownUnit n).port 1) .r) (s.ownUnit n).oc anyClass = .ok l) :
    issueAlone (.xfuCopy g u r) s = startXfu (alone (.xfuCopy g u r) s).env (clusterOf s.cur) n (s.ownUnit n) 3
      (copyJob s (s.ownUnit n) slot h l) l (List.range (cleanLen s l / 64)) (poisonOf s l) id s := by
  have hlen : ((s.ownUnit n).port 1 % 64 == 0 && decide (64 ≤ (s.ownUnit n).port 1 ∧ (s.ownUnit n).port 1 ≤ 4096)) = true := by
    rw [hp.len, decide_eq_true ⟨hp.lo, hp.hi⟩]
    rfl
  exact (Chk.bind_of_ok (unitOf_ok hn)).trans ((Chk.bind_of_ok (dtile_ok ht)).trans ((Chk.bind_of_ok (optsCheck_other hp.opts)).trans
    ((portCheck_bind ht.short).trans ((portCheck_bind (beq_iff_eq.mpr hp.src)).trans ((portCheck_bind hlen).trans (Chk.bind_of_ok hl))))))

/-- The tile and the ports of UNPACK4 in their limits. -/
structure UnpackPorts (x : Xfu) (h : Hdr) : Prop where
  fmt : h.fmt ≤ 5 ∨ h.fmt = 11
  even : h.count % 2 = 0
  opts : tget 0 x.ports 4 &&& 0xFFFFFFFFFFFFFF0F = 0
  src : x.port 0 % 64 = 0
  tbl : x.port 3 % 64 = 0
  apart : overlap (x.port 0) (h.count / 2) (x.port 3) (16 * (fmtBits h.fmt / 8)) = false

/-- An element of an UNPACK4: the table's entry that a nibble selects. -/
def unpackElem (s : State) (x : Xfu) (h : Hdr) (l : List Sector) (k : Nat) : Nat :=
  let m := (pieces (x.port 0) (h.count / 2)).length
  let wid := fmtBits h.fmt / 8
  leNat (readSectors s (l.drop m)) / 2 ^ (8 * wid * (leNat (readSectors s (l.take m)) / 2 ^ (4 * k) % 16)) % 2 ^ (8 * wid)

/-- How much of the codes of an UNPACK4 is clean. -/
def unpackClean (s : State) (x : Xfu) (h : Hdr) (l : List Sector) : Nat :=
  let m := (pieces (x.port 0) (h.count / 2)).length
  if (poisonOf s (l.drop m)).isSome then 0 else cleanLen s (l.take m)

/-- The elements an UNPACK4 writes one by one. -/
def unpackIdx (s : State) (x : Xfu) (h : Hdr) (l : List Sector) : List (Nat × Nat) :=
  (List.range (2 * unpackClean s x h l)).map fun k => (h.index (k / h.cols) (k % h.cols), unpackElem s x h l k)

/-- The job of an UNPACK4 that starts. -/
def unpackJob (s : State) (x : Xfu) (slot : Nat) (h : Hdr) (l : List Sector) : XfuJob :=
  let old := (s.tile (coreOf s.cur) slot).data
  let d := if unpackClean s x h l = h.count / 2 then h.fill old fun i j => unpackElem s x h l (i * h.cols + j)
    else (unpackIdx s x h l).foldl (fun d p => setElem d h.fmt p.1 p.2) old
  { x.keep 4 s.cur (if unpackClean s x h l < h.count / 2 then 6 else 0) with
    slot := some slot, newData := d, status := statusOf h.fmt d ((unpackIdx s x h l).map (·.1)) false, zeroStatus := h.status 0 false }

theorem issueAlone_xfuUnpack4 (hn : (s.group (s.ctx s.cur).group).units[u.toNat]? = some n) (ht : DTile s (s.ownUnit n) slot h)
    (hp : UnpackPorts (s.ownUnit n) h)
    (hl : accessR s s.cur (rangePieces ((s.ownUnit n).port 0) (h.count / 2) .r
      ++ rangePieces ((s.ownUnit n).port 3) (16 * (fmtBits h.fmt / 8)) .r) (s.ownUnit n).oc anyClass = .ok l) :
    issueAlone (.xfuUnpack4 g u r) s = startXfu (alone (.xfuUnpack4 g u r) s).env (clusterOf s.cur) n (s.ownUnit n) 4
      (unpackJob s (s.ownUnit n) slot h l) l
      (if unpackClean s (s.ownUnit n) h l = h.count / 2 then h.sectors else wholeSectors h.fmt ((unpackIdx s (s.ownUnit n) h l).map (·.1)))
      (poisonOf s l) id s := by
  have hfmt : unpackFmt h.fmt = true := by simpa [unpackFmt] using hp.fmt
  have hover : (!overlap ((s.ownUnit n).port 0) (h.count / 2) ((s.ownUnit n).port 3) (16 * (fmtBits h.fmt / 8))) = true := by
    rw [hp.apart]
    rfl
  exact (Chk.bind_of_ok (unitOf_ok hn)).trans ((Chk.bind_of_ok (dtile_ok ht)).trans ((Chk.bind_of_true hfmt).trans
    ((Chk.bind_of_true (beq_iff_eq.mpr hp.even)).trans ((Chk.bind_of_ok (optsCheck_other hp.opts)).trans ((portCheck_bind ht.short).trans
    ((portCheck_bind (beq_iff_eq.mpr hp.src)).trans ((portCheck_bind (beq_iff_eq.mpr hp.tbl)).trans ((portCheck_bind hover).trans
    (Chk.bind_of_ok hl)))))))))

theorem issueAlone_xfuSave (hn : (s.group (s.ctx s.cur).group).units[u.toNat]? = some n)
    (hopts : tget 0 (s.ownUnit n).ports 4 &&& 0xFFFFFFFFFFFFFF0F = 0) (hsrc : (s.ownUnit n).port 0 % 64 = 0)
    (hl : accessR s s.cur (rangePieces ((s.ownUnit n).port 0) 4224 .w) (s.ownUnit n).oc anyClass = .ok l) :
    issueAlone (.xfuSave g u r) s = startXfu (alone (.xfuSave g u r) s).env (clusterOf s.cur) n (s.ownUnit n) 5 ((s.ownUnit n).keep 5 s.cur 0) l [] none
      (writeSectors l ((s.ownUnit n).image u.toNat false 0 0 0)) s :=
  (Chk.bind_of_ok (unitOf_ok hn)).trans ((Chk.bind_of_ok (optsCheck_other hopts)).trans ((portCheck_bind (beq_iff_eq.mpr hsrc)).trans
    (Chk.bind_of_ok hl)))

/-- The job of a LOAD that starts, from the bytes of a saved state. -/
def loadJob (s : State) (x : Xfu) (l : List Sector) : XfuJob :=
  let bs := readSectors s l
  let flags := (bs.getD 42 0)
  let bad := flags.toNat / 16 ≠ 0 || ((bs.drop 53).take 11).any (· != 0)
  let err := if (poisonOf s l).isSome then 6 else if bad then 1 else if bit flags 1 then 8 else 0
  let j := x.keep 6 s.cur err
  if err = 0 then { j with valid := bit flags 0, lens := BitVec.ofNat 68 (leNat ((bs.drop 44).take 9)),
                           hist := BitVec.ofNat 512 (leNat ((bs.drop 64).take 64)),
                           histLen := min 128 (Config.loadedHistory s.tick) }
  else if err = 6 then j else { j with valid := false }

theorem loadJob_kept (x : Xfu) : (loadJob s x l).op = 6 ∧ (loadJob s x l).ctx = s.cur ∧ (loadJob s x l).slot = none := by
  unfold loadJob
  dsimp only
  split_ifs <;> exact ⟨rfl, rfl, rfl⟩

theorem issueAlone_xfuLoad (hn : (s.group (s.ctx s.cur).group).units[u.toNat]? = some n)
    (hopts : tget 0 (s.ownUnit n).ports 4 &&& 0xFFFFFFFFFFFFFF0F = 0) (hsrc : (s.ownUnit n).port 0 % 64 = 0)
    (hl : accessR s s.cur (rangePieces ((s.ownUnit n).port 0) 4224 .r) (s.ownUnit n).oc anyClass = .ok l) :
    issueAlone (.xfuLoad g u r) s = startXfu (alone (.xfuLoad g u r) s).env (clusterOf s.cur) n (s.ownUnit n) 6 (loadJob s (s.ownUnit n) l) l []
      (poisonOf s l) State.bump s :=
  (Chk.bind_of_ok (unitOf_ok hn)).trans ((Chk.bind_of_ok (optsCheck_other hopts)).trans ((portCheck_bind (beq_iff_eq.mpr hsrc)).trans
    (Chk.bind_of_ok hl)))

/-! ## ABORT (R322) -/

/-- What an ABORT of a running operation does. -/
def abortAct (cl n : Nat) (u : State) : State := xfuEnd cl n (cleanSlot (u.xfu cl n) (u.modXfu cl n fun x => { x with job := x.job.map (·.abort x) }))

theorem issueAlone_xfuAbort (hn : (s.group (s.ctx s.cur).group).units[u.toNat]? = some n) (ho : ∀ o, (s.ownUnit n).owner = some o → o = s.cur) :
    issueAlone (.xfuAbort g u r) s = if (s.ownUnit n).job.isNone then nothing else commit (abortAct (clusterOf s.cur) n) :=
  (Chk.bind_of_ok (unitOf_ok hn)).trans (Chk.bind_of_true (owner_all ho))

theorem cleanSlot_units (x : Xfu) (u : State) : SameUnits u (cleanSlot x u) := by
  unfold cleanSlot
  split
  · split
    · exact .of_clusters rfl
    · exact .refl u
  · exact .refl u

theorem xfuEnd_xfu {cl n : Nat} {v : State} {j : XfuJob} (hj : (v.xfu cl n).job = some j) :
    ((xfuEnd cl n v).xfu cl n).job = none ∧ ((xfuEnd cl n v).xfu cl n).err = j.err ∧ ((xfuEnd cl n v).xfu cl n).done = (v.xfu cl n).done + 1 := by
  simp only [xfuEnd, hj]
  rw [State.xfu_modXfu_same]
  have hsame : SameUnits v (match j.slot with
      | some slot => v.modTile (coreOf j.ctx) slot fun t => (t.late j.newData j.status).finish (v.ctx j.ctx).bundles
      | none => v) := by
    split
    · exact .of_clusters rfl
    · exact .refl v
  exact ⟨rfl, rfl, congrArg (fun x : Xfu => x.done + 1) (hsame.xfu cl n)⟩

theorem abortAct_xfu {cl n : Nat} {v : State} {j : XfuJob} (hj : (v.xfu cl n).job = some j) :
    ((abortAct cl n v).xfu cl n).job = none ∧ ((abortAct cl n v).xfu cl n).err = 7 ∧ ((abortAct cl n v).xfu cl n).done = (v.xfu cl n).done + 1 := by
  have hx : (cleanSlot (v.xfu cl n) (v.modXfu cl n fun x => { x with job := x.job.map (·.abort x) })).xfu cl n =
      { v.xfu cl n with job := some (j.abort (v.xfu cl n)) } := by
    rw [(cleanSlot_units ..).xfu, State.xfu_modXfu_same, hj]
    rfl
  have hend := xfuEnd_xfu (congrArg Xfu.job hx)
  rw [hx] at hend
  exact hend

end

/-! ## Transport moves (R308, R310) -/

section
variable {g : BitVec 3} {p : BitVec 8} {r : BitVec 6} {s : State} {n : Nat}

theorem issueAlone_movp (hn : (s.group (s.ctx s.cur).group).units[p.toNat / 32]? = some n) :
    issueAlone (.movp g p r) s = (do
      Chk.need ((s.ownUnit n).owner.all (· == s.cur)) (.block .fullQueue)
      commit fun u => u.modXfu (clusterOf s.cur) n fun x => { x with ports := tset x.ports (p.toNat % 32) (s.rs r), owner := some s.cur, wrote := true }) :=
  Chk.bind_of_ok (unitOf_ok hn)

theorem issueAlone_movfp (hn : (s.group (s.ctx s.cur).group).units[p.toNat / 32]? = some n) :
    issueAlone (.movfp g p r) s = .ok (toS s r (if p.toNat % 32 < 16 then tget 0 (s.ownUnit n).ports (p.toNat % 32) else
      (s.ownUnit n).status (s.suspended (s.ctx s.cur).group n)) 2) :=
  Chk.bind_of_ok (unitOf_ok hn)

end

/-- Twice the width of an element in bits is 16 times its width in bytes, for the formats UNPACK4 writes. -/
theorem unpack_width {f : Nat} (h : f ≤ 5 ∨ f = 11) : 16 * (fmtBits f / 8) = 2 * fmtBits f := by
  have hf : f = 0 ∨ f = 1 ∨ f = 2 ∨ f = 3 ∨ f = 4 ∨ f = 5 ∨ f = 11 := by omega
  rcases hf with rfl | rfl | rfl | rfl | rfl | rfl | rfl <;> rfl

/-- Settles O46: moves by the unit they name, triggers by what starting leaves of it. -/
theorem transformUnits : Obligations.TransformUnits := by
  refine ⟨?moves, ?triggers⟩
  case moves =>
    intro g p r unit
    refine ⟨fun s n hs hn ho => ?movp, fun s n hs hn => ?movfp, fun i hi => ?none, fun s hs hp => ?taken⟩
    case movp => exact exec_completes slotAlone_of_not_hdrT hs ((issueAlone_movp hn).trans (Chk.bind_of_true (owner_all ho)))
    case movfp => exact exec_completes slotAlone_of_not_hdrT hs (issueAlone_movfp hn)
    case none =>
      simp only [List.mem_cons, List.not_mem_nil, or_false] at hi
      rcases hi with rfl | rfl
      · exact trapsWhen_of_issue slotAlone_of_not_hdrT fun s h => Chk.bind_of_error (unitOf_none h)
      · exact trapsWhen_of_issue slotAlone_of_not_hdrT fun s h => Chk.bind_of_error (unitOf_none h)
    case taken =>
      obtain ⟨n, o, hn, ho, hne⟩ := hp
      have htaken : (s.ownUnit n).owner.all (· == s.cur) = false := by
        rw [State.ownUnit, ho]
        exact beq_eq_false_iff_ne.mpr hne
      exact exec_blocks slotAlone_of_not_hdrT hs ((issueAlone_movp hn).trans (Chk.bind_of_false htaken))
  case triggers =>
    intro g u r cl unit P opts oc tile starts first
    have dTile {s : State} {n slot : Nat} {h : Hdr} (ht : tile s n slot h) : DTile s (s.ownUnit n) slot h := ⟨ht.1, ht.2.1, ht.2.2.2⟩
    have onTile {s : State} {n slot : Nat} {h : Hdr} {l : List Sector} (hu : unit s n) (ht : tile s n slot h) (hf : first s n l) :
        UnitFree s n (some slot) l := ⟨hu.2.1, hu.2.2, fun k hk => by rw [← Option.some.inj hk]; exact ht.2.2.1, hf⟩
    have noTile {s : State} {n : Nat} {l : List Sector} (hu : unit s n) (hf : first s n l) : UnitFree s n none l :=
      ⟨hu.2.1, hu.2.2, fun k hk => (nomatch hk), hf⟩
    refine ⟨?decode, ?blocks, ?copy, ?unpack, ?save, ?load, ?idle, ?abort⟩
    case decode =>
      intro s n slot h l hs hu ht hopts hsrc hlen hlo hhi tbl htbl hl hf
      exact starts_of_startXfu (j := decodeJob s (s.ownUnit n) slot h l) slotAlone_of_not_hdrT hs (onTile hu ht hf) rfl rfl (fun v => .refl v)
        (issueAlone_xfuDecode hu.1 (dTile ht) ⟨hopts, hsrc, hlen, hlo, hhi, htbl⟩ hl)
    case blocks =>
      intro i op hi s n l hs hu hopts hsrc hlen hlo hhi hdst hapart hl hf
      have hp : BlockPorts (s.ownUnit n) := ⟨hopts, hsrc, hlen, hlo, hhi, hdst, hapart⟩
      simp only [List.mem_cons, List.not_mem_nil, or_false, Prod.mk.injEq] at hi
      rcases hi with ⟨rfl, rfl⟩ | ⟨rfl, rfl⟩
      · exact starts_of_startXfu (j := (s.ownUnit n).keep 1 s.cur _) slotAlone_of_not_hdrT hs (noTile hu hf) rfl rfl (zmove_units _ _ _ _ _)
          (issueZ_eq rfl 1 false hu.1 hp hl)
      · exact starts_of_startXfu (j := (s.ownUnit n).keep 2 s.cur _) slotAlone_of_not_hdrT hs (noTile hu hf) rfl rfl (zmove_units _ _ _ _ _)
          (issueZ_eq rfl 2 true hu.1 hp hl)
    case copy =>
      intro s n slot h l hs hu ht hopts hsrc hlen hlo hhi hl hf
      exact starts_of_startXfu (j := copyJob s (s.ownUnit n) slot h l) slotAlone_of_not_hdrT hs (onTile hu ht hf) rfl rfl (fun v => .refl v)
        (issueAlone_xfuCopy hu.1 (dTile ht) ⟨hopts, hsrc, hlen, hlo, hhi⟩ hl)
    case unpack =>
      intro s n slot h l hs hu ht hfmt heven hopts hsrc htab hapart hl hf
      exact starts_of_startXfu (j := unpackJob s (s.ownUnit n) slot h l) slotAlone_of_not_hdrT hs (onTile hu ht hf) rfl rfl (fun v => .refl v)
        (issueAlone_xfuUnpack4 hu.1 (dTile ht) ⟨hfmt, heven, hopts, hsrc, htab, by rw [unpack_width hfmt]; exact hapart⟩ hl)
    case save =>
      intro s n l hs hu hopts hsrc hl hf
      have hissue := issueAlone_xfuSave (g := g) (r := r) hu.1 hopts hsrc hl
      have hfree : UnitFree s n ((s.ownUnit n).keep 5 s.cur 0).slot l := noTile hu hf
      exact ⟨starts_of_startXfu (j := (s.ownUnit n).keep 5 s.cur 0) slotAlone_of_not_hdrT hs hfree rfl rfl (fun v => writeSectors_units _ _ v) hissue,
        (exec_completes slotAlone_of_not_hdrT hs (hissue.trans (startXfu_ok rfl hfree))).trans
          (congrArg Host.Outcome.next (done_congr _ none rfl))⟩
    case load =>
      intro s n l hs hu hopts hsrc hl hf
      obtain ⟨hop, hctx, hslot⟩ := loadJob_kept (s := s) (l := l) (s.ownUnit n)
      have hstart := starts_of_startXfu (j := loadJob s (s.ownUnit n) l) (f := State.bump) slotAlone_of_not_hdrT hs (hslot ▸ noTile hu hf) hop hctx
        bump_units (issueAlone_xfuLoad (g := g) (r := r) hu.1 hopts hsrc hl)
      rw [hslot] at hstart
      exact hstart
    case idle =>
      intro s n hs hu
      have hidle : (s.ownUnit n).job.isNone = true := by
        rw [State.ownUnit, hu.2.1]
        rfl
      exact exec_completes slotAlone_of_not_hdrT hs ((issueAlone_xfuAbort hu.1 hu.2.2).trans (if_pos hidle))
    case abort =>
      intro s n j hs hn ho hj
      have hrun : ¬(s.ownUnit n).job.isNone = true := by
        rw [State.ownUnit, hj]
        exact Bool.false_ne_true
      have hx := (SameUnits.of_engines (done_engines (.xfuAbort g u r) (abortAct (clusterOf s.cur) n) s)).xfu (clusterOf s.cur) n
      refine ⟨_, exec_completes slotAlone_of_not_hdrT hs ((issueAlone_xfuAbort hn ho).trans (if_neg hrun)), ?_⟩
      show ((done _ (does _) s).xfu (clusterOf s.cur) n).job = none ∧ ((done _ (does _) s).xfu (clusterOf s.cur) n).err = 7
        ∧ ((done _ (does _) s).xfu (clusterOf s.cur) n).done = _
      rw [hx]
      exact abortAct_xfu hj

end Sys2Proof.Machine
end

section
/-! PROOF. Micro-operations of a running call (R190 to R192). -/
set_option Elab.async false
namespace Sys2Proof.Machine

/-! ## The elements of an accumulator (R186) -/

theorem accAt_accOf (f : Nat → Nat → Nat) {i j : Nat} (hi : i < 32) (hj : j < 32) : accAt (accOf f) i j = f i j % 2 ^ 40 := by
  have hk : 32 * i + j < 1024 := by omega
  rw [accAt, accOf, BitVec.extractLsb'_toNat, BitVec.toNat_ofNat, Nat.mod_eq_of_lt (Laws.packNat_lt 40 _ 1024), Nat.shiftRight_eq_div_pow, Laws.packNat_part 40 _ hk,
    show (32 * i + j) / 32 = i by omega, show (32 * i + j) % 32 = j by omega]

theorem accAt_lt (a : AccBits) (i j : Nat) : accAt a i j < 2 ^ 40 := BitVec.isLt _

/-- An element outside a region keeps its value. -/
theorem accAt_accRegion_outside (a : AccBits) {r0 c0 m n i j : Nat} (f : Nat → Nat → Nat → Nat) (hi : i < 32) (hj : j < 32)
    (h : i < r0 ∨ r0 + m ≤ i ∨ j < c0 ∨ c0 + n ≤ j) : accAt (accRegion a r0 c0 m n f) i j = accAt a i j := by
  rw [accRegion, accAt_accOf _ hi hj, if_neg (by omega), Nat.mod_eq_of_lt (accAt_lt a i j)]

theorem MArray.accBits_setAcc (a : MArray) (k : Nat) (x : AccBits) : (a.setAcc k x).accBits k = x := tget_tset_same ..

/-! ## The end of a call, and the next word -/

section
variable {s : State} {pr : Nat} {m : MicroRun}

theorem State.array_each_arrayWrite (g : Nat) (f : Nat → TileBits → TileBits × BitVec 3) (l : List Nat) (s : State) :
    (s.each l fun slot s => arrayWrite g slot (f slot) s).array pr = s.array pr := by
  unfold State.each
  induction l generalizing s with
  | nil => rfl
  | cons x l ih => exact (ih _).trans rfl

/-- A call that ends leaves the array with nothing running, and all else of it as it was. -/
theorem microFinish_array (hm : (s.array pr).micro = some m) :
    (microFinish pr s).array pr = { s.array pr with micro := none, current := none } := by
  simp only [microFinish, hm, State.array_modArray_same, State.array_each_arrayWrite]

/-- What a word leaves of its array: the next word, or nothing running, and the accumulator `acc'`. -/
def WordLeft (pr : Nat) (e : BitVec 1) (m : MicroRun) (tgt : Option Nat) (m' : MicroRun) (acc' : AccBits) (u : State) : Prop :=
  (if e = 1 ∨ (tgt = none ∧ m.upc % 512 = 511) then (u.array pr).micro = none ∧ (u.array pr).current = none
    else (u.array pr).micro = some { m' with words := m.words + 1, upc := tgt.getD (m.upc + 1) })
  ∧ (u.array pr).accBits m.acc = acc'

theorem microNext_left (hm : (s.array pr).micro = some m) (e : BitVec 1) (target : Option (BitVec 9)) (f : MicroRun → MicroRun)
    (hf : (f m).upc = m.upc ∧ (f m).words = m.words) :
    WordLeft pr e m (target.map fun t => m.upc / 512 * 512 + t.toNat) (f m) ((s.array pr).accBits m.acc) (microNext pr e target f s) := by
  obtain ⟨hupc, hwords⟩ := hf
  set m' : MicroRun := { f m with words := m.words + 1, upc := match target with | some t => m.upc / 512 * 512 + t.toNat | none => m.upc + 1 } with hm'
  have hnext : microNext pr e target f s = if (e == 1 || (m.upc % 512 == 511 && target.isNone)) = true
      then microFinish pr (s.modArray pr fun a => { a with micro := some m' }) else s.modArray pr fun a => { a with micro := some m' } := by
    simp only [microNext, hm, hupc, hwords, hm'] <;> rfl
  rw [hnext]
  have hmicro : ((s.modArray pr fun a => { a with micro := some m' }).array pr) = { s.array pr with micro := some m' } := State.array_modArray_same ..
  have hupc' : (target.map fun t => m.upc / 512 * 512 + t.toNat).getD (m.upc + 1) = m'.upc := by cases target <;> rfl
  by_cases hend : e = 1 ∨ (target = none ∧ m.upc % 512 = 511)
  · have hb : (e == 1 || (m.upc % 512 == 511 && target.isNone)) = true := by
      rcases hend with h | ⟨h, h'⟩
      · simp [h]
      · simp [h, h']
    have hfin := microFinish_array (congrArg MArray.micro hmicro)
    rw [if_pos hb, WordLeft, hfin, hmicro, if_pos (by simpa using hend)]
    exact ⟨⟨rfl, rfl⟩, rfl⟩
  · have hb : ¬(e == 1 || (m.upc % 512 == 511 && target.isNone)) = true := by
      intro hb
      refine hend ?_
      simpa [and_comm] using hb
    rw [if_neg hb, WordLeft, hmicro, if_neg (by simpa using hend), hupc']
    exact ⟨rfl, rfl⟩

theorem microReady_eq (hm : (s.array pr).micro = some m) (hw : m.words < 65536) : microReady pr s = true := by
  simp [microReady, hm, hw]

/-- The array of a running call after a change of its accumulator. -/
theorem microAcc_array (hm : (s.array pr).micro = some m) (f : MicroRun → AccBits → AccBits) :
    (microAcc pr f s).array pr = (s.array pr).setAcc m.acc (f m ((s.array pr).accBits m.acc)) := by
  simp only [microAcc, hm, State.array_modArray_same]

theorem microMeter_array (pr : Nat) (s : State) (k : Nat) : (microMeter pr s).array k = s.array k := by
  unfold microMeter
  split
  · rw [State.array, (meter_accounted ..).engines.arrays]
    rfl
  · rfl

/-- A word that changes the accumulator of the call. -/
theorem microAcc_left (hm : (s.array pr).micro = some m) (e : BitVec 1) (f : MicroRun → AccBits → AccBits) :
    WordLeft pr e m none m (f m ((s.array pr).accBits m.acc)) (microNext pr e none id (microAcc pr f s)) := by
  have ha := microAcc_array hm f
  have h := microNext_left (s := microAcc pr f s) (pr := pr) (m := m) (by rw [ha]; exact hm) e none id ⟨rfl, rfl⟩
  rw [ha, MArray.accBits_setAcc] at h
  exact h

end

section
variable {s : State} {pr : Nat} {m : MicroRun} (hm : (s.array pr).micro = some m) (hw : m.words < 65536) (e : BitVec 1)
include hm hw

/-- A word that changes the sequencer alone. -/
theorem microSeq_left (f : MicroRun → MicroRun) (hf : (f m).upc = m.upc ∧ (f m).words = m.words) :
    WordLeft pr e m none (f m) ((s.array pr).accBits m.acc) (microSeq pr e f s) := by
  rw [microSeq, if_pos (microReady_eq hm hw)]
  exact microNext_left hm e none f hf

theorem doMac_left : WordLeft pr e m none m (m.mac ((s.array pr).accBits m.acc)) (doMac pr e s) := by
  have hmeter := microMeter_array pr s pr
  rw [doMac, if_pos (microReady_eq hm hw)]
  have h := microAcc_left (s := microMeter pr s) (by rw [hmeter]; exact hm) e MicroRun.mac
  rw [hmeter] at h
  exact h

theorem doMacq_left : WordLeft pr e m none { m with qa := m.fa, qb := m.fb } ((s.array pr).accBits m.acc) (doMacq pr e s) := by
  have hmeter := microMeter_array pr s pr
  rw [doMacq, if_pos (microReady_eq hm hw)]
  have h := microNext_left (s := microMeter pr s) (pr := pr) (m := m) (by rw [hmeter]; exact hm) e none (fun m => { m with qa := m.fa, qb := m.fb }) ⟨rfl, rfl⟩
  rw [hmeter] at h
  exact h

theorem doZpc_left : WordLeft pr e m none m (m.zpc ((s.array pr).accBits m.acc)) (doZpc pr e s) := by
  rw [doZpc, if_pos (microReady_eq hm hw)]
  exact microAcc_left hm e MicroRun.zpc

theorem doZacc_left : WordLeft pr e m none m (m.region ((s.array pr).accBits m.acc) fun _ _ _ => 0) (doZacc pr e s) := by
  rw [doZacc, if_pos (microReady_eq hm hw)]
  exact microAcc_left hm e fun m a => m.region a fun _ _ _ => 0

theorem doMicroLoop_left (t : BitVec 9) : WordLeft pr e m (if m.kcnt - 1 ≠ 0 then some (m.upc / 512 * 512 + t.toNat) else none)
    { m with kcnt := m.kcnt - 1, kidx := m.kidx + 32 } ((s.array pr).accBits m.acc) (doMicroLoop pr e t s) := by
  rw [doMicroLoop, if_pos (microReady_eq hm hw)]
  have h := microNext_left hm e (if m.kcnt - 1 != 0 then some t else none) (fun m => { m with kcnt := m.kcnt - 1, kidx := m.kidx + 32 }) ⟨rfl, rfl⟩
  simp only [hm]
  by_cases h0 : m.kcnt - 1 = 0
  · rw [if_neg (by simpa using h0)] at h ⊢
    rw [if_neg (by simpa using h0)]
    exact h
  · rw [if_pos (by simpa using h0)] at h
    rw [if_pos h0, if_pos (by simpa using h0)]
    exact h

theorem doBrz_left (t : BitVec 9) : WordLeft pr e m (if m.kcnt = 0 then some (m.upc / 512 * 512 + t.toNat) else none) m
    ((s.array pr).accBits m.acc) (doBrz pr e t s) := by
  rw [doBrz, if_pos (microReady_eq hm hw)]
  have h := microNext_left hm e (if m.kcnt == 0 then some t else none) id ⟨rfl, rfl⟩
  simp only [hm]
  by_cases h0 : m.kcnt = 0
  · rw [if_pos (beq_iff_eq.mpr h0)] at h ⊢
    rw [if_pos h0]
    exact h
  · rw [if_neg (mt beq_iff_eq.mp h0)] at h
    rw [if_neg h0, if_neg (mt beq_iff_eq.mp h0)]
    exact h

end

/-- The fetches move no word. -/
theorem MicroRun.feta_word (m : MicroRun) (sel : Nat) (x : Bool) : (m.feta sel x).upc = m.upc ∧ (m.feta sel x).words = m.words := by
  unfold MicroRun.feta
  split <;> exact ⟨rfl, rfl⟩

theorem MicroRun.fetb_word (m : MicroRun) (sel : Nat) (x : Bool) : (m.fetb sel x).upc = m.upc ∧ (m.fetb sel x).words = m.words := by
  unfold MicroRun.fetb
  split <;> exact ⟨rfl, rfl⟩

/-- The word limit ends a call and sets its core's CUT bit. -/
theorem microCut_array {s : State} {pr : Nat} {m : MicroRun} (hm : (s.array pr).micro = some m) (hw : 65536 ≤ m.words) :
    ((microCut pr s).array pr).micro = none ∧ ((microCut pr s).array pr).current = none
      ∧ (if coreOf m.ctx % 2 = 1 then ((microCut pr s).array pr).cutB = true else ((microCut pr s).array pr).cutA = true) := by
  set f : MArray → MArray := fun a => if coreOf m.ctx % 2 = 1 then { a with cutB := true } else { a with cutA := true } with hf
  have hcut : microCut pr s = microFinish pr (s.modArray pr f) := by
    simp only [microCut, hm, if_neg (Nat.not_lt.mpr hw)]
    rfl
  have hmicro : ((s.modArray pr f).array pr).micro = some m := by
    rw [State.array_modArray_same, ← hm, hf]
    dsimp only
    split <;> rfl
  rw [hcut, microFinish_array hmicro, State.array_modArray_same]
  refine ⟨rfl, rfl, ?_⟩
  by_cases hb : coreOf m.ctx % 2 = 1
  · rw [if_pos hb]
    simp only [hf, if_pos hb]
  · rw [if_neg hb]
    simp only [hf, if_neg hb]

/-- Settles O47: each word by what it leaves of its array. -/
theorem microOperations : Obligations.MicroOperations := by
  intro pr e sel x imm t s m hm acc goes target
  have left {i : Instr} {tgt : Option Nat} {m' : MicroRun} {acc' : AccBits} {u : State} (hx : exec i s = .next u)
      (h : WordLeft pr.val e m tgt m' acc' u) : goes i tgt m' acc' := ⟨u, hx, h.1, h.2⟩
  have same {f : MicroRun → MicroRun} (hw : m.words < 65536) (hf : (f m).upc = m.upc ∧ (f m).words = m.words) :
      WordLeft pr.val e m none (f m) acc (microSeq pr.val e f s) := microSeq_left hm hw e f hf
  refine ⟨fun hw => ⟨left rfl (same (f := id) hw ⟨rfl, rfl⟩), left rfl (same (f := id) hw ⟨rfl, rfl⟩),
    left rfl (same (f := fun m => m.feta sel.toNat (x == 1)) hw (m.feta_word ..)),
    left rfl (same (f := fun m => m.fetb sel.toNat (x == 1)) hw (m.fetb_word ..)), left rfl (doMac_left hm hw e), left rfl (doZpc_left hm hw e),
    left rfl (doMacq_left hm hw e), left rfl (doZacc_left hm hw e),
    left rfl (same (f := fun m => { m with kcnt := if x = 1 then BitVec.ofNat 16 (mpK m.mps / 32) else imm, kidx := 0 }) hw ⟨rfl, rfl⟩),
    left rfl (doMicroLoop_left hm hw e t), left rfl (doBrz_left hm hw e t),
    left rfl (same (f := fun m => { m with half := if x = 0 then mpSig m.mps else ~~~(mpSig m.mps) }) hw ⟨rfl, rfl⟩), ?drain, ?signal, ?limit⟩,
    fun hw => ?cut, fun i j hi hj hout => ?outside⟩
  case drain =>
    refine congrArg Host.Outcome.next ((if_pos (microReady_eq hm hw)).trans ?_)
    simp only [microTile, hm]
  case signal =>
    refine congrArg Host.Outcome.next ((if_pos (microReady_eq hm hw)).trans ?_)
    simp only [microTile, hm]
  case limit =>
    refine congrArg Host.Outcome.next ?_
    simp only [microCut, hm, if_pos hw]
  case cut => exact ⟨_, rfl, microCut_array hm hw⟩
  case outside =>
    rw [MicroRun.mac, MicroRun.zpc, MicroRun.region, MicroRun.region]
    exact ⟨accAt_accRegion_outside acc _ hi hj hout, accAt_accRegion_outside acc _ hi hj hout⟩

end Sys2Proof.Machine
end

section
/-! PROOF. Engine events (R178, R186, R253, R257, R301, R302, R311, R316, R393). -/
set_option Elab.async false
namespace Sys2Proof.Machine

/-! ## What the operations that wait to perform leave alone -/

/-- The engines of the cores, the arrays, the units and every stream are those of another state. -/
structure EnginesRest (s t : State) : Prop where
  cores : t.cores = s.cores
  arrays : t.arrays = s.arrays
  units : SameUnits s t
  streams : ∀ g, (t.ctx g).streams = (s.ctx g).streams

theorem EnginesRest.refl (s : State) : EnginesRest s s := ⟨rfl, rfl, .refl s, fun _ => rfl⟩

theorem EnginesRest.trans {s t u : State} (h : EnginesRest s t) (k : EnginesRest t u) : EnginesRest s u :=
  ⟨k.cores.trans h.cores, k.arrays.trans h.arrays, h.units.trans k.units, fun g => (k.streams g).trans (h.streams g)⟩

theorem EnginesRest.foldl {β : Type} (f : State → β → State) (hf : ∀ s x, EnginesRest s (f s x)) (l : List β) (s : State) :
    EnginesRest s (l.foldl f s) := by
  induction l generalizing s with
  | nil => exact .refl s
  | cons x l ih => exact (hf s x).trans (ih _)

theorem EnginesRest.of_same {s t : State} (hcores : t.cores = s.cores) (harrays : t.arrays = s.arrays) (hclusters : t.clusters = s.clusters)
    (hctxs : t.ctxs = s.ctxs) : EnginesRest s t :=
  ⟨hcores, harrays, .of_clusters hclusters, fun g => by simp only [State.ctx, hctxs]⟩

theorem EnginesRest.of_noted {s t : State} (h : Noted s t) (hu : SameUnits s t) : EnginesRest s t :=
  ⟨h.cores, h.arrays, hu, fun g => by
    obtain ⟨b, hb⟩ := h.ctx g
    rw [hb]⟩

/-- A change of a context that keeps its streams. -/
theorem modCtx_rest {g : Nat} {f : Ctx → Ctx} {s : State} (hf : (f (s.ctx g)).streams = (s.ctx g).streams) : EnginesRest s (s.modCtx g f) :=
  ⟨rfl, rfl, .of_clusters rfl, fun h => by
    by_cases hg : h = g
    · subst hg
      simp [hf]
    · simp [hg]⟩

theorem writePlace_rest (p : Place) (bs : List Byte) (s : State) : EnginesRest s (writePlace p bs s) := by
  have hunits := writePlace_units p bs s
  cases p with
  | dp base lay off =>
    cases lay with
    | false =>
      have h : EnginesRest s { s with
          mem := writeBytes s.mem (base + off) bs
          poison := s.poison.filter fun x => !decide (base + off ≤ 64 * x ∧ 64 * x + 64 ≤ base + off + bs.length) } := .of_same rfl rfl rfl rfl
      exact h.trans (.of_noted (noteLines_noted ..) (noteLines_units ..))
    | true =>
      have h : EnginesRest s { s with mem := bs.zipIdx.foldl (fun m b => writeByte m (dpByte base true off b.2) b.1) s.mem } :=
        .of_same rfl rfl rfl rfl
      exact h.trans (.of_noted (noteLines_noted ..) (noteLines_units ..))
  | scratch g off =>
    show EnginesRest s (s.modCtx g fun c => { c with
      scratch := writeBytes c.scratch off bs
      scratchPoison := if decide (off % 64 = 0 ∧ bs.length = 64) then c.scratchPoison.filter (· ≠ off / 64) else c.scratchPoison })
    exact modCtx_rest rfl
  | csram k off => exact .of_same rfl rfl rfl rfl
  | mint g off =>
    show EnginesRest s (mintStore g off bs s)
    unfold mintStore
    split
    · exact .of_same rfl rfl rfl rfl
    · split
      · exact .refl s
      · dsimp only
        split <;> exact .of_same rfl rfl rfl rfl

theorem setPins_rest (fs : List Nat) (on : Bool) (s : State) : EnginesRest s (setPins fs on s) := by
  unfold setPins State.each
  exact EnginesRest.foldl (fun s f => s.setFrame f (if on then s.frame f ||| 0x80 else s.frame f &&& ~~~0x80#64)) (fun s f => .of_same rfl rfl rfl rfl) fs s

theorem closeSession_rest (cl : Nat) (s : State) : EnginesRest s (closeSession cl s) := by
  unfold closeSession
  split
  · exact .refl s
  next x hx =>
    have h : EnginesRest s (s.modCluster cl fun c => { c with session := none }) := ⟨rfl, rfl, modCluster_units s rfl, fun _ => rfl⟩
    exact h.trans (setPins_rest ..)

theorem leaveGroup_rest (g : Nat) (s : State) : EnginesRest s (leaveGroup g s) := by
  have h : EnginesRest s (s.modGroup (s.ctx g).group fun x => x.leave (s.ctx g).program) := .of_same rfl rfl rfl rfl
  unfold leaveGroup
  dsimp only
  split
  · exact h.trans (closeSession_rest ..)
  · exact h

theorem performLate_rest (g : Nat) (l : Late) (s : State) : EnginesRest s (performLate g l s) := by
  cases l with
  | store w => exact EnginesRest.foldl _ (fun s x => writePlace_rest ..) w s
  | push grp off lcap x =>
    show EnginesRest s (ringWrite grp off (ringTail s grp off + 1) (ringWrite grp (ringSlot off lcap (ringTail s grp off)) x s))
    have h : EnginesRest s (ringWrite grp (ringSlot off lcap (ringTail s grp off)) x s) := writePlace_rest ..
    exact h.trans (writePlace_rest (.csram grp off) _ _)
  | arrive n => exact .of_same rfl rfl rfl rfl
  | leave => exact (modCtx_rest (f := fun c => { c with fences := [] }) rfl).trans (leaveGroup_rest ..)

theorem claimHeld_rest (g : Nat) {s t : State} (h : EnginesRest s t) : EnginesRest s (claimHeld g s t) := by
  obtain ⟨hctxs, -, -, -, -, hcores, harrays, hclusters, -⟩ := claimHeld_spec g s t
  exact h.trans (.of_same hcores harrays hclusters hctxs)

theorem drainLate_rest (g : Nat) (s : State) : EnginesRest s (drainLate g s) := by
  unfold drainLate
  refine .foldl _ (fun s d => ?_) _ _
  split
  · exact claimHeld_rest g ((modCtx_rest (f := fun c => { c with delayed := c.delayed.filter fun e => e.seq ≠ d.seq }) rfl).trans (performLate_rest ..))
  · exact .refl s

theorem EnginesRest.tile {s t : State} (h : EnginesRest s t) (k n : Nat) : t.tile k n = s.tile k n := by
  simp only [State.tile, State.core, h.cores]

theorem EnginesRest.core {s t : State} (h : EnginesRest s t) (k : Nat) : t.core k = s.core k := by
  simp only [State.core, h.cores]

theorem EnginesRest.stream {s t : State} (h : EnginesRest s t) (g q : Nat) : (t.ctx g).stream' q = (s.ctx g).stream' q := by
  simp only [Ctx.stream', h.streams g]

theorem consumed_rest (g : Nat) (info : W64) (s : State) : EnginesRest s (consumed g info s) :=
  .of_noted (errorRecord_noted ..) (errorRecord_units ..)

/-! ## An engine's job ends (R139, R257) -/

section
variable {s : State} {k : Nat} {j : Job}

theorem Core.finish_tile_other (c : Core) (b n : Nat) (l : List Nat) (h : n ∉ l) : (c.finish b l).tile n = c.tile n := by
  unfold Core.finish
  induction l generalizing c with
  | nil => rfl
  | cons x l ih =>
    rw [List.foldl_cons, ih _ fun hn => h (by simp [hn])]
    exact tget_tset_other _ _ _ (fun hx => h (by simp [hx]))

theorem Core.finish_tile_one (c : Core) (b n : Nat) : (c.finish b [n]).tile n = (c.tile n).finish b := tget_tset_same ..

/-- The queues of a core are as they were. -/
structure SameQueues (c d : Core) : Prop where
  tileQ : d.tileQ = c.tileQ
  indexQ : d.indexQ = c.indexQ
  assayQ : d.assayQ = c.assayQ
  xferQ : d.xferQ = c.xferQ

theorem Core.finish_queues (c : Core) (b : Nat) (l : List Nat) : SameQueues c (c.finish b l) := by
  unfold Core.finish
  induction l generalizing c with
  | nil => exact ⟨rfl, rfl, rfl, rfl⟩
  | cons x l ih =>
    obtain ⟨h1, h2, h3, h4⟩ := ih (c.setTile x ((c.tile x).finish b))
    exact ⟨h1, h2, h3, h4⟩

/-- A job's slots are counted down on its core; its poison is reported. -/
theorem finishJob_core : (finishJob k j s).core k = (s.core k).finish (s.ctx j.ctx).bundles (j.writes.map (·.1)) := by
  unfold finishJob
  dsimp only
  split
  · exact State.core_modCore_same ..
  next p l hp =>
    set u := s.modCore k fun q => q.finish (s.ctx j.ctx).bundles (j.writes.map (·.1)) with hu
    have h1 : EnginesRest u ((p :: l).foldl (fun s p => consumed j.ctx p s) u) := EnginesRest.foldl _ (fun s p => consumed_rest ..) _ u
    have h2 : EnginesRest u ((l.foldl (fun s p => consumed j.ctx p s) u).modCtx j.ctx fun c => { c with boundaryPoison := c.boundaryPoison ++ [p] }) :=
      (EnginesRest.foldl (fun s p => consumed j.ctx p s) (fun s p => consumed_rest ..) l u).trans (modCtx_rest rfl)
    rw [h2.core]
    exact State.core_modCore_same ..

/-- The slots a job wrote, as it leaves its core. -/
def JobEnded (s : State) (k : Nat) (j : Job) (t : State) : Prop :=
  (∀ n, (∀ w ∈ j.writes, w.1 ≠ n) → t.tile k n = s.tile k n)
    ∧ ∀ n st, j.writes = [(n, st)] → t.tile k n = (s.tile k n).finish (s.ctx j.ctx).bundles

/-- A job that leaves its queue: `f` takes it from the queue and changes no slot. -/
theorem finishJob_ended (f : Core → Core) (hf : (f (s.core k)).tiles = (s.core k).tiles) :
    JobEnded s k j (finishJob k j (s.modCore k f)) ∧ SameQueues (f (s.core k)) ((finishJob k j (s.modCore k f)).core k) := by
  have hcore : (finishJob k j (s.modCore k f)).core k = (f (s.core k)).finish (s.ctx j.ctx).bundles (j.writes.map (·.1)) := by
    rw [finishJob_core, State.core_modCore_same]
    rfl
  have htile (n : Nat) : (f (s.core k)).tile n = (s.core k).tile n := by simp only [Core.tile, hf]
  refine ⟨⟨fun n hn => ?_, fun n st hn => ?_⟩, ?_⟩
  · rw [State.tile, hcore, Core.finish_tile_other _ _ _ _ (by simpa using fun b h => hn (n, b) h rfl), htile]
    rfl
  · rw [State.tile, hcore, hn]
    exact (Core.finish_tile_one ..).trans (by rw [htile]; rfl)
  · rw [hcore]
    exact Core.finish_queues ..

theorem JobEnded.rest {t u : State} (h : JobEnded s k j t) (hr : EnginesRest t u) : JobEnded s k j u :=
  ⟨fun n hn => (hr.tile k n).trans (h.1 n hn), fun n st hn => (hr.tile k n).trans (h.2 n st hn)⟩

end

/-! ## The copy engine and the streams (R301, R302) -/

theorem State.modCluster_congr {s : State} {k : Nat} {f f' : Cluster → Cluster} (h : f (s.cluster k) = f' (s.cluster k)) :
    s.modCluster k f = s.modCluster k f' := by
  simp only [State.modCluster, h]

theorem copyEnd_running {cl i : Nat} {s : State} {j : CopyJob} (hj : (s.cluster cl).copies[i]? = some j)
    (hf : j.channel ∉ (s.cluster cl).frozenChannels) : copyEnd cl i s = s.modCluster cl fun c => { c with copies := c.copies.eraseIdx i } :=
  State.modCluster_congr (by simp [hj, hf])

theorem copyEnd_frozen {cl i : Nat} {s : State} {j : CopyJob} (hj : (s.cluster cl).copies[i]? = some j)
    (hf : j.channel ∈ (s.cluster cl).frozenChannels) : copyEnd cl i s = s.modCluster cl id :=
  State.modCluster_congr (by simp [hj, hf])

theorem copyEnd_rest (cl i : Nat) (s : State) : EnginesRest s (copyEnd cl i s) :=
  ⟨rfl, rfl, modCluster_units s (by split <;> first | rfl | (split <;> rfl)), fun _ => rfl⟩

theorem Ctx.stream'_setStream (c : Ctx) (q : Nat) (x : Stream) : (c.setStream q x).stream' q = x := tget_tset_same ..

/-- A sector arrives: its elements join the stream's buffer and it leaves what is still to read. -/
theorem streamArrive_stream {s : State} {g q i : Nat} {p : StreamCopy} {ps : List StreamCopy} {y : Sector} {ys : List Sector} {j : CopyJob}
    (hp : ((s.ctx g).stream' q).pending = p :: ps) (hy : p.src = y :: ys)
    (hi : ((s.cluster (clusterOf g)).copies.findIdx? fun j => j.ctx == g && j.stream == some q && j.seq == p.seq) = some i)
    (hj : (s.cluster (clusterOf g)).copies[i]? = some j) (hf : j.channel ∉ (s.cluster (clusterOf g)).frozenChannels)
    (hroom : ((s.ctx g).stream' q).arrived.length + y.n / 8 ≤ 64) :
    ((streamArrive g q s).ctx g).stream' q = { (s.ctx g).stream' q with
      arrived := ((s.ctx g).stream' q).arrived ++ sectorElems (readPlace s y.place y.n) (poisonAt s y.place y.n)
      pending := if ys.isEmpty then ps else { p with src := ys } :: ps } := by
  unfold streamArrive
  simp only [hp, hy, hi, hj]
  rw [if_neg (by simp [hf]; omega)]
  have hstream (u : State) (x : Stream) : ((u.modCtx g fun c => c.setStream q x).ctx g).stream' q = x := by
    rw [State.ctx_modCtx_same, Ctx.stream'_setStream]
  split
  · rw [(copyEnd_rest ..).stream, hstream]
  · rw [hstream]

/-! ## The array and the transform units (R178, R186, R311) -/

theorem arrayStart_starts {s : State} {pr : Nat} {b : Bool} {o : ArrOp} {q : List ArrOp} (hidle : (s.array pr).current = none)
    (hw : (s.array pr).mode = 0 → (s.array pr).windowB = b) (hq : (if b then (s.array pr).queueB else (s.array pr).queueA) = o :: q) :
    ((arrayStart pr b s).array pr).current = some (b, o)
      ∧ ((arrayStart pr b s).array pr).queueA = (if b then (s.array pr).queueA else q)
      ∧ ((arrayStart pr b s).array pr).queueB = (if b then q else (s.array pr).queueB) := by
  unfold arrayStart
  have hgo : ((s.array pr).current.isSome || ((s.array pr).mode == 0 && (s.array pr).windowB != b)) = false := by
    simpa [hidle] using hw
  dsimp only
  rw [hgo, if_neg Bool.false_ne_true, hq, State.array_modArray_same]
  exact ⟨rfl, rfl, rfl⟩

/-- The energy of an operation's k-steps (R369): what `arrayEnd` does last. -/
def meterOp (o : ArrOp) (u : State) : State :=
  match o with
  | .call g _ n mps _ _ _ _ => meter g (routineSteps n mps * Config.energyNJ 1) u
  | _ => u

theorem meterOp_accounted (o : ArrOp) (u : State) : Accounted u (meterOp o u) := by
  unfold meterOp
  split
  · exact meter_accounted ..
  · exact .refl u

/-- An operation that is no micro-program ends with its effects. -/
theorem arrayEnd_ends {s : State} {pr : Nat} {b : Bool} {o : ArrOp} (hc : (s.array pr).current = some (b, o)) (hm : (s.array pr).micro = none) :
    ((arrayEnd pr s).array pr).current = none ∧ ((arrayEnd pr s).array pr).acc = ((runArrOp pr o s).array pr).acc
      ∧ (arrayEnd pr s).cores = (runArrOp pr o s).cores := by
  set u := (runArrOp pr o s).modArray pr fun a => { a with current := none } with hu
  have h : (u.array pr).current = none ∧ (u.array pr).acc = ((runArrOp pr o s).array pr).acc ∧ u.cores = (runArrOp pr o s).cores := by
    rw [hu, State.array_modArray_same]
    exact ⟨rfl, rfl, rfl⟩
  have e : arrayEnd pr s = meterOp o u := by
    unfold arrayEnd
    dsimp only
    rw [hc]
    dsimp only
    rw [hm]
    rfl
  have acc := meterOp_accounted o u
  rw [e, State.array, acc.engines.arrays, acc.cores]
  exact h

theorem xfuEnd_tile {s : State} {cl u n : Nat} {j : XfuJob} (hj : (s.xfu cl u).job = some j) (hn : j.slot = some n) :
    (xfuEnd cl u s).tile (coreOf j.ctx) n = ((s.tile (coreOf j.ctx) n).late j.newData j.status).finish (s.ctx j.ctx).bundles := by
  simp only [xfuEnd, hj, hn]
  exact State.tile_modTile_same s (coreOf j.ctx) n fun t => (t.late j.newData j.status).finish (s.ctx j.ctx).bundles

/-! ## O48 -/

section
variable {s : State} {core : Fin 4096} {k : Fin 8} {j : Job}

/-- A queue's oldest operation leaves it. -/
theorem tileUnitOpComplete_ends {q : List Job} (h : (s.core core.val).tileQ = j :: q) :
    ∃ t, exec (.tileUnitOpComplete core) s = .next t ∧ (t.core core.val).tileQ = q ∧ JobEnded s core.val j t := by
  have hj := finishJob_ended (s := s) (k := core.val) (j := j) (fun c => { c with tileQ := q }) rfl
  refine ⟨_, congrArg Host.Outcome.next (show popTileQ core.val s = _ by simp only [popTileQ, h]), hj.2.tileQ, hj.1⟩

theorem indexEngineComplete_ends {q : List Job} (h : (s.core core.val).indexQ = j :: q) :
    ∃ t, exec (.indexEngineComplete core) s = .next t ∧ (t.core core.val).indexQ = q ∧ JobEnded s core.val j t := by
  have hj := finishJob_ended (s := s) (k := core.val) (j := j) (fun c => { c with indexQ := q }) rfl
  refine ⟨_, congrArg Host.Outcome.next (show popIndexQ core.val s = _ by simp only [popIndexQ, h]), hj.2.indexQ, hj.1⟩

theorem asortComplete_ends {q : List Job} (h : (s.core core.val).assayQ = j :: q) :
    ∃ t, exec (.asortComplete core) s = .next t ∧ (t.core core.val).assayQ = q ∧ JobEnded s core.val j t := by
  have hj := finishJob_ended (s := s) (k := core.val) (j := j) (fun c => { c with assayQ := q }) rfl
  refine ⟨_, congrArg Host.Outcome.next (show popAssayQ core.val s = _ by simp only [popAssayQ, h]), hj.2.assayQ, hj.1⟩

/-- An entry of the transfers leaves it, and what the context still has to perform is performed where it can be. -/
theorem popXferQ_ends (h : (s.core core.val).xferQ[k.val]? = some j) :
    ((drainLate j.ctx (popXferQ core.val k.val s)).core core.val).xferQ = (s.core core.val).xferQ.eraseIdx k.val
      ∧ JobEnded s core.val j (drainLate j.ctx (popXferQ core.val k.val s)) := by
  have hj := finishJob_ended (s := s) (k := core.val) (j := j) (fun c => { c with xferQ := c.xferQ.eraseIdx k.val }) rfl
  have e : popXferQ core.val k.val s = finishJob core.val j (s.modCore core.val fun c => { c with xferQ := c.xferQ.eraseIdx k.val }) := by
    simp only [popXferQ, h]
  have hr := drainLate_rest j.ctx (popXferQ core.val k.val s)
  refine ⟨?_, JobEnded.rest (by rw [e]; exact hj.1) hr⟩
  rw [hr.core, e]
  exact hj.2.xferQ

theorem tileLoadComplete_ends (h : (s.core core.val).xferQ[k.val]? = some j) (hw : j.writes ≠ []) :
    ∃ t, exec (.tileLoadComplete core k) s = .next t ∧ (t.core core.val).xferQ = (s.core core.val).xferQ.eraseIdx k.val
      ∧ JobEnded s core.val j t := by
  refine ⟨drainLate j.ctx (popXferQ core.val k.val s), ?_, popXferQ_ends h⟩
  show execTileLoadComplete core k s = _
  simp [execTileLoadComplete, h, hw]

theorem bulkStoreComplete_ends (h : (s.core core.val).xferQ[k.val]? = some j) (hw : j.writes = []) :
    ∃ t, exec (.bulkStoreComplete core k) s = .next t ∧ (t.core core.val).xferQ = (s.core core.val).xferQ.eraseIdx k.val
      ∧ JobEnded s core.val j t := by
  refine ⟨drainLate j.ctx (popXferQ core.val k.val s), ?_, popXferQ_ends h⟩
  show execBulkStoreComplete core k s = _
  simp [execBulkStoreComplete, h, hw]

end

theorem copyComplete_eq {s : State} {cl : Fin 512} {n : Fin 32} {j : CopyJob} (hj : (s.cluster cl.val).copies[n.val]? = some j)
    (hs : j.stream = none) : exec (.copyComplete cl n) s = .next (drainLate j.ctx (copyEnd cl.val n.val s)) := by
  show execCopyComplete cl n s = _
  simp [execCopyComplete, hj, hs]

theorem xfuOpEnd_ends {s : State} {cl : Fin 512} {u : Fin 4} {j : XfuJob} (hj : (s.xfu cl.val u.val).job = some j) :
    ∃ t, exec (.xfuOpEnd cl u) s = .next t ∧ (t.xfu cl.val u.val).job = none ∧ (t.xfu cl.val u.val).err = j.err
      ∧ (t.xfu cl.val u.val).done = (s.xfu cl.val u.val).done + 1
      ∧ ∀ n, j.slot = some n → t.tile (coreOf j.ctx) n = ((s.tile (coreOf j.ctx) n).late j.newData j.status).finish (s.ctx j.ctx).bundles := by
  have hr := drainLate_rest j.ctx (xfuEnd cl.val u.val s)
  have hend := xfuEnd_xfu hj
  refine ⟨drainLate j.ctx (xfuEnd cl.val u.val s), ?_, ?_⟩
  · show execXfuOpEnd cl u s = _
    simp [execXfuOpEnd, hj]
  · rw [hr.units.xfu]
    obtain ⟨h1, h2, h3⟩ := hend
    exact ⟨h1, h2, h3, fun n hn => (hr.tile ..).trans (xfuEnd_tile hj hn)⟩

/-- Settles O48: each engine's event by the rule of its queue; what waits to perform leaves engines and streams alone. -/
theorem engineEvents : Obligations.EngineEvents := by
  unfold Obligations.EngineEvents
  intro s core k pr cl
  refine ⟨fun j q h => tileUnitOpComplete_ends h, ?index, fun j q h => asortComplete_ends h, fun j h hw => tileLoadComplete_ends h hw,
    fun j h hw => bulkStoreComplete_ends h hw, ?copy, ?stream, ?window, ?start, ?complete, fun u j hj => xfuOpEnd_ends hj⟩
  case index =>
    intro j q h
    obtain ⟨t, ht, hq, hrest, -⟩ := indexEngineComplete_ends h
    exact ⟨t, ht, hq, hrest⟩
  case copy =>
    exact fun n j hj hs => ⟨fun hf => by rw [copyComplete_eq hj hs, copyEnd_running hj hf], fun hf => by rw [copyComplete_eq hj hs, copyEnd_frozen hj hf]⟩
  case stream =>
    intro g q p ps y ys i j hp hy hi hj hf hroom
    refine ⟨drainLate g.val (streamArrive g.val q.val s), rfl, ?_⟩
    rw [(drainLate_rest ..).stream, streamArrive_stream hp hy hi hj hf hroom]
    exact ⟨rfl, rfl⟩
  case window => rfl
  case start =>
    intro b o q hidle hw hq
    obtain ⟨hc, hA, hB⟩ := arrayStart_starts hidle hw hq
    refine ⟨arrayStart pr.val b s, rfl, hc, ?_⟩
    rw [hA, hB]
    cases b <;> exact ⟨rfl, rfl⟩
  case complete =>
    intro b o hc hm
    obtain ⟨h1, h2, h3⟩ := arrayEnd_ends hc hm
    exact ⟨arrayEnd pr.val s, rfl, h1, h2, fun c n => by simp only [State.tile, State.core, h3]⟩

end Sys2Proof.Machine
end

section
/-! PROOF. Landings and the boundary of a context (R54, R139, R179, R205, R236, R284, R364, R372, R419, R429, R438, R439). -/
set_option Elab.async false
namespace Sys2Proof.Machine

section
variable {s : State} {c : Fin 16384}

/-- Nothing of the boundary that comes before the watchdog is at hand (R429). -/
structure QuietBoundary (s : State) (g : Nat) : Prop where
  freeze : (s.ctx g).boundaryFreeze = none
  stalled : (s.ctx g).stalled = false
  vault : heldByVault s g = false
  poison : (s.ctx g).duePoison = none
  transfer : (s.ctx g).boundaryPoison = []

theorem boundaryEvent_of_quiet {g : Nat} (h : QuietBoundary s g) :
    boundaryEvent g s = if watchdogDue s g then some (takeTrap g 0x15 (BitVec.ofNat 64 (waitCode (s.ctx g))) 0 (resetWatch g s))
      else if (s.ctx g).preempt && !(s.ctx g).hm then some (stopForSave g s) else none := by
  unfold boundaryEvent
  dsimp only
  rw [h.freeze]
  dsimp only
  rw [h.stalled, h.vault, h.poison, h.transfer, Bool.or_self, if_neg Bool.false_ne_true]

/-- Tags apart, what is delivered at a bundle is what lands. -/
theorem Ctx.landDue_reg (x : Ctx) (n : Name) (h : x.pending n = false) : x.landDue.reg n = x.reg n := by
  rw [← x.deliver_reg n h]
  cases n <;> rfl

theorem resultLand_lands : ∃ t, exec (.resultLand c) s = .next t
    ∧ (t.ctx c.val).flights = (s.ctx c.val).flights.filter (fun f => !(decide (f.due ≤ (s.ctx c.val).bundles) && f.poison.isNone))
    ∧ ∀ n, (s.ctx c.val).pending n = false → (t.ctx c.val).reg n = (s.ctx c.val).reg n := by
  refine ⟨s.modCtx c.val Ctx.landDue, rfl, ?_⟩
  rw [State.ctx_modCtx_same]
  exact ⟨rfl, fun n hn => Ctx.landDue_reg _ n hn⟩

theorem ckTagClear_clears : ∃ t, exec (.ckTagClear c) s = .next t
    ∧ (t.ctx c.val).tags = (s.ctx c.val).tags.filter fun x => decide ((s.ctx c.val).bundles < x.2.1) := by
  refine ⟨s.modCtx c.val Ctx.clearTags, rfl, ?_⟩
  rw [State.ctx_modCtx_same]
  rfl

theorem tileStatusValid_eq {n : Fin 32} (h : n.val < (s.ctx c.val).tileCount) :
    exec (.tileStatusValid c n) s = .next (s.modTile (coreOf c.val) ((s.ctx c.val).tileBase + n.val) fun x =>
      { x with valid := x.valid || (x.full && decide (x.validAt ≤ (s.ctx c.val).bundles)) }) :=
  congrArg Host.Outcome.next (if_pos h)

theorem memoryDataReturn_stalled {n : Nat} (h : stallsHere s c.val = true) :
    exec (.memoryDataReturn c n) s = .next (charge c.val n { s with cycles := s.cycles + BitVec.ofNat 64 n }) :=
  congrArg Host.Outcome.next (if_pos h)

theorem memoryDataReturn_elsewhere {n : Nat} (h : stallsHere s c.val = false) :
    exec (.memoryDataReturn c n) s = .next { s with cycles := s.cycles + BitVec.ofNat 64 n } :=
  congrArg Host.Outcome.next (if_neg (ne_true_of_eq_false h))

/-- An event of the boundary, of a context that issues or waits for issue. -/
theorem atBoundary_of_event {g : Nat} {f : State → State} (h : boundaryEvent g s = some (f s)) : atBoundary g s = elsewhere g f s := by
  unfold atBoundary elsewhere
  simp only [h, Option.getD_some]

theorem watchdog_traps (hp : (s.ctx c.val).run.placed = true) (hd : watchdogDue s c.val = true) (hq : QuietBoundary s c.val) :
    exec (.watchdog c) s = .next (elsewhere c.val (fun u => takeTrap c.val 0x15 (BitVec.ofNat 64 (waitCode (s.ctx c.val))) 0
      (u.modCtx c.val fun z => { z with watch := s.cycles.toNat })) s) := by
  have hb := boundaryEvent_of_quiet hq
  rw [if_pos hd] at hb
  have hgo : ((s.ctx c.val).run.placed && watchdogDue s c.val) = true := by rw [hp, hd, Bool.and_self]
  exact congrArg Host.Outcome.next ((if_pos hgo).trans (atBoundary_of_event hb))

theorem preemptStop_stops (hp : (s.ctx c.val).run.placed = true) (hpre : (s.ctx c.val).preempt = true) (hm : (s.ctx c.val).hm = false)
    (hs : (s.ctx c.val).stream = false) (hd : watchdogDue s c.val = false) (hq : QuietBoundary s c.val) :
    exec (.preemptStop c) s = .next (elsewhere c.val (stopForSave c.val) s) := by
  have hb := boundaryEvent_of_quiet hq
  rw [if_neg (ne_true_of_eq_false hd), hpre, hm] at hb
  have hgo : ((s.ctx c.val).run.placed && (s.ctx c.val).preempt && !(s.ctx c.val).hm && !(s.ctx c.val).stream) = true := by
    rw [hp, hpre, hm, hs]
    rfl
  show execPreemptStop c s = _
  unfold execPreemptStop
  dsimp only
  split
  next h => rw [h] at hp; cases hp
  next h => rw [h] at hp; cases hp
  next => rw [if_pos hgo, atBoundary_of_event hb]

theorem preemptStop_saves (h : (s.ctx c.val).run = .saved ∨ (s.ctx c.val).run = .frameWait) :
    exec (.preemptStop c) s = .next (saveStep c.val s) := by
  show execPreemptStop c s = _
  unfold execPreemptStop
  rcases h with h | h
  · simp only [h]
  · simp only [h]

theorem arbmodeWrite_accepted {v : W64} (hi : (s.array (pairOf c.val)).idle = true) (hv : v.extractLsb' 0 2 ≠ 3)
    (hacc : ∀ k < 4, tget 0 (s.array (pairOf c.val)).accState k = 0) :
    exec (.arbmodeWrite c v) s = .next (s.modArray (pairOf c.val) fun a => a.setMode v) := by
  have hbusy : ¬ (s.array (pairOf c.val)).busy = true := by simp [MArray.busy, hi]
  have hok : (s.array (pairOf c.val)).modeOk v = true := by
    simpa [MArray.modeOk, bits, hacc 0, hacc 1, hacc 2, hacc 3] using hv
  exact congrArg Host.Outcome.next ((if_neg hbusy).trans (if_pos hok))

theorem instructionFetchFault_traps {cause : Nat} {info : W64} (hf : fetch s c.val = .error (.trap cause info))
    (hp : (s.ctx c.val).run.placed = true) (hs : (s.ctx c.val).stream = false) (hb : boundaryEvent c.val s = none)
    (hv : heldByVault s c.val = false) (hr : refillReady s c.val = true) (hh : held s c.val = false) :
    exec (.instructionFetchFault c) s = .next (elsewhere c.val (takeTrap c.val cause info 0) s) := by
  show execInstructionFetchFault c s = _
  simp [execInstructionFetchFault, hf, hp, hs, hb, hv, hr, hh]

theorem frameRestore_restores {f : Nat} (hp : frP (s.frame f) = true) (hd : frD (s.frame f) = true) :
    exec (.frameRestore f) s = .next (restoreFrame f s) := by
  have hgo : (frP (s.frame f) && frD (s.frame f)) = true := by rw [hp, hd, Bool.and_self]
  exact congrArg Host.Outcome.next (if_pos hgo)

end

/-- Settles O49: each landing by what it filters, each event of a boundary by the order of R429. -/
theorem landingEvents : Obligations.LandingEvents := by
  unfold Obligations.LandingEvents
  intro s c g quiet
  have hquiet : quiet → QuietBoundary s g := fun ⟨h1, h2, h3, h4, h5⟩ => ⟨h1, h2, h3, h4, h5⟩
  exact ⟨resultLand_lands, ckTagClear_clears, fun n h => tileStatusValid_eq h,
    fun n => ⟨memoryDataReturn_stalled, memoryDataReturn_elsewhere⟩, fun hp hd hq => watchdog_traps hp hd (hquiet hq),
    fun v hi hv hacc => arbmodeWrite_accepted hi hv hacc, fun cause info => instructionFetchFault_traps,
    fun f => frameRestore_restores, fun hp hpre hm hs hd hq => preemptStop_stops hp hpre hm hs hd (hquiet hq), preemptStop_saves⟩

end Sys2Proof.Machine
end

section
/-! PROOF. Launches and collectives (R277 to R279, R356 to R359, R451, R454, R455): what the command processor's writes leave alone. -/
set_option Elab.async false
namespace Sys2Proof.Machine

/-! ## What a write to memory by an agent leaves alone -/

/-- A state without what writes to device-physical memory and their reports can change: memory, frames, Vaults, reports, contexts, copy
channels, and the answers to masters that a Vault lets go on (R394, R411, R419 to R421, R444). -/
def State.hostSide (s : State) : State :=
  { s with mem := [], poison := [], frames := [], vaults := [], parts := [], errors := [], violations := [], ctxs := [], saves := [],
           clusters := [], harts := [], answer := .none }

theorem hostSide_foldl {β : Type} (f : State → β → State) (hf : ∀ s x, (f s x).hostSide = s.hostSide) (l : List β) (s : State) :
    (l.foldl f s).hostSide = s.hostSide := by
  induction l generalizing s with
  | nil => rfl
  | cons x l ih => exact (ih _).trans (hf s x)

/-- A part of the state that `hostSide` keeps. -/
theorem eq_of_hostSide {α : Type} {s t : State} (f : State → α) (hf : ∀ s : State, f s.hostSide = f s) (h : t.hostSide = s.hostSide) : f t = f s := by
  rw [← hf t, h, hf s]

theorem errorRecord_hostSide (sev str : Nat) (p : Option Nat) (place : Nat) (a : W64) (s : State) :
    (errorRecord sev str p place a s).hostSide = s.hostSide := by
  unfold errorRecord
  dsimp only
  split
  · split <;> rfl
  · rfl

theorem violation_hostSide (src cause p place : Nat) (a : W64) (s : State) : (violation src cause p place a s).hostSide = s.hostSide := rfl

theorem freezeChannel_hostSide (cl ch cause part : Nat) (a : W64) (s : State) : (freezeChannel cl ch cause part a s).hostSide = s.hostSide := by
  unfold freezeChannel
  dsimp only
  split <;> rfl

theorem decideSpace_hostSide (v : Nat) (s : State) : (decideSpace v s).hostSide = s.hostSide := by
  unfold decideSpace
  dsimp only
  split
  · rfl
  · refine hostSide_foldl _ (fun s b => ?_) _ _
    split
    · rfl
    · have hv : (s.each ((s.ctxs.filter fun c => c.2.part == b.1 && c.2.run.frozenElse).map (·.1)
          ++ (s.saves.filter fun x => x.2.ctx.part == b.1 && x.2.ctx.run.frozenElse).map fun x => x.2.home)
          fun g s => violation 0 0x0A b.1 g (BitVec.ofNat 64 (512 * b.2)) s).hostSide = s.hostSide :=
        hostSide_foldl _ (fun s g => violation_hostSide ..) _ s
      exact (hostSide_foldl _ (fun s c => freezeChannel_hostSide ..) _ _).trans hv

theorem holdWrite_hostSide (v l p : Nat) (s : State) : (holdWrite v l p s).hostSide = s.hostSide := errorRecord_hostSide ..

theorem noteLine_hostSide (l : Nat) (s : State) : (noteLine l s).hostSide = s.hostSide := by
  unfold noteLine
  split
  · rfl
  · dsimp only
    split
    · rfl
    · split
      · exact holdWrite_hostSide ..
      · split
        · exact decideSpace_hostSide ..
        · exact holdWrite_hostSide ..

theorem writeDp_hostSide (a : Nat) (bs : List Byte) (s : State) : (writeDp a bs s).hostSide = s.hostSide := by
  unfold writeDp noteLines
  dsimp only
  split
  · rfl
  · exact hostSide_foldl (fun s l => noteLine l s) (fun s l => noteLine_hostSide ..) _ _

theorem wake_hostSide (x : Source) (n : Nat) (s : State) : (wake x n s).hostSide = s.hostSide := by cases x <;> rfl

theorem releaseHeld_hostSide (v : Nat) (gone : HeldWrite → Bool) (s : State) : (releaseHeld v gone s).hostSide = s.hostSide := by
  unfold releaseHeld
  dsimp only
  refine (hostSide_foldl _ (fun s x => ?_) _ _).trans rfl
  split
  · rfl
  · exact wake_hostSide ..

theorem restoreFrame_hostSide (f : Nat) (s : State) : (restoreFrame f s).hostSide = s.hostSide := by
  unfold restoreFrame
  dsimp only
  split
  next t ht =>
    split at ht
    · unfold restoreNow at ht
      dsimp only at ht
      split at ht
      · cases ht
      · split at ht
        · cases ht
        · cases ht
          exact (decideSpace_hostSide ..).trans (releaseHeld_hostSide ..)
    · cases ht
  next =>
    split
    · rfl
    · exact holdWrite_hostSide ..

theorem writeBack_hostSide (a : Nat) (bs : List Byte) (s : State) : (writeBack a bs s).hostSide = s.hostSide := by
  unfold writeBack
  split
  · rfl
  · dsimp only
    have hr := fun fs => hostSide_foldl (fun s f => restoreFrame f s) (fun s f => restoreFrame_hostSide f s) fs s
    split
    · exact (errorRecord_hostSide ..).trans (hr _)
    · exact (writeDp_hostSide ..).trans (hr _)

/-! ## The command processor's reads and writes (R388, R392) -/

theorem noteSector_hostSide (p : Option Nat) (s : State) (a : Nat) : (noteSector p s a).hostSide = s.hostSide := errorRecord_hostSide ..

theorem cpNote_hostSide (p a n : Nat) (s : State) : (cpNote p a n s).hostSide = s.hostSide := hostSide_foldl _ (noteSector_hostSide (some p)) _ s

theorem cpNote_noted (p a n : Nat) (s : State) : Noted s (cpNote p a n s) := .foldl _ (fun _ _ => errorRecord_noted ..) _ s

theorem cpWrite_hostSide (p a : Nat) (bs : List Byte) (s : State) : (cpWrite p a bs s).hostSide = s.hostSide := by
  unfold cpWrite
  split
  · exact writeBack_hostSide ..
  · exact hostSide_foldl _ (noteSector_hostSide (some p)) _ s

/-- What `n` bytes from `a` touch is within a partition's reach, present, uncompressed and not demoted. -/
structure PlainArea (s : State) (p a n : Nat) : Prop where
  frames : ∀ f ∈ framesAt a n, cpReach s p true f = true ∧ frC (s.frame f) = false ∧ frD (s.frame f) = false

/-- Frames, grants and the size of memory are those of another state. -/
theorem PlainArea.of_same {s t : State} {p a n : Nat} (h : PlainArea s p a n) (hf : t.frames = s.frames) (hgrants : t.grants = s.grants)
    (hregs : t.regs = s.regs) : PlainArea t p a n := by
  refine ⟨fun f hm => ?_⟩
  have hr : cpReach t p true f = cpReach s p true f := by
    unfold cpReach State.grant State.frame State.dpBytes
    rw [hf, hregs, hgrants]
  have he : t.frame f = s.frame f := by simp only [State.frame, hf]
  rw [hr, he]
  exact h.frames f hm

theorem PlainArea.of_hostSide {s t : State} {p a n : Nat} (h : PlainArea s p a n) (hf : t.frames = s.frames) (hs : t.hostSide = s.hostSide) :
    PlainArea t p a n :=
  h.of_same hf (eq_of_hostSide State.grants (fun _ => rfl) hs) (eq_of_hostSide State.regs (fun _ => rfl) hs)

theorem framesAt_mono {a m n f : Nat} (h : m ≤ n) (hf : f ∈ framesAt a m) : f ∈ framesAt a n := by
  simp only [framesAt, List.mem_map, List.mem_range] at hf ⊢
  obtain ⟨k, hk, rfl⟩ := hf
  refine ⟨k, ?_, rfl⟩
  have := Nat.div_le_div_right (c := 65536) (show a + m - 1 ≤ a + n - 1 by omega)
  omega

theorem PlainArea.mono {s : State} {p a m n : Nat} (hp : PlainArea s p a n) (h : m ≤ n) : PlainArea s p a m :=
  ⟨fun f hf => hp.frames f (framesAt_mono h hf)⟩

/-- Bytes as they stand after a write to memory. -/
def wrote (a : Nat) (bs : List Byte) (s : State) : State :=
  { s with mem := writeBytes s.mem a bs, poison := s.poison.filter fun x => !decide (a ≤ 64 * x ∧ 64 * x + 64 ≤ a + bs.length) }

/-- Lines of plain frames have no metadata and no chunks. -/
theorem PlainArea.lineHome {s : State} {p a n l : Nat} (h : PlainArea s p a n)
    (hl : l ∈ (List.range ((a + n - 1) / 512 + 1 - a / 512)).map (· + a / 512)) : s.lineHome l = none := by
  have hm : l / 128 ∈ framesAt a n := by
    simp only [framesAt, List.mem_map, List.mem_range] at hl ⊢
    obtain ⟨k, hk, rfl⟩ := hl
    exact ⟨(k + a / 512) / 128 - a / 65536, by omega, by omega⟩
  obtain ⟨-, hc, -⟩ := h.frames _ hm
  simp [State.lineHome, hc]

theorem noteLine_of_no_home {l : Nat} {s : State} (h : s.lineHome l = none) : noteLine l s = s := by simp only [noteLine, h]

theorem noteLines_of_plain {s : State} {p a n : Nat} (h : PlainArea s p a n) : noteLines a n s = s := by
  unfold noteLines
  split
  · rfl
  next =>
    have hl := fun l hl => h.lineHome (l := l) hl
    generalize (List.range ((a + n - 1) / 512 + 1 - a / 512)).map (· + a / 512) = ls at hl
    induction ls with
    | nil => rfl
    | cons l ls ih =>
      rw [List.foldl_cons, noteLine_of_no_home (hl l (by simp))]
      exact ih fun k hk => hl k (by simp [hk])

theorem writeDp_of_plain {s : State} {p a : Nat} {bs : List Byte} (h : PlainArea s p a bs.length) : writeDp a bs s = wrote a bs s :=
  noteLines_of_plain (h.of_same rfl rfl rfl)

theorem badLineAt_of_plain {s : State} {p a n : Nat} (h : PlainArea s p a n) : badLineAt s a n = none := by
  unfold badLineAt
  rw [List.findSome?_eq_none_iff]
  intro l hl
  rw [h.lineHome hl]

/-- A write of the command processor to plain frames of the partition puts its bytes there. -/
theorem cpWrite_of_plain {s : State} {p a : Nat} {bs : List Byte} (h : PlainArea s p a bs.length) : cpWrite p a bs s = wrote a bs s := by
  have hreach : (framesAt a bs.length).all (cpReach s p true) = true := List.all_eq_true.mpr fun f hf => (h.frames f hf).1
  unfold cpWrite
  rw [if_pos hreach]
  unfold writeBack
  split
  next he =>
    obtain rfl : bs = [] := by simpa using he
    have : ∀ x, ¬(a ≤ 64 * x ∧ 64 * x + 64 ≤ a) := fun x => by omega
    simp [wrote, writeBytes, this]
  next =>
    have hnone : (((List.range ((a + bs.length - 1) / 65536 + 1 - a / 65536)).map (· + a / 65536)).filter fun f =>
        frP (s.frame f) && frD (s.frame f)) = [] := by
      rw [List.filter_eq_nil_iff]
      intro f hf
      simp [(h.frames f hf).2.2]
    rw [hnone]
    simp only [List.foldl_nil, badLineAt_of_plain h]
    exact writeDp_of_plain h

@[simp] theorem length_recordBytes (st idx cp fc pre cyc nj : Nat) : (recordBytes st idx cp fc pre cyc nj).length = 32 := by simp [recordBytes]

/-- A record written in plain frames is read back. -/
theorem readBytes_cpWrite {s : State} {p a : Nat} {bs : List Byte} (hwf : memWf s.mem = true) (h : PlainArea s p a bs.length) :
    readBytes (cpWrite p a bs s).mem a bs.length = bs := by
  rw [cpWrite_of_plain h]
  exact readBytes_writeBytes a bs hwf

/-! ## Descriptors (R356 to R358, R451) -/

theorem noteDescriptor_hostSide (p : Nat) (q : Queue) (d : BitVec 512) (l : Bool) (s : State) : (noteDescriptor p q d l s).hostSide = s.hostSide := by
  unfold noteDescriptor
  dsimp only
  split
  · refine (cpNote_hostSide ..).trans ?_
    split
    · exact cpNote_hostSide ..
    · rfl
  · split
    · exact cpNote_hostSide ..
    · rfl

theorem noteDescriptor_noted (p : Nat) (q : Queue) (d : BitVec 512) (l : Bool) (s : State) : Noted s (noteDescriptor p q d l s) := by
  unfold noteDescriptor
  dsimp only
  split
  · refine .trans ?_ (cpNote_noted ..)
    split
    · exact cpNote_noted ..
    · exact .refl s
  · split
    · exact cpNote_noted ..
    · exact .refl s

theorem queue_of_hostSide {s t : State} (h : t.hostSide = s.hostSide) (vf q : Nat) : t.queue vf q = s.queue vf q := by
  simp only [State.queue, eq_of_hostSide State.queues (fun _ => rfl) h]

theorem advanceHead_queue (vf q : Nat) (s : State) : ((advanceHead vf q s).queue vf q).head = (s.queue vf q).head + 1 :=
  congrArg Queue.head (tget_tset_same ..)

section
variable {s : State} {vf : Fin 1024} {q : Fin 16} {host : BitVec 512} {p : Nat}

/-- The state in which a descriptor's checks are done: it is accepted or refused there. -/
def checkedDescriptor (s : State) (vf : Fin 1024) (q : Fin 16) (p : Nat) (d : BitVec 512) (fields : Option Nat) : State :=
  noteDescriptor p (s.queue vf.val q.val) d fields.isNone (advanceHead vf.val q.val s)

theorem checkedDescriptor_hostSide (d : BitVec 512) (o : Option Nat) : (checkedDescriptor s vf q p d o).hostSide = (advanceHead vf.val q.val s).hostSide :=
  noteDescriptor_hostSide ..

theorem checkedDescriptor_noted (d : BitVec 512) (o : Option Nat) : Noted (advanceHead vf.val q.val s) (checkedDescriptor s vf q p d o) :=
  noteDescriptor_noted ..

theorem checkedDescriptor_head (d : BitVec 512) (o : Option Nat) {t : State} (h : t.queues = (checkedDescriptor s vf q p d o).queues) :
    (t.queue vf.val q.val).head = (s.queue vf.val q.val).head + 1 := by
  rw [← advanceHead_queue, ← queue_of_hostSide (checkedDescriptor_hostSide (p := p) d o)]
  simp only [State.queue, h]

theorem checkedDescriptor_plain (d : BitVec 512) (o : Option Nat) {a n : Nat} (h : PlainArea s p a n) : PlainArea (checkedDescriptor s vf q p d o) p a n :=
  (h.of_same (t := advanceHead vf.val q.val s) rfl rfl rfl).of_hostSide (checkedDescriptor_noted d o).frames (checkedDescriptor_hostSide d o)

/-- A queue whose turn it is not changes nothing. -/
theorem launchAccept_not_turn (hreq : s.request = .launchAccept vf q host) (hp : (s.vf vf.val).part = some p)
    (hn : nextQueue s p ≠ some (queueKey vf.val q.val)) : exec .launchAccept s = .next s := by
  show execLaunchAccept s = _
  unfold execLaunchAccept
  rw [hreq]
  dsimp only
  rw [hp]
  exact if_pos (by simp [hn])

/-- The descriptor of the queue whose turn it is gets its checks. -/
theorem launchAccept_turn (hreq : s.request = .launchAccept vf q host) (hp : (s.vf vf.val).part = some p)
    (hq : (s.queue vf.val q.val).pending = true) (hc : (s.queue vf.val q.val).collective = false)
    (hn : nextQueue s p = some (queueKey vf.val q.val)) {d : BitVec 512} (hd : s.descriptor p (s.queue vf.val q.val) host = d) :
    exec .launchAccept s = .next (match launchStatus s p d with
      | some st => cpWrite p (descDw d 7).toNat (recordBytes st 0 0 (bits (descDw d 1) 0 32).toNat 0 0 0)
          (checkedDescriptor s vf q p d (launchFields s p d))
      | none => acceptLaunch p d (checkedDescriptor s vf q p d (launchFields s p d))) := by
  show execLaunchAccept s = _
  unfold execLaunchAccept
  rw [hreq]
  dsimp only
  rw [hp]
  dsimp only
  rw [hd]
  exact if_neg (by simp [hq, hc, hn])

/-- A launch as it is accepted. -/
structure AcceptedLaunch (p : Nat) (d : BitVec 512) (x : Launch) : Prop where
  state : x.state = .waiting
  part : x.part = p
  gcount : x.gcount = ((descDw d 1).extractLsb' 0 32).toNat
  glimit : x.glimit = ((descDw d 1).extractLsb' 32 32).toNat
  args : x.args = descDw d 2
  next : x.next = 0
  exited : x.exited = 0
  record : x.record = (descDw d 7).toNat

theorem acceptLaunch_launch (d : BitVec 512) (t : State) :
    ∃ x, tfind (acceptLaunch p d t).launches t.nextLaunch = some x ∧ AcceptedLaunch p d x :=
  ⟨_, tfind_tset_same .., ⟨rfl, rfl, rfl, rfl, rfl, rfl, rfl, rfl⟩⟩

theorem collectiveStart_turn (hreq : s.request = .collectiveStart vf q host) (hp : (s.vf vf.val).part = some p)
    (hq : (s.queue vf.val q.val).pending = true) (hc : (s.queue vf.val q.val).collective = true)
    (hn : nextQueue s p = some (queueKey vf.val q.val)) {d : BitVec 512} (hd : s.descriptor p (s.queue vf.val q.val) host = d) :
    exec .collectiveStart s = .next (match collectiveStatus s p d with
      | some st => cpWrite p (descDw d 7).toNat (recordBytes st 0 0 0 0 0 0) (checkedDescriptor s vf q p d (collectiveFields s p d))
      | none => acceptCollective p d (checkedDescriptor s vf q p d (collectiveFields s p d))) := by
  show execCollectiveStart s = _
  unfold execCollectiveStart
  rw [hreq]
  dsimp only
  rw [hp]
  dsimp only
  rw [hd]
  exact if_neg (by simp [hq, hc, hn])

/-- A collective as it is accepted. -/
structure AcceptedCollective (p : Nat) (d : BitVec 512) (c : Collective) : Prop where
  done : c.done = false
  part : c.part = p
  src : c.src = (descDw d 2).toNat
  dst : c.dst = (descDw d 3).toNat

theorem acceptCollective_collective (d : BitVec 512) (t : State) :
    ∃ c, tfind (acceptCollective p d t).collectives t.nextLaunch = some c ∧ AcceptedCollective p d c :=
  ⟨_, tfind_tset_same .., ⟨rfl, rfl, rfl, rfl⟩⟩

theorem checkedDescriptor_nextLaunch (d : BitVec 512) (o : Option Nat) : (checkedDescriptor s vf q p d o).nextLaunch = s.nextLaunch :=
  (eq_of_hostSide State.nextLaunch (fun _ => rfl) (checkedDescriptor_hostSide d o)).trans rfl

end

/-! ## Launches end (R278, R279, R359) -/

section
variable {s : State} {k : Nat} {l : Launch}

/-- The state in which an ending launch writes its record. -/
def endedLaunch (k status : Nat) (l : Launch) (s : State) : State :=
  let s := if status = 0 then publishHandles l.part l.hlist l.handles s else s
  { s with launches := tset s.launches k { l with status := status, state := .ended }
           mailboxes := s.mailboxes.map fun m => if m.2.launch = some k then (m.1, { m.2 with launch := none }) else m }

theorem endLaunch_eq (h : tfind s.launches k = some l) (status : Nat) :
    endLaunch k status s = cpWrite l.part l.record (({ l with status := status, state := .ended } : Launch).recordBytes) (endedLaunch k status l s) := by
  simp only [endLaunch, h]
  rfl

theorem endLaunch_ended (h : tfind s.launches k = some l) (status : Nat) :
    (tfind (endLaunch k status s).launches k).map (·.state) = some .ended := by
  rw [endLaunch_eq h, eq_of_hostSide State.launches (fun _ => rfl) (cpWrite_hostSide ..)]
  show (tfind (tset _ k _) k).map Launch.state = some .ended
  rw [tfind_tset_same]
  rfl

theorem publishHandles_nil (p a : Nat) (s : State) : publishHandles p a [] s = s := rfl

/-- The record of a launch with no handle is there when it has ended. -/
theorem endLaunch_record (hwf : memWf s.mem = true) (h : tfind s.launches k = some l) (hh : l.handles = []) (hp : PlainArea s l.part l.record 32) :
    readBytes (endLaunch k l.status s).mem l.record 32 = l.recordBytes := by
  rw [endLaunch_eq h]
  have e : endedLaunch k l.status l s = { s with
      launches := tset s.launches k { l with state := .ended }
      mailboxes := s.mailboxes.map fun m => if m.2.launch = some k then (m.1, { m.2 with launch := none }) else m } := by
    simp only [endedLaunch, hh, publishHandles_nil, ite_self]
  rw [e]
  have hlen : (({ l with state := .ended } : Launch).recordBytes).length = 32 := length_recordBytes ..
  have hr := readBytes_cpWrite (s := { s with
      launches := tset s.launches k { l with state := .ended }
      mailboxes := s.mailboxes.map fun m => if m.2.launch = some k then (m.1, { m.2 with launch := none }) else m })
    (p := l.part) (a := l.record) (bs := ({ l with state := .ended } : Launch).recordBytes) hwf (by rw [hlen]; exact hp.of_same rfl rfl rfl)
  rw [hlen] at hr
  exact hr

theorem launchComplete_ends (h : tfind s.launches k = some l) (hs : l.state = .ready) (he : l.exited = l.next) (hd : l.status ≠ 0 ∨ l.gcount ≤ l.next) :
    exec (.launchComplete k) s = .next (endLaunch k l.status s) := by
  show execLaunchComplete k s = _
  unfold execLaunchComplete
  rw [h]
  exact congrArg Host.Outcome.next (if_pos (by simpa [hs, he] using hd))

theorem launchStart_starts (h : tfind s.launches k = some l) (hs : l.state = .waiting) (hw : l.waits.all (idDone s) = true) :
    exec (.launchStart k) s = .next (s.modLaunch k fun l => { l with state := .ready }) := by
  show execLaunchStart k s = _
  unfold execLaunchStart
  rw [h]
  exact congrArg Host.Outcome.next (if_pos (by simp only [hs, hw, BEq.rfl, Bool.and_self]))

end

/-! ## Collectives end (R441, R442, R454, R455) -/

section
variable {s : State} {c : Collective} {me n : Nat}

theorem length_keepSectors (lost : List Nat) (old new : List Byte) : (keepSectors lost old new).length = new.length := by
  unfold keepSectors
  split <;> simp

theorem length_reduceBytes (ty : Nat) (ranks : List (List Byte)) (lo m : Nat) : (reduceBytes ty ranks lo m).length = 4 * m := by
  simp [reduceBytes, List.length_flatMap, Nat.mul_comm]

/-- Every rank's share of the vector has one length (R454): the result is no longer than what the rank receives. -/
theorem length_result_le {ranks : List (List Byte)} (hn : ranks.length = n) (hb : ∀ r ∈ ranks, r.length = c.inBytes n) :
    (c.result me ranks).length ≤ c.outBytes n := by
  unfold Collective.result
  split
  next h0 =>
    rw [length_reduceBytes, Collective.outBytes, if_neg (by omega)]
    omega
  next h1 =>
    rw [Collective.outBytes, if_neg (by omega)]
    cases ranks with
    | nil => exact Nat.zero_le _
    | cons r l =>
      refine le_of_eq ((hb r (by simp)).trans ?_)
      rw [Collective.inBytes, if_neg (by omega)]
  next h2 =>
    rw [Collective.outBytes, if_pos h2, List.length_flatten]
    have he : ranks.map List.length = List.replicate n c.bytes := by
      refine List.eq_replicate_iff.mpr ⟨by simpa using hn, fun b hm => ?_⟩
      obtain ⟨r, hr, rfl⟩ := List.mem_map.mp hm
      rw [hb r hr, Collective.inBytes, if_neg (by omega)]
    simp [he]
  next h0 h1 h2 =>
    rw [length_reduceBytes, Collective.outBytes, if_neg h2]
    omega

/-- A sector joins the poisoned ones. -/
def addSector (l : List Nat) (x : Nat) : List Nat := if l.contains x then l else l ++ [x]

theorem mem_addSector {l : List Nat} {x y : Nat} : y ∈ addSector l x ↔ y ∈ l ∨ y = x := by
  unfold addSector
  split
  next h =>
    refine ⟨Or.inl, fun hy => ?_⟩
    obtain hy | rfl := hy
    · exact hy
    · simpa using h
  · simp

theorem mem_foldl_addSector (f : Nat → Nat) (is l : List Nat) (y : Nat) : y ∈ is.foldl (fun l i => addSector l (f i)) l ↔ y ∈ l ∨ ∃ i ∈ is, f i = y := by
  induction is generalizing l with
  | nil => simp
  | cons i is ih => simp [ih, mem_addSector, or_assoc, eq_comm]

theorem poisonPlace_dp (b m : Nat) (s : State) :
    poisonPlace (.dp b false 0) m s = { s with poison := (List.range m).foldl (fun l i => addSector l (dpByte b false 0 i / 64)) s.poison } := rfl

/-- Sectors of the result are spoiled. -/
def spoilSectors (dst : Nat) (bad : List Nat) (s : State) : State := bad.foldl (fun s k => poisonPlace (.dp (dst + 64 * k) false 0) 64 s) s

theorem spoilSectors_cons (dst k : Nat) (bad : List Nat) (s : State) :
    spoilSectors dst (k :: bad) s = spoilSectors dst bad (poisonPlace (.dp (dst + 64 * k) false 0) 64 s) := List.foldl_cons ..

theorem spoilSectors_same (dst : Nat) (bad : List Nat) (s : State) : ∃ p, spoilSectors dst bad s = { s with poison := p } := by
  induction bad generalizing s with
  | nil => exact ⟨s.poison, rfl⟩
  | cons k bad ih =>
    obtain ⟨p, hp⟩ := ih (poisonPlace (.dp (dst + 64 * k) false 0) 64 s)
    rw [poisonPlace_dp] at hp
    rw [spoilSectors_cons, poisonPlace_dp]
    exact ⟨p, hp⟩

theorem poisonPlace_poison (b m y : Nat) (s : State) :
    y ∈ (poisonPlace (.dp b false 0) m s).poison ↔ y ∈ s.poison ∨ ∃ i ∈ List.range m, dpByte b false 0 i / 64 = y := by
  rw [poisonPlace_dp]
  exact mem_foldl_addSector ..

theorem mem_spoilSectors {dst k : Nat} (hd : dst % 64 = 0) {bad : List Nat} (hk : k ∈ bad) (s : State) :
    dst / 64 + k ∈ (spoilSectors dst bad s).poison := by
  have keep (bad : List Nat) (s : State) {y : Nat} (hy : y ∈ s.poison) : y ∈ (spoilSectors dst bad s).poison := by
    induction bad generalizing s with
    | nil => exact hy
    | cons j bad ih =>
      rw [spoilSectors_cons]
      exact ih _ ((poisonPlace_poison ..).mpr (.inl hy))
  induction bad generalizing s with
  | nil => cases hk
  | cons j bad ih =>
    rw [spoilSectors_cons]
    obtain rfl | hk := List.mem_cons.mp hk
    · refine keep bad _ ((poisonPlace_poison ..).mpr (.inr ⟨0, by simp, ?_⟩))
      show (dst + 64 * k + (0 + 0)) / 64 = dst / 64 + k
      omega
    · exact ih hk _

/-- The bytes a rank writes at DST, and the sectors it spoils there. -/
def resultBytes (c : Collective) (me n : Nat) (ranks : List RankData) (lost : List Nat) (s : State) : List Byte :=
  keepSectors (lost.filter fun k => decide (64 * k < c.outBytes n)) (readBytes s.mem c.dst (c.outBytes n)) (c.result me (ranks.map (·.bytes)))
def badSectors (c : Collective) (me n : Nat) (ranks : List RankData) (lost : List Nat) : List Nat :=
  ((c.spoiled me (ranks.map (·.poison))).filter fun k => decide (64 * k < c.outBytes n)) ++ lost.filter fun k => decide (64 * k < c.outBytes n)

/-- The loss of a port is recorded at the first sector it spoils. -/
def noteLost (c : Collective) (lost : List Nat) (s : State) : State :=
  match lost with
  | [] => s
  | k :: _ => errorRecord 1 (memStruct s (c.dst + 64 * k)) (some c.part) (memPlace s (c.dst + 64 * k)) (BitVec.ofNat 64 (c.dst + 64 * k)) s

theorem noteLost_noted (c : Collective) (lost : List Nat) (s : State) : Noted s (noteLost c lost s) := by
  unfold noteLost
  split
  · exact .refl s
  · exact errorRecord_noted ..

theorem noteLost_hostSide (c : Collective) (lost : List Nat) (s : State) : (noteLost c lost s).hostSide = s.hostSide := by
  unfold noteLost
  split
  · rfl
  · exact errorRecord_hostSide ..

theorem putResult_eq (c : Collective) (me n : Nat) (ranks : List RankData) (lost : List Nat) (s : State) :
    putResult c me n ranks lost s =
      let u := cpWrite c.part c.dst (resultBytes c me n ranks lost s) s
      noteLost c (lost.filter fun k => decide (64 * k < c.outBytes n))
        (if (framesAt c.dst (c.outBytes n)).all (cpReach u c.part true) then spoilSectors c.dst (badSectors c me n ranks lost) u else u) := rfl

theorem putResult_hostSide (ranks : List RankData) (lost : List Nat) (s : State) : (putResult c me n ranks lost s).hostSide = s.hostSide := by
  rw [putResult_eq]
  dsimp only
  refine (noteLost_hostSide ..).trans ?_
  split
  · obtain ⟨p, hp⟩ := spoilSectors_same c.dst (badSectors c me n ranks lost) (cpWrite c.part c.dst (resultBytes c me n ranks lost s) s)
    rw [hp]
    exact cpWrite_hostSide ..
  · exact cpWrite_hostSide ..

/-- Where DST is plain, its bytes alone are written. -/
theorem putResult_plain {ranks : List RankData} {lost : List Nat} (h : PlainArea s c.part c.dst (resultBytes c me n ranks lost s).length) :
    (putResult c me n ranks lost s).mem = writeBytes s.mem c.dst (resultBytes c me n ranks lost s)
      ∧ (putResult c me n ranks lost s).frames = s.frames := by
  rw [putResult_eq, cpWrite_of_plain h]
  dsimp only
  rw [(noteLost_noted ..).mem, (noteLost_noted ..).frames]
  split
  · obtain ⟨p, hp⟩ := spoilSectors_same c.dst (badSectors c me n ranks lost) (wrote c.dst (resultBytes c me n ranks lost s) s)
    rw [hp]
    exact ⟨rfl, rfl⟩
  · exact ⟨rfl, rfl⟩

/-- Where DST is plain throughout, the sectors of the result that are bad are poisoned. -/
theorem putResult_poison {ranks : List RankData} {lost : List Nat} (h : PlainArea s c.part c.dst (c.outBytes n))
    (hlen : (resultBytes c me n ranks lost s).length ≤ c.outBytes n) (hd : c.dst % 64 = 0) {j : Nat} (hj : j ∈ badSectors c me n ranks lost) :
    c.dst / 64 + j ∈ (putResult c me n ranks lost s).poison := by
  rw [putResult_eq, cpWrite_of_plain (h.mono hlen)]
  dsimp only
  rw [(noteLost_noted ..).poison, if_pos]
  · exact mem_spoilSectors hd hj _
  · have hw : PlainArea (wrote c.dst (resultBytes c me n ranks lost s) s) c.part c.dst (c.outBytes n) := h.of_same rfl rfl rfl
    exact List.all_eq_true.mpr fun f hf => (hw.frames f hf).1

theorem mem_badSectors {ranks : List RankData} {lost : List Nat} {j : Nat} (hj : 64 * j < c.outBytes n)
    (h : j ∈ c.spoiled me (ranks.map (·.poison)) ∨ j ∈ lost) : j ∈ badSectors c me n ranks lost := by
  simp only [badSectors, List.mem_append, List.mem_filter, decide_eq_true_eq]
  obtain h | h := h
  · exact .inl ⟨h, hj⟩
  · exact .inr ⟨h, hj⟩

theorem length_resultBytes (ranks : List RankData) (lost : List Nat) (s : State) :
    (resultBytes c me n ranks lost s).length = (c.result me (ranks.map (·.bytes))).length := length_keepSectors ..

theorem endCollective_done (k : Nat) (c : Collective) (s : State) : (tfind (endCollective k c s).collectives k).map (·.done) = some true := by
  rw [endCollective, eq_of_hostSide State.collectives (fun _ => rfl) (cpWrite_hostSide ..)]
  show (tfind (tset _ k _) k).map Collective.done = some true
  rw [tfind_tset_same]
  rfl

/-- A collective with no handle ends with its record, in plain frames. -/
theorem endCollective_plain {t : State} (k : Nat) (hh : c.handles = []) (h : PlainArea t c.part c.record 32) :
    endCollective k c t = wrote c.record (recordBytes 0 0 0 0 0 0 0) { t with collectives := tset t.collectives k { c with done := true } } := by
  rw [endCollective, hh]
  exact cpWrite_of_plain (by rw [length_recordBytes]; exact h.of_same rfl rfl rfl)

theorem endCollective_mem {t : State} (k : Nat) (hh : c.handles = []) (h : PlainArea t c.part c.record 32) :
    (endCollective k c t).mem = writeBytes t.mem c.record (recordBytes 0 0 0 0 0 0 0) := by
  rw [endCollective_plain k hh h]
  generalize recordBytes 0 0 0 0 0 0 0 = bs
  rfl

/-- A record is shorter than a sector: it clears no poison. -/
theorem endCollective_poison {t : State} (k : Nat) (hh : c.handles = []) (h : PlainArea t c.part c.record 32) {x : Nat} (hx : x ∈ t.poison) :
    x ∈ (endCollective k c t).poison := by
  rw [endCollective_plain k hh h]
  refine List.mem_filter.mpr ⟨hx, ?_⟩
  rw [length_recordBytes]
  simp only [Bool.not_eq_true', decide_eq_false_iff_not]
  omega

/-- The bad sectors of what a collective writes are poisoned when it has ended. -/
theorem collective_poisons {ranks : List RankData} {lost : List Nat} (k : Nat) {j : Nat} (hh : c.handles = []) (hd : c.dst % 64 = 0)
    (hpd : PlainArea s c.part c.dst (c.outBytes n)) (hpr : PlainArea s c.part c.record 32)
    (hlen : (c.result me (ranks.map (·.bytes))).length ≤ c.outBytes n) (hj : 64 * j < c.outBytes n)
    (hbad : j ∈ c.spoiled me (ranks.map (·.poison)) ∨ j ∈ lost) :
    c.dst / 64 + j ∈ (endCollective k c (putResult c me n ranks lost s)).poison := by
  rw [← length_resultBytes (me := me) ranks lost s] at hlen
  obtain ⟨-, hf⟩ := putResult_plain (hpd.mono hlen)
  exact endCollective_poison k hh (hpr.of_hostSide hf (putResult_hostSide ..)) (putResult_poison hpd hlen hd (mem_badSectors hj hbad))

/-- A collective that lost nothing leaves its result and its record, and no other byte changes. -/
theorem collective_writes {ranks : List RankData} (k : Nat) (hh : c.handles = []) (hwf : memWf s.mem = true)
    (hpd : PlainArea s c.part c.dst (c.result me (ranks.map (·.bytes))).length) (hpr : PlainArea s c.part c.record 32) :
    readBytes (endCollective k c (putResult c me n ranks [] s)).mem c.record 32 = recordBytes 0 0 0 0 0 0 0
      ∧ ∀ a, (a < c.record ∨ c.record + 32 ≤ a) → (endCollective k c (putResult c me n ranks [] s)).byteAt a
          = readByte (writeBytes s.mem c.dst (c.result me (ranks.map (·.bytes)))) a := by
  obtain ⟨hm, hf⟩ := putResult_plain (n := n) (lost := []) (by rw [length_resultBytes]; exact hpd)
  have ht := endCollective_mem k hh (hpr.of_hostSide hf (putResult_hostSide ..))
  rw [hm] at ht
  refine ⟨?_, fun a ha => ?_⟩
  · have hr := readBytes_writeBytes c.record (recordBytes 0 0 0 0 0 0 0) (memWf_writeBytes c.dst (resultBytes c me n ranks [] s) hwf)
    rw [length_recordBytes] at hr
    rw [ht]
    exact hr
  · rw [State.byteAt, ht]
    exact readByte_writeBytes_outside _ _ (by simpa using ha)

theorem collectiveComplete_eq {k : Nat} {ranks : List RankData} {lost : List Nat} (hreq : s.request = .collectiveComplete k ranks lost)
    (hc : tfind s.collectives k = some c) (hme : rankOf s c.comm.toNat = some me) (hn : n = ((tfind s.comms c.comm.toNat).getD []).length)
    (hd : c.done = false) (hw : c.waits.all (idDone s) = true) (hlen : ranks.length = n) (hb : ∀ r ∈ ranks, r.bytes.length = c.inBytes n) :
    exec .collectiveComplete s = .next (endCollective k c (putResult c me n
      (ranks.set me { bytes := cpRead s c.part c.src (c.inBytes n), poison := cpPoison s c.part c.src (c.inBytes n) }) lost
      (cpNote c.part c.src (c.inBytes n) s))) := by
  show execCollectiveComplete s = _
  unfold execCollectiveComplete
  rw [hreq]
  dsimp only
  rw [hc]
  dsimp only
  rw [hme, ← hn]
  dsimp only
  have hany : (ranks.any fun r => r.bytes.length != c.inBytes n) = false := by simpa using hb
  exact congrArg Host.Outcome.next (if_neg (by simp [hd, hw, hlen, hany]))

@[simp] theorem length_cpRead (s : State) (p a m : Nat) : (cpRead s p a m).length = m := by
  unfold cpRead
  split <;> simp

/-- With this module's own share in its place, every rank's share still has its length. -/
theorem ranks_set_bytes {ranks : List RankData} (hb : ∀ r ∈ ranks, r.bytes.length = c.inBytes n) (x : RankData) (hx : x.bytes.length = c.inBytes n) :
    ∀ b ∈ (ranks.set me x).map (·.bytes), b.length = c.inBytes n := by
  intro b hm
  obtain ⟨r, hr, rfl⟩ := List.mem_map.mp hm
  obtain hr | rfl := List.mem_or_eq_of_mem_set hr
  · exact hb r hr
  · exact hx

end

/-! ## O50 -/

/-- Settles O50: each clause by what the command processor's writes leave alone, and by where plain frames let them write. -/
theorem launchEvents : Obligations.LaunchEvents := by
  unfold Obligations.LaunchEvents
  intro s hwf plain
  have hplain : ∀ {p a n}, plain p a n → PlainArea s p a n := fun h => ⟨h⟩
  refine ⟨?launch, ?collective, ?complete, fun k l h hs hw => launchStart_starts h hs hw, ?ends, ?register, ?remove⟩
  case launch =>
    intro vf q host p hreq qu d gcount hp hq hc
    refine ⟨launchAccept_not_turn hreq hp, fun hn hst => ?_, fun st hn hst => ?_⟩
    · have e := launchAccept_turn hreq hp hq hc hn (d := d) rfl
      rw [hst] at e
      have hside := checkedDescriptor_hostSide (s := s) (vf := vf) (q := q) (p := p) d (launchFields s p d)
      obtain ⟨x, hx, ⟨h1, h2, h3, h4, h5, h6, h7, h8⟩⟩ := acceptLaunch_launch (p := p) d (checkedDescriptor s vf q p d (launchFields s p d))
      have hnext := checkedDescriptor_nextLaunch (s := s) (vf := vf) (q := q) (p := p) d (launchFields s p d)
      rw [hnext] at hx
      exact ⟨_, x, e, checkedDescriptor_head d _ rfl, hx, congrArg (· + 1) hnext, (checkedDescriptor_noted d _).mem, h1, h2, h3, h4, h5, h6, h7, h8⟩
    · have e := launchAccept_turn hreq hp hq hc hn (d := d) rfl
      rw [hst] at e
      intro t
      have hside : t.hostSide = _ := cpWrite_hostSide ..
      refine ⟨e, checkedDescriptor_head d _ (eq_of_hostSide State.queues (fun _ => rfl) hside), ?_, fun hpl => ?_⟩
      · rw [eq_of_hostSide State.launches (fun _ => rfl) hside]
        exact (eq_of_hostSide State.launches (fun _ => rfl) (checkedDescriptor_hostSide (s := s) (vf := vf) (q := q) (p := p) d _)).trans rfl
      · have hr := readBytes_cpWrite (bs := recordBytes st 0 0 gcount 0 0 0) (s := checkedDescriptor s vf q p d (launchFields s p d))
          (p := p) (a := (descDw d 7).toNat) (by rw [(checkedDescriptor_noted ..).mem]; exact hwf)
          (by rw [length_recordBytes]; exact checkedDescriptor_plain _ _ (hplain hpl))
        rw [length_recordBytes] at hr
        exact hr
  case collective =>
    intro vf q host p hreq qu d hp hq hc hn
    have e := collectiveStart_turn hreq hp hq hc hn (d := d) rfl
    refine ⟨fun hst => ?_, fun st hst => ?_⟩
    · rw [hst] at e
      obtain ⟨c, hc, ⟨h1, h2, h3, h4⟩⟩ := acceptCollective_collective (p := p) d (checkedDescriptor s vf q p d (collectiveFields s p d))
      have hnext := checkedDescriptor_nextLaunch (s := s) (vf := vf) (q := q) (p := p) d (collectiveFields s p d)
      rw [hnext] at hc
      exact ⟨_, c, e, checkedDescriptor_head d _ rfl, hc, congrArg (· + 1) hnext, h1, h2, h3, h4⟩
    · rw [hst] at e
      exact e
  case complete =>
    intro k ranks lost c me n hreq hc hme hn hd hw hlen hb own all out t
    have hbytes : ∀ b ∈ all.map (·.bytes), b.length = c.inBytes n := ranks_set_bytes hb own (length_cpRead ..)
    have hall : (all.map (·.bytes)).length = n := by simp [all, hlen]
    have hnote := cpNote_noted c.part c.src (c.inBytes n) s
    have hnoteSide := cpNote_hostSide c.part c.src (c.inBytes n) s
    set u := cpNote c.part c.src (c.inBytes n) s with hu
    have plainU : ∀ {p a m}, plain p a m → PlainArea u p a m := fun h => (hplain h).of_hostSide hnote.frames hnoteSide
    refine ⟨collectiveComplete_eq hreq hc hme hn hd hw hlen hb, endCollective_done .., fun j hh hdst hpd hpr _ _ hj hbad => ?_, fun hlost hh hpd hpr => ?_⟩
    · exact collective_poisons k hh hdst (plainU hpd) (plainU hpr) (length_result_le hall hbytes) hj hbad
    · subst hlost
      have h := collective_writes (ranks := all) (me := me) (n := n) (s := u) k hh (by rw [hnote.mem]; exact hwf) (plainU hpd) (plainU hpr)
      rw [hnote.mem] at h
      exact h
  case ends =>
    exact fun k l h hs he hd => ⟨launchComplete_ends h hs he hd, endLaunch_ended h _, fun hh hp => endLaunch_record hwf h hh (hplain hp)⟩
  case register =>
    intro p h b n hreq hnone
    show execHandleRegister s = _
    unfold execHandleRegister
    rw [hreq]
    exact congrArg Host.Outcome.next (if_neg (by simp [hnone]))
  case remove =>
    intro p h hreq
    show execHandleRemove s = _
    unfold execHandleRemove
    rw [hreq]

end Sys2Proof.Machine
end

section
/-! PROOF. The dispatchers (R349, R360 to R374, R431). -/
set_option Elab.async false
namespace Sys2Proof.Machine

/-! ## What a placement keeps until it counts its group -/

/-- Launches and the number of the next group are those of another state. -/
structure SameTasks (s t : State) : Prop where
  launches : t.launches = s.launches
  nextGroup : t.nextGroup = s.nextGroup

theorem SameTasks.refl (s : State) : SameTasks s s := ⟨rfl, rfl⟩

theorem SameTasks.trans {s t u : State} (h : SameTasks s t) (k : SameTasks t u) : SameTasks s u :=
  ⟨k.launches.trans h.launches, k.nextGroup.trans h.nextGroup⟩

theorem SameTasks.foldl {β : Type} (f : State → β → State) (hf : ∀ s x, SameTasks s (f s x)) (l : List β) (s : State) : SameTasks s (l.foldl f s) := by
  induction l generalizing s with
  | nil => exact .refl s
  | cons x l ih => exact (hf s x).trans (ih _)

theorem SameTasks.of_hostSide {s t : State} (h : t.hostSide = s.hostSide) : SameTasks s t :=
  ⟨eq_of_hostSide State.launches (fun _ => rfl) h, eq_of_hostSide State.nextGroup (fun _ => rfl) h⟩

theorem setClass_tasks (coh owner f : Nat) (s : State) : SameTasks s (setClass coh owner f s) := by
  unfold setClass
  split <;> exact ⟨rfl, rfl⟩

theorem ownSegments_tasks (l : Launch) (ps : List (Nat × Nat × Nat)) (s : State) : SameTasks s (ownSegments l ps s) := by
  unfold ownSegments
  split
  · refine .foldl _ (fun s f => ?_) _ s
    split
    · exact .refl s
    · exact (setClass_tasks ..).trans ⟨rfl, rfl⟩
  · exact .refl s

theorem lendUnits_tasks (cl grp : Nat) (units : List Nat) (s : State) : SameTasks s (lendUnits cl grp units s) := by
  refine .foldl _ (fun s u => ?_) units s
  split
  · split
    · exact .refl s
    · exact ⟨rfl, rfl⟩
  · exact .refl s

theorem loadImage_tasks (cl task : Nat) (words entries : List W64) (s : State) : SameTasks s (loadImage cl task words entries s) := ⟨rfl, rfl⟩

/-! ## A group is placed (R360 to R362) -/

theorem modLaunch_launches {s : State} {k : Nat} {l : Launch} (h : tfind s.launches k = some l) (f : Launch → Launch) :
    tfind (s.modLaunch k f).launches k = some (f l) := by
  simp only [State.modLaunch, h]
  exact tfind_tset_same ..

theorem modLaunch_rest (s : State) (k : Nat) (f : Launch → Launch) :
    (s.modLaunch k f).nextGroup = s.nextGroup ∧ (s.modLaunch k f).groups = s.groups ∧ (s.modLaunch k f).dies = s.dies := by
  unfold State.modLaunch
  split <;> exact ⟨rfl, rfl, rfl⟩

theorem settleGains_rest (cl vf : Nat) (s : State) : SameTasks s (settleGains cl vf s) ∧ (settleGains cl vf s).groups = s.groups
    ∧ (settleGains cl vf s).dies = s.dies := by
  unfold settleGains
  split <;> exact ⟨⟨rfl, rfl⟩, rfl, rfl⟩

/-- A group placed: what its launch, its own record and its die show. -/
structure Placed (s : State) (k : Nat) (l : Launch) (cl : Nat) (ps : List (Nat × Nat × Nat)) (t : State) : Prop where
  next : (tfind t.launches k).map (·.next) = some (l.next + 1)
  nextGroup : t.nextGroup = s.nextGroup + 1
  index : (t.group s.nextGroup).index = l.next
  cluster : (t.group s.nextGroup).cluster = cl
  live : (t.group s.nextGroup).live = ps.map (·.1)
  lastCluster : (t.die (cl / 8)).lastCluster = cl % 8

/-- A placement's arrays take the task's image if they do not hold it. -/
def imagePlaced (k cl : Nat) (o : Kobj) (s : State) : State :=
  match o.image with
  | some im => if (s.cluster cl).image = some k then s else loadImage cl k im.1 im.2 s
  | none => s

/-- The contexts that take the core programs of a placed group, on their cores. -/
def ctxsPlaced (k grp : Nat) (l : Launch) (o : Kobj) (ps : List (Nat × Nat × Nat)) (s : State) : State :=
  ps.foldl (fun s p =>
    let c := dispatched l k grp p.1 p.2.2 o ((o.entries.find? (·.1 == p.1)).map (·.2) |>.getD 0)
      (tableOf (tableImage s l.part l.swtb p.1)) s.cycles.toNat
    ((dropClaims p.2.1 s).setCtx p.2.1 c).modCore (coreOf p.2.1) fun q =>
      { q with tiles := q.tiles.filter fun t => decide (t.1 < p.2.2 ∨ p.2.2 + o.tiles ≤ t.1) }) s

/-- The group's record and its place in cluster, die and launch. -/
def groupCounted (k : Nat) (l : Launch) (cl grp : Nat) (o : Kobj) (units loans : List Nat) (ps : List (Nat × Nat × Nat)) (s : State) : State :=
  let s := s.modCluster cl fun c => { c with
    xfus := units.foldl (fun t u => tset t u { Xfu.initial with group := some grp }) c.xfus,
    csramUsed := c.csramUsed + 1024 * o.csram, barsUsed := c.barsUsed + o.bars }
  let s := s.modDie (cl / 8) fun d => { d with lastCluster := cl % 8 }
  let x : Group := { Group.initial with
    launch := k, index := l.next, cluster := cl, members := ps.foldl (fun t p => tset t p.1 p.2.1) [], live := ps.map (·.1),
    csramSize := 1024 * o.csram, bars := o.bars, units := units, estimate := o.energy, loanFrom := loans }
  { s with groups := tset s.groups grp x, nextGroup := grp + 1 }.modLaunch k fun l => { l with next := l.next + 1 }

theorem placeGroup_eq (k : Nat) (l : Launch) (cl : Nat) (ps : List (Nat × Nat × Nat)) (s : State) :
    placeGroup k l cl ps s =
      let units := ([0, 1, 2, 3].filter (unitFree s cl)).take (s.kobj l).xfu
      groupCounted k l cl s.nextGroup (s.kobj l) units (lenders s cl s.nextGroup (ps.map fun p => p.2.1) units) ps
        (ctxsPlaced k s.nextGroup l (s.kobj l) ps (imagePlaced k cl (s.kobj l) (lendUnits cl s.nextGroup units s))) := rfl

theorem imagePlaced_tasks (k cl : Nat) (o : Kobj) (s : State) : SameTasks s (imagePlaced k cl o s) := by
  unfold imagePlaced
  split
  · split
    · exact .refl s
    · exact loadImage_tasks ..
  · exact .refl s

theorem ctxsPlaced_tasks (k grp : Nat) (l : Launch) (o : Kobj) (ps : List (Nat × Nat × Nat)) (s : State) : SameTasks s (ctxsPlaced k grp l o ps s) := by
  unfold ctxsPlaced
  refine .foldl _ (fun s p => ?_) ps s
  exact ⟨rfl, rfl⟩

theorem groupCounted_placed {s t : State} {k : Nat} {l : Launch} (h : tfind t.launches k = some l) (cl : Nat) (o : Kobj) (units loans : List Nat)
    (ps : List (Nat × Nat × Nat)) : Placed s k l cl ps (groupCounted k l cl s.nextGroup o units loans ps t) := by
  unfold groupCounted
  dsimp only
  set d := (t.modCluster cl fun c => { c with
    xfus := units.foldl (fun t u => tset t u { Xfu.initial with group := some s.nextGroup }) c.xfus,
    csramUsed := c.csramUsed + 1024 * o.csram, barsUsed := c.barsUsed + o.bars }).modDie (cl / 8) fun d => { d with lastCluster := cl % 8 } with hd
  set x : Group := { Group.initial with
    launch := k, index := l.next, cluster := cl, members := ps.foldl (fun t p => tset t p.1 p.2.1) [], live := ps.map (·.1),
    csramSize := 1024 * o.csram, bars := o.bars, units := units, estimate := o.energy, loanFrom := loans } with hx
  set u : State := { d with groups := tset d.groups s.nextGroup x, nextGroup := s.nextGroup + 1 } with hu
  obtain ⟨hnext, hgroups, hdies⟩ := modLaunch_rest u k fun l => { l with next := l.next + 1 }
  have hgroup : (u.modLaunch k fun l => { l with next := l.next + 1 }).group s.nextGroup = x := by
    rw [State.group, hgroups]
    exact tget_tset_same ..
  refine ⟨?_, hnext, congrArg Group.index hgroup, congrArg Group.cluster hgroup, congrArg Group.live hgroup, ?_⟩
  · have hlaunch : tfind u.launches k = some l := h
    rw [modLaunch_launches hlaunch]
    rfl
  · rw [State.die, hdies]
    exact congrArg Die.lastCluster (tget_tset_same Die.initial _ _ _)

theorem placeGroup_placed {s : State} {k : Nat} {l : Launch} (h : tfind s.launches k = some l) (cl : Nat) (ps : List (Nat × Nat × Nat)) :
    Placed s k l cl ps (placeGroup k l cl ps s) := by
  rw [placeGroup_eq]
  exact groupCounted_placed (by rw [(ctxsPlaced_tasks ..).launches, (imagePlaced_tasks ..).launches, (lendUnits_tasks ..).launches]; exact h) ..

theorem Placed.settleGains {s t : State} {k cl vf : Nat} {l : Launch} {ps : List (Nat × Nat × Nat)} (h : Placed s k l cl ps t) (cl' : Nat) :
    Placed s k l cl ps (settleGains cl' vf t) := by
  obtain ⟨ht, hg, hd⟩ := settleGains_rest cl' vf t
  obtain ⟨h1, h2, h3, h4, h5, h6⟩ := h
  refine ⟨?_, ?_, ?_, ?_, ?_, ?_⟩
  · rw [ht.launches]; exact h1
  · rw [ht.nextGroup]; exact h2
  · rw [State.group, hg]; exact h3
  · rw [State.group, hg]; exact h4
  · rw [State.group, hg]; exact h5
  · rw [State.die, hd]; exact h6

theorem Placed.of_tasks {s u t : State} {k cl : Nat} {l : Launch} {ps : List (Nat × Nat × Nat)} (hs : SameTasks s u) (h : Placed u k l cl ps t) :
    Placed s k l cl ps t := by
  obtain ⟨h1, h2, h3, h4, h5, h6⟩ := h
  rw [hs.nextGroup] at h2 h3 h4 h5
  exact ⟨h1, h2, h3, h4, h5, h6⟩

/-- The tables of a placement are read once its segments have their frames. -/
def tablesRead (l : Launch) (ps : List (Nat × Nat × Nat)) (s : State) : State :=
  ps.foldl (fun s p => cpNote l.part (l.swtb + 8192 * p.1) 8192 s) (ownSegments l ps s)

theorem tablesRead_tasks (l : Launch) (ps : List (Nat × Nat × Nat)) (s : State) : SameTasks s (tablesRead l ps s) :=
  (ownSegments_tasks ..).trans (.foldl _ (fun _ _ => .of_hostSide (cpNote_hostSide ..)) ps _)

section
variable {s : State} {die : Fin 64} {k : Nat} {l : Launch}

theorem groupPlace_too_large (hreq : s.request = .groupPlace die k) (hl : tfind s.launches k = some l) (hr : s.regs.ready = true)
    (hn : l.hasNext = true) (ho : (s.kobj l).tooLarge = true) :
    exec .groupPlace s = .next (s.modLaunch k fun l => { l with status := 0x15 }) := by
  show execGroupPlace s = _
  unfold execGroupPlace
  rw [hreq]
  dsimp only
  rw [hl]
  dsimp only
  rw [if_neg (by simp [hr, hn]), if_pos (by simp [ho])]

theorem groupPlace_checked {cl : Nat} {ps : List (Nat × Nat × Nat)} (hreq : s.request = .groupPlace die k) (hl : tfind s.launches k = some l)
    (hr : s.regs.ready = true) (hn : l.hasNext = true) (ho : (s.kobj l).tooLarge = false) (hp : partClusters s l.part ≠ [])
    (hopen : launchOpen s k l = true) (hb : servedBefore s die.val k l = false) (hf : dieFits s die.val k l = some (cl, ps)) :
    exec .groupPlace s = .next (match refusedTable (tablesRead l ps s) l ps with
      | some (cp, st, i) => (tablesRead l ps s).modLaunch k fun l => { l with status := st, swtIdx := i, swtCp := cp }
      | none => settleGains cl l.vf (placeGroup k l cl ps (tablesRead l ps s))) := by
  show execGroupPlace s = _
  unfold execGroupPlace
  rw [hreq]
  dsimp only
  rw [hl]
  dsimp only
  rw [if_neg (by simp [hr, hn]), if_neg (by simp [ho, hp]), if_neg (by simp [hopen, hb]), hf]
  rfl

end

/-! ## Completion, return, quanta and accounts (R349, R365 to R374) -/

section
variable {s : State} {k : Nat}

theorem groupComplete_releases {x : Group} (h : tfind s.groups k = some x) (hd : x.done = false) (hl : x.live = [])
    (hb : ∀ m ∈ x.members, ctxBusy s m.2 = false) :
    exec (.groupComplete k) s = .next ((releaseGroup k s).modLaunch x.launch fun l => { l with exited := l.exited + 1 }) := by
  have hany : (x.members.any fun m => ctxBusy s m.2) = false := by simpa using hb
  show execGroupComplete k s = _
  unfold execGroupComplete
  rw [h]
  exact if_neg (by simp [hd, hl, hany])

theorem groupResume_resumes (ht : groupTurn s k = true) (hr : groupReturns s k = true)
    (hv : vfServed s (s.group k).cluster ((((savedOf s k).map fun y => y.2.ctx.vf).head?).getD 0) = true) :
    exec (.groupResume k) s = .next (settleGains (s.group k).cluster ((((savedOf s k).map fun y => y.2.ctx.vf).head?).getD 0) (resumeGroup k s)) := by
  have hne : (savedOf s k).isEmpty = false := by
    unfold groupReturns at hr
    simp only [Bool.and_eq_true, Bool.not_eq_true'] at hr
    exact hr.1.1.1
  show execGroupResume k s = _
  unfold execGroupResume
  dsimp only
  rw [if_neg (by rw [hne, ht, hv]; exact Bool.false_ne_true), if_pos hr]

theorem foldl_add_eq_sum (l : List (Nat × Nat)) (n : Nat) : l.foldl (fun n e => n + e.2) n = n + (l.map (·.2)).sum := by
  induction l generalizing n with
  | nil => rfl
  | cons e l ih => rw [List.foldl_cons, ih, List.map_cons, List.sum_cons, Nat.add_assoc]

theorem tfind_map {α β : Type} (f : Nat → α → β) (t : Tbl α) (k : Nat) : tfind (t.map fun e => (e.1, f e.1 e.2)) k = (tfind t k).map (f k) := by
  induction t with
  | nil => rfl
  | cons e t ih =>
    obtain ⟨j, x⟩ := e
    by_cases h : j = k
    · subst h
      simp [tfind]
    · simpa [tfind, h] using ih

/-- A close of the Treasury closes the account of each VF. -/
theorem treasuryClose_closes {ext : List (Nat × Nat)} (hreq : s.request = .treasuryClose ext) :
    ∃ t, exec .treasuryClose s = .next t ∧ ∀ v x, tfind s.vfs v = some x →
      tfind t.vfs v = some (x.close s.regs.allow ((ext.filter (·.1 == v)).map (·.2)).sum) := by
  refine ⟨{ s with vfs := s.vfs.map fun v => (v.1, v.2.close s.regs.allow ((ext.filter (·.1 == v.1)).foldl (fun n e => n + e.2) 0)) }, ?_, fun v x hx => ?_⟩
  · show execTreasuryClose s = _
    unfold execTreasuryClose
    rw [hreq]
  · show tfind (s.vfs.map fun v => (v.1, v.2.close s.regs.allow ((ext.filter (·.1 == v.1)).foldl (fun n e => n + e.2) 0))) v = _
    rw [tfind_map fun v (x : Vf) => x.close s.regs.allow ((ext.filter (·.1 == v)).foldl (fun n e => n + e.2) 0), hx, foldl_add_eq_sum]
    simp

end

/-! ## Frame service (R431) -/

section
variable {s : State} {c : Fin 16384} {e : W64} {u : State}

/-- Raw memory for a frame is found or not; no byte and no entry changes. -/
theorem placeRaw_same {m : Nat} {s t : State} (h : placeRaw m s = some t) : t.mem = s.mem ∧ t.frames = s.frames := by
  unfold placeRaw at h
  dsimp only at h
  split at h
  · cases h
  · split at h
    · cases h
      exact ⟨rfl, rfl⟩
    · split at h
      · cases h
      · obtain ⟨w, -, rfl⟩ := Option.map_eq_some_iff.mp h
        exact ⟨rfl, rfl⟩

/-- An entry as the runtime installs it: class and owner kept, present at the machine address `m`. -/
def installedEntry (old : W64) (m : Nat) : W64 := (old &&& (0x60#64 ||| (0xFFF#64 <<< 42))) ||| BitVec.ofNat 64 (1 + m * 2 ^ 9)

theorem installFrame_entry {f : Nat} (h : installFrame f e s = some u) :
    u.frame f = installedEntry (s.frame f) (bits e 9 33).toNat ∧ u.mem = s.mem := by
  unfold installFrame at h
  dsimp only at h
  obtain ⟨t, ht, rfl⟩ := Option.map_eq_some_iff.mp h
  obtain ⟨hmem, hframes⟩ := placeRaw_same ht
  refine ⟨?_, hmem⟩
  have hf : t.frame f = s.frame f := by simp only [State.frame, hframes]
  rw [hf]
  exact tget_tset_same ..

theorem installedEntry_getLsbD (old : W64) (x : BitVec 33) {j : Nat} (hj : j < 64) : (installedEntry old x.toNat).getLsbD j
    = (old.getLsbD j && (0x60#64 ||| (0xFFF#64 <<< 42)).getLsbD j || if j < 9 then decide (j = 0) else x.getLsbD (j - 9)) := by
  have hx : (1 + x.toNat * 2 ^ 9).testBit j = if j < 9 then decide (j = 0) else x.getLsbD (j - 9) := by
    rw [Nat.add_comm, Nat.mul_comm, Nat.testBit_two_pow_mul_add _ (by decide)]
    split
    · exact Bool.eq_iff_iff.mpr (Nat.testBit_one_eq_true_iff_self_eq_zero.trans (by simp))
    · rfl
  rw [installedEntry, BitVec.getLsbD_or, BitVec.getLsbD_and, BitVec.getLsbD_ofNat, hx]
  simp [hj]

/-- The installed entry is present, of the class and owner that the frame had. -/
theorem installedEntry_keeps (old : W64) (x : BitVec 33) : frP (installedEntry old x.toNat) = true
    ∧ frCoh (installedEntry old x.toNat) = frCoh old ∧ frOwner (installedEntry old x.toNat) = frOwner old := by
  refine ⟨?_, congrArg BitVec.toNat (BitVec.eq_of_getLsbD_eq fun i hi => ?_), congrArg BitVec.toNat (BitVec.eq_of_getLsbD_eq fun i hi => ?_)⟩
  · exact (installedEntry_getLsbD old x (j := 0) (by decide)).trans (by simp)
  · rw [bits, bits, BitVec.getLsbD_extractLsb', BitVec.getLsbD_extractLsb', installedEntry_getLsbD old x (by omega)]
    interval_cases i <;> simp
  · rw [bits, bits, BitVec.getLsbD_extractLsb', BitVec.getLsbD_extractLsb', installedEntry_getLsbD old x (by omega),
      if_neg (by omega), BitVec.getLsbD_of_ge x _ (by omega)]
    interval_cases i <;> simp

/-- A frame the runtime installs is there in its class, and no byte of memory changes. -/
theorem installFrame_installs {f : Nat} (h : installFrame f e s = some u) :
    frP (u.frame f) = true ∧ frCoh (u.frame f) = frCoh (s.frame f) ∧ frOwner (u.frame f) = frOwner (s.frame f) ∧ u.mem = s.mem := by
  obtain ⟨he, hm⟩ := installFrame_entry h
  obtain ⟨h1, h2, h3⟩ := installedEntry_keeps (s.frame f) (bits e 9 33)
  rw [he]
  exact ⟨h1, h2, h3, hm⟩

theorem frameWaiter_of_waits (h : (s.ctx c.val).run = .frameWait) : frameWaiter s c.val = some (s.ctx c.val, false, fun x s => s.setCtx c.val x) := by
  unfold frameWaiter
  simp only [h, if_true]

theorem Ctx.serviced_installed (x : Ctx) (now : Nat) : x.serviced true false now = { x.rfe now with run := .ready } := rfl

/-- The runtime's answer for a context that waits; `ok` says whether the frame may be installed. -/
def answerFrame (g : Nat) (entry : Option W64) (x : Ctx) (saved : Bool) (put : Ctx → State → State) (f : Nat) (ok : Bool) (s : State) :
    Host.Outcome State Fault Refusal :=
  match entry, ok with
  | some e, true => .next (match installFrame f e s with
    | some t => put (x.serviced true saved s.cycles.toNat) t
    | none => s)
  | _, _ => .next (violation 0 0x08 x.part g x.trapinfo (put (x.serviced false saved s.cycles.toNat) s))

theorem frameService_answers {o : Option W64} (hreq : s.request = .frameService c o) {x : Ctx} {sv : Bool} {put : Ctx → State → State}
    (hr : frameWaiter s c.val = some (x, sv, put)) {ok : Bool} {f : Nat} (hf : x.trapinfo.toNat / 65536 = f) (hok : installable s x.part f = ok) :
    execFrameService s = answerFrame c.val o x sv put f ok s := by
  unfold execFrameService
  rw [hreq]
  dsimp only
  rw [hr]
  dsimp only
  rw [hf, hok]
  rfl

theorem frameService_installs {f : Nat} (hreq : s.request = .frameService c (some e)) (hr : (s.ctx c.val).run = .frameWait)
    (hx : (s.ctx c.val).trapinfo.toNat / 65536 = f) (hi : installable s (s.ctx c.val).part f = true) (hf : installFrame f e s = some u) :
    exec .frameService s = .next (u.setCtx c.val { (s.ctx c.val).rfe s.cycles.toNat with run := .ready }) := by
  refine (frameService_answers hreq (frameWaiter_of_waits hr) hx hi).trans ?_
  simp only [answerFrame, hf, Ctx.serviced_installed]

theorem frameService_handler (hreq : s.request = .frameService c (some e)) (hh : handlesFrame (s.ctx c.val) = true)
    (hw : ∀ y ∈ s.saves, y.2.home = c.val → y.2.ctx.run ≠ .frameWait)
    (hi : installable s (s.ctx c.val).part ((s.ctx c.val).trapinfo.toNat / 65536) = true)
    (hf : installFrame ((s.ctx c.val).trapinfo.toNat / 65536) e s = some u) : exec .frameService s = .next u := by
  have hplaced : (s.ctx c.val).run.placed = true := by
    unfold handlesFrame at hh
    simp only [Bool.and_eq_true] at hh
    exact hh.2
  have hnone : frameWaiter s c.val = none := by
    unfold frameWaiter
    dsimp only
    rw [if_neg (by cases hrun : (s.ctx c.val).run <;> simp_all [Run.placed]), Option.map_eq_none_iff, List.find?_eq_none]
    intro y hy
    have := hw y hy
    by_cases hhome : y.2.home = c.val
    · have hne := this hhome
      cases hrun : y.2.ctx.run <;> simp_all
    · simp [hhome]
  show execFrameService s = _
  unfold execFrameService
  rw [hreq]
  dsimp only
  rw [hnone]
  dsimp only
  rw [hh, hi, Bool.and_self]
  dsimp only
  rw [hf]
  rfl

theorem frameService_refused (hreq : s.request = .frameService c none) (hr : (s.ctx c.val).run = .frameWait) :
    exec .frameService s = .next (violation 0 0x08 (s.ctx c.val).part c.val (s.ctx c.val).trapinfo (s.setCtx c.val ((s.ctx c.val).freeze 0x08))) := by
  show execFrameService s = _
  unfold execFrameService
  rw [hreq]
  dsimp only
  rw [frameWaiter_of_waits hr]
  rfl

end

/-- A context as dispatch leaves it (R362). -/
theorem dispatched_registers (l : Launch) (k grp prog base : Nat) (o : Kobj) (entry : W64) (table : Tbl (BitVec 256)) (now : Nat) :
    (dispatched l k grp prog base o entry table now).s 1 = l.args ∧ ∀ n, n ≠ 1 → (dispatched l k grp prog base o entry table now).s n = 0 := by
  unfold dispatched
  by_cases ha : l.args = 0
  · rw [if_pos ha]
    exact ⟨ha.symm, fun n _ => by simp [Ctx.s, tget]⟩
  · rw [if_neg ha]
    refine ⟨rfl, fun n hn => ?_⟩
    have hne : ¬ 1 = n.toNat := fun h => hn (BitVec.eq_of_toNat_eq h.symm)
    simp [Ctx.s, tget, hne]

/-- Settles O51: each clause by the rule of its event; a placement keeps launches and numbers until it counts its group. -/
theorem dispatchEvents : Obligations.DispatchEvents := by
  unfold Obligations.DispatchEvents
  intro s
  refine ⟨?place, fun die k l hreq hl hr hn ho => groupPlace_too_large hreq hl hr hn ho, ?dispatch, fun k x h hd hl hb => groupComplete_releases h hd hl hb,
    ?resume, ?quantum, ?early, ?treasury, ?weight, ?install, ?handler, fun c hreq hr => frameService_refused hreq hr⟩
  case place =>
    intro die k l cl ps hreq hl hr hn ho hp hopen hb hf u
    have e := groupPlace_checked hreq hl hr hn ho hp hopen hb hf
    refine ⟨fun cp st i h => ?_, fun h => ?_⟩
    · rw [show refusedTable (tablesRead l ps s) l ps = _ from h] at e
      exact e
    · rw [show refusedTable (tablesRead l ps s) l ps = _ from h] at e
      have ht := tablesRead_tasks l ps s
      obtain ⟨h1, h2, h3, h4, h5, h6⟩ :=
        (((placeGroup_placed (s := tablesRead l ps s) (by rw [ht.launches]; exact hl) cl ps).settleGains (vf := l.vf) cl).of_tasks ht)
      exact ⟨_, e, h1, h2, h3, h4, h5, h6⟩
  case dispatch =>
    intro l k grp prog base o entry table now c
    obtain ⟨h1, h2⟩ := dispatched_registers l k grp prog base o entry table now
    refine ⟨rfl, rfl, h1, h2, fun n => rfl, fun n hn => ?_, fun n => rfl, fun n => rfl, rfl, rfl, rfl, rfl, rfl, rfl, rfl⟩
    simp [c, dispatched, Ctx.p, hn, Ctx.initial, tget]
  case resume =>
    intro k ht hr vf hv
    exact groupResume_resumes ht hr hv
  case quantum =>
    intro h turn t
    exact congrArg Host.Outcome.next (if_neg (by omega))
  case early =>
    exact fun h => congrArg Host.Outcome.next (if_pos h)
  case treasury =>
    intro ext hreq
    obtain ⟨t, ht, hclose⟩ := treasuryClose_closes hreq
    exact ⟨t, ht, fun v x hx => ⟨_, hclose v x hx, rfl, rfl, rfl, rfl⟩⟩
  case weight =>
    intro vf w hreq h1 h2
    show execVfWeightSet s = _
    unfold execVfWeightSet
    rw [hreq]
    exact congrArg Host.Outcome.next (if_pos ⟨h1, h2⟩)
  case install =>
    exact fun c e u hreq hr hi hf => ⟨frameService_installs hreq hr rfl hi hf, installFrame_installs hf⟩
  case handler =>
    exact fun c e u hreq hh hw hi hf => frameService_handler hreq hh hw hi hf

end Sys2Proof.Machine
end

section
/-! PROOF. The Mint, mailboxes and images (R60 to R64, R189, R376 to R388). -/
set_option Elab.async false
namespace Sys2Proof.Machine

/-! ## The iteration boundary (R379, R380) -/

theorem foldl_keeps {α β γ : Type} (f : α → β → α) (p : α → γ) (hf : ∀ a b, p (f a b) = p a) (l : List β) (a : α) : p (l.foldl f a) = p a := by
  induction l generalizing a with
  | nil => rfl
  | cons b l ih => exact (ih _).trans (hf a b)

/-- The iteration that ran ends with the same members, numbered one higher. -/
theorem Mint.finish_spec (m : Mint) : m.finish.members = m.members ∧ m.finish.iter = m.iter + 1 ∧ m.finish.running = false := by
  unfold Mint.finish
  dsimp only
  refine ⟨?_, congrArg (· + 1) ?_, rfl⟩
  · refine foldl_keeps _ Mint.members (fun _ _ => ?_) _ m
    rfl
  · refine foldl_keeps _ Mint.iter (fun _ _ => ?_) _ m
    rfl

/-- The Mint of the next boundary: an iteration that ran has ended. -/
def Mint.ended (m : Mint) : Mint := if m.running then m.finish else m

theorem Mint.ended_members (m : Mint) : m.ended.members = m.members := by
  unfold Mint.ended
  split
  · exact m.finish_spec.1
  · rfl

section
variable {s : State} {die : Fin 64} {m : Mint}

theorem State.mint_modMint (h : (s.die die.val).mint = some m) (f : Mint → Mint) : ((s.modMint die.val f).die die.val).mint = some (f m) := by
  rw [State.modMint, State.die_modDie_same]
  exact congrArg (Option.map f) h

theorem mintIterationBoundary_next (h : (s.die die.val).mint = some m) (hs : m.stopped = false) (hb : m.busy = false)
    (hp : ∀ g ∈ m.members, (s.ctx g).preempt = false) (hr : mintReady s m = true) :
    exec (.mintIterationBoundary die) s = .next ((s.modMint die.val fun _ => m.ended).modMint die.val fun _ => m.ended.boundary) := by
  have hpre : ((m.ended.resident (s.modMint die.val fun _ => m.ended)).any fun g => (s.ctx g).preempt) = false := by
    rw [List.any_eq_false]
    intro g hg
    have hmem := (List.mem_filter.mp hg).1
    rw [m.ended_members] at hmem
    simp [hp g hmem]
  have hready : mintReady (s.modMint die.val fun _ => m.ended) m.ended = true := by
    unfold mintReady
    rw [m.ended_members]
    exact hr
  show execMintIterationBoundary die s = _
  unfold execMintIterationBoundary
  dsimp only
  rw [h]
  dsimp only
  rw [if_neg (by rw [hs, hb]; exact Bool.false_ne_true)]
  refine (if_neg ?_).trans (if_neg ?_)
  · exact ne_true_of_eq_false hpre
  · exact ne_true_of_eq_false ((congrArg not hready).trans rfl)

/-- A set that is bound to its contexts. -/
structure SetLoaded (s t : State) (k : Nat) (cores pool : List Nat) (tpp : Nat) (die : Fin 64) (m : Mint) : Prop where
  mint : (t.die die.val).mint = some m
  launch : m.launch = k
  members : m.members = (cores.map (streamOf s k)).filterMap id
  pool : m.pool = pool
  tpp : m.tpp = tpp
  table : m.table = []
  reqs : m.reqs = (s.die die.val).reqs
  drafts : m.drafts = (s.die die.val).drafts
  running : m.running = false
  stopped : m.stopped = false
  streams : ∀ g ∈ m.members, (t.ctx g).stream = true

/-- A set as it starts: no bucket, no row, and what was written to its die's request table and draft slots before (R376). -/
def newSet (k : Nat) (gs pool : List Nat) (tpp : Nat) (d : Die) : Mint :=
  { launch := k, members := gs, table := [], rows := [], row := 0, rowsLeft := 0, first := 0, late := 0, hold := false,
    stopped := false, pool := pool, tpp := tpp, reqs := d.reqs, accept := [], drafts := d.drafts, occ := 0, act := 0,
    draft := 0, bucketOcc := 0, bucketD := 0, shrunk := false, evict := false,
    bucketIter := 0, iter := 0, running := false, waiting := false, evicting := false }

/-- Contexts become stream contexts one by one, and stay so. -/
theorem streams_set (l : List Nat) (s : State) (g : Nat) (h : g ∈ l ∨ (s.ctx g).stream = true) :
    ((s.each l fun g s => s.modCtx g fun c => { c with stream := true }).ctx g).stream = true := by
  induction l generalizing s with
  | nil =>
    obtain h | h := h
    · cases h
    · exact h
  | cons x l ih =>
    refine ih (s.modCtx x fun c => { c with stream := true }) ?_
    by_cases hx : g = x
    · subst hx
      exact .inr (by simp)
    · obtain h | h := h
      · exact .inl ((List.mem_cons.mp h).resolve_left hx)
      · exact .inr (by simpa [hx] using h)

theorem mintSetLoad_loads {k : Nat} {l : Launch} {cores pool : List Nat} {tpp : Nat} (hreq : s.request = .mintSetLoad die k cores pool tpp)
    (hl : tfind s.launches k = some l) (hm : (s.die die.val).mint = none) (hc : (s.die die.val).mintClosed = false) (h1 : 1 ≤ tpp) (h2 : tpp ≤ 4096)
    (hcores : ∀ c ∈ cores, c / 64 = die.val ∧ (s.cluster (c / 8)).part = some l.part ∧ ∃ g, streamOf s k c = some g) :
    ∃ t m, exec .mintSetLoad s = .next t ∧ SetLoaded s t k cores pool tpp die m := by
  have hall : ((cores.map (streamOf s k)).any (·.isNone)) = false := by
    rw [List.any_eq_false]
    intro o ho
    obtain ⟨c, hcm, rfl⟩ := List.mem_map.mp ho
    obtain ⟨-, -, g, hg⟩ := hcores c hcm
    simp [hg]
  have hplace : (cores.any fun c => c / 64 != die.val || (s.cluster (c / 8)).part != some l.part) = false := by
    rw [List.any_eq_false]
    intro c hcm
    obtain ⟨hd, hp, -⟩ := hcores c hcm
    simp [hd, hp]
  refine ⟨((s.each ((cores.map (streamOf s k)).filterMap id) fun g s => s.modCtx g fun c => { c with stream := true }).modDie die.val fun x =>
    { x with mint := some (newSet k ((cores.map (streamOf s k)).filterMap id) pool tpp (s.die die.val)) }), _, ?_, ⟨congrArg Die.mint (State.die_modDie_same ..), rfl, rfl, rfl, rfl, rfl, rfl, rfl, rfl, rfl, fun g hg => ?_⟩⟩
  · show execMintSetLoad s = _
    unfold execMintSetLoad
    rw [hreq]
    dsimp only
    rw [hl]
    dsimp only
    rw [if_neg (by rw [hm, hc, hall, hplace]; simp; omega)]
    rfl
  · exact streams_set _ s g (.inl hg)

theorem bucketTableLoad_loads {table : List W64} {rows : List (BitVec 128)} (hreq : s.request = .bucketTableLoad die table rows)
    (hm : (s.die die.val).mint = some m) (hr : m.running = false) (hb : ∀ e ∈ table, bucketBad e = false) (h1 : table.length ≤ 144)
    (h2 : rows.length ≤ 32768) : exec .bucketTableLoad s = .next (s.modMint die.val fun m =>
      { m with table := table.zipIdx.map fun e => (e.2, e.1), rows := rows.zipIdx.map fun e => (e.2, e.1) }) := by
  have hany : table.any bucketBad = false := List.any_eq_false.mpr fun e he => ne_true_of_eq_false (hb e he)
  show execBucketTableLoad s = _
  unfold execBucketTableLoad
  rw [hreq]
  dsimp only
  rw [hm]
  dsimp only
  rw [if_neg (by rw [hr, hany]; simp; omega)]

/-! ## Rows (R61 to R64, R377, R387) -/

/-- What a cycle of a set in place does: it holds, it stalls, or its rows are executed. -/
def sendRow (d : Nat) (m : Mint) (u : State) : State :=
  if setBlocks d m u then holdSet d m u
  else match setStalls m.cycle u with
    | some v => v
    | none =>
      if mintStopped (rowCycle d m.cycle u) d then rowCycle d m.cycle u
      else if m.cycle.all fun x => rowCommitted x.1 u (rowCycle d m.cycle u) then (rowCycle d m.cycle u).modMint d Mint.advance
      else holdSet d m u

theorem mintRowSend_eq (h : (s.die die.val).mint = some m) (hs : m.stopped = false) (hb : m.busy = true) (hh : m.hold = false)
    (hr : mintReady s m = true) : exec (.mintRowSend die) s = .next (sendRow die.val m (s.each m.members takeRefills)) := by
  show execMintRowSend die s = _
  unfold execMintRowSend sendRow
  dsimp only
  rw [h]
  dsimp only
  rw [if_neg (by rw [hs, hb, hh, hr]; decide)]
  split
  · rfl
  · cases setStalls m.cycle (s.each m.members takeRefills) with
    | some v => rfl
    | none =>
      dsimp only
      split
      · rfl
      · split <;> rfl

variable {u : State} {d : Nat}

theorem sendRow_holds (hb : setBlocks d m u = true) (h : m.rowsLeft = 0 ∨ wayBlocks m u = true) :
    sendRow d m u = u.modMint d fun m => { m with hold := true } :=
  (if_pos hb).trans (if_pos h)

/-- A set that blocks at its next row only lets every level catch up first. -/
theorem sendRow_catches_up (hb : setBlocks d m u = true) (h1 : m.rowsLeft ≠ 0) (h2 : wayBlocks m u = false) :
    sendRow d m u = if mintStopped (caughtUp d m u) d then caughtUp d m u
      else (caughtUp d m u).modMint d fun m => { m with hold := true, first := m.row } :=
  (if_pos hb).trans (if_neg (by simp [h1, h2]))

theorem sendRow_stalls {v : State} (hb : setBlocks d m u = false) (h : setStalls m.cycle u = some v) : sendRow d m u = v := by
  unfold sendRow
  rw [if_neg (ne_true_of_eq_false hb), h]

theorem sendRow_executes (hb : setBlocks d m u = false) (h : setStalls m.cycle u = none) :
    sendRow d m u = if mintStopped (rowCycle d m.cycle u) d then rowCycle d m.cycle u
      else if m.cycle.all fun x => rowCommitted x.1 u (rowCycle d m.cycle u) then (rowCycle d m.cycle u).modMint d Mint.advance
      else holdSet d m u := by
  unfold sendRow
  rw [if_neg (ne_true_of_eq_false hb), h]

theorem streamHoldRelease_releases (h : (s.die die.val).mint = some m) (hh : m.hold = true) (hb : setBlocks die.val m s = false) :
    exec (.streamHoldRelease die) s = .next (s.modMint die.val fun m => { m with hold := false }) := by
  show execStreamHoldRelease die s = _
  unfold execStreamHoldRelease
  rw [h]
  dsimp only
  rw [if_pos (by rw [hh, hb]; rfl)]

theorem Mint.advance_spec (h : m.rowsLeft ≠ 0) : m.advance.row = m.row + 1 ∧ m.advance.rowsLeft = m.rowsLeft - 1 := by
  unfold Mint.advance
  rw [if_neg h]
  exact ⟨rfl, rfl⟩

end

/-! ## Mailboxes and images (R189, R385, R386) -/

section
variable {s : State}

theorem mailboxSeqWrite_stores {c : Fin 16384} {x : Fin 16} {val : W64} (hreq : s.request = .mailboxSeqWrite c x val)
    (hp : (s.ctx c.val).run.placed = true) (hr : mintReadOk s c.val (0x4000 + 0x400 * x.val) = true)
    (hw : mintStoreOk s c.val (0x4000 + 0x400 * x.val) 8 0 = true) :
    exec .mailboxSeqWrite s = .next (mintStore c.val (0x4000 + 0x400 * x.val) (leBytes 8 val.toNat) s) := by
  show execMailboxSeqWrite s = _
  unfold execMailboxSeqWrite
  rw [hreq]
  dsimp only
  rw [if_neg (by rw [hp]; decide), if_pos (by rw [hr, hw]; rfl)]

theorem mailboxGrant_gives {n : Fin 1024} {p : Fin 512} (hreq : s.request = .mailboxGrant n p none) (h : (s.mailbox n.val).launch = none) :
    exec .mailboxGrant s = .next { s with mailboxes := tset s.mailboxes n.val { s.mailbox n.val with part := some p.val } } := by
  show execMailboxGrant s = _
  unfold execMailboxGrant
  rw [hreq]
  dsimp only
  rw [if_neg (by simp [h])]

theorem microstoreImageLoad_fills {cl : Fin 512} {k : Nat} {words entries : List W64} {l : Launch}
    (hreq : s.request = .microstoreImageLoad cl k words entries) (hm : s.regs.mini = false) (hl : tfind s.launches k = some l)
    (hp : (s.cluster cl.val).part = some l.part) (hi : (s.cluster cl.val).image = none) :
    exec .microstoreImageLoad s = .next (loadImage cl.val k words entries s) := by
  show execMicrostoreImageLoad s = _
  unfold execMicrostoreImageLoad
  rw [hreq]
  dsimp only
  rw [if_neg (by simp [State.released, hm, hl, hp]), if_neg (by simp [hi])]

end

/-- Settles O52: each clause by the cases of its event; a cycle of the tree by `sendRow`. -/
theorem mintEvents : Obligations.MintEvents := by
  unfold Obligations.MintEvents
  intro s
  refine ⟨?load, fun die table rows m hreq hm hr hb h1 h2 => bucketTableLoad_loads hreq hm hr hb h1 h2, ?boundary, fun m => m.finish_spec.2, ?rows,
    fun m h => Mint.advance_spec h, fun die m h hh hb => streamHoldRelease_releases h hh hb,
    fun c x val hreq hp hr hw => mailboxSeqWrite_stores hreq hp hr hw, fun n p hreq h => mailboxGrant_gives hreq h,
    fun cl k words entries l hreq hm hl hp hi => microstoreImageLoad_fills hreq hm hl hp hi⟩
  case load =>
    intro die k l cores pool tpp hreq hl hm hc h1 h2 hcores
    obtain ⟨t, m, ht, ⟨g1, g2, g3, g4, g5, g6, g7, g8, g9, g10, g11⟩⟩ := mintSetLoad_loads hreq hl hm hc h1 h2 hcores
    exact ⟨t, m, ht, g1, g2, g3, g4, g5, g6, g7, g8, g9, g10, g11⟩
  case boundary =>
    intro die m h hs hb hg
    have hready : mintReady s m = true := List.all_eq_true.mpr fun g hm => by
      obtain ⟨-, h1, h2, h3⟩ := hg g hm
      rw [h1, h2, h3]
      rfl
    exact ⟨_, mintIterationBoundary_next h hs hb (fun g hm => (hg g hm).1) hready, State.mint_modMint (State.mint_modMint h _) _, rfl, fun g => rfl⟩
  case rows =>
    intro die m h hs hb hh hr u t w
    have e := mintRowSend_eq h hs hb hh hr
    refine ⟨fun h1 h2 => ?_, fun h1 h2 h3 h4 => ?_, fun h1 h2 h3 h4 => ?_, fun v h1 h2 => ?_, fun h1 h2 h3 => ?_, fun h1 h2 h3 h4 => ?_⟩
    · rw [e, sendRow_holds h1 h2]
    · rw [e, sendRow_catches_up h1 h2 h3, if_neg (ne_true_of_eq_false h4)]
    · rw [e, sendRow_catches_up h1 h2 h3, if_pos h4]
    · rw [e, sendRow_stalls h1 h2]
    · rw [e, sendRow_executes h1 h2, if_pos h3]
    · rw [e, sendRow_executes h1 h2, if_neg (ne_true_of_eq_false h3), if_pos (List.all_eq_true.mpr h4)]

end Sys2Proof.Machine
end

section
/-! PROOF. The host, other masters and ports (R27, R31, R358, R392 to R394, R404, R405, R418, R421, R445, R448 to R458). -/
set_option Elab.async false
namespace Sys2Proof.Machine

/-! ## Registers of the host (R449 to R451, R458) -/

section
variable {s : State}

theorem tailWrite_accepted {vf q : Nat} {tail : W32} (he : (s.queue vf q).err = false)
    (hr : (tail - (s.queue vf q).tail).toNat + ((s.queue vf q).tail - (s.queue vf q).head).toNat ≤ 2 ^ (s.queue vf q).log) :
    tailWrite vf q tail s = { s with
      queues := tset s.queues (queueKey vf q) { s.queue vf q with tail := tail }
      tails := if tail = (s.queue vf q).tail then s.tails else s.tails ++ [(s.cycles, queueKey vf q, tail)] } := by
  rw [Nat.add_comm] at hr
  have hok : (!(s.queue vf q).err && decide (((s.queue vf q).tail - (s.queue vf q).head).toNat + (tail - (s.queue vf q).tail).toNat
      ≤ 2 ^ (s.queue vf q).log)) = true := by rw [he, decide_eq_true hr]; rfl
  unfold tailWrite
  dsimp only
  rw [hok]
  by_cases ht : tail = (s.queue vf q).tail
  · simp [ht]
  · simp [ht]

theorem tailWrite_overrun {vf q : Nat} {tail : W32}
    (hr : 2 ^ (s.queue vf q).log < (tail - (s.queue vf q).tail).toNat + ((s.queue vf q).tail - (s.queue vf q).head).toNat) :
    tailWrite vf q tail s = { s with queues := tset s.queues (queueKey vf q) { s.queue vf q with err := true } } := by
  rw [Nat.add_comm] at hr
  have hok : (!(s.queue vf q).err && decide (((s.queue vf q).tail - (s.queue vf q).head).toNat + (tail - (s.queue vf q).tail).toNat
      ≤ 2 ^ (s.queue vf q).log)) = false := by rw [decide_eq_false (by omega), Bool.and_false]
  unfold tailWrite
  dsimp only
  rw [hok]
  rfl

/-- The configuration a write leaves: a size outside 4 to 16 leaves EN 0 (R450). -/
def cfgTaken (val : W64) : W64 :=
  if (bits (val &&& 0x31F) 0 5).toNat < 4 ∨ 16 < (bits (val &&& 0x31F) 0 5).toNat then (val &&& 0x31F) &&& 0x11F else val &&& 0x31F

theorem cfg_log_masked (val : W64) : bits (val &&& 0x31F) 0 5 = val.extractLsb' 0 5 := by
  refine BitVec.eq_of_getLsbD_eq fun i hi => ?_
  rw [bits, BitVec.getLsbD_extractLsb', BitVec.getLsbD_extractLsb', BitVec.getLsbD_and]
  interval_cases i <;> simp

theorem cfgTaken_log (val : W64) : bits (cfgTaken val) 0 5 = val.extractLsb' 0 5 := by
  unfold cfgTaken
  split
  · rw [← cfg_log_masked val]
    refine BitVec.eq_of_getLsbD_eq fun i hi => ?_
    rw [bits, bits, BitVec.getLsbD_extractLsb', BitVec.getLsbD_extractLsb', BitVec.getLsbD_and]
    interval_cases i <;> simp
  · exact cfg_log_masked val

theorem cfgTaken_collective (val : W64) : bit (cfgTaken val) 8 = val.getLsbD 8 := by
  unfold cfgTaken bit
  split <;> simp

theorem cfgTaken_en (val : W64) :
    bit (cfgTaken val) 9 = (val.getLsbD 9 && decide (4 ≤ (val.extractLsb' 0 5).toNat ∧ (val.extractLsb' 0 5).toNat ≤ 16)) := by
  unfold cfgTaken bit
  rw [cfg_log_masked]
  split
  next h => rw [decide_eq_false (by omega)]; simp
  next h => rw [decide_eq_true (by omega)]; simp

theorem cfgWrite_queue (vf q : Nat) (val : W64) : (cfgWrite vf q val s).queue vf q =
    if bit (cfgTaken val) 9 then { s.queue vf q with cfg := cfgTaken val }
    else { s.queue vf q with cfg := cfgTaken val, head := (s.queue vf q).tail, err := false } := by
  exact tget_tset_same ..

/-- A queue as a QCFG write leaves it. -/
theorem cfgWrite_spec (vf q : Nat) (val : W64) :
    ((cfgWrite vf q val s).queue vf q).log = (val.extractLsb' 0 5).toNat ∧ ((cfgWrite vf q val s).queue vf q).collective = val.getLsbD 8
      ∧ ((cfgWrite vf q val s).queue vf q).en
        = (val.getLsbD 9 && decide (4 ≤ (val.extractLsb' 0 5).toNat ∧ (val.extractLsb' 0 5).toNat ≤ 16))
      ∧ (((cfgWrite vf q val s).queue vf q).en = false →
        ((cfgWrite vf q val s).queue vf q).head = (s.queue vf q).tail ∧ ((cfgWrite vf q val s).queue vf q).err = false) := by
  have hcfg : ((cfgWrite vf q val s).queue vf q).cfg = cfgTaken val := by
    rw [cfgWrite_queue]
    split <;> rfl
  refine ⟨?_, ?_, ?_, fun h => ?_⟩
  · rw [Queue.log, hcfg, cfgTaken_log]
  · rw [Queue.collective, hcfg, cfgTaken_collective]
  · rw [Queue.en, hcfg, cfgTaken_en]
  · rw [Queue.en, hcfg] at h
    rw [cfgWrite_queue, if_neg (ne_true_of_eq_false h)]
    exact ⟨rfl, rfl⟩

theorem shareWrite_sets {vf : Fin 1024} {val : W64} (hreq : s.request = .shareWrite vf val)
    (h : s.vfs.foldl (fun n e => if e.1 = vf.val then n else n + e.2.share) 0 + (val.extractLsb' 0 16).toNat ≤ 65536) :
    exec .shareWrite s = .next (s.modVf vf.val fun f => { f with share := (val.extractLsb' 0 16).toNat }) := by
  show execShareWrite s = _
  unfold execShareWrite
  rw [hreq]
  exact congrArg Host.Outcome.next (if_neg (not_lt.mpr h))

theorem pwrctlWrite_sets {val : W64} (hreq : s.request = .pwrctlWrite val) (h1 : 1000 ≤ (val.extractLsb' 0 13).toNat)
    (h2 : (val.extractLsb' 0 13).toNat ≤ 6400) :
    exec .pwrctlWrite s = .next { s with regs := { s.regs with allow := (val.extractLsb' 0 13).toNat } } := by
  have e : execPwrctlWrite s = .next (setPower val s) := by
    unfold execPwrctlWrite
    rw [hreq]
  exact e.trans (congrArg Host.Outcome.next (if_pos ⟨h1, h2⟩))

theorem registerWrite_unaligned {vf : Fin 1024} {off n : Nat} {val : W64} (hreq : s.request = .registerWrite (some vf) off n val)
    (h : n ≠ 8 ∨ off % 8 ≠ 0) : exec .registerWrite s = .next { s with answer := .unsupported } := by
  show execRegisterWrite s = _
  unfold execRegisterWrite
  rw [hreq]
  exact congrArg Host.Outcome.next (if_pos h)

theorem registerWrite_aligned {vf : Fin 1024} {off n : Nat} {val : W64} (hreq : s.request = .registerWrite (some vf) off n val)
    (hn : n = 8) (ho : off % 8 = 0) : exec .registerWrite s = .next { vfWrite vf.val off val s with answer := .done } := by
  show execRegisterWrite s = _
  unfold execRegisterWrite
  rw [hreq]
  exact congrArg Host.Outcome.next (if_neg (by omega))

theorem registerRead_unaligned {fn : Option (Fin 1024)} {off n : Nat} (hreq : s.request = .registerRead fn off n) (h : n ≠ 8 ∨ off % 8 ≠ 0) :
    exec .registerWrite s = .next { s with answer := .unsupported } := by
  show execRegisterWrite s = _
  unfold execRegisterWrite
  rw [hreq]
  exact congrArg Host.Outcome.next (if_pos h)

theorem registerRead_aligned {off n : Nat} (hreq : s.request = .registerRead none off n) (hn : n = 8) (ho : off % 8 = 0) :
    exec .registerWrite s = .next { s with answer := .data 8 ((pfRead s off).setWidth 512) false } := by
  show execRegisterWrite s = _
  unfold execRegisterWrite
  rw [hreq]
  exact congrArg Host.Outcome.next (if_neg (by omega))

end

/-! ## Accesses of masters other than contexts (R392, R393, R418, R453) -/

section
variable {s : State} {a : Access}

theorem spillMet_read (h : a.kind = .read) (pa : Nat) : spillMet s a pa = false := by
  simp [spillMet, accWrites, h]

/-- What a read by a master other than a context leaves: its frames touched, its bytes in the answer. -/
def readDone (s : State) (a : Access) (pa : Nat) : State :=
  { s.each (accFrames a pa) touchFrame with answer := .data a.size (BitVec.ofNat 512 (leNat (readBytes s.mem pa a.size))) false }

theorem any_map_const {α β : Type} {f : β → Bool} {x : β} (h : f x = false) (l : List α) : (l.map fun _ => x).any f = false := by
  induction l with
  | nil => rfl
  | cons a l ih => simp [h]

theorem findSome?_map_const {α β γ : Type} {f : β → Option γ} {x : β} (h : f x = none) (l : List α) : (l.map fun _ => x).findSome? f = none := by
  induction l with
  | nil => rfl
  | cons a l ih => simp [h]

/-- A read of present memory without poison performs. -/
theorem dpAccess_read (src : Answer → Source) {pa : Nat} (hk : a.kind = .read) (hp : ∀ x ∈ pieces pa a.size, probe s x.1 = .ok none)
    (hq : poisonIn s pa a.size = none) : dpAccess src a pa s = .performed (readDone s a pa) := by
  have hps : (pieces pa a.size).map (fun p => probe s p.1) = (pieces pa a.size).map fun _ => .ok none := List.map_congr_left hp
  unfold dpAccess
  dsimp only
  rw [hps, any_map_const, findSome?_map_const, any_map_const, hq, hk]
  · rfl
  all_goals rfl

theorem hostMemoryRequest_mini {vf : Option (Fin 1024)} (hreq : s.request = .hostMemoryRequest vf a) (hm : s.regs.mini = true) :
    exec .hostMemoryRequest s = .next { s with answer := .unsupported } := by
  have hno : !s.released ∨ a.size = 0 ∨ 64 < a.size := .inl (by simp [State.released, hm])
  show execHostMemoryRequest s = _
  unfold execHostMemoryRequest
  split
  next vf' a' h =>
    obtain ⟨rfl, rfl⟩ : vf' = vf ∧ a' = a := by simpa [hreq] using h.symm
    rw [if_pos hno]
  next h => exact absurd hreq (h vf a)

/-- The checks of a host request of 1 to 64 bytes, with the Vaults released. -/
theorem hostMemoryRequest_released {vf : Option (Fin 1024)} (hreq : s.request = .hostMemoryRequest vf a) (hm : s.regs.mini = false)
    (h0 : 0 < a.size) (h1 : a.size ≤ 64) :
    exec .hostMemoryRequest s = .next (if !(accFrames a a.addr).all (hostAdmits s vf (accWrites a)) || spillMet s a a.addr then hostViolation vf a.addr s
      else match dpAccess .door a a.addr s with
        | .performed s => s
        | .absent => { s with answer := .unsupported }
        | .noSpace => hostViolation vf a.addr s
        | .waiting s => { s with answer := .none }) := by
  have hgo : ¬ (!s.released ∨ a.size = 0 ∨ 64 < a.size) := by simp [State.released, hm]; omega
  show execHostMemoryRequest s = _
  unfold execHostMemoryRequest
  split
  next vf' a' h =>
    obtain ⟨rfl, rfl⟩ : vf' = vf ∧ a' = a := by simpa [hreq] using h.symm
    rw [if_neg hgo] <;> rfl
  next h => exact absurd hreq (h vf a)

theorem hostMemoryRequest_reads {vf : Option (Fin 1024)} (hreq : s.request = .hostMemoryRequest vf a) (hm : s.regs.mini = false)
    (h0 : 0 < a.size) (h1 : a.size ≤ 64) (hk : a.kind = .read) (hf : ∀ f ∈ accFrames a a.addr, hostAdmits s vf false f = true)
    (hp : ∀ p ∈ pieces a.addr a.size, probe s p.1 = .ok none) (hq : poisonIn s a.addr a.size = none) :
    exec .hostMemoryRequest s = .next (readDone s a a.addr) := by
  have hadmit : (accFrames a a.addr).all (hostAdmits s vf (accWrites a)) = true := by
    rw [show accWrites a = false by simp [accWrites, hk]]
    exact List.all_eq_true.mpr hf
  rw [hostMemoryRequest_released hreq hm h0 h1, if_neg (by rw [hadmit, spillMet_read hk]; decide), dpAccess_read .door hk hp hq]

theorem hostMemoryRequest_refused {vf : Option (Fin 1024)} (hreq : s.request = .hostMemoryRequest vf a) (hm : s.regs.mini = false)
    (h0 : 0 < a.size) (h1 : a.size ≤ 64) (hf : ∃ f ∈ accFrames a a.addr, hostAdmits s vf (accWrites a) f = false) :
    exec .hostMemoryRequest s = .next (hostViolation vf a.addr s) := by
  have hadmit : (accFrames a a.addr).all (hostAdmits s vf (accWrites a)) = false := by
    obtain ⟨f, hfm, hff⟩ := hf
    exact List.all_eq_false.mpr ⟨f, hfm, ne_true_of_eq_false hff⟩
  rw [hostMemoryRequest_released hreq hm h0 h1, if_pos (by rw [hadmit]; rfl)]

theorem remoteServe_reads {src : Answer → Source} {node tag : Nat} (hm : s.regs.mini = false) (hn : ∀ n ∈ s.refusedNodes, n.1 ≠ node)
    (h0 : 0 < a.size) (h1 : a.size ≤ 64) (he : s.regs.exportPart = some tag) (hl : a.addr + a.size ≤ s.regs.exportLen) (hk : a.kind = .read)
    (hf : ∀ f ∈ accFrames a (s.regs.exportBase + a.addr), (s.grant f).owner = some tag)
    (hp : ∀ p ∈ pieces (s.regs.exportBase + a.addr) a.size, probe s p.1 = .ok none) (hq : poisonIn s (s.regs.exportBase + a.addr) a.size = none) :
    remoteServe src node tag a s = readDone s a (s.regs.exportBase + a.addr) := by
  have hnode : (s.refusedNodes.any (·.1 == node)) = false := by simpa using hn
  have hgo : (!s.released || s.refusedNodes.any (·.1 == node) || a.size == 0 || decide (64 < a.size)) = false := by
    simp [State.released, hm, hnode]
    omega
  have hadmit : ((accFrames a (s.regs.exportBase + a.addr)).all fun f => (s.grant f).owner == some tag) = true :=
    List.all_eq_true.mpr fun f hfm => by simp [hf f hfm]
  unfold remoteServe
  dsimp only
  rw [if_neg (ne_true_of_eq_false hgo), if_neg (by simpa [he] using hl), if_neg (by rw [hadmit, spillMet_read hk]; decide), dpAccess_read src hk hp hq]

/-- A general core that is held, or whose last access has not completed, accesses nothing. -/
theorem gcAccess_waits {h : Nat} (hw : (s.hart h).frozen ≠ none ∨ hartWaits s h = true) : gcAccess h a s = { s with answer := .none } := by
  have hstop : ((s.hart h).frozen.isSome || hartWaits s h || a.size == 0 || decide (64 < a.size)) = true := by
    obtain hw | hw := hw
    · simp [Option.isSome_iff_ne_none.mpr hw]
    · simp [hw]
  exact if_pos hstop

/-- A general core of a partition reaches a region that runs. -/
theorem gcAccess_reaches {h p : Nat} {r : Region} (h0 : 0 < a.size) (h1 : a.size ≤ 64) (hf : (s.hart h).frozen = none) (hw : hartWaits s h = false)
    (hm : s.regs.mini = false) (hp : (s.hart h).part = some p) (hr : regionOf a.addr a.size = some r) :
    gcAccess h a s = (gcRegion h p r a s).modHart h fun x => { x with answer := (gcRegion h p r a s).answer } := by
  have hgo : ((s.hart h).frozen.isSome || hartWaits s h || a.size == 0 || decide (64 < a.size)) = false := by
    simp [hf, hw]
    omega
  have hruns : regionRuns s r = true := by cases r <;> simp [regionRuns, State.released, hm]
  unfold gcAccess
  dsimp only
  rw [if_neg (ne_true_of_eq_false hgo), hr, hp]
  dsimp only
  rw [if_neg (by rw [hruns]; decide)]

theorem gcAccess_reads {h p : Nat} (h0 : 0 < a.size) (h1 : a.size ≤ 64) (hf : (s.hart h).frozen = none) (hw : hartWaits s h = false)
    (hm : s.regs.mini = false) (hp : (s.hart h).part = some p) (ha : a.addr + a.size ≤ 2 ^ 48) (hk : a.kind = .read)
    (hfr : ∀ f ∈ accFrames a a.addr, hartAdmits s p false f = true) (hpr : ∀ x ∈ pieces a.addr a.size, probe s x.1 = .ok none)
    (hq : poisonIn s a.addr a.size = none) :
    gcAccess h a s = (readDone s a a.addr).modHart h fun x => { x with answer := (readDone s a a.addr).answer } := by
  have hr : regionOf a.addr a.size = some (.device a.addr) := if_pos ha
  have hadmit : (accFrames a a.addr).all (hartAdmits s p (accWrites a)) = true := by
    rw [show accWrites a = false by simp [accWrites, hk]]
    exact List.all_eq_true.mpr hfr
  have e : gcRegion h p (.device a.addr) a s = readDone s a a.addr := by
    unfold gcRegion
    dsimp only
    rw [if_neg (by rw [hadmit, spillMet_read hk]; decide), dpAccess_read (.hart h) hk hpr hq]
  rw [gcAccess_reaches h0 h1 hf hw hm hp hr, e]

theorem gcAccess_outside {h p dpos off : Nat} (h0 : 0 < a.size) (h1 : a.size ≤ 64) (hf : (s.hart h).frozen = none) (hw : hartWaits s h = false)
    (hm : s.regs.mini = false) (hp : (s.hart h).part = some p) (hr : regionOf a.addr a.size = some (.aperture dpos off))
    (hd : inDomain s dpos = false) :
    (gcAccess h a s).answer = .data a.size 0 true ∧ (gcAccess h a s).mem = s.mem ∧ (gcAccess h a s).errors.length = s.errors.length + 1 := by
  have e : gcRegion h p (.aperture dpos off) a s
      = { errorRecord 2 0 (some p) h (BitVec.ofNat 64 a.addr) s with answer := .data a.size 0 true } := by
    unfold gcRegion
    exact if_pos (by rw [hd]; rfl)
  rw [gcAccess_reaches h0 h1 hf hw hm hp hr, e]
  exact ⟨rfl, rfl, List.length_append.trans rfl⟩

end

/-! ## Windows, ports and the fabric (R31, R445, R453, R454, R456) -/

section
variable {s : State}

theorem exportWindowSet_unauthenticated {b n : Nat} {p : Fin 512} (hreq : s.request = .exportWindowSet b n p) (h : s.regs.spdmSession = false) :
    exec .exportWindowSet s = .next s := by
  show execExportWindowSet s = _
  unfold execExportWindowSet
  rw [hreq]
  exact congrArg Host.Outcome.next (if_pos (.inl (by rw [h]; rfl)))

theorem exportWindowSet_sets {b n : Nat} {p : Fin 512} (hreq : s.request = .exportWindowSet b n p) (h : s.regs.spdmSession = true) (hn : n ≤ 2 ^ 34)
    (hb : b % 65536 = 0) (hn' : n % 65536 = 0) (hd : b + n ≤ s.dpBytes)
    (hg : n / 65536 ≤ (s.grants.filter fun g => decide (b / 65536 ≤ g.1 ∧ g.1 < b / 65536 + n / 65536) && g.2.owner == some p.val).length) :
    exec .exportWindowSet s = .next { s with regs := { s.regs with exportBase := b, exportLen := n, exportPart := some p.val } } := by
  have hgo : ¬ ((!s.regs.spdmSession) = true ∨ 2 ^ 34 < n ∨ b % 65536 ≠ 0 ∨ n % 65536 ≠ 0 ∨ s.dpBytes < b + n) := by
    rw [h]
    simp only [Bool.not_true, Bool.false_eq_true, false_or]
    omega
  show execExportWindowSet s = _
  unfold execExportWindowSet
  split
  next b' n' p' hr =>
    obtain ⟨rfl, rfl, rfl⟩ : b' = b ∧ n' = n ∧ p' = p := by simpa [hreq] using hr.symm
    rw [if_neg hgo, if_neg (not_lt.mpr hg)]
  next hr => exact absurd hreq (hr b n p)

theorem walvoFlitReceive_eq {p : Fin 32} {ok : Bool} {n : Nat} {body : FlitBody} (hreq : s.request = .walvoFlitReceive p ok n body) :
    exec .walvoFlitReceive s = .next (if ((s.port p.val).receive ok n).delivered = (s.port p.val).delivered then s.modPort p.val fun p => p.receive ok n
      else deliverFlit p.val body (s.modPort p.val fun p => p.receive ok n)) := by
  have hp : ((s.modPort p.val fun p => p.receive ok n).port p.val) = (s.port p.val).receive ok n := tget_tset_same ..
  show execWalvoFlitReceive s = _
  unfold execWalvoFlitReceive
  rw [hreq]
  dsimp only
  rw [hp]

theorem State.modPort_congr {k : Nat} {f f' : Port → Port} (h : f (s.port k) = f' (s.port k)) : s.modPort k f = s.modPort k f' := by
  simp only [State.modPort, h]

theorem walvoFlitReceive_delivers {p : Fin 32} {ok : Bool} {n : Nat} {body : FlitBody} (hreq : s.request = .walvoFlitReceive p ok n body)
    (hs : (s.port p.val).state = 0) (hok : ok = true) (hn : n = (s.port p.val).expect) :
    exec .walvoFlitReceive s = .next (deliverFlit p.val body (s.modPort p.val fun x =>
      { x with expect := x.expect + 1, fails := 0, replay := false, delivered := x.delivered + 1 })) := by
  have hr : (s.port p.val).receive ok n = { s.port p.val with
      expect := (s.port p.val).expect + 1, fails := 0, replay := false, delivered := (s.port p.val).delivered + 1 } := by
    simp [Port.receive, hs, hok, hn]
  rw [walvoFlitReceive_eq hreq, if_neg (by rw [hr]; simp)]
  exact congrArg (fun u => Host.Outcome.next (deliverFlit p.val body u)) (State.modPort_congr hr)

theorem walvoFlitReceive_bad {p : Fin 32} {ok : Bool} {n : Nat} {body : FlitBody} (hreq : s.request = .walvoFlitReceive p ok n body)
    (hs : (s.port p.val).state = 0) (hbad : ok = false ∨ n ≠ (s.port p.val).expect) (hrep : (s.port p.val).replay = false) :
    exec .walvoFlitReceive s = .next (s.modPort p.val fun x => { x with replay := true }) := by
  have hno : (ok && n == (s.port p.val).expect) = false := by
    obtain h | h := hbad
    · simp [h]
    · simp [h]
  have hr : (s.port p.val).receive ok n = { s.port p.val with replay := true } := by
    simp [Port.receive, hs, hno, hrep]
  rw [walvoFlitReceive_eq hreq, if_pos (by rw [hr])]
  exact congrArg Host.Outcome.next (State.modPort_congr hr)

theorem portDown_fails {p : Fin 32} (hreq : s.request = .portDown p) (hs : (s.port p.val).state = 1) : exec .portDown s = .next
    ((s.port p.val).flight.foldl (fun u r => lostRequest r.hart r.part r.access u)
      (s.modPort p.val fun x => { x with state := 2, buffer := [], flight := [] })) := by
  show execPortDown s = _
  unfold execPortDown
  rw [hreq]
  exact congrArg Host.Outcome.next (if_pos hs)

theorem portRetrainComplete_replays {p : Fin 32} (hreq : s.request = .portRetrainComplete p) (hs : (s.port p.val).state = 1) :
    exec .portRetrainComplete s = .next
      (s.modPort p.val fun x => { x with state := 0, fails := 0, replay := true, resent := x.resent + x.buffer.length }) := by
  show execPortRetrainComplete s = _
  unfold execPortRetrainComplete
  rw [hreq]
  exact congrArg Host.Outcome.next (if_pos hs)

theorem communicatorSet_eq {c : W32} {l : List Nat} (hreq : s.request = .communicatorSet c l) :
    exec .communicatorSet s = .next (if s.regs.spdmSession then { s with comms := tset s.comms c.toNat l } else s) := by
  show execCommunicatorSet s = _
  unfold execCommunicatorSet
  split
  next c' l' hr =>
    obtain ⟨rfl, rfl⟩ : c' = c ∧ l' = l := by simpa [hreq] using hr.symm
    rfl
  next hr => exact absurd hreq (hr c l)

theorem nodeIdAssign_eq {n : BitVec 22} {d : Option (BitVec 12)} {l : List Nat} (hreq : s.request = .nodeIdAssign n d l) :
    exec .nodeIdAssign s = .next { s with regs := { s.regs with node := n, dpos := d.getD 0, dv := d.isSome, domain := l } } := by
  show execNodeIdAssign s = _
  unfold execNodeIdAssign
  split
  next n' d' l' hr =>
    obtain ⟨rfl, rfl, rfl⟩ : n' = n ∧ d' = d ∧ l' = l := by simpa [hreq] using hr.symm
    rfl
  next hr => exact absurd hreq (hr n d l)

end

/-- Settles O53: registers by what their writes take, accesses by `dpAccess_read`, ports by what they receive. -/
theorem hostAndPortEvents : Obligations.HostAndPortEvents := by
  unfold Obligations.HostAndPortEvents
  intro s
  refine ⟨?tail, ?cfg, fun vf val hreq h => shareWrite_sets hreq h, fun val hreq h1 h2 => pwrctlWrite_sets hreq h1 h2, ?write, ?read,
    fun vf a hreq hm => hostMemoryRequest_mini hreq hm, ?host, ?remote, ?hart, fun b n p hreq h => exportWindowSet_unauthenticated hreq h,
    fun b n p hreq h hn hb hn' hd hg => exportWindowSet_sets hreq h hn hb hn' hd hg, ?flit, fun p hreq hs => portDown_fails hreq hs,
    fun p hreq hs => portRetrainComplete_replays hreq hs, fun n d l hreq => nodeIdAssign_eq hreq, ?comm⟩
  case tail =>
    intro vf q tail hreq x
    have e : execQtailWrite s = .next (tailWrite vf.val q.val tail s) := by
      unfold execQtailWrite
      rw [hreq]
    exact ⟨fun he hr => e.trans (congrArg Host.Outcome.next (tailWrite_accepted he hr)),
      fun he hr => e.trans (congrArg Host.Outcome.next (tailWrite_overrun hr))⟩
  case cfg =>
    intro vf q val hreq
    refine ⟨cfgWrite vf.val q.val val s, ?_, cfgWrite_spec ..⟩
    show execQcfgWrite s = _
    unfold execQcfgWrite
    rw [hreq]
  case write =>
    intro vf off n val hreq
    refine ⟨registerWrite_unaligned hreq, fun hn hlt h16 => ?_, fun hn hlt h8 => ?_⟩
    · rw [registerWrite_aligned hreq hn (by omega), vfWrite, if_neg (by omega), h16]
      rfl
    · rw [registerWrite_aligned hreq hn (by omega), vfWrite, if_neg (by omega), h8]
      rfl
  case read =>
    intro fn off n hreq
    refine ⟨registerRead_unaligned hreq, fun hn ho hfn => ?_, fun hn ho hfn => ?_⟩
    · subst hfn ho
      exact registerRead_aligned hreq hn rfl
    · subst hfn ho
      exact registerRead_aligned hreq hn rfl
  case host =>
    intro vf a hreq hm h0 h1
    exact ⟨fun hk hf hp hq => hostMemoryRequest_reads hreq hm h0 h1 hk hf hp hq,
      fun hf => ⟨_, hostMemoryRequest_refused hreq hm h0 h1 hf, rfl, rfl, List.length_append.trans rfl⟩⟩
  case remote =>
    intro node tag a hreq hm hn h0 h1 he hl hk hf hp hq
    have e : execRemoteRequest s = .next (remoteServe .door node tag a s) := by
      unfold execRemoteRequest
      rw [hreq]
    exact e.trans (congrArg Host.Outcome.next (remoteServe_reads hm hn h0 h1 he hl hk hf hp hq))
  case hart =>
    intro h a p hreq h0 h1
    have e : execGeneralCoreAccess s = .next (gcAccess h.val a s) := by
      unfold execGeneralCoreAccess
      rw [hreq]
    refine ⟨fun hw => e.trans (congrArg Host.Outcome.next (gcAccess_waits (.inl hw))),
      fun hw => e.trans (congrArg Host.Outcome.next (gcAccess_waits (.inr hw))), fun hf hw hm hp => ⟨?_, fun dpos off hr hd => ?_⟩⟩
    · intro ha hk hfr hpr hq v
      exact e.trans (congrArg Host.Outcome.next (gcAccess_reads h0 h1 hf hw hm hp ha hk hfr hpr hq))
    · exact ⟨_, e, gcAccess_outside h0 h1 hf hw hm hp hr hd⟩
  case flit =>
    exact fun p ok n body hreq hs => ⟨fun hok hn => walvoFlitReceive_delivers hreq hs hok hn, fun hbad hr => walvoFlitReceive_bad hreq hs hbad hr⟩
  case comm =>
    exact fun c l hreq => ⟨fun h => by rw [communicatorSet_eq hreq, if_pos h], fun h => by rw [communicatorSet_eq hreq, if_neg (ne_true_of_eq_false h)]⟩

end Sys2Proof.Machine
end

section
/-! PROOF. The Vaults (R404, R411, R412, R415, R418, R421 to R425): line writes, held writes, the Balloon engine and large pages. -/
set_option Elab.async false
namespace Sys2Proof.Machine

/-! ## Held writes end: what they leave of frames and pools (R421) -/

/-- A Vault without the writes it holds. -/
def Vault.pool (v : Vault) : Vault := { v with held := [], stuck := [] }

/-- Frames and the pools of the Vaults are those of another state, and memory too. -/
structure SamePools (s t : State) : Prop where
  frames : t.frames = s.frames
  mem : t.mem = s.mem
  pools : ∀ k, (t.vault k).pool = (s.vault k).pool

theorem SamePools.refl (s : State) : SamePools s s := ⟨rfl, rfl, fun _ => rfl⟩

theorem SamePools.trans {s t u : State} (h : SamePools s t) (k : SamePools t u) : SamePools s u :=
  ⟨k.frames.trans h.frames, k.mem.trans h.mem, fun v => (k.pools v).trans (h.pools v)⟩

theorem SamePools.foldl {β : Type} (f : State → β → State) (hf : ∀ s x, SamePools s (f s x)) (l : List β) (s : State) : SamePools s (l.foldl f s) := by
  induction l generalizing s with
  | nil => exact .refl s
  | cons x l ih => exact (hf s x).trans (ih _)

theorem SamePools.frame {s t : State} (h : SamePools s t) (f : Nat) : t.frame f = s.frame f := by simp only [State.frame, h.frames]

/-- A part of a Vault's pool. -/
theorem SamePools.vault {α : Type} {s t : State} (h : SamePools s t) (p : Vault → α) (hp : ∀ v : Vault, p v.pool = p v) (k : Nat) :
    p (t.vault k) = p (s.vault k) := by
  rw [← hp, h.pools, hp]

theorem modVault_pools {k : Nat} {f : Vault → Vault} (s : State) (hf : (f (s.vault k)).pool = (s.vault k).pool) : SamePools s (s.modVault k f) :=
  ⟨rfl, rfl, fun j => by
    by_cases h : j = k
    · subst h
      rw [State.vault_modVault_same, hf]
    · rw [State.vault_modVault_other (h := h)]⟩

theorem wake_pools (x : Source) (n : Nat) (s : State) : SamePools s (wake x n s) := by cases x <;> exact ⟨rfl, rfl, fun _ => rfl⟩

theorem releaseHeld_pools (v : Nat) (gone : HeldWrite → Bool) (s : State) : SamePools s (releaseHeld v gone s) := by
  unfold releaseHeld
  dsimp only
  refine (modVault_pools (f := fun vt => { vt with held := vt.held.filter fun h => !gone h }) s rfl).trans (.foldl _ (fun s x => ?_) _ _)
  split
  · refine ⟨rfl, rfl, fun k => ?_⟩
    exact (congrArg Vault.pool (tget_map Vault.initial (fun w : Vault => { w with held := w.held.map _ }) rfl s.vaults k)).trans rfl
  · exact wake_pools ..

theorem dropHeld_pools (v f : Nat) (s : State) : SamePools s (dropHeld v f s) :=
  (modVault_pools (f := fun vt => { vt with stuck := vt.stuck.filter fun h => decide (h.line / 128 ≠ f) }) s rfl).trans (releaseHeld_pools ..)

/-- What a refill of the Reserve leaves alone: all but the Reserve and the free chunks. -/
theorem Vault.refill_keeps {α : Type} (p : Vault → α)
    (hp : ∀ (v : Vault) r f l, p { v with reserve := r, fresh := f, lists := l } = p v) (n : Nat) (v : Vault) : p (Vault.refill n v) = p v := by
  induction n generalizing v with
  | zero =>
    unfold Vault.refill
    split
    · rfl
    · dsimp only
      split
      · rfl
      · exact hp v _ _ v.lists
  | succ n ih =>
    unfold Vault.refill
    split
    · split
      · exact (ih _).trans (hp v _ v.fresh _)
      · rfl
    · exact ih v

theorem Vault.rest_keeps {α : Type} (p : Vault → α) (hp : ∀ (v : Vault) b e k, p { v with borrowers := b, exhausted := e, step := k } = p v) (v : Vault) :
    p v.rest = p v := by
  unfold Vault.rest
  dsimp only
  split
  · exact hp v _ v.exhausted v.step
  · exact hp v _ false 0

/-! ## Line writes (R411, R412) -/

section
variable {s : State} {line off : Nat} {data : List Byte}

theorem line_lines (hd : data ≠ []) (hlen : off + data.length ≤ 512) :
    (List.range ((512 * line + off + data.length - 1) / 512 + 1 - (512 * line + off) / 512)).map (· + (512 * line + off) / 512) = [line] := by
  have hn := List.length_pos_iff.mpr hd
  have h1 : (512 * line + off + data.length - 1) / 512 = line := by omega
  have h2 : (512 * line + off) / 512 = line := by omega
  rw [h1, h2, show line + 1 - line = 1 by omega]
  simp

theorem line_frames (hd : data ≠ []) (hlen : off + data.length ≤ 512) :
    (List.range ((512 * line + off + data.length - 1) / 65536 + 1 - (512 * line + off) / 65536)).map (· + (512 * line + off) / 65536) = [line / 128] := by
  have hn := List.length_pos_iff.mpr hd
  have h1 : (512 * line + off + data.length - 1) / 65536 = line / 128 := by omega
  have h2 : (512 * line + off) / 65536 = line / 128 := by omega
  rw [h1, h2, show line / 128 + 1 - line / 128 = 1 by omega]
  simp

/-- A write within one line of a frame that is not demoted. -/
theorem writeBack_line (hd : data ≠ []) (hlen : off + data.length ≤ 512) (hD : frD (s.frame (line / 128)) = false) :
    writeBack (512 * line + off) data s = match badLineAt s (512 * line + off) data.length with
      | some (l, v, p) =>
        errorRecord 1 15 (some p) (8 * v + 7) (BitVec.ofNat 64 (512 * l)) (s.modVault v fun vt =>
          { vt with stuck := vt.stuck ++ [{ src := none, line := (512 * line + off) / 512, off := (512 * line + off) % 512, data := data, since := s.cycles.toNat }] })
      | none => writeDp (512 * line + off) data s := by
  unfold writeBack
  rw [if_neg (by simpa using hd), line_frames hd hlen]
  simp only [List.filter_cons, hD, Bool.and_false, Bool.false_eq_true, if_false, List.filter_nil, List.foldl_nil] <;> rfl

theorem badLineAt_line (hd : data ≠ []) (hlen : off + data.length ≤ 512) (hD : frD (s.frame (line / 128)) = false) :
    badLineAt s (512 * line + off) data.length =
      (s.lineHome line).bind fun h => if (s.vault h.1).badLine line then some (line, h.1, h.2) else none := by
  unfold badLineAt
  rw [line_lines hd hlen]
  cases hh : s.lineHome line <;> simp [hD, hh]

theorem vaultLineWrite_eq (hreq : s.request = .vaultLineWrite line off data) (hm : s.regs.mini = false) (hlen : off + data.length ≤ 512)
    (hdp : 512 * (line + 1) ≤ s.dpBytes) : exec .vaultLineWrite s = .next (writeBack (512 * line + off) data s) := by
  have hgo : s.released = true ∧ off + data.length ≤ 512 ∧ 512 * (line + 1) ≤ s.dpBytes := ⟨by simp [State.released, hm], hlen, hdp⟩
  have e : execVaultLineWrite s = .next (if s.released ∧ off + data.length ≤ 512 ∧ 512 * (line + 1) ≤ s.dpBytes then
      writeBack (512 * line + off) data s else s) := by
    unfold execVaultLineWrite
    rw [hreq]
  exact e.trans (congrArg Host.Outcome.next (if_pos hgo))

theorem writeBack_line_lands (hlen : off + data.length ≤ 512) (hD : frD (s.frame (line / 128)) = false)
    (hb : ∀ v p, s.lineHome line = some (v, p) → (s.vault v).badLine line = false) :
    (writeBack (512 * line + off) data s).mem = writeBytes s.mem (512 * line + off) data := by
  by_cases hd : data = []
  · subst hd
    rfl
  · have hnone : badLineAt s (512 * line + off) data.length = none := by
      rw [badLineAt_line hd hlen hD]
      cases hh : s.lineHome line with
      | none => rfl
      | some h => simp [hb h.1 h.2 hh]
    rw [writeBack_line hd hlen hD, hnone]
    exact writeDp_mem ..

theorem writeBack_line_bad (hd : data ≠ []) (hlen : off + data.length ≤ 512) (hD : frD (s.frame (line / 128)) = false) {v p : Nat}
    (hh : s.lineHome line = some (v, p)) (hb : (s.vault v).badLine line = true) :
    (writeBack (512 * line + off) data s).mem = s.mem ∧ (writeBack (512 * line + off) data s).errors.length = s.errors.length + 1 := by
  have hsome : badLineAt s (512 * line + off) data.length = some (line, v, p) := by
    rw [badLineAt_line hd hlen hD, hh]
    exact if_pos hb
  rw [writeBack_line hd hlen hD, hsome]
  exact ⟨rfl, List.length_append.trans rfl⟩

end

/-! ## Held writes are applied (R421) -/

section
variable {s : State} {v : Fin 16} {h : HeldWrite}

theorem heldWriteApply_one {t : State} (hh : (s.vault v.val).held = [h]) (ha : applyHeld v.val h s = some t) :
    exec (.heldWriteApply v) s = .next (decideSpace v.val (t.modVault v.val Vault.rest)) := by
  show execHeldWriteApply v s = _
  unfold execHeldWriteApply
  rw [hh, applyAll, ha]
  rfl

theorem applyHeld_line {w : Vault} (hh : (s.vault v.val).held = [h]) (hp : frP (s.frame (h.line / 128)) = true) (hc : frC (s.frame (h.line / 128)) = true)
    (hd : frD (s.frame (h.line / 128)) = false)
    (hw : (s.vault v.val).writeLine h.line ((s.vault v.val).ownerOf (h.line / 128)) (readBytes s.mem (512 * h.line) 512) = .done w) :
    applyHeld v.val h s = some (releaseHeld v.val (· == h) (s.modVault v.val fun _ => w)) := by
  unfold applyHeld
  dsimp only
  rw [if_neg (by simp [hh]), if_neg (by simp [hp, hc]), if_neg (by simp [hd]), hw]

theorem applyHeld_gone (hh : (s.vault v.val).held = [h]) (hg : frP (s.frame (h.line / 128)) = false ∨ frC (s.frame (h.line / 128)) = false) :
    applyHeld v.val h s = some (releaseHeld v.val (· == h) s) := by
  have hpc : (!(frP (s.frame (h.line / 128)) && frC (s.frame (h.line / 128)))) = true := by
    obtain hg | hg := hg <;> simp [hg]
  unfold applyHeld
  dsimp only
  rw [if_neg (by simp [hh]), if_pos hpc]

end

/-! ## Frames demoted and taken (R418) -/

section
variable {s : State}

/-- A frame demoted: its entry, its Vault's list and memory. -/
structure Demoted (s : State) (f : Nat) (t : State) : Prop where
  demoted : frD (t.frame f) = true
  present : frP (t.frame f) = frP (s.frame f)
  listed : f ∈ (t.vault (frVault (s.frame f))).demoted
  mem : t.mem = s.mem

theorem demoteFrame_demotes {f : Nat} (hp : frP (s.frame f) = true) (hc : frC (s.frame f) = true) (hd : frD (s.frame f) = false)
    (hpin : pinned s f = false) (ht : (s.vault (frVault (s.frame f))).demotionTarget = true) : Demoted s f (demoteFrame f s) := by
  have hgo : (!(frP (s.frame f) && frC (s.frame f)) || frD (s.frame f) || pinned s f || !(s.vault (frVault (s.frame f))).demotionTarget) = false := by
    rw [hp, hc, hd, hpin, ht]
    rfl
  unfold demoteFrame
  dsimp only
  rw [if_neg (ne_true_of_eq_false hgo)]
  set u := (s.modVault (frVault (s.frame f)) fun vt => { vt.freeFrame f ((s.vault (frVault (s.frame f))).ownerOf f) with
    demoted := vt.demoted ++ [f], pdemot := tinc vt.pdemot ((s.vault (frVault (s.frame f))).ownerOf f) 1 }).setFrame f (setBit64 (s.frame f) 2 true) with hu
  have hdrop := dropHeld_pools (frVault (s.frame f)) f u
  have hframe : u.frame f = setBit64 (s.frame f) 2 true := tget_tset_same ..
  have hvault : (u.vault (frVault (s.frame f))).demoted = (s.vault (frVault (s.frame f))).demoted ++ [f] :=
    congrArg Vault.demoted (tget_tset_same Vault.initial ..)
  refine ⟨?_, ?_, ?_, hdrop.mem⟩
  · rw [hdrop.frame, hframe]
    simp [frD, bit, setBit64]
  · rw [hdrop.frame, hframe]
    simp [frP, bit, setBit64]
  · rw [hdrop.vault Vault.demoted (fun _ => rfl), hvault]
    simp

/-- A Vault after chunks were freed keeps its lists of frames. -/
theorem afterFree_keeps (v : Nat) (s : State) : (afterFree v s).frames = s.frames ∧ (afterFree v s).mem = s.mem
    ∧ ((afterFree v s).vault v).taken = (s.vault v).taken ∧ ((afterFree v s).vault v).demoted = (s.vault v).demoted := by
  refine ⟨rfl, rfl, ?_, ?_⟩
  · rw [afterFree, State.vault_modVault_same]
    exact Vault.refill_keeps Vault.taken (fun _ _ _ _ => rfl) ..
  · rw [afterFree, State.vault_modVault_same]
    exact Vault.refill_keeps Vault.demoted (fun _ _ _ _ => rfl) ..

theorem settleVault_keeps (v : Nat) (s : State) : (settleVault v s).frames = s.frames ∧ (settleVault v s).mem = s.mem
    ∧ ((settleVault v s).vault v).demoted = (s.vault v).demoted := by
  refine ⟨rfl, rfl, ?_⟩
  rw [settleVault, State.vault_modVault_same]
  exact (Vault.rest_keeps Vault.demoted (fun _ _ _ _ => rfl) _).trans (Vault.refill_keeps Vault.demoted (fun _ _ _ _ => rfl) ..)

theorem takeDonation_takes (v f : Nat) : frP ((takeDonation v f s).frame f) = false ∧ f ∈ ((takeDonation v f s).vault v).taken
    ∧ (takeDonation v f s).mem = s.mem := by
  unfold takeDonation
  dsimp only
  set u := (s.modVault v fun vt => { vt.freeFrame f ((s.vault v).ownerOf f) with
    donated := vt.donated.filter (· ≠ f), demoted := vt.demoted.filter (· ≠ f), taken := vt.taken ++ [f], ratio := tdel vt.ratio f
    frameOwner := tdel vt.frameOwner f }).setFrame f (s.frame f &&& ~~~7#64) with hu
  have hdrop := dropHeld_pools v f u
  have hframe : u.frame f = s.frame f &&& ~~~7#64 := tget_tset_same ..
  have hvault : (u.vault v).taken = (s.vault v).taken ++ [f] := congrArg Vault.taken (tget_tset_same Vault.initial ..)
  refine ⟨?_, ?_, hdrop.mem⟩
  · rw [hdrop.frame, hframe]
    simp [frP, bit]
  · rw [hdrop.vault Vault.taken (fun _ => rfl), hvault]
    simp

/-- A choice among the entries of a list is one of them. -/
theorem foldl_choice_mem (g : Option Nat → Nat × Nat → Option Nat) (hg : ∀ b e, g b e = some e.1 ∨ g b e = b) (l : List (Nat × Nat)) (b : Option Nat)
    {x : Nat} (h : l.foldl g b = some x) : b = some x ∨ ∃ e ∈ l, e.1 = x := by
  induction l generalizing b with
  | nil => exact .inl h
  | cons e l ih =>
    obtain hb | ⟨e', he', rfl⟩ := ih _ h
    · obtain hc | hc := hg b e
      · rw [hc] at hb
        cases hb
        exact .inr ⟨e, by simp, rfl⟩
      · exact .inl (hc ▸ hb)
    · exact .inr ⟨e', by simp [he'], rfl⟩

theorem demotionVictim_spec {v f : Nat} (h : demotionVictim s v = some f) :
    frP (s.frame f) = true ∧ frC (s.frame f) = true ∧ frD (s.frame f) = false ∧ pinned s f = false := by
  unfold demotionVictim at h
  obtain h | ⟨e, he, rfl⟩ := foldl_choice_mem _ (fun b e => by
    cases b with
    | none => exact .inl rfl
    | some x =>
      dsimp only
      split
      · exact .inl rfl
      · exact .inr rfl) _ _ h
  · cases h
  · simpa [and_assoc] using (List.mem_filter.mp he).2

/-! ## The Balloon engine's steps (R404, R418) -/

/-- What a pass does in each step of a working engine. -/
def balloonStep (v k : Nat) (s : State) : State :=
  match k with
    | 0 => s.modVault v fun vt => { vt with step := 1, exhausted := false }
    | 1 => match donation s v with
      | some f => afterFree v (takeDonation v f s)
      | none => s.modVault v fun vt => { vt with step := 2, exhausted := false }
    | 2 =>
      if (s.vault v).demotionTarget then
        (s.modVault v fun vt => Vault.refill (vt.compact.list 8).length vt.compact).modVault v fun vt => { vt with step := 3, exhausted := false }
      else passEnds v (s.modVault v fun vt => Vault.refill (vt.compact.list 8).length vt.compact)
    | _ => match demotionVictim s v with
      | some f => afterFree v (demoteFrame f s)
      | none => passEnds v s

theorem balloonPass_mini (hm : s.regs.mini = true) (v : Fin 16) : exec (.balloonPass v) s = .next s := by
  have hr : (!s.released) = true := by simp [State.released, hm]
  exact congrArg Host.Outcome.next (if_pos hr)

section
variable {v : Fin 16} (hm : s.regs.mini = false)
include hm

theorem balloonPass_released : exec (.balloonPass v) s = .next (
    if !(s.vault v.val).wants then s.modVault v.val Vault.rest
    else if (s.vault v.val).exhausted && (s.vault v.val).held.isEmpty then s
    else balloonStep v.val (s.vault v.val).step s) := by
  have hr : ¬ (!s.released) = true := by simp [State.released, hm]
  exact congrArg Host.Outcome.next (if_neg hr)

theorem balloonPass_rests (hw : (s.vault v.val).wants = false) : exec (.balloonPass v) s = .next (s.modVault v.val Vault.rest) := by
  rw [balloonPass_released hm, if_pos (by rw [hw]; rfl)]

theorem balloonPass_exhausted (hw : (s.vault v.val).wants = true) (he : (s.vault v.val).exhausted = true) (hh : (s.vault v.val).held = []) :
    exec (.balloonPass v) s = .next s := by
  rw [balloonPass_released hm, if_neg (by rw [hw]; decide), if_pos (by rw [he, hh]; rfl)]

variable (hw : (s.vault v.val).wants = true) (he : (s.vault v.val).exhausted = false)
include hw he

theorem balloonPass_working {k : Nat} (hk : (s.vault v.val).step = k) : exec (.balloonPass v) s = .next (balloonStep v.val k s) := by
  rw [balloonPass_released hm, if_neg (by rw [hw]; decide), if_neg (by rw [he]; exact Bool.false_ne_true), hk]

theorem balloonPass_starts (hk : (s.vault v.val).step = 0) :
    ∃ t, exec (.balloonPass v) s = .next t ∧ (t.vault v.val).step = 1 ∧ t.frames = s.frames :=
  ⟨_, balloonPass_working hm hw he hk, congrArg Vault.step (State.vault_modVault_same ..), rfl⟩

theorem balloonPass_takes {f : Nat} (hk : (s.vault v.val).step = 1) (hd : donation s v.val = some f) :
    ∃ t, exec (.balloonPass v) s = .next t ∧ frP (t.frame f) = false ∧ f ∈ (t.vault v.val).taken ∧ t.mem = s.mem := by
  have e := balloonPass_working hm hw he hk
  simp only [balloonStep, hd] at e
  obtain ⟨hp, ht, hmem⟩ := takeDonation_takes (s := s) v.val f
  obtain ⟨af, am, at', -⟩ := afterFree_keeps v.val (takeDonation v.val f s)
  refine ⟨_, e, ?_, ?_, am.trans hmem⟩
  · simpa only [State.frame, af] using hp
  · rw [at']
    exact ht

theorem balloonPass_nothing_donated (hk : (s.vault v.val).step = 1) (hd : donation s v.val = none) :
    ∃ t, exec (.balloonPass v) s = .next t ∧ (t.vault v.val).step = 2 ∧ t.frames = s.frames := by
  have e := balloonPass_working hm hw he hk
  simp only [balloonStep, hd] at e
  exact ⟨_, e, congrArg Vault.step (State.vault_modVault_same ..), rfl⟩

theorem balloonPass_compacts (hk : (s.vault v.val).step = 2) (ht : (s.vault v.val).demotionTarget = true) :
    ∃ t, exec (.balloonPass v) s = .next t ∧ (t.vault v.val).step = 3 ∧ t.frames = s.frames ∧ t.mem = s.mem := by
  have e := balloonPass_working hm hw he hk
  simp only [balloonStep, ht, if_true] at e
  exact ⟨_, e, congrArg Vault.step (State.vault_modVault_same ..), rfl, rfl⟩

theorem balloonPass_demotes {f : Nat} (hk : (s.vault v.val).step = 3) (ht : (s.vault v.val).demotionTarget = true)
    (hf : demotionVictim s v.val = some f) (hv : frVault (s.frame f) = v.val) :
    ∃ t, exec (.balloonPass v) s = .next t ∧ frD (t.frame f) = true ∧ f ∈ (t.vault v.val).demoted ∧ t.mem = s.mem := by
  have e := balloonPass_working hm hw he hk
  simp only [balloonStep, hf] at e
  obtain ⟨hp, hc, hd, hpin⟩ := demotionVictim_spec hf
  obtain ⟨h1, -, h3, h4⟩ := demoteFrame_demotes hp hc hd hpin (by rw [hv]; exact ht)
  obtain ⟨af, am, -, ad⟩ := afterFree_keeps v.val (demoteFrame f s)
  rw [hv] at h3
  refine ⟨_, e, ?_, ?_, am.trans h4⟩
  · simpa only [State.frame, af] using h1
  · rw [ad]
    exact h3

theorem balloonPass_ends (hk : (s.vault v.val).step = 3) (hf : demotionVictim s v.val = none) :
    exec (.balloonPass v) s = .next (passEnds v.val s) := by
  have e := balloonPass_working hm hw he hk
  simp only [balloonStep, hf] at e
  exact e

end

end

end Sys2Proof.Machine
end

section
/-! PROOF. The partition runtime's requests and large pages (R415, R422, R423, R446): what they leave of frames and memory. -/
set_option Elab.async false
namespace Sys2Proof.Machine

/-! ## Requests on one frame (R415, R422) -/

section
variable {s : State} {p : Fin 512} {f : Nat}

theorem frameRange_one (f : Nat) : frameRange f 1 = [f] := rfl

theorem ownsLc_one (h : ownsLc s p.val f 1 = true) : frP (s.frame f) = true ∧ frC (s.frame f) = true := by
  simp only [ownsLc, frameRange_one, List.all_cons, List.all_nil, Bool.and_true, Bool.and_eq_true] at h
  exact h.2

theorem resumeEngine_keeps {α : Type} (q : Vault → α) (hq : ∀ (v : Vault) b e k, q { v with borrowers := b, exhausted := e, step := k } = q v)
    (v : Nat) (s : State) : q ((resumeEngine v s).vault v) = q (s.vault v) := by
  rw [resumeEngine, State.vault_modVault_same, Vault.rest_keeps q hq]
  split
  · exact hq _ (s.vault v).borrowers false 1
  · rfl

theorem ratio_sets {r : Nat} (hreq : s.request = .ratio p f 1 r) (h1 : 16 ≤ r) (h2 : r ≤ 64) (ho : ownsLc s p.val f 1 = true)
    (hq : quotaOk { s.vault (frVault (s.frame f)) with ratio := tset (s.vault (frVault (s.frame f))).ratio f r } = true) :
    ∃ t, exec .ratio s = .next t ∧ (t.vault (frVault (s.frame f))).ratio = tset (s.vault (frVault (s.frame f))).ratio f r := by
  set v := frVault (s.frame f) with hv
  have hgo : (decide (r < 16) || decide (64 < r) || !ownsLc s p.val f 1) = false := by
    rw [ho, decide_eq_false (not_lt.mpr h1), decide_eq_false (not_lt.mpr h2)]
    rfl
  have e : execRatio s = .next (resumeEngine v (s.modVault v fun vt => { vt with ratio := tset vt.ratio f r })) := by
    unfold execRatio
    rw [hreq]
    simp only [frameRange_one, List.map_cons, List.map_nil, List.dedup_cons_of_notMem (List.not_mem_nil), List.dedup_nil, List.all_cons, List.all_nil,
      List.foldl_cons, List.foldl_nil, ← hv, if_true, hq, hgo, Bool.and_true, Bool.not_true, Bool.or_false, Bool.false_eq_true, if_false, State.each]
  refine ⟨_, e, ?_⟩
  rw [resumeEngine_keeps Vault.ratio (fun _ _ _ _ => rfl), State.vault_modVault_same]

theorem donate_lists (hreq : s.request = .donate p f 1) (ho : ownsLc s p.val f 1 = true) :
    ∃ t, exec .donate s = .next t ∧ f ∈ (t.vault (frVault (s.frame f))).donated ∧ t.frames = s.frames := by
  set v := frVault (s.frame f) with hv
  have e : execDonate s = .next (resumeEngine v (s.modVault v fun vt => if vt.donated.contains f then vt else { vt with donated := vt.donated ++ [f] })) := by
    unfold execDonate
    rw [hreq]
    exact congrArg Host.Outcome.next (if_neg (by rw [ho]; decide))
  refine ⟨_, e, ?_, rfl⟩
  rw [resumeEngine_keeps Vault.donated (fun _ _ _ _ => rfl), State.vault_modVault_same]
  split
  next h => simpa using h
  next h => simp

theorem withdraw_unlists (hreq : s.request = .withdraw p f 1) (ho : ownsAll s p.val f 1 = true) :
    ∃ t, exec .withdraw s = .next t ∧ f ∉ (t.vault (frVault (s.frame f))).donated ∧ t.frames = s.frames := by
  set v := frVault (s.frame f) with hv
  have e : execWithdraw s = .next (s.modVault v fun vt => { vt with donated := vt.donated.filter (· ≠ f) }) := by
    unfold execWithdraw
    rw [hreq]
    exact congrArg Host.Outcome.next (if_neg (by rw [ho]; decide))
  refine ⟨_, e, ?_, rfl⟩
  rw [State.vault_modVault_same]
  simp

theorem demote_demotes (hreq : s.request = .demote p f 1) (ho : ownsLc s p.val f 1 = true) (hd : frD (s.frame f) = false)
    (hpin : pinned s f = false) (ht : (s.vault (frVault (s.frame f))).demotionTarget = true) :
    ∃ t, exec .demote s = .next t ∧ frD (t.frame f) = true ∧ frP (t.frame f) = true ∧ f ∈ (t.vault (frVault (s.frame f))).demoted ∧ t.mem = s.mem := by
  obtain ⟨hp, hc⟩ := ownsLc_one ho
  have e : execDemote s = .next (settleVault (frVault (s.frame f)) (demoteFrame f s)) := by
    unfold execDemote
    rw [hreq]
    exact congrArg Host.Outcome.next (if_neg (by rw [ho]; decide))
  obtain ⟨h1, h2, h3, h4⟩ := demoteFrame_demotes hp hc hd hpin ht
  obtain ⟨kf, km, kd⟩ := settleVault_keeps (frVault (s.frame f)) (demoteFrame f s)
  have hframe : (settleVault (frVault (s.frame f)) (demoteFrame f s)).frame f = (demoteFrame f s).frame f :=
    congrArg (fun t => tget 0 t f) kf
  refine ⟨_, e, ?_, ?_, ?_, km.trans h4⟩
  · rw [hframe]
    exact h1
  · rw [hframe, h2]
    exact hp
  · rw [kd]
    exact h3

/-- Frames zeroed one by one. -/
theorem zeroFrames_byteAt (l : List Nat) (s : State) (a : Nat) :
    (s.each l fun x s => resumeEngine (frVault (s.frame x)) (zeroFrame x s)).byteAt a = if a / 65536 ∈ l then 0 else s.byteAt a := by
  induction l generalizing s with
  | nil => simp [State.each]
  | cons x l ih =>
    refine (ih (resumeEngine (frVault (s.frame x)) (zeroFrame x s))).trans ?_
    have hbyte : (resumeEngine (frVault (s.frame x)) (zeroFrame x s)).byteAt a = (zeroFrame x s).byteAt a := rfl
    rw [hbyte, zeroFrame_byteAt]
    by_cases h1 : a / 65536 = x
    · simp [h1]
    · simp [h1]

theorem zeroFrames_zeroes {n : Nat} (hreq : s.request = .zeroFrames p f n) (ho : ownsLc s p.val f n = true) :
    ∃ t, exec .zeroFrames s = .next t ∧ ∀ a, t.byteAt a = if f ≤ a / 65536 ∧ a / 65536 < f + n then 0 else s.byteAt a := by
  have e : execZeroFrames s = .next (s.each (frameRange f n) fun x s => resumeEngine (frVault (s.frame x)) (zeroFrame x s)) := by
    unfold execZeroFrames
    rw [hreq]
    exact congrArg Host.Outcome.next (if_neg (by rw [ho]; decide))
  refine ⟨_, e, fun a => ?_⟩
  rw [zeroFrames_byteAt]
  refine if_congr ?_ rfl rfl
  simp only [frameRange, List.mem_map, List.mem_range]
  exact ⟨fun ⟨i, hi, h⟩ => by omega, fun h => ⟨a / 65536 - f, by omega, by omega⟩⟩

/-! ## Large pages (R242, R423) -/

/-- A table read after its entries changed by their keys, the default being left alone by the key read. -/
theorem tget_map_keys {α : Type} (d : α) (g : Nat → α → α) (t : Tbl α) (k : Nat) (hd : g k d = d) :
    tget d (t.map fun e => (e.1, g e.1 e.2)) k = g k (tget d t k) := by
  induction t with
  | nil => simp [tget, hd]
  | cons e t ih =>
    obtain ⟨j, x⟩ := e
    simp only [List.map_cons, tget]
    split
    next h => rw [h]
    next h => exact ih

/-- The page of a frame holds it. -/
theorem pageOf_holds (s : State) (f : Nat) : (pageOf s f).1 ≤ f ∧ f < (pageOf s f).1 + (pageOf s f).2 := by
  unfold pageOf
  dsimp only
  split
  next h =>
    have hn : 0 < pageFrames (frSize (s.frame f)) := by
      unfold pageFrames
      split <;> decide
    exact ⟨Nat.div_mul_le_self .., Nat.lt_div_mul_add hn⟩
  · exact ⟨le_rfl, Nat.lt_succ_self f⟩

theorem splitAt_splits (f : Nat) (s : State) : frSize ((splitAt f s).frame f) = 0 ∧ (splitAt f s).mem = s.mem := by
  refine ⟨?_, rfl⟩
  have hf : (splitAt f s).frame f = s.frame f &&& ~~~0x18#64 := by
    have h := tget_map_keys 0 (fun k (e : W64) => if (pageOf s f).1 ≤ k ∧ k < (pageOf s f).1 + (pageOf s f).2 then e &&& ~~~0x18#64 else e) s.frames f
      (by split <;> rfl)
    rw [if_pos (pageOf_holds s f)] at h
    refine (congrArg (fun t => tget 0 t f) (List.map_congr_left fun e _ => ?_)).trans h
    split <;> rfl
  rw [hf]
  have hz : bits (s.frame f &&& ~~~0x18#64) 3 2 = 0 := by
    refine BitVec.eq_of_getLsbD_eq fun i hi => ?_
    rw [bits, BitVec.getLsbD_extractLsb', BitVec.getLsbD_and]
    interval_cases i <;> simp
  rw [frSize, hz]
  rfl

theorem splitPage_splits (hreq : s.request = .splitPage p f) (ho : ownsAll s p.val f 1 = true) :
    ∃ t, exec .splitPage s = .next t ∧ frSize (t.frame f) = 0 ∧ t.mem = s.mem := by
  have e : execSplitPage s = .next (splitAt f s) := by
    unfold execSplitPage
    rw [hreq]
    exact congrArg Host.Outcome.next (if_pos ho)
  exact ⟨_, e, splitAt_splits f s⟩

theorem promote_asks {size : Fin 3} (hreq : s.request = .promote p f size) (hb : buildable s p.val f size.val = true)
    (hn : (f, size.val) ∉ (s.vault (frVault (s.frame f))).building) :
    exec .promote s = .next (s.modVault (frVault (s.frame f)) fun v => { v with building := v.building ++ [(f, size.val)] }) := by
  have e : execPromote s = .next (s.modVault (frVault (s.frame f)) fun vt =>
      if vt.building.contains (f, size.val) then vt else { vt with building := vt.building ++ [(f, size.val)] }) := by
    unfold execPromote
    rw [hreq]
    exact congrArg Host.Outcome.next (if_neg (by rw [hb]; decide))
  refine e.trans (congrArg Host.Outcome.next ?_)
  simp only [State.modVault]
  rw [if_neg (by simpa using hn)]

end

/-! ## A page is built (R423, R446) -/

section
variable {s : State}

theorem Vault.takeHead_building {v : Vault} {c : Nat} {t : Nat × Vault} (h : v.takeHead c = some t) : t.2.building = v.building := by
  unfold Vault.takeHead at h
  split at h
  · cases h
    rfl
  · split at h
    · obtain ⟨r, -, rfl⟩ := Option.map_eq_some_iff.mp h
      rfl
    · cases h

theorem Vault.freeRun_building (v : Vault) (r n : Nat) : (v.freeRun r n).building = v.building := by
  unfold Vault.freeRun
  split <;> rfl

theorem Vault.takeList_building {v : Vault} {n : Nat} {t : Nat × Vault} (h : v.takeList n = some t) : t.2.building = v.building := by
  unfold Vault.takeList at h
  split at h
  · cases h
  · obtain ⟨r, hr, rfl⟩ := Option.map_eq_some_iff.mp h
    exact (Vault.freeRun_building ..).trans (Vault.takeHead_building hr)

/-- Lines moved out of the way leave the pages asked for alone. -/
theorem foldl_moves_building (ls : List (Nat × W64)) (o : Option Vault) {w : Vault}
    (h : ls.foldl (fun (acc : Option Vault) l => acc.bind fun v => (v.takeList (wordSize l.2)).map fun t =>
      { t.2 with lineMeta := tset t.2.lineMeta l.1 (setBits l.2 32 (BitVec.ofNat 32 t.1)) }) o = some w) :
    ∃ v, o = some v ∧ w.building = v.building := by
  induction ls generalizing o with
  | nil => exact ⟨w, h, rfl⟩
  | cons l ls ih =>
    obtain ⟨v', hv', hb⟩ := ih _ h
    obtain ⟨v, rfl, hv⟩ := Option.bind_eq_some_iff.mp hv'
    obtain ⟨t, ht, rfl⟩ := Option.map_eq_some_iff.mp hv
    exact ⟨v, rfl, hb.trans (Vault.takeList_building ht)⟩

theorem Vault.vacate_building {v w : Vault} {lo n : Nat} (h : v.vacate lo n = some w) : w.building = v.building := by
  unfold Vault.vacate at h
  dsimp only at h
  split at h
  · obtain ⟨v', hv', hb⟩ := foldl_moves_building _ _ h
    cases hv'
    exact hb
  · cases h

/-- Frames, memory and the pages asked of the Vaults are those of another state. -/
structure SameBuilds (s t : State) : Prop where
  frames : t.frames = s.frames
  mem : t.mem = s.mem
  building : ∀ k, (t.vault k).building = (s.vault k).building

theorem SameBuilds.refl (s : State) : SameBuilds s s := ⟨rfl, rfl, fun _ => rfl⟩

theorem SameBuilds.trans {s t u : State} (h : SameBuilds s t) (k : SameBuilds t u) : SameBuilds s u :=
  ⟨k.frames.trans h.frames, k.mem.trans h.mem, fun v => (k.building v).trans (h.building v)⟩

theorem SameBuilds.foldl {β : Type} (f : State → β → State) (hf : ∀ s x, SameBuilds s (f s x)) (l : List β) (s : State) : SameBuilds s (l.foldl f s) := by
  induction l generalizing s with
  | nil => exact .refl s
  | cons x l ih => exact (hf s x).trans (ih _)

theorem modVault_builds {k : Nat} {f : Vault → Vault} (s : State) (hf : (f (s.vault k)).building = (s.vault k).building) : SameBuilds s (s.modVault k f) :=
  ⟨rfl, rfl, fun j => by
    by_cases h : j = k
    · subst h
      rw [State.vault_modVault_same, hf]
    · rw [State.vault_modVault_other (h := h)]⟩

theorem strikeRow_builds (s : State) (r : Nat) : SameBuilds s (strikeRow s r) := by
  refine .foldl _ (fun s u => ?_) _ s
  split
  · exact .refl s
  · split
    next w hw =>
      have hb : w.building = _ := Vault.vacate_building hw
      exact modVault_builds (f := fun _ => { w with vcap := w.vcap - 16 }) s hb
    · exact .refl s

theorem leaveRaw_builds (e : W64) (s : State) : SameBuilds s (leaveRaw e s) := by
  unfold leaveRaw
  split
  · exact (modVault_builds (k := frVault e) (f := fun vt =>
      { vt with vcap := vt.vcap + 1024, fresh := vt.fresh ++ [(1024 * frUnit e, 1024 * frUnit e + 1024)] }) s rfl).trans
      (.foldl _ (fun s r => strikeRow_builds s r) _ _)
  · exact .refl s

/-- What a page's frames show once it is built, and what else changes. -/
structure Built (s : State) (v f size : Nat) (base : Nat) (u : State) : Prop where
  building : (u.vault v).building = (s.vault v).building.drop 1
  mem : u.mem = s.mem
  frames : u.frames = s.frames.map fun e =>
    if f ≤ e.1 ∧ e.1 < f + pageFrames size then (e.1, builtEntry e.2 (s.frame f) base size (e.1 - f)) else e

theorem buildPage_built {v f size base : Nat} {u : State} (h : buildPage v f size base s = some u) : Built s v f size base u := by
  unfold buildPage at h
  dsimp only at h
  split at h
  next vt htaken hvt =>
    split at h
    · cases h
    · have hu := Option.some.inj h
      have hvb : vt.building = (s.vault v).building := by
        split at hvt
        · obtain ⟨w, hw, rfl⟩ := Option.map_eq_some_iff.mp hvt
          have hb : w.building = _ := Vault.vacate_building hw
          exact hb
        · exact congrArg Vault.building (Option.some.inj hvt).symm
      have hb := SameBuilds.foldl (fun t x => leaveRaw (s.frame x) t) (fun t x => leaveRaw_builds _ t) (frameRange f (pageFrames size))
        (({ s with frames := s.frames.map fun e => if f ≤ e.1 ∧ e.1 < f + pageFrames size then
          (e.1, builtEntry e.2 (s.frame f) base size (e.1 - f)) else e } : State).modVault v fun _ => { vt with building := vt.building.drop 1 })
      rw [hu] at hb
      obtain ⟨hf, hm, hbuild⟩ := hb
      refine ⟨?_, hm, hf⟩
      rw [hbuild v, State.vault_modVault_same, ← hvb]
  · cases h

/-- The entry of a built page's frame carries the page's size. -/
theorem frSize_builtEntry (e first : W64) (u i : Nat) {size : Nat} (h : size < 4) : frSize (builtEntry e first u size i) = size := by
  have hx : ∀ m j, j < 9 → (m * 2 ^ 9 + size * 8).testBit j = (size * 8).testBit j := fun m j hj => by
    rw [Nat.mul_comm, Nat.testBit_two_pow_mul_add _ (by omega), if_pos hj]
  have hb : bits (builtEntry e first u size i) 3 2 = BitVec.ofNat 2 size := by
    refine BitVec.eq_of_getLsbD_eq fun k hk => ?_
    rw [builtEntry, bits, BitVec.getLsbD_extractLsb', BitVec.getLsbD_or, BitVec.getLsbD_ofNat, hx _ _ (by omega), BitVec.getLsbD_ofNat]
    have hs : (size * 8).testBit (3 + k) = size.testBit k := by
      rw [show size * 8 = 2 ^ 3 * size by omega, Nat.testBit_two_pow_mul]
      simp
    rw [hs]
    interval_cases k <;> simp
  rw [frSize, hb, BitVec.toNat_ofNat, Nat.mod_eq_of_lt h]

theorem Built.frame_in {v f size base : Nat} {u : State} (h : Built s v f size base u) {x : Nat} (h1 : f ≤ x) (h2 : x < f + pageFrames size)
    (hp : frP (s.frame x) = true) : ∃ i, u.frame x = builtEntry (s.frame x) (s.frame f) base size i := by
  refine ⟨x - f, ?_⟩
  have hmap : ∀ t : Tbl W64, frP (tget 0 t x) = true → tget 0 (t.map fun e =>
      if f ≤ e.1 ∧ e.1 < f + pageFrames size then (e.1, builtEntry e.2 (s.frame f) base size (e.1 - f)) else e) x
        = builtEntry (tget 0 t x) (s.frame f) base size (x - f) := by
    intro t
    induction t with
    | nil => intro h; simp [tget, frP, bit] at h
    | cons e t ih =>
      obtain ⟨j, w⟩ := e
      intro ht
      by_cases hj : j = x
      · subst hj
        simp [tget, h1, h2]
      · have hk : (if f ≤ j ∧ j < f + pageFrames size then (j, builtEntry w (s.frame f) base size (j - f)) else (j, w)).1 = j := by split <;> rfl
        simp only [List.map_cons, tget, hj, if_false] at ht ⊢
        rw [if_neg (by rw [hk]; exact hj)]
        exact ih ht
  rw [State.frame, h.frames]
  exact hmap s.frames hp

theorem Built.frame_out {v f size base : Nat} {u : State} (h : Built s v f size base u) {x : Nat} (hx : x < f ∨ f + pageFrames size ≤ x) :
    u.frame x = s.frame x := by
  have e : (s.frames.map fun e => if f ≤ e.1 ∧ e.1 < f + pageFrames size then (e.1, builtEntry e.2 (s.frame f) base size (e.1 - f)) else e)
      = s.frames.map fun e => (e.1, if f ≤ e.1 ∧ e.1 < f + pageFrames size then builtEntry e.2 (s.frame f) base size (e.1 - f) else e.2) :=
    List.map_congr_left fun e _ => by split <;> rfl
  have hno : ¬ (f ≤ x ∧ x < f + pageFrames size) := by omega
  have hk := tget_map_keys 0 (fun k (w : W64) => if f ≤ k ∧ k < f + pageFrames size then builtEntry w (s.frame f) base size (k - f) else w) s.frames x
    (if_neg hno)
  rw [State.frame, h.frames, e, hk]
  exact if_neg hno

theorem buildable_spec {p f size : Nat} (h : buildable s p f size = true) :
    (size = 1 ∨ size = 2) ∧ ∀ x, f ≤ x → x < f + pageFrames size → frP (s.frame x) = true := by
  unfold buildable at h
  simp only [Bool.and_eq_true, Bool.or_eq_true, beq_iff_eq, List.all_eq_true] at h
  obtain ⟨⟨⟨-, hsize⟩, -⟩, hall⟩ := h
  refine ⟨hsize, fun x h1 h2 => ?_⟩
  have hx : x ∈ frameRange f (pageFrames size) := List.mem_map.mpr ⟨x - f, List.mem_range.mpr (by omega), by omega⟩
  exact (hall x hx).1.1.1.1.1.1

/-- The oldest page asked for: what the engine does with it. -/
theorem promotionBuildComplete_eq {v : Fin 16} {f size : Nat} {l : List (Nat × Nat)} (hreq : s.request = .promotionBuildComplete v)
    (hb : (s.vault v.val).building = (f, size) :: l) : exec .promotionBuildComplete s = .next (
      if !(match (s.grant f).owner with | some p => buildable s p f size && frVault (s.frame f) == v.val | none => false) then
        s.modVault v.val fun vt => { vt with building := l }
      else if (frameRange f (pageFrames size)).any fun x => pinned s x then s
      else ((buildPage v.val f size (builtBase (s.vault v.val) (frTier (s.frame f)) (Config.promoteBase s.tick) (pageFrames size)) s).getD s).bump) := by
  show execPromotionBuildComplete s = _
  unfold execPromotionBuildComplete
  rw [hreq]
  dsimp only
  rw [hb] <;> rfl

theorem promotionBuildComplete_builds {v : Fin 16} {f size p : Nat} {l : List (Nat × Nat)} {u : State} (hreq : s.request = .promotionBuildComplete v)
    (hb : (s.vault v.val).building = (f, size) :: l) (hg : (s.grant f).owner = some p) (hbuild : buildable s p f size = true)
    (hv : frVault (s.frame f) = v.val) (hpin : ∀ x, f ≤ x → x < f + pageFrames size → pinned s x = false)
    (hu : buildPage v.val f size (builtBase (s.vault v.val) (frTier (s.frame f)) (Config.promoteBase s.tick) (pageFrames size)) s = some u) :
    exec .promotionBuildComplete s = .next u.bump := by
  have hnone : ((frameRange f (pageFrames size)).any fun x => pinned s x) = false := by
    rw [List.any_eq_false]
    intro x hx
    obtain ⟨i, hi, rfl⟩ := List.mem_map.mp hx
    have hi' := List.mem_range.mp hi
    exact ne_true_of_eq_false (hpin (f + i) (by omega) (by omega))
  rw [promotionBuildComplete_eq hreq hb]
  simp only [hg, hbuild, hv, BEq.rfl, Bool.and_self, Bool.not_true, Bool.false_eq_true, if_false, hnone, hu, Option.getD_some]

theorem promotionBuildComplete_drops {v : Fin 16} {f size : Nat} {l : List (Nat × Nat)} (hreq : s.request = .promotionBuildComplete v)
    (hb : (s.vault v.val).building = (f, size) :: l) (hg : ∀ p, (s.grant f).owner = some p → buildable s p f size = false) :
    exec .promotionBuildComplete s = .next (s.modVault v.val fun x => { x with building := l }) := by
  rw [promotionBuildComplete_eq hreq hb]
  cases ho : (s.grant f).owner with
  | none => rfl
  | some p =>
    have := hg p ho
    simp only [this, Bool.false_and, Bool.not_false, if_true]

end

/-- Settles O54: line writes by the one line they touch, the Balloon engine by its step, requests by what they leave of frames and pools. -/
theorem vaultEvents : Obligations.VaultEvents := by
  unfold Obligations.VaultEvents
  intro s hwf
  refine ⟨?line, ?held, fun hm v => balloonPass_mini hm v, ?balloon, ?ratio, fun p f hreq ho => donate_lists hreq ho,
    fun p f hreq ho => withdraw_unlists hreq ho, fun p f hreq ho hd hpin ht => demote_demotes hreq ho hd hpin ht,
    fun p f n hreq ho => zeroFrames_zeroes hreq ho, fun p f hreq ho _ => splitPage_splits hreq ho,
    fun p f size hreq hb hn => promote_asks hreq hb hn, ?build, ?target, ?view⟩
  case line =>
    intro line off data hreq hm hlen hdp hD
    have e := vaultLineWrite_eq hreq hm hlen hdp
    refine ⟨fun hb => ⟨_, e, ?_, fun a ha => ?_⟩, fun v p hh hb hd => ⟨_, e, writeBack_line_bad hd hlen hD hh hb⟩⟩
    · rw [writeBack_line_lands hlen hD hb]
      exact readBytes_writeBytes _ _ hwf
    · rw [State.byteAt, writeBack_line_lands hlen hD hb]
      exact readByte_writeBytes_outside _ _ ha
  case held =>
    intro v h hh e done
    exact ⟨fun w hp hc hd hw => heldWriteApply_one hh (applyHeld_line hh hp hc hd hw), fun hg => heldWriteApply_one hh (applyHeld_gone hh hg)⟩
  case balloon =>
    intro hm v x
    exact ⟨balloonPass_rests hm, balloonPass_exhausted hm, fun hw he => ⟨balloonPass_starts hm hw he, fun f => balloonPass_takes hm hw he,
      balloonPass_nothing_donated hm hw he, balloonPass_compacts hm hw he, fun f => balloonPass_demotes hm hw he, balloonPass_ends hm hw he⟩⟩
  case ratio =>
    intro p f r hreq h1 h2 ho v w hq
    exact ratio_sets hreq h1 h2 ho (decide_eq_true hq)
  case build =>
    intro v f size l hreq hb base
    refine ⟨fun p u hg hbuild hv hpin hu => ?_, promotionBuildComplete_drops hreq hb⟩
    have built := buildPage_built hu
    obtain ⟨hsize, hpres⟩ := buildable_spec hbuild
    refine ⟨promotionBuildComplete_builds hreq hb hg hbuild hv hpin hu, ?_, built.mem, fun x h1 h2 => ?_, fun x hx => built.frame_out hx⟩
    · rw [built.building, hb]
      rfl
    · obtain ⟨i, hi⟩ := built.frame_in h1 h2 (hpres x h1 h2)
      rw [hi]
      exact frSize_builtEntry _ _ _ _ (by omega)
  case target =>
    intro v on hreq hm
    have e : execDemotionTargetSet s = .next (if s.released then s.modVault v.val fun vt => { vt with demotionTarget := on } else s) := by
      unfold execDemotionTargetSet
      rw [hreq]
    exact e.trans (congrArg Host.Outcome.next (if_pos (by simp [State.released, hm])))
  case view =>
    intro p on hreq
    show execVaultViewSet s = _
    unfold execVaultViewSet
    rw [hreq]

end Sys2Proof.Machine
end

section
/-! PROOF. Frames under the management controller: grants, revocation and classes (R247, R391, R446). -/
set_option Elab.async false
namespace Sys2Proof.Machine

/-! ## A frame granted (R391) -/

section
variable {s : State} {r : GrantReq} {m : Nat}

/-- A frame of the HBM4E tier takes nothing of the pool. -/
theorem placeRaw_hbm (h64 : m % 64 = 0) (hin : mlocInService s m = true) (hret : retiredIn s m = false) (htier : m / 2 ^ 28 % 2 = 0)
    (hfree : ∀ x ∈ s.frames, frP x.2 = true → frC x.2 = false → (x.2.extractLsb' 9 33).toNat ≠ m) : placeRaw m s = some s := by
  have hany : (s.frames.any fun e => frP e.2 && !frC e.2 && (bits e.2 9 33).toNat == m) = false := by
    refine List.any_eq_false.mpr fun x hx hb => ?_
    simp only [Bool.and_eq_true, Bool.not_eq_true', beq_iff_eq] at hb
    obtain ⟨⟨hp, hc⟩, hm⟩ := hb
    exact hfree x hx hp hc hm
  unfold placeRaw
  dsimp only
  rw [if_neg (by simp [h64, hin, hret, hany]), if_pos htier]

/-- The frame of a grant of one, granted: its entry, its grant, and its place among the frames without a core. -/
def grantedAt (r : GrantReq) (m : Nat) (s : State) : State :=
  { s with
    grants := tset s.grants r.frame (GrantOf r)
    unowned := if r.coh = 2 ∧ r.owner.isNone then s.unowned ++ [r.frame] else s.unowned
    frames := tset s.frames r.frame (grantEntry r m) }

theorem grantFrame_hbm (hm : r.mloc = some m) (hc : r.compressed = false) (hz : r.zero = false) (h64 : m % 64 = 0)
    (hin : mlocInService s m = true) (hret : retiredIn s m = false) (htier : m / 2 ^ 28 % 2 = 0)
    (hfree : ∀ x ∈ s.frames, frP x.2 = true → frC x.2 = false → (x.2.extractLsb' 9 33).toNat ≠ m) :
    grantFrame r s 0 = some (grantedAt r m s) := by
  unfold grantFrame grantedAt
  simp only [hm, hc, hz, Bool.false_eq_true, if_false, Nat.add_zero, Nat.mul_zero]
  by_cases ho : r.coh = 2 ∧ r.owner.isNone = true
  · rw [if_pos ho, if_pos ho, placeRaw_hbm (s := { s with grants := tset s.grants r.frame (GrantOf r), unowned := s.unowned ++ [r.frame] }) h64 hin hret htier hfree]
    rfl
  · rw [if_neg ho, if_neg ho, placeRaw_hbm (s := { s with grants := tset s.grants r.frame (GrantOf r) }) h64 hin hret htier hfree]
    rfl

/-- What engines resumed and measurements leave alone. -/
theorem resumed_measured (vs ps : List Nat) (s : State) :
    let t := (s.each vs resumeEngine).each ps measurePart
    t.frames = s.frames ∧ t.grants = s.grants ∧ t.mem = s.mem := by
  have keeps : ∀ {γ : Type} (p : State → γ), (∀ v s, p (resumeEngine v s) = p s) → (∀ v s, p (measurePart v s) = p s) →
      p ((s.each vs resumeEngine).each ps measurePart) = p s := fun p h1 h2 =>
    (foldl_keeps _ p (fun t v => h2 v t) _ _).trans (foldl_keeps _ p (fun t v => h1 v t) _ _)
  exact ⟨keeps State.frames (fun _ _ => rfl) (fun _ _ => rfl), keeps State.grants (fun _ _ => rfl) (fun _ _ => rfl),
    keeps State.mem (fun _ _ => rfl) (fun _ _ => rfl)⟩

theorem frameGrant_grants (hreq : s.request = .frameGrant r) (hok : grantOk s r = true) (hn : r.count = 1) (hm : r.mloc = some m)
    (hc : r.compressed = false) (hz : r.zero = false) (h64 : m % 64 = 0) (hin : mlocInService s m = true) (hret : retiredIn s m = false)
    (htier : m / 2 ^ 28 % 2 = 0) (hfree : ∀ x ∈ s.frames, frP x.2 = true → frC x.2 = false → (x.2.extractLsb' 9 33).toNat ≠ m) :
    ∃ t, exec .frameGrant s = .next t ∧ t.grant r.frame = GrantOf r ∧ t.frame r.frame = grantEntry r m ∧ t.mem = s.mem
      ∧ ∀ f, f ≠ r.frame → t.frame f = s.frame f ∧ t.grant f = s.grant f := by
  have hfold : (List.range 1).foldl (fun (acc : Option State) i => acc.bind fun s => grantFrame r s i) (some s) = some (grantedAt r m s) :=
    grantFrame_hbm hm hc hz h64 hin hret htier hfree
  have e : exec .frameGrant s = .next (((grantedAt r m s).each
      ((((List.range 1).map fun i => frVault ((grantedAt r m s).frame (r.frame + i))).dedup)) resumeEngine).each (r.shared.getD [r.part]) measurePart) := by
    show execFrameGrant s = _
    unfold execFrameGrant
    rw [hreq]
    dsimp only
    rw [hok, hn, hfold] <;> rfl
  obtain ⟨kf, kg, km⟩ := resumed_measured ((((List.range 1).map fun i => frVault ((grantedAt r m s).frame (r.frame + i))).dedup))
    (r.shared.getD [r.part]) (grantedAt r m s)
  refine ⟨_, e, ?_, ?_, km, fun f hf => ⟨?_, ?_⟩⟩
  · rw [State.grant, kg]
    exact tget_tset_same ..
  · rw [State.frame, kf]
    exact tget_tset_same ..
  · rw [State.frame, kf]
    exact tget_tset_other _ _ _ hf
  · rw [State.grant, kg]
    exact tget_tset_other _ _ _ hf

theorem frameGrant_unauthenticated (hs : s.regs.spdmSession = false) (hreq : s.request = .frameGrant r) : exec .frameGrant s = .next s := by
  have hok : grantOk s r = false := by simp [grantOk, hs]
  show execFrameGrant s = _
  unfold execFrameGrant
  rw [hreq]
  dsimp only
  rw [hok] <;> rfl

end

/-! ## A frame revoked (R391, R446) -/

/-- Of an entry that is gone, grants and bytes: what a step of a revocation leaves alone. -/
structure Revoked (f : Nat) (s t : State) : Prop where
  keys : f ∉ s.frames.map (·.1) → f ∉ t.frames.map (·.1)
  grants : t.grants = s.grants
  mem : t.mem = s.mem

theorem Revoked.refl (f : Nat) (s : State) : Revoked f s s := ⟨id, rfl, rfl⟩

theorem Revoked.trans {f : Nat} {s t u : State} (h : Revoked f s t) (k : Revoked f t u) : Revoked f s u :=
  ⟨k.keys ∘ h.keys, k.grants.trans h.grants, k.mem.trans h.mem⟩

theorem Revoked.foldl {f : Nat} {β : Type} (g : State → β → State) (l : List β) (hg : ∀ s, ∀ x ∈ l, Revoked f s (g s x)) (s : State) :
    Revoked f s (l.foldl g s) := by
  induction l generalizing s with
  | nil => exact .refl f s
  | cons x l ih => exact (hg s x List.mem_cons_self).trans (ih (fun s y hy => hg s y (List.mem_cons_of_mem _ hy)) _)

section
variable {f : Nat}

theorem strikeRow_revoked (s : State) (r : Nat) : Revoked f s (strikeRow s r) := by
  refine .foldl _ _ (fun s u _ => ?_) s
  split
  · exact .refl f s
  · split <;> exact ⟨id, rfl, rfl⟩

theorem leaveRaw_revoked (e : W64) (s : State) : Revoked f s (leaveRaw e s) := by
  unfold leaveRaw
  split
  · exact Revoked.trans (t := s.modVault (frVault e) fun vt =>
      { vt with vcap := vt.vcap + 1024, fresh := vt.fresh ++ [(1024 * frUnit e, 1024 * frUnit e + 1024)] }) ⟨id, rfl, rfl⟩
      (.foldl _ _ (fun s r _ => strikeRow_revoked s r) _)
  · exact .refl f s

theorem mem_keys_tset {α : Type} {t : Tbl α} {k j : Nat} {v : α} (h : j ≠ k) (hj : j ∉ t.map (·.1)) : j ∉ (tset t k v).map (·.1) := by
  induction t with
  | nil => simpa [tset] using h
  | cons e t ih =>
    obtain ⟨i, x⟩ := e
    simp only [List.map_cons, List.mem_cons, not_or] at hj
    unfold tset
    split
    · exact fun hm => (List.mem_cons.mp hm).elim h fun hm => (List.mem_cons.mp hm).elim hj.1 hj.2
    · split
      · exact fun hm => (List.mem_cons.mp hm).elim h hj.2
      · exact fun h => (List.mem_cons.mp h).elim hj.1 (ih hj.2)

theorem splitAt_revoked (x : Nat) (s : State) : Revoked f s (splitAt x s) := by
  refine ⟨fun h => ?_, rfl, rfl⟩
  have e : (splitAt x s).frames.map (·.1) = s.frames.map (·.1) := by
    simp only [splitAt, List.map_map]
    refine List.map_congr_left fun e _ => ?_
    simp only [Function.comp]
    split <;> rfl
  rwa [e]

theorem placeRaw_grants {m : Nat} {s t : State} (h : placeRaw m s = some t) : t.grants = s.grants := by
  unfold placeRaw at h
  dsimp only at h
  split at h
  · cases h
  · split at h
    · cases h
      rfl
    · split at h
      · cases h
      · obtain ⟨w, -, rfl⟩ := Option.map_eq_some_iff.mp h
        rfl

theorem moveFrame_revoked {x : Nat} (hx : f ≠ x) (s : State) : Revoked f s (moveFrame x s) := by
  unfold moveFrame
  dsimp only
  split
  · exact .refl f s
  · split
    next t ht =>
      obtain ⟨hm, hf⟩ := placeRaw_same ht
      have h1 : Revoked f s t := ⟨fun h => hf ▸ h, placeRaw_grants ht, hm⟩
      have h2 : ∀ u : State, Revoked f u (u.modFrame x fun e => (e &&& ~~~(0x1FFFFFFFF#64 <<< 9)) ||| BitVec.ofNat 64 (Config.movedTo s.tick % 2 ^ 33 * 2 ^ 9)) :=
        fun u => ⟨mem_keys_tset hx, rfl, rfl⟩
      have h3 : ∀ u : State, Revoked f u u.bump := fun u => ⟨id, rfl, rfl⟩
      exact h1.trans ((splitAt_revoked x t).trans ((h2 _).trans ((leaveRaw_revoked _ _).trans (h3 _))))
    · exact .refl f s

/-- A row retired: a frame whose entry is gone has none, and neither grants nor bytes change. -/
theorem retireRow_revoked {s : State} (hk : f ∉ s.frames.map (·.1)) (r : Nat) : Revoked f s (retireRow s r) := by
  unfold retireRow
  split
  · exact .refl f s
  · have h1 : Revoked f s { s with retired := s.retired ++ [r] } := ⟨id, rfl, rfl⟩
    refine h1.trans (Revoked.trans (.foldl _ _ (fun t x hx => moveFrame_revoked ?_ t) _) (strikeRow_revoked _ _))
    rintro rfl
    obtain ⟨e, he, hx⟩ := List.mem_map.mp hx
    exact hk (List.mem_map.mpr ⟨e, (List.mem_filter.mp he).1, hx⟩)

theorem retireRows_revoked (l : List Nat) {s : State} (hk : f ∉ s.frames.map (·.1)) : Revoked f s (l.foldl retireRow s) := by
  induction l generalizing s with
  | nil => exact .refl f s
  | cons r l ih =>
    have h := retireRow_revoked hk r
    exact h.trans (ih (h.keys hk))

theorem frames_releasePool (s : State) : (releasePool f s).frames = s.frames ∧ (releasePool f s).grants = s.grants ∧ (releasePool f s).mem = s.mem := by
  unfold releasePool
  dsimp only
  split
  · exact ⟨rfl, rfl, rfl⟩
  · split
    · generalize hu : s.modVault _ _ = u
      have hk : u.frames = s.frames ∧ u.hostSide = s.hostSide ∧ u.mem = s.mem := by
        subst hu
        exact ⟨rfl, rfl, rfl⟩
      have hp := dropHeld_pools (frVault (s.frame f)) f u
      have hg : (dropHeld (frVault (s.frame f)) f u).grants = u.grants := eq_of_hostSide State.grants (fun _ => rfl) (releaseHeld_hostSide ..)
      exact ⟨hp.frames.trans hk.1, hg.trans (eq_of_hostSide State.grants (fun _ => rfl) hk.2.1), hp.mem.trans hk.2.2⟩
    · have h := leaveRaw_builds (s.frame f) s
      exact ⟨h.frames, (leaveRaw_revoked (f := f) _ s).grants, h.mem⟩

theorem not_mem_keys_of_tfind {α : Type} {t : Tbl α} {k : Nat} (h : tfind t k = none) : k ∉ t.map (·.1) := by
  induction t with
  | nil => exact List.not_mem_nil
  | cons e t ih =>
    obtain ⟨j, x⟩ := e
    unfold tfind at h
    split at h
    · cases h
    next hj => exact fun hm => (List.mem_cons.mp hm).elim (fun hk => hj hk.symm) (ih h)

theorem revokeFrame_revokes {s : State} (hn : (s.frames.map (·.1)).Nodup) (hg : (s.grants.map (·.1)).Nodup) :
    (revokeFrame f s).frame f = 0 ∧ ((revokeFrame f s).grant f).owner = none ∧ (revokeFrame f s).mem = s.mem := by
  obtain ⟨pf, pg, pm⟩ := frames_releasePool (f := f) (splitAt f s)
  have hkeys : (splitAt f s).frames.map (·.1) = s.frames.map (·.1) := by
    simp only [splitAt, List.map_map]
    refine List.map_congr_left fun e _ => ?_
    simp only [Function.comp]
    split <;> rfl
  unfold revokeFrame
  dsimp only
  generalize hu : ({ releasePool f (splitAt f s) with
    vaults := _, grants := tdel (releasePool f (splitAt f s)).grants f, frames := tdel (releasePool f (splitAt f s)).frames f,
    unowned := _, retireDue := _ } : State) = u
  have huf : u.frames = tdel (releasePool f (splitAt f s)).frames f := by rw [← hu]
  have hug : u.grants = tdel s.grants f := by rw [← hu]; exact congrArg (tdel · f) pg
  have hum : u.mem = s.mem := by rw [← hu]; exact pm
  have hk : f ∉ u.frames.map (·.1) := by
    rw [huf, pf]
    exact not_mem_keys_of_tfind (tfind_tdel_same (by rw [hkeys]; exact hn))
  have h := retireRows_revoked (rowsDue s f) hk
  refine ⟨?_, ?_, h.mem.trans hum⟩
  · rw [State.frame, tget_eq_tfind, tfind_eq_none (h.keys hk)]
    rfl
  · rw [State.grant, h.grants, hug, tget_eq_tfind, tfind_tdel_same hg]
    rfl

theorem grantRevoke_revokes {s : State} (hreq : s.request = .grantRevoke f 1) (hs : s.regs.spdmSession = true) (hm : mapped s f = false) (hp : pinned s f = false)
    (hn : (s.frames.map (·.1)).Nodup) (hg : (s.grants.map (·.1)).Nodup) :
    ∃ t, exec .grantRevoke s = .next t ∧ t.frame f = 0 ∧ (t.grant f).owner = none ∧ t.mem = s.mem := by
  have e : exec .grantRevoke s = .next (((revokeFrame f s).each ((((frameRange f 1).map fun x => frVault (s.frame x)).dedup)) resumeEngine).each
      (((frameRange f 1).flatMap fun x => (s.grant x).owner.toList ++ (s.grant x).sharers).dedup) measurePart) := by
    show execGrantRevoke s = _
    unfold execGrantRevoke
    rw [hreq]
    exact congrArg Host.Outcome.next (if_neg (by simp [hs, frameRange_one, hm, hp]))
  obtain ⟨kf, kg, km⟩ := resumed_measured ((((frameRange f 1).map fun x => frVault (s.frame x)).dedup))
    (((frameRange f 1).flatMap fun x => (s.grant x).owner.toList ++ (s.grant x).sharers).dedup) (revokeFrame f s)
  obtain ⟨h1, h2, h3⟩ := revokeFrame_revokes (f := f) hn hg
  refine ⟨_, e, ?_, ?_, km.trans h3⟩
  · rw [State.frame, kf]
    exact h1
  · rw [State.grant, kg]
    exact h2

theorem grantRevoke_unauthenticated {s : State} {n : Nat} (hs : s.regs.spdmSession = false) (hreq : s.request = .grantRevoke f n) :
    exec .grantRevoke s = .next s := by
  show execGrantRevoke s = _
  unfold execGrantRevoke
  rw [hreq]
  exact congrArg Host.Outcome.next (if_pos (by simp [hs]))

end

/-! ## Classes (R247) -/

/-- An entry as a class change writes it. -/
def classedEntry (e : W64) (coh owner : Nat) : W64 := (e &&& ~~~(0x60#64 ||| (0xFFF#64 <<< 42))) ||| BitVec.ofNat 64 (2 ^ 5 * coh + 2 ^ 42 * owner)

theorem classedEntry_getLsbD (e : W64) {coh owner j : Nat} (hc : coh < 4) (hj : j < 54) :
    (classedEntry e coh owner).getLsbD j = (e.getLsbD j && !(0x60#64 ||| (0xFFF#64 <<< 42)).getLsbD j
      || (if j < 42 then (2 ^ 5 * coh).testBit j else owner.testBit (j - 42))) := by
  have hx : (2 ^ 5 * coh + 2 ^ 42 * owner).testBit j = if j < 42 then (2 ^ 5 * coh).testBit j else owner.testBit (j - 42) := by
    rw [Nat.add_comm, Nat.testBit_two_pow_mul_add _ (by omega)]
  have h64 : j < 64 := by omega
  rw [classedEntry, BitVec.getLsbD_or, BitVec.getLsbD_and, BitVec.getLsbD_not, BitVec.getLsbD_ofNat, hx]
  simp [h64]

theorem classedEntry_shows (e : W64) {coh owner : Nat} (hc : coh < 4) (ho : owner < 4096) : frCoh (classedEntry e coh owner) = coh
    ∧ frOwner (classedEntry e coh owner) = owner ∧ frP (classedEntry e coh owner) = frP e := by
  refine ⟨?_, ?_, ?_⟩
  · have h : bits (classedEntry e coh owner) 5 2 = BitVec.ofNat 2 coh := by
      refine BitVec.eq_of_getLsbD_eq fun i hi => ?_
      rw [bits, BitVec.getLsbD_extractLsb', classedEntry_getLsbD e hc (by omega), BitVec.getLsbD_ofNat, if_pos (by omega), Nat.testBit_two_pow_mul]
      interval_cases i <;> simp
    rw [frCoh, h, BitVec.toNat_ofNat, Nat.mod_eq_of_lt hc]
  · have h : bits (classedEntry e coh owner) 42 12 = BitVec.ofNat 12 owner := by
      refine BitVec.eq_of_getLsbD_eq fun i hi => ?_
      rw [bits, BitVec.getLsbD_extractLsb', classedEntry_getLsbD e hc (by omega), BitVec.getLsbD_ofNat, if_neg (by omega), Nat.add_sub_cancel_left]
      interval_cases i <;> simp
    rw [frOwner, h, BitVec.toNat_ofNat, Nat.mod_eq_of_lt ho]
  · refine (classedEntry_getLsbD e hc (j := 0) (by decide)).trans ?_
    rw [if_pos (by decide), Nat.testBit_two_pow_mul]
    simp [frP, bit]

/-- The entry of a frame after its page is split. -/
theorem splitAt_entry (f : Nat) (s : State) : (splitAt f s).frame f = s.frame f &&& ~~~0x18#64 := by
  have h := tget_map_keys 0 (fun k (e : W64) => if (pageOf s f).1 ≤ k ∧ k < (pageOf s f).1 + (pageOf s f).2 then e &&& ~~~0x18#64 else e) s.frames f
    (by split <;> rfl)
  rw [if_pos (pageOf_holds s f)] at h
  refine (congrArg (fun t => tget 0 t f) (List.map_congr_left fun e _ => ?_)).trans h
  split <;> rfl

theorem classChange_changes {s : State} {p : Fin 512} {f : Nat} {c : Fin 3} {o : Fin 4096} (hreq : s.request = .classChange p f 1 c o)
    (ho : ownsAll s p.val f 1 = true) (hm : mapped s f = false) (hp : pinned s f = false) :
    ∃ t, exec .classChange s = .next t ∧ frCoh (t.frame f) = c.val ∧ frOwner (t.frame f) = o.val ∧ frP (t.frame f) = frP (s.frame f) := by
  have e : exec .classChange s = .next (setClass c.val o.val f { s with unowned := s.unowned.filter (· ≠ f) }) := by
    have e : execClassChange s = .next (if !ownsAll s p.val f 1 || (frameRange f 1).any (fun x => mapped s x || pinned s x) then s
        else s.each (frameRange f 1) fun x s => setClass c.val o.val x { s with unowned := s.unowned.filter (· ≠ x) }) := by
      unfold execClassChange
      rw [hreq]
    exact e.trans (congrArg Host.Outcome.next (if_neg (by simp [ho, frameRange_one, hm, hp])))
  have hset : (setClass c.val o.val f { s with unowned := s.unowned.filter (· ≠ f) }).frame f
      = classedEntry ((splitAt f { s with unowned := s.unowned.filter (· ≠ f) }).frame f) c.val o.val := by
    unfold setClass
    rw [if_neg (by
      show ¬((mapped s f || pinned s f) = true)
      simp [hm, hp])]
    exact tget_tset_same ..
  rw [splitAt_entry] at hset
  obtain ⟨h1, h2, h3⟩ := classedEntry_shows (s.frame f &&& ~~~0x18#64) (coh := c.val) (owner := o.val) (by omega) o.isLt
  refine ⟨_, e, ?_, ?_, ?_⟩
  · rw [hset]
    exact h1
  · rw [hset]
    exact h2
  · rw [hset]
    refine h3.trans ?_
    simp [frP, bit]

end Sys2Proof.Machine
end

section
/-! PROOF. Partitions under the management controller: created, measured and reset (R389, R395, R402). -/
set_option Elab.async false
namespace Sys2Proof.Machine

/-! ## Partitions created (R389, R402) -/

section
variable {s : State} {p : Fin 512} {cls vfs harts : List Nat} {pool : Nat}

/-- What a step does for its own index and every step keeps is there for each index at the end. -/
theorem each_sets (P : Nat → State → Prop) (f : Nat → State → State) (hset : ∀ c s, P c (f c s)) (hkeep : ∀ c d s, P d s → P d (f c s))
    (l : List Nat) (s : State) {c : Nat} (hc : c ∈ l ∨ P c s) : P c (s.each l f) := by
  induction l generalizing s with
  | nil => exact hc.resolve_left List.not_mem_nil
  | cons x l ih =>
    refine ih (f x s) ?_
    rcases hc with hc | hc
    · rcases List.mem_cons.mp hc with rfl | hc
      · exact .inr (hset c s)
      · exact .inl hc
    · exact .inr (hkeep x c s hc)

theorem clearArrays_keeps {γ : Type} (q : State → γ) (hq : ∀ s k a, q (s.setArray k a) = q s) (cl : Nat) (s : State) :
    q (clearArrays cl s) = q s := by
  unfold clearArrays clearModes State.each
  refine (foldl_keeps _ q ?_ _ _).trans (foldl_keeps _ q ?_ _ _)
  · exact fun s i => hq s _ _
  · exact fun s i => hq s _ _

theorem giveCluster_rest (k c : Nat) (s : State) : (giveCluster k c s).regs = s.regs ∧ (giveCluster k c s).parts = s.parts := by
  unfold giveCluster
  split
  · exact ⟨rfl, rfl⟩
  · exact ⟨clearArrays_keeps State.regs (fun _ _ _ => rfl) c _, clearArrays_keeps State.parts (fun _ _ _ => rfl) c _⟩

theorem giveCluster_sets (k c : Nat) (s : State) : ((giveCluster k c s).cluster c).part = some k := by
  unfold giveCluster
  split
  next h => exact h
  next h =>
    rw [State.cluster, clearArrays_keeps State.clusters (fun _ _ _ => rfl)]
    exact congrArg Cluster.part (tget_tset_same Cluster.initial ..)

theorem giveCluster_keeps (k c d : Nat) (s : State) (h : (s.cluster d).part = some k) : ((giveCluster k c s).cluster d).part = some k := by
  by_cases hd : d = c
  · subst hd
    exact giveCluster_sets k d s
  · unfold giveCluster
    split
    · exact h
    · rw [State.cluster, clearArrays_keeps State.clusters (fun _ _ _ => rfl)]
      exact (congrArg Cluster.part (tget_tset_other Cluster.initial _ _ hd)).trans h

/-- A VF and a general core given to partition `k`. -/
def giveVf (k v : Nat) (s : State) : State := s.modVf v fun x => { x with part := some k }
def giveHart (k h : Nat) (s : State) : State := { s with harts := tset s.harts h { s.hart h with part := some k } }

/-- Clusters, VFs and general cores given out to partition `k`. -/
def givenOut (k : Nat) (cls vfs harts : List Nat) (s : State) : State := ((s.each cls (giveCluster k)).each vfs (giveVf k)).each harts (giveHart k)

theorem givenOut_keeps {γ : Type} (k : Nat) (q : State → γ) (h1 : ∀ c s, q (giveCluster k c s) = q s) (h2 : ∀ v s, q (giveVf k v s) = q s)
    (h3 : ∀ h s, q (giveHart k h s) = q s) (s : State) : q (givenOut k cls vfs harts s) = q s := by
  refine (foldl_keeps (fun s h => giveHart k h s) q (fun s h => h3 h s) harts _).trans ?_
  refine (foldl_keeps (fun s v => giveVf k v s) q (fun s v => h2 v s) vfs _).trans ?_
  exact foldl_keeps (fun s c => giveCluster k c s) q (fun s c => h1 c s) cls s

theorem givenOut_gives (k : Nat) (s : State) : (∀ c ∈ cls, ((givenOut k cls vfs harts s).cluster c).part = some k)
    ∧ (∀ v ∈ vfs, ((givenOut k cls vfs harts s).vf v).part = some k) ∧ ∀ h ∈ harts, ((givenOut k cls vfs harts s).hart h).part = some k := by
  set s1 := s.each cls (giveCluster k) with hs1
  set s2 := s1.each vfs (giveVf k) with hs2
  have hclusters : (givenOut k cls vfs harts s).clusters = s1.clusters :=
    (foldl_keeps (fun s h => giveHart k h s) State.clusters (fun _ _ => rfl) harts s2).trans
      (foldl_keeps (fun s v => giveVf k v s) State.clusters (fun _ _ => rfl) vfs s1)
  have hvfs : (givenOut k cls vfs harts s).vfs = s2.vfs := foldl_keeps (fun s h => giveHart k h s) State.vfs (fun _ _ => rfl) harts s2
  refine ⟨fun c hc => ?_, fun v hv => ?_, fun h hh => ?_⟩
  · rw [State.cluster, hclusters]
    exact each_sets (fun c s => (s.cluster c).part = some k) _ (giveCluster_sets k) (fun c d s => giveCluster_keeps k c d s) cls s (.inl hc)
  · rw [State.vf, hvfs]
    refine each_sets (fun v s => (s.vf v).part = some k) _ (fun v s => ?_) (fun v d s hd => ?_) vfs s1 (.inl hv)
    · exact congrArg Vf.part (tget_tset_same Vf.initial ..)
    · by_cases h : d = v
      · subst h
        exact congrArg Vf.part (tget_tset_same Vf.initial ..)
      · exact (congrArg Vf.part (tget_tset_other Vf.initial _ _ h)).trans hd
  · refine each_sets (fun h s => (s.hart h).part = some k) _ (fun h s => ?_) (fun h d s hd => ?_) harts s2 (.inl hh)
    · exact congrArg Hart.part (tget_tset_same Hart.initial ..)
    · by_cases hne : d = h
      · subst hne
        exact congrArg Hart.part (tget_tset_same Hart.initial ..)
      · exact (congrArg Hart.part (tget_tset_other Hart.initial _ _ hne)).trans hd

/-- The partition as it stands after PARTITION_CREATE. -/
def createdPart (p : Nat) (pool : Nat) (s : State) : State :=
  s.modPart p fun x => { x with present := true, pool := pool, vaultView := x.present && x.vaultView }

theorem partitionCreate_eq (hreq : s.request = .partitionCreate p cls vfs harts pool) (hm : s.regs.mini = false) (hsess : s.regs.spdmSession = true)
    (hcls : ∀ c ∈ cls, c < 512 ∧ ((s.cluster c).part = none ∧ clusterEmpty s c = true ∧ s.regs.swapping ≠ some c ∨ (s.cluster c).part = some p.val))
    (hall : ∀ c ∈ s.clusters, c.2.part = some p.val → c.1 ∈ cls) (hvfs : ∀ v ∈ vfs, v < 1024 ∧ ((s.vf v).part = none ∨ (s.vf v).part = some p.val))
    (hharts : ∀ h ∈ harts, h < 32 ∧ ((s.hart h).part = none ∨ (s.hart h).part = some p.val)) :
    exec .partitionCreate s = .next (measurePart p.val (createdPart p.val pool (givenOut p.val cls vfs harts s))) := by
  have hlost : (s.clusters.filter fun c => c.2.part == some p.val && !cls.contains c.1) = [] := by
    refine List.filter_eq_nil_iff.mpr fun c hc hb => ?_
    simp only [Bool.and_eq_true, beq_iff_eq, Bool.not_eq_true', List.contains_eq_mem, decide_eq_false_iff_not] at hb
    exact hb.2 (hall c hc hb.1)
  have hok1 : (cls.all fun c => decide (c < 512) && ((s.cluster c).part.isNone || (s.cluster c).part == some p.val)) = true :=
    List.all_eq_true.mpr fun c hc => by
      obtain ⟨hlt, ⟨hn, -, -⟩ | hp⟩ := hcls c hc
      · simp [hlt, hn]
      · simp [hlt, hp]
  have hok2 : ((cls.filter fun c => (s.cluster c).part != some p.val).all fun c => clusterEmpty s c && s.regs.swapping != some c) = true :=
    List.all_eq_true.mpr fun c hc => by
      obtain ⟨hc, hne⟩ := List.mem_filter.mp hc
      obtain ⟨-, ⟨-, he, hs⟩ | hp⟩ := hcls c hc
      · simp [he, hs]
      · simp [hp] at hne
  have hfree : ∀ o : Option Nat, o = none ∨ o = some p.val → (o.isNone || o == some p.val) = true := by
    rintro _ (rfl | rfl) <;> simp
  have hok3 : (vfs.all fun v => decide (v < 1024) && ((s.vf v).part.isNone || (s.vf v).part == some p.val)) = true :=
    List.all_eq_true.mpr fun v hv => by simp only [(hvfs v hv).1, hfree _ (hvfs v hv).2, decide_true, Bool.and_self]
  have hok4 : (harts.all fun h => decide (h < 32) && ((s.hart h).part.isNone || (s.hart h).part == some p.val)) = true :=
    List.all_eq_true.mpr fun h hh => by simp only [(hharts h hh).1, hfree _ (hharts h hh).2, decide_true, Bool.and_self]
  have hrel : s.released = true := by simp [State.released, hm]
  show execPartitionCreate s = _
  unfold execPartitionCreate
  rw [hreq]
  dsimp only
  rw [hlost]
  simp only [List.map_nil, List.nil_append, hok1, hok2, hok3, hok4, hrel, hsess, Bool.and_self, Bool.not_true, Bool.or_self, Bool.false_eq_true, if_false]
  rfl

theorem partitionCreate_unauthenticated (hs : s.regs.spdmSession = false) (hreq : s.request = .partitionCreate p cls vfs harts pool) :
    exec .partitionCreate s = .next s := by
  show execPartitionCreate s = _
  unfold execPartitionCreate
  rw [hreq]
  exact congrArg Host.Outcome.next (if_pos (by simp [hs]))

/-- What a created partition shows. -/
theorem createdPart_shows (s : State) :
    let t := measurePart p.val (createdPart p.val pool (givenOut p.val cls vfs harts s))
    (t.part p.val).present = true ∧ (t.part p.val).pool = pool ∧ (∀ c ∈ cls, (t.cluster c).part = some p.val)
      ∧ (∀ v ∈ vfs, (t.vf v).part = some p.val) ∧ (∀ h ∈ harts, (t.hart h).part = some p.val)
      ∧ ((s.part p.val).present = false → (t.part p.val).vaultView = false)
      ∧ tget 0 t.regs.measure 7 = sha384Extend (tget 0 s.regs.measure 7) (Config.configDigest (partConfig t p.val)) := by
  set u := givenOut p.val cls vfs harts s with hu
  obtain ⟨hc, hv, hh⟩ := givenOut_gives (cls := cls) (vfs := vfs) (harts := harts) p.val s
  have hparts : u.parts = s.parts := givenOut_keeps p.val State.parts (fun c s => (giveCluster_rest p.val c s).2) (fun _ _ => rfl) (fun _ _ => rfl) s
  have hregs : u.regs = s.regs := givenOut_keeps p.val State.regs (fun c s => (giveCluster_rest p.val c s).1) (fun _ _ => rfl) (fun _ _ => rfl) s
  have hpart : (measurePart p.val (createdPart p.val pool u)).part p.val
      = { u.part p.val with present := true, pool := pool, vaultView := (u.part p.val).present && (u.part p.val).vaultView } :=
    tget_tset_same Part.initial ..
  refine ⟨?_, ?_, hc, hv, hh, fun hp => ?_, ?_⟩
  · rw [hpart]
  · rw [hpart]
  · rw [hpart, State.part, hparts]
    show (((s.part p.val).present && _) = false)
    rw [hp]
    rfl
  · refine (tget_tset_same 0 ..).trans ?_
    show sha384Extend (tget 0 u.regs.measure 7) _ = _
    rw [hregs]
    rfl

end

/-! ## Partitions reset (R395) -/

/-- No context and no saved context of the partition is left. -/
def Discarded (p : Nat) (s : State) : Prop := (∀ c ∈ s.ctxs, c.2.part = p → c.2.run = .idle) ∧ ∀ x ∈ s.saves, x.2.ctx.part ≠ p

/-- A step brings back no context of the partition. -/
structure StaysDiscarded (p : Nat) (s t : State) : Prop where
  keeps : Discarded p s → Discarded p t

section
variable {p : Nat}

theorem StaysDiscarded.of_same {s t : State} (hc : t.ctxs = s.ctxs) (hs : t.saves = s.saves) : StaysDiscarded p s t := ⟨fun h => by
  unfold Discarded
  rw [hc, hs]
  exact h⟩

theorem StaysDiscarded.refl (s : State) : StaysDiscarded p s s := ⟨id⟩

theorem StaysDiscarded.trans {s t u : State} (h : StaysDiscarded p s t) (k : StaysDiscarded p t u) : StaysDiscarded p s u := ⟨k.keeps ∘ h.keeps⟩

theorem StaysDiscarded.after {s t u : State} (k : StaysDiscarded p t u) (hc : t.ctxs = s.ctxs) (hs : t.saves = s.saves) : StaysDiscarded p s u :=
  (StaysDiscarded.of_same hc hs).trans k

theorem StaysDiscarded.foldl {β : Type} (f : State → β → State) (hf : ∀ s x, StaysDiscarded p s (f s x)) (l : List β) (s : State) :
    StaysDiscarded p s (l.foldl f s) := by
  induction l generalizing s with
  | nil => exact .refl s
  | cons x l ih => exact (hf s x).trans (ih _)

theorem StaysDiscarded.each (f : Nat → State → State) (hf : ∀ n s, StaysDiscarded p s (f n s)) (l : List Nat) (s : State) : StaysDiscarded p s (s.each l f) :=
  .foldl (fun s n => f n s) (fun s n => hf n s) l s

theorem mem_tset {α : Type} {t : Tbl α} {k : Nat} {v : α} {e : Nat × α} (h : e ∈ tset t k v) : e ∈ t ∨ e = (k, v) := by
  induction t with
  | nil => exact .inr (List.mem_singleton.mp h)
  | cons x t ih =>
    obtain ⟨j, y⟩ := x
    unfold tset at h
    split at h
    · exact (List.mem_cons.mp h).elim .inr .inl
    · split at h
      · exact (List.mem_cons.mp h).elim .inr fun h => .inl (List.mem_cons_of_mem _ h)
      · rcases List.mem_cons.mp h with rfl | h
        · exact .inl List.mem_cons_self
        · exact (ih h).imp (List.mem_cons_of_mem _) id

/-- What a table reads is its default or listed. -/
theorem tget_listed {α : Type} (d : α) (t : Tbl α) (k : Nat) : tget d t k = d ∨ ∃ e ∈ t, e.2 = tget d t k := by
  induction t with
  | nil => exact .inl rfl
  | cons e t ih =>
    obtain ⟨j, x⟩ := e
    unfold tget
    split
    · exact .inr ⟨_, List.mem_cons_self, rfl⟩
    · exact ih.imp id fun ⟨e, he, h⟩ => ⟨e, List.mem_cons_of_mem _ he, h⟩

theorem modCtx_discarded (g : Nat) {f : Ctx → Ctx} (hp : ∀ c, (f c).part = c.part) (hr : ∀ c, (f c).run = c.run) (s : State) :
    StaysDiscarded p s (s.modCtx g f) := by
  refine ⟨fun ⟨h1, h2⟩ => ⟨fun c hc hpart => ?_, h2⟩⟩
  rcases mem_tset hc with hc | rfl
  · exact h1 c hc hpart
  · rw [show (g, f (s.ctx g)).2 = f (s.ctx g) from rfl, hp] at hpart
    rw [show (g, f (s.ctx g)).2 = f (s.ctx g) from rfl, hr]
    rcases tget_listed Ctx.initial s.ctxs g with h | ⟨e, he, h⟩
    · rw [State.ctx, h]
      rfl
    · have hrun := h1 e he ((congrArg Ctx.part h).trans hpart)
      exact (congrArg Ctx.run h).symm.trans hrun

theorem errorRecord_discarded (sev str : Nat) (q : Option Nat) (place : Nat) (a : W64) (s : State) :
    StaysDiscarded p s (errorRecord sev str q place a s) := by
  unfold errorRecord
  dsimp only
  split
  · split <;> exact .of_same rfl rfl
  · exact .of_same rfl rfl

theorem freezeChannel_discarded (cl ch cause part : Nat) (a : W64) (s : State) : StaysDiscarded p s (freezeChannel cl ch cause part a s) := by
  unfold freezeChannel
  dsimp only
  split
  · exact .refl s
  · exact .of_same rfl rfl

theorem wake_discarded (x : Source) (n : Nat) (s : State) : StaysDiscarded p s (wake x n s) := by
  cases x with
  | ctx g => exact modCtx_discarded g (f := fun c => { c with watch := c.watch + (s.cycles.toNat - max n c.watch) }) (fun _ => rfl) (fun _ => rfl) s
  | hart h a => exact .of_same rfl rfl
  | door a => exact .of_same rfl rfl

theorem releaseHeld_discarded (v : Nat) (gone : HeldWrite → Bool) (s : State) : StaysDiscarded p s (releaseHeld v gone s) := by
  unfold releaseHeld
  dsimp only
  refine StaysDiscarded.after (t := s.modVault v fun vt => { vt with held := vt.held.filter fun h => !gone h }) (.foldl _ (fun s x => ?_) _ _) rfl rfl
  split
  · exact .of_same rfl rfl
  · exact wake_discarded ..

theorem decideSpace_discarded (v : Nat) (s : State) : StaysDiscarded p s (decideSpace v s) := by
  unfold decideSpace
  dsimp only
  split
  · exact .refl s
  · refine .foldl _ (fun s b => ?_) _ s
    split
    · exact .refl s
    · refine StaysDiscarded.trans ⟨fun h => ⟨fun c hc hpart => ?_, fun x hx => ?_⟩⟩ (.foldl _ (fun s c => freezeChannel_discarded ..) _ _)
      · obtain ⟨e, he, rfl⟩ := List.mem_map.mp hc
        dsimp only at hpart ⊢
        split at hpart <;> split
        all_goals exact h.1 e he hpart
      · obtain ⟨e, he, rfl⟩ := List.mem_map.mp hx
        dsimp only
        split
        all_goals exact h.2 e he

theorem holdWrite_discarded (v l q : Nat) (s : State) : StaysDiscarded p s (holdWrite v l q s) :=
  StaysDiscarded.after (errorRecord_discarded ..) rfl rfl

theorem noteLine_discarded (l : Nat) (s : State) : StaysDiscarded p s (noteLine l s) := by
  unfold noteLine
  split
  · exact .refl s
  next v q _ =>
    dsimp only
    split
    · exact .refl s
    · split
      · exact holdWrite_discarded ..
      · split
        · exact StaysDiscarded.after (decideSpace_discarded ..) rfl rfl
        · exact holdWrite_discarded ..

theorem writeDp_discarded (a : Nat) (bs : List Byte) (s : State) : StaysDiscarded p s (writeDp a bs s) := by
  unfold writeDp noteLines
  dsimp only
  split
  · exact .of_same rfl rfl
  · exact StaysDiscarded.after (.foldl (fun s l => noteLine l s) (fun s l => noteLine_discarded l s) _ _) rfl rfl

theorem restoreFrame_discarded (f : Nat) (s : State) : StaysDiscarded p s (restoreFrame f s) := by
  unfold restoreFrame
  dsimp only
  split
  next t ht =>
    split at ht
    · unfold restoreNow at ht
      dsimp only at ht
      split at ht
      · cases ht
      · split at ht
        · cases ht
        · cases ht
          exact StaysDiscarded.after ((releaseHeld_discarded ..).trans (decideSpace_discarded ..)) rfl rfl
    · cases ht
  next =>
    split
    · exact .refl s
    · exact holdWrite_discarded ..

theorem writeBack_discarded (a : Nat) (bs : List Byte) (s : State) : StaysDiscarded p s (writeBack a bs s) := by
  unfold writeBack
  split
  · exact .refl s
  · dsimp only
    have hr := fun fs => StaysDiscarded.foldl (fun s f => restoreFrame f s) (fun s f => restoreFrame_discarded (p := p) f s) fs s
    split
    · exact (hr _).trans (StaysDiscarded.after (errorRecord_discarded ..) rfl rfl)
    · exact (hr _).trans (writeDp_discarded ..)

theorem cpWrite_discarded (q a : Nat) (bs : List Byte) (s : State) : StaysDiscarded p s (cpWrite q a bs s) := by
  unfold cpWrite
  split
  · exact writeBack_discarded ..
  · exact .foldl _ (fun s a => errorRecord_discarded ..) _ s

theorem endLaunch_discarded (k : Nat) (s : State) : StaysDiscarded p s (endLaunch k 0x16 s) := by
  unfold endLaunch
  split
  · exact .refl s
  · exact StaysDiscarded.after (cpWrite_discarded ..) rfl rfl

theorem Run.eq_idle {r : Run} (h : r.isIdle = true) : r = .idle := by
  unfold Run.isIdle at h
  split at h
  · rfl
  · cases h

theorem discardTasks_discards (s : State) : Discarded p (discardTasks p s) := by
  unfold discardTasks
  dsimp only
  refine (StaysDiscarded.foldl _ (fun s k => endLaunch_discarded k s) _ _).keeps ⟨fun c hc hpart => ?_, fun x hx => ?_⟩
  · obtain ⟨-, h⟩ := List.mem_filter.mp hc
    rw [Bool.or_eq_true] at h
    obtain h | h := h
    · exact absurd hpart (by simpa using h)
    · exact Run.eq_idle h
  · simpa using (List.mem_filter.mp hx).2

theorem closeSession_ctxs (cl : Nat) (s : State) : (closeSession cl s).ctxs = s.ctxs ∧ (closeSession cl s).saves = s.saves := by
  unfold closeSession
  split
  · exact ⟨rfl, rfl⟩
  · unfold setPins
    have hf : ∀ {γ : Type} (q : State → γ), (∀ (s : State) f e, q (s.setFrame f e) = q s) → ∀ l (s : State),
        q (s.each l fun f s => s.setFrame f (if false = true then s.frame f ||| 0x80 else s.frame f &&& ~~~0x80#64)) = q s :=
      fun q hq l s => foldl_keeps _ q (fun s f => hq s f _) l s
    exact ⟨hf State.ctxs (fun _ _ _ => rfl) _ _, hf State.saves (fun _ _ _ => rfl) _ _⟩

theorem scrubCluster_discarded (cl : Nat) (s : State) : StaysDiscarded p s (scrubCluster cl s) := by
  obtain ⟨h1, h2⟩ := closeSession_ctxs cl s
  have hc := clearArrays_keeps State.ctxs (fun _ _ _ => rfl) cl (closeSession cl s)
  have hs := clearArrays_keeps State.saves (fun _ _ _ => rfl) cl (closeSession cl s)
  unfold scrubCluster
  dsimp only
  refine StaysDiscarded.trans ?_ (.each _ (fun n s => ?_) _ _)
  · exact .of_same (hc.trans h1) (hs.trans h2)
  · exact .of_same rfl rfl

/-- The state of a reset before its general cores thaw and its Vaults release what is out of space. -/
def scrubbed (p : Nat) (s : State) : State :=
  let mints (d : Die) : Die :=
    if d.mint.any fun m => (tfind s.launches m.launch).map (·.part) == some p then { d with mint := none, drafts := [], reqs := [] } else d
  let s := s.each ((s.ctxs.filter fun c => c.2.part == p).map (·.1)) dropClaims
  let ds : Tbl Die := s.dies.map fun d => (d.1, mints d.2)
  let s := discardTasks p { s with dies := ds }
  s.each ((s.clusters.filter fun c => c.2.part == some p).map (·.1)) scrubCluster

theorem scrubbed_discarded (s : State) : Discarded p (scrubbed p s) := by
  unfold scrubbed
  dsimp only
  generalize discardTasks p _ = u, discardTasks_discards (p := p) _ = h
  exact (StaysDiscarded.foldl (fun s cl => scrubCluster cl s) (fun s cl => scrubCluster_discarded cl s) _ u).keeps h

theorem resetPartition_eq (s : State) : ∃ vs ns, resetPartition p s = { scrubbed p s with
    harts := (scrubbed p s).harts.map fun h => (h.1, if h.2.part = some p then { h.2 with frozen := none } else h.2), vaults := vs, refusedNodes := ns } :=
  ⟨_, _, rfl⟩

/-- A reset partition holds no context, and its general cores are thawed. -/
theorem resetPartition_resets (s : State) : Discarded p (resetPartition p s)
    ∧ ∀ h x, tfind (resetPartition p s).harts h = some x → x.part = some p → x.frozen = none := by
  obtain ⟨vs, ns, e⟩ := resetPartition_eq (p := p) s
  rw [e]
  refine ⟨scrubbed_discarded s, fun h x hx hpart => ?_⟩
  rw [tfind_map fun _ (h : Hart) => if h.part = some p then { h with frozen := none } else h] at hx
  obtain ⟨y, -, rfl⟩ := Option.map_eq_some_iff.mp hx
  split
  · rfl
  next hn =>
    rw [if_neg hn] at hpart
    exact absurd hpart hn

end

end Sys2Proof.Machine
end

section
/-! PROOF. Inspection, repair and firmware under the management controller, and the SPDM responder's answers (R21, R35, R397 to R403, R447, R458). -/
set_option Elab.async false
namespace Sys2Proof.Machine

/-! ## The parts of a save area fit it (R435, R436) -/

theorem length_flatMap_of_forall {α β : Type} (f : α → List β) {n : Nat} (h : ∀ x, (f x).length = n) (l : List α) : (l.flatMap f).length = l.length * n := by
  induction l with
  | nil => simp
  | cons x l ih => rw [List.flatMap_cons, List.length_append, ih, h, List.length_cons, Nat.succ_mul, Nat.add_comm]

theorem length_dws (l : List W64) : (dws l).length = l.length * 8 := length_flatMap_of_forall _ (fun _ => length_leBytes ..) l

theorem length_partRegs (s : State) (g : Nat) (pc : W64) (pre : Bool) : (partRegs s g pc pre).length = 0x2300 := by
  have hv : ((List.range 32).flatMap fun n => leBytes 256 ((s.ctx g).v (BitVec.ofNat 5 n)).toNat).length = 8192 := by
    rw [length_flatMap_of_forall _ (fun _ => length_leBytes ..), List.length_range]
  unfold partRegs
  simp only [List.length_append, length_dws, hv, List.length_map, List.length_range, List.length_cons, List.length_nil, blockCsrs]

theorem length_accBytes (a : AccBits) : (accBytes a).length = 8192 := by
  unfold accBytes
  rw [length_flatMap_of_forall _ (fun _ => length_leBytes ..), List.length_range]

theorem length_partBank (x : Bank) : (partBank x).length = 0x8100 := by
  unfold partBank
  simp only [List.length_append, length_accBytes, List.length_replicate, List.length_cons, List.length_nil]

theorem length_partCands (c : Ctx) : (partCands c).length = 0x840 := by
  unfold partCands
  rw [length_flatMap_of_forall (n := 528)]
  · rw [List.length_range]
  · intro k
    simp only [List.length_append, length_dws, length_leBytes, List.length_cons, List.length_map, List.length_range]

theorem length_xfuImage (x : Xfu) (u : Nat) (susp : Bool) (p n : Nat) (b : TileBits) : (x.image u susp p n b).length = 0x1080 := by
  unfold Xfu.image
  simp only [List.length_append, length_leBytes]

theorem length_unitImage (x : Xfu) (u tick : Nat) : (unitImage x u tick).length = 0x1080 := by
  unfold unitImage
  split
  · dsimp only
    split <;> exact length_xfuImage ..
  · exact length_xfuImage ..

theorem length_partSnap {c : Ctx} (h : c.snapshot.length ≤ 48) : (partSnap c).length = 0x3310 := by
  have hes : (c.snapshot.flatMap Snap.bytes).length = c.snapshot.length * 272 := length_flatMap_of_forall _ (fun e => by
    simp only [Snap.bytes, List.length_append, length_leBytes]) _
  unfold partSnap
  simp only [List.length_append, length_dws, hes, List.length_replicate, List.length_cons, List.length_nil]
  omega

/-- Every part lies in its range of the area. -/
theorem length_partBytes {s : State} {g k : Nat} {pc : W64} {pre : Bool} {bs : List Byte} (hsnap : (s.ctx g).snapshot.length ≤ 48)
    (h : partBytes s g k pc pre = some bs) : bs.length = (partRange k).2 := by
  unfold partBytes at h
  dsimp only at h
  split at h
  · cases h
    exact length_partRegs ..
  · cases h
    rw [length_dws, List.length_map, List.length_range] <;> rfl
  · cases h
    unfold partTiles
    simp only [List.length_append, length_dws, List.length_map, List.length_range] <;> rfl
  · cases h
    exact length_partSnap hsnap
  · cases h
    exact length_partCands _
  · obtain ⟨x, -, rfl⟩ := Option.map_eq_some_iff.mp h
    exact length_partBank x
  · obtain ⟨x, -, rfl⟩ := Option.map_eq_some_iff.mp h
    have hk : partRange k = (0xE700, 0x1080) := by
      unfold partRange
      split
      iterate 6 contradiction
      rfl
    rw [hk]
    exact length_unitImage ..

theorem partRange_within (k : Nat) : (partRange k).1 + (partRange k).2 ≤ 65536 ∧ (partRange k).1 < 65536 ∧ (k ≠ 0 → 512 ≤ (partRange k).1) := by
  unfold partRange
  split <;> simp

/-! ## Inspection (R447) -/

/-- Part `k` of a context written at its place of a buffer. -/
def savePart (view : State) (g : Nat) (p pa : Nat) (pc : W64) (s : State) (k : Nat) : State :=
  match partBytes view g k pc false with
  | some bs => cpWrite p (pa + (partRange k).1) bs s
  | none => s

/-- The part of a plain area from one of its bytes on. -/
theorem PlainArea.sub {s : State} {p a n off m : Nat} (h : PlainArea s p a n) (hm : off + m ≤ n) (ho : off < n) : PlainArea s p (a + off) m :=
  ⟨fun f hf => h.frames f (by
    simp only [framesAt, List.mem_map, List.mem_range] at hf ⊢
    obtain ⟨k, hk, rfl⟩ := hf
    exact ⟨k + (a + off) / 65536 - a / 65536, by omega, by omega⟩)⟩

/-- Of a save area, what a step that writes into it from byte `lo` on leaves alone. -/
structure AreaStep (pa lo : Nat) (s t : State) : Prop where
  frames : t.frames = s.frames
  grants : t.grants = s.grants
  regs : t.regs = s.regs
  wf : memWf s.mem = true → memWf t.mem = true
  bytes : ∀ a, a < pa + lo ∨ pa + 65536 ≤ a → t.byteAt a = s.byteAt a

theorem AreaStep.refl (pa lo : Nat) (s : State) : AreaStep pa lo s s := ⟨rfl, rfl, rfl, id, fun _ _ => rfl⟩

theorem AreaStep.trans {pa lo : Nat} {s t u : State} (h : AreaStep pa lo s t) (k : AreaStep pa lo t u) : AreaStep pa lo s u :=
  ⟨k.frames.trans h.frames, k.grants.trans h.grants, k.regs.trans h.regs, k.wf ∘ h.wf, fun a ha => (k.bytes a ha).trans (h.bytes a ha)⟩

theorem AreaStep.plain {pa lo p a n : Nat} {s t : State} (h : AreaStep pa lo s t) (hp : PlainArea s p a n) : PlainArea t p a n :=
  hp.of_same h.frames h.grants h.regs

section
variable {view s : State} {g p pa : Nat} {pc : W64}

theorem savePart_step {k lo : Nat} (hsnap : (view.ctx g).snapshot.length ≤ 48) (hp : PlainArea s p pa 65536) (hlo : lo ≤ (partRange k).1) :
    AreaStep pa lo s (savePart view g p pa pc s k) := by
  unfold savePart
  split
  next bs hbs =>
    have hlen := length_partBytes hsnap hbs
    obtain ⟨h1, h2, -⟩ := partRange_within k
    rw [cpWrite_of_plain (hp.sub (by omega) h2)]
    exact ⟨rfl, rfl, rfl, memWf_writeBytes _ _, fun a ha => readByte_writeBytes_outside _ _ (by omega)⟩
  · exact .refl ..

theorem saveParts_step {lo : Nat} (hsnap : (view.ctx g).snapshot.length ≤ 48) (l : List Nat) (hl : ∀ k ∈ l, lo ≤ (partRange k).1)
    (hp : PlainArea s p pa 65536) : AreaStep pa lo s (l.foldl (savePart view g p pa pc) s) := by
  induction l generalizing s with
  | nil => exact .refl ..
  | cons k l ih =>
    have h := savePart_step (pc := pc) hsnap hp (hl k List.mem_cons_self)
    exact h.trans (ih (fun j hj => hl j (List.mem_cons_of_mem _ hj)) (h.plain hp))

theorem readBytes_drop (m : Memory) (a j n : Nat) : (readBytes m a (j + n)).drop j = readBytes m (a + j) n := by
  induction j generalizing a with
  | zero => simp
  | succ j ih =>
    rw [Nat.succ_add, readBytes, List.drop_succ_cons, ih, Nat.add_assoc, Nat.add_comm 1 j]

theorem readBytes_take (m : Memory) (a k n : Nat) : (readBytes m a (k + n)).take k = readBytes m a k := by
  induction k generalizing a with
  | zero => simp [readBytes]
  | succ k ih => rw [Nat.succ_add, readBytes, List.take_succ_cons, ih, readBytes]

/-- Element `n` of doublewords laid out. -/
theorem dws_at (l : List W64) (bs : List Byte) {n : Nat} (h : n < l.length) : ((dws l ++ bs).drop (8 * n)).take 8 = leBytes 8 l[n].toNat := by
  induction l generalizing n with
  | nil => cases h
  | cons x l ih =>
    have hx : dws (x :: l) = leBytes 8 x.toNat ++ dws l := rfl
    cases n with
    | zero =>
      rw [hx, List.append_assoc, Nat.mul_zero, List.drop_zero, List.take_left' (length_leBytes ..)]
      rfl
    | succ n =>
      have hd : (leBytes 8 x.toNat ++ (dws l ++ bs)).drop (8 * (n + 1)) = (dws l ++ bs).drop (8 * n) := by
        rw [Nat.mul_succ, Nat.add_comm, ← List.drop_drop, List.drop_left' (length_leBytes ..)]
      rw [hx, List.append_assoc, hd, ih (by simpa using h)]
      rfl

/-- The scalar registers in part 0. -/
theorem partRegs_scalars (view : State) (g : Nat) (pc : W64) (pre : Bool) : ∃ bs, partRegs view g pc pre
    = dws ((List.range 64).map fun n => (view.ctx g).s (BitVec.ofNat 6 n)) ++ bs := by
  unfold partRegs
  rw [List.append_assoc, List.append_assoc, List.append_assoc]
  exact ⟨_, rfl⟩

/-- Bytes that two memories read alike. -/
theorem readBytes_congr {m m' : Memory} {a n : Nat} (h : ∀ b, a ≤ b → b < a + n → readByte m b = readByte m' b) : readBytes m a n = readBytes m' a n := by
  induction n generalizing a with
  | zero => rfl
  | succ n ih =>
    simp only [readBytes]
    rw [h a le_rfl (by omega), ih fun b h1 h2 => h b (by omega) (by omega)]

/-- Scalar register `n` in the bytes of part 0. -/
theorem readBytes_partRegs {m : Memory} (hwf : memWf m = true) (view : State) (g pa : Nat) (pc : W64) {n : Nat} (hn : n < 64) :
    BitVec.ofNat 64 (leNat (readBytes (writeBytes m pa (partRegs view g pc false)) (pa + 8 * n) 8)) = (view.ctx g).s (BitVec.ofNat 6 n) := by
  have hread := readBytes_writeBytes pa (partRegs view g pc false) hwf
  obtain ⟨bs, hbs⟩ := partRegs_scalars view g pc false
  have hlen : (partRegs view g pc false).length = 8 * n + (8 + (0x2300 - 8 * n - 8)) := by
    rw [length_partRegs]
    omega
  rw [hlen] at hread
  have hd := congrArg (fun l => (l.drop (8 * n)).take 8) hread
  rw [readBytes_drop, readBytes_take] at hd
  rw [hd, hbs, dws_at _ _ (by simpa using hn), leNat_leBytes]
  refine BitVec.eq_of_toNat_eq ?_
  have hlt := ((view.ctx g).s (BitVec.ofNat 6 n)).isLt
  simp only [List.getElem_map, List.getElem_range, BitVec.toNat_ofNat]
  omega

theorem savePart_regs (view s : State) (g p pa : Nat) (pc : W64) : savePart view g p pa pc s 0 = cpWrite p pa (partRegs view g pc false) s := rfl

/-- A buffer after inspection: the scalar registers stand at its start, and no byte outside it changed. -/
theorem saveParts_shows (hsnap : (view.ctx g).snapshot.length ≤ 48) (hp : PlainArea s p pa 65536) (hwf : memWf s.mem = true) {t : State}
    (ht : (List.range 7).foldl (savePart view g p pa pc) s = t) : (∀ a, a < pa ∨ pa + 65536 ≤ a → t.byteAt a = s.byteAt a)
      ∧ ∀ n < 64, BitVec.ofNat 64 (leNat (readBytes t.mem (pa + 8 * n) 8)) = (view.ctx g).s (BitVec.ofNat 6 n) := by
  have hall := saveParts_step (pc := pc) (lo := 0) hsnap (List.range 7) (fun _ _ => Nat.zero_le _) hp
  rw [ht] at hall
  refine ⟨fun a ha => hall.bytes a ha, fun n hn => ?_⟩
  have hfirst : savePart view g p pa pc s 0 = wrote pa (partRegs view g pc false) s := by
    rw [savePart_regs]
    refine cpWrite_of_plain (hp.mono ?_)
    rw [length_partRegs]
    decide
  have hrest := saveParts_step (pc := pc) (lo := 512) (s := savePart view g p pa pc s 0) hsnap [1, 2, 3, 4, 5, 6] (by
    intro k hk
    refine (partRange_within k).2.2 ?_
    rintro rfl
    simp at hk) ((savePart_step (pc := pc) (lo := 0) hsnap hp (Nat.zero_le _)).plain hp)
  have hrange : List.range 7 = 0 :: [1, 2, 3, 4, 5, 6] := rfl
  rw [hrange, List.foldl_cons] at ht
  rw [ht, hfirst] at hrest
  rw [← readBytes_partRegs hwf view g pa pc hn]
  generalize partRegs view g pc false = bs at hrest
  refine congrArg (fun l => BitVec.ofNat 64 (leNat l)) (readBytes_congr fun b h1 h2 => ?_)
  have hb := hrest.bytes b (.inl (by omega))
  exact hb

end

/-- A context seen frozen: its results in flight are in its snapshot. -/
def frozenCtx (c : Ctx) : Ctx := if c.hm then c else c.stopIssue

theorem frozenCtx_shows (c : Ctx) : (frozenCtx c).part = c.part ∧ (∀ n, (frozenCtx c).s n = c.s n)
    ∧ (c.snapshot.length ≤ 48 → c.flights.length ≤ 48 → (frozenCtx c).snapshot.length ≤ 48) := by
  unfold frozenCtx
  split
  · exact ⟨rfl, fun _ => rfl, fun h _ => h⟩
  · refine ⟨rfl, fun _ => rfl, fun _ h => ?_⟩
    show (c.snapshotNow).length ≤ 48
    unfold Ctx.snapshotNow
    rw [List.length_map]
    exact (List.length_filter_le ..).trans h

theorem inspection_eq {s : State} {g : Fin 16384} {pa : Nat} (hreq : s.request = .inspection g pa) (hf : (s.ctx g.val).run.isFrozen = true)
    (h4 : pa % 4096 = 0) (ho : ownsAll s (s.ctx g.val).part (pa / 65536) ((pa + 65535) / 65536 + 1 - pa / 65536) = true) :
    exec .inspection s = .next ((List.range 7).foldl (savePart (s.modCtx g.val frozenCtx) g.val (s.ctx g.val).part pa
      (if (frozenCtx (s.ctx g.val)).hm then (frozenCtx (s.ctx g.val)).trappc else (frozenCtx (s.ctx g.val)).pc)) s) := by
  have hview : frozenView s g.val = some (s.modCtx g.val frozenCtx) := if_pos hf
  have hctx : (s.modCtx g.val frozenCtx).ctx g.val = frozenCtx (s.ctx g.val) := State.ctx_modCtx_same ..
  obtain ⟨hpart, -, -⟩ := frozenCtx_shows (s.ctx g.val)
  show execInspection s = _
  unfold execInspection
  rw [hreq]
  dsimp only
  rw [hview]
  dsimp only
  rw [hctx, hpart, if_neg (by simp [h4, ho])]
  rfl

theorem inspection_writes {s : State} {g : Fin 16384} {pa : Nat} (hreq : s.request = .inspection g pa) (hf : (s.ctx g.val).run.isFrozen = true)
    (h4 : pa % 4096 = 0) (ho : ownsAll s (s.ctx g.val).part (pa / 65536) ((pa + 65535) / 65536 + 1 - pa / 65536) = true) (hwf : memWf s.mem = true)
    (hp : PlainArea s (s.ctx g.val).part pa 65536) (hs : (s.ctx g.val).snapshot.length ≤ 48) (hfl : (s.ctx g.val).flights.length ≤ 48) :
    ∃ t, exec .inspection s = .next t ∧ (∀ a, a < pa ∨ pa + 65536 ≤ a → t.byteAt a = s.byteAt a)
      ∧ ∀ n < 64, BitVec.ofNat 64 (leNat (readBytes t.mem (pa + 8 * n) 8)) = (s.ctx g.val).s (BitVec.ofNat 6 n) := by
  obtain ⟨-, hregs, hsnap⟩ := frozenCtx_shows (s.ctx g.val)
  have hctx : (s.modCtx g.val frozenCtx).ctx g.val = frozenCtx (s.ctx g.val) := State.ctx_modCtx_same ..
  obtain ⟨h1, h2⟩ := saveParts_shows (view := s.modCtx g.val frozenCtx) (g := g.val)
    (pc := if (frozenCtx (s.ctx g.val)).hm then (frozenCtx (s.ctx g.val)).trappc else (frozenCtx (s.ctx g.val)).pc)
    (by rw [hctx]; exact hsnap hs hfl) hp hwf rfl
  refine ⟨_, inspection_eq hreq hf h4 ho, h1, fun n hn => ?_⟩
  rw [h2 n hn, hctx, hregs]

/-! ## Spares (R21, R35, R398) -/

section
variable {s : State} {cl : Fin 512}

/-- A field written reads back. -/
theorem bits_setBits {n w lo : Nat} (d : BitVec n) (x : BitVec w) (h : lo + w ≤ n) : bits (setBits d lo x) lo w = x := by
  refine BitVec.eq_of_getLsbD_eq fun i hi => ?_
  have h1 : lo + i < n := by omega
  have h2 : ¬ lo + i < lo := by omega
  simp [bits, setBits, hi, h1, h2]

theorem physOf_substituted (m : W64) {l : Nat} (hl : l < 8) : physOf (substituted m l) l = (spareOf m).getD 15 % 16 := by
  have hset : ∀ x : BitVec 4, bits (setBits m (4 * l) x) (4 * l) 4 = x := fun x => bits_setBits m x (by omega)
  unfold physOf substituted
  dsimp only
  split
  · have hclear : ∀ (y : W64) o, bits (y &&& ~~~(1#64 <<< (32 + o))) (4 * l) 4 = bits y (4 * l) 4 := fun y o => by
      refine BitVec.eq_of_getLsbD_eq fun i hi => ?_
      have h1 : 4 * l + i < 32 + o := by omega
      have h2 : 4 * l + i < 64 := by omega
      simp [bits, hi, h1, h2]
    rw [hclear, hset, BitVec.toNat_ofNat]
  · rw [hset, BitVec.toNat_ofNat]

theorem spareOf_lt {m : W64} {i : Nat} (h : spareOf m = some i) : i < 9 := List.mem_range.mp (List.mem_of_find?_eq_some h)

/-- CLMAP and the cluster as a substitution leaves them. -/
def movedCluster (cl : Nat) (s : State) : State :=
  let lost := (spareOf (s.clmapOf (cl / 8))).isNone
  let t := s.modCluster cl fun c => { c with closed := lost, part := if lost then none else c.part, image := none }
  { t with regs := { s.regs with
    clmap := tset s.regs.clmap (cl / 8) (substituted (s.clmapOf (cl / 8)) (cl % 8)), toposeq := s.regs.toposeq + 1, swapping := none } }

theorem movedCluster_shows (k : Nat) (s : State) : (movedCluster k s).clmapOf (k / 8) = substituted (s.clmapOf (k / 8)) (k % 8)
    ∧ (movedCluster k s).cluster k = { s.cluster k with
        closed := (spareOf (s.clmapOf (k / 8))).isNone
        part := if (spareOf (s.clmapOf (k / 8))).isNone then none else (s.cluster k).part, image := none }
    ∧ (movedCluster k s).regs.toposeq = s.regs.toposeq + 1 ∧ (movedCluster k s).regs.swapping = none :=
  ⟨tget_tset_same .., tget_tset_same Cluster.initial .., rfl, rfl⟩

theorem substitute_spare {k i : Nat} (h : spareOf (s.clmapOf (k / 8)) = some i) : substitute k s = movedCluster k s := by
  unfold substitute movedCluster
  simp only [h, Option.isNone_some] <;> rfl

theorem substitute_lost {k p : Nat} (h : spareOf (s.clmapOf (k / 8)) = none) (hp : (s.cluster k).part = some p) :
    substitute k s = measurePart p (reportLoss p k (movedCluster k s)) := by
  unfold substitute movedCluster
  simp only [h, hp, Option.isNone_none] <;> rfl

theorem spareSubstitution_eq (hreq : s.request = .spareSubstitution cl) : exec .spareSubstitution s = .next
    (if s.regs.swapping = some cl.val then (if (s.cluster cl.val).closed && clusterEmpty s cl.val then substitute cl.val s else s)
      else if !s.released || s.regs.swapping.isSome || !(s.cluster cl.val).closed || !clusterEmpty s cl.val then s
      else { s with regs := { s.regs with toposeq := s.regs.toposeq + 1, swapping := some cl.val } }) := by
  show execSpareSubstitution s = _
  unfold execSpareSubstitution
  split
  next c hc =>
    rw [hreq] at hc
    cases hc
    rfl
  next hne => exact absurd hreq (hne cl)

theorem spareSubstitution_starts (hreq : s.request = .spareSubstitution cl) (hn : s.regs.swapping = none) (hm : s.regs.mini = false)
    (hc : (s.cluster cl.val).closed = true) (he : clusterEmpty s cl.val = true) :
    exec .spareSubstitution s = .next { s with regs := { s.regs with toposeq := s.regs.toposeq + 1, swapping := some cl.val } } := by
  refine (spareSubstitution_eq hreq).trans (congrArg Host.Outcome.next ((if_neg ?_).trans (if_neg ?_)))
  · rw [hn]
    nofun
  · simp [State.released, hm, hn, hc, he]

theorem spareSubstitution_waits (hreq : s.request = .spareSubstitution cl) (hs : s.regs.swapping = some cl.val)
    (h : (s.cluster cl.val).closed = false ∨ clusterEmpty s cl.val = false) : exec .spareSubstitution s = .next s := by
  refine (spareSubstitution_eq hreq).trans (congrArg Host.Outcome.next ((if_pos hs).trans (if_neg ?_)))
  rcases h with h | h <;> simp [h]

theorem spareSubstitution_moves (hreq : s.request = .spareSubstitution cl) (hs : s.regs.swapping = some cl.val)
    (hc : (s.cluster cl.val).closed = true) (he : clusterEmpty s cl.val = true) : exec .spareSubstitution s = .next (substitute cl.val s) :=
  (spareSubstitution_eq hreq).trans (congrArg Host.Outcome.next ((if_pos hs).trans (if_pos (by rw [hc, he]; rfl))))

theorem substitute_to_spare {i : Nat} (h : spareOf (s.clmapOf (cl.val / 8)) = some i) :
    physOf ((substitute cl.val s).clmapOf (cl.val / 8)) (cl.val % 8) = i ∧ ((substitute cl.val s).cluster cl.val).closed = false
      ∧ (substitute cl.val s).regs.toposeq = s.regs.toposeq + 1 ∧ (substitute cl.val s).regs.swapping = none := by
  have hi := spareOf_lt h
  obtain ⟨h1, h2, h3, h4⟩ := movedCluster_shows cl.val s
  rw [substitute_spare h, h1, h2, physOf_substituted _ (Nat.mod_lt _ (by decide)), h]
  exact ⟨Nat.mod_eq_of_lt (by rw [Option.getD_some]; omega), rfl, h3, h4⟩

theorem substitute_reports {p : Nat} (h : spareOf (s.clmapOf (cl.val / 8)) = none) (hp : (s.cluster cl.val).part = some p) :
    physOf ((substitute cl.val s).clmapOf (cl.val / 8)) (cl.val % 8) = 15 ∧ ((substitute cl.val s).cluster cl.val).part = none
      ∧ ((substitute cl.val s).part p).reports.length = (s.part p).reports.length + 1
      ∧ (substitute cl.val s).regs.toposeq = s.regs.toposeq + 1 := by
  obtain ⟨h1, h2, h3, -⟩ := movedCluster_shows cl.val s
  have hmap : (measurePart p (reportLoss p cl.val (movedCluster cl.val s))).clmapOf (cl.val / 8) = (movedCluster cl.val s).clmapOf (cl.val / 8) := rfl
  have hcl : (measurePart p (reportLoss p cl.val (movedCluster cl.val s))).cluster cl.val = (movedCluster cl.val s).cluster cl.val := rfl
  have hpart : ((measurePart p (reportLoss p cl.val (movedCluster cl.val s))).part p).reports
      = (s.part p).reports ++ [record32 (BitVec.ofNat 64 (65536 * p)) (BitVec.ofNat 64 cl.val) 0 s.cycles] :=
    congrArg Part.reports (tget_tset_same Part.initial ..)
  rw [substitute_lost h hp, hmap, hcl, hpart, h1, h2, physOf_substituted _ (Nat.mod_lt _ (by decide)), h]
  exact ⟨rfl, rfl, List.length_append, h3⟩

end

/-! ## Firmware (R397, R399, R400) -/

section
variable {s : State}

/-- The state after a verified image: measured, its word changed, and with new matrix routines drained clusters open again. -/
def updatedFirmware (i : Nat) (f : FwImage) (s : State) : State :=
  let t := acceptImage i f s
  let reopen (c : Nat × Cluster) : Nat × Cluster :=
    if c.2.closed && c.2.part.isSome && clusterEmpty t c.1 && t.regs.swapping != some c.1 then (c.1, { c.2 with closed := false }) else c
  { t with clusters := if i = 4 then t.clusters.map reopen else t.clusters, regs := { t.regs with updated := true } }

theorem firmwareUpdate_eq {k : FwKind} {f : FwImage} (hreq : s.request = .firmwareUpdate k f) : exec .firmwareUpdate s = .next
    (if (imageReason (kindIndex k) f).isSome then s else updatedFirmware (kindIndex k) f s) := by
  show execFirmwareUpdate s = _
  unfold execFirmwareUpdate
  split
  next k' f' hc =>
    rw [hreq] at hc
    cases hc
    rfl
  next hne => exact absurd hreq (hne k f)

theorem firmwareUpdate_accepts {k : FwKind} {f : FwImage} (hreq : s.request = .firmwareUpdate k f) (h : imageReason (kindIndex k) f = none) :
    ∃ t, exec .firmwareUpdate s = .next t ∧ tget 0 t.regs.fwver (kindIndex k) = f.version
      ∧ tget 0 t.regs.measure (2 + kindIndex k) = sha384Extend (tget 0 s.regs.measure (2 + kindIndex k)) f.digest ∧ t.regs.updated = true := by
  exact ⟨_, (firmwareUpdate_eq hreq).trans (congrArg Host.Outcome.next (if_neg (by simp [h]))), tget_tset_same .., tget_tset_same .., rfl⟩

theorem firmwareUpdate_refuses {k : FwKind} {f : FwImage} (hreq : s.request = .firmwareUpdate k f) (h : imageReason (kindIndex k) f ≠ none) :
    exec .firmwareUpdate s = .next s := by
  exact (firmwareUpdate_eq hreq).trans (congrArg Host.Outcome.next (if_pos (Option.isSome_iff_ne_none.mpr h)))

theorem vaultFirmwareReplace_loads {v : Fin 16} {f : FwImage} (hreq : s.request = .vaultFirmwareReplace v f) (hm : s.regs.mini = false)
    (h : imageReason 2 f = none) (hv : tget 0 s.regs.fwver 2 = f.version) :
    exec .vaultFirmwareReplace s = .next (enginePause (s.modVault v.val fun x => { x with firmware := f.version })) := by
  have e : execVaultFirmwareReplace s = .next (if !s.released || (imageReason 2 f).isSome || tget 0 s.regs.fwver 2 != f.version then s
      else enginePause (s.modVault v.val fun x => { x with firmware := f.version })) := by
    unfold execVaultFirmwareReplace
    rw [hreq]
  exact e.trans (congrArg Host.Outcome.next (if_neg (by rw [h, hv]; simp [State.released, hm])))

theorem mintMicrocodeReplace_loads {d : Fin 64} {f : FwImage} (hreq : s.request = .mintMicrocodeReplace d f) (hm : s.regs.mini = false)
    (h : imageReason 3 f = none) (hv : tget 0 s.regs.fwver 3 = f.version) (hb : ∀ m, (s.die d.val).mint = some m → m.busy = false) :
    exec .mintMicrocodeReplace s = .next (s.modDie d.val fun x => { x with microcode := f.version, mintClosed := false }) := by
  show execMintMicrocodeReplace s = _
  unfold execMintMicrocodeReplace
  rw [hreq]
  dsimp only
  have hrel : s.released = true := by simp [State.released, hm]
  cases hmint : (s.die d.val).mint with
  | none => simp only [hrel, h, hv, Bool.not_true, Option.isSome_none, bne_self_eq_false, Bool.or_self, Bool.false_eq_true, if_false]
  | some m =>
    simp only [hrel, h, hv, hb m hmint, Bool.not_true, Option.isSome_none, bne_self_eq_false, Bool.or_self, Bool.false_eq_true, if_false]

end

section
variable {s : State}

/-! ## Power and temperature (R458) -/

/-- The clock after a step. -/
def steppedClock (s : State) (p tm : Nat) : Nat := if s.regs.allow < p ∨ 105 ≤ tm then max 1000 (s.regs.clock - 100) else min 3000 (s.regs.clock + 100)

theorem throttleStep_eq {p tm ti : Nat} (hreq : s.request = .throttleStep p tm ti) : exec .throttleStep s = .next
    (if 115 ≤ tm then failStart 9 (afterReset s)
      else { s with regs := { s.regs with
        power := p, tmax := tm, tin := ti, clock := steppedClock s p tm, throttled := decide (steppedClock s p tm < 3000) } }) := by
  show execThrottleStep s = _
  unfold execThrottleStep
  split
  next p' tm' ti' hc =>
    rw [hreq] at hc
    cases hc
    rfl
  next hne => exact absurd hreq (hne p tm ti)

theorem throttleStep_hot {p tm ti : Nat} (hreq : s.request = .throttleStep p tm ti) (h : 115 ≤ tm) :
    exec .throttleStep s = .next (failStart 9 (afterReset s)) := (throttleStep_eq hreq).trans (congrArg Host.Outcome.next (if_pos h))

theorem throttleStep_cool {p tm ti : Nat} (hreq : s.request = .throttleStep p tm ti) (h : tm < 115) : ∃ t, exec .throttleStep s = .next t
    ∧ t.regs.power = p ∧ t.regs.tmax = tm ∧ t.regs.tin = ti ∧ t.regs.clock = steppedClock s p tm ∧ (t.regs.throttled = true ↔ t.regs.clock < 3000) :=
  ⟨_, (throttleStep_eq hreq).trans (congrArg Host.Outcome.next (if_neg (not_le.mpr h))), rfl, rfl, rfl, rfl, decide_eq_true_iff⟩

theorem throttleStep_steps {p tm ti : Nat} (hreq : s.request = .throttleStep p tm ti) :
    (tm < 115 → ∃ t, exec .throttleStep s = .next t ∧ t.regs.power = p ∧ t.regs.tmax = tm ∧ t.regs.tin = ti)
      ∧ (115 ≤ tm → exec .throttleStep s = .next (failStart 9 (afterReset s))) :=
  ⟨fun h => let ⟨t, e, hp, hm, hi, _⟩ := throttleStep_cool hreq h; ⟨t, e, hp, hm, hi⟩, throttleStep_hot hreq⟩

/-! ## Soft errors (R440 to R446) -/

theorem softError_eq {e : SoftErr} (hreq : s.request = .softError e) (hm : s.regs.mini = false) : exec .softError s = .next (softError e s) := by
  have h : execSoftError s = .next (if s.released then softError e s else s) := by
    unfold execSoftError
    rw [hreq]
  exact h.trans (congrArg Host.Outcome.next (if_pos (by simp [State.released, hm])))

theorem patrolScrub_uncorrectable {x : Nat} (hreq : s.request = .patrolScrub x (some false)) (hm : s.regs.mini = false) :
    exec .patrolScrub s = .next (memoryError (memStruct s (64 * x)) x s) := by
  have hrel : s.released = true := by simp [State.released, hm]
  show execPatrolScrub s = _
  unfold execPatrolScrub
  rw [hreq]
  simp only [hrel, Bool.not_true, Bool.false_eq_true, if_false]

/-! ## The SPDM responder (R403) -/

theorem challenge_eq {n : Nat} (hreq : s.request = .challenge n) : exec .challenge s = .next
    (spdmReply 0x03 0 n (sha384Extend (certChain s) (allMeasurements s)) (aliasKey s)
      { s with regs := { s.regs with spdmSession := s.regs.spdmSession || s.regs.spdmNegotiated } }) := by
  show execChallenge s = _
  unfold execChallenge
  split
  next n' hc =>
    rw [hreq] at hc
    cases hc
    rfl
  next hne => exact absurd hreq (hne n)

theorem negotiateAlgorithms_agrees {a b : Bool} (hreq : s.request = .negotiateAlgorithms a b) : exec .negotiateAlgorithms s = .next
    (if a && b then spdmReply 0x63 0 0 0 0 { s with regs := { s.regs with spdmNegotiated := true } } else spdmError 0x01 s) := by
  show execNegotiateAlgorithms s = _
  unfold execNegotiateAlgorithms
  split
  next a' b' hc =>
    rw [hreq] at hc
    cases hc
    rfl
  next hne => exact absurd hreq (hne a b)

theorem negotiateAlgorithms_eq (hreq : s.request = .negotiateAlgorithms true true) : exec .negotiateAlgorithms s = .next
    (spdmReply 0x63 0 0 0 0 { s with regs := { s.regs with spdmNegotiated := true } }) := negotiateAlgorithms_agrees hreq

theorem getMeasurements_eq {b n : Nat} (hreq : s.request = .getMeasurements b n) (h1 : 1 ≤ b) (h7 : b ≤ 7) :
    exec .getMeasurements s = .next (spdmReply 0x60 b n (tget 0 s.regs.measure b) (aliasKey s) s) := by
  have e : execGetMeasurements s = .next
      (if 1 ≤ b ∧ b ≤ 7 then spdmReply 0x60 b n (tget 0 s.regs.measure b) (aliasKey s) s else spdmError 0x01 s) := by
    unfold execGetMeasurements
    rw [hreq]
  exact e.trans (congrArg Host.Outcome.next (if_pos ⟨h1, h7⟩))

end

/-- Settles O55: each request of the management controller, by the equation of its refusal and by what the state it leaves shows. -/
theorem managementEvents : Obligations.ManagementEvents := by
  unfold Obligations.ManagementEvents
  intro s
  refine ⟨fun r m hreq hok hn hm hc hz h64 hin hret htier hfree => frameGrant_grants hreq hok hn hm hc hz h64 hin hret htier hfree,
    fun hs => ⟨fun r => frameGrant_unauthenticated hs, fun f n => grantRevoke_unauthenticated hs, fun p cls vfs harts pool => partitionCreate_unauthenticated hs⟩,
    fun f hreq hs hm hp hn hg => grantRevoke_revokes hreq hs hm hp hn hg, fun p f c o hreq ho hm hp => classChange_changes hreq ho hm hp, ?create, ?reset,
    ?interval, ?drain, ?spare, fun k f hreq h => firmwareUpdate_accepts hreq h, fun k f hreq h => firmwareUpdate_refuses hreq h,
    fun v f hreq hm h hv => vaultFirmwareReplace_loads hreq hm h hv, fun d f hreq hm h hv hb => mintMicrocodeReplace_loads hreq hm h hv hb,
    fun g pa hreq hf h4 ho hwf hplain hs hfl => inspection_writes hreq hf h4 ho hwf ⟨hplain⟩ hs hfl, ?module, ?starting, rfl, ?throttle, ?soft, ?patrol,
    rfl, rfl, rfl, rfl, ?cert, ?chal, ?algo, ?meas⟩
  case create =>
    intro p cls vfs harts pool hreq hm hs hcls hall hvfs hharts
    exact ⟨_, partitionCreate_eq hreq hm hs hcls hall hvfs hharts, createdPart_shows s⟩
  case reset =>
    intro p hreq
    have e : execPartitionReset s = .next (resetPartition p.val s) := by
      unfold execPartitionReset
      rw [hreq]
    obtain ⟨⟨h1, h2⟩, h3⟩ := resetPartition_resets (p := p.val) s
    exact ⟨_, e, h1, h2, h3⟩
  case interval =>
    intro p ms hreq h1 h2
    have e : execWatchdogIntervalSet s = .next (if 1 ≤ ms ∧ ms ≤ 60000 then s.modPart p.val fun p => { p with wdint := ms } else s) := by
      unfold execWatchdogIntervalSet
      rw [hreq]
    exact e.trans (congrArg Host.Outcome.next (if_pos ⟨h1, h2⟩))
  case drain =>
    intro cl hreq hm
    have e : execClusterDrain s = .next (if s.released then s.modCluster cl.val fun c => { c with closed := true } else s) := by
      unfold execClusterDrain
      rw [hreq]
    exact e.trans (congrArg Host.Outcome.next (if_pos (by simp [State.released, hm])))
  case spare =>
    intro cl hreq
    exact ⟨spareSubstitution_starts hreq, spareSubstitution_waits hreq,
      fun i hs hc he h => ⟨_, spareSubstitution_moves hreq hs hc he, substitute_to_spare h⟩,
      fun p hs hc he h hp => ⟨_, spareSubstitution_moves hreq hs hc he, substitute_reports h hp⟩⟩
  case module =>
    intro parts l hreq
    show execModuleReset s = _
    unfold execModuleReset
    rw [hreq]
  case starting => exact fun h => ⟨congrArg Host.Outcome.next (if_pos h), congrArg Host.Outcome.next (if_pos h)⟩
  case throttle => exact fun p tm ti hreq => throttleStep_steps hreq
  case soft => exact fun e hreq hm => softError_eq hreq hm
  case patrol => exact fun x hreq hm => patrolScrub_uncorrectable hreq hm
  case cert =>
    intro n hreq
    show execGetCertificate s = _
    unfold execGetCertificate
    rw [hreq]
  case chal =>
    intro n hreq
    exact challenge_eq hreq
  case algo => exact fun hreq => negotiateAlgorithms_eq hreq
  case meas =>
    intro b n hreq h1 h7
    exact getMeasurements_eq hreq h1 h7

end Sys2Proof.Machine
end

section
/-! PROOF. Boot, power, error records and the answers of the SPDM responder (R401 to R404, R440 to R446, R458). -/
set_option Elab.async false
namespace Sys2Proof.Machine

/-! ## Starts (R401, R402, R404) -/

section
variable {s : State} {parts : Parts}

/-- The state in which the images of a start are verified, and minimal mode comes up: trained, and the ROM measured. -/
def romDone (parts : Parts) (s : State) : State := romRuns (trained parts (afterReset s))

theorem romDone_measures (parts : Parts) (s : State) : tget 0 (romDone parts s).regs.measure 1 = sha384Extend 0 Config.romMeasurement :=
  tget_tset_same ..

/-- A start under way, before its images. -/
def startBegun (parts : Parts) (s : State) : State :=
  { romDone parts s with regs := { (romDone parts s).regs with starting := true, updated := false } }

/-- The images in boot order. -/
def imagesRun (l : List FwImage) (s : State) : State := (List.range 5).foldl (fun s i => bootStage s i (l.getD i missingImage)) s

theorem bootModule_eq (l : List FwImage) (h : s.regs.fails < 3) : bootModule parts l s =
    if l.isEmpty then failStart 7 (startBegun parts s) else imagesRun l (startBegun parts s) := by
  unfold bootModule
  dsimp only
  rw [if_neg (by simp [h])]
  rfl

theorem bootModule_minimal (l : List FwImage) (h : s.regs.fails = 3) (hu : s.regs.updated = false) : bootModule parts l s =
    { romDone parts s with regs := { (romDone parts s).regs with mini := true } } := by
  unfold bootModule
  dsimp only
  rw [if_pos (by simp [h, hu])]
  rfl

/-- After a failed start no image runs. -/
theorem bootStage_idle {t : State} (h : t.regs.starting = false) (i : Nat) (f : FwImage) : bootStage t i f = t := if_pos (by rw [h]; rfl)

theorem foldl_bootStage_idle {t : State} (h : t.regs.starting = false) (l : List FwImage) (is : List Nat) :
    is.foldl (fun s i => bootStage s i (l.getD i missingImage)) t = t := by
  induction is with
  | nil => rfl
  | cons i is ih => rw [List.foldl_cons, bootStage_idle h, ih]

theorem bootStage_refuses {t : State} {i r : Nat} {f : FwImage} (h : t.regs.starting = true) (hr : imageReason i f = some r) :
    bootStage t i f = failStart r { t with regs := { t.regs with stage := stageOf i } } := by
  unfold bootStage
  rw [if_neg (by simp [h])]
  simp only [hr]

theorem bootStage_accepts {t : State} {i : Nat} {f : FwImage} (h : t.regs.starting = true) (hr : imageReason i f = none) :
    bootStage t i f = acceptImage i f { t with regs := { t.regs with stage := stageOf i } } := by
  unfold bootStage
  rw [if_neg (by simp [h])]
  simp only [hr]

theorem imagesRun_refused {f : FwImage} {l : List FwImage} {r : Nat} (hr : imageReason 0 f = some r) :
    imagesRun (f :: l) (startBegun parts s)
      = failStart r { startBegun parts s with regs := { (startBegun parts s).regs with stage := stageOf 0 } } := by
  have hrange : List.range 5 = 0 :: [1, 2, 3, 4] := rfl
  have h0 : (f :: l).getD 0 missingImage = f := rfl
  unfold imagesRun
  rw [hrange, List.foldl_cons, h0, bootStage_refuses rfl hr]
  exact foldl_bootStage_idle rfl (f :: l) [1, 2, 3, 4]

/-- A start of which the first `n` images run. -/
structure ImagesOk (parts : Parts) (s : State) (l : List FwImage) (n : Nat) (t : State) : Prop where
  starting : t.regs.starting = true
  ready : t.regs.ready = false
  stage : 0 < n → t.regs.stage = stageOf (n - 1)
  rom : tget 0 t.regs.measure 1 = sha384Extend 0 Config.romMeasurement
  found : t.regs.florinok = parts.florinok ∧ t.regs.memhbm = parts.memhbm ∧ t.regs.memlp = parts.memlp
  versions : ∀ i f, i < n → l[i]? = some f → tget 0 t.regs.fwver i = f.version

theorem startBegun_ok (l : List FwImage) : ImagesOk parts s l 0 (startBegun parts s) :=
  ⟨rfl, rfl, fun h => absurd h (lt_irrefl 0), romDone_measures parts s, ⟨rfl, rfl, rfl⟩, fun i _ h => absurd h (Nat.not_lt_zero i)⟩

theorem ImagesOk.next {l : List FwImage} {n : Nat} {t : State} {f : FwImage} (h : ImagesOk parts s l n t) (hf : l[n]? = some f)
    (hr : imageReason n f = none) : ImagesOk parts s l (n + 1) (bootStage t n (l.getD n missingImage)) := by
  have hget : l.getD n missingImage = f := by rw [List.getD_eq_getElem?_getD, hf, Option.getD_some]
  rw [hget, bootStage_accepts h.starting hr]
  refine ⟨h.starting, h.ready, fun _ => rfl, ?_, h.found, fun i g hi hg => ?_⟩
  · exact (tget_tset_other _ _ _ (by omega)).trans h.rom
  · by_cases hin : i = n
    · subst hin
      cases hf.symm.trans hg
      exact tget_tset_same ..
    · exact (tget_tset_other _ _ _ hin).trans (h.versions i g (by omega) hg)

theorem imagesRun_accepted {l : List FwImage} (h : ∀ i < 5, ∃ f, l[i]? = some f ∧ imageReason i f = none) :
    ImagesOk parts s l 5 (imagesRun l (startBegun parts s)) := by
  have hall : ∀ n, n ≤ 5 → ImagesOk parts s l n ((List.range n).foldl (fun s i => bootStage s i (l.getD i missingImage)) (startBegun parts s)) := by
    intro n
    induction n with
    | zero => exact fun _ => startBegun_ok l
    | succ n ih =>
      intro hn
      obtain ⟨f, hf, hr⟩ := h n (by omega)
      rw [List.range_succ, List.foldl_append]
      exact (ih (by omega)).next hf hr
  exact hall 5 le_rfl

theorem moduleReset_boots {l : List FwImage} (hreq : s.request = .moduleReset parts l) : exec .moduleReset s = .next (bootModule parts l s) := by
  show execModuleReset s = _
  unfold execModuleReset
  rw [hreq]

end

/-! ## Error records (R440, R444, R446) -/

section
variable {s : State}

theorem errorRecord_adds (sev str : Nat) (p : Option Nat) (place : Nat) (a : W64) (s : State) :
    (errorRecord sev str p place a s).errors.length = s.errors.length + 1 ∧ (errorRecord sev str p place a s).poison = s.poison
      ∧ (errorRecord sev str p place a s).ctxs = s.ctxs ∧ (errorRecord sev str p place a s).mem = s.mem := by
  unfold errorRecord
  dsimp only
  split
  · split <;> exact ⟨List.length_append, rfl, rfl, rfl⟩
  · exact ⟨List.length_append, rfl, rfl, rfl⟩

/-- Error records, poison and contexts are those of another state. -/
structure SameErrors (s t : State) : Prop where
  errors : t.errors = s.errors
  poison : t.poison = s.poison
  ctxs : t.ctxs = s.ctxs

theorem SameErrors.refl (s : State) : SameErrors s s := ⟨rfl, rfl, rfl⟩

theorem SameErrors.trans {s t u : State} (h : SameErrors s t) (k : SameErrors t u) : SameErrors s u :=
  ⟨k.errors.trans h.errors, k.poison.trans h.poison, k.ctxs.trans h.ctxs⟩

theorem SameErrors.foldl {β : Type} (f : State → β → State) (hf : ∀ s x, SameErrors s (f s x)) (l : List β) (s : State) : SameErrors s (l.foldl f s) := by
  induction l generalizing s with
  | nil => exact .refl s
  | cons x l ih => exact (hf s x).trans (ih _)

theorem strikeRow_errors (s : State) (r : Nat) : SameErrors s (strikeRow s r) := by
  refine .foldl _ (fun s u => ?_) _ s
  split
  · exact .refl s
  · split <;> exact ⟨rfl, rfl, rfl⟩

theorem leaveRaw_errors (e : W64) (s : State) : SameErrors s (leaveRaw e s) := by
  unfold leaveRaw
  split
  · exact SameErrors.trans (t := s.modVault (frVault e) fun vt =>
      { vt with vcap := vt.vcap + 1024, fresh := vt.fresh ++ [(1024 * frUnit e, 1024 * frUnit e + 1024)] }) ⟨rfl, rfl, rfl⟩
      (.foldl _ strikeRow_errors _ _)
  · exact .refl s

theorem placeRaw_errors {m : Nat} {t : State} (h : placeRaw m s = some t) : SameErrors s t := by
  unfold placeRaw at h
  dsimp only at h
  split at h
  · cases h
  · split at h
    · cases h
      exact .refl s
    · split at h
      · cases h
      · obtain ⟨w, -, rfl⟩ := Option.map_eq_some_iff.mp h
        exact ⟨rfl, rfl, rfl⟩

theorem moveFrame_errors (f : Nat) (s : State) : SameErrors s (moveFrame f s) := by
  unfold moveFrame
  dsimp only
  split
  · exact .refl s
  · split
    next t ht =>
      have h := leaveRaw_errors (s.frame f) ((splitAt f t).modFrame f fun e => (e &&& ~~~(0x1FFFFFFFF#64 <<< 9)) ||| BitVec.ofNat 64 (Config.movedTo s.tick % 2 ^ 33 * 2 ^ 9))
      exact (placeRaw_errors ht).trans ⟨h.errors, h.poison, h.ctxs⟩
    · exact .refl s

theorem retireRow_errors (s : State) (r : Nat) : SameErrors s (retireRow s r) := by
  unfold retireRow
  split
  · exact .refl s
  · have h1 : SameErrors s { s with retired := s.retired ++ [r] } := ⟨rfl, rfl, rfl⟩
    exact h1.trans ((SameErrors.foldl (fun s f => moveFrame f s) (fun s f => moveFrame_errors f s) _ _).trans (strikeRow_errors _ _))

theorem rowError_errors (a : Nat) (s : State) : SameErrors s (rowError a s) := by
  unfold rowError
  split
  · exact .refl s
  next u _ =>
    dsimp only
    split
    · have h := retireRow_errors { s with rowErrors := (countError s.rowErrors (Config.dramRow u) s.cycles).1.filter fun e => decide (e.1 ≠ Config.dramRow u) }
        (Config.dramRow u)
      exact ⟨h.errors, h.poison, h.ctxs⟩
    · exact ⟨rfl, rfl, rfl⟩

theorem rowBroken_errors (a : Nat) (s : State) : SameErrors s (rowBroken a s) ∧ (rowBroken a s).mem = s.mem := by
  unfold rowBroken
  split
  · exact ⟨.refl s, rfl⟩
  · split <;> exact ⟨⟨rfl, rfl, rfl⟩, rfl⟩

theorem sramError_errors (cl : Nat) (s : State) : SameErrors s (sramError cl s) := by
  unfold sramError
  dsimp only
  split <;> exact ⟨rfl, rfl, rfl⟩

/-- A corrected error leaves one record, and changes no poison and no context. -/
theorem correctedError_records (str place a : Nat) (p : Option Nat) (s : State) :
    (correctedError str place a p s).errors.length = s.errors.length + 1 ∧ (correctedError str place a p s).poison = s.poison
      ∧ (correctedError str place a p s).ctxs = s.ctxs := by
  obtain ⟨he, hp, hc, -⟩ := errorRecord_adds 0 str p place (BitVec.ofNat 64 a) s
  have counted : SameErrors (errorRecord 0 str p place (BitVec.ofNat 64 a) s) (correctedError str place a p s) := by
    unfold correctedError
    dsimp only
    split
    · exact rowError_errors ..
    · split
      · exact sramError_errors ..
      · split
        · exact sramError_errors ..
        · exact .refl _
  exact ⟨by rw [counted.errors, he], counted.poison.trans hp, counted.ctxs.trans hc⟩

theorem mem_poisonSectors (x : Nat) (s : State) : x ∈ (poisonSectors [x] s).poison := by
  unfold poisonSectors
  by_cases h : x ∈ s.poison <;> simp [h]

/-- An error in an uncompressed sector leaves one record and the sector poisoned; no byte changes. -/
theorem memoryError_records {str x : Nat} (h : s.lineHome (x / 8) = none) : (memoryError str x s).errors.length = s.errors.length + 1
    ∧ x ∈ (memoryError str x s).poison ∧ (memoryError str x s).mem = s.mem := by
  have hit : hitSectors s x = [x] := by
    unfold hitSectors
    simp only [h]
  unfold memoryError
  rw [hit]
  obtain ⟨hs, hm⟩ := rowBroken_errors (64 * x) (poisonSectors [x] s)
  obtain ⟨he, hp, -, hmem⟩ := errorRecord_adds 1 str (framePart s (64 * x)) (memPlace s (64 * x)) (BitVec.ofNat 64 (64 * x))
    (rowBroken (64 * x) (poisonSectors [x] s))
  refine ⟨by rw [he, hs.errors]; rfl, ?_, hmem.trans hm⟩
  rw [hp, hs.poison]
  exact mem_poisonSectors x s

/-- What the scrubber does with a sector and the error it held. -/
def scrubSector (x : Nat) (o : Option Bool) (s : State) : State :=
  match o with
  | none => s
  | some true => correctedError (memStruct s (64 * x)) (memPlace s (64 * x)) (64 * x) (framePart s (64 * x)) s
  | some false => memoryError (memStruct s (64 * x)) x s

theorem patrolScrub_eq {x : Nat} {o : Option Bool} (hreq : s.request = .patrolScrub x o) : exec .patrolScrub s = .next
    (if !s.released then s else scrubSector x o s) := by
  show execPatrolScrub s = _
  unfold execPatrolScrub
  split
  next x' o' hc =>
    rw [hreq] at hc
    cases hc
    rfl
  next hne => exact absurd hreq (hne x o)

end

/-- Settles O56: starts image by image, error records by what they add, answers by the reply they leave. -/
theorem bootAndErrorEvents : Obligations.BootAndErrorEvents := by
  unfold Obligations.BootAndErrorEvents
  intro s
  refine ⟨?refused, ?none, ?good, ?minimal, fun h => congrArg Host.Outcome.next (if_pos h), fun h => ⟨_, congrArg Host.Outcome.next (if_pos h), rfl, rfl⟩,
    ⟨_, rfl, rfl, rfl, rfl, fun _ => rfl⟩, fun p tm ti hreq h => ⟨_, throttleStep_hot hreq h, rfl, rfl, rfl, fun _ => rfl⟩,
    fun p tm ti hreq h => throttleStep_cool hreq h, ?corrected, ?poisoned, ?scrubbed, ?clean, ?spdm⟩
  case refused =>
    intro parts f l r hreq h hr
    refine ⟨_, moduleReset_boots hreq, ?_⟩
    rw [bootModule_eq _ h, List.isEmpty_cons, if_neg Bool.false_ne_true, imagesRun_refused hr]
    exact ⟨rfl, rfl, rfl, rfl, rfl, romDone_measures parts s⟩
  case none =>
    intro parts hreq h
    refine ⟨_, moduleReset_boots hreq, ?_⟩
    rw [bootModule_eq _ h, List.isEmpty_nil, if_pos rfl]
    exact ⟨rfl, rfl, rfl⟩
  case good =>
    intro parts l hreq h hlen hall
    have hne : l.isEmpty = false := by
      cases l with
      | nil => cases hlen
      | cons f l => rfl
    obtain ⟨h1, h2, h3, h4, ⟨h5, h6, h7⟩, h8⟩ := imagesRun_accepted (parts := parts) (s := s) hall
    refine ⟨_, moduleReset_boots hreq, ?_⟩
    rw [bootModule_eq _ h, hne, if_neg Bool.false_ne_true]
    exact ⟨h1, h3 (by decide), h2, h4, h5, h6, h7, h8⟩
  case minimal =>
    intro parts l hreq h hu
    refine ⟨_, moduleReset_boots hreq, ?_⟩
    rw [bootModule_minimal _ h hu]
    exact ⟨rfl, rfl, romDone_measures parts s⟩
  case corrected => exact fun st pl a part hreq hm => ⟨_, softError_eq hreq hm, correctedError_records st pl a part s⟩
  case poisoned => exact fun st x hreq hm h => ⟨_, softError_eq hreq hm, memoryError_records h⟩
  case scrubbed =>
    intro x hreq hm
    have hrel : (!s.released) = false := by simp [State.released, hm]
    obtain ⟨h1, h2, -⟩ := correctedError_records (memStruct s (64 * x)) (memPlace s (64 * x)) (64 * x) (framePart s (64 * x)) s
    exact ⟨_, (patrolScrub_eq hreq).trans (congrArg Host.Outcome.next (if_neg (by rw [hrel]; exact Bool.false_ne_true))), h1, h2⟩
  case clean =>
    intro x hreq
    exact (patrolScrub_eq hreq).trans (congrArg Host.Outcome.next (ite_self s))
  case spdm =>
    refine ⟨⟨_, _, rfl, rfl, rfl, rfl⟩, ⟨_, _, rfl, rfl, rfl, rfl⟩, ⟨_, _, rfl, rfl, rfl, rfl⟩, ⟨_, _, rfl, rfl, rfl, rfl⟩, fun n hreq => ?cert,
      fun n hreq => ⟨_, _, challenge_eq hreq, rfl, rfl, rfl⟩, fun hreq => ⟨_, _, negotiateAlgorithms_eq hreq, rfl, rfl, rfl⟩,
      fun b n hreq h1 h7 => getMeasurements_eq hreq h1 h7, fun a b hreq h => ?differ⟩
    case cert =>
      have e : execGetCertificate s = .next (spdmReply 0x02 n 0 (certChain s) 0 s) := by
        unfold execGetCertificate
        rw [hreq]
      exact ⟨_, _, e, rfl, rfl, rfl⟩
    case differ => exact ⟨_, _, (negotiateAlgorithms_agrees hreq).trans (congrArg Host.Outcome.next (if_neg (by rw [h]; exact Bool.false_ne_true))), rfl, rfl, rfl⟩

end Sys2Proof.Machine
end

section
/-! PROOF. The frame of the register forms (R9, R10, R50): each lands a result of its own, branches, or does nothing. -/
set_option Elab.async false
namespace Sys2Proof.Machine

/-! ## What a bundle leaves of its effect and its target -/

section
variable (i : Instr) (f : State → State) (target : Option W64) (s : State)

theorem Ctx.squashAfter_pending {c : Ctx} {n : Name} (j : Nat) (h : c.pending n = false) : (c.squashAfter j).pending n = false := by
  simp only [Ctx.pending, List.any_eq_false] at h ⊢
  exact fun f hf => h f (List.mem_filter.mp hf).1

/-- A squash leaves the rest of the context alone (R82). -/
theorem Ctx.squashAfter_rest (c : Ctx) (j : Nat) : SameSpecial c (c.squashAfter j) ∧ SameTrap c (c.squashAfter j) :=
  ⟨⟨⟨rfl, rfl, rfl, rfl, rfl⟩, ⟨rfl, rfl, rfl⟩, ⟨rfl, rfl⟩, rfl, ⟨rfl, rfl, rfl⟩, ⟨rfl, rfl, rfl⟩⟩, ⟨rfl, rfl, rfl, rfl, rfl, rfl⟩⟩

/-- The context that issued, after its bundle: what is not in flight is as the effect left it. -/
structure AfterBundle (c c' : Ctx) : Prop where
  special : SameSpecial c c'
  trap : SameTrap c c'
  regs : ∀ n, c.pending n = false → c'.reg n = c.reg n

/-- A bundle of one operation: memory, engines and contexts are as its effect left them, but for what lands. -/
structure BundleFrame (g : Nat) (s u t : State) : Prop where
  memory : SameMemory (claimHeld g s u) t
  engines : SameEngines u t
  others : ∀ h, h ≠ g → t.ctx h = u.ctx h
  own : AfterBundle (u.ctx g) (t.ctx g)

theorem done_frame : BundleFrame s.cur s (f s) (done i { act := f, target := target } s) := by
  have e : done i { act := f, target := target } s = _ := commitBundle_one s.cur _ _ (alone i s) f target s
  obtain ⟨w, hctx, hothers, hmem, heng, -⟩ := afterAct_spec s.cur ((slotKey i).2.1 == 1) ((alone i s).writes.filter Name.grouped) (alone i s) target (f s) s
  rw [← e] at hctx hothers hmem heng
  generalize done i { act := f, target := target } s = t at *
  refine ⟨hmem, heng, hothers, ?_⟩
  have key : ∀ c : Ctx, AfterBundle c { ((c.advance (s.ctx s.cur).bundles target ((slotKey i).2.1 == 1)
      ((alone i s).writes.filter Name.grouped)).deliver) with watch := w } := fun c => by
    have hrest := (c.advance (s.ctx s.cur).bundles target ((slotKey i).2.1 == 1) ((alone i s).writes.filter Name.grouped)).deliver_rest
    refine ⟨?_, ?_, fun n hn => ?_⟩
    · obtain ⟨h1, h2, h3, h4, h5, h6⟩ := hrest.special
      exact ⟨h1, h2, h3, h4, h5, h6⟩
    · exact hrest.trap
    · exact (Ctx.reg_watch ..).trans ((Ctx.deliver_reg (c.advance _ _ _ _) n hn).trans (Ctx.advance_reg ..))
  rw [hctx]
  cases target with
  | none => exact key _
  | some x =>
    obtain ⟨hs, ht⟩ := ((f s).ctx s.cur).squashAfter_rest (s.ctx s.cur).bundles
    have h := key (((f s).ctx s.cur).squashAfter (s.ctx s.cur).bundles)
    exact ⟨hs.trans h.special, ht.trans h.trap, fun n hn =>
      (h.regs n (Ctx.squashAfter_pending _ hn)).trans (Ctx.squashAfter_reg ..)⟩

end

/-! ## An operation that lands one result, or none -/

/-- The state holds one more result in flight, for one of the registers named, or none. -/
def LandsIn (s : State) (ws : List Name) (u : State) : Prop :=
  u = s ∨ ∃ d v m lat q, u = s.setCtx s.cur ((s.ctx s.cur).land d v m lat q none) ∧ ∀ n, d.isName n = true → n ∈ ws

/-- A commit that lands one result at most, and may branch. -/
def RegCommit (s : State) (ws : List Name) (c : Commit) : Prop := ∃ act target, c = { act := act, target := target } ∧ LandsIn s ws (act s)

/-- An answer at issue that commits so, or stops the slot, but never stalls it. -/
structure RegIssue (s : State) (ws : List Name) (r : Issue) : Prop where
  commits : ∀ c, r = .ok c → RegCommit s ws c
  stalls : ∀ f, r ≠ .error (.stall f)

section
variable {s : State} {ws : List Name}

theorem RegIssue.land {d : Dest} {v : Vec} {m : W64} {lat : Nat} {q : Bool} (h : ∀ n, d.isName n = true → n ∈ ws) :
    RegIssue s ws (commitCtx s.cur fun c => c.land d v m lat q none) :=
  ⟨fun _ hc => ⟨_, none, (Except.ok.inj hc).symm, .inr ⟨d, v, m, lat, q, rfl, h⟩⟩, nofun⟩

theorem RegIssue.nothing : RegIssue s ws nothing := ⟨fun _ hc => ⟨id, none, (Except.ok.inj hc).symm, .inl rfl⟩, nofun⟩

theorem RegIssue.branch (t : W64) : RegIssue s ws (branchTo t) := ⟨fun _ hc => ⟨id, some t, (Except.ok.inj hc).symm, .inl rfl⟩, nofun⟩

/-- A check before it that never stalls. -/
theorem RegIssue.bind {α : Type} {x : Chk α} {f : α → Issue} (hx : ∀ g, x ≠ .error (.stall g)) (hf : ∀ a, RegIssue s ws (f a)) :
    RegIssue s ws (x >>= f) := by
  cases x with
  | ok a => exact hf a
  | error st => exact ⟨nofun, fun g hg => hx g (congrArg Except.error (Except.error.inj hg))⟩

theorem Chk.need_stalls {b : Bool} {st : Stop} (h : ∀ g, st ≠ .stall g) (g : State → State) : Chk.need b st ≠ .error (.stall g) := by
  cases b
  · exact fun e => h g (Except.error.inj e)
  · exact nofun

theorem RegIssue.need {b : Bool} {st : Stop} {r : Issue} (h : ∀ g, st ≠ .stall g) (hr : RegIssue s ws r) :
    RegIssue s ws (Chk.need b st >>= fun _ => r) := .bind (Chk.need_stalls h) fun _ => hr

theorem rangeCheck_stalls (act : Nat → Bool) (f : Nat → Except Bool W64) (g : State → State) : rangeCheck act f ≠ .error (.stall g) := by
  rw [rangeCheck_eq]
  cases (List.range 32).findSome? (rangeFault act f) <;> exact nofun

/-! ### The registers a destination names -/

theorem Dest.names_s (a : Nat) (n : Name) (h : (Dest.s a).isName n = true) : n ∈ [Name.s a] := by
  cases n <;> simp_all [Dest.isName]

theorem Dest.names_p (a : Nat) (n : Name) (h : (Dest.p a).isName n = true) : n ∈ [Name.p a] := by
  cases n <;> simp_all [Dest.isName]

theorem Dest.names_v (a : Nat) (n : Name) (h : (Dest.v a).isName n = true) : n ∈ [Name.v a] := by
  cases n <;> simp_all [Dest.isName]

theorem Dest.names_b (a : Nat) (n : Name) (h : (Dest.b a).isName n = true) : n ∈ [Name.b a] := by
  cases n <;> simp_all [Dest.isName]

theorem Dest.names_mp (a : Nat) (n : Name) (h : (Dest.mp a).isName n = true) : n ∈ [Name.mp a] := by
  cases n <;> simp_all [Dest.isName]

theorem Dest.names_tc (a : Nat) (n : Name) (h : (Dest.tc a).isName n = true) : n ∈ [Name.tc a] := by
  cases n <;> simp_all [Dest.isName]

/-- Results for a register of each file. -/
theorem RegIssue.toS {a : Nat} {v : Vec} {m : W64} {lat : Nat} {q : Bool} : RegIssue s [.s a] (commitCtx s.cur fun c => c.land (.s a) v m lat q none) :=
  .land (Dest.names_s a)
theorem RegIssue.toP {a : Nat} {v : Vec} {m : W64} {lat : Nat} {q : Bool} : RegIssue s [.p a] (commitCtx s.cur fun c => c.land (.p a) v m lat q none) :=
  .land (Dest.names_p a)
theorem RegIssue.toV {a : Nat} {v : Vec} {m : W64} {lat : Nat} {q : Bool} : RegIssue s [.v a] (commitCtx s.cur fun c => c.land (.v a) v m lat q none) :=
  .land (Dest.names_v a)
theorem RegIssue.toB {a : Nat} {v : Vec} {m : W64} {lat : Nat} {q : Bool} : RegIssue s [.b a] (commitCtx s.cur fun c => c.land (.b a) v m lat q none) :=
  .land (Dest.names_b a)

theorem RegIssue.elems {e : Env} (he : e.g = s.cur) (q : BitVec 1) (d : BitVec 5) (f : Nat → Except Bool W64) :
    RegIssue s [.v d.toNat] (Machine.elems e q d f s) := by
  unfold Machine.elems
  rw [he]
  exact .bind (rangeCheck_stalls _ _) fun _ => .toV

theorem RegIssue.branchReg {e : Env} (k : Nat) : RegIssue s [] (Machine.branchReg e k s) := .need nofun (.branch _)

end

/-! ## The register forms -/

section
variable {s : State} {e : Env} (he : e.g = s.cur)
include he

theorem issueMovb_reg (k : BitVec 3) (r : BitVec 6) (f : BitVec 3) :
    RegIssue s (if f = 0 then [.b k.toNat] else [.s r.toNat]) (issueMovb e k r f s) := by
  unfold issueMovb landB landS
  rw [he]
  split
  · exact .toB
  · exact .toS

theorem issueVadds_reg (q : BitVec 1) (d a : BitVec 5) (n : BitVec 6) (m : BitVec 5) : RegIssue s [.v d.toNat] (issueVadds e q d a n m s) := by
  unfold issueVadds lanes1 landVec
  rw [he]
  dsimp only
  split <;> exact .toV

theorem issueVmuls_reg (q : BitVec 1) (d a : BitVec 5) (n : BitVec 6) (m : BitVec 5) : RegIssue s [.v d.toNat] (issueVmuls e q d a n m s) := by
  unfold issueVmuls lanes1 landVec
  rw [he]
  dsimp only
  split <;> exact .toV

theorem issueVdcvt_reg (q : BitVec 1) (d a : BitVec 5) (m : BitVec 3) : RegIssue s [.v d.toNat] (issueVdcvt e q d a m s) := by
  unfold issueVdcvt landVec
  dsimp only
  split
  · exact .elems he ..
  · rw [he]
    exact .bind (rangeCheck_stalls _ _) fun _ => .toV
  · exact .elems he ..
  · rw [he]
    exact .toV

theorem issueVfclass_reg (q : BitVec 1) (d a : BitVec 5) (m : BitVec 6) : RegIssue s [.v d.toNat] (issueVfclass e q d a m s) := by
  unfold issueVfclass lanes1 landVec
  split
  · rw [he]
    exact .toV
  · exact .elems he ..

theorem issueVmovs_reg (q : BitVec 1) (d : BitVec 6) (a : BitVec 5) (l : BitVec 6) (m : BitVec 4) : RegIssue s [.s d.toNat] (issueVmovs e q d a l m s) := by
  unfold issueVmovs landSq
  rw [he]
  dsimp only
  split
  · exact .toS
  · exact .nothing

theorem issueVred_reg (q : BitVec 1) (d a : BitVec 5) (m : BitVec 6) : RegIssue s [.v d.toNat] (issueVred e q d a m s) := by
  unfold issueVred landWhole
  rw [he]
  dsimp only
  split
  · exact .toV
  · split
    · exact .toV
    · exact ⟨nofun, nofun⟩

theorem issueVscan_reg (q : BitVec 1) (d a : BitVec 5) (m : BitVec 6) : RegIssue s [.v d.toNat] (issueVscan e q d a m s) := by
  unfold issueVscan landWhole
  rw [he]
  dsimp only
  split
  · exact .toV
  · exact .bind (rangeCheck_stalls _ _) fun _ => .toV

theorem issueVfcmp_reg (q : BitVec 1) (p : BitVec 7) (a b : BitVec 5) (c : BitVec 4) : RegIssue s [.p p.toNat] (issueVfcmp e q p a b c s) := by
  unfold issueVfcmp landPred
  rw [he]
  dsimp only
  split <;> exact .toP

theorem issueCall_reg (d : BitVec 21) : RegIssue s [.b 7] (issueCall e d s) := by
  unfold issueCall
  rw [he]
  exact ⟨fun c hc => ⟨_, _, (Except.ok.inj hc).symm, .inr ⟨_, _, _, _, _, rfl, Dest.names_b 7⟩⟩, nofun⟩

theorem issueLoop_reg (r : BitVec 6) (i : BitVec 15) : RegIssue s [.s r.toNat] (issueLoop e r i s) := by
  unfold issueLoop
  rw [he]
  exact ⟨fun c hc => ⟨_, _, (Except.ok.inj hc).symm, .inr ⟨_, _, _, _, _, rfl, Dest.names_s _⟩⟩, nofun⟩

theorem issueCsrd_reg (r : BitVec 12) (d : BitVec 6) : RegIssue s [.s d.toNat] (issueCsrd e r d s) := by
  unfold issueCsrd landS
  rw [he]
  exact .need nofun .toS

theorem issueTcset_reg (t : BitVec 5) (v : BitVec 6) : RegIssue s [.tc t.toNat] (issueTcset e t v s) := by
  unfold issueTcset
  rw [he]
  exact .need nofun (.land (Dest.names_tc _))

theorem issueTcget_reg (t : BitVec 5) (d : BitVec 6) : RegIssue s [.s d.toNat] (issueTcget e t d s) := by
  unfold issueTcget landS
  rw [he]
  exact .need nofun .toS

omit he in
theorem issueHdrT_reg (h : BitVec 3) (q : BitVec 5) (b : BitVec 3) : RegIssue s [] (issueHdrT e h q b s) := by
  unfold issueHdrT
  refine .need nofun ?_
  dsimp only
  split
  · exact .nothing
  · exact .need nofun (.branchReg _)

end

/-- Every register form answers at issue with a commit that lands what `destOf` names, or stops its slot without a stall. -/
theorem registerForm_issue {i : Instr} (h : registerForm i = true) (s : State) : RegIssue s (destOf i) (issueAlone i s) := by
  cases i
  case add | sub | and | or | xor | andn | shl | shr | sar | rot | mul | div | min | max | bitc | addi | andi | ori | xori | shli | shri | sari | muli
    | li | lis | addpc | pcnt => exact .toS
  case cmp | cmpu | cmpi | pfrom | vcmp | pand | por | pxor | pandn => exact .toP
  case vadd | vsub | vmul | vmin | vmax | vand | vor | vxor | vshl | vshr | vsar | vli | vfadd | vfsub | vfmul | vfma | vfmin | vfmax
    | vfrcp | vfrsq | vfexp2 | vflog2 | vcvt | vperm | vnib | vshuf | vbcast | vins | viota | vmov | vqdeq | vqnt | vrng => exact .toV
  case vadds => exact issueVadds_reg rfl ..
  case vmuls => exact issueVmuls_reg rfl ..
  case vdadd | vdmul | vdmax | vdscl => exact .elems rfl ..
  case br => exact .branch _
  case brb | ret => exact .branchReg _
  case lbt => exact .toB
  case mpset => exact .land (Dest.names_mp _)
  case call => exact issueCall_reg rfl _
  case movb => exact issueMovb_reg rfl ..
  case loop => exact issueLoop_reg rfl ..
  case csrd => exact issueCsrd_reg rfl ..
  case tcset => exact issueTcset_reg rfl ..
  case tcget => exact issueTcget_reg rfl ..
  case vfclass => exact issueVfclass_reg rfl ..
  case vdcvt => exact issueVdcvt_reg rfl ..
  case vmovs => exact issueVmovs_reg rfl ..
  case vred => exact issueVred_reg rfl ..
  case vscan => exact issueVscan_reg rfl ..
  case vfcmp => exact issueVfcmp_reg rfl ..
  case hdrT => exact issueHdrT_reg ..
  all_goals exact absurd h Bool.false_ne_true

/-! ## Their frame -/

/-- What a register form leaves: memory, engines, other contexts, and of its own context all but what it lands. -/
structure RegFrame (s : State) (ws : List Name) (t : State) : Prop where
  memory : SameMemory s t
  engines : SameEngines s t
  special : SameSpecial (s.ctx s.cur) (t.ctx s.cur)
  regs : KeepsRegs (s.ctx s.cur) (t.ctx s.cur) ws
  others : ∀ h, h ≠ s.cur → SameSpecial (s.ctx h) (t.ctx h) ∧ ∀ n, (t.ctx h).reg n = (s.ctx h).reg n

theorem Kept.regFrame {s t : State} (h : Kept s t) (ws : List Name) : RegFrame s ws t :=
  ⟨h.memory, h.engines, h.special _, fun n _ _ => h.regs _ n, fun g _ => ⟨h.special g, h.regs g⟩⟩

/-- A bundle whose effect lands one result at most. -/
theorem BundleFrame.regFrame {s u t : State} {ws : List Name} (h : BundleFrame s.cur s u t) (hu : LandsIn s ws u) :
    RegFrame s ws t ∧ SameTrap (s.ctx s.cur) (t.ctx s.cur) := by
  obtain ⟨hmem, heng, hothers, hspecial, htrap, hregs⟩ := h
  rcases hu with rfl | ⟨d, v, m, lat, q, rfl, hd⟩
  · rw [claimHeld_same rfl] at hmem
    refine ⟨⟨⟨hmem.mem, hmem.poison, hmem.frames, hmem.vaults⟩, heng, hspecial, fun n _ hp => hregs n hp, fun g hg => ?_⟩, htrap⟩
    rw [hothers g hg]
    exact ⟨.refl _, fun _ => rfl⟩
  · rw [claimHeld_same (by rfl)] at hmem
    rw [State.ctx_setCtx_same] at hspecial htrap hregs
    have hland := (s.ctx s.cur).land_rest d v m lat q none
    refine ⟨⟨⟨hmem.mem, hmem.poison, hmem.frames, hmem.vaults⟩, ⟨heng.cores, heng.arrays, heng.clusters⟩, hland.special.trans hspecial, fun n hn hp => ?_,
      fun g hg => ?_⟩, hland.trap.trans htrap⟩
    · refine (hregs n ?_).trans (Ctx.land_reg ..)
      have hno : d.isName n = false := by
        cases hb : d.isName n
        · rfl
        · exact absurd (hd n hb) hn
      have hpend : ((s.ctx s.cur).land d v m lat q none).pending n = ((s.ctx s.cur).pending n || (d.isName n || false)) := by
        simp only [Ctx.pending, Ctx.land_flights, List.any_append, List.any_cons, List.any_nil]
      rw [hpend, hp, hno]
      rfl
    · rw [hothers g hg, State.ctx_setCtx_other (h := hg)]
      exact ⟨.refl _, fun _ => rfl⟩

theorem blockCtx_sameTrap (w : Wait) (s : State) : SameTrap (s.ctx s.cur) ((blockCtx s.cur w s).ctx s.cur) := by
  unfold blockCtx
  rw [passIssue_ctx, State.ctx_modCtx_same]
  exact ⟨rfl, rfl, rfl, rfl, rfl, rfl⟩

/-- A bundle in which nothing was active leaves all but what lands (R80). -/
theorem skipped_frame (i : Instr) (s : State) : BundleFrame s.cur s s (skipped i s) := by
  have hskip : skipped i s = (let c := ((s.ctx s.cur).advance (s.ctx s.cur).bundles none ((slotKey i).2.1 == 1)
        ((alone i s).writes.filter Name.grouped)).deliver
      let u := meter s.cur (bundleEnergy []) (spendTime s.cur ((claimHeld s.cur s s).setCtx s.cur c))
      if !(s.ctx s.cur).run.isReady then resetWatch s.cur u else u) := by
    simp [skipped, commitBundle, Results.commits, Ctx.advance]
  rw [hskip, claimHeld_same rfl]
  dsimp only
  have hown : ∀ w, AfterBundle (s.ctx s.cur) { ((s.ctx s.cur).advance (s.ctx s.cur).bundles none ((slotKey i).2.1 == 1)
      ((alone i s).writes.filter Name.grouped)).deliver with watch := w } := fun w => by
    have hrest := ((s.ctx s.cur).advance (s.ctx s.cur).bundles none ((slotKey i).2.1 == 1) ((alone i s).writes.filter Name.grouped)).deliver_rest
    obtain ⟨h1, h2, h3, h4, h5, h6⟩ := hrest.special
    exact ⟨⟨h1, h2, h3, h4, h5, h6⟩, hrest.trap, fun n hn =>
      (Ctx.reg_watch ..).trans ((Ctx.deliver_reg ((s.ctx s.cur).advance _ _ _ _) n hn).trans (Ctx.advance_reg ..))⟩
  generalize ((s.ctx s.cur).advance (s.ctx s.cur).bundles none ((slotKey i).2.1 == 1) ((alone i s).writes.filter Name.grouped)).deliver = d at *
  have acc : Accounted (s.setCtx s.cur d) (meter s.cur (bundleEnergy []) (spendTime s.cur (s.setCtx s.cur d))) :=
    (spendTime_accounted ..).trans (meter_accounted ..)
  generalize meter s.cur (bundleEnergy []) (spendTime s.cur (s.setCtx s.cur d)) = u at acc
  have hc : u.ctx s.cur = d := by rw [acc.ctx, State.ctx_setCtx_same]
  have ho : ∀ h, h ≠ s.cur → u.ctx h = s.ctx h := fun h hh => by rw [acc.ctx, State.ctx_setCtx_other (h := hh)]
  split
  · refine ⟨?_, ⟨acc.engines.cores, acc.engines.arrays, acc.engines.clusters⟩, fun h hh => ?_, ?_⟩
    · rw [claimHeld_same rfl]
      exact ⟨acc.memory.mem, acc.memory.poison, acc.memory.frames, acc.memory.vaults⟩
    · simp [resetWatch, hh, ho]
    · have hw : (resetWatch s.cur u).ctx s.cur = { d with watch := u.cycles.toNat } := by simp [resetWatch, hc]
      rw [hw]
      exact hown _
  · refine ⟨?_, ⟨acc.engines.cores, acc.engines.arrays, acc.engines.clusters⟩, ho, ?_⟩
    · rw [claimHeld_same rfl]
      exact ⟨acc.memory.mem, acc.memory.poison, acc.memory.frames, acc.memory.vaults⟩
    · rw [hc]
      exact hown d.watch

theorem registerForm_slot {i : Instr} (h : registerForm i = true) : (slotKey i).1 ≠ 4 := by
  have hkey : (registerForm i && (slotKey i).1 == 4) = false := by cases i <;> rfl
  rw [h] at hkey
  simpa using hkey

/-- A register form alone in its bundle, or an HDR.T that lends what it may not, which traps (R88). -/
theorem registerForm_cases {i : Instr} {s t : State} (hi : registerForm i = true) (h : exec i s = .next t) :
    SlotAlone i ∨ ∃ cause info mask, t = takeTrap s.cur cause info mask s := by
  by_cases hs : SlotAlone i
  · exact .inl hs
  cases i
  case hdrT e f q b x y z =>
    have hbad : (if x = 7 then [] else [0, 1]) ++ (if y = 7 then [] else [0, 2]) ++ (if z = 7 then [] else [0, 3]) ≠ ([] : List Nat) :=
      fun hn => hs ⟨registerForm_slot hi, by simpa using hn⟩
    have e1 : execHdrT e f q b x y z s = .next t := h
    unfold execHdrT issueSlots at e1
    dsimp only at e1
    obtain rfl := Host.Outcome.next.inj e1
    generalize (if x = 7 then [] else [0, 1]) ++ (if y = 7 then [] else [0, 2]) ++ (if z = 7 then [] else [0, 3]) = bad at hbad
    cases bad with
    | nil => exact absurd rfl hbad
    | cons k bad => exact .inr ⟨_, _, _, if_pos rfl⟩
  all_goals exact absurd ⟨registerForm_slot hi, trivial⟩ hs

/-- The forms that have no check of their own land a vector, and the next bundle follows. -/
theorem exec_toV {i : Instr} {s : State} {d : BitVec 5} {v : Vec} {m : W64} {lat : Nat} {q : BitVec 1} (hi : SlotAlone i) (hs : Issues i s)
    (h : issueAlone i s = .ok (toV s d v m lat q)) :
    ∃ x, issueAlone i s = .ok x ∧ exec i s = .next (done i x s) ∧ ((done i x s).ctx s.cur).pc = (s.ctx s.cur).pc + 16
        ∧ ((done i x s).ctx s.cur).bundles = (s.ctx s.cur).bundles + 1 := by
  obtain ⟨w, hctx, -⟩ := done_onCtx i (fun c => c.landV d v m lat (q == 1)) s
  have hrest := (((s.ctx s.cur).landV d v m lat (q == 1)).advance (s.ctx s.cur).bundles none ((slotKey i).2.1 == 1)
    ((alone i s).writes.filter Name.grouped)).deliver_rest
  refine ⟨_, h, exec_completes hi hs h, ?_, ?_⟩
  · rw [toV, hctx]
    exact hrest.pc
  · rw [toV, hctx]
    exact hrest.bundles

theorem issueAlone_vfclass (q : BitVec 1) (g : BitVec 3) (d a : BitVec 5) (m : BitVec 6) (s : State) :
    ∃ v x lat, issueAlone (.vfclass q g d a m) s = .ok (toV s d v x lat q) := by
  show ∃ v x lat, issueVfclass _ q d a m s = _
  unfold issueVfclass
  split
  · exact ⟨_, _, _, rfl⟩
  · unfold elems
    dsimp only
    rw [rangeCheck_ok fun _ _ _ => ⟨_, rfl⟩]
    exact ⟨_, _, _, rfl⟩

/-- Settles O57: a register form answers at issue with a result to land, and a bundle lands it beside what was due. -/
theorem registerFormsFrame : Obligations.RegisterFormsFrame := by
  unfold Obligations.RegisterFormsFrame
  refine ⟨fun q g d a b c n m6 k => ?forms, fun i s t hi h => ?frame⟩
  case forms =>
    simp only [List.forall_mem_cons, List.not_mem_nil, false_implies, implies_true, and_true]
    obtain hclass := issueAlone_vfclass q g d a (n.setWidth 6)
    refine ⟨?_, ?_, ?_, ?_, ?_, ?_, ?_, ?_, ?_, ?_, ?_, fun s hs => ?vfclass, ?_, ?_, ?_⟩
    case vfclass =>
      obtain ⟨v, x, lat, h⟩ := hclass s
      exact exec_toV slotAlone_of_not_hdrT hs h
    all_goals exact fun s hs => exec_toV slotAlone_of_not_hdrT hs rfl
  case frame =>
    have key : RegFrame s (destOf i) t ∧ (SameTrap (s.ctx s.cur) (t.ctx s.cur) ∨ ∃ cause info mask, t = takeTrap s.cur cause info mask s) := by
      rcases registerForm_cases hi h with halone | ⟨cause, info, mask, rfl⟩
      · obtain ⟨hcommits, hstalls⟩ := registerForm_issue hi s
        rcases exec_alone_cases halone h with ⟨c, hc, rfl⟩ | rfl | ⟨f, hf, -⟩ | ⟨w, -, rfl⟩ | ⟨cause, info, mask, rfl⟩
        · obtain ⟨act, target, rfl, hland⟩ := hcommits c hc
          obtain ⟨hframe, htrap⟩ := (done_frame i act target s).regFrame hland
          exact ⟨hframe, .inl htrap⟩
        · obtain ⟨hframe, htrap⟩ := (skipped_frame i s).regFrame (ws := destOf i) (.inl rfl)
          exact ⟨hframe, .inl htrap⟩
        · exact absurd hf (hstalls f)
        · exact ⟨(blockCtx_kept ..).regFrame _, .inl (blockCtx_sameTrap w s)⟩
        · exact ⟨(takeTrap_kept ..).regFrame _, .inr ⟨cause, info, mask, rfl⟩⟩
      · exact ⟨(takeTrap_kept ..).regFrame _, .inr ⟨cause, info, mask, rfl⟩⟩
    obtain ⟨⟨hmem, heng, hspecial, hregs, hothers⟩, htrap⟩ := key
    exact ⟨hmem, heng, hspecial, hregs, hothers, htrap⟩

end Sys2Proof.Machine
end

section
/-! PROOF. The frame of loads and tile writers (R74, R101, R283, R290). -/
set_option Elab.async false
namespace Sys2Proof.Machine

/-! ## What a load or a tile writer does to the state -/

/-- No byte, no poison, no tile of the core of `g` but the slots named, no accumulator, and no register of another context changes; in
context `g`, registers with no result in flight but those named stay so. -/
structure TileStep (g : Nat) (slots : List Nat) (ws : List Name) (s u : State) : Prop where
  mem : u.mem = s.mem
  poison : u.poison = s.poison
  tiles : ∀ core slot, (core = coreOf g → slot ∉ slots) → u.tile core slot = s.tile core slot
  acc : ∀ n, (u.array n).acc = (s.array n).acc
  own : ∀ n, n ∉ ws → (s.ctx g).pending n = false → (u.ctx g).pending n = false ∧ (u.ctx g).reg n = (s.ctx g).reg n
  others : ∀ h, h ≠ g → ∀ n, (u.ctx h).reg n = (s.ctx h).reg n

/-- A change of a context in which registers with no result in flight but those named stay so. -/
structure KeepsOwn (ws : List Name) (f : Ctx → Ctx) : Prop where
  keeps : ∀ c n, n ∉ ws → c.pending n = false → (f c).pending n = false ∧ (f c).reg n = c.reg n

section
variable {g : Nat} {slots : List Nat} {ws : List Name}

theorem TileStep.of_same {s u : State} (hm : u.mem = s.mem) (hp : u.poison = s.poison) (hk : ∀ k, (u.core k).tiles = (s.core k).tiles)
    (ha : ∀ n, (u.array n).acc = (s.array n).acc) (hc : u.ctxs = s.ctxs) : TileStep g slots ws s u := by
  have hx : ∀ h, u.ctx h = s.ctx h := fun h => by simp only [State.ctx, hc]
  exact ⟨hm, hp, fun k n _ => by simp only [State.tile, Core.tile, hk], ha, fun n _ hn => by rw [hx]; exact ⟨hn, rfl⟩, fun h _ n => by rw [hx]⟩

theorem TileStep.refl (s : State) : TileStep g slots ws s s := .of_same rfl rfl (fun _ => rfl) (fun _ => rfl) rfl

theorem TileStep.trans {s t u : State} (h : TileStep g slots ws s t) (k : TileStep g slots ws t u) : TileStep g slots ws s u where
  mem := k.mem.trans h.mem
  poison := k.poison.trans h.poison
  tiles core slot hs := (k.tiles core slot hs).trans (h.tiles core slot hs)
  acc n := (k.acc n).trans (h.acc n)
  own n hn hp := by
    obtain ⟨h1, h2⟩ := h.own n hn hp
    obtain ⟨k1, k2⟩ := k.own n hn h1
    exact ⟨k1, k2.trans h2⟩
  others j hj n := (k.others j hj n).trans (h.others j hj n)

theorem TileStep.foldl {β : Type} (f : State → β → State) (l : List β) (hf : ∀ s, ∀ x ∈ l, TileStep g slots ws s (f s x)) (s : State) :
    TileStep g slots ws s (l.foldl f s) := by
  induction l generalizing s with
  | nil => exact .refl s
  | cons x l ih => exact (hf s x List.mem_cons_self).trans (ih (fun s y hy => hf s y (List.mem_cons_of_mem _ hy)) _)

/-- A slot named is written. -/
theorem TileStep.modTile {k slot : Nat} (hk : k = coreOf g) (hs : slot ∈ slots) (f : Tile → Tile) (s : State) : TileStep g slots ws s (s.modTile k slot f) where
  mem := rfl
  poison := rfl
  tiles core n hn := by
    by_cases hc : core = k
    · subst hc
      have hne : n ≠ slot := fun e => hn hk (e ▸ hs)
      simp only [State.tile, State.modTile, State.core_modCore_same, Core.tile, Core.setTile]
      exact tget_tset_other _ _ _ hne
    · simp only [State.tile, State.modTile, State.core_modCore_other (h := hc)]
  acc _ := rfl
  own _ _ hp := ⟨hp, rfl⟩
  others _ _ _ := rfl

/-- The queues of a core change, and no tile of it. -/
theorem TileStep.modCore (k : Nat) {f : Core → Core} (hf : ∀ c, (f c).tiles = c.tiles) (s : State) : TileStep g slots ws s (s.modCore k f) :=
  .of_same rfl rfl (fun j => by
    by_cases h : j = k
    · subst h
      rw [State.core_modCore_same, hf]
    · rw [State.core_modCore_other (h := h)]) (fun _ => rfl) rfl

theorem TileStep.modArray (k : Nat) {f : MArray → MArray} (hf : ∀ a, (f a).acc = a.acc) (s : State) : TileStep g slots ws s (s.modArray k f) :=
  .of_same rfl rfl (fun _ => rfl) (fun j => by
    by_cases h : j = k
    · subst h
      rw [State.array_modArray_same, hf]
    · rw [State.array_modArray_other (h := h)]) rfl

/-- The context changes: registers with no result in flight but those named stay so. -/
theorem TileStep.modCtx {f : Ctx → Ctx} (hf : KeepsOwn ws f) (s : State) :
    TileStep g slots ws s (s.modCtx g f) where
  mem := rfl
  poison := rfl
  tiles _ _ _ := rfl
  acc _ := rfl
  own n hn hp := by
    rw [State.ctx_modCtx_same]
    exact hf.keeps _ n hn hp
  others h hh n := by rw [State.ctx_modCtx_other (h := hh)]

/-- A result for a register named. -/
theorem KeepsOwn.land {d : Dest} (h : ∀ n, d.isName n = true → n ∈ ws) (v : Vec) (m : W64) (lat : Nat) (q : Bool) (p : Option W64) :
    KeepsOwn ws fun c => c.land d v m lat q p := by
  refine ⟨fun c n hn hp => ⟨?_, Ctx.land_reg ..⟩⟩
  have hno : d.isName n = false := by
    cases hb : d.isName n
    · rfl
    · exact absurd (h n hb) hn
  simp only [Ctx.pending, Ctx.land_flights, List.any_append, List.any_cons, List.any_nil, hno, Bool.or_false]
  exact hp

theorem touchFrame_step (s : State) (f : Nat) : TileStep g slots ws s (touchFrame f s) := by
  unfold touchFrame
  dsimp only
  split <;> exact .of_same rfl rfl (fun _ => rfl) (fun _ => rfl) rfl

theorem touchRead_step (l : List Sector) (s : State) : TileStep g slots ws s (touchRead l s) :=
  .foldl (fun s f => touchFrame f s) _ (fun s f _ => touchFrame_step s f) s

theorem consumed_step (k : Nat) (info : W64) (s : State) : TileStep g slots ws s (consumed k info s) := by
  unfold consumed errorRecord
  dsimp only
  split <;> exact .of_same rfl rfl (fun _ => rfl) (fun _ => rfl) rfl

theorem setPins_step (fs : List Nat) (on : Bool) (s : State) : TileStep g slots ws s (setPins fs on s) :=
  .foldl (fun s f => s.setFrame f (if on then s.frame f ||| 0x80 else s.frame f &&& ~~~0x80#64)) _
    (fun _ _ _ => .of_same rfl rfl (fun _ => rfl) (fun _ => rfl) rfl) s

theorem closeSession_step (cl : Nat) (s : State) : TileStep g slots ws s (closeSession cl s) := by
  unfold closeSession
  split
  · exact .refl s
  next x _ =>
    refine TileStep.trans (t := s.modCluster cl fun c => { c with session := none }) ?_ (setPins_step _ _ _)
    exact .of_same rfl rfl (fun _ => rfl) (fun _ => rfl) rfl

theorem setSession_step (cl : Nat) (x : Session) (s : State) : TileStep g slots ws s (setSession cl x s) :=
  .of_same rfl rfl (fun _ => rfl) (fun _ => rfl) rfl

/-! ### The shared effects -/

theorem tileJob_step {e : Env} (he : e.g = g) {slot : Nat} (hs : slot ∈ slots) (whole : List Nat) (d : TileBits) (st : BitVec 3) (s : State) :
    TileStep g slots ws s (tileJob e slot whole d st s) := by
  unfold tileJob
  rw [he]
  refine TileStep.trans (.modTile rfl hs (·.write whole d st) s) (.modCore _ ?_ _)
  exact fun _ => rfl

theorem indexJob_step {e : Env} (he : e.g = g) (outs : List (Nat × List Nat × TileBits × BitVec 3)) (hs : ∀ o ∈ outs, o.1 ∈ slots) (s : State) :
    TileStep g slots ws s (indexJob e outs s) := by
  unfold indexJob
  rw [he]
  refine TileStep.trans (.foldl (fun s o => s.modTile (coreOf g) o.1 (·.write o.2.1 o.2.2.1 o.2.2.2)) outs
    (fun s o ho => .modTile rfl (hs o ho) _ s) s) (.modCore _ ?_ _)
  exact fun _ => rfl

theorem MArray.move_acc (a : MArray) (c k st : Nat) : (a.move c k st).acc = a.acc := by
  unfold MArray.move
  dsimp only
  split <;> rfl

theorem MArray.push_acc (a : MArray) (c : Nat) (o : ArrOp) : (a.push c o).acc = a.acc := by
  unfold MArray.push
  split <;> rfl

theorem arrayEmit_step {slot : Nat} (hs : slot ∈ slots) (whole : List Nat) (o : ArrOp) {f : MArray → MArray} (hf : ∀ a, (f a).acc = a.acc) (s : State) :
    TileStep g slots ws s (arrayEmit g slot whole o f s) := by
  unfold arrayEmit
  refine TileStep.trans (.modTile rfl hs (Tile.issueWrite whole) s) (.modArray _ ?_ _)
  exact fun a => (hf _).trans (MArray.push_acc ..)

theorem KeepsOwn.nextSeq : KeepsOwn ws Ctx.nextSeq := ⟨fun _ n _ hp => ⟨hp, by cases n <;> rfl⟩⟩

theorem xferJob_step {e : Env} (he : e.g = g) (oc : Nat) (writes : List (Nat × BitVec 3)) (ps : List W64) (rows : List (Option (List Sector))) (s : State) :
    TileStep g slots ws s (xferJob e oc writes ps rows s) := by
  unfold xferJob
  rw [he]
  dsimp only
  refine TileStep.trans (.modCore (coreOf g) ?_ s) (.modCtx .nextSeq _)
  exact fun _ => rfl

end

/-! ## Their answers at issue -/

/-- A commit whose effect is that of a load or a tile writer. -/
structure TileIssue (s : State) (slots : List Nat) (ws : List Name) (r : Issue) : Prop where
  commits : ∀ c, r = .ok c → ∃ act target, c = { act := act, target := target } ∧ TileStep s.cur slots ws s (act s)

section
variable {s : State} {slots : List Nat} {ws : List Name}

theorem TileIssue.commit {f : State → State} (h : TileStep s.cur slots ws s (f s)) : TileIssue s slots ws (Machine.commit f) :=
  ⟨fun _ hc => ⟨f, none, (Except.ok.inj hc).symm, h⟩⟩

theorem TileIssue.error (st : Stop) : TileIssue s slots ws (.error st) := ⟨nofun⟩

theorem TileIssue.nothing : TileIssue s slots ws nothing := ⟨fun _ hc => ⟨id, none, (Except.ok.inj hc).symm, .refl s⟩⟩

theorem TileIssue.bind {α : Type} {x : Chk α} {f : α → Issue} (h : ∀ a, x = .ok a → TileIssue s slots ws (f a)) : TileIssue s slots ws (x >>= f) := by
  cases x with
  | ok a => exact h a rfl
  | error st => exact .error st

/-- A check of the issue, whatever it says. -/
theorem TileIssue.check {x : Chk Unit} {r : Issue} (h : TileIssue s slots ws r) : TileIssue s slots ws (x >>= fun _ => r) := .bind fun _ _ => h

/-- A result alone. -/
theorem TileIssue.lands {f : Ctx → Ctx} (hf : KeepsOwn ws f) :
    TileIssue s slots ws (commitCtx s.cur f) := .commit (f := fun t => t.modCtx s.cur f) (.modCtx hf s)

/-- A load. -/
theorem TileIssue.loads {f : Ctx → Ctx} (l : List Sector) (hf : KeepsOwn ws f) :
    TileIssue s slots ws (loaded s.cur l f) := .commit ((touchRead_step l s).trans (.modCtx hf _))

/-- What a check gave that let the rest go on. -/
theorem Chk.ok_of_bind {α β : Type} {x : Chk α} {f : α → Chk β} {b : β} (h : (x >>= f) = .ok b) : ∃ a, x = .ok a ∧ f a = .ok b := by
  cases x with
  | ok a => exact ⟨a, rfl, h⟩
  | error st => cases h

/-- The slot of a tile operand. -/
theorem tileOperand_slot {t : BitVec 5} {a : Nat × Hdr} {g : Nat} (h : tileOperand s g t = .ok a) : a.1 = (s.ctx g).tileBase + t.toNat := by
  unfold tileOperand at h
  obtain ⟨-, -, h⟩ := Chk.ok_of_bind h
  obtain ⟨-, -, h⟩ := Chk.ok_of_bind h
  rw [← Except.ok.inj h]

theorem tileOperands_slots {ts : List Nat} {l : List (Nat × Hdr)} {g : Nat} (h : tileOperands s g ts = .ok l) :
    l = ts.map fun t => ((s.ctx g).tileBase + t, Hdr.of ((s.ctx g).tc t)) := by
  unfold tileOperands at h
  obtain ⟨-, -, h⟩ := Chk.ok_of_bind h
  obtain ⟨-, -, h⟩ := Chk.ok_of_bind h
  exact (Except.ok.inj h).symm

/-! ### Loads -/

theorem KeepsOwn.landS (a : Nat) (v : Vec) (m : W64) (lat : Nat) (q : Bool) (p : Option W64) : KeepsOwn [.s a] fun c => c.land (.s a) v m lat q p :=
  .land (Dest.names_s a) ..

theorem KeepsOwn.landV (a : Nat) (v : Vec) (m : W64) (lat : Nat) (q : Bool) (p : Option W64) : KeepsOwn [.v a] fun c => c.land (.v a) v m lat q p :=
  .land (Dest.names_v a) ..

/-- A result and a base that moves. -/
theorem KeepsOwn.landBase {x : Name} {f : Ctx → Ctx} (h : KeepsOwn [x] f) (b : Nat) (v : Vec) (m : W64) (lat : Nat) (q : Bool) (p : Option W64) :
    KeepsOwn [x, .s b] fun c => (f c).land (.s b) v m lat q p := by
  refine ⟨fun c n hn hp => ?_⟩
  simp only [List.mem_cons, List.not_mem_nil, or_false, not_or] at hn
  obtain ⟨h1, h2⟩ := h.keeps c n (by simpa using hn.1) hp
  obtain ⟨h3, h4⟩ := (KeepsOwn.landS b v m lat q p).keeps (f c) n (by simpa using hn.2) h1
  exact ⟨h3, h4.trans h2⟩

variable {e : Env} (he : e.g = s.cur)
include he

theorem loadS_tile (q : BitVec 1) (d b : BitVec 6) (oc : BitVec 4) (off : BitVec 5) (size : Nat) (ext : Nat → W64) :
    TileIssue s [] [.s d.toNat] (loadS e q d b oc off size ext s) := by
  unfold loadS
  rw [he]
  exact .bind fun x _ => .check (.loads _ (.landS ..))

theorem issueLddp_tile (q : BitVec 1) (d b : BitVec 6) (oc : BitVec 4) (f : BitVec 5) :
    TileIssue s [] [.s d.toNat, .s b.toNat] (issueLddp e q d b oc f s) := by
  unfold issueLddp
  rw [he]
  exact .bind fun x _ => .check (.loads _ (.landBase (.landS ..) ..))

theorem issueVld_tile (q : BitVec 1) (d : BitVec 5) (b : BitVec 6) (oc : BitVec 4) (f : BitVec 6) :
    TileIssue s [] [.v d.toNat] (issueVld e q d b oc f s) := by
  unfold issueVld
  rw [he]
  exact .bind fun l _ => .check (.loads _ (.landV ..))

theorem issueVldp_tile (q : BitVec 1) (d : BitVec 5) (b : BitVec 6) (oc : BitVec 4) (f : BitVec 6) :
    TileIssue s [] [.v d.toNat, .s b.toNat] (issueVldp e q d b oc f s) := by
  unfold issueVldp
  rw [he]
  exact .bind fun l _ => .check (.loads _ (.landBase (.landV ..) ..))

/-! ### Tile transfers -/

theorem loadRows_tile (slot : Nat) (h : Hdr) (oc : Nat) (rows : List (Option (List Sector))) : TileIssue s [slot] [] (loadRows e slot h oc rows s) := by
  unfold loadRows
  refine .check (.check (.commit ?_))
  rw [he]
  refine TileStep.trans (TileStep.trans (.modTile rfl (List.mem_singleton_self slot) _ s) (touchRead_step _ _)) (xferJob_step he ..)

theorem issueTld_tile (t : BitVec 5) (b : BitVec 6) (oc : BitVec 4) :
    TileIssue s [(s.ctx s.cur).tileBase + t.toNat] [] (issueTld e t b oc s) := by
  unfold issueTld
  refine .bind fun a ha => ?_
  rw [he] at ha
  rw [← tileOperand_slot ha]
  exact .check (.bind fun _ _ => loadRows_tile he ..)

theorem indexedRows_slot {t i : BitVec 5} {b : BitVec 6} {v : BitVec 1} {ok : Nat → Bool} {a : Nat × Hdr × List (Option Nat)}
    (h : indexedRows e t i b v ok s = .ok a) : a.1 = (s.ctx s.cur).tileBase + t.toNat := by
  unfold indexedRows at h
  rw [he] at h
  obtain ⟨l, hl, h⟩ := Chk.ok_of_bind h
  rw [tileOperands_slots hl] at h
  dsimp only [List.map_cons, List.map_nil] at h
  obtain ⟨-, -, h⟩ := Chk.ok_of_bind h
  obtain ⟨-, -, h⟩ := Chk.ok_of_bind h
  obtain ⟨-, -, h⟩ := Chk.ok_of_bind h
  obtain ⟨_, -, h⟩ := Chk.ok_of_bind h
  rw [← Except.ok.inj h]

theorem issueTgath_tile (t : BitVec 5) (b : BitVec 6) (oc : BitVec 4) (i : BitVec 5) (v : BitVec 1) :
    TileIssue s [(s.ctx s.cur).tileBase + t.toNat] [] (issueTgath e t b oc i v s) := by
  unfold issueTgath
  refine .bind fun a ha => ?_
  rw [← indexedRows_slot he ha]
  exact .bind fun _ _ => loadRows_tile he ..

/-! ### Tile operations -/

theorem issueTzero_tile (d : BitVec 5) (m : BitVec 6) : TileIssue s [(s.ctx s.cur).tileBase + d.toNat] [] (issueTzero e d m s) := by
  unfold issueTzero
  refine .bind fun a ha => ?_
  rw [he] at ha
  rw [← tileOperand_slot ha]
  exact .check (.check (.commit (tileJob_step he (List.mem_singleton_self _) ..)))

theorem issueTcopy_tile (d a : BitVec 5) : TileIssue s [(s.ctx s.cur).tileBase + d.toNat] [] (issueTcopy e d a s) := by
  unfold issueTcopy
  refine .bind fun l hl => ?_
  rw [he] at hl
  rw [tileOperands_slots hl]
  dsimp only [List.map_cons, List.map_nil]
  refine .check (.check (.bind fun data _ => ?_))
  split
  · exact .error _
  · refine .check (.check (.commit ?_))
    have hmem := List.mem_singleton_self ((s.ctx s.cur).tileBase + d.toNat)
    have hcons : ∀ (k slot n : Nat) (t : Tile), TileStep s.cur [(s.ctx s.cur).tileBase + d.toNat] [] s (consumedTile k slot n t s) := fun k slot n t =>
      .foldl (fun s x => consumed k (tileInfo slot x) s) _ (fun s x _ => consumed_step ..) s
    split
    · exact (hcons ..).trans (tileJob_step he hmem ..)
    · exact ((hcons ..).trans (tileJob_step he hmem ..)).trans (.modTile (by rw [he]) hmem _ _)

theorem issueTv2t_tile (d a i : BitVec 5) : TileIssue s [(s.ctx s.cur).tileBase + d.toNat] [] (issueTv2t e d a i s) := by
  unfold issueTv2t
  refine .bind fun a ha => ?_
  rw [he] at ha
  rw [← tileOperand_slot ha]
  exact .check (.check (.commit (tileJob_step he (List.mem_singleton_self _) ..)))

theorem issueTt2v_tile (d a i : BitVec 5) : TileIssue s [] [.v d.toNat] (issueTt2v e d a i s) := by
  unfold issueTt2v
  rw [he]
  refine .bind fun a _ => ?_
  obtain ⟨slot, h⟩ := a
  dsimp only
  split
  · exact .check (.check (.lands (.landV ..)))
  · exact .check (.check (.lands (.landV ..)))

/-! ### The array -/

theorem issueMdrain_tile (acc : BitVec 3) (t n m : BitVec 5) : TileIssue s [(s.ctx s.cur).tileBase + t.toNat] [] (issueMdrain e acc t n m s) := by
  unfold issueMdrain
  rw [he]
  refine .check (.bind fun a ha => ?_)
  rw [← tileOperand_slot ha]
  exact .check (.check (.check (.check (.check (.commit (arrayEmit_step (List.mem_singleton_self _) _ _ (fun a => MArray.move_acc ..) s))))))

theorem issueMspill_tile (acc : BitVec 3) (t : BitVec 5) (hi : BitVec 1) : TileIssue s [(s.ctx s.cur).tileBase + t.toNat] [] (issueMspill e acc t hi s) := by
  unfold issueMspill
  rw [he]
  refine .check (.bind fun a ha => ?_)
  have hslot : a.1 = (s.ctx s.cur).tileBase + t.toNat := by
    unfold spillTile at ha
    obtain ⟨b, hb, ha⟩ := Chk.ok_of_bind ha
    obtain ⟨-, -, ha⟩ := Chk.ok_of_bind ha
    obtain ⟨-, -, ha⟩ := Chk.ok_of_bind ha
    rw [← Except.ok.inj ha]
    exact tileOperand_slot hb
  rw [← hslot]
  exact .check (.check (.check (.commit (arrayEmit_step (List.mem_singleton_self _) _ _ (fun a => MArray.move_acc ..) s))))

theorem storeChecks_slot {t : BitVec 5} {ok : Bool} {a : Nat × Hdr} (h : storeChecks s e.g t ok = .ok a) : a.1 = (s.ctx s.cur).tileBase + t.toNat := by
  unfold storeChecks at h
  obtain ⟨-, -, h⟩ := Chk.ok_of_bind h
  obtain ⟨-, -, h⟩ := Chk.ok_of_bind h
  obtain ⟨b, hb, h⟩ := Chk.ok_of_bind h
  obtain ⟨-, -, h⟩ := Chk.ok_of_bind h
  rw [← Except.ok.inj h, ← he]
  exact tileOperand_slot hb

theorem issueMprd_tile (t : BitVec 5) : TileIssue s [(s.ctx s.cur).tileBase + t.toNat] [] (issueMprd e t s) := by
  unfold issueMprd
  refine .bind fun a ha => ?_
  rw [← storeChecks_slot he ha, he]
  exact .check (.check (.commit (arrayEmit_step (List.mem_singleton_self _) _ _ (fun _ => rfl) s)))

theorem issueMprdTab_tile (t : BitVec 5) : TileIssue s [(s.ctx s.cur).tileBase + t.toNat] [] (issueMprdTab e t s) := by
  unfold issueMprdTab
  refine .bind fun a ha => ?_
  rw [← storeChecks_slot he ha, he]
  exact .check (.check (.commit (arrayEmit_step (List.mem_singleton_self _) _ _ (fun _ => rfl) s)))

/-! ### The index engine, the Assay unit and sessions -/

theorem issueIxwalk_tile (d a b : BitVec 5) :
    TileIssue s [(s.ctx s.cur).tileBase + d.toNat, (s.ctx s.cur).tileBase + b.toNat] [] (issueIxwalk e d a b s) := by
  unfold issueIxwalk
  refine .bind fun l hl => ?_
  rw [he] at hl
  rw [tileOperands_slots hl]
  dsimp only [List.map_cons, List.map_nil]
  refine .check (.check (.bind fun da _ => .bind fun db _ => .check (.check (.check (.commit (indexJob_step he _ ?_ s))))))
  intro o ho
  simp only [List.mem_cons, List.not_mem_nil, or_false] at ho ⊢
  exact ho.imp (congrArg Prod.fst) (congrArg Prod.fst)

theorem issueIxsplit_tile (d a : BitVec 5) (p : BitVec 6) : TileIssue s [(s.ctx s.cur).tileBase + d.toNat] [] (issueIxsplit e d a p s) := by
  unfold issueIxsplit
  refine .bind fun l hl => ?_
  rw [he] at hl
  rw [tileOperands_slots hl]
  dsimp only [List.map_cons, List.map_nil]
  refine .check (.check (.bind fun da _ => .check (.check (.commit (indexJob_step he _ ?_ s)))))
  intro o ho
  simp only [List.mem_cons, List.not_mem_nil, or_false] at ho ⊢
  exact congrArg Prod.fst ho

theorem issueAsort_tile (d a b : BitVec 5) (m : BitVec 6) : TileIssue s [(s.ctx s.cur).tileBase + d.toNat] [] (issueAsort e d a b m s) := by
  unfold issueAsort
  refine .bind fun l hl => ?_
  rw [he] at hl
  rw [tileOperands_slots hl, he]
  dsimp only [List.map_cons, List.map_nil]
  refine .check (.check (.bind fun da _ => .bind fun db _ => .check (.check (.commit ?_))))
  refine TileStep.trans (.modTile rfl (List.mem_singleton_self _) _ s) (.modCore _ ?_ _)
  exact fun _ => rfl

theorem issueCread_tile (k : BitVec 2) (t : BitVec 5) (d : BitVec 6) :
    TileIssue s [(s.ctx s.cur).tileBase + t.toNat] [.s d.toNat] (issueCread e k t d s) := by
  unfold issueCread
  rw [he]
  refine .bind fun a ha => ?_
  rw [← tileOperand_slot ha]
  refine .check (.check (.check (.check (.commit ?_))))
  exact (TileStep.modTile rfl (List.mem_singleton_self _) _ s).trans (.modCtx (.landS ..) _)

theorem issueCsamp_tile (k : BitVec 2) (d : BitVec 6) : TileIssue s [] [.s d.toNat] (issueCsamp e k d s) := by
  unfold issueCsamp
  rw [he]
  exact .check (.lands (.landS ..))

theorem issueClpull_tile (d : BitVec 5) : TileIssue s [(s.ctx s.cur).tileBase + d.toNat] [] (issueClpull e d s) := by
  unfold issueClpull
  rw [he]
  refine .bind fun a ha => ?_
  rw [← tileOperand_slot ha]
  refine .check (.bind fun x _ => .check ?_)
  dsimp only
  split
  · exact .error _
  · refine .check (.commit ?_)
    split
    · exact (TileStep.modTile rfl (List.mem_singleton_self _) _ s).trans (closeSession_step ..)
    · exact (TileStep.modTile rfl (List.mem_singleton_self _) _ s).trans (setSession_step ..)

end

/-! ## Their frame -/

/-- What the statement asks of an operation that writes the tiles `outs` and the registers `ws`. -/
def HasTileFrame (s : State) (outs : List (BitVec 5)) (ws : List Name) (t : State) : Prop :=
  (∀ m, t.byteAt m = s.byteAt m) ∧ t.poison = s.poison
    ∧ (∀ core slot, (core = coreOf s.cur → ∀ o ∈ outs, slot ≠ (s.ctx s.cur).tileBase + o.toNat) → t.tile core slot = s.tile core slot)
    ∧ (∀ n, (t.array n).acc = (s.array n).acc) ∧ KeepsRegs (s.ctx s.cur) (t.ctx s.cur) ws ∧ ∀ h n, h ≠ s.cur → (t.ctx h).reg n = (s.ctx h).reg n

/-- The slots of the tiles an operation names. -/
def tileSlots (s : State) (outs : List (BitVec 5)) : List Nat := outs.map fun o => (s.ctx s.cur).tileBase + o.toNat

/-- A bundle with such an effect. -/
theorem BundleFrame.tileFrame {s u t : State} {outs : List (BitVec 5)} {ws : List Name} (h : BundleFrame s.cur s u t)
    (hu : TileStep s.cur (tileSlots s outs) ws s u) : HasTileFrame s outs ws t := by
  obtain ⟨-, -, hclaimed, hpoison, -⟩ := claimHeld_spec s.cur s u
  have hmem : t.mem = s.mem := h.memory.mem.trans (hclaimed.trans hu.mem)
  refine ⟨fun m => ?_, h.memory.poison.trans (hpoison.trans hu.poison), fun core slot hs => ?_, fun n => ?_, fun n hn hp => ?_, fun g n hg => ?_⟩
  · simp only [State.byteAt, hmem]
  · refine Eq.trans ?_ (hu.tiles core slot fun hc hin => ?_)
    · simp only [State.tile, Core.tile, (h.engines.cores core).1]
    · obtain ⟨o, ho, rfl⟩ := List.mem_map.mp hin
      exact hs hc o ho rfl
  · simp only [State.array, h.engines.arrays]
    exact hu.acc n
  · obtain ⟨h1, h2⟩ := hu.own n hn hp
    exact (h.own.regs n h1).trans h2
  · rw [h.others g hg]
    exact hu.others g hg n

theorem Kept.tileFrame {s t : State} {outs : List (BitVec 5)} {ws : List Name} (h : Kept s t) : HasTileFrame s outs ws t := by
  refine ⟨fun m => ?_, h.memory.poison, fun core slot _ => ?_, fun n => ?_, fun n _ _ => h.regs _ n, fun g n _ => h.regs g n⟩
  · simp only [State.byteAt, h.memory.mem]
  · simp only [State.tile, Core.tile, (h.engines.cores core).1]
  · simp only [State.array, h.engines.arrays]

/-- Each way a lone operation can end that issues at all keeps the frame. -/
theorem TileIssue.frame {i : Instr} {s t : State} {c : Commit} {outs : List (BitVec 5)} {ws : List Name} (hi : SlotAlone i)
    (h : TileIssue s (tileSlots s outs) ws (issueAlone i s)) (hc : issueAlone i s = .ok c) (ht : exec i s = .next t) : HasTileFrame s outs ws t := by
  rcases exec_alone_cases hi ht with ⟨d, hd, rfl⟩ | rfl | ⟨f, hf, -⟩ | ⟨w, hw, -⟩ | ⟨cause, info, mask, rfl⟩
  · obtain ⟨act, target, rfl, hstep⟩ := h.commits d hd
    exact (done_frame i act target s).tileFrame hstep
  · exact (skipped_frame i s).tileFrame (.refl s)
  · exact absurd (hc.symm.trans hf) nofun
  · exact absurd (hc.symm.trans hw) nofun
  · exact (takeTrap_kept ..).tileFrame

/-- Settles O58: each of them writes its own tiles and lands its own results, and a bundle adds nothing to that. -/
theorem loadsAndTileWritersFrame : Obligations.LoadsAndTileWritersFrame := by
  unfold Obligations.LoadsAndTileWritersFrame
  intro q g d b c f v f6 x y z h a k
  have key : ∀ (i : Instr) (outs : List (BitVec 5)) (ws : List Name), SlotAlone i → (∀ s, TileIssue s (tileSlots s outs) ws (issueAlone i s)) →
      ∀ (s t : State) (w : Commit), issueAlone i s = .ok w → exec i s = .next t → HasTileFrame s outs ws t :=
    fun i outs ws hi hissue s t w hw ht => (hissue s).frame hi hw ht
  refine List.forall_iff_forall_mem.mp ⟨key _ [] _ ?_ fun s => loadS_tile rfl .., key _ [] _ ?_ fun s => loadS_tile rfl .., key _ [] _ ?_ fun s => loadS_tile rfl ..,
    key _ [] _ ?_ fun s => loadS_tile rfl .., key _ [] _ ?_ fun s => loadS_tile rfl .., key _ [] _ ?_ fun s => loadS_tile rfl ..,
    key _ [] _ ?_ fun s => loadS_tile rfl .., key _ [] _ ?_ fun s => issueLddp_tile rfl .., key _ [] _ ?_ fun s => issueVld_tile rfl ..,
    key _ [] _ ?_ fun s => issueVldp_tile rfl .., key _ [x] _ ?_ fun s => issueTld_tile rfl .., key _ [x] _ ?_ fun s => issueTgath_tile rfl ..,
    key _ [x] _ ?_ fun s => issueTzero_tile rfl .., key _ [x] _ ?_ fun s => issueTcopy_tile rfl .., key _ [x] _ ?_ fun s => issueTv2t_tile rfl ..,
    key _ [] _ ?_ fun s => issueTt2v_tile rfl .., key _ [x] _ ?_ fun s => issueMdrain_tile rfl .., key _ [x] _ ?_ fun s => issueMspill_tile rfl ..,
    key _ [x] _ ?_ fun s => issueMprd_tile rfl .., key _ [x] _ ?_ fun s => issueMprdTab_tile rfl .., key _ [x, z] _ ?_ fun s => issueIxwalk_tile rfl ..,
    key _ [x] _ ?_ fun s => issueIxsplit_tile rfl .., key _ [x] _ ?_ fun s => issueAsort_tile rfl .., key _ [x] _ ?_ fun s => issueCread_tile rfl ..,
    key _ [] _ ?_ fun s => issueCsamp_tile rfl .., key _ [x] _ ?_ fun s => issueClpull_tile rfl ..⟩
  all_goals exact slotAlone_of_not_hdrT

end Sys2Proof.Machine
end

section
/-! PROOF. The canonical form of memory through the engines and the boundary of a bundle: each function of the state keeps it. -/
set_option Elab.async false
namespace Sys2Proof.Machine

/-! ## The invariant -/

/-- Device-physical memory is in its canonical form (log 1). -/
def Canonical (s : State) : Prop := memWf s.mem = true

/-- A change of the state that keeps memory canonical. -/
def KeepsCanonical (f : State → State) : Prop := ∀ s, Canonical s → Canonical (f s)

variable {s t : State}

theorem Canonical.of_mem (h : Canonical s) (e : t.mem = s.mem) : Canonical t := by
  unfold Canonical
  rw [e]
  exact h

theorem foldl_canonical {β : Type} {f : State → β → State} {l : List β} (hf : ∀ x ∈ l, KeepsCanonical fun s => f s x) (h : Canonical s) :
    Canonical (l.foldl f s) := by
  induction l generalizing s with
  | nil => exact h
  | cons x l ih => exact ih (fun y hy => hf y (List.mem_cons_of_mem _ hy)) (hf x List.mem_cons_self s h)

theorem each_canonical {l : List Nat} {f : Nat → State → State} (hf : ∀ n, KeepsCanonical (f n)) (h : Canonical s) : Canonical (s.each l f) :=
  foldl_canonical (fun n _ => hf n) h

/-- Folds over a count, whatever the step. -/
theorem foldl_range_canonical {f : State → Nat → State} {n : Nat} (hf : ∀ i, KeepsCanonical fun s => f s i) (h : Canonical s) :
    Canonical ((List.range n).foldl f s) := foldl_canonical (fun i _ => hf i) h

theorem ite_canonical {c : Prop} [Decidable c] (hs : Canonical s) (ht : Canonical t) : Canonical (if c then s else t) := by
  split <;> assumption

/-! A part of the state that is no memory may change. -/

theorem modCtx_canonical {k : Nat} {f : Ctx → Ctx} (h : Canonical s) : Canonical (s.modCtx k f) := h
theorem setCtx_canonical {k : Nat} {c : Ctx} (h : Canonical s) : Canonical (s.setCtx k c) := h
theorem modCore_canonical {k : Nat} {f : Core → Core} (h : Canonical s) : Canonical (s.modCore k f) := h
theorem modTile_canonical {k n : Nat} {f : Tile → Tile} (h : Canonical s) : Canonical (s.modTile k n f) := h
theorem modArray_canonical {k : Nat} {f : MArray → MArray} (h : Canonical s) : Canonical (s.modArray k f) := h
theorem modCluster_canonical {k : Nat} {f : Cluster → Cluster} (h : Canonical s) : Canonical (s.modCluster k f) := h
theorem modDie_canonical {k : Nat} {f : Die → Die} (h : Canonical s) : Canonical (s.modDie k f) := h
theorem modMint_canonical {k : Nat} {f : Mint → Mint} (h : Canonical s) : Canonical (s.modMint k f) := h
theorem modGroup_canonical {k : Nat} {f : Group → Group} (h : Canonical s) : Canonical (s.modGroup k f) := h
theorem modVault_canonical {k : Nat} {f : Vault → Vault} (h : Canonical s) : Canonical (s.modVault k f) := h
theorem modPart_canonical {k : Nat} {f : Part → Part} (h : Canonical s) : Canonical (s.modPart k f) := h
theorem setFrame_canonical {k : Nat} {e : W64} (h : Canonical s) : Canonical (s.setFrame k e) := h
theorem bump_canonical (h : Canonical s) : Canonical s.bump := h

/-! ## Records and the pools of the Vaults -/

theorem errorRecord_canonical {sev struct place : Nat} {part : Option Nat} {addr : W64} (h : Canonical s) :
    Canonical (errorRecord sev struct part place addr s) := by
  unfold errorRecord
  dsimp only
  split
  · split <;> exact h
  · exact h

theorem violation_canonical {k c p w : Nat} {a : W64} (h : Canonical s) : Canonical (violation k c p w a s) := h

theorem consumed_canonical {g : Nat} {info : W64} (h : Canonical s) : Canonical (consumed g info s) := errorRecord_canonical h

theorem holdWrite_canonical {v line p : Nat} (h : Canonical s) : Canonical (holdWrite v line p s) := errorRecord_canonical h

theorem claimHeld_canonical {g : Nat} {u : State} (h : Canonical s) : Canonical (claimHeld g u s) := by
  obtain ⟨-, -, e, -⟩ := claimHeld_spec g u s
  exact h.of_mem e

theorem releaseHeld_canonical {v : Nat} {p : HeldWrite → Bool} (h : Canonical s) : Canonical (releaseHeld v p s) := h.of_mem (releaseHeld_mem ..)

theorem dropHeld_canonical {v f : Nat} (h : Canonical s) : Canonical (dropHeld v f s) := h.of_mem (dropHeld_mem ..)

theorem decideSpace_canonical {v : Nat} (h : Canonical s) : Canonical (decideSpace v s) := h.of_mem (decideSpace_noted v s).mem

theorem touchFrame_canonical {f : Nat} (h : Canonical s) : Canonical (touchFrame f s) := by
  unfold touchFrame
  dsimp only
  split <;> exact h

theorem touchRead_canonical {l : List Sector} (h : Canonical s) : Canonical (touchRead l s) := each_canonical (fun _ _ => touchFrame_canonical) h

/-! ## Writes of memory -/

theorem writeDp_canonical {a : Nat} {bs : List Byte} (h : Canonical s) : Canonical (writeDp a bs s) := memWf_writeDp a bs h

theorem writePlace_canonical {p : Place} {bs : List Byte} (h : Canonical s) : Canonical (writePlace p bs s) := memWf_writePlace p bs h

theorem writeSectors_canonical {l : List Sector} {bs : List Byte} (h : Canonical s) : Canonical (writeSectors l bs s) := memWf_writeSectors l bs h

theorem writePlaces_canonical {l : List (Place × List Byte)} (h : Canonical s) : Canonical (writePlaces l s) :=
  foldl_canonical (fun _ _ _ => writePlace_canonical) h

theorem ringWrite_canonical {k off : Nat} {x : W64} (h : Canonical s) : Canonical (ringWrite k off x s) := writePlace_canonical h

theorem zeroFrame_canonical {f : Nat} (h : Canonical s) : Canonical (zeroFrame f s) := memWf_zeroFrame f h

theorem mintStore_canonical {g off : Nat} {bs : List Byte} (h : Canonical s) : Canonical (mintStore g off bs s) := h.of_mem (mintStore_mem ..)

theorem restoreNow_canonical {f : Nat} (h : Canonical s) (ht : restoreNow f s = some t) : Canonical t := by
  unfold restoreNow at ht
  dsimp only at ht
  split at ht
  · cases ht
  · split at ht
    · cases ht
    · obtain rfl := Option.some.inj ht
      exact decideSpace_canonical (releaseHeld_canonical h)

theorem restoreFrame_canonical {f : Nat} (h : Canonical s) : Canonical (restoreFrame f s) := by
  unfold restoreFrame
  dsimp only
  split
  next t ht =>
    split at ht
    · exact restoreNow_canonical h ht
    · cases ht
  next => split <;> [exact h; exact holdWrite_canonical h]

theorem writeBack_canonical {a : Nat} {bs : List Byte} (h : Canonical s) : Canonical (writeBack a bs s) := by
  unfold writeBack
  split
  · exact h
  · dsimp only
    split
    · exact errorRecord_canonical (foldl_canonical (fun _ _ _ => restoreFrame_canonical) h)
    · exact writeDp_canonical (foldl_canonical (fun _ _ _ => restoreFrame_canonical) h)

/-! ## Sessions and what is still to perform -/

theorem setPins_canonical {fs : List Nat} {on : Bool} (h : Canonical s) : Canonical (setPins fs on s) := each_canonical (fun _ _ h => h) h

theorem closeSession_canonical {cl : Nat} (h : Canonical s) : Canonical (closeSession cl s) := by
  unfold closeSession
  split
  · exact h
  · exact setPins_canonical h

theorem leaveGroup_canonical {g : Nat} (h : Canonical s) : Canonical (leaveGroup g s) := by
  unfold leaveGroup
  dsimp only
  split
  · exact closeSession_canonical h
  · exact h

theorem performLate_canonical {g : Nat} {l : Late} (h : Canonical s) : Canonical (performLate g l s) := by
  unfold performLate
  split
  · exact writePlaces_canonical h
  · exact ringWrite_canonical (ringWrite_canonical h)
  · exact h
  · exact leaveGroup_canonical h

theorem drainLate_canonical {g : Nat} (h : Canonical s) : Canonical (drainLate g s) := by
  refine foldl_canonical (fun d _ s h => ?_) h
  dsimp only
  split
  · exact claimHeld_canonical (performLate_canonical h)
  · exact h

theorem issueLate_canonical {g oc : Nat} {l : Late} (h : Canonical s) : Canonical (issueLate g oc l s) := drainLate_canonical h

/-! ## The array and its micro-programs -/

theorem microFinish_canonical {pr : Nat} (h : Canonical s) : Canonical (microFinish pr s) := by
  unfold microFinish
  split
  · exact h
  · exact each_canonical (fun _ _ h => h) h

theorem microCut_canonical {pr : Nat} (h : Canonical s) : Canonical (microCut pr s) := by
  unfold microCut
  split
  · exact h
  · split <;> [exact h; exact microFinish_canonical h]

theorem microNext_canonical {pr : Nat} {e : BitVec 1} {tgt : Option (BitVec 9)} {f : MicroRun → MicroRun} (h : Canonical s) :
    Canonical (microNext pr e tgt f s) := by
  unfold microNext
  split
  · exact h
  · dsimp only
    split <;> [exact microFinish_canonical h; exact h]

theorem microAcc_canonical {pr : Nat} {f : MicroRun → AccBits → AccBits} (h : Canonical s) : Canonical (microAcc pr f s) := by
  unfold microAcc
  split <;> exact h

theorem modLaunch_canonical {k : Nat} {f : Launch → Launch} (h : Canonical s) : Canonical (s.modLaunch k f) := by
  unfold State.modLaunch
  split <;> exact h

theorem meter_canonical {g n : Nat} (h : Canonical s) : Canonical (meter g n s) := h.of_mem (meter_accounted g n s).memory.mem

theorem microMeter_canonical {pr : Nat} (h : Canonical s) : Canonical (microMeter pr s) := by
  unfold microMeter
  split <;> [exact meter_canonical h; exact h]

theorem microTile_canonical {pr : Nat} {f : MicroRun → State → State} (hf : ∀ m, KeepsCanonical (f m)) (h : Canonical s) :
    Canonical (microTile pr f s) := by
  unfold microTile
  split <;> [exact h; exact hf _ s h]

theorem microDrain_canonical {pr sel : Nat} {m : MicroRun} (h : Canonical s) : Canonical (microDrain pr m sel s) := by
  unfold microDrain
  split
  · exact h
  · split <;> exact h

theorem microSignal_canonical {pr sel : Nat} {m : MicroRun} (h : Canonical s) : Canonical (microSignal pr m sel s) := by
  unfold microSignal
  split
  · exact h
  · split <;> exact h

/-- A word of a micro-program, once it is ready. -/
theorem microReady_canonical {pr : Nat} {f : State → State} (hf : KeepsCanonical f) (h : Canonical s) :
    Canonical (if microReady pr s then f s else s) := by
  split <;> [exact hf s h; exact h]

theorem microSeq_canonical {pr : Nat} {e : BitVec 1} {f : MicroRun → MicroRun} (h : Canonical s) : Canonical (microSeq pr e f s) :=
  microReady_canonical (fun _ => microNext_canonical) h

theorem doDrn_canonical {pr : Nat} {e : BitVec 1} {sel : BitVec 3} (h : Canonical s) : Canonical (doDrn pr e sel s) := by
  unfold doDrn
  split
  · exact microNext_canonical (microTile_canonical (fun _ _ h => microDrain_canonical h) h)
  · exact h

theorem doSigt_canonical {pr : Nat} {e : BitVec 1} {sel : BitVec 3} (h : Canonical s) : Canonical (doSigt pr e sel s) := by
  unfold doSigt
  split
  · exact microNext_canonical (microTile_canonical (fun _ _ h => microSignal_canonical h) h)
  · exact h

theorem runMicro_canonical {i : Instr} (h : Canonical s) : Canonical (runMicro i s) := by
  unfold runMicro
  split
  case h_1 | h_2 | h_3 | h_9 | h_12 | h_14 => exact microSeq_canonical h
  case h_4 => exact microReady_canonical (fun _ h => microNext_canonical (microAcc_canonical (microMeter_canonical h))) h
  case h_5 => exact microReady_canonical (fun _ h => microNext_canonical (microMeter_canonical h)) h
  case h_6 | h_7 => exact microReady_canonical (fun _ h => microNext_canonical (microAcc_canonical h)) h
  case h_8 => exact doDrn_canonical h
  case h_13 => exact doSigt_canonical h
  case h_10 | h_11 => exact microReady_canonical (fun _ h => microNext_canonical h) h
  case h_15 => exact h

theorem microStep_canonical {pr : Nat} (h : Canonical s) : Canonical (microStep pr s) := by
  unfold microStep
  split
  · exact h
  · split
    · exact microCut_canonical h
    · split <;> [exact microFinish_canonical h; exact runMicro_canonical h]

theorem runArrOp_canonical {pr : Nat} {o : ArrOp} (h : Canonical s) : Canonical (runArrOp pr o s) := by
  cases o <;> exact h

theorem arrayEnd_canonical {pr : Nat} (h : Canonical s) : Canonical (arrayEnd pr s) := by
  unfold arrayEnd
  dsimp only
  split
  · exact h
  · split
    · exact h
    · split <;> [exact meter_canonical (runArrOp_canonical h); exact runArrOp_canonical h]

theorem arrayStart_canonical {pr : Nat} {b : Bool} (h : Canonical s) : Canonical (arrayStart pr b s) := by
  unfold arrayStart
  dsimp only
  split
  · exact h
  · split <;> exact h

theorem arrayProgress_canonical {pr : Nat} (h : Canonical s) : Canonical (arrayProgress pr s) :=
  ite_canonical (microStep_canonical h) (ite_canonical (arrayEnd_canonical h)
    (ite_canonical (ite_canonical (arrayStart_canonical h) (ite_canonical h h)) (ite_canonical (arrayStart_canonical h) (arrayStart_canonical h))))

/-! ## The other engines -/

theorem finishJob_canonical {k : Nat} {j : Job} (h : Canonical s) : Canonical (finishJob k j s) := by
  unfold finishJob
  dsimp only
  split
  · exact h
  · exact foldl_canonical (fun _ _ _ => consumed_canonical) h

theorem popTileQ_canonical {k : Nat} (h : Canonical s) : Canonical (popTileQ k s) := by
  unfold popTileQ
  split <;> [exact h; exact finishJob_canonical h]

theorem popIndexQ_canonical {k : Nat} (h : Canonical s) : Canonical (popIndexQ k s) := by
  unfold popIndexQ
  split <;> [exact h; exact finishJob_canonical h]

theorem popAssayQ_canonical {k : Nat} (h : Canonical s) : Canonical (popAssayQ k s) := by
  unfold popAssayQ
  split <;> [exact h; exact finishJob_canonical h]

theorem popXferQ_canonical {k i : Nat} (h : Canonical s) : Canonical (popXferQ k i s) := by
  unfold popXferQ
  split <;> [exact h; exact finishJob_canonical h]

theorem copyEnd_canonical {cl i : Nat} (h : Canonical s) : Canonical (copyEnd cl i s) := h

theorem xfuEnd_canonical {cl u : Nat} (h : Canonical s) : Canonical (xfuEnd cl u s) := by
  unfold xfuEnd
  dsimp only
  split
  · exact h
  · split <;> exact h

theorem rangeEnd_canonical {g : Nat} (h : Canonical s) : Canonical (rangeEnd g s) := by
  unfold rangeEnd
  split
  · exact h
  · split
    · exact h
    · dsimp only
      split <;> [exact consumed_canonical h; exact writeBack_canonical h]

theorem streamArrive_canonical {g q : Nat} (h : Canonical s) : Canonical (streamArrive g q s) := by
  unfold streamArrive
  dsimp only
  split
  · exact h
  · split
    · split
      · exact h
      · split
        · split <;> [exact copyEnd_canonical (modCtx_canonical (consumed_canonical h)); exact h]
        · split <;> [exact modCtx_canonical (consumed_canonical h); exact h]
    · exact h

theorem bulkProgress_canonical {g : Nat} {m : BitVec 16} (h : Canonical s) : Canonical (bulkProgress g m s) := by
  unfold bulkProgress
  dsimp only
  split
  · exact popXferQ_canonical h
  · split
    · exact xfuEnd_canonical h
    · split
      · exact h
      · split <;> [exact streamArrive_canonical h; exact h]

theorem orderProgress_canonical {g : Nat} (h : Canonical s) : Canonical (orderProgress g s) := drainLate_canonical (bulkProgress_canonical h)

/-! ## Saving a context -/

theorem saveProgress_canonical {g : Nat} (h : Canonical s) (ht : saveProgress g s = some t) : Canonical t := by
  unfold saveProgress at ht
  dsimp only at ht
  split at ht
  · exact Option.some.inj ht ▸ drainLate_canonical h
  split at ht
  · exact Option.some.inj ht ▸ arrayProgress_canonical h
  split at ht
  · exact Option.some.inj ht ▸ popTileQ_canonical h
  split at ht
  · exact Option.some.inj ht ▸ popIndexQ_canonical h
  split at ht
  · exact Option.some.inj ht ▸ popAssayQ_canonical h
  split at ht
  · exact Option.some.inj ht ▸ popXferQ_canonical h
  split at ht
  · exact Option.some.inj ht ▸ copyEnd_canonical h
  split at ht
  · exact Option.some.inj ht ▸ xfuEnd_canonical h
  split at ht
  · split at ht
    · cases ht
    · exact Option.some.inj ht ▸ rangeEnd_canonical h
  · cases ht

theorem yieldArea_canonical {g : Nat} (h : Canonical s) : Canonical (yieldArea g s) := by
  unfold yieldArea
  dsimp only
  split
  · exact h
  · split
    · split <;> exact h
    · exact h

theorem parkExited_canonical {k : Nat} (h : Canonical s) : Canonical (parkExited k s) := by
  unfold parkExited
  split
  · exact h
  · refine foldl_canonical (fun m _ s h => ?_) h
    dsimp only
    split <;> exact h

theorem endLoans_canonical {k : Nat} (h : Canonical s) : Canonical (endLoans k s) := by
  unfold endLoans
  split <;> exact h

theorem writeArea_canonical {g a : Nat} (h : Canonical s) : Canonical (writeArea g a s) := by
  unfold writeArea
  dsimp only
  split
  · exact h
  · refine foldl_range_canonical (fun k s h => ?_) h
    dsimp only
    split <;> [exact writeBack_canonical h; exact h]

theorem park_canonical {g : Nat} {x : Saved} (h : Canonical s) : Canonical (park g x s) := h

theorem saveCtx_canonical {g : Nat} (h : Canonical s) : Canonical (saveCtx g s) := by
  have hy := yieldArea_canonical (g := g) h
  unfold saveCtx
  dsimp only
  split
  · exact hy
  · refine endLoans_canonical (parkExited_canonical (park_canonical ?_))
    split
    · exact modDie_canonical (modCluster_canonical (modArray_canonical (bump_canonical (writeArea_canonical hy))))
    · exact modCluster_canonical (modArray_canonical (bump_canonical (writeArea_canonical hy)))

theorem saveStep_canonical {g : Nat} (h : Canonical s) : Canonical (saveStep g s) := by
  unfold saveStep
  split
  · exact h
  · split
    next ht => exact saveProgress_canonical h ht
    next => split <;> [exact parkExited_canonical h; exact saveCtx_canonical h]

/-! ## Traps and the boundary of a bundle -/

theorem stopMint_canonical {d g c : Nat} {info : W64} (h : Canonical s) : Canonical (stopMint d g c info s) := h.of_mem (stopMint_kept ..).memory.mem

theorem takeTrap_canonical {g c : Nat} {info : W64} {m : BitVec 4} (h : Canonical s) : Canonical (takeTrap g c info m s) :=
  h.of_mem (takeTrap_kept ..).memory.mem

theorem boundaryEvent_canonical {g : Nat} (h : Canonical s) (ht : boundaryEvent g s = some t) : Canonical t := by
  unfold boundaryEvent at ht
  dsimp only at ht
  split at ht
  · exact Option.some.inj ht ▸ takeTrap_canonical h
  split at ht
  · cases ht
  split at ht
  · exact Option.some.inj ht ▸ takeTrap_canonical h
  · exact Option.some.inj ht ▸ takeTrap_canonical h
  split at ht
  · exact Option.some.inj ht ▸ takeTrap_canonical h
  split at ht
  · exact Option.some.inj ht ▸ h
  · cases ht

theorem charge_canonical {g n : Nat} (h : Canonical s) : Canonical (charge g n s) := h.of_mem (charge_accounted g n s).memory.mem

theorem spendTime_canonical {g : Nat} (h : Canonical s) : Canonical (spendTime g s) := charge_canonical h

theorem takeRefills_canonical {g : Nat} (h : Canonical s) : Canonical (takeRefills g s) := by
  unfold takeRefills
  dsimp only
  split <;> exact h

theorem blockCtx_canonical {g : Nat} {w : Wait} (h : Canonical s) : Canonical (blockCtx g w s) := h

theorem stallCtx_canonical {g : Nat} {f : State → State} (hf : KeepsCanonical f) (h : Canonical s) : Canonical (stallCtx g f s) :=
  spendTime_canonical (hf s h)

theorem exitCtx_canonical {g : Nat} (h : Canonical s) : Canonical (exitCtx g s) := issueLate_canonical h

theorem elsewhere_canonical {g : Nat} {f : State → State} (hf : KeepsCanonical f) (h : Canonical s) : Canonical (elsewhere g f s) := by
  unfold elsewhere
  dsimp only
  split <;> exact hf s h

end Sys2Proof.Machine
end

section
/-! PROOF. The canonical form of memory through the operations of a bundle: what each commits, and what each stalls with, keeps it. -/
set_option Elab.async false
namespace Sys2Proof.Machine

/-! ## Checks and commits -/

/-- A check at issue that gives what `P` says, and whose stalls keep memory canonical. -/
structure SafeChk {α : Type} (P : α → Prop) (x : Chk α) : Prop where
  gives : ∀ a, x = .ok a → P a
  stalls : ∀ f, x = .error (.stall f) → KeepsCanonical f

/-- A check whose result matters not. -/
abbrev Checks {α : Type} (x : Chk α) : Prop := SafeChk (fun _ => True) x

/-- An answer at issue that keeps memory canonical, whether it commits or stalls. -/
abbrev SafeIssue (r : Issue) : Prop := SafeChk (fun c : Commit => KeepsCanonical c.act) r

section
variable {α β : Type} {P : β → Prop}

theorem SafeChk.bind {x : Chk α} {f : α → Chk β} (hx : Checks x) (hf : ∀ a, SafeChk P (f a)) : SafeChk P (x >>= f) := by
  cases x with
  | ok a => exact hf a
  | error st => exact ⟨nofun, fun g hg => hx.stalls g (congrArg Except.error (Except.error.inj hg))⟩

theorem SafeChk.seq {x : Chk α} {r : Chk β} (hx : Checks x) (hr : SafeChk P r) : SafeChk P (x >>= fun _ => r) := .bind hx fun _ => hr

theorem SafeChk.ok {b : β} (h : P b) : SafeChk P (.ok b) := ⟨fun _ e => Except.ok.inj e ▸ h, nofun⟩

theorem SafeChk.error {st : Stop} (h : ∀ f, st ≠ .stall f := by exact nofun) : SafeChk P (.error st) :=
  ⟨nofun, fun f e => absurd (Except.error.inj e) (h f)⟩

theorem SafeChk.stall {f : State → State} (h : KeepsCanonical f) : SafeChk P (.error (.stall f)) :=
  ⟨nofun, fun _ e => Stop.stall.inj (Except.error.inj e) ▸ h⟩

theorem SafeChk.val {b : β} : Checks (.ok b : Chk β) := .ok trivial

theorem SafeChk.test {b : Bool} {st : Stop} (h : ∀ f, st ≠ .stall f := by exact nofun) : Checks (Chk.need b st) := by
  unfold Chk.need
  split <;> [exact .val; exact .error h]

theorem SafeChk.testStall {b : Bool} {f : State → State} (h : KeepsCanonical f) : Checks (Chk.need b (.stall f)) := by
  unfold Chk.need
  split <;> [exact .val; exact .stall h]

theorem SafeChk.need {b : Bool} {st : Stop} {r : Chk β} (hr : SafeChk P r) (h : ∀ f, st ≠ .stall f := by exact nofun) :
    SafeChk P (Chk.need b st >>= fun _ => r) := .seq (.test h) hr

theorem SafeChk.ite {c : Prop} [Decidable c] {x y : Chk β} (hx : SafeChk P x) (hy : SafeChk P y) : SafeChk P (if c then x else y) := by
  split <;> assumption

end

theorem SafeChk.commit {f : State → State} (h : KeepsCanonical f) : SafeIssue (Machine.commit f) := .ok h

theorem SafeChk.ctx {g : Nat} {f : Ctx → Ctx} : SafeIssue (commitCtx g f) := .ok fun _ h => h

theorem SafeChk.nothing : SafeIssue nothing := .ok fun _ h => h

theorem SafeChk.branch {t : W64} : SafeIssue (branchTo t) := .ok fun _ h => h

/-! ## The checks -/

variable {s : State} {e : Env} {g : Nat}

theorem clrFault_checks {r i : Nat} (f : State → State) : clrFault r i ≠ .stall f := nofun

theorem targetOk_checks {t : W64} : Checks (targetOk t) := .test

theorem aligned_checks {va n : Nat} : Checks (aligned va n) := .test

theorem handlerOnly_checks : Checks (handlerOnly s g) := .test

theorem checkSectors_checks {rs : List (Nat × Except (Nat × W64) Sector)} {tag : Sector → Bool} {bad : Option Nat → Bool} :
    Checks (checkSectors rs tag bad) := by
  unfold checkSectors
  split
  · exact .error
  · dsimp only
    split
    · exact .error
    · split
      · exact .error
      · split
        · exact .stall fun _ => restoreFrame_canonical
        · exact .val

theorem access_checks {ps : List (Nat × Nat)} {k : Right} {oc : Nat} {bad : Option Nat → Bool} : Checks (access s g ps k oc bad) := checkSectors_checks

theorem accessR_checks {ps : List (Nat × Nat × Right)} {oc : Nat} {bad : Option Nat → Bool} : Checks (accessR s g ps oc bad) := checkSectors_checks

theorem areaAccess_checks {base : Nat} {ks : List Nat} {k : Right} : Checks (areaAccess s g base ks k) := by
  refine .bind access_checks fun l => ?_
  split <;> [exact .error; exact .val]

theorem afterAll_checks : Checks (afterAll s g) := .testStall fun _ => orderProgress_canonical

theorem accessesDone_checks : Checks (accessesDone s g) := .testStall fun _ => orderProgress_canonical

theorem storeInOrder_checks {l : List Sector} : Checks (storeInOrder s g l) := .testStall fun _ => orderProgress_canonical

theorem inOrder_checks {oc : Nat} {l : List Sector} : Checks (inOrder s g oc l) := .testStall fun _ => orderProgress_canonical

theorem scratchInOrder_checks : Checks (scratchInOrder s g) := .testStall fun _ => orderProgress_canonical

theorem assayIdle_checks : Checks (assayIdle s g) := .testStall fun _ => popAssayQ_canonical

theorem enginesDone_checks {m : BitVec 7} : Checks (enginesDone s g m) := by
  refine .seq (.testStall fun _ => arrayProgress_canonical) ?_
  split <;> [exact .stall fun _ => xfuEnd_canonical; exact .val]

theorem allChk_checks {α : Type} {f : α → Chk Unit} (hf : ∀ x, Checks (f x)) (l : List α) : Checks (allChk f l) := by
  induction l with
  | nil => exact .val
  | cons x l ih =>
    rw [allChk]
    split
    next => exact ih
    next st hst => exact ⟨nofun, fun g hg => (hf x).stalls g (hst.trans (congrArg Except.error (Except.error.inj hg)))⟩

theorem accAvail_checks {a : MArray} {k : Nat} : Checks (accAvail a g k) := .test

theorem bankFree_checks {a : MArray} {k : Nat} : Checks (bankFree a g k) := .test

theorem arrayRoom_checks {a : MArray} : Checks (arrayRoom a g) := .test

theorem coreAvail_checks {a : MArray} : Checks (coreAvail a g) := .test

theorem tileRoom_checks : Checks (tileRoom s g) := .test

theorem queueRoom_checks {q : List Job} {n : Nat} : Checks (queueRoom q n) := .test

theorem bankCheck_checks {bs : List Byte} : Checks (bankCheck s g bs) := by
  unfold bankCheck
  dsimp only
  split <;> [exact .seq accAvail_checks .test; exact .val]

theorem partCheck_checks {k : Nat} {bs : List Byte} : Checks (partCheck s g k bs) := by
  unfold partCheck
  split
  · split <;> [exact .val; exact .error]
  · split <;> [exact .val; exact .error]
  · exact bankCheck_checks
  · exact .val

theorem rangeCheck_checks {act : Nat → Bool} {f : Nat → Except Bool W64} : Checks (rangeCheck act f) := by
  rw [rangeCheck_eq]
  cases (List.range 32).findSome? (rangeFault act f) <;> [exact .val; exact .error]

theorem unitSlot_checks {slot : Nat} : Checks (unitSlot s g slot) := by
  unfold unitSlot
  split <;> [exact .stall fun _ => xfuEnd_canonical; exact .val]

theorem ownSlot_checks {slot : Nat} : Checks (ownSlot s g slot) := by
  unfold ownSlot
  split <;> [exact .stall fun _ => arrayProgress_canonical; exact unitSlot_checks]

theorem unitSlots_checks (l : List Nat) : Checks (l.forM (unitSlot s g)) := by
  induction l with
  | nil => exact .val
  | cons x l ih => exact .seq unitSlot_checks ih

theorem tileOperand_checks {t : BitVec 5} : Checks (tileOperand s g t) := .need (.need .val)

theorem tileOperands_checks {ts : List Nat} : Checks (tileOperands s g ts) := .need (.need .val)

theorem callTiles_checks {mps : List W64} {x : W64} : Checks (callTiles s g mps x) := .need (.bind tileOperands_checks fun _ => .val)

theorem spillTile_checks {t : BitVec 5} : Checks (spillTile s g t) := .bind tileOperand_checks fun _ => .need (.need .val)

theorem fullTile_checks {slot : Nat} : Checks (fullTile s g slot) := .ite .val .error

theorem cleanSectors_checks {slot : Nat} {l : List Nat} : Checks (cleanSectors s g slot l) := by
  refine .bind fullTile_checks fun _ => ?_
  split <;> [exact .error; exact .val]

theorem storeChecks_checks {t : BitVec 5} {ok : Bool} : Checks (storeChecks s g t ok) :=
  .seq coreAvail_checks (.need (.bind tileOperand_checks fun _ => .need .val))

theorem ownSession_checks : Checks (ownSession s g) := by
  unfold ownSession
  split
  · exact .ite .val (.error clrFault_checks)
  · exact .error clrFault_checks

theorem streamOpen_checks {x : Session} {n : Nat} : Checks (streamOpen x n) := .seq (.test clrFault_checks) (.test clrFault_checks)

theorem spillArea_checks {base : Nat} : Checks (spillArea s g base) := by
  unfold spillArea
  have hl : Checks (access s g (spillPieces base) .c 0 anyClass) := access_checks
  generalize (s.ctx g).entryFor base (2 ^ 24) = o
  generalize access s g (spillPieces base) .c 0 anyClass = l at *
  cases o with
  | none => exact .error
  | some en =>
    cases l with
    | ok a => exact .ite hl .error
    | error st =>
      cases st with
      | trap => exact .error
      | early | late | block | stall => exact .ite hl .error

theorem access1_checks {va n oc : Nat} {k : Right} : Checks (access1 s g va n k oc) := by
  refine .seq aligned_checks (.bind access_checks fun l => ?_)
  split <;> [exact .val; exact .error]

theorem vecAccess_checks {base : W64} {off : Int} {k : Right} {oc : BitVec 4} : Checks (vecAccess e base off k oc s) :=
  .seq aligned_checks (.bind checkSectors_checks fun _ => .val)

theorem rowLimits_checks {h : Hdr} {base : W64} : Checks (rowLimits h base) := .need .test

theorem rowAccess_checks {h : Hdr} {base : W64} {vs : List (Option Nat)} {k : Right} {oc : Nat} : Checks (rowAccess e h base vs k oc s) :=
  .bind access_checks fun _ => .val

theorem xferRoom_checks {oc : Nat} {rows : List (Option (List Sector))} : Checks (xferRoom e oc rows s) := .seq queueRoom_checks inOrder_checks

theorem indexedRows_checks {t i : BitVec 5} {b : BitVec 6} {v : BitVec 1} {ok : Nat → Bool} : Checks (indexedRows e t i b v ok s) := by
  refine .bind tileOperands_checks fun l => ?_
  split
  · exact .need (.need (.seq rowLimits_checks (.bind cleanSectors_checks fun _ => .val)))
  · exact .error

theorem copyLimits_checks {r : W64} : Checks (copyLimits r) := .test

theorem copyStart_checks {oc : Nat} {l : List Sector} : Checks (copyStart s g oc l) := .need inOrder_checks

theorem ringCheck_checks {r : W64} : Checks (ringCheck e r s) := .need (.bind access_checks fun _ => .val)

theorem unitOf_checks {u : Nat} : Checks (unitOf s g u) := by
  unfold unitOf
  split <;> [exact .val; exact .error]

theorem dtile_checks {x : Xfu} : Checks (dtile s g x) := .need (.need (.need .val))

theorem portCheck_checks {ok : Bool} {v : Nat} : Checks (portCheck ok v) := .test

theorem optsCheck_checks {x : Xfu} {d : Bool} : Checks (optsCheck x d) := portCheck_checks

end Sys2Proof.Machine
end

section
/-! PROOF. Every operation of a slot keeps memory canonical: its checks stall, and its commit writes, through functions that do. -/
set_option Elab.async false
namespace Sys2Proof.Machine

variable {s : State} {e : Env}

/-! ## What operations commit -/

theorem consumedTile_canonical {g slot n : Nat} {t : Tile} (h : Canonical s) : Canonical (consumedTile g slot n t s) :=
  foldl_canonical (fun _ _ _ => consumed_canonical) h

theorem indexJob_canonical {outs : List (Nat × List Nat × TileBits × BitVec 3)} (h : Canonical s) : Canonical (indexJob e outs s) :=
  modCore_canonical (foldl_canonical (fun _ _ _ h => h) h)

theorem applyPart_canonical {g k : Nat} {bs : List Byte} (h : Canonical s) : Canonical (applyPart g k bs s) := by
  unfold applyPart
  split
  · exact h
  · exact h
  · exact h
  · split <;> exact h
  · split <;> exact h
  · split <;> exact h
  · split <;> exact h

theorem spillWrite_canonical {x : Session} {base : Nat} (n : Nat) {bs : List Byte} {va : Nat} (h : Canonical s) :
    Canonical (spillWrite x base n bs va s) := by
  induction n generalizing s bs va with
  | zero => exact h
  | succ n ih => exact ih (writePlace_canonical h)

theorem pushEntries_canonical {g : Nat} {es : List ClrEntry} {x : Session} (h : Canonical s) : Canonical (pushEntries g es x s) := by
  unfold pushEntries
  dsimp only
  split
  · exact h
  · split
    · exact modCluster_canonical (spillWrite_canonical _ h)
    · exact h

theorem putStores_canonical {g oc : Nat} {l : List (Place × List Byte)} (h : Canonical s) : Canonical (putStores g oc l s) :=
  ite_canonical (issueLate_canonical h) (writePlaces_canonical h)

theorem poisonPlace_canonical {p : Place} {n : Nat} (h : Canonical s) : Canonical (poisonPlace p n s) := by
  cases p <;> exact h

theorem storePoison_canonical {slot : Nat} {t : Tile} {h : Hdr} {rows : List (Option (List Sector))} (hs : Canonical s) :
    Canonical (storePoison e slot t h rows s) := by
  unfold storePoison
  split
  · exact hs
  · exact foldl_canonical (fun _ _ _ => consumed_canonical) (foldl_canonical (fun _ _ _ => poisonPlace_canonical) hs)

theorem addElem_canonical {fmt x : Nat} {p : Place} (h : Canonical s) : Canonical (addElem e fmt x p s) := by
  unfold addElem
  split <;> [exact consumed_canonical h; exact writePlace_canonical h]

theorem addRows_canonical {h : Hdr} {t : Tile} {d : TileBits} {rows : List (Option (List Sector))} (hs : Canonical s) :
    Canonical (addRows e h t d rows s) := by
  refine foldl_range_canonical (fun k s hs => ?_) hs
  dsimp only
  split
  · split <;> [exact hs; exact addElem_canonical hs]
  · exact hs

theorem freezeChannel_canonical {cl ch c p : Nat} {a : W64} (h : Canonical s) : Canonical (freezeChannel cl ch c p a s) := by
  unfold freezeChannel
  dsimp only
  split <;> exact h

theorem copySectors_canonical {g ch : Nat} (l : List ((List Byte × Option W64) × Sector)) (h : Canonical s) : Canonical (copySectors g ch l s) := by
  induction l generalizing s with
  | nil => exact h
  | cons x l ih =>
    rw [copySectors]
    split
    · exact h
    · split
      · exact freezeChannel_canonical h
      · dsimp only
        split
        · exact ih (consumed_canonical (poisonPlace_canonical (writePlace_canonical h)))
        · exact ih (writePlace_canonical h)

theorem runCopy_canonical {g oc : Nat} {bs : List (List Byte × Option W64)} {dst l : List Sector} (h : Canonical s) :
    Canonical (runCopy g oc bs dst l s) := by
  have hc := copySectors_canonical (g := g) (ch := s.copyChannel (clusterOf g)) (bs.zip dst) h
  exact hc

theorem zmove_canonical {un : Bool} {dst : List Sector} {va : Nat} {src : List Byte} {n : Nat} (h : Canonical s) :
    Canonical (zmove un dst va src n s) := by
  unfold zmove
  dsimp only
  split
  · exact writeSectors_canonical h
  · refine foldl_canonical (fun x _ s h => ?_) h
    dsimp only
    split
    · split <;> first | exact writePlace_canonical h | exact h
    · exact h

theorem cleanSlot_canonical {x : Xfu} (h : Canonical s) : Canonical (cleanSlot x s) := by
  unfold cleanSlot
  split
  · split <;> exact h
  · exact h

theorem barArrive_canonical {g n : Nat} (h : Canonical s) : Canonical (barArrive g n s) := issueLate_canonical h

/-! ## Shared answers -/

theorem loaded_safe {g : Nat} {l : List Sector} {f : Ctx → Ctx} : SafeIssue (loaded g l f) := .commit fun _ h => touchRead_canonical h

theorem branchReg_safe {k : Nat} : SafeIssue (branchReg e k s) := .seq targetOk_checks .branch

theorem elems_safe {q : BitVec 1} {d : BitVec 5} {f : Nat → Except Bool W64} : SafeIssue (elems e q d f s) := .seq rangeCheck_checks .ctx

theorem loadS_safe {q : BitVec 1} {d b : BitVec 6} {oc : BitVec 4} {off : BitVec 5} {n : Nat} {ext : Nat → W64} :
    SafeIssue (loadS e q d b oc off n ext s) := .bind access1_checks fun _ => .seq inOrder_checks loaded_safe

theorem storeS_safe {d b : BitVec 6} {oc : BitVec 4} {off : BitVec 5} {n : Nat} : SafeIssue (storeS e d b oc off n s) :=
  .bind access1_checks fun _ => .seq storeInOrder_checks (.commit fun _ => putStores_canonical)

theorem loadRows_safe {slot : Nat} {h : Hdr} {oc : Nat} {rows : List (Option (List Sector))} : SafeIssue (loadRows e slot h oc rows s) :=
  .seq xferRoom_checks (.seq ownSlot_checks (.commit fun _ h => touchRead_canonical h))

theorem storeRows_safe {slot : Nat} {h : Hdr} {oc : Nat} {rows : List (Option (List Sector))} : SafeIssue (storeRows e slot h oc rows s) := by
  refine .seq xferRoom_checks (.commit fun u hu => ?_)
  refine modCtx_canonical (modCore_canonical (storePoison_canonical (foldl_range_canonical (fun m s h => ?_) hu)))
  dsimp only
  split <;> [exact writeSectors_canonical h; exact h]

theorem atomic_safe {d b : BitVec 6} {ord : BitVec 3} {n : Nat} {op : Nat → Except Bool Nat} {res : Nat → W64} :
    SafeIssue (atomic e d b ord n op res s) := by
  refine .seq aligned_checks (.bind access_checks fun l => ?_)
  split
  · refine .seq inOrder_checks (.ite (.seq afterAll_checks ?_) (.seq .val ?_))
    all_goals
      split
      · exact .error
      · dsimp only
        split <;> [exact .error; exact .commit fun _ h => writePlace_canonical h]
  · exact .nothing

theorem atomic64_safe {d b r : BitVec 6} {ord : BitVec 3} {op : W64 → W64 → Except Bool W64} : SafeIssue (atomic64 e d b r ord op s) := by
  unfold atomic64
  exact atomic_safe

theorem atomic32_safe {d b r : BitVec 6} {ord : BitVec 3} {op : W32 → W32 → W32} {res : Nat → W64} : SafeIssue (atomic32 e d b r ord op res s) := by
  unfold atomic32
  exact atomic_safe

end Sys2Proof.Machine
end

section
/-! PROOF. Every operation of a slot keeps memory canonical, one by one. -/
set_option Elab.async false
namespace Sys2Proof.Machine

variable {s : State} {e : Env}

/-! ## Control and special registers -/

theorem issueMovb_safe {k : BitVec 3} {r : BitVec 6} {f : BitVec 3} : SafeIssue (issueMovb e k r f s) := .ite .ctx .ctx

theorem issueCswr_safe {r : BitVec 12} {v : BitVec 6} : SafeIssue (issueCswr e r v s) :=
  .need (.ite (.seq (.testStall fun _ => arrayProgress_canonical) (.need (.commit fun _ h => h))) .ctx)

theorem issueGrow_safe {d a : BitVec 6} : SafeIssue (issueGrow e d a s) := by
  refine .need (.seq afterAll_checks ?_)
  dsimp only
  split
  · exact .ctx
  · exact .commit fun _ h => h

theorem issueBar_safe {n : BitVec 5} : SafeIssue (issueBar e n s) := .need (.need (.commit fun _ => barArrive_canonical))

theorem issueBarW_safe {n : BitVec 5} : SafeIssue (issueBarW e n s) := .need (.need .nothing)

theorem issueBarAw_safe {n : BitVec 5} : SafeIssue (issueBarAw e n s) := .need (.need (.commit fun _ h => barArrive_canonical h))

theorem issueRfe_safe : SafeIssue (issueRfe e s) := by
  refine .seq handlerOnly_checks (.seq targetOk_checks ?_)
  split
  · exact .error
  · exact .ok fun _ h => h

theorem issueSavec_safe {m : BitVec 7} {r : BitVec 6} : SafeIssue (issueSavec e m r s) :=
  .seq handlerOnly_checks (.seq aligned_checks (.bind areaAccess_checks fun _ => .seq accessesDone_checks (.seq storeInOrder_checks
    (.seq enginesDone_checks (.commit fun _ => foldl_canonical fun _ _ _ => writeSectors_canonical)))))

theorem issueLoadc_safe {m : BitVec 7} {r : BitVec 6} : SafeIssue (issueLoadc e m r s) := by
  refine .seq handlerOnly_checks (.seq aligned_checks (.bind areaAccess_checks fun l => ?_))
  split
  · exact .error
  · exact .seq (allChk_checks (fun _ => partCheck_checks) _) (.seq accessesDone_checks (.seq storeInOrder_checks (.seq enginesDone_checks
      (.commit fun _ h => foldl_canonical (fun _ _ _ => applyPart_canonical) (touchRead_canonical h)))))

theorem issueHdrT_safe {h : BitVec 3} {q : BitVec 5} {b : BitVec 3} : SafeIssue (issueHdrT e h q b s) :=
  .need (.ite .nothing (.need branchReg_safe))

/-! ## Vectors -/

theorem issueVadds_safe {q : BitVec 1} {d a : BitVec 5} {n : BitVec 6} {m : BitVec 5} : SafeIssue (issueVadds e q d a n m s) := by
  unfold issueVadds
  dsimp only
  split <;> exact .ctx

theorem issueVmuls_safe {q : BitVec 1} {d a : BitVec 5} {n : BitVec 6} {m : BitVec 5} : SafeIssue (issueVmuls e q d a n m s) := by
  unfold issueVmuls
  dsimp only
  split <;> exact .ctx

theorem issueVfclass_safe {q : BitVec 1} {d a : BitVec 5} {m : BitVec 6} : SafeIssue (issueVfclass e q d a m s) := by
  unfold issueVfclass
  split <;> [exact .ctx; exact elems_safe]

theorem issueVdcvt_safe {q : BitVec 1} {d a : BitVec 5} {m : BitVec 3} : SafeIssue (issueVdcvt e q d a m s) := by
  unfold issueVdcvt
  dsimp only
  split
  · exact elems_safe
  · exact .seq rangeCheck_checks .ctx
  · exact elems_safe
  · exact .ctx

theorem issueVmovs_safe {q : BitVec 1} {d : BitVec 6} {a : BitVec 5} {l : BitVec 6} {m : BitVec 4} : SafeIssue (issueVmovs e q d a l m s) := by
  unfold issueVmovs
  dsimp only
  split <;> [exact .ctx; exact .nothing]

theorem issueVred_safe {q : BitVec 1} {d a : BitVec 5} {m : BitVec 6} : SafeIssue (issueVred e q d a m s) := by
  unfold issueVred
  dsimp only
  split
  · exact .ctx
  · split <;> [exact .ctx; exact .error]

theorem issueVscan_safe {q : BitVec 1} {d a : BitVec 5} {m : BitVec 6} : SafeIssue (issueVscan e q d a m s) := by
  unfold issueVscan
  dsimp only
  split <;> [exact .ctx; exact .seq rangeCheck_checks .ctx]

theorem issueVfcmp_safe {q : BitVec 1} {p : BitVec 7} {a b : BitVec 5} {c : BitVec 4} : SafeIssue (issueVfcmp e q p a b c s) := by
  unfold issueVfcmp
  dsimp only
  split <;> exact .ctx

/-! ## Tiles and the array -/

theorem issueMcall_safe {r : BitVec 7} {a : BitVec 2} : SafeIssue (issueMcall e r a s) := by
  refine .need (.seq accAvail_checks (.seq bankFree_checks (.need (.need (.need (.bind callTiles_checks fun ts => ?_))))))
  refine .need (.need (.need (.need (.need (.seq arrayRoom_checks ?_)))))
  dsimp only
  split
  · exact .seq .error (.seq (unitSlots_checks _) (.commit fun _ => each_canonical fun _ _ h => h))
  · exact .seq .val (.seq (unitSlots_checks _) (.commit fun _ => each_canonical fun _ _ h => h))

theorem issueBch_safe {a : BitVec 3} : SafeIssue (issueBch e a s) :=
  .seq accAvail_checks (.seq bankFree_checks (.need (.seq arrayRoom_checks (.commit fun _ h => h))))

theorem issueEch_safe {a : BitVec 3} : SafeIssue (issueEch e a s) :=
  .seq accAvail_checks (.seq bankFree_checks (.need (.seq arrayRoom_checks (.commit fun _ h => h))))

theorem issueMdrain_safe {a : BitVec 3} {t n m : BitVec 5} : SafeIssue (issueMdrain e a t n m s) :=
  .seq accAvail_checks (.bind tileOperand_checks fun _ => .need (.need (.seq bankFree_checks (.seq arrayRoom_checks (.seq unitSlot_checks
    (.commit fun _ h => h))))))

theorem issueMzero_safe {a : BitVec 3} : SafeIssue (issueMzero e a s) :=
  .seq accAvail_checks (.seq bankFree_checks (.seq arrayRoom_checks (.commit fun _ h => h)))

theorem issueMspill_safe {a : BitVec 3} {t : BitVec 5} {h : BitVec 1} : SafeIssue (issueMspill e a t h s) :=
  .seq accAvail_checks (.bind spillTile_checks fun _ => .seq bankFree_checks (.seq arrayRoom_checks (.seq unitSlot_checks (.commit fun _ h => h))))

theorem issueMfill_safe {a : BitVec 3} {t : BitVec 5} {h : BitVec 1} : SafeIssue (issueMfill e a t h s) :=
  .seq accAvail_checks (.bind spillTile_checks fun _ => .seq bankFree_checks (.bind cleanSectors_checks fun _ => .seq arrayRoom_checks
    (.commit fun _ h => h)))

theorem issueMpwr_safe {t : BitVec 5} : SafeIssue (issueMpwr e t s) :=
  .bind storeChecks_checks fun _ => .bind cleanSectors_checks fun _ => .seq arrayRoom_checks (.commit fun _ h => h)

theorem issueMpwrTab_safe {t : BitVec 5} : SafeIssue (issueMpwrTab e t s) :=
  .bind storeChecks_checks fun _ => .bind cleanSectors_checks fun _ => .seq arrayRoom_checks (.commit fun _ h => h)

theorem issueMprd_safe {t : BitVec 5} : SafeIssue (issueMprd e t s) :=
  .bind storeChecks_checks fun _ => .seq arrayRoom_checks (.seq unitSlot_checks (.commit fun _ h => h))

theorem issueMprdTab_safe {t : BitVec 5} : SafeIssue (issueMprdTab e t s) :=
  .bind storeChecks_checks fun _ => .seq arrayRoom_checks (.seq unitSlot_checks (.commit fun _ h => h))

theorem issueTzero_safe {d : BitVec 5} {m : BitVec 6} : SafeIssue (issueTzero e d m s) :=
  .bind tileOperand_checks fun _ => .seq tileRoom_checks (.seq ownSlot_checks (.commit fun _ h => h))

theorem issueTcopy_safe {d a : BitVec 5} : SafeIssue (issueTcopy e d a s) := by
  refine .bind tileOperands_checks fun l => ?_
  split
  · refine .need (.need (.bind fullTile_checks fun data => ?_))
    split
    · exact .error
    · exact .seq tileRoom_checks (.seq ownSlot_checks (.commit fun _ h => ite_canonical (consumedTile_canonical h) (consumedTile_canonical h)))
  · exact .nothing

theorem issueTv2t_safe {d a i : BitVec 5} : SafeIssue (issueTv2t e d a i s) :=
  .bind tileOperand_checks fun _ => .seq tileRoom_checks (.seq ownSlot_checks (.commit fun _ h => h))

theorem issueTt2v_safe {d a i : BitVec 5} : SafeIssue (issueTt2v e d a i s) :=
  .bind tileOperand_checks fun _ => .ite (.seq .val (.need .ctx)) (.seq tileRoom_checks (.need .ctx))

/-! ## The circuit tree, the index engine, the Assay unit and sessions -/

theorem issueCk_safe {o : CkOp} {t r : BitVec 5} {n : Nat} {fin : CkEnv → List (CRec × Nat) → CkSt → Issue} (hf : ∀ v rs st, SafeIssue (fin v rs st)) :
    SafeIssue (issueCk o e t r n fin s) := by
  unfold issueCk
  dsimp only
  split
  next st hst =>
    have htile : Checks (tileOperand s e.g t >>= fun a => Chk.need (a.2.fmt == 13) (.trap 0x0D 0x13) >>= fun _ =>
        Chk.need (decide (r.toNat + n ≤ a.2.rows) && a.2.cols == 1) (.trap 0x0D 0x14) >>= fun _ => .ok a) :=
      .bind tileOperand_checks fun _ => .need (.need .val)
    exact .ite .error ⟨nofun, fun f hf => htile.stalls f (hst.trans (congrArg Except.error (Except.error.inj hf)))⟩
  next =>
    refine .need (.bind fullTile_checks fun _ => .seq scratchInOrder_checks (.need (.need ?_)))
    split
    · exact .error
    · split
      · exact .error
      · split
        · exact .error
        · split <;> [exact .error; exact hf ..]

theorem issueCkleaf_safe {t r n : BitVec 5} : SafeIssue (issueCkleaf e t r n s) := by
  unfold issueCkleaf
  exact issueCk_safe fun _ _ _ => .ctx

theorem issueCknode_safe {t r n : BitVec 5} : SafeIssue (issueCknode e t r n s) := by
  unfold issueCknode
  exact issueCk_safe fun _ _ _ => .ctx

theorem issueCkback_safe {t r n : BitVec 5} : SafeIssue (issueCkback e t r n s) := by
  unfold issueCkback
  exact issueCk_safe fun _ _ _ => .ctx

theorem issueCksamp_safe {t r n : BitVec 5} : SafeIssue (issueCksamp e t r n s) := by
  unfold issueCksamp
  exact issueCk_safe fun _ _ _ => .ctx

theorem issueCkdiv_safe {t r : BitVec 5} {d : BitVec 6} : SafeIssue (issueCkdiv e t r d s) := by
  refine issueCk_safe fun v rs st => ?_
  split
  · split <;> [exact .ctx; exact .error]
  · exact .nothing

theorem issueIxwalk_safe {d a b : BitVec 5} : SafeIssue (issueIxwalk e d a b s) := by
  refine .bind tileOperands_checks fun l => ?_
  split
  · exact .need (.need (.bind cleanSectors_checks fun _ => .bind cleanSectors_checks fun _ => .seq queueRoom_checks (.seq ownSlot_checks
      (.seq ownSlot_checks (.commit fun _ => indexJob_canonical)))))
  · exact .nothing

theorem issueIxsplit_safe {d a : BitVec 5} {p : BitVec 6} : SafeIssue (issueIxsplit e d a p s) := by
  refine .bind tileOperands_checks fun l => ?_
  split
  · exact .need (.need (.bind cleanSectors_checks fun _ => .seq queueRoom_checks (.seq ownSlot_checks (.commit fun _ => indexJob_canonical))))
  · exact .nothing

theorem issueAsort_safe {d a b : BitVec 5} {m : BitVec 6} : SafeIssue (issueAsort e d a b m s) := by
  refine .bind tileOperands_checks fun l => ?_
  split
  · exact .need (.need (.bind cleanSectors_checks fun _ => .bind cleanSectors_checks fun _ => .seq queueRoom_checks (.seq ownSlot_checks
      (.commit fun _ h => h))))
  · exact .nothing

theorem issueAmrg_safe {k : BitVec 2} {t : BitVec 5} {n : BitVec 6} : SafeIssue (issueAmrg e k t n s) :=
  .bind tileOperand_checks fun _ => .need (.need (.bind cleanSectors_checks fun _ => .seq assayIdle_checks .ctx))

theorem issueCread_safe {k : BitVec 2} {t : BitVec 5} {d : BitVec 6} : SafeIssue (issueCread e k t d s) :=
  .bind tileOperand_checks fun _ => .need (.need (.seq assayIdle_checks (.seq ownSlot_checks (.commit fun _ h => h))))

theorem issueCclr_safe {k m : BitVec 2} : SafeIssue (issueCclr e k m s) := .seq assayIdle_checks .ctx

theorem issueCsamp_safe {k : BitVec 2} {d : BitVec 6} : SafeIssue (issueCsamp e k d s) := .seq assayIdle_checks .ctx

theorem issueClpush_safe {a : BitVec 5} {n : BitVec 4} : SafeIssue (issueClpush e a n s) := by
  refine .bind tileOperand_checks fun _ => .need (.bind ownSession_checks fun x => .seq streamOpen_checks (.bind cleanSectors_checks fun data => ?_))
  dsimp only
  split
  · exact .error clrFault_checks
  · exact .need (.need (.ite .nothing (.commit fun _ => pushEntries_canonical))) clrFault_checks

theorem issueClpull_safe {d : BitVec 5} : SafeIssue (issueClpull e d s) := by
  refine .bind tileOperand_checks fun _ => .need (.bind ownSession_checks fun x => .need ?_)
  split
  · exact .error
  · exact .seq ownSlot_checks (.commit fun _ h => ite_canonical (closeSession_canonical h) h)

theorem issueClseal_safe {n : BitVec 4} : SafeIssue (issueClseal e n s) := .bind ownSession_checks fun _ => .seq streamOpen_checks (.commit fun _ h => h)

theorem issueClcfg_safe {a : BitVec 5} : SafeIssue (issueClcfg e a s) := by
  refine .bind tileOperand_checks fun _ => .need (.need (.need (.bind cleanSectors_checks fun _ => .need ?_ clrFault_checks) clrFault_checks))
  exact .ite (.bind .val fun _ => .need (.commit fun _ h => setPins_canonical h)) (.bind spillArea_checks fun _ => .need (.commit fun _ h => setPins_canonical h))

theorem issueClcfgEnd_safe : SafeIssue (issueClcfgEnd e s) := .bind ownSession_checks fun _ => .commit fun _ => closeSession_canonical

/-! ## Memory -/

theorem issueVld_safe {q : BitVec 1} {d : BitVec 5} {b : BitVec 6} {c : BitVec 4} {f : BitVec 6} : SafeIssue (issueVld e q d b c f s) :=
  .bind vecAccess_checks fun _ => .seq inOrder_checks loaded_safe

theorem issueVst_safe {d : BitVec 5} {b : BitVec 6} {c : BitVec 4} {f : BitVec 6} : SafeIssue (issueVst e d b c f s) :=
  .bind vecAccess_checks fun _ => .seq storeInOrder_checks (.commit fun _ => putStores_canonical)

theorem issueLddp_safe {q : BitVec 1} {d b : BitVec 6} {c : BitVec 4} {f : BitVec 5} : SafeIssue (issueLddp e q d b c f s) :=
  .bind access1_checks fun _ => .seq inOrder_checks loaded_safe

theorem issueVldp_safe {q : BitVec 1} {d : BitVec 5} {b : BitVec 6} {c : BitVec 4} {f : BitVec 6} : SafeIssue (issueVldp e q d b c f s) :=
  .bind vecAccess_checks fun _ => .seq inOrder_checks loaded_safe

theorem issueVstp_safe {d : BitVec 5} {b : BitVec 6} {c : BitVec 4} {f : BitVec 6} : SafeIssue (issueVstp e d b c f s) :=
  .bind vecAccess_checks fun _ => .seq storeInOrder_checks (.commit fun _ h => putStores_canonical h)

theorem issueTld_safe {t : BitVec 5} {b : BitVec 6} {c : BitVec 4} : SafeIssue (issueTld e t b c s) :=
  .bind tileOperand_checks fun _ => .seq rowLimits_checks (.bind rowAccess_checks fun _ => loadRows_safe)

theorem issueTst_safe {t : BitVec 5} {b : BitVec 6} {c : BitVec 4} : SafeIssue (issueTst e t b c s) :=
  .bind tileOperand_checks fun _ => .seq rowLimits_checks (.bind rowAccess_checks fun _ => .bind fullTile_checks fun _ => storeRows_safe)

theorem issueTgath_safe {t : BitVec 5} {b : BitVec 6} {c : BitVec 4} {i : BitVec 5} {w : BitVec 1} : SafeIssue (issueTgath e t b c i w s) :=
  .bind indexedRows_checks fun _ => .bind rowAccess_checks fun _ => loadRows_safe

theorem issueTscat_safe {t : BitVec 5} {b : BitVec 6} {c : BitVec 4} {i : BitVec 5} {w : BitVec 1} : SafeIssue (issueTscat e t b c i w s) :=
  .bind indexedRows_checks fun _ => .bind rowAccess_checks fun _ => .bind fullTile_checks fun _ => storeRows_safe

theorem issueTscadd_safe {t : BitVec 5} {b : BitVec 6} {c : BitVec 4} {i : BitVec 5} {w : BitVec 1} : SafeIssue (issueTscadd e t b c i w s) :=
  .bind indexedRows_checks fun _ => .bind rowAccess_checks fun _ => .bind fullTile_checks fun _ => .seq xferRoom_checks
    (.commit fun _ h => modCtx_canonical (modCore_canonical (storePoison_canonical (addRows_canonical h))))

theorem issueWaitm_safe {a b c : BitVec 6} {f : BitVec 3} : SafeIssue (issueWaitm e a b c f s) := by
  refine .seq aligned_checks (.bind access_checks fun l => ?_)
  split
  · refine .seq (.testStall fun _ => orderProgress_canonical) ?_
    dsimp only
    split
    · exact .seq .error (.need (.commit fun _ => touchRead_canonical))
    · exact .seq .val (.need (.commit fun _ => touchRead_canonical))
  · exact .nothing

theorem issueCpy_safe {a b c : BitVec 6} : SafeIssue (issueCpy e a b c s) :=
  .seq copyLimits_checks (.need (.bind checkSectors_checks fun _ => .seq copyStart_checks (.commit fun _ h => runCopy_canonical (touchRead_canonical h))))

theorem issueCpyZero_safe {a c : BitVec 6} : SafeIssue (issueCpyZero e a c s) :=
  .seq copyLimits_checks (.bind checkSectors_checks fun _ => .seq copyStart_checks (.commit fun _ => runCopy_canonical))

theorem issueCpyq_safe {n b c : BitVec 6} : SafeIssue (issueCpyq e n b c s) :=
  .seq copyLimits_checks (.bind checkSectors_checks fun _ => .need (.seq copyStart_checks (.commit fun _ h => touchRead_canonical h)))

theorem issueQpop_safe {n : BitVec 3} {d : BitVec 6} : SafeIssue (issueQpop e n d s) := by
  unfold issueQpop
  dsimp only
  split
  · exact .seq (.testStall fun _ => orderProgress_canonical) (.need (.commit fun _ h => modCtx_canonical (ringWrite_canonical h)))
  · split <;> [exact .error; exact .ctx]

theorem issueQpopBind_safe {n : BitVec 3} {d : BitVec 6} : SafeIssue (issueQpopBind e n d s) := .bind ringCheck_checks fun _ => .commit fun _ h => h

theorem issueSbar_safe {m : BitVec 16} {k : BitVec 5} : SafeIssue (issueSbar e m k s) := .ite (.stall fun _ => bulkProgress_canonical) .nothing

theorem rangeOp_safe {x : Bool} {a b c : BitVec 6} {f : BitVec 3} : SafeIssue (rangeOp e x a b c f s) := by
  refine .need (.bind checkSectors_checks fun l => ?_)
  split <;> [exact .ctx; exact .nothing]

theorem issueResv_safe {h b c : BitVec 6} {f : BitVec 3} : SafeIssue (issueResv e h b c f s) := by
  refine .need (.need (.need ?_))
  split <;> [exact .seq .error .ctx; exact .seq .val .ctx]

theorem issueMovp_safe {p : BitVec 8} {v : BitVec 6} : SafeIssue (issueMovp e p v s) := .bind unitOf_checks fun _ => .need (.commit fun _ h => h)

theorem issueMovfp_safe {p : BitVec 8} {v : BitVec 6} : SafeIssue (issueMovfp e p v s) := .bind unitOf_checks fun _ => .ctx

theorem issueQpush_safe {n : BitVec 3} {d : BitVec 6} : SafeIssue (issueQpush e n d s) := by
  unfold issueQpush
  dsimp only
  split
  · exact .need (.commit fun _ => issueLate_canonical)
  · exact .error

theorem issueQpushBind_safe {n : BitVec 3} {d : BitVec 6} : SafeIssue (issueQpushBind e n d s) := .bind ringCheck_checks fun _ => .commit fun _ h => h

/-! ## Transform units -/

theorem startXfu_safe {cl n op : Nat} {x : Xfu} {j : XfuJob} {l : List Sector} {whole : List Nat} {p : Option W64} {f : State → State}
    (hf : KeepsCanonical f) : SafeIssue (startXfu e cl n x op j l whole p f s) := by
  have hrest : ∀ u, Canonical u → Canonical (f (touchRead l u)) := fun u h => hf _ (touchRead_canonical h)
  unfold startXfu
  refine .need (.need ?_)
  dsimp only
  split
  · refine .seq ownSlot_checks (.seq inOrder_checks (.commit fun u h => modCtx_canonical (modCluster_canonical ?_)))
    cases p with
    | none => exact hrest u h
    | some info => exact modTile_canonical (consumed_canonical (hrest u h))
  · refine .seq .val (.seq inOrder_checks (.commit fun u h => modCtx_canonical (modCluster_canonical ?_)))
    cases p with
    | none => exact hrest u h
    | some info => exact consumed_canonical (hrest u h)

theorem issueXfuDecode_safe {u : BitVec 3} {r : BitVec 6} : SafeIssue (issueXfuDecode e u r s) :=
  .bind unitOf_checks fun _ => .bind dtile_checks fun _ => .seq optsCheck_checks (.seq portCheck_checks (.seq portCheck_checks (.seq portCheck_checks
    (.seq portCheck_checks (.seq portCheck_checks (.bind accessR_checks fun _ => startXfu_safe fun _ h => h))))))

theorem issueZ_safe {u : BitVec 3} {op : Nat} {un : Bool} : SafeIssue (issueZ e u op un s) :=
  .bind unitOf_checks fun _ => .seq optsCheck_checks (.seq portCheck_checks (.seq portCheck_checks (.seq portCheck_checks (.seq portCheck_checks
    (.bind accessR_checks fun _ => startXfu_safe fun _ => zmove_canonical)))))

theorem issueXfuCopy_safe {u : BitVec 3} {r : BitVec 6} : SafeIssue (issueXfuCopy e u r s) :=
  .bind unitOf_checks fun _ => .bind dtile_checks fun _ => .seq optsCheck_checks (.seq portCheck_checks (.seq portCheck_checks (.seq portCheck_checks
    (.bind accessR_checks fun _ => startXfu_safe fun _ h => h))))

theorem issueXfuUnpack4_safe {u : BitVec 3} {r : BitVec 6} : SafeIssue (issueXfuUnpack4 e u r s) :=
  .bind unitOf_checks fun _ => .bind dtile_checks fun _ => .need (.need (.seq optsCheck_checks (.seq portCheck_checks (.seq portCheck_checks
    (.seq portCheck_checks (.seq portCheck_checks (.bind accessR_checks fun _ => startXfu_safe fun _ h => h)))))))

theorem issueXfuSave_safe {u : BitVec 3} {r : BitVec 6} : SafeIssue (issueXfuSave e u r s) :=
  .bind unitOf_checks fun _ => .seq optsCheck_checks (.seq portCheck_checks (.bind accessR_checks fun _ => startXfu_safe fun _ => writeSectors_canonical))

theorem issueXfuLoad_safe {u : BitVec 3} {r : BitVec 6} : SafeIssue (issueXfuLoad e u r s) :=
  .bind unitOf_checks fun _ => .seq optsCheck_checks (.seq portCheck_checks (.bind accessR_checks fun _ => startXfu_safe fun _ h => h))

theorem issueXfuAbort_safe {u : BitVec 3} {r : BitVec 6} : SafeIssue (issueXfuAbort e u r s) :=
  .bind unitOf_checks fun _ => .need (.ite .nothing (.commit fun _ h => xfuEnd_canonical (cleanSlot_canonical h)))

end Sys2Proof.Machine
end

section
/-! PROOF. A bundle keeps memory canonical: whichever operations it holds, it commits, stalls, blocks or traps through functions that do. -/
set_option Elab.async false
namespace Sys2Proof.Machine

variable {s t : State} {e : Env}

theorem issueAadd_safe {d b r : BitVec 6} {o : BitVec 3} : SafeIssue (issueAadd e d b r o s) := by
  unfold issueAadd
  exact atomic64_safe

theorem issueAdadd_safe {d b r : BitVec 6} {o : BitVec 3} : SafeIssue (issueAdadd e d b r o s) := by
  unfold issueAdadd
  exact atomic64_safe

theorem issueAmax_safe {d b r : BitVec 6} {o : BitVec 3} : SafeIssue (issueAmax e d b r o s) := by
  unfold issueAmax
  exact atomic64_safe

theorem issueAmin_safe {d b r : BitVec 6} {o : BitVec 3} : SafeIssue (issueAmin e d b r o s) := by
  unfold issueAmin
  exact atomic64_safe

theorem issueAor_safe {d b r : BitVec 6} {o : BitVec 3} : SafeIssue (issueAor e d b r o s) := by
  unfold issueAor
  exact atomic64_safe

theorem issueAand_safe {d b r : BitVec 6} {o : BitVec 3} : SafeIssue (issueAand e d b r o s) := by
  unfold issueAand
  exact atomic64_safe

theorem issueAxchg_safe {d b r : BitVec 6} {o : BitVec 3} : SafeIssue (issueAxchg e d b r o s) := by
  unfold issueAxchg
  exact atomic64_safe

theorem issueAcas_safe {d b r : BitVec 6} {o : BitVec 3} : SafeIssue (issueAcas e d b r o s) := by
  unfold issueAcas
  exact atomic64_safe

theorem issueAaddw_safe {d b r : BitVec 6} {o : BitVec 3} : SafeIssue (issueAaddw e d b r o s) := by
  unfold issueAaddw
  exact atomic32_safe

theorem issueAfadd_safe {d b r : BitVec 6} {o : BitVec 3} : SafeIssue (issueAfadd e d b r o s) := by
  unfold issueAfadd
  exact atomic32_safe

/-- What any operation of a slot does at issue keeps memory canonical. -/
theorem issueOf_safe {i : Instr} : SafeIssue (issueOf i e s) := by
  cases i
  case add | sub | and | or | xor | andn | shl | shr | sar | rot | mul | div | min | max | bitc | addi | andi | ori | xori | shli | shri | sari | muli
    | li | lis | addpc | pcnt | cmp | cmpu | cmpi | pfrom | vcmp | pand | por | pxor | pandn | vadd | vsub | vmul | vmin | vmax | vand | vor | vxor
    | vshl | vshr | vsar | vli | vfadd | vfsub | vfmul | vfma | vfmin | vfmax | vfrcp | vfrsq | vfexp2 | vflog2 | vcvt | vperm | vnib | vshuf
    | vbcast | vins | viota | vmov | vqdeq | vqnt | vrng | lbt | mpset | fence | qstat | rrel | rrelAll => exact .ctx
  case vdadd | vdmul | vdmax | vdscl => exact elems_safe
  case br | call | loop | yield | exit | trap | sysc | brk => exact .ok fun _ h => h
  case brb | ret => exact branchReg_safe
  case csrd | tcset | tcget => exact .need .ctx
  case movb => exact issueMovb_safe
  case cswr => exact issueCswr_safe
  case grow => exact issueGrow_safe
  case bar => exact issueBar_safe
  case barW => exact issueBarW_safe
  case barAw => exact issueBarAw_safe
  case rfe => exact issueRfe_safe
  case savec => exact issueSavec_safe
  case loadc => exact issueLoadc_safe
  case hdrT => exact issueHdrT_safe
  case vadds => exact issueVadds_safe
  case vmuls => exact issueVmuls_safe
  case vfclass => exact issueVfclass_safe
  case vdcvt => exact issueVdcvt_safe
  case vmovs => exact issueVmovs_safe
  case vred => exact issueVred_safe
  case vscan => exact issueVscan_safe
  case vfcmp => exact issueVfcmp_safe
  case mcall => exact issueMcall_safe
  case bch => exact issueBch_safe
  case ech => exact issueEch_safe
  case mdrain => exact issueMdrain_safe
  case mzero => exact issueMzero_safe
  case mspill => exact issueMspill_safe
  case mfill => exact issueMfill_safe
  case mpwr => exact issueMpwr_safe
  case mpwrTab => exact issueMpwrTab_safe
  case mprd => exact issueMprd_safe
  case mprdTab => exact issueMprdTab_safe
  case tzero => exact issueTzero_safe
  case tcopy => exact issueTcopy_safe
  case tv2t => exact issueTv2t_safe
  case tt2v => exact issueTt2v_safe
  case ckleaf => exact issueCkleaf_safe
  case cknode => exact issueCknode_safe
  case ckback => exact issueCkback_safe
  case cksamp => exact issueCksamp_safe
  case ckdiv => exact issueCkdiv_safe
  case ixwalk => exact issueIxwalk_safe
  case ixsplit => exact issueIxsplit_safe
  case asort => exact issueAsort_safe
  case amrg => exact issueAmrg_safe
  case cread => exact issueCread_safe
  case cclr => exact issueCclr_safe
  case csamp => exact issueCsamp_safe
  case clpush => exact issueClpush_safe
  case clpull => exact issueClpull_safe
  case clseal => exact issueClseal_safe
  case clcfg => exact issueClcfg_safe
  case clcfgEnd => exact issueClcfgEnd_safe
  case ldd | ldw | ldwu | ldh | ldhu | ldb | ldbu => exact loadS_safe
  case std | stw | sth | stb => exact storeS_safe
  case vld => exact issueVld_safe
  case vst => exact issueVst_safe
  case lddp => exact issueLddp_safe
  case vldp => exact issueVldp_safe
  case vstp => exact issueVstp_safe
  case tld => exact issueTld_safe
  case tst => exact issueTst_safe
  case tgath => exact issueTgath_safe
  case tscat => exact issueTscat_safe
  case tscadd => exact issueTscadd_safe
  case aadd => exact issueAadd_safe
  case adadd => exact issueAdadd_safe
  case amax => exact issueAmax_safe
  case amin => exact issueAmin_safe
  case aor => exact issueAor_safe
  case aand => exact issueAand_safe
  case axchg => exact issueAxchg_safe
  case acas => exact issueAcas_safe
  case aaddw => exact issueAaddw_safe
  case afadd => exact issueAfadd_safe
  case waitm => exact issueWaitm_safe
  case cpy => exact issueCpy_safe
  case cpyZero => exact issueCpyZero_safe
  case cpyq => exact issueCpyq_safe
  case qpop => exact issueQpop_safe
  case qpopBind => exact issueQpopBind_safe
  case sbar g m k => exact issueSbar_safe (k := k)
  case rinv | rflush => exact rangeOp_safe
  case resv => exact issueResv_safe
  case movp => exact issueMovp_safe
  case movfp => exact issueMovfp_safe
  case qpush => exact issueQpush_safe
  case qpushBind => exact issueQpushBind_safe
  case xfuDecode g u r => exact issueXfuDecode_safe (r := r)
  case xfuZorder | xfuUnz => exact issueZ_safe
  case xfuCopy g u r => exact issueXfuCopy_safe (r := r)
  case xfuUnpack4 g u r => exact issueXfuUnpack4_safe (r := r)
  case xfuSave g u r => exact issueXfuSave_safe (r := r)
  case xfuLoad g u r => exact issueXfuLoad_safe (r := r)
  case xfuAbort g u r => exact issueXfuAbort_safe (r := r)
  all_goals exact .nothing

/-! ## The bundle -/

/-- Every answer of a bundle's operations keeps memory canonical. -/
def SafeResults (rs : Results) : Prop := ∀ r ∈ rs, SafeIssue r.2

theorem SafeResults.commits {rs : Results} (hr : SafeResults rs) : ∀ c ∈ rs.commits, KeepsCanonical c.act := by
  intro c hc
  unfold Results.commits at hc
  obtain ⟨r, hmem, hrc⟩ := List.mem_filterMap.mp hc
  split at hrc
  next x hx => exact Option.some.inj hrc ▸ (hr r hmem).gives x hx
  next => cases hrc

theorem SafeResults.stall {rs : Results} (hr : SafeResults rs) {f : State → State} (hf : rs.stall = some f) : KeepsCanonical f := by
  unfold Results.stall at hf
  obtain ⟨r, hmem, hrf⟩ := List.exists_of_findSome?_eq_some hf
  split at hrf
  next x hx => exact Option.some.inj hrf ▸ (hr r hmem).stalls x hx
  next => cases hrf

theorem commitBundle_canonical {g : Nat} {stop : Bool} {ws : List Name} {rs : Results} (hr : SafeResults rs) (h : Canonical s) :
    Canonical (commitBundle g stop ws rs s) := by
  have hacts : Canonical (rs.commits.foldl (fun s c => c.act s) s) := foldl_canonical hr.commits h
  have hmeter : ∀ c n, Canonical (meter g n (spendTime g ((claimHeld g s (rs.commits.foldl (fun s c => c.act s) s)).setCtx g c))) := fun c n =>
    meter_canonical (spendTime_canonical (setCtx_canonical (claimHeld_canonical hacts)))
  unfold commitBundle
  refine ite_canonical (exitCtx_canonical ?_) (ite_canonical (modCore_canonical ?_) ?_)
  all_goals
    split
    · exact ite_canonical (hmeter ..) (hmeter ..)
    · split
      · exact takeTrap_canonical (modCtx_canonical (ite_canonical (hmeter ..) (hmeter ..)))
      · exact takeTrap_canonical (ite_canonical (hmeter ..) (hmeter ..))

theorem issueOps_canonical {g : Nat} {stop : Bool} {ws : List Name} {ops : List SlotOp} (ho : ∀ o ∈ ops, o.issue = issueOf o.instr)
    (h : Canonical s) : Canonical (issueOps g stop ws ops s) := by
  have hr : SafeResults ((ops.filter (·.active s)).map fun o => (o, o.issue o.env s)) := by
    intro r hmem
    obtain ⟨o, hmo, rfl⟩ := List.mem_map.mp hmem
    dsimp only
    rw [ho o (List.mem_filter.mp hmo).1]
    exact issueOf_safe
  unfold issueOps
  dsimp only
  generalize ((ops.filter (·.active s)).map fun o => (o, o.issue o.env s) : Results) = rs at *
  split
  · exact takeTrap_canonical h
  · split
    · exact takeTrap_canonical h
    · split
      · exact takeTrap_canonical h
      · split
        · exact h
        · split
          next f hf => exact stallCtx_canonical (hr.stall hf) h
          next => split <;> [exact takeTrap_canonical h; exact commitBundle_canonical hr h]

theorem issueSlots_canonical {g : Nat} {stop : Bool} {bad : List Nat} {ops : List SlotOp} (ho : ∀ o ∈ ops, o.issue = issueOf o.instr)
    (h : Canonical s) : Canonical (issueSlots g stop bad ops s) :=
  ite_canonical (takeTrap_canonical h) (ite_canonical (takeTrap_canonical h) (ite_canonical (takeTrap_canonical h) (issueOps_canonical ho h)))

theorem bundleOps_issue {g : Nat} {b : BitVec 128} : ∀ o ∈ bundleOps g b s, o.issue = issueOf o.instr := by
  intro o ho
  obtain ⟨x, -, hx⟩ := List.mem_filterMap.mp ho
  unfold toOp at hx
  split at hx
  · cases hx
  · split at hx
    · cases hx
    · split at hx
      · cases hx
      · exact Option.some.inj hx ▸ rfl

theorem issueBundle_canonical {g : Nat} {b : BitVec 128} (h : Canonical s) : Canonical (issueBundle g b s) := issueSlots_canonical bundleOps_issue h

end Sys2Proof.Machine
end

section
/-! PROOF. A core that moves keeps memory canonical: what it saves, issues or lets its engines do. -/
set_option Elab.async false
namespace Sys2Proof.Machine

variable {s t : State} {g : Nat}

theorem fetch_checks : Checks (fetch s g) := by
  unfold fetch
  split
  · exact .error
  · split
    · exact .stall fun _ => restoreFrame_canonical
    · split <;> [exact .error; exact .val]

theorem touchFetch_canonical (h : Canonical s) : Canonical (touchFetch g s) := by
  unfold touchFetch
  split <;> [exact touchRead_canonical h; exact h]

theorem offerBundle_canonical (h : Canonical s) : Canonical (offerBundle g s) := by
  unfold offerBundle
  split
  next => exact issueBundle_canonical (touchFetch_canonical h)
  next => exact takeTrap_canonical h
  next f hf => exact stallCtx_canonical (fetch_checks.stalls f hf) h
  next => exact h

theorem passBar_canonical (h : Canonical s) : Canonical (passBar g s) := ite_canonical h h

theorem offer_canonical (h : Canonical s) : Canonical (offer g s) := by
  unfold offer
  split
  next ht => exact boundaryEvent_canonical h ht
  next =>
    exact ite_canonical (spendTime_canonical h) (ite_canonical h
      (ite_canonical (blockCtx_canonical (takeRefills_canonical h)) (offerBundle_canonical (passBar_canonical (takeRefills_canonical h)))))

theorem giveIssue_canonical (h : Canonical s) : Canonical (giveIssue g s) := by
  unfold giveIssue
  dsimp only
  split <;> [exact h; exact charge_canonical h]

theorem ctxProgress_canonical {k : Nat} {f : State → State} (hf : ctxProgress s k = some f) : KeepsCanonical f := by
  unfold ctxProgress at hf
  obtain ⟨g, -, hf⟩ := List.exists_of_findSome?_eq_some hf
  split at hf
  · exact Option.some.inj hf ▸ fun _ => drainLate_canonical
  split at hf
  · exact Option.some.inj hf ▸ fun _ => streamArrive_canonical
  split at hf
  · exact Option.some.inj hf ▸ fun _ => rangeEnd_canonical
  split at hf
  · exact Option.some.inj hf ▸ fun _ h => h
  · cases hf

theorem engineStep_canonical {k : Nat} (h : Canonical s) : Canonical (engineStep k s) := by
  unfold engineStep
  refine ite_canonical (popTileQ_canonical h) (ite_canonical (popIndexQ_canonical h) (ite_canonical (popAssayQ_canonical h)
    (ite_canonical (popXferQ_canonical h) (ite_canonical (arrayProgress_canonical h) ?_))))
  split
  · exact xfuEnd_canonical h
  · split
    · exact copyEnd_canonical h
    · split
      next f hf => exact ctxProgress_canonical hf s h
      next => exact h

theorem stepLocal_canonical (h : Canonical s) : Canonical (stepLocal s) := by
  unfold stepLocal
  split
  · exact saveStep_canonical h
  · split
    · exact offer_canonical h
    · split
      · exact offer_canonical (giveIssue_canonical h)
      · exact engineStep_canonical h

end Sys2Proof.Machine
end

section
/-! PROOF. Groups, launches, quanta and Mint sets keep memory canonical: what they write of it, the command processor writes back. -/
set_option Elab.async false
namespace Sys2Proof.Machine

variable {s t : State} {g : Nat}

/-! ## The command processor -/

theorem noteSector_canonical {p : Option Nat} {a : Nat} (h : Canonical s) : Canonical (noteSector p s a) := errorRecord_canonical h

theorem cpWrite_canonical {p a : Nat} {bs : List Byte} (h : Canonical s) : Canonical (cpWrite p a bs s) :=
  ite_canonical (writeBack_canonical h) (foldl_canonical (fun _ _ _ => noteSector_canonical) h)

theorem cpNote_canonical {p a n : Nat} (h : Canonical s) : Canonical (cpNote p a n s) := h.of_mem (cpNote_noted p a n s).mem

theorem noteDescriptor_canonical {p : Nat} {q : Queue} {d : BitVec 512} {l : Bool} (h : Canonical s) : Canonical (noteDescriptor p q d l s) := by
  unfold noteDescriptor
  exact ite_canonical (cpNote_canonical (ite_canonical (cpNote_canonical h) h)) (ite_canonical (cpNote_canonical h) h)

theorem publishHandles_canonical {p a : Nat} {hs : List (Nat × Nat)} (h : Canonical s) : Canonical (publishHandles p a hs s) := by
  unfold publishHandles
  refine foldl_canonical (fun e _ s h => ?_) h
  dsimp only
  split
  · split <;> [exact cpWrite_canonical h; exact h]
  · exact h

theorem endLaunch_canonical {k st : Nat} (h : Canonical s) : Canonical (endLaunch k st s) := by
  unfold endLaunch
  split
  · exact h
  · refine cpWrite_canonical ?_
    exact Canonical.of_mem (ite_canonical (c := st = 0) (publishHandles_canonical h) h) rfl

theorem endCollective_canonical {k : Nat} {c : Collective} (h : Canonical s) : Canonical (endCollective k c s) := by
  unfold endCollective
  exact cpWrite_canonical (Canonical.of_mem (publishHandles_canonical h) rfl)

theorem putResult_canonical {c : Collective} {me n : Nat} {ranks : List RankData} {lost : List Nat} (h : Canonical s) :
    Canonical (putResult c me n ranks lost s) := by
  have hbad : ∀ (l : List Nat) (u : State), Canonical u → Canonical (l.foldl (fun s k => poisonPlace (.dp (c.dst + 64 * k) false 0) 64 s) u) :=
    fun l u hu => foldl_canonical (fun _ _ _ => poisonPlace_canonical) hu
  unfold putResult
  dsimp only
  split
  · exact ite_canonical (hbad _ _ (cpWrite_canonical h)) (cpWrite_canonical h)
  · exact errorRecord_canonical (ite_canonical (hbad _ _ (cpWrite_canonical h)) (cpWrite_canonical h))

/-! ## Groups -/

theorem releaseGroup_canonical {k : Nat} (h : Canonical s) : Canonical (releaseGroup k s) := by
  unfold releaseGroup
  refine modGroup_canonical (modCluster_canonical (foldl_canonical (fun _ _ _ h => h) ?_))
  exact h

theorem addGains_canonical {cl : Nat} (h : Canonical s) : Canonical (addGains cl s) := h

theorem settleGains_canonical {cl vf : Nat} (h : Canonical s) : Canonical (settleGains cl vf s) := ite_canonical h h

theorem lendUnits_canonical {cl k : Nat} {us : List Nat} (h : Canonical s) : Canonical (lendUnits cl k us s) := by
  refine foldl_canonical (fun u _ s h => ?_) h
  dsimp only
  split
  · split <;> exact h
  · exact h

theorem dropClaims_canonical (h : Canonical s) : Canonical (dropClaims g s) := h

theorem restoreCtx_canonical {k : Nat} (h : Canonical s) : Canonical (restoreCtx k g s) := by
  unfold restoreCtx
  split
  · exact h
  · dsimp only
    split
    · exact ite_canonical h h
    · refine violation_canonical (modCtx_canonical ?_)
      exact ite_canonical (consumed_canonical (ite_canonical h h)) (ite_canonical h h)

theorem resumeGroup_canonical {k : Nat} (h : Canonical s) : Canonical (resumeGroup k s) := by
  unfold resumeGroup
  refine foldl_canonical (fun y _ s h => ?_) ?_
  · dsimp only
    split <;> [exact restoreCtx_canonical h; exact h]
  · exact modGroup_canonical (Canonical.of_mem (lendUnits_canonical h) rfl)

theorem preemptGroup_canonical {k : Nat} (h : Canonical s) : Canonical (preemptGroup k s) := by
  unfold preemptGroup
  exact modLaunch_canonical (modPart_canonical (foldl_canonical (fun _ _ _ h => h) h))

theorem preemptVf_canonical {cl vf : Nat} (h : Canonical s) : Canonical (preemptVf cl vf s) :=
  foldl_canonical (fun _ _ _ h => ite_canonical (preemptGroup_canonical h) h) h

theorem spentTest_canonical {cl : Nat} (h : Canonical s) : Canonical (spentTest cl s) := by
  unfold spentTest
  split
  · exact h
  · refine ite_canonical h (modCluster_canonical (foldl_canonical (fun v _ s h => ?_) h))
    exact ite_canonical h (preemptVf_canonical h)

/-! ## Placing a group -/

theorem setClass_canonical {c o f : Nat} (h : Canonical s) : Canonical (setClass c o f s) := ite_canonical h h

theorem ownSegments_canonical {l : Launch} {ps : List (Nat × Nat × Nat)} (h : Canonical s) : Canonical (ownSegments l ps s) := by
  unfold ownSegments
  split
  · refine foldl_canonical (fun f _ s h => ?_) h
    exact ite_canonical h (Canonical.of_mem (setClass_canonical h) rfl)
  · exact h

theorem loadImage_canonical {cl k : Nat} {ws es : List W64} (h : Canonical s) : Canonical (loadImage cl k ws es s) :=
  modCluster_canonical (each_canonical (fun _ _ h => h) h)

theorem imagePlaced_canonical {k cl : Nat} {o : Kobj} (h : Canonical s) : Canonical (imagePlaced k cl o s) := by
  unfold imagePlaced
  split <;> [exact ite_canonical h (loadImage_canonical h); exact h]

theorem ctxsPlaced_canonical {k grp : Nat} {l : Launch} {o : Kobj} {ps : List (Nat × Nat × Nat)} (h : Canonical s) :
    Canonical (ctxsPlaced k grp l o ps s) := foldl_canonical (fun _ _ _ h => h) h

theorem groupCounted_canonical {k cl grp : Nat} {l : Launch} {o : Kobj} {us ls : List Nat} {ps : List (Nat × Nat × Nat)} (h : Canonical s) :
    Canonical (groupCounted k l cl grp o us ls ps s) := modLaunch_canonical h

theorem placeGroup_canonical {k cl : Nat} {l : Launch} {ps : List (Nat × Nat × Nat)} (h : Canonical s) : Canonical (placeGroup k l cl ps s) := by
  rw [placeGroup_eq]
  exact groupCounted_canonical (ctxsPlaced_canonical (imagePlaced_canonical (lendUnits_canonical h)))

theorem placeChecked_canonical {k cl : Nat} {l : Launch} {ps : List (Nat × Nat × Nat)} (h : Canonical s) : Canonical (placeChecked k l cl ps s) := by
  have hnote := foldl_canonical (f := fun s (p : Nat × Nat × Nat) => cpNote l.part (l.swtb + 8192 * p.1) 8192 s) (l := ps)
    (fun _ _ _ => cpNote_canonical) (ownSegments_canonical (l := l) (ps := ps) h)
  unfold placeChecked
  dsimp only
  split <;> [exact modLaunch_canonical hnote; exact settleGains_canonical (placeGroup_canonical hnote)]

/-! ## Mint sets -/

theorem stopForSave_canonical (h : Canonical s) : Canonical (stopForSave g s) := h

theorem atBoundary_canonical (h : Canonical s) : Canonical (atBoundary g s) := by
  refine elsewhere_canonical (fun s h => ?_) h
  cases hb : boundaryEvent g s with
  | none => exact h
  | some t => exact boundaryEvent_canonical h hb

theorem memberRow_canonical {x : Nat × BitVec 128} (h : Canonical s) : Canonical (memberRow s x) := by
  refine elsewhere_canonical (fun s h => ?_) h
  split
  next t ht => exact boundaryEvent_canonical (modCtx_canonical h) ht
  next => exact ite_canonical (spendTime_canonical h) (issueBundle_canonical (passBar_canonical h))

theorem rowCycle_canonical {d : Nat} {xs : List (Nat × BitVec 128)} (h : Canonical s) : Canonical (rowCycle d xs s) := by
  unfold rowCycle
  refine ite_canonical (foldl_canonical (fun _ _ _ => memberRow_canonical) h) ?_
  refine stopMint_canonical (modMint_canonical (foldl_canonical (fun _ _ _ h => memberRow_canonical h) ?_))
  exact foldl_canonical (fun _ _ _ => memberRow_canonical) h

theorem caughtUp_canonical {d : Nat} {m : Mint} (h : Canonical s) : Canonical (caughtUp d m s) :=
  foldl_range_canonical (fun _ _ h => ite_canonical h (rowCycle_canonical h)) h

theorem holdSet_canonical {d : Nat} {m : Mint} (h : Canonical s) : Canonical (holdSet d m s) :=
  ite_canonical h (ite_canonical (caughtUp_canonical h) (modMint_canonical (caughtUp_canonical h)))

theorem setStalls_canonical {xs : List (Nat × BitVec 128)} (h : Canonical s) (ht : setStalls xs s = some t) : Canonical t := by
  unfold setStalls at ht
  obtain ⟨x, -, hx⟩ := List.exists_of_findSome?_eq_some ht
  dsimp only at hx
  split at hx
  · cases hx
  · exact Option.some.inj hx ▸ memberRow_canonical h

end Sys2Proof.Machine
end

section
/-! PROOF. What the Vaults, the management controller, boot, error records and the host's masters do keeps memory canonical. -/
set_option Elab.async false
namespace Sys2Proof.Machine

variable {s t : State}

/-- An optional next state holds canonical memory. -/
def CanonicalIfSome (o : Option State) : Prop := ∀ t, o = some t → Canonical t

/-! ## The Vaults -/

theorem applyHeld_canonical {v : Nat} {w : HeldWrite} (h : Canonical s) : CanonicalIfSome (applyHeld v w s) := by
  intro t ht
  unfold applyHeld at ht
  dsimp only at ht
  split at ht
  · exact Option.some.inj ht ▸ h
  split at ht
  · exact Option.some.inj ht ▸ releaseHeld_canonical h
  split at ht
  · cases hr : restoreNow (w.line / 128) s with
    | some u =>
      rw [hr] at ht
      exact Option.some.inj ht ▸ restoreNow_canonical h hr
    | none =>
      rw [hr] at ht
      simp only [Option.orElse_none] at ht
      split at ht
      · exact Option.some.inj ht ▸ releaseHeld_canonical h
      · cases ht
  · split at ht
    · exact Option.some.inj ht ▸ releaseHeld_canonical h
    · cases ht

theorem applyAll_canonical {v : Nat} {ws : List HeldWrite} (h : Canonical s) : Canonical (applyAll v ws s) := by
  induction ws generalizing s with
  | nil => exact h
  | cons w ws ih =>
    unfold applyAll
    split
    next t ht => exact ih (applyHeld_canonical h t ht)
    next => exact h

theorem takeDonation_canonical {v f : Nat} (h : Canonical s) : Canonical (takeDonation v f s) := by
  unfold takeDonation
  exact dropHeld_canonical h

theorem passEnds_canonical {v : Nat} (h : Canonical s) : Canonical (passEnds v s) := decideSpace_canonical h

theorem demoteFrame_canonical {f : Nat} (h : Canonical s) : Canonical (demoteFrame f s) := by
  unfold demoteFrame
  dsimp only
  exact ite_canonical h (dropHeld_canonical h)

theorem resumeEngine_canonical {v : Nat} (h : Canonical s) : Canonical (resumeEngine v s) := h

theorem placeRaw_canonical {m : Nat} (h : Canonical s) : CanonicalIfSome (placeRaw m s) := fun _ ht => h.of_mem (placeRaw_same ht).1

theorem installFrame_canonical {f : Nat} {e : W64} (h : Canonical s) : CanonicalIfSome (installFrame f e s) := by
  intro t ht
  obtain ⟨u, hu, rfl⟩ := Option.map_eq_some_iff.mp ht
  exact setFrame_canonical (placeRaw_canonical h u hu)

theorem placeCompressed_canonical {f p r v : Nat} {x : Nat × State} (h : Canonical s) (hx : placeCompressed f p r v s = some x) :
    Canonical x.2 := by
  unfold placeCompressed at hx
  dsimp only at hx
  split at hx
  · cases hx
  · obtain ⟨y, -, rfl⟩ := Option.map_eq_some_iff.mp hx
    exact h

theorem strikeRow_canonical {r : Nat} (h : Canonical s) : Canonical (strikeRow s r) := h.of_mem (strikeRow_builds s r).mem

theorem leaveRaw_canonical {e : W64} (h : Canonical s) : Canonical (leaveRaw e s) := h.of_mem (leaveRaw_builds e s).mem

theorem splitAt_canonical {f : Nat} (h : Canonical s) : Canonical (splitAt f s) := h

theorem releasePool_canonical {f : Nat} (h : Canonical s) : Canonical (releasePool f s) := by
  unfold releasePool
  dsimp only
  exact ite_canonical h (ite_canonical (dropHeld_canonical h) (leaveRaw_canonical h))

theorem moveFrame_canonical {f : Nat} (h : Canonical s) : Canonical (moveFrame f s) := by
  unfold moveFrame
  dsimp only
  split
  · exact h
  · split
    next t ht => exact bump_canonical (leaveRaw_canonical (placeRaw_canonical h t ht))
    next => exact h

theorem retireRow_canonical {r : Nat} (h : Canonical s) : Canonical (retireRow s r) := by
  unfold retireRow
  exact ite_canonical h (strikeRow_canonical (each_canonical (fun _ _ => moveFrame_canonical) h))

theorem revokeFrame_canonical {f : Nat} (h : Canonical s) : Canonical (revokeFrame f s) := by
  unfold revokeFrame
  refine foldl_canonical (fun _ _ _ => retireRow_canonical) ?_
  exact Canonical.of_mem (releasePool_canonical (f := f) (splitAt_canonical h)) rfl

theorem buildPage_canonical {v f size u : Nat} (h : Canonical s) : CanonicalIfSome (buildPage v f size u s) := by
  intro t ht
  unfold buildPage at ht
  dsimp only at ht
  split at ht
  · split at ht
    · cases ht
    · refine Option.some.inj ht ▸ foldl_canonical (fun _ _ _ => leaveRaw_canonical) ?_
      exact h
  · cases ht

/-! ## The management controller -/

/-- What one frame of a grant changes before its place is taken. -/
theorem grantFrame_canonical {r : GrantReq} {i : Nat} (h : Canonical s) : CanonicalIfSome (grantFrame r s i) := by
  intro t ht
  unfold grantFrame at ht
  dsimp only at ht
  generalize hu : (if r.zero = true then _ else _ : State) = u at ht
  have hc : Canonical u := by
    subst hu
    exact ite_canonical (zeroFrame_canonical (ite_canonical h h)) (ite_canonical h h)
  split at ht
  · split at ht
    · cases ht
    · exact Option.some.inj ht ▸ hc
  · split at ht
    · obtain ⟨x, hx, rfl⟩ := Option.map_eq_some_iff.mp ht
      exact setFrame_canonical (placeCompressed_canonical hc hx)
    · obtain ⟨x, hx, rfl⟩ := Option.map_eq_some_iff.mp ht
      exact setFrame_canonical (placeRaw_canonical hc x hx)

theorem grantFrames_canonical {r : GrantReq} {l : List Nat} {o : Option State} (h : CanonicalIfSome o) :
    CanonicalIfSome (l.foldl (fun acc i => acc.bind fun s => grantFrame r s i) o) := by
  induction l generalizing o with
  | nil => exact h
  | cons i l ih =>
    refine ih fun t ht => ?_
    obtain ⟨u, hu, hg⟩ := Option.bind_eq_some_iff.mp ht
    exact grantFrame_canonical (h u hu) t hg

theorem measurePart_canonical {p : Nat} (h : Canonical s) : Canonical (measurePart p s) := h

theorem clearArrays_canonical {cl : Nat} (h : Canonical s) : Canonical (clearArrays cl s) :=
  each_canonical (fun _ _ h => h) (each_canonical (fun _ _ h => h) h)

theorem giveCluster_canonical {p cl : Nat} (h : Canonical s) : Canonical (giveCluster p cl s) := ite_canonical h (clearArrays_canonical h)

theorem discardTasks_canonical {p : Nat} (h : Canonical s) : Canonical (discardTasks p s) := by
  unfold discardTasks
  exact each_canonical (fun _ _ => endLaunch_canonical) h

theorem scrubCluster_canonical {cl : Nat} (h : Canonical s) : Canonical (scrubCluster cl s) := by
  unfold scrubCluster
  exact each_canonical (fun _ _ h => h) (modCluster_canonical (clearArrays_canonical (closeSession_canonical h)))

theorem resetPartition_canonical {p : Nat} (h : Canonical s) : Canonical (resetPartition p s) := by
  unfold resetPartition
  refine Canonical.of_mem (each_canonical (fun _ _ => scrubCluster_canonical) (discardTasks_canonical (p := p) ?_)) rfl
  exact Canonical.of_mem (each_canonical (fun _ _ => dropClaims_canonical) h) rfl

theorem substitute_canonical {cl : Nat} (h : Canonical s) : Canonical (substitute cl s) := by
  unfold substitute
  dsimp only
  split <;> exact h

theorem enginePause_canonical (h : Canonical s) : Canonical (enginePause s) :=
  Canonical.of_mem (each_canonical (fun _ _ h => charge_canonical (modCtx_canonical h)) h) rfl

/-! ## Boot -/

/-- A module reset leaves memory that lists nothing. -/
theorem afterReset_canonical : Canonical (afterReset s) := rfl

theorem failStart_canonical {r : Nat} (h : Canonical s) : Canonical (failStart r s) := h

theorem bootStage_canonical {i : Nat} {f : FwImage} (h : Canonical s) : Canonical (bootStage s i f) := by
  unfold bootStage
  split
  · exact h
  · dsimp only
    split <;> exact h

theorem bootModule_canonical {p : Parts} {l : List FwImage} : Canonical (bootModule p l s) := by
  have h : Canonical (romRuns (trained p (afterReset s))) := afterReset_canonical (s := s)
  unfold bootModule
  exact ite_canonical h (ite_canonical h (foldl_range_canonical (fun _ _ => bootStage_canonical) h))

/-! ## Error records -/

theorem rowError_canonical {a : Nat} (h : Canonical s) : Canonical (rowError a s) := by
  unfold rowError
  split
  · exact h
  · exact ite_canonical (retireRow_canonical h) h

theorem sramError_canonical {cl : Nat} (h : Canonical s) : Canonical (sramError cl s) := by
  unfold sramError
  exact ite_canonical h h

theorem correctedError_canonical {st pl a : Nat} {p : Option Nat} (h : Canonical s) : Canonical (correctedError st pl a p s) := by
  have hr : Canonical (errorRecord 0 st p pl (BitVec.ofNat 64 a) s) := errorRecord_canonical h
  unfold correctedError
  exact ite_canonical (rowError_canonical hr) (ite_canonical (sramError_canonical hr) (ite_canonical (sramError_canonical hr) hr))

theorem rowBroken_canonical {a : Nat} (h : Canonical s) : Canonical (rowBroken a s) := by
  unfold rowBroken
  split <;> [exact h; exact ite_canonical h h]

theorem poisonSectors_canonical {l : List Nat} (h : Canonical s) : Canonical (poisonSectors l s) := h

theorem memoryError_canonical {st k : Nat} (h : Canonical s) : Canonical (memoryError st k s) :=
  errorRecord_canonical (rowBroken_canonical (poisonSectors_canonical h))

theorem closeClusters_canonical {l : List Nat} (h : Canonical s) : Canonical (closeClusters l s) := each_canonical (fun _ _ h => h) h

theorem internalFreeze_canonical {st g : Nat} (h : Canonical s) : Canonical (internalFreeze st g s) := by
  unfold internalFreeze
  refine ite_canonical h (errorRecord_canonical (modCtx_canonical (elsewhere_canonical (fun _ => takeTrap_canonical) ?_)))
  exact h

theorem internalFreezes_canonical {st : Nat} {l : List Nat} (h : Canonical s) : Canonical (internalFreezes st l s) :=
  each_canonical (fun _ _ => stopMint_canonical) (each_canonical (fun _ _ => internalFreeze_canonical) h)

theorem softError_canonical {e : SoftErr} (h : Canonical s) : Canonical (softError e s) := by
  cases e with
  | corrected => exact correctedError_canonical h
  | poisonDp => exact memoryError_canonical h
  | poisonChunk => exact errorRecord_canonical (rowBroken_canonical (poisonSectors_canonical h))
  | poisonMeta => exact errorRecord_canonical (poisonSectors_canonical h)
  | poisonScratch => exact errorRecord_canonical (modCtx_canonical h)
  | poisonCsram => exact errorRecord_canonical (modGroup_canonical h)
  | poisonTile => exact errorRecord_canonical (modTile_canonical h)
  | internalCtx => exact closeClusters_canonical (internalFreezes_canonical h)
  | internalPair => exact closeClusters_canonical (internalFreezes_canonical h)
  | internalMint =>
    unfold softError
    dsimp only
    split <;> [exact internalFreezes_canonical h; exact h]
  | internalDie => exact closeClusters_canonical (internalFreezes_canonical h)
  | internalVault => exact internalFreezes_canonical h

/-! ## The host, remote masters and general cores -/

theorem hartViolation_canonical {k c a : Nat} (h : Canonical s) : Canonical (hartViolation k c a s) := h

theorem claimFor_canonical {x : Source} {u : State} (h : Canonical t) : Canonical (claimFor x u t) := ite_canonical h h

theorem finish_canonical {src : Answer → Source} {ans : Answer} {u : State} (h : Canonical t) : Canonical (finish src ans u t) :=
  Canonical.of_mem (claimFor_canonical (x := src ans) h) rfl

theorem remoteViolation_canonical {n g c a : Nat} (h : Canonical s) : Canonical (remoteViolation n g c a s) := h

/-- The state in which an access of another master leaves the machine. -/
def Went.State? : Went → Option State
  | .performed s => some s
  | .waiting s => some s
  | .absent => none
  | .noSpace => none

theorem performed_canonical (h : Canonical s) : CanonicalIfSome (Went.performed s).State? := fun _ ht => Option.some.inj ht ▸ h

theorem waiting_canonical (h : Canonical s) : CanonicalIfSome (Went.waiting s).State? := fun _ ht => Option.some.inj ht ▸ h

theorem ite_went {c : Prop} [Decidable c] {x y : Went} (hx : CanonicalIfSome x.State?) (hy : CanonicalIfSome y.State?) :
    CanonicalIfSome (if c then x else y).State? := by
  split <;> assumption

theorem noSpace_canonical : CanonicalIfSome Went.noSpace.State? := fun _ ht => absurd ht.symm (Option.some_ne_none _)

theorem absent_canonical : CanonicalIfSome Went.absent.State? := fun _ ht => absurd ht.symm (Option.some_ne_none _)

/-- The report of poisoned data, and the answer after it. -/
theorem reported_canonical {o : Option Nat} {f : Nat → Option Nat} (h : Canonical s) :
    Canonical (o.elim s fun x => noteSector (f x) s x) := by
  cases o <;> [exact h; exact noteSector_canonical h]

theorem dpAccess_canonical {src : Answer → Source} {a : Access} {pa : Nat} (h : Canonical s) : CanonicalIfSome (dpAccess src a pa s).State? := by
  have ht : Canonical (s.each (accFrames a pa) touchFrame) := each_canonical (fun _ _ => touchFrame_canonical) h
  obtain ⟨kind, addr, size, data, poison⟩ := a
  unfold dpAccess
  refine ite_went absent_canonical ?_
  dsimp only
  cases List.findSome? _ _ with
  | some f =>
    exact ite_went (ite_went noSpace_canonical (waiting_canonical h)) (waiting_canonical (restoreFrame_canonical h))
  | none =>
    dsimp only
    generalize (if List.any _ _ = true then some pa else _ : Option Nat) = o
    have hr := reported_canonical (o := o) (f := framePart (s.each (accFrames ⟨kind, addr, size, data, poison⟩ pa) touchFrame)) ht
    cases kind with
    | read =>
      refine performed_canonical ?_
      cases o <;> exact hr
    | write =>
      refine ite_went (performed_canonical ?_) (ite_went noSpace_canonical
        (performed_canonical (finish_canonical (ite_canonical (poisonPlace_canonical (writeBack_canonical ht)) (writeBack_canonical ht)))))
      cases o <;> exact hr
    | atomicAdd =>
      refine ite_went (performed_canonical ?_) (ite_went noSpace_canonical (performed_canonical (finish_canonical (writeDp_canonical ht))))
      cases o <;> exact hr

theorem remoteServe_canonical {src : Answer → Source} {n g : Nat} {a : Access} (h : Canonical s) : Canonical (remoteServe src n g a s) := by
  have hd := dpAccess_canonical (src := src) (a := a) (pa := s.regs.exportBase + a.addr) h
  unfold remoteServe
  refine ite_canonical h (ite_canonical (remoteViolation_canonical h) ?_)
  dsimp only
  refine ite_canonical (remoteViolation_canonical h) ?_
  generalize dpAccess src a (s.regs.exportBase + a.addr) s = w at hd ⊢
  cases w with
  | performed t => exact hd t rfl
  | absent => exact h
  | noSpace => exact h
  | waiting t => exact Canonical.of_mem (hd t rfl) rfl

theorem lostRequest_canonical {k p : Nat} {a : Access} (h : Canonical s) : Canonical (lostRequest k p a s) :=
  Canonical.of_mem (errorRecord_canonical h) rfl

theorem sendRequest_canonical {k p d : Nat} {a : Access} (h : Canonical s) : Canonical (sendRequest k p d a s) :=
  ite_canonical (lostRequest_canonical h) (ite_canonical h h)

theorem gcRegion_canonical {k p : Nat} {r : Region} {a : Access} (h : Canonical s) : Canonical (gcRegion k p r a s) := by
  cases r with
  | device pa =>
    have hd := dpAccess_canonical (src := .hart k) (a := a) (pa := pa) h
    unfold gcRegion
    refine ite_canonical (hartViolation_canonical h) ?_
    generalize dpAccess (.hart k) a pa s = w at hd ⊢
    cases w with
    | performed t => exact hd t rfl
    | absent => exact h
    | noSpace => exact h
    | waiting t => exact Canonical.of_mem (hd t rfl) rfl
  | aperture d off =>
    unfold gcRegion
    refine ite_canonical (Canonical.of_mem (errorRecord_canonical h) rfl) (ite_canonical ?_ (sendRequest_canonical h))
    exact ite_canonical (hartViolation_canonical h) (remoteServe_canonical h)
  | _ =>
    obtain ⟨kind, addr, size, data, poison⟩ := a
    unfold gcRegion
    refine ite_canonical (hartViolation_canonical h) ?_
    cases kind <;> exact h

/-- What an access of a general core does, by the region it reaches and the partition of the core. -/
def gcServed (k : Nat) (a : Access) (p : Option Nat) (s : State) : Option Region → State
  | none => hartViolation k 0x04 a.addr s
  | some r => match p with
    | none => hartViolation k 0x05 a.addr s
    | some p => if !regionRuns s r then { s with answer := .unsupported } else gcRegion k p r a s

theorem gcServed_canonical {k : Nat} {a : Access} {p : Option Nat} {o : Option Region} (h : Canonical s) : Canonical (gcServed k a p s o) := by
  cases o with
  | none => exact h
  | some r => cases p <;> [exact h; exact ite_canonical h (gcRegion_canonical h)]

theorem gcAccess_canonical {k : Nat} {a : Access} (h : Canonical s) : Canonical (gcAccess k a s) := by
  have hg := gcServed_canonical (k := k) (a := a) (p := (s.hart k).part) (o := regionOf a.addr a.size) h
  unfold gcAccess
  refine ite_canonical h ?_
  dsimp only
  cases hr : regionOf a.addr a.size with
  | none =>
    rw [hr] at hg
    exact Canonical.of_mem hg rfl
  | some r =>
    rw [hr] at hg
    cases hp : (s.hart k).part <;> (rw [hp] at hg; exact Canonical.of_mem hg rfl)

theorem hostViolation_canonical {vf : Option (Fin 1024)} {pa : Nat} (h : Canonical s) : Canonical (hostViolation vf pa s) := h

theorem answerRequest_canonical {r : PortReq} {x : BitVec 512} {q : Bool} (h : Canonical s) : Canonical (answerRequest r x q s) :=
  Canonical.of_mem (ite_canonical (errorRecord_canonical h) h) rfl

theorem deliverFlit_canonical {n : Nat} {b : FlitBody} (h : Canonical s) : Canonical (deliverFlit n b s) := by
  unfold deliverFlit
  split
  · exact h
  · exact h
  · exact h
  · split <;> [exact answerRequest_canonical h; exact h]

/-! ## Host registers and descriptors -/

theorem tailWrite_canonical {v q : Nat} {x : W32} (h : Canonical s) : Canonical (tailWrite v q x s) := h

theorem cfgWrite_canonical {v q : Nat} {x : W64} (h : Canonical s) : Canonical (cfgWrite v q x s) := h

theorem setShare_canonical {v : Nat} {x : W64} (h : Canonical s) : Canonical (setShare v x s) := ite_canonical h h

theorem setPower_canonical {x : W64} (h : Canonical s) : Canonical (setPower x s) := ite_canonical h h

theorem pfWrite_canonical {off : Nat} {x : W64} (h : Canonical s) : Canonical (pfWrite off x s) :=
  ite_canonical (setPower_canonical h) (ite_canonical (setShare_canonical h) h)

theorem baseWrite_canonical {v q : Nat} {x : W64} (h : Canonical s) : Canonical (baseWrite v q x s) := ite_canonical h h

theorem vfWrite_canonical {v off : Nat} {x : W64} (h : Canonical s) : Canonical (vfWrite v off x s) := by
  unfold vfWrite
  refine ite_canonical h ?_
  split <;> [exact baseWrite_canonical h; exact h; exact h; exact h]

theorem of_ite_eq {α : Type} {c : Prop} [Decidable c] {x y z : α} (h : (if c then x else y) = z) : x = z ∨ y = z := by
  split at h <;> [exact .inl h; exact .inr h]

theorem frameWaiter_canonical {g : Nat} {c : Ctx} {b : Bool} {put : Ctx → State → State} {u : State}
    (hw : frameWaiter u g = some (c, b, put)) (k : Ctx) (h : Canonical s) : Canonical (put k s) := by
  unfold frameWaiter at hw
  rcases of_ite_eq hw with hw | hw
  · cases hw
    exact h
  · obtain ⟨x, -, hx⟩ := Option.map_eq_some_iff.mp hw
    cases hx
    exact h

end Sys2Proof.Machine
end

section
/-! PROOF. The events of the engines, of landings, launches, dispatch and the Mint keep memory canonical. -/
set_option Elab.async false
namespace Sys2Proof.Machine

variable {s t : State}

/-- The next state of an outcome, if there is one, holds canonical memory. -/
def NextCanonical (o : Host.Outcome State Fault Refusal) : Prop := ∀ t, o = .next t → Canonical t

theorem next_canonical (h : Canonical t) : NextCanonical (.next t) := fun _ ht => Host.Outcome.next.inj ht ▸ h

theorem ite_next {c : Prop} [Decidable c] {x y : Host.Outcome State Fault Refusal} (hx : NextCanonical x) (hy : NextCanonical y) :
    NextCanonical (if c then x else y) := by
  split <;> assumption

/-! ## Engines -/

section
variable {core : Fin 4096} {k : Fin 8} {ctx : Fin 16384}

theorem execTileLoadComplete_canonical (h : Canonical s) : NextCanonical (execTileLoadComplete core k s) := by
  refine next_canonical ?_
  split <;> [exact ite_canonical h (drainLate_canonical (popXferQ_canonical h)); exact h]

theorem execBulkStoreComplete_canonical (h : Canonical s) : NextCanonical (execBulkStoreComplete core k s) := by
  refine next_canonical ?_
  split <;> [exact ite_canonical (drainLate_canonical (popXferQ_canonical h)) h; exact h]

theorem execCopyComplete_canonical {cl : Fin 512} {k : Fin 32} (h : Canonical s) : NextCanonical (execCopyComplete cl k s) := by
  refine next_canonical ?_
  split <;> [exact ite_canonical (drainLate_canonical (copyEnd_canonical h)) h; exact h]

theorem execXfuOpEnd_canonical {cl : Fin 512} {u : Fin 4} (h : Canonical s) : NextCanonical (execXfuOpEnd cl u s) := by
  refine next_canonical ?_
  split <;> [exact drainLate_canonical (xfuEnd_canonical h); exact h]

theorem execArrayWindow_canonical {pr : Fin 2048} (h : Canonical s) : NextCanonical (execArrayWindow pr s) := next_canonical (ite_canonical h h)

theorem execMemoryDataReturn_canonical {n : Nat} (h : Canonical s) : NextCanonical (execMemoryDataReturn ctx n s) :=
  next_canonical (ite_canonical (charge_canonical h) h)

theorem execWatchdog_canonical (h : Canonical s) : NextCanonical (execWatchdog ctx s) := next_canonical (ite_canonical (atBoundary_canonical h) h)

theorem execArbmodeWrite_canonical {x : W64} (h : Canonical s) : NextCanonical (execArbmodeWrite ctx x s) :=
  next_canonical (ite_canonical (arrayProgress_canonical h) (ite_canonical h (elsewhere_canonical (fun _ => takeTrap_canonical) h)))

theorem execTileStatusValid_canonical {n : Fin 32} (h : Canonical s) : NextCanonical (execTileStatusValid ctx n s) :=
  next_canonical (ite_canonical h h)

theorem execInstructionFetchFault_canonical (h : Canonical s) : NextCanonical (execInstructionFetchFault ctx s) := by
  refine next_canonical ?_
  split <;> [exact ite_canonical (elsewhere_canonical (fun _ => takeTrap_canonical) h) h; exact h]

theorem execPreemptStop_canonical (h : Canonical s) : NextCanonical (execPreemptStop ctx s) := by
  refine next_canonical ?_
  split <;> [exact saveStep_canonical h; exact saveStep_canonical h; exact ite_canonical (atBoundary_canonical h) h]

theorem execFrameRestore_canonical {f : Nat} (h : Canonical s) : NextCanonical (execFrameRestore f s) :=
  next_canonical (ite_canonical (restoreFrame_canonical h) h)

end

/-! ## Launches and groups -/

theorem execLaunchStart_canonical {k : Nat} (h : Canonical s) : NextCanonical (execLaunchStart k s) := by
  unfold execLaunchStart
  split <;> [exact next_canonical (ite_canonical (modLaunch_canonical h) h); exact next_canonical h]

theorem execGroupComplete_canonical {k : Nat} (h : Canonical s) : NextCanonical (execGroupComplete k s) := by
  unfold execGroupComplete
  split
  · exact next_canonical h
  · exact ite_next (next_canonical h) (next_canonical (modLaunch_canonical (releaseGroup_canonical h)))

theorem execLaunchComplete_canonical {k : Nat} (h : Canonical s) : NextCanonical (execLaunchComplete k s) := by
  unfold execLaunchComplete
  split <;> [exact next_canonical (ite_canonical (endLaunch_canonical h) h); exact next_canonical h]

theorem execGroupResume_canonical {k : Nat} (h : Canonical s) : NextCanonical (execGroupResume k s) := by
  refine next_canonical (ite_canonical h (ite_canonical (settleGains_canonical (resumeGroup_canonical h)) (ite_canonical h ?_)))
  split <;> [exact preemptGroup_canonical h; exact h]

theorem execLaunchAccept_canonical (h : Canonical s) : NextCanonical (execLaunchAccept s) := by
  unfold execLaunchAccept
  split
  · dsimp only
    split
    · exact next_canonical h
    · refine ite_next (next_canonical h) (next_canonical ?_)
      split <;> [exact cpWrite_canonical (noteDescriptor_canonical h); exact noteDescriptor_canonical h]
  · exact next_canonical h

theorem execGroupPlace_canonical (h : Canonical s) : NextCanonical (execGroupPlace s) := by
  unfold execGroupPlace
  split
  · split
    · exact next_canonical h
    · refine ite_next (next_canonical h) (ite_next (next_canonical (modLaunch_canonical h)) (ite_next (next_canonical h) ?_))
      split <;> [exact next_canonical h; exact next_canonical (placeChecked_canonical h)]
  · exact next_canonical h

theorem execCollectiveStart_canonical (h : Canonical s) : NextCanonical (execCollectiveStart s) := by
  unfold execCollectiveStart
  split
  · dsimp only
    split
    · exact next_canonical h
    · refine ite_next (next_canonical h) (next_canonical ?_)
      split <;> [exact cpWrite_canonical (noteDescriptor_canonical h); exact noteDescriptor_canonical h]
  · exact next_canonical h

theorem execCollectiveComplete_canonical (h : Canonical s) : NextCanonical (execCollectiveComplete s) := by
  unfold execCollectiveComplete
  split
  · split
    · exact next_canonical h
    · split
      · exact next_canonical h
      · exact next_canonical (ite_canonical h (endCollective_canonical (putResult_canonical (cpNote_canonical h))))
  · exact next_canonical h

theorem execQuantumBoundary_canonical (h : Canonical s) : NextCanonical (execQuantumBoundary s) := by
  refine next_canonical (ite_canonical h (Canonical.of_mem (each_canonical (fun cl s h => ?_) h) rfl))
  have hs : Canonical (spentTest cl (if (s.cluster cl).gainDue.isSome then addGains cl s else s)) :=
    spentTest_canonical (ite_canonical (addGains_canonical h) h)
  exact ite_canonical hs (addGains_canonical hs)

theorem execTreasuryClose_canonical (h : Canonical s) : NextCanonical (execTreasuryClose s) := by
  unfold execTreasuryClose
  split <;> exact next_canonical h

theorem execHandleRegister_canonical (h : Canonical s) : NextCanonical (execHandleRegister s) := by
  unfold execHandleRegister
  split <;> [exact next_canonical (ite_canonical h h); exact next_canonical h]

theorem execHandleRemove_canonical (h : Canonical s) : NextCanonical (execHandleRemove s) := by
  unfold execHandleRemove
  split <;> exact next_canonical h

/-! ## The Mint -/

section
variable {die : Fin 64}

theorem execMintRowSend_canonical (h : Canonical s) : NextCanonical (execMintRowSend die s) := by
  unfold execMintRowSend
  dsimp only
  split
  · exact next_canonical h
  next m hm =>
    have ht : Canonical (s.each m.members takeRefills) := each_canonical (fun _ _ => takeRefills_canonical) h
    refine ite_next (next_canonical h) (ite_next (next_canonical (holdSet_canonical ht)) ?_)
    split
    next u hu => exact next_canonical (setStalls_canonical ht hu)
    next =>
      have hr : Canonical (rowCycle die.val m.cycle (s.each m.members takeRefills)) := rowCycle_canonical ht
      exact ite_next (next_canonical hr) (ite_next (next_canonical (modMint_canonical hr)) (next_canonical (holdSet_canonical ht)))

theorem execStreamHoldRelease_canonical (h : Canonical s) : NextCanonical (execStreamHoldRelease die s) := by
  unfold execStreamHoldRelease
  split <;> [exact next_canonical h; exact next_canonical (ite_canonical (modMint_canonical h) h)]

theorem execMintIterationBoundary_canonical (h : Canonical s) : NextCanonical (execMintIterationBoundary die s) := by
  unfold execMintIterationBoundary
  dsimp only
  split
  · exact next_canonical h
  · refine ite_next (next_canonical h) (ite_next (next_canonical ?_) (ite_next (next_canonical h) (next_canonical h)))
    exact each_canonical (fun g _ => elsewhere_canonical (g := g) fun _ => stopForSave_canonical) (modMint_canonical h)

theorem execMintMicrocodeReplace_canonical (h : Canonical s) : NextCanonical (execMintMicrocodeReplace s) := by
  unfold execMintMicrocodeReplace
  split <;> [exact next_canonical (ite_canonical h h); exact next_canonical h]

theorem execMailboxSeqWrite_canonical (h : Canonical s) : NextCanonical (execMailboxSeqWrite s) := by
  unfold execMailboxSeqWrite
  split
  · exact next_canonical (ite_canonical h (ite_canonical (mintStore_canonical h) (elsewhere_canonical (fun _ => takeTrap_canonical) h)))
  · exact next_canonical h

theorem execMailboxGrant_canonical (h : Canonical s) : NextCanonical (execMailboxGrant s) := by
  unfold execMailboxGrant
  split
  · refine next_canonical (ite_canonical h ?_)
    split <;> [exact h; exact ite_canonical h h]
  · exact next_canonical h

theorem execMicrostoreImageLoad_canonical (h : Canonical s) : NextCanonical (execMicrostoreImageLoad s) := by
  unfold execMicrostoreImageLoad
  split
  · exact next_canonical (ite_canonical h (ite_canonical h (loadImage_canonical h)))
  · exact next_canonical h

theorem execBucketTableLoad_canonical (h : Canonical s) : NextCanonical (execBucketTableLoad s) := by
  unfold execBucketTableLoad
  split
  · split <;> [exact next_canonical h; exact next_canonical (ite_canonical h (modMint_canonical h))]
  · exact next_canonical h

theorem execMintSetLoad_canonical (h : Canonical s) : NextCanonical (execMintSetLoad s) := by
  unfold execMintSetLoad
  split
  · split
    · exact next_canonical h
    · exact ite_next (next_canonical h) (next_canonical (modDie_canonical (each_canonical (fun _ _ h => h) h)))
  · exact next_canonical h

end

end Sys2Proof.Machine
end

section
/-! PROOF. The events of hosts, Vaults, management and boot keep memory canonical, and so does every step (log 1). -/
set_option Elab.async false
namespace Sys2Proof.Machine

variable {s t : State}

theorem getD_canonical {o : Option State} (ho : CanonicalIfSome o) (h : Canonical s) : Canonical (o.getD s) := by
  cases o <;> [exact h; exact ho _ rfl]

/-! ## Host registers, memory and ports -/

theorem execQtailWrite_canonical (h : Canonical s) : NextCanonical (execQtailWrite s) := by
  unfold execQtailWrite
  split <;> [exact next_canonical (tailWrite_canonical h); exact next_canonical h]

theorem execQcfgWrite_canonical (h : Canonical s) : NextCanonical (execQcfgWrite s) := by
  unfold execQcfgWrite
  split <;> [exact next_canonical (cfgWrite_canonical h); exact next_canonical h]

theorem execShareWrite_canonical (h : Canonical s) : NextCanonical (execShareWrite s) := by
  unfold execShareWrite
  split <;> [exact next_canonical (setShare_canonical h); exact next_canonical h]

theorem execPwrctlWrite_canonical (h : Canonical s) : NextCanonical (execPwrctlWrite s) := by
  unfold execPwrctlWrite
  split <;> [exact next_canonical (setPower_canonical h); exact next_canonical h]

theorem execRegisterWrite_canonical (h : Canonical s) : NextCanonical (execRegisterWrite s) := by
  unfold execRegisterWrite
  split
  next fn off n val hr =>
    refine next_canonical (ite_canonical h ?_)
    cases fn <;> [exact Canonical.of_mem (pfWrite_canonical h) rfl; exact Canonical.of_mem (vfWrite_canonical h) rfl]
  next => exact next_canonical (ite_canonical h h)
  next => exact next_canonical h

theorem execGeneralCoreAccess_canonical (h : Canonical s) : NextCanonical (execGeneralCoreAccess s) := by
  unfold execGeneralCoreAccess
  split <;> [exact next_canonical (gcAccess_canonical h); exact next_canonical h]

theorem execHostMemoryRequest_canonical (h : Canonical s) : NextCanonical (execHostMemoryRequest s) := by
  unfold execHostMemoryRequest
  split
  next vf a hr =>
    have hd := dpAccess_canonical (src := .door) (a := a) (pa := a.addr) h
    refine next_canonical (ite_canonical h (ite_canonical (hostViolation_canonical h) ?_))
    generalize dpAccess .door a a.addr s = w at hd ⊢
    cases w with
    | performed t => exact hd t rfl
    | absent => exact h
    | noSpace => exact hostViolation_canonical h
    | waiting t => exact Canonical.of_mem (hd t rfl) rfl
  next => exact next_canonical h

theorem execRemoteRequest_canonical (h : Canonical s) : NextCanonical (execRemoteRequest s) := by
  unfold execRemoteRequest
  split <;> [exact next_canonical (remoteServe_canonical h); exact next_canonical h]

theorem execWalvoFlitReceive_canonical (h : Canonical s) : NextCanonical (execWalvoFlitReceive s) := by
  unfold execWalvoFlitReceive
  split
  · refine next_canonical (ite_canonical h (deliverFlit_canonical ?_))
    exact h
  · exact next_canonical h

theorem execPortDown_canonical (h : Canonical s) : NextCanonical (execPortDown s) := by
  unfold execPortDown
  split
  · refine next_canonical (ite_canonical (foldl_canonical (fun _ _ _ => lostRequest_canonical) ?_) h)
    exact h
  · exact next_canonical h

theorem execPortRetrainComplete_canonical (h : Canonical s) : NextCanonical (execPortRetrainComplete s) := by
  unfold execPortRetrainComplete
  split <;> [exact next_canonical (ite_canonical h h); exact next_canonical h]

theorem execNodeIdAssign_canonical (h : Canonical s) : NextCanonical (execNodeIdAssign s) := by
  unfold execNodeIdAssign
  split <;> exact next_canonical h

theorem execCommunicatorSet_canonical (h : Canonical s) : NextCanonical (execCommunicatorSet s) := by
  unfold execCommunicatorSet
  split <;> [exact next_canonical (ite_canonical h h); exact next_canonical h]

theorem execFrameService_canonical (h : Canonical s) : NextCanonical (execFrameService s) := by
  unfold execFrameService
  split
  next ctx entry hr =>
    split
    · refine next_canonical ?_
      split <;> [exact getD_canonical (installFrame_canonical h) h; exact h]
    next c saved put hw =>
      dsimp only
      split
      · refine next_canonical ?_
        split
        next t ht => exact frameWaiter_canonical hw _ (installFrame_canonical h t ht)
        next => exact h
      · exact next_canonical (violation_canonical (frameWaiter_canonical hw _ h))
  next => exact next_canonical h

/-! ## The Vaults -/

theorem execHeldWriteApply_canonical {v : Fin 16} (h : Canonical s) : NextCanonical (execHeldWriteApply v s) :=
  next_canonical (decideSpace_canonical (modVault_canonical (applyAll_canonical h)))

theorem execBalloonPass_canonical {v : Fin 16} (h : Canonical s) : NextCanonical (execBalloonPass v s) := by
  refine next_canonical (ite_canonical h (ite_canonical h (ite_canonical h ?_)))
  split
  · exact h
  · split <;> [exact takeDonation_canonical h; exact h]
  · exact ite_canonical h (passEnds_canonical h)
  · split <;> [exact demoteFrame_canonical h; exact passEnds_canonical h]

theorem execVaultLineWrite_canonical (h : Canonical s) : NextCanonical (execVaultLineWrite s) := by
  unfold execVaultLineWrite
  split <;> [exact next_canonical (ite_canonical (writeBack_canonical h) h); exact next_canonical h]

theorem execRatio_canonical (h : Canonical s) : NextCanonical (execRatio s) := by
  unfold execRatio
  split <;> [exact next_canonical (ite_canonical h (each_canonical (fun _ _ h => h) h)); exact next_canonical h]

theorem execDonate_canonical (h : Canonical s) : NextCanonical (execDonate s) := by
  unfold execDonate
  split <;> [exact next_canonical (ite_canonical h (each_canonical (fun _ _ h => h) h)); exact next_canonical h]

theorem execWithdraw_canonical (h : Canonical s) : NextCanonical (execWithdraw s) := by
  unfold execWithdraw
  split <;> [exact next_canonical (ite_canonical h (each_canonical (fun _ _ h => h) h)); exact next_canonical h]

theorem execDemote_canonical (h : Canonical s) : NextCanonical (execDemote s) := by
  unfold execDemote
  split
  · exact next_canonical (ite_canonical h (each_canonical (fun _ _ h => h) (each_canonical (fun _ _ => demoteFrame_canonical) h)))
  · exact next_canonical h

theorem execZeroFrames_canonical (h : Canonical s) : NextCanonical (execZeroFrames s) := by
  unfold execZeroFrames
  split
  · exact next_canonical (ite_canonical h (each_canonical (fun _ _ h => resumeEngine_canonical (zeroFrame_canonical h)) h))
  · exact next_canonical h

theorem execPromote_canonical (h : Canonical s) : NextCanonical (execPromote s) := by
  unfold execPromote
  split <;> [exact next_canonical (ite_canonical h h); exact next_canonical h]

theorem execSplitPage_canonical (h : Canonical s) : NextCanonical (execSplitPage s) := by
  unfold execSplitPage
  split <;> [exact next_canonical (ite_canonical h h); exact next_canonical h]

theorem execPromotionBuildComplete_canonical (h : Canonical s) : NextCanonical (execPromotionBuildComplete s) := by
  unfold execPromotionBuildComplete
  split
  · split
    · exact next_canonical h
    · exact next_canonical (ite_canonical h (ite_canonical h (bump_canonical (getD_canonical (buildPage_canonical h) h))))
  · exact next_canonical h

/-! ## The management controller -/

theorem execClassChange_canonical (h : Canonical s) : NextCanonical (execClassChange s) := by
  unfold execClassChange
  split
  · exact next_canonical (ite_canonical h (each_canonical (fun _ _ h => setClass_canonical (by exact h)) h))
  · exact next_canonical h

theorem execFrameGrant_canonical (h : Canonical s) : NextCanonical (execFrameGrant s) := by
  unfold execFrameGrant
  split
  next r hr =>
    refine next_canonical (ite_canonical h ?_)
    split
    next t ht =>
      have hc := grantFrames_canonical (r := r) (fun _ hu => Option.some.inj hu ▸ h) t ht
      exact each_canonical (fun _ _ => measurePart_canonical) (each_canonical (fun _ _ => resumeEngine_canonical) hc)
    next => exact h
  next => exact next_canonical h

theorem execGrantRevoke_canonical (h : Canonical s) : NextCanonical (execGrantRevoke s) := by
  unfold execGrantRevoke
  split
  · refine next_canonical (ite_canonical h (each_canonical (fun _ _ => measurePart_canonical) ?_))
    refine each_canonical (fun _ _ => resumeEngine_canonical) ?_
    exact each_canonical (fun _ _ => revokeFrame_canonical) h
  · exact next_canonical h

theorem execPartitionCreate_canonical (h : Canonical s) : NextCanonical (execPartitionCreate s) := by
  unfold execPartitionCreate
  split
  · refine next_canonical (ite_canonical h (measurePart_canonical (modPart_canonical ?_)))
    exact each_canonical (fun _ _ h => h) (each_canonical (fun _ _ h => h)
      (each_canonical (fun _ _ => giveCluster_canonical) (each_canonical (fun _ _ h => h) h)))
  · exact next_canonical h

theorem execPartitionReset_canonical (h : Canonical s) : NextCanonical (execPartitionReset s) := by
  unfold execPartitionReset
  split <;> [exact next_canonical (resetPartition_canonical h); exact next_canonical h]

theorem execClusterDrain_canonical (h : Canonical s) : NextCanonical (execClusterDrain s) := by
  unfold execClusterDrain
  split <;> [exact next_canonical (ite_canonical h h); exact next_canonical h]

theorem execSpareSubstitution_canonical (h : Canonical s) : NextCanonical (execSpareSubstitution s) := by
  unfold execSpareSubstitution
  split
  · exact next_canonical (ite_canonical (ite_canonical (substitute_canonical h) h) (ite_canonical h h))
  · exact next_canonical h

theorem execFirmwareUpdate_canonical (h : Canonical s) : NextCanonical (execFirmwareUpdate s) := by
  unfold execFirmwareUpdate
  split <;> [exact next_canonical (ite_canonical h h); exact next_canonical h]

theorem execVaultFirmwareReplace_canonical (h : Canonical s) : NextCanonical (execVaultFirmwareReplace s) := by
  unfold execVaultFirmwareReplace
  split <;> [exact next_canonical (ite_canonical h (enginePause_canonical (modVault_canonical h))); exact next_canonical h]

/-- The parts of a frozen context go to the buffer of its partition. -/
theorem execInspection_canonical (h : Canonical s) : NextCanonical (execInspection s) := by
  unfold execInspection
  split
  · split
    · exact next_canonical h
    · refine ite_next (next_canonical h) (next_canonical (foldl_range_canonical (fun _ _ h => ?_) h))
      dsimp only
      split <;> [exact cpWrite_canonical h; exact h]
  · exact next_canonical h

theorem execWatchdogIntervalSet_canonical (h : Canonical s) : NextCanonical (execWatchdogIntervalSet s) := by
  unfold execWatchdogIntervalSet
  split <;> [exact next_canonical (ite_canonical h h); exact next_canonical h]

theorem execVfWeightSet_canonical (h : Canonical s) : NextCanonical (execVfWeightSet s) := by
  unfold execVfWeightSet
  split <;> [exact next_canonical (ite_canonical h h); exact next_canonical h]

theorem execExportWindowSet_canonical (h : Canonical s) : NextCanonical (execExportWindowSet s) := by
  unfold execExportWindowSet
  split <;> [exact next_canonical (ite_canonical h (ite_canonical h h)); exact next_canonical h]

theorem execDemotionTargetSet_canonical (h : Canonical s) : NextCanonical (execDemotionTargetSet s) := by
  unfold execDemotionTargetSet
  split <;> [exact next_canonical (ite_canonical h h); exact next_canonical h]

theorem execVaultViewSet_canonical (h : Canonical s) : NextCanonical (execVaultViewSet s) := by
  unfold execVaultViewSet
  split <;> exact next_canonical h

/-! ## Boot, errors and SPDM -/

theorem execModuleReset_canonical (h : Canonical s) : NextCanonical (execModuleReset s) := by
  unfold execModuleReset
  split <;> [exact next_canonical bootModule_canonical; exact next_canonical h]

theorem execThermalReset_canonical : NextCanonical (execThermalReset s) := next_canonical (failStart_canonical afterReset_canonical)

theorem execThrottleStep_canonical (h : Canonical s) : NextCanonical (execThrottleStep s) := by
  unfold execThrottleStep
  split
  · exact next_canonical (ite_canonical (failStart_canonical afterReset_canonical) h)
  · exact next_canonical h

theorem execPatrolScrub_canonical (h : Canonical s) : NextCanonical (execPatrolScrub s) := by
  unfold execPatrolScrub
  split
  · refine next_canonical (ite_canonical h ?_)
    split <;> [exact h; exact correctedError_canonical h; exact memoryError_canonical h]
  · exact next_canonical h

theorem execSoftError_canonical (h : Canonical s) : NextCanonical (execSoftError s) := by
  unfold execSoftError
  split <;> [exact next_canonical (ite_canonical (softError_canonical h) h); exact next_canonical h]

theorem execNegotiateAlgorithms_canonical (h : Canonical s) : NextCanonical (execNegotiateAlgorithms s) := by
  unfold execNegotiateAlgorithms
  split <;> [exact next_canonical (ite_canonical h h); exact next_canonical h]

theorem execGetCertificate_canonical (h : Canonical s) : NextCanonical (execGetCertificate s) := by
  unfold execGetCertificate
  split <;> exact next_canonical h

theorem execChallenge_canonical (h : Canonical s) : NextCanonical (execChallenge s) := by
  unfold execChallenge
  split <;> exact next_canonical h

theorem execGetMeasurements_canonical (h : Canonical s) : NextCanonical (execGetMeasurements s) := by
  unfold execGetMeasurements
  split <;> [exact next_canonical (ite_canonical h h); exact next_canonical h]

end Sys2Proof.Machine
end

section
/-! PROOF. Every instruction and every step keeps memory canonical (log 1). -/
set_option Elab.async false
namespace Sys2Proof.Machine

variable {s t : State} {i : Instr}

/-- A slot operation alone in its bundle. -/
theorem slotOperation_canonical (hi : SlotAlone i) (h : Canonical s) : NextCanonical (exec i s) := by
  rw [exec_alone hi]
  refine next_canonical (issueSlots_canonical (fun o ho => ?_) h)
  rw [List.mem_singleton.mp ho]
  rfl

theorem execHdrT_canonical {e : BitVec 1} {k x y z : BitVec 3} {q : BitVec 5} {b : BitVec 3} (h : Canonical s) :
    NextCanonical (execHdrT e k q b x y z s) := by
  refine next_canonical (issueSlots_canonical (fun o ho => ?_) h)
  rw [List.mem_singleton.mp ho]
  rfl

/-- A bundle with no operation in it. -/
theorem noOperation_canonical {stop : Bool} {bad : List Nat} (h : Canonical s) : NextCanonical (.next (issueSlots s.cur stop bad [] s)) :=
  next_canonical (issueSlots_canonical (fun _ ho => absurd ho List.not_mem_nil) h)

/-- A micro-operation, an event of its own, does what it does as the next word of a running call. -/
theorem microOperation_canonical (e : exec i s = .next (runMicro i s)) (h : Canonical s) : NextCanonical (exec i s) := by
  rw [e]
  exact next_canonical (runMicro_canonical h)

theorem exec_canonical (h : Canonical s) : NextCanonical (exec i s) := by
  cases i
  case hdrT => exact execHdrT_canonical h
  case nop | hdrX | vnop | xnop | mnop => exact noOperation_canonical h
  case microNop | feta | fetb | mac | macq | zpc | zacc | drn | setk | microLoop | brz
      | waitt | sigt | xpv => exact microOperation_canonical rfl h
  case fenceRetire | resultLand | ckTagClear | getVersion | getCapabilities | getDigests | spdmUnsupportedRequest => exact next_canonical h
  case runtimeReady | bootTimeout => exact next_canonical (ite_canonical h h)
  case microWordLimit => exact next_canonical (microCut_canonical h)
  case arrayOpStart => exact next_canonical (arrayStart_canonical h)
  case arrayOpComplete => exact next_canonical (arrayEnd_canonical h)
  case tileUnitOpComplete => exact next_canonical (popTileQ_canonical h)
  case indexEngineComplete => exact next_canonical (popIndexQ_canonical h)
  case asortComplete => exact next_canonical (popAssayQ_canonical h)
  case streamElementArrive => exact next_canonical (drainLate_canonical (streamArrive_canonical h))
  case rangeOpComplete => exact next_canonical (rangeEnd_canonical h)
  case unassignedOpcode => exact next_canonical (takeTrap_canonical h)
  case arrayWindow => exact execArrayWindow_canonical h
  case tileLoadComplete => exact execTileLoadComplete_canonical h
  case bulkStoreComplete => exact execBulkStoreComplete_canonical h
  case copyComplete => exact execCopyComplete_canonical h
  case xfuOpEnd => exact execXfuOpEnd_canonical h
  case memoryDataReturn => exact execMemoryDataReturn_canonical h
  case tileStatusValid => exact execTileStatusValid_canonical h
  case watchdog => exact execWatchdog_canonical h
  case arbmodeWrite => exact execArbmodeWrite_canonical h
  case launchStart => exact execLaunchStart_canonical h
  case groupComplete => exact execGroupComplete_canonical h
  case launchComplete => exact execLaunchComplete_canonical h
  case preemptStop => exact execPreemptStop_canonical h
  case groupResume => exact execGroupResume_canonical h
  case mintRowSend => exact execMintRowSend_canonical h
  case streamHoldRelease => exact execStreamHoldRelease_canonical h
  case mintIterationBoundary => exact execMintIterationBoundary_canonical h
  case heldWriteApply => exact execHeldWriteApply_canonical h
  case balloonPass => exact execBalloonPass_canonical h
  case frameRestore => exact execFrameRestore_canonical h
  case instructionFetchFault => exact execInstructionFetchFault_canonical h
  case qtailWrite => exact execQtailWrite_canonical h
  case qcfgWrite => exact execQcfgWrite_canonical h
  case shareWrite => exact execShareWrite_canonical h
  case pwrctlWrite => exact execPwrctlWrite_canonical h
  case registerWrite => exact execRegisterWrite_canonical h
  case launchAccept => exact execLaunchAccept_canonical h
  case groupPlace => exact execGroupPlace_canonical h
  case collectiveStart => exact execCollectiveStart_canonical h
  case collectiveComplete => exact execCollectiveComplete_canonical h
  case quantumBoundary => exact execQuantumBoundary_canonical h
  case treasuryClose => exact execTreasuryClose_canonical h
  case handleRegister => exact execHandleRegister_canonical h
  case handleRemove => exact execHandleRemove_canonical h
  case mintMicrocodeReplace => exact execMintMicrocodeReplace_canonical h
  case mailboxSeqWrite => exact execMailboxSeqWrite_canonical h
  case generalCoreAccess => exact execGeneralCoreAccess_canonical h
  case hostMemoryRequest => exact execHostMemoryRequest_canonical h
  case remoteRequest => exact execRemoteRequest_canonical h
  case walvoFlitReceive => exact execWalvoFlitReceive_canonical h
  case portDown => exact execPortDown_canonical h
  case vaultLineWrite => exact execVaultLineWrite_canonical h
  case frameService => exact execFrameService_canonical h
  case ratio => exact execRatio_canonical h
  case donate => exact execDonate_canonical h
  case withdraw => exact execWithdraw_canonical h
  case demote => exact execDemote_canonical h
  case zeroFrames => exact execZeroFrames_canonical h
  case promote => exact execPromote_canonical h
  case splitPage => exact execSplitPage_canonical h
  case classChange => exact execClassChange_canonical h
  case frameGrant => exact execFrameGrant_canonical h
  case grantRevoke => exact execGrantRevoke_canonical h
  case partitionCreate => exact execPartitionCreate_canonical h
  case partitionReset => exact execPartitionReset_canonical h
  case clusterDrain => exact execClusterDrain_canonical h
  case spareSubstitution => exact execSpareSubstitution_canonical h
  case firmwareUpdate => exact execFirmwareUpdate_canonical h
  case vaultFirmwareReplace => exact execVaultFirmwareReplace_canonical h
  case inspection => exact execInspection_canonical h
  case watchdogIntervalSet => exact execWatchdogIntervalSet_canonical h
  case vfWeightSet => exact execVfWeightSet_canonical h
  case exportWindowSet => exact execExportWindowSet_canonical h
  case demotionTargetSet => exact execDemotionTargetSet_canonical h
  case vaultViewSet => exact execVaultViewSet_canonical h
  case mailboxGrant => exact execMailboxGrant_canonical h
  case microstoreImageLoad => exact execMicrostoreImageLoad_canonical h
  case bucketTableLoad => exact execBucketTableLoad_canonical h
  case moduleReset => exact execModuleReset_canonical h
  case thermalReset => exact execThermalReset_canonical
  case throttleStep => exact execThrottleStep_canonical h
  case patrolScrub => exact execPatrolScrub_canonical h
  case softError => exact execSoftError_canonical h
  case negotiateAlgorithms => exact execNegotiateAlgorithms_canonical h
  case getCertificate => exact execGetCertificate_canonical h
  case challenge => exact execChallenge_canonical h
  case getMeasurements => exact execGetMeasurements_canonical h
  case portRetrainComplete => exact execPortRetrainComplete_canonical h
  case nodeIdAssign => exact execNodeIdAssign_canonical h
  case communicatorSet => exact execCommunicatorSet_canonical h
  case mintSetLoad => exact execMintSetLoad_canonical h
  case promotionBuildComplete => exact execPromotionBuildComplete_canonical h
  all_goals exact slotOperation_canonical slotAlone_of_not_hdrT h

theorem step_canonical (h : Canonical s) (ht : step s = .next t) : Canonical t := by
  unfold step at ht
  split at ht
  · exact Host.Outcome.next.inj ht ▸ stepLocal_canonical h
  · exact Host.Outcome.next.inj ht ▸ h
  next i req l hl =>
    have he : NextCanonical (exec i { s with agenda := l, request := req }) := exec_canonical (by exact h)
    split at ht
    next u hu => exact Host.Outcome.next.inj ht ▸ Canonical.of_mem (he u hu) rfl
    next => cases ht
    next => cases ht

/-- Settles O59: no function of the state leaves memory uncanonical, as every byte it changes is written by the model's memory functions. -/
theorem stepKeepsMemoryCanonical : Obligations.StepKeepsMemoryCanonical := by
  unfold Obligations.StepKeepsMemoryCanonical
  exact fun _ _ h ht => step_canonical h ht

end Sys2Proof.Machine
end
